-- ==== Sys2Proof/Word.lean ====
section
/-! DEFINITION. The words the device reads and writes: bytes, 32-bit and 64-bit words, byte strings. -/

namespace Sys2Proof

/-- One byte of a packet, buffer, ledger payload or frame. -/
abbrev Byte := BitVec 8

/-- A 32-bit field. -/
abbrev Word32 := BitVec 32

/-- A 64-bit field. -/
abbrev Word64 := BitVec 64

/-- A byte string, first byte first. -/
abbrev Bytes := List Byte

/-- A SHAKE256 digest of 512 bits (13 R350). -/
abbrev Digest := BitVec 512

end Sys2Proof
end

