-- ==== Sys2Proof/Syntax.lean ====
section
/-! DEFINITION. The commands and events of spec/opcode_table.json, one constructor each, with the operands that bring in what stands outside the block: the packet, the contents of the host buffers it names, a peer's message, a measured value. The table gives no operands (log entry 1); every layout is the spec's. -/

namespace Sys2Proof

/-! ### Host side -/

/-- The header of an input envelope and what checking its body under the named key shows (13 R358 to R360; log entry 6). -/
structure Envelope where
  client : Nat
  dir : Nat
  kind : Nat
  keygen : Nat
  length : Nat
  seq : Nat
  tagOk : Bool
  deriving DecidableEq, Repr

/-- A packet as it stands in a client's command window (11 R281, R290): its 32-byte header, its parameters (opened, when SEALED), its trailer, the four bytes at SCAN + 40 that R283 reads as a 48-byte packet's SEQ, and the envelopes of sealed parameters and of the host input buffers it names, in order. -/
structure Packet where
  client : Nat
  header : Bytes
  params : Bytes
  trailerSeq : Nat
  trailerLen : Nat
  trailerRes : Nat
  shortSeq : Nat
  envs : List Envelope
  deriving DecidableEq, Repr

/-- A staged object's facts besides its content (11 R308): the bytes delivered in all, and the SHAKE256 digest over every byte before its trailer beside the trailer itself. -/
structure ObjectFacts where
  delivered : Nat
  digest : Digest
  trailer : Digest
  deriving DecidableEq, Repr

/-- A piece of a model image (13 R362, R363): chunks that arrive with it, the first whose tag fails, the header fields and per-die bytes. -/
structure ModelPiece where
  keyId : Nat
  magic : Nat
  version : Nat
  headerZero : Bool
  dieBytes : List Nat
  badChunk : Option Nat
  facts : ObjectFacts
  outputRow : Nat
  deriving DecidableEq, Repr

/-! ### The schedule image (08 R192 to R197, R502, R503) -/

/-- A directory entry (08 R194). -/
structure DirEntry where
  type : Nat
  partition : Nat
  offset : Nat
  length : Nat
  zeroOk : Bool
  sectionZeroOk : Bool
  deriving DecidableEq, Repr

/-- A RING section (08 R195). -/
structure RingSection where
  partition : Nat
  ringId : Nat
  position : Nat
  firstLayer : Nat
  layers : Nat
  modelDigest : Digest
  orderDigest : Nat
  ringDigest : Nat
  members : List Nat
  deriving DecidableEq, Repr

/-- A slot entry (08 R196). -/
structure SlotEntry where
  id : Nat
  lane : Nat
  partition : Nat
  start : Nat
  beats : Nat
  rerunBeats : Nat
  commitBeat : Nat
  commitPhase : Nat
  flags : Nat
  microbatch : Nat
  layer : Nat
  abortLead : Nat
  districts : Nat
  qpos : Nat
  keys : Nat
  pairs : Nat
  deriving DecidableEq, Repr

/-- A transfer entry (08 R197). -/
structure Transfer where
  id : Nat
  link : Nat
  dir : Nat
  slotId : Nat
  peer : Nat
  launchBeat : Nat
  launchPhase : Nat
  frames : Nat
  consumeBeat : Nat
  consumePhase : Nat
  bytes : Nat
  region : Nat
  alt : Nat
  deriving DecidableEq, Repr

/-- A region entry (08 R502). -/
structure Region where
  district : Nat
  block : Nat
  kind : Nat
  flags : Nat
  offset : Nat
  length : Nat
  firstSlot : Nat
  lastSlot : Nat
  mirror : Nat
  deriving DecidableEq, Repr

/-- A microprogram function entry (08 R503). -/
structure MprogFn where
  id : Nat
  codeOffset : Nat
  codeLength : Nat
  ops : Nat
  pairs : List Nat
  deriving DecidableEq, Repr

/-- An MPROG section (08 R503): its header, functions and code. -/
structure Mprog where
  district : Nat
  codeBytes : Nat
  code : Bytes
  blocks : Nat
  cores : Nat
  functions : List MprogFn
  deriving DecidableEq, Repr

/-- A gate entry (12 R325). -/
structure GateEntry where
  beat : Nat
  phase : Nat
  gates : Nat
  partition : Nat
  deriving DecidableEq, Repr

/-- A link entry of the LINKS section with its gate list (12 R328). -/
structure LinkEntry where
  link : Nat
  maxDelay : Nat
  ctrlIdle : Nat
  migrIdle : Nat
  ctrlHi : Int
  ctrlLo : Int
  migrHi : Int
  migrLo : Int
  gates : List GateEntry
  deriving DecidableEq, Repr

/-- An attention pattern block (05 R133). -/
structure Pattern where
  partition : Nat
  window : Nat
  maskRows : Nat
  maskLog2 : Nat
  ropePairing : Nat
  qPerKv : Nat
  maskMap : List Nat
  globals : List (Nat × Nat)
  ropeTurns : List Nat
  masks : List (List Bool)
  deriving DecidableEq, Repr

/-- An adapter matrix pair that a TRAIN section declares (05 R148, R149): the adapter it belongs to, the local layer and projection it is on (0 Q, 1 K, 2 V, 3 output), its rank r, the projection's inputs and outputs (A is r by d_in, B d_out by r), and the masters it starts from as FP32 words, zero beyond them (log entry 94). -/
structure AdapterShape where
  adapter : Nat
  layer : Nat
  projection : Nat
  rank : Nat
  dIn : Nat
  dOut : Nat
  init : List Nat
  deriving DecidableEq, Repr

/-- A TRAIN section (05 R145, R148, R149): TRAIN_LEN, the adapters, and the optimizer (0 SGD with momentum, 1 AdamW) with its hyperparameters as FP32 words: learning rate, momentum or beta1, beta2, epsilon, weight decay (log entry 94). -/
structure Train where
  partition : Nat
  trainLen : Nat
  adapters : List AdapterShape
  optimizer : Nat
  rate : Nat
  beta1 : Nat
  beta2 : Nat
  eps : Nat
  decay : Nat
  deriving DecidableEq, Repr

/-- A fallback plan (08 R215) with the offset and length of each of its tables in the section. -/
structure FallbackPlan where
  kind : Nat
  unit : Nat
  block : Nat
  planId : Nat
  tables : List (Nat × Nat)
  slots : List SlotEntry
  transfers : List Transfer
  links : List LinkEntry
  deriving DecidableEq, Repr

/-- A schedule image of KIND 0 (08 R193). `zeroOk` says that every reserved header field is zero. -/
structure Image where
  magic : Nat
  version : Nat
  totalBytes : Nat
  anchor : Nat
  stepBeats : Nat
  windowBeats : Nat
  plazaOffset : Nat
  plazaBeats : Nat
  period : Nat
  profiles : Nat
  partitions : Nat
  kind : Nat
  slipLead : Nat
  fallbackLead : Nat
  zeroOk : Bool
  dir : List DirEntry
  rings : List RingSection
  slots : List SlotEntry
  regions : List Region
  mprogs : List Mprog
  transfers : List Transfer
  links : List LinkEntry
  patterns : List Pattern
  trains : List Train
  fallbacks : List FallbackPlan
  facts : ObjectFacts
  deriving DecidableEq, Repr

/-- A plan image of KIND 1 (08 R219): its header and directory, the SHRINK section and its role images with their places. -/
structure PlanImage where
  head : Image
  ringId : Nat
  base : Digest
  ringSize : Nat
  roleFor : List Nat
  roleDir : List (Nat × Nat)
  roles : List Image
  facts : ObjectFacts
  deriving DecidableEq, Repr

/-- A vocabulary entry (10 R254). -/
structure VocabEntry where
  token : Nat
  rank : Nat
  len : Nat
  special : Bool
  zeroOk : Bool
  bytes : Bytes
  deriving DecidableEq, Repr

/-- A vocabulary image (10 R254). -/
structure VocabImage where
  magic : Nat
  version : Nat
  entries : Nat
  totalBytes : Nat
  zeroOk : Bool
  list : List VocabEntry
  facts : ObjectFacts
  deriving DecidableEq, Repr

/-! ### Sessions in capsules, handovers and shards -/

/-- A ledger run (03 R70): elements are bytes, or token numbers with TOKENS set. `parent` holds a FORK run's payload. -/
structure Run where
  kind : Nat
  tokens : Bool
  step : Nat
  elems : List Nat
  parent : Nat × Nat
  deriving DecidableEq, Repr

/-- The repetition counts (03 R83): entries most recent first. -/
structure Counts where
  entries : List (Nat × Nat)
  foldedTotal : Nat
  foldedDistinct : Nat
  deriving DecidableEq, Repr

/-- The constraint state (03 R85). Automaton states are held as the matched suffix. SET none is 0xFFFF_FFFF, and `absent` is 0xFFFF_FFFE (10 R263). -/
structure ConState where
  set : Option Nat
  absent : Bool
  ban : Bytes
  force : Bytes
  stop : Bytes
  forcePair : Option Nat
  forceOffset : Nat
  relaxed : Nat
  carry : Bytes
  deriving DecidableEq, Repr

/-- A constraint set as SESSION_CONSTRAIN carries it (10 R260). -/
structure ConSet where
  bans : List Bytes
  pairs : List (Bytes × Bytes)
  stops : List Bytes
  deriving DecidableEq, Repr

/-- A page-list entry (03 R78). -/
structure Page where
  no : Nat
  tier : Nat
  shared : Bool
  tail : Bool
  spec : Bool
  global : Bool
  dirty : Bool
  grade : Nat
  fill : Nat
  frame : Nat
  deriving DecidableEq, Repr

/-- The travelling part of a session: what HO_FINAL, a session capsule and a shard record carry (04 R109, 12 R340, 16 R424); `capsules` are the page capsules that come with it, in page order. -/
structure SessionImage where
  handle : Nat
  client : Nat
  vocab : Bool
  stopInc : Bool
  grade : Nat
  fromProfile : Bool
  deadPolicy : Nat
  vocabIndex : Nat
  spec : Nat
  committed : Nat
  ledgerPos : Nat
  retired : Nat
  genKey : Nat
  wake : Nat
  maxLen : Nat
  leadRow : Bool
  pages : List Page
  counts : Counts
  con : ConState
  setSource : Option ConSet
  ledger : List Run
  capsules : List Bytes
  deriving DecidableEq, Repr

/-- One entry of a session capsule's part directory (04 R109). -/
structure PartEntry where
  position : Nat
  firstLayer : Nat
  layers : Nat
  kvHeads : Nat
  headDim : Nat
  kvFormat : Nat
  deriving DecidableEq, Repr

/-- A session capsule offered to SESSION_IMPORT (04 R109, R110). -/
structure SessionCapsule where
  magic : Nat
  version : Nat
  totalBytes : Nat
  modelDigest : Nat
  parts : List PartEntry
  body : SessionImage
  facts : ObjectFacts
  deriving DecidableEq, Repr

/-- A composition map entry (12 R333); IDENTITY as a number, 32 links of (peer, peer link). -/
structure MapEntry where
  index : Nat
  leaving : Bool
  identity : Nat
  links : List (Nat × Nat)
  deriving DecidableEq, Repr

/-- A composition map (12 R333). -/
structure CompMap where
  magic : Nat
  version : Nat
  count : Nat
  epoch : Nat
  graceBeats : Nat
  root : Nat
  zeroOk : Bool
  devices : List MapEntry
  facts : ObjectFacts
  deriving DecidableEq, Repr

/-- A manifest offered to RESTORE (16 R426, R430): `signed` says its certificate and signature verify. -/
structure Manifest where
  lengthOk : Bool
  magic : Nat
  version : Nat
  zeroOk : Bool
  badOffset : Nat
  signed : Bool
  tenantDigest : Digest
  step : Nat
  modelDigest : Digest
  positions : List PartEntry
  vocabs : List Nat
  shardDigests : List Digest
  deriving DecidableEq, Repr

/-- A shard listed for RESTORE (16 R424, R428): the records of this member's position. -/
structure ShardRecord where
  home : Bool
  rebuild : Bool
  body : SessionImage
  deriving DecidableEq, Repr

structure Shard where
  step : Nat
  position : Nat
  digest : Digest
  adapters : Bytes
  records : List ShardRecord
  deriving DecidableEq, Repr

/-! ### Security objects -/

/-- A tenant policy (13 R353), read from its bytes, with its SHAKE256 digest. -/
structure TenantPolicy where
  magic : Nat
  version : Nat
  allow : Nat
  zero7 : Bool
  zero24 : Bool
  allowList : List Digest
  length : Nat
  digest : Digest
  deriving DecidableEq, Repr

/-- One key of a release message (13 R354). -/
structure KeyEntry where
  kind : Nat
  index : Nat
  keyId : Nat
  key : Nat
  zeroOk : Bool
  deriving DecidableEq, Repr

/-- A key-release message (13 R354): `opens` says decapsulation and the GCM tag verify. -/
structure KeyMessage where
  length : Nat
  magic : Nat
  version : Nat
  zeroOk : Bool
  entriesField : Nat
  quoteDigest : Digest
  opens : Bool
  entries : List KeyEntry
  deriving DecidableEq, Repr

/-- A firmware image (15 R410) as read from its bytes, with the version it carries and whether its signature verifies (log entry 6). -/
structure FirmwareImage where
  magic : Nat
  version : Nat
  zeroOk : Bool
  rollback : Nat
  totalBytes : Nat
  fwVersion : Nat
  signatureOk : Bool
  facts : ObjectFacts
  deriving DecidableEq, Repr

/-- What the last FW_STAGE piece completes: the image's bytes, the version its body carries, and whether the signature verifies under Taulaver's key. -/
structure FirmwareObject where
  bytes : Bytes
  fwVersion : Nat
  signatureOk : Bool
  deriving DecidableEq, Repr

/-! ### Work of the Fabric -/

/-- Where the bytes of an operand row stand: the core's scratchpad, a Block store region, or the adapter of the pass (its number and the first element; 05 R148). -/
inductive RowSource where
  | scratch (offset : Nat)
  | region (index offset : Nat)
  | adapter (index element : Nat)
  deriving DecidableEq, Repr

/-- Where results go: the scratchpad, a Block store region, the other participants of a reduction through the reduction switch (07 R175, R177, R179), or, of the summed loss of a training pass, its reply (05 R145). -/
inductive RowDest where
  | scratch (offset : Nat)
  | region (index offset : Nat)
  | peers
  | loss (handle : Nat)
  deriving DecidableEq, Repr

/-- An operand row that a step reads in place of the row it names: 0 the A elements or the first row, 1 the B elements or the second row, 2 the third row, 3 and 4 the scale codes of A and B, 5 the E_max of other participants, 6 a compact accumulator. -/
structure RowRead where
  row : Nat
  count : Nat
  source : RowSource
  deriving DecidableEq, Repr

/-- A received compact accumulator (06 R165) at its consumer: its 32 bytes and the link it came on. -/
structure CompactAcc where
  bytes : Bytes
  link : Nat
  deriving DecidableEq, Repr

/-- A dot product of a command (07 R181: ALIGN, ALIGN_X, MMA or MMA_T, ACC_IN, then ROUND or ACC_OUT): element formats (08 R503 codes), element codes, one scale code for each 32 elements (none: the tensor is stored without scales, 06 R151); for a split reduction the E_max of the other participants (06 R164) and the compact accumulators that join; output format (0 E4M3, 1 E5M2, 5 INT8, 6 BF16, 7 FP32, 8 compact, 9 an adapter gradient: its adapter and element, 05 R148), SAT, where the output goes, and what follows the conversion of an FP32 output: 0x28 times the constant (SCORE), 0x2B divided by it (PV), 0 nothing. `upset` is what a fault of the core's datapath adds to the window (06 R169). -/
structure DotJob where
  fmtA : Nat
  fmtB : Nat
  as : List Nat
  bs : List Nat
  scalesA : List Nat
  scalesB : List Nat
  split : Bool
  maxima : List Int
  received : List CompactAcc
  out : Nat
  sat : Bool
  dest : RowDest
  post : Nat
  const : Nat
  adapter : Nat × Nat
  upset : Int
  deriving DecidableEq, Repr

/-- One application of a configured operation of 07 R181 in a command: its code, its operand rows as FP32 words (positions and turn frequencies as numbers), a constant, SAT for CVT, the session, local layer and head of an attention operation, and where the results go. -/
structure OpJob where
  code : Nat
  xs : List Nat
  ys : List Nat
  zs : List Nat
  const : Nat
  sat : Bool
  handle : Nat
  layer : Nat
  head : Nat
  dest : RowDest
  deriving DecidableEq, Repr

/-- The row of a position in a layer of a pass (05 R129, R130, R138): 0 a query, 1 a key, 2 a value, from its FP32 elements. -/
structure RowJob where
  kind : Nat
  handle : Nat
  head : Nat
  position : Nat
  xs : List Nat
  dest : RowDest
  deriving DecidableEq, Repr

/-- A step of a layer command, in the order its microprogram runs them (07 R181): a dot product, a configured operation, a row for a position, WLOAD of bytes of a weight chunk, KVREAD of bytes of a page, STAGE of bytes that stand elsewhere. -/
inductive FabStep where
  | dot (reads : List RowRead) (j : DotJob)
  | vec (reads : List RowRead) (j : OpJob)
  | row (reads : List RowRead) (j : RowJob)
  | wload (chunk offset len region at_ : Nat)
  | kvread (handle pageNo offset len region at_ : Nat)
  | stage (source : RowSource) (len region at_ : Nat)
  deriving DecidableEq, Repr

/-- Tile bytes that a commit releases from a STAGE region to a session's page (01 R23, R27; 07 R177). -/
structure TileWrite where
  handle : Nat
  pageNo : Nat
  offset : Nat
  len : Nat
  region : Nat
  at_ : Nat
  deriving DecidableEq, Repr

/-- Activations that a commit hands from a STAGE region to their ACT region (07 R177). -/
structure HandOver where
  len : Nat
  region : Nat
  at_ : Nat
  act : Nat
  actAt : Nat
  deriving DecidableEq, Repr

/-- A layer command at its commit point: slot, run count, physical core and the logical core it serves, the steps it ran, and what COMMIT releases of its staged effects (07 R181, 0x3D). -/
structure LayerCommit where
  slotId : Nat
  run : Nat
  core : Nat
  logical : Nat
  steps : List FabStep
  writes : List TileWrite
  hands : List HandOver
  deriving DecidableEq, Repr

/-- What the Fabric hands the sampling commit for one member: one output row of FP32 logits per position in order, the drafts it made for the positions that follow (05 R140, R141), and for a session of another home the committed length its home reaches with this commit. -/
structure MemberOutput where
  handle : Nat
  rows : List (List Nat)
  newDrafts : List Nat
  committed : Nat := 0
  deriving DecidableEq, Repr

structure SamplingCommit where
  slotId : Nat
  step : Nat
  partition : Nat
  microbatch : Nat
  members : List MemberOutput
  run : Nat := 0
  deriving DecidableEq, Repr

/-! ### Messages -/

/-- A schedule notice (08 R209). -/
structure Notice where
  kind : Nat
  partition : Nat
  slotId : Nat
  planId : Nat
  step : Nat
  e : Nat
  delta : Nat
  run : Nat
  microbatch : Nat
  source : Nat
  deriving DecidableEq, Repr

/-- A CANDIDATE entry (12 R341). -/
structure Candidate where
  handle : Nat
  candidate : Bool
  replayOnly : Bool
  grantMax : Nat
  client : Nat
  pieces : Nat
  qpos : Nat
  order : Nat
  admitBeat : Nat
  admitPhase : Nat
  pages : List Nat
  deriving DecidableEq, Repr

/-- A SEAL entry (12 R341). -/
structure SealEntry where
  handle : Nat
  piece : Nat
  pieces : Nat
  drafts : Nat
  kept : Bool
  chunk : Bool
  replay : Bool
  qpos : Nat
  deriving DecidableEq, Repr

/-- A SEAL message: one microbatch (12 R341). -/
structure SealMsg where
  partition : Nat
  microbatch : Nat
  step : Nat
  entries : List SealEntry
  deriving DecidableEq, Repr

/-- A SESSION_NOTICE (12 R340). -/
structure SessionNotice where
  handle : Nat
  status : Nat
  step : Nat
  atBeat : Nat
  atPhase : Nat
  deriving DecidableEq, Repr

/-- HO_REQUEST (12 R340). -/
structure HoRequest where
  source : Nat
  handle : Nat
  partition : Nat
  state : Nat
  ringSize : Nat
  pages : Nat
  ledgerBytes : Nat
  modelDigest : Digest
  layers : List (Nat × Nat)
  deriving DecidableEq, Repr

/-- A BULK SHARD message (16 R429). -/
structure ShardMsg where
  partition : Nat
  position : Nat
  step : Nat
  value : Nat
  digest : Digest
  deriving DecidableEq, Repr

/-- A link frame (12 R321) with what its CRCs show. -/
structure LinkFrame where
  cls : Nat
  type : Nat
  len : Nat
  linkSeq : Nat
  step : Nat
  id : Nat
  frame : Nat
  run : Nat
  flags : Nat
  src : Nat
  dst : Nat
  epoch : Nat
  hcrcOk : Bool
  pcrcOk : Bool
  payload : Bytes
  deriving DecidableEq, Repr

/-- A control word (12 R320, R331). -/
inductive ControlWord where
  | ack (seq : Nat)
  | nak (seq : Nat)
  | credit (ctrl migr bulk : Nat)
  | laneFailed (lane : Nat)
  deriving DecidableEq, Repr

/-- What link training found and exchanged (12 R318, 02 R55, 13 R365): aligned lanes as a mask, the peer's identity and trim, the round trip in picoseconds with the factory parts, and whether the peer's identity, certificate, signature and tenant digest pass. -/
structure TrainResult where
  lanes : Nat
  peer : Nat
  peerLink : Nat
  peerTrim : Int
  mapDigestAgrees : Bool
  peerTrusted : Bool
  roundTrip : Int
  peerTx : Int
  peerRx : Int
  deriving DecidableEq, Repr

/-- Where an uncorrectable error was found (15 R402). -/
inductive ErrorPlace where
  | scratch (district block core slot : Nat)
  | region (district block index slot : Nat) (mirrorBad : Bool)
  | weight (model chunk slot : Nat) (secondBad : Bool)
  | frame (addr : Nat)
  | capsule (addr : Nat)
  | descriptor (slot : Nat)
  | counts (slot : Nat)
  | constraint (slot : Nat)
  | segmentOne (segment copy : Nat)
  | segmentBoth (segment : Nat)
  | tail (slot : Nat) (bothBad : Bool)
  | unitStore
  | barRead (addr : Nat)
  deriving DecidableEq, Repr

/-- How one Mover operation stands at the end of a Mover slot: its number, whether its last byte moved, what went wrong, if anything (0 nothing, 1 capsule unreadable, 2 host buffer unwritable, 3 lender lost), and for an unreadable capsule the page it stands for. -/
structure MoverResult where
  op : Nat
  done : Bool
  failure : Nat
  pageNo : Nat := 0
  deriving DecidableEq, Repr

/-- Host writes to a BAR0 register of the RW kind. -/
structure RegWrite where
  offset : Nat
  value : Word64
  deriving DecidableEq, Repr

/-- The commands and events the device takes: one constructor per row of spec/opcode_table.json, in the table's order. -/
inductive Instr where
  | packetRecognise (p : Packet)
  | pad (p : Packet)
  | ping (p : Packet)
  | queryDevice (p : Packet)
  | setParam (p : Packet)
  | cliRunPreempt (n : Nat)
  | preemptionComplete (n : Nat)
  | cliRunResume (n : Nat)
  | queueStateWrite (n scan seq replyAt replyCount : Nat)
  | cadPeriodChange (code : Nat)
  | cadModeChange (mode : Nat)
  | deviceStateRequest (state : Nat)
  | getParam (p : Packet)
  | modelStage (p : Packet) (piece : ModelPiece)
  | modelUnload (p : Packet)
  | partitionDefine (p : Packet)
  | scheduleLoad (p : Packet) (obj : Bytes)
  | vocabLoad (p : Packet) (obj : Bytes)
  | sessionOpen (p : Packet)
  | sessionFork (p : Packet)
  | sessionAppend (p : Packet) (buf : Bytes)
  | tokenizeEnd (slot : Nat)
  | sessionGenerate (p : Packet)
  | trainingGenerate (p : Packet)
  | sessionPark (p : Packet)
  | sessionRevive (p : Packet)
  | sessionCancel (p : Packet)
  | sessionClose (p : Packet)
  | sessionQuery (p : Packet)
  | sessionConstrain (p : Packet)
  | sessionExport (p : Packet)
  | sessionImport (p : Packet) (cap : SessionCapsule)
  | handoverOut (p : Packet)
  | handoverIn (p : Packet)
  | compositionSet (p : Packet) (buf : Bytes)
  | checkpointBegin (p : Packet)
  | checkpointShard (p : Packet)
  | restore (p : Packet) (manifests : List Manifest) (report : Nat) (shards : List Shard)
  | shrinkArm (p : Packet)
  | attestQuote (p : Packet)
  | quoteSigned (quoteDigest : Digest)
  | keyAccept (p : Packet) (msg : KeyMessage)
  | tenantBind (p : Packet) (buf : Bytes)
  | tenantRelease (p : Packet)
  | tenantReleaseRun
  | fwStage (p : Packet) (obj : FirmwareObject)
  | fwActivate (p : Packet)
  | fwTakeover
  | fwResume
  | fwActivateTimeout
  | calUserWrite (p : Packet) (verifies : Bool)
  | calRead (p : Packet)
  | custodialRollback (p : Packet)
  | custodialDebug (p : Packet)
  | identityReset (p : Packet)
  | factoryReturn (p : Packet)
  | sealOverride (p : Packet)
  | presencePolicy (p : Packet)
  | eventSnapshot (p : Packet)
  | statsRead (p : Packet)
  | unitFence (p : Packet)
  | dimmEvacuate (p : Packet)
  | dimmAdmit (p : Packet)
  | dimmSpdRead (channel sizeGiB : Nat) (ok : Bool)
  | dimmTrainDone (channel : Nat) (ok : Bool)
  | dimmScrubDone (channel : Nat)
  | profileSet (p : Packet)
  | replyRingWrite (n : Nat) (cfg : Bool) (v : Word64)
  | replyAckWrite (n : Nat) (v : Word64)
  | journalAckWrite (v : Word64)
  | recallTailWrite (v : Word64) (found : List (Nat × Nat × Run × Bool))
  | flagClearW1c (offset : Nat) (mask : Word32) (hwSets : Word32)
  | mgmtFlagClear (groups : Nat) (hwSets : List (Nat × Nat))
  | mgmtFlagCntRead
  | cadBeatLowRead
  | registerWrite (w : RegWrite)
  | badAccess (offset size : Nat) (write : Bool)
  | windowRead (offset len : Nat)
  | windowWrite (offset : Nat)
  | stepBoundary
  | slotStart (slotId : Nat)
  | commitPoint (c : LayerCommit)
  | samplingCommit (c : SamplingCommit)
  | lateArrival (link slotId transfer lateness : Nat)
  | plazaLane
  | mirrorPass (written : Bool)
  | moverSlotEnd (results : List MoverResult)
  | prefetchPull (slot : Nat)
  | prefetchRevive (slot : Nat)
  | beatMark (spacingOk : Bool) (phaseErr : Int)
  | beatNumber (source : Nat) (bytes : Bytes)
  | numLost
  | marksAbsent
  | acqFail
  | holdLimit
  | beatNumberSend
  | cadenceMarkSend
  | cadenceMark (link beat phase : Nat)
  | xrefLost
  | xrefReturn
  | departure (member : Nat) (boundary : Nat) (rings : List Nat)
  | memberLost (member : Nat)
  | slipNotice (n : Notice)
  | slipApply (partition : Nat)
  | abortNotice (n : Notice)
  | deferNotice (n : Notice)
  | fallbackNotice (n : Notice)
  | imageReady (member ringId ringDigest activateAt : Nat)
  | mapDigest (link epoch : Nat) (digest : Digest)
  | lenderAdvert (member freeMiB hops : Nat)
  | candidate (partition step : Nat) (entries : List Candidate)
  | sealMessage (m : SealMsg)
  | cancelNotice (n : SessionNotice)
  | withdrawal (n : SessionNotice)
  | copyNotice (n : SessionNotice)
  | capsuleLostNotice (n : SessionNotice)
  | freeTargetSlot (n : SessionNotice)
  | forward (sender : Nat) (p : Packet)
  | forwardReply (client tag status detail handle beat count0 count1 : Nat)
  | hoRequest (r : HoRequest)
  | hoAnswer (handle status newHandle : Nat)
  | hoConfirm (handle newHandle epoch : Nat)
  | hoAbort (handle newHandle status : Nat)
  | hoTimeout (slot : Nat)
  | hoTargetGrace (slot : Nat)
  | tiles (newHandle pageNo tile : Nat) (bytes : Bytes)
  | hoFinal (newHandle : Nat) (img : SessionImage)
  | hoOwnership (newHandle : Nat) (img : SessionImage)
  | capsulePut (borrower ref : Nat) (body : Bytes)
  | capsuleGet (borrower ref : Nat)
  | capsuleData (ref : Nat) (body : Bytes) (lender : Nat)
  | capsuleFree (borrower ref : Nat)
  | part (handle position : Nat) (body : Bytes)
  | hostdata (source tag addr : Nat) (data : Bytes) (cap : Option SessionCapsule)
  | shardDigest (m : ShardMsg)
  | shardReport (m : ShardMsg)
  | shardCommit (m : ShardMsg)
  | shardDone (m : ShardMsg)
  | shardAllDone (m : ShardMsg)
  | restoreTimeout (partition : Nat)
  | ckptHoldExpiry (partition : Nat)
  | frameReceive (link : Nat) (bytes : Bytes) (consumeSlack : Int) (corrected uncorrectable : Nat)
  | frameTransmit (link phase : Nat) (queued : List LinkFrame)
  | controlWord (link : Nat) (w : ControlWord) (worstLane : Nat)
  | linkSignalDetect (link : Nat)
  | trainingComplete (link : Nat) (r : TrainResult)
  | trainFail (link : Nat)
  | laneFail (link lane : Nat)
  | retrainDone (link : Nat)
  | retrainTimeout (link : Nat)
  | halfRetrain (link : Nat)
  | linkPortReset (link : Nat)
  | graceEnd
  | remoteGraceEnd (slot : Nat)
  | uncorrectableError (place : ErrorPlace)
  | mprogError (district block core slotId : Nat)
  | weightTagFail (model chunk slotId : Nat)
  | correctableError (memory row : Nat)
  | hbmSpareStart (stack channel : Nat)
  | hbmSpareCopyDone (stack : Nat)
  | recallTimeout (slot : Nat)
  | supplyWarn (mV : Nat)
  | supplyNormal (mV : Nat)
  | reducedEntry (mV mA : Nat)
  | overcurrent (mV mA : Nat)
  | reducedExit (mV : Nat)
  | rideLimit (mV : Nat)
  | supplyStop (mV : Nat)
  | overvolt (mV : Nat)
  | stopRecordClose
  | stopRailsOff
  | stopComplete
  | avsAck (rail : Nat)
  | avsTimeout (rail : Nat)
  | unitEntryPoint
  | unitWakeLock
  | deviceStateDone
  | presence
  | presenceWindowEnd
  | sealOpen
  | decapKeyExpiry (quoteDigest : Digest)
  | akCertified
  | hostLoss (cause : Nat)
  | hostHoldExpiry
  | vfFlr (n : Nat)
  | hostPortReset
  | deviceReset (slotAOk slotBOk factoryOk : Bool)
  | watchdogExpiry (takeoverOk : Bool)
  | blockPartialReset (district block : Nat)
  | ddrControllerReset (channel : Nat)
  | ddrControllerRestartEnd (channel : Nat) (inTime : Bool)
  | ddrPresenceChange (channel : Nat) (present : Bool)
  | ddrPgRelease (channel : Nat)
  | powerOnQualified (sealClosed slotAOk slotBOk factoryOk senseOpen : Bool)
  | firmwareStart (calValid : Bool) (failingUnits : List (Nat × Nat))
  | trainingDone (t1MiB t2MiB : Nat) (ddrGiB : List (Nat × Nat)) (failing : List (Nat × Nat))
  | thermtrip (sensor : Nat)
  | moverSlotStart (slotId : Nat)
  | hostReadCompletion (op : Nat)
  | sealLoopClose
  | vfEnable (on : Bool)
  | blockSelfTestDone (district block : Nat) (pass : Bool)
  | restoreStagingDone (partition : Nat) (value : Nat)
  | eventSnapshotDone
  | laneRepairDone (link : Nat)
  | linkTrainRetry (link : Nat)
  | timeRecord
  deriving DecidableEq, Repr

end Sys2Proof
end

