-- ==== Sys2Proof/Config.lean ====
section
/-! DEFINITION. The values the manual leaves open: each is a constant without a body, so nothing can be proved of its value. -/

namespace Sys2Proof

/-- The device's random source (03 R87, 13 R364, R366): the n-th draw. Free value, log entry 8. -/
opaque Config.random : Nat → Word64

/-- The Zstandard frame (RFC 8878) the device's encoder makes of a transformed tile or of a ledger segment (04 R102, R109; the encoder is not fixed). Free value, log entry 11. -/
opaque Config.zstdFrame : List Byte → List Byte

/-- The data of a Zstandard frame (RFC 8878), none where the bytes are no frame (04 R102; the decoder stands uninterpreted here). Free value, log entry 11. -/
opaque Config.zstdData : List Byte → Option (List Byte)

/-- Byte i of an object that other devices or the manufacturer make, whose bytes do not reach this device (04 R109, 16 R426). Free value, log entry 11. -/
opaque Config.storedByte : Nat → Nat → Byte

/-- Number that SESSION_QUERY shows for an automaton state, given the matched bytes (03 R85: the numbering of states is not given). Free value, log entry 13. -/
opaque Config.automatonNumber : List Byte → Word32

/-- Bytes of the Unit store a compiled set takes, given set number and upper bound (10 R261 gives the bound only). Free value, log entry 13. -/
opaque Config.setBytes : Nat → Nat → Nat

/-- Whether an object at an address lies on a channel of an HBM stack (15 R400: the manual gives no map from addresses to channels). Free value, log entry 14. -/
opaque Config.hbmHolds : Nat → Nat → Nat → Bool

/-- Beats a reply estimates where the manual gives no formula (13 R366, 17 R447). Free value, log entry 14. -/
opaque Config.estimate : Nat → Nat

/-- A result the manual does not state for its operands, drawn by number. Free value, log entry 14. -/
opaque Config.free : Nat → Nat

/-- The member of a handover's target ring whose position has the number of a source position (04 R123); the copy notice does not carry it (12 R340). Free value, log entry 14. -/
opaque Config.matchingMember : Nat → Nat → Nat

/-- A byte of a model's plaintext weights, by the model's measurement, chunk and offset: the device stages them sealed, and their plaintext reaches the Fabric only (07 R185). Free value, log entry 14. -/
opaque Config.weightByte : Nat → Nat → Nat → Byte

/-- A result the manual does not state, as a function of its operands. Free value, log entry 87. -/
opaque Config.freeOf : List Nat → Nat

end Sys2Proof
end

