-- ==== Sys2Proof/Machine/Codec.lean ====
section
/-! DEFINITION. Little-endian fields (00 R7), bit fields, and the three check codes the layouts use: CRC-16/CCITT-FALSE (02 R42, 08 R209) and CRC-32C (03 R68, 04 R100, 12 R321). -/

namespace Sys2Proof.Machine

/-- The number a little-endian byte string holds. -/
def leNat : Bytes → Nat
  | [] => 0
  | b :: rest => b.toNat + 256 * leNat rest

/-- A number as `n` little-endian bytes. -/
def leBytes : Nat → Nat → Bytes
  | 0, _ => []
  | n + 1, v => BitVec.ofNat 8 v :: leBytes n (v / 256)

/-- The field of `len` bytes at an offset; bytes past the end read 0. -/
def fieldAt (b : Bytes) (off len : Nat) : Nat := leNat ((b.drop off).take len)

/-- Bits [lo + len - 1 : lo] of a number. -/
def bitsOf (v lo len : Nat) : Nat := v / 2 ^ lo % 2 ^ len

/-- Bit i of a number. -/
def bitOf (v i : Nat) : Bool := v / 2 ^ i % 2 == 1

/-- A flag as a bit. -/
def boolNat (b : Bool) : Nat := if b then 1 else 0

/-- A signed number as an unsigned field of `w` bits. -/
def signedField (w : Nat) (v : Int) : Nat := (v % (2 ^ w : Nat)).toNat

/-- The signed number a field of `w` bits holds. -/
def signedOf (w v : Nat) : Int :=
  if v % 2 ^ w < 2 ^ (w - 1) then ((v % 2 ^ w : Nat) : Int) else ((v % 2 ^ w : Nat) : Int) - ((2 ^ w : Nat) : Int)

/-- Whether every byte of the span is zero. -/
def zeroSpan (b : Bytes) (off len : Nat) : Bool := ((b.drop off).take len).all (· == 0)

/-- Offset of the first nonzero byte of the span, counted from the string's start. -/
def firstNonzero (b : Bytes) (off : Nat) : Nat → Option Nat
  | 0 => none
  | len + 1 =>
    if (b.drop off).headD 0 == 0 then firstNonzero b (off + 1) len else some off

def crc16Bit (crc : BitVec 16) : Nat → BitVec 16
  | 0 => crc
  | n + 1 => crc16Bit (if crc.msb then (crc <<< 1) ^^^ 0x1021#16 else crc <<< 1) n

/-- CRC-16/CCITT-FALSE: polynomial 0x1021, initial 0xFFFF, no reflection. -/
def crc16 (b : Bytes) : Nat :=
  (b.foldl (fun c x => crc16Bit (c ^^^ ((x.setWidth 16 : BitVec 16) <<< (8 : Nat))) 8) 0xFFFF#16).toNat

def crc32cBit (crc : BitVec 32) : Nat → BitVec 32
  | 0 => crc
  | n + 1 => crc32cBit (if crc.getLsbD 0 then (crc >>> 1) ^^^ 0x82F63B78#32 else crc >>> 1) n

/-- CRC-32C (Castagnoli), reflected. -/
def crc32c (b : Bytes) : Nat :=
  ((b.foldl (fun c x => crc32cBit (c ^^^ (x.setWidth 32 : BitVec 32)) 8) 0xFFFFFFFF#32) ^^^ 0xFFFFFFFF#32).toNat

end Sys2Proof.Machine
end

