-- ==== Sys2Proof/Machine/Table.lean ====
section
/-! DEFINITION. A finite table from numbers to values: the form every numbered set of units of the device has (00 R13: clients, links, Districts, Blocks, slots, frames). -/

namespace Sys2Proof.Machine

/-- A finite table, keys rising; a key that is absent stands for the value of a unit nothing has touched. -/
abbrev FMap (α : Type) := List (Nat × α)

/-- The entry at a key. -/
def FMap.get? {α : Type} : FMap α → Nat → Option α
  | [], _ => none
  | (k, v) :: rest, key => if k = key then some v else FMap.get? rest key

/-- The entry at a key, or a default. -/
def FMap.getD {α : Type} (m : FMap α) (key : Nat) (d : α) : α := (FMap.get? m key).getD d

/-- Puts a value at a key, keeping the keys in order. -/
def FMap.put {α : Type} : FMap α → Nat → α → FMap α
  | [], key, v => [(key, v)]
  | (k, w) :: rest, key, v =>
    if k = key then (key, v) :: rest
    else if key < k then (key, v) :: (k, w) :: rest
    else (k, w) :: FMap.put rest key v

/-- Removes every entry at a key. -/
def FMap.del {α : Type} : FMap α → Nat → FMap α
  | [], _ => []
  | (k, w) :: rest, key => if k = key then FMap.del rest key else (k, w) :: FMap.del rest key

/-- Applies a function to every entry. -/
def FMap.mapVals {α : Type} (f : Nat → α → α) : FMap α → FMap α
  | [] => []
  | (k, v) :: rest => (k, f k v) :: FMap.mapVals f rest

/-- Whether some entry meets a test. -/
def FMap.any {α : Type} (p : Nat → α → Bool) : FMap α → Bool
  | [] => false
  | (k, v) :: rest => p k v || FMap.any p rest

/-- How many entries meet a test. -/
def FMap.count {α : Type} (p : Nat → α → Bool) (m : FMap α) : Nat :=
  m.foldl (fun n e => if p e.1 e.2 then n + 1 else n) 0

/-- The value rounded up when a number is divided. -/
def ceilDiv (a b : Nat) : Nat := if b = 0 then 0 else (a + b - 1) / b

/-- A count that stops at a greatest value. -/
def satAdd (limit a b : Nat) : Nat := if a + b ≤ limit then a + b else limit

end Sys2Proof.Machine
end

