-- ==== Sys2Proof/Machine/State.lean ====
section
/-! DEFINITION. The state of one FN48 module as plain data (INVENTORY.md lists each field with its rule), the reasons a step can stop, and the state after reset. -/

namespace Sys2Proof.Machine

/-- Why a step ends in a fault: no row of the block stops the machine, so there is no reason to name. -/
inductive Fault
  deriving DecidableEq, Repr

/-- Why a step is refused. -/
inductive Refusal where
  /-- No meaning has been written for the row. Raised by Dispatch only; safe. -/
  | notModelled (mnemonic : String)
  deriving DecidableEq, Repr

/-! ### Commands in progress -/

/-- The packet a reply answers (11 R290, R294); `sender` is the composition index a forwarded packet came from (12 R338). -/
structure Origin where
  client : Nat
  tag : Nat
  seq : Nat
  handle : Nat
  opcode : Nat
  sender : Option Nat
  beat : Nat
  phase : Nat
  deriving DecidableEq, Repr

/-- What a command that has not yet given its final reply is waiting for. -/
inductive Work where
  | generate (slot : Nat)
  | park (slot : Nat)
  | revive (slot : Nat)
  | capsuleOut (slot : Nat)
  | capsuleIn (slot : Nat)
  | handover (slot : Nat)
  | tokenize (slot : Nat)
  | setParam (target : Nat)
  | composition
  | schedule
  | checkpoint (partition : Nat)
  | shardOut (partition : Nat)
  | restoring (partition : Nat)
  | release
  | activate
  | fence (unit id : Nat)
  | dimm (channel : Nat)
  | profile
  | snapshot
  | quote (serial : Nat)
  | custodial (sub value : Nat)
  | forwarded (tag : Nat)
  deriving DecidableEq, Repr

/-- A command without its final reply. -/
structure Command where
  work : Work
  origin : Origin
  deriving DecidableEq, Repr

/-! ### What has left the device -/

/-- A reply (11 R294). -/
structure Reply where
  client : Nat
  at_ : Nat
  tag : Nat
  status : Nat
  detail : Nat
  handle : Nat
  beat : Nat
  count0 : Nat
  count1 : Nat
  deriving DecidableEq, Repr

/-- Bytes written to a host buffer: plain (`kind` none) or as envelopes of a KIND, the first with the SEQ given (13 R358, R359). -/
structure HostWrite where
  client : Nat
  addr : Nat
  kind : Option Nat
  bytes : Bytes
  seq : Nat := 0
  deriving DecidableEq, Repr

/-- A record written to the journal ring (03 R74). -/
structure JournalRecord where
  handle : Nat
  step : Nat
  first : Nat
  seq : Nat
  kind : Nat
  flags : Nat
  count : Nat
  payload : Bytes
  deriving DecidableEq, Repr

/-- A message handed to the links (12 R340): `dest` is a composition index, or none for every up link. -/
inductive Msg where
  | notice (dest : Option Nat) (n : Notice)
  | session (dest : Nat) (kind : Nat) (n : SessionNotice)
  | sealOf (dest : Option Nat) (m : SealMsg)
  | candidateOf (dest : Nat) (partition step : Nat) (c : Candidate)
  | beatNumber (link : Nat) (bytes : Bytes)
  | beatSerial (bytes : Bytes)
  | cadenceMark (link beat phase : Nat)
  | departure (boundary : Nat) (rings : List Nat)
  | departureOf (member boundary : Nat) (rings : List Nat)
  | imageReady (dest : Nat) (ringId digest at_ : Nat)
  | mapDigest (link epoch : Nat) (digest : Digest)
  | lenderAdvert (freeMiB : Nat)
  | hoRequest (dest : Nat) (r : HoRequest)
  | hoAnswer (dest handle status newHandle : Nat)
  | hoConfirm (dest handle newHandle epoch : Nat)
  | hoAbort (dest handle newHandle status : Nat)
  | tiles (dest newHandle pageNo tile : Nat) (bytes : Bytes)
  | hoFinal (dest newHandle : Nat) (img : SessionImage)
  | hoOwnership (dest newHandle : Nat) (img : SessionImage)
  | capsulePut (dest ref : Nat) (body : Bytes)
  | capsuleGet (dest ref : Nat)
  | capsuleData (dest ref : Nat) (body : Bytes)
  | capsuleFree (dest ref : Nat)
  | forward (dest : Nat) (p : Packet)
  | forwardReply (dest : Nat) (r : Reply)
  | part (dest handle position : Nat) (body : Bytes)
  | hostdata (dest tag addr : Nat) (bytes : Bytes)
  | shard (dest type : Nat) (m : ShardMsg)
  | frame (link : Nat) (bytes : Bytes)
  | partialSum (bytes : Bytes)
  | alignMax (bytes : Bytes)
  | control (link : Nat) (w : ControlWord)
  deriving DecidableEq, Repr

/-- Everything the device has sent: the model's own record of it (log entry 7), oldest first. -/
structure Outbox where
  replies : List Reply := []
  shadows : List (Nat × Nat × Nat) := []
  msix : List (Nat × Nat) := []
  host : List HostWrite := []
  journal : List JournalRecord := []
  msgs : List Msg := []
  reads : List Bytes := []
  deriving DecidableEq, Repr

/-! ### Host port and clients -/

/-- One W1C flag with its event counters (19 R477), and the beat of the event vector. -/
structure Flag where
  on : Bool := false
  sets : Nat := 0
  collisions : Nat := 0
  deriving DecidableEq, Repr

/-- One RFC 2698 meter (11 R296). -/
structure Meter where
  cir : Nat := 0
  pir : Nat := 0
  cbs : Nat := 0
  pbs : Nat := 0
  tc : Nat := 0
  tp : Nat := 0
  deriving DecidableEq, Repr

/-- The slowdown sums and latched record of a client (09 R247). -/
structure Slow where
  observed : Nat := 0
  solo : Nat := 0
  commands : Nat := 0
  worst : Nat := 0
  latched : Bytes := List.replicate 32 0
  deriving DecidableEq, Repr

/-- What CHAIN looks back at (11 R291): nothing yet, a packet without its first reply, or the status of that reply. -/
inductive Previous where
  | none
  | waiting (seq : Nat)
  | status (code : Nat)
  deriving DecidableEq, Repr

/-- A recognised packet that has not been served, with what its CHAIN flag would look back at, where and with which SEQ it was found, and the instant of its recognition (11 R283, R291). -/
structure Recognised where
  packet : Packet
  prior : Previous
  scan : Nat
  seq : Nat
  beat : Nat
  phase : Nat
  deriving DecidableEq, Repr

/-- A client context (11 R278 to R296). `tally` is a beat and the packets recognised in it (R285). -/
structure Client where
  run : Bool := false
  base : Nat := 0
  size : Nat := 0
  pasid : Nat := 0
  shadow : Nat := 0
  ack : Nat := 0
  scan : Nat := 0
  seq : Nat := 1
  replyAt : Nat := 0
  replyCount : Nat := 0
  inflight : Nat := 0
  recognised : List Recognised := []
  blockedBy : Option Nat := none
  previous : Previous := .none
  held : Bool := false
  vectorAt : Option Nat := none
  preempting : Bool := false
  aware : Bool := false
  cmd : Meter := {}
  byt : Meter := {}
  pendingMeters : List (Nat × Nat) := []
  slow : Slow := {}
  tally : Nat × Nat := (0, 0)
  deriving DecidableEq, Repr

/-- The rest of a SET_PARAM that waits for a pre-emption (09 R242). -/
structure SettingsRest where
  packet : Packet
  target : Nat
  index : Nat
  deriving DecidableEq, Repr

/-- The host port (11 R278, 15 R413 to R417, 18 R473). `tally` is a beat and the packets recognised in it on the device (11 R285). -/
structure HostPort where
  clientMode : Nat := 0
  holdBeats : Nat := 150000000
  vfEnable : Bool := false
  lost : Bool := false
  retained : Bool := false
  held : Bool := false
  lostAt : Nat := 0
  ringEverSet : Bool := false
  stopped : Bool := true
  yellowFloor : Nat := 20
  yellowMover : Nat := 80
  slowPeriod : Nat := 512
  slowThreshold : Nat := 1024
  slowStart : Nat := 0
  due : List (Nat × Nat × Nat) := []
  rests : List SettingsRest := []
  tally : Nat × Nat := (0, 0)
  deriving DecidableEq, Repr

/-- The MGMT block (19 R481). -/
structure Mgmt where
  mask : Nat := 0x1FF
  selOff : Nat := 0
  selBit : Nat := 0
  winBase : Nat := 0
  winEnable : Bool := false
  winReads : Nat := 0
  fwVersion : Nat := 0
  vectorAt : Option Nat := none
  deriving DecidableEq, Repr

/-- The counters of KIND 2 (11 R314). -/
structure DeviceCounters where
  steps : Nat := 0
  recognised : Nat := 0
  throttled : Nat := 0
  busy : Nat := 0
  noResource : Nat := 0
  opened : Nat := 0
  parks : Nat := 0
  revives : Nat := 0
  handoversOut : Nat := 0
  handoversIn : Nat := 0
  exported : Nat := 0
  imports : Nat := 0
  rebuildsStarted : Nat := 0
  rebuildsDone : Nat := 0
  lost : Nat := 0
  journalBytes : Nat := 0
  deriving DecidableEq, Repr

/-- The counters of KIND 1 (11 R314). -/
structure PartitionCounters where
  steps : Nat := 0
  passes : Nat := 0
  slips : Nat := 0
  aborts : Nat := 0
  deferrals : Nat := 0
  fallbacks : Nat := 0
  maxSlip : Nat := 0
  verifyPasses : Nat := 0
  draftsVerified : Nat := 0
  draftsAccepted : Nat := 0
  deadEnd : Nat := 0
  deadRelax : Nat := 0
  deadHalt : Nat := 0
  relaxed : Nat := 0
  stops : Nat := 0
  forced : Nat := 0
  tokenized : Nat := 0
  replayPasses : Nat := 0
  exactLost : Nat := 0
  deriving DecidableEq, Repr

/-! ### Cadence -/

/-- States of 02 R45. -/
inductive CadState where
  | unlocked | acquiring | locked | holdover | leaving | master
  deriving DecidableEq, Repr

/-- A cadence mark that came from a peer (02 R47): its link, the local beat, whether the peer was LOCKED. -/
structure PeerMark where
  peer : Nat
  link : Nat
  beat : Nat
  locked : Bool
  deriving DecidableEq, Repr

/-- The cadence block (02 R36 to R62). `slew` is the offset still to be slewed after a holdover (R45); `markBeat` the beat the last reference mark began, `markOut` the one whose edge was last driven on CAD_OUT (R40, R50); `numSent` the N last announced and `markSent` the beat of the last cadence marks (R43, R47). -/
structure Cadence where
  period : Nat := 1
  mode : Nat := 0
  beatInit : Nat := 0
  numSource : Nat := 32
  staggerBeats : Nat := 0
  staggerPhase : Nat := 0
  st : CadState := .unlocked
  xrefLost : Bool := false
  peerDisc : Bool := false
  discLink : Nat := 0
  phaseErr : Int := 0
  beat : Nat := 0
  phase : Nat := 0
  beatLatch : Nat := 0
  latched : Bool := false
  mismatchCnt : Nat := 0
  holdBeats : Nat := 0
  goodMarks : Nat := 0
  badMarks : Nat := 0
  lastNum : Option Nat := none
  mismatchRun : Nat := 0
  departAt : Option Nat := none
  marks : Bool := false
  loadAt : Option (Nat × Nat) := none
  masterIndex : Nat := 0
  lastMarks : List PeerMark := []
  slew : Int := 0
  markBeat : Option Nat := none
  markOut : Option Nat := none
  numSent : Option Nat := none
  markSent : Option Nat := none
  rampBeats : Nat := 0
  deriving DecidableEq, Repr

/-! ### Supply and power -/

inductive SupState where
  | normal | warn | reduced | stopping
  deriving DecidableEq, Repr

/-- Device states of 14 R391. -/
inductive DevState where
  | run | idle | dormant
  deriving DecidableEq, Repr

/-- One rail's AVS request (14 R385, R386). -/
structure Rail where
  target : Nat := 0
  previous : Nat := 0
  pending : Bool := false
  tries : Nat := 0
  failed : Bool := false
  deriving DecidableEq, Repr

/-- The supply block (14 R376 to R395); `wakeFrom` is the beat at which the last wake began. -/
structure Supply where
  st : SupState := .normal
  dev : DevState := .run
  devTarget : Option DevState := none
  devNext : Option DevState := none
  wakeFrom : Nat := 0
  entryPoint : Nat := 0
  profile : Nat := 0
  profilePending : Option (Nat × Nat) := none
  baseRetain : Bool := false
  vin : Nat := 0
  vinMin : Nat := 0
  iin : Nat := 0
  iinMax : Nat := 0
  pinMean : Nat := 0
  pinMax : Nat := 0
  energy : Nat := 0
  rails : FMap Rail := []
  stopRuns : Nat := 0
  stopLost : Nat := 0
  reducedCnt : Nat := 0
  stopStage : Nat := 0
  railsOff : Bool := false
  tripped : Bool := false
  deriving DecidableEq, Repr

/-! ### Security -/

/-- A quote's decapsulation key, with the TENANT_DIGEST and HOST_HOLD flag its quote carried (13 R355, R368). -/
structure DecapKey where
  digest : Digest
  tenant : Digest
  held : Bool
  deriving DecidableEq, Repr

/-- A quote waiting for its signature (13 R351, R352). -/
structure QuoteJob where
  serial : Nat
  nonce : Bytes
  client : Nat
  addr : Nat
  len : Nat
  deriving DecidableEq, Repr

/-- The payload keys of a client and the anti-replay state of its directions (13 R356, R359). -/
structure PayloadKeys where
  keyId : Nat
  key : Nat
  previous : Option (Nat × Nat) := none
  suspended : Bool := false
  outSeq : Nat := 0
  inTop : Nat := 0
  inSeen : List Nat := []
  deriving DecidableEq, Repr

/-- The security unit (13 R345 to R374). -/
structure Security where
  bound : Bool := false
  policy : Option TenantPolicy := none
  releasing : Bool := false
  releaseAt : Option Nat := none
  measuring : Bool := true
  suspended : Bool := false
  purged : Bool := false
  hostHold : Bool := false
  debug : Bool := false
  sealOk : Bool := false
  sealTripped : Bool := false
  presenceOpen : Bool := false
  presencePolicy : Nat := 0
  windowS : Nat := 0
  rollback : Nat := 0
  fwRollback : Nat := 0
  chainEpoch : Nat := 0
  akSerial : Nat := 0
  idDigest : Digest := 0
  bootCount : Nat := 0
  authFailCnt : Nat := 0
  weightKeys : FMap Nat := []
  weightSecrets : FMap Nat := []
  payloadKeys : FMap PayloadKeys := []
  deriving DecidableEq, Repr

/-- The security unit's work in progress: decapsulation keys, quotes waiting, the active firmware's measurement (13 R350 to R355), and the memory keys with their generation (13 R364); `channelKeys` holds keys drawn for one DDR channel (15 R407). -/
structure SecurityWork where
  decap : List DecapKey := []
  quotes : List QuoteJob := []
  quoteSerial : Nat := 0
  fwMeasurement : Digest := 0
  memKeyGen : Nat := 0
  memKey : Nat := 0
  channelKeys : FMap Nat := []
  deriving DecidableEq, Repr

/-! ### The Sillage -/

/-- A stored record (17 R437, R443): its full beat stays in the index. -/
structure Record where
  seq : Nat
  stamp : Nat
  severity : Nat
  code : Nat
  folded : Bool
  redacted : Bool
  body : Bytes
  deriving DecidableEq, Repr

/-- What a code's rate limit remembers (17 R441). -/
structure CodeLimit where
  count : Nat := 0
  pending : Nat := 0
  first : Nat := 0
  deriving DecidableEq, Repr

/-- A running snapshot (17 R445). -/
structure Snapshot where
  client : Nat
  addr : Nat
  len : Nat
  fromSeq : Nat
  toSeq : Nat
  now : Nat
  oldest : Nat
  pendingCodes : Nat
  pendingTotal : Nat
  records : List Record
  side : Nat
  sideLost : Nat
  deriving DecidableEq, Repr

structure Recorder where
  records : List Record := []
  nextSeq : Nat := 1
  floor : Nat := 1
  limits : FMap Nat := []
  nextLimits : FMap Nat := []
  codes : FMap CodeLimit := []
  window : Nat := 0
  mirrorSeq : Nat := 0
  mirrored : List Record := []
  mirrorCodes : FMap CodeLimit := []
  mirrorBehind : Bool := false
  snapshot : Option Snapshot := none
  suppressed : Nat := 0
  filtered : Nat := 0
  drop : FMap Nat := []
  lagNoted : Bool := false
  deriving DecidableEq, Repr

/-! ### Sessions -/

/-- The sampling block (10 R273), FP32 fields as words. -/
structure Sampling where
  temp : Nat := 0
  topP : Nat := 0x3F800000
  minP : Nat := 0
  presence : Nat := 0
  frequency : Nat := 0
  repetition : Nat := 0x3F800000
  topK : Nat := 0
  deriving DecidableEq, Repr

/-- The SESSION_GENERATE in progress (11 R301, R310; 05 R145 for training). -/
structure Generation where
  block : Sampling := {}
  train : Bool := false
  lossFrom : Nat := 0
  loss : Nat := 0
  byteCount : Nat := 0
  elems : Nat := 0
  delivered : Nat := 0
  positions : Nat := 0
  outAddr : Nat := 0
  outUsed : Nat := 0
  wakeAfter : Nat := 0
  parkOnEnd : Bool := false
  admitBeat : Nat := 0
  admitPhase : Nat := 0
  waitStep : Nat := 0
  passes : Nat := 0
  lastPieces : Nat := 0
  resident : Bool := true
  framesReserved : Nat := 0
  pendingBytes : Bytes := []
  yAt : Nat := 0
  endWith : Option Nat := none
  deriving DecidableEq, Repr

/-- A rebuild from the ledger (03 R93): the next position to replay and where it stops; `resume` holds ACTIVE when a command waits. -/
structure Rebuild where
  next : Nat
  stop : Nat
  deriving DecidableEq, Repr

/-- A handover in progress at its source or target (12 R342, R343; 04 R123, R124). -/
structure Handover where
  source : Bool
  peer : Nat
  newHandle : Nat
  oldHandle : Nat
  prior : Nat
  frozen : Bool
  finalSent : Bool
  near : Bool := false
  frames : Nat := 0
  deriving DecidableEq, Repr

/-- The descriptor's own fields (03 R68) that are not computed from the rest of the session. -/
structure Descriptor where
  state : Nat := 0
  partition : Nat := 0
  vocab : Bool := false
  stopInc : Bool := false
  copying : Bool := false
  parkPending : Bool := false
  countsFolded : Bool := false
  journalLag : Bool := false
  revivePending : Bool := false
  grade : Nat := 0
  fromProfile : Bool := false
  deadPolicy : Nat := 0
  vocabIndex : Nat := 0
  client : Nat := 0
  spec : Nat := 0
  committed : Nat := 0
  ledgerPos : Nat := 0
  retired : Nat := 0
  genKey : Nat := 0
  wake : Nat := 0
  lastBeat : Nat := 0
  epoch : Nat := 0
  journalSeq : Nat := 0
  maxLen : Nat := 0
  peer : Nat := 0
  copyPasses : Nat := 0
  newHome : Nat := 0
  deriving DecidableEq, Repr

/-- A session (03). While it is copied, `dirty` holds the tiles to resend by page and tile, `sending` those of the pass under way, `written` the tiles written in a beat with that beat (01 R23). `header` is the copy of the descriptor in the ledger header, with its lead row, as the last Plaza lane left it (03 R69); `segments` the ledger segments its body stands in (03 R73); `scratch` and `stats` are the frames of a training pass by page and by granule of its statistics area (05 R145, R146). -/
structure Session where
  gen : Nat := 1
  d : Descriptor := {}
  header : Option (Descriptor × Bool) := none
  segments : List Nat := []
  pages : List Page := []
  body : List Run := []
  tail : List Run := []
  journaled : Nat := 0
  counts : Counts := ⟨[], 0, 0⟩
  con : ConState := ⟨none, false, [], [], [], none, 0, 0, []⟩
  nextSet : Option (Option Nat) := none
  drafts : List Nat := []
  leadRow : Bool := false
  job : Option Generation := none
  rebuild : Option Rebuild := none
  cologne : List Nat := []
  rebuiltOwed : Bool := false
  kept : Bool := false
  handover : Option Handover := none
  tokenizing : Option (Nat × Bytes) := none
  toolQueued : Nat := 0
  graceEnd : Option Nat := none
  parkWake : Nat := 0
  exported : Bool := false
  dirty : List (Nat × Nat) := []
  written : List (Nat × Nat × Nat) := []
  sending : List (Nat × Nat) := []
  parts : List (Nat × Bytes) := []
  nextSetDue : Bool := false
  incoming : Option SessionImage := none
  scratch : FMap Nat := []
  stats : FMap Nat := []
  deriving DecidableEq, Repr

/-- A 64 KiB ledger segment: the ledgers that share it (03 R81) and the DDR channels of its two copies (04 R126). -/
structure Segment where
  count : Nat
  first : Nat
  second : Nat
  deriving DecidableEq, Repr

/-- The descriptor table, the order of its free slots (03 R64), and the ledger segments by number. -/
structure Slots where
  table : FMap Session := []
  guests : FMap Session := []
  fresh : Nat := 0
  freed : List Nat := []
  segments : FMap Segment := []
  nextSegment : Nat := 0
  deriving DecidableEq, Repr

/-! ### Tiers -/

/-- A frame-table entry (04 R99): `lender` and its reference stand for the location in T3, `place` for the HBM or DDR address in T1 or T2 and `channel` for the DDR channel; `capsule` holds the bytes that stand there in T2 or T3. -/
structure Frame where
  partition : Nat
  tier : Nat
  grade : Nat
  length : Nat
  count : Nat
  lender : Nat
  lref : Nat
  channel : Nat
  place : Nat := 0
  capsule : Bytes := []
  deriving DecidableEq, Repr

/-- Kinds of Mover operation (04 R111, R113). -/
inductive MoverKind where
  | reviveTaken | privateCopy | finalPass | revive | park | copyPass | sessionOut | sessionIn | evacuate | demote | pull | shard
  deriving DecidableEq, Repr

/-- A Mover operation (04 R112 to R114). -/
structure MoverOp where
  id : Nat
  kind : MoverKind
  slot : Nat
  begun : Bool
  moveBytes : Nat
  codecBytes : Nat
  grade : Nat
  buffer : Nat
  client : Nat
  needRead : Bool
  readDone : Bool
  bytesDone : Bool
  dest : Nat := 2
  deriving DecidableEq, Repr

/-- A capsule this device stores for a borrower (04 R118). -/
structure Lent where
  borrower : Nat
  ref : Nat
  body : Bytes
  channel : Nat
  deriving DecidableEq, Repr

/-- Lender advertisements (04 R118). -/
structure Advert where
  freeMiB : Nat
  hops : Nat
  deriving DecidableEq, Repr

/-- A DDR channel (15 R406, R407, R418). -/
structure Ddr where
  state : Nat := 0
  pwrEn : Bool := false
  failing : Bool := false
  sizeGiB : Nat := 0
  uncorr : Nat := 0
  stage : Nat := 0
  restarting : Bool := false
  deriving DecidableEq, Repr

/-- Sparing of an HBM stack (15 R400, R418): `used` is one more than the channel the reserve stands for, 0 while it is free; `copying` and `due` name the channel being copied and the one whose remap waits. -/
structure Hbm where
  used : Nat := 0
  copying : Option Nat := none
  due : Option Nat := none
  lost : List Nat := []
  deriving DecidableEq, Repr

/-- Tier settings and journal position (04 R121, R128; 16 R427; 15 R404). -/
structure TierSet where
  t2Reserve : Nat := 32
  commonsShare : Nat := 25
  prefetchLead : Nat := 25000
  prefetchFloor : Nat := 10
  journalBase : Nat := 0
  journalSize : Nat := 0
  journalHead : Nat := 0
  journalAck : Nat := 0
  journalSeq : Nat := 0
  waiting : List JournalRecord := []
  notices : List JournalRecord := []
  recallBase : Nat := 0
  recallSize : Nat := 0
  recallBeats : Nat := 15000000
  recallHead : Nat := 0
  recallTail : Nat := 0
  recalls : FMap (List (Nat × Nat)) := []
  ckptHold : Nat := 16384
  deriving DecidableEq, Repr

structure Tiers where
  set : TierSet := {}
  t1Total : Nat := 0
  t2Total : Nat := 0
  frames : FMap Frame := []
  due : List Nat := []
  releasing : Nat := 0
  pairs : List (Nat × Nat × Nat) := []
  ops : List MoverOp := []
  nextOp : Nat := 0
  moveUsed : Nat := 0
  codecUsed : Nat := 0
  opsDone : Nat := 0
  moverLast : Nat := 0
  inSlot : Bool := false
  lent : List Lent := []
  nextRef : Nat := 0
  adverts : FMap Advert := []
  ddr : FMap Ddr := []
  hbm : FMap Hbm := []
  retired : List Nat := []
  rows : FMap Nat := []
  rowsDue : List (Nat × Nat) := []
  rowsSpared : List (Nat × Nat) := []
  deriving DecidableEq, Repr

/-! ### The Fabric -/

/-- Power states of a Block (14 R387): Base, Heart or Top. -/
inductive UnitPower where
  | base | heart | top
  deriving DecidableEq, Repr

/-- A Block (01 R18, R19; 07 R187, R191): `spareTop` are spares woken from Heart to Top for a swap, `coreBase` fenced cores placed in Base; `pendingFence` holds fenced cores that still serve, each with its earliest swap beat and the boundary that ends the step of the decision; `fenceDue` the boundary at which the whole Block is fenced. -/
structure Block where
  map : List Nat := List.range 30
  spares : List Nat := [30, 31]
  fenced : List Nat := []
  pendingFence : List (Nat × Nat × Nat) := []
  fenceDue : Option Nat := none
  wholeFenced : Bool := false
  resetting : Bool := false
  rejoinAt : Option Nat := none
  spareTop : List Nat := []
  coreBase : List Nat := []
  residue : FMap (List Nat) := []
  mprogErrors : FMap Nat := []
  deriving DecidableEq, Repr

/-- A District (06 R172, 07 R191). `running` says that it is clocked; a District that a schedule leaves idle stands in Top (14 R388). -/
structure District where
  power : UnitPower := .top
  running : Bool := true
  slot : Nat := 0
  util : Nat := 0
  killsLast : Nat := 0
  exactLost : Nat := 0
  residueMm : Nat := 0
  satOut : Nat := 0
  nanOut : Nat := 0
  residueLast : Nat := 0
  kills : Nat := 0
  deriving DecidableEq, Repr

/-- What a Block store region holds (07 R177, 08 R502): bytes written in this step, and bytes of the step before that a LAST_NEXT region still holds; offsets from the region's start. -/
structure RegionStore where
  now : List (Nat × Byte) := []
  before : List (Nat × Byte) := []
  deriving DecidableEq, Repr

/-- One element of an adapter (05 R148): its FP32 master and the optimizer's two moments. -/
structure AdapterElem where
  master : Nat
  first : Nat
  second : Nat
  deriving DecidableEq, Repr

/-- An adapter matrix pair (05 R148), elements of A row by row and then of B; an element that is not listed is zero. `live` is the BF16 form in force, `prev` that of passes entered before the last boundary, `grads` the products of each element's gradient in this step, `updates` the steps that updated it, `updated` whether this one did. -/
structure Adapter where
  size : Nat := 0
  elems : FMap AdapterElem := []
  updates : Nat := 0
  updated : Bool := false
  live : FMap Nat := []
  prev : FMap Nat := []
  grads : FMap (List DotJob) := []
  deriving DecidableEq, Repr

/-- The Fabric. `copy` holds each District's microprograms as firmware keeps them in HBM, `stores` the microprogram store of each core that has been loaded, by core number (07 R173, R180); `adapters` those of training partitions (05 R148). A scratchpad and the accumulators live no longer than a command (07 R175, R176), so no state between commands holds them. -/
structure Fabric where
  blocks : FMap Block := []
  districts : FMap District := []
  damaged : List Nat := []
  reread : List (Nat × Nat) := []
  store : FMap RegionStore := []
  copy : FMap Mprog := []
  stores : FMap Mprog := []
  adapters : FMap Adapter := []
  deriving DecidableEq, Repr

/-! ### Models, partitions, vocabularies, constraint sets -/

/-- Staging of an object's pieces (11 R308). -/
structure Staging where
  staged : Nat
  total : Nat
  deriving DecidableEq, Repr

structure Model where
  measurement : Digest
  bytes : Nat
  outputRow : Nat
  deriving DecidableEq, Repr

/-- A defined partition (09 R223, 05 R130). -/
structure Partition where
  model : Nat
  kvFormat : Nat
  kvHeads : Nat
  headDim : Nat
  position : Nat
  firstLayer : Nat
  layers : Nat
  mb : Nat
  places : Nat
  chunk : Nat
  specMax : Nat
  adapterPart : Nat
  adapterIndex : Nat
  counters : PartitionCounters := {}
  latched : PartitionCounters := {}
  slip : Nat := 0
  deriving DecidableEq, Repr

/-- A resident vocabulary (10 R253). -/
structure Vocabulary where
  entries : List VocabEntry
  digest : Digest
  deriving DecidableEq, Repr

/-- A compiled set (10 R261): the source, the mode it was compiled for, its continuations as elements, its space, and the sessions that name it. -/
structure Compiled where
  source : ConSet
  vocab : Option Nat
  conts : List (List Nat)
  bytes : Nat
  count : Nat
  deriving DecidableEq, Repr

structure Contents where
  staging : FMap Staging := []
  models : FMap Model := []
  partitions : FMap Partition := []
  vocabs : FMap Vocabulary := []
  sets : FMap Compiled := []
  nextSet : Nat := 0
  deriving DecidableEq, Repr

/-! ### The schedule -/

/-- A sealed place of a microbatch (09 R230). -/
structure Place where
  handle : Nat
  piece : Nat
  pieces : Nat
  drafts : Nat
  kept : Bool
  chunk : Bool
  replay : Bool
  qpos : Nat
  withdrawn : Bool
  deriving DecidableEq, Repr

/-- The sealed membership of one microbatch of one step (09 R227). -/
structure SealedMb where
  partition : Nat
  microbatch : Nat
  step : Nat
  places : List Place
  deriving DecidableEq, Repr

/-- A staged image waiting for its activation (08 R202, R203). -/
structure StagedImage where
  img : Image
  activateAt : Nat
  checked : Bool := false
  deriving DecidableEq, Repr

/-- An IMAGE_READY received, before or after this device staged its own image (08 R202). -/
structure ReadyNote where
  member : Nat
  ringId : Nat
  ringDigest : Nat
  activateAt : Nat
  deriving DecidableEq, Repr

/-- A plan image and whether it is armed (08 R219, R220). -/
structure StagedPlan where
  img : PlanImage
  armed : Bool
  deriving DecidableEq, Repr

/-- A FALLBACK waiting for its boundary (08 R216). -/
structure DueFallback where
  planId : Nat
  at_ : Nat
  revert : Bool
  deriving DecidableEq, Repr

/-- The running schedule (08, 09): `active` is the image in force, `base` the image as loaded, before the fallback plans in `applied`. `sealPrev` holds passes of the step before that are still in flight, `kept` the deferred members with the E of their notice, `halted` partitions whose slots run empty, `deferDue` deferrals whose E is still to come. `commits` holds the commands of this step that have committed, as slot and core; `partly` runs of which one command was killed at the commit point, with that instant; `noticesLast` the notices of the step before (01 R28); `imagePrev` the image that the passes in `sealPrev` entered with (01 R31). -/
structure Schedule where
  active : Option Image := none
  base : Option Image := none
  imagePrev : Option Image := none
  staged : Option StagedImage := none
  readies : List ReadyNote := []
  plans : List StagedPlan := []
  step : Nat := 0
  notices : List Notice := []
  slipDue : List Notice := []
  deferDue : List Notice := []
  killed : List (Nat × Nat) := []
  noticesLast : List Notice := []
  commits : List (Nat × Nat) := []
  partly : List (Nat × Nat × Nat) := []
  runs : FMap Nat := []
  done : List Nat := []
  kept : List (Nat × SealedMb) := []
  halted : List Nat := []
  sealNext : List SealedMb := []
  sealNow : List SealedMb := []
  sealPrev : List SealedMb := []
  candidates : List (Nat × Candidate) := []
  applied : List Nat := []
  fallbacks : List DueFallback := []
  lost : List (Nat × Nat) := []
  departures : List (Nat × Nat × List Nat) := []
  deriving DecidableEq, Repr

/-! ### Composition and links -/

structure Composed where
  inComp : Bool := false
  index : Nat := 0
  last : Option Nat := none
  epoch : Nat := 0
  previous : Nat := 0
  graceUntil : Option Nat := none
  map : Option CompMap := none
  staged : Option (CompMap × Nat) := none
  grants : List (Nat × Nat × Nat) := []
  relayed : List (Nat × Packet) := []
  deriving DecidableEq, Repr

/-- States of 12 R318. -/
inductive LinkState where
  | down | training | up | half | retrain | lost
  deriving DecidableEq, Repr

/-- A link port (12 R318 to R332, R344). -/
structure Link where
  st : LinkState := .down
  lanes : Nat := 0
  fencedLanes : List Nat := []
  peer : Nat := 0
  peerLink : Nat := 0
  peerOk : Bool := false
  mapOk : Bool := false
  peerTx : Int := 0
  peerRx : Int := 0
  peerTrim : Int := 0
  estimate : Int := 0
  late : Nat := 0
  slack : Int := 0x7FFF
  slackTransfer : Nat := 0
  slackNow : Option (Int × Nat) := none
  retry : Nat := 0
  fecCorrected : Nat := 0
  fecUncorrectable : Nat := 0
  expected : Nat := 0
  nextSeq : Nat := 0
  replay : List LinkFrame := []
  nakOut : Bool := false
  widenAt : Option Nat := none
  deriving DecidableEq, Repr

/-- A frame waiting for a link, and the link it came in on if it is being forwarded. -/
structure Queued where
  frame : LinkFrame
  via : Option Nat
  deriving DecidableEq, Repr

/-- Hop credits, shapers and transmit queues of a link (12 R323 to R332, R344): shaper credits in 1/4096 byte with the phase unit they were last brought up to, the phase unit the transmitter is busy until, SCHED frames since the last CTRL frame of their window, NAKs of one frame in a row. -/
structure LinkFlow where
  ctrlCredit : Nat := 0
  migrCredit : Nat := 0
  bulkCredit : Nat := 0
  ctrlShaper : Int := 0
  migrShaper : Int := 0
  ctrlAt : Nat := 0
  migrAt : Nat := 0
  busyUntil : Nat := 0
  schedRun : Nat := 0
  nakSeq : Nat := 0
  nakRun : Nat := 0
  words : List ControlWord := []
  resend : List LinkFrame := []
  sched : List Queued := []
  migr : List Queued := []
  ctrl : List Queued := []
  bulk : List Queued := []
  schedBytes : Nat := 0
  migrBytes : Nat := 0
  ctrlBytes : Nat := 0
  bulkBytes : Nat := 0
  deriving DecidableEq, Repr

structure Links where
  port : FMap Link := []
  flow : FMap LinkFlow := []
  slackStep : Nat := 0
  deriving DecidableEq, Repr

/-! ### Checkpoints and service -/

/-- A session's record in a shard as the snapshot fixed it (16 R421 to R424): the home parts with the lengths of their set source and ledger, the slot and the pages, each with its capsule and the most bytes it can take. -/
structure ShardSource where
  handle : Nat
  slot : Option Nat
  flags : Nat
  home : Bytes
  setBytes : Nat
  ledgerBytes : Nat
  pages : List (Page × Bytes × Nat)
  deriving DecidableEq, Repr

/-- A checkpoint of this member (16 R419 to R427): its shard as taken at the snapshot instant, with the records it is made of, the frames it holds, the digests that reached the coordinator with their shard bytes. -/
structure Checkpoint where
  partition : Nat
  step : Nat
  grade : Nat
  snapped : Bool := false
  body : Bytes := []
  digest : Digest := 0
  shardMax : Nat := 0
  held : List Nat := []
  takenAt : Nat := 0
  written : Bool := false
  ending : Bool := false
  collected : List (Nat × Nat × Digest) := []
  sources : List ShardSource := []
  addr : Nat := 0
  client : Nat := 0
  deriving DecidableEq, Repr

/-- A restore in progress (16 R430 to R432): candidate steps newest first with their shard digests by position, the steps tried with the positions that verified, reports and dones that reached position 0. -/
structure Restoring where
  partition : Nat
  cands : List (Nat × List Digest)
  tried : List (Nat × Nat × Nat) := []
  reports : List (Nat × Nat) := []
  dones : List Nat := []
  shards : List Shard
  short : Option Nat := none
  homes : List (Nat × Nat) := []
  client : Nat
  reportAt : Nat
  committed : Bool := false
  deriving DecidableEq, Repr

structure Saves where
  checkpoints : List Checkpoint := []
  restores : List Restoring := []
  deriving DecidableEq, Repr

/-- A firmware slot of MRAM (18 R455, R460). -/
structure FirmwareSlot where
  version : Nat := 0
  rollback : Nat := 0
  measurement : Digest := 0
  deriving DecidableEq, Repr

/-- Firmware slots, repair list, stop record (15 R401, R410 to R412; 18 R454 to R472). -/
structure Service where
  phase : Nat := 0
  resetKind : Nat := 1
  fellBack : Bool := false
  staged : Option FirmwareImage := none
  activateAt : Option Nat := none
  takenOver : Bool := false
  running : Nat := 0
  slots : FMap FirmwareSlot := []
  repairs : List (Nat × Nat) := []
  stopRecord : Bytes := []
  stopFlag : Bool := false
  stopDiscarded : Bool := false
  deriving DecidableEq, Repr

/-- Calibration values by item (18 R462 to R466, 02 R53 to R55); `pendingTrims` holds the values still in force of trims whose change waits, `trimAt` the boundary at which a cable trim changes. -/
structure Calibration where
  factory : FMap Int := []
  user : FMap Int := []
  writeCount : Nat := 0
  copyInUse : Nat := 0
  pendingTrims : FMap Int := []
  trimAt : FMap Nat := []
  status : Nat := 0
  deriving DecidableEq, Repr

/-- The state of the module. -/
structure State where
  pending : List Instr := []
  freeCtr : Nat := 0
  out : Outbox := {}
  host : HostPort := {}
  mgmt : Mgmt := {}
  flags : FMap Flag := []
  clients : FMap Client := []
  commands : List Command := []
  counters : DeviceCounters := {}
  latched : DeviceCounters := {}
  cad : Cadence := {}
  sup : Supply := {}
  sec : Security := {}
  secw : SecurityWork := {}
  evr : Recorder := {}
  slots : Slots := {}
  tier : Tiers := {}
  mem : List (Nat × Byte) := []
  fab : Fabric := {}
  cont : Contents := {}
  sched : Schedule := {}
  comp : Composed := {}
  links : Links := {}
  saves : Saves := {}
  svc : Service := {}
  cal : Calibration := {}
  deriving DecidableEq, Repr

/-- The device after reset: every field at the value its register table gives, or the one the log names. -/
def State.reset : State := {}

end Sys2Proof.Machine
end

