-- ==== Sys2Proof/Machine/Flags.lean ====
section
/-! DEFINITION. Beats and stamps (02 R39), draws, and the W1C flag file: setting a flag, clearing it with set-wins, the event counters and the event vector (19 R477, R482). -/

namespace Sys2Proof.Machine

/-! ### Beats -/

/-- Phase units of a beat (00 R9). -/
def phasesPerBeat : Nat := 4096

/-- The beat stamp of 02 R39: bit 63 is set while the device counts locally. -/
def stamp (s : State) : Nat :=
  if s.cad.st = .unlocked ∨ s.cad.st = .acquiring then 2 ^ 63 + s.cad.beat else s.cad.beat

/-- Instant in phase units. -/
def nowPhase (s : State) : Nat := s.cad.beat * phasesPerBeat + s.cad.phase

/-- Picoseconds of a beat at the current period (02 R36). -/
def beatPs (s : State) : Nat := 10 ^ 6 * 2 ^ s.cad.period

/-- Step number of the step that contains a beat (02 R25): step k begins at A + kL. -/
def stepStart (img : Image) (k : Nat) : Nat := img.anchor + k * img.stepBeats

/-- Beats to the next step boundary; 0xFFFF while no image is active (11 R295 "unknown"). -/
def beatsToBoundary (s : State) : Nat :=
  match s.sched.active with
  | none => 0xFFFF
  | some img => min 0xFFFE (stepStart img (s.sched.step + 1) - s.cad.beat)

/-- The next draw of the device's random source (log entry 8). -/
def draw (s : State) : Nat × State :=
  ((Config.random s.freeCtr).toNat, { s with freeCtr := s.freeCtr + 1 })

/-- A value the manual leaves open (log entry 14). -/
def freeValue (s : State) : Nat × State :=
  (Config.free s.freeCtr, { s with freeCtr := s.freeCtr + 1 })

/-! ### W1C flags (19 R477, R482) -/

/-- Offsets of the W1C registers (19 R480). -/
def offCadEvents : Nat := 0x10020
def offSupEvents : Nat := 0x20008
def offSecEvents : Nat := 0x30008
def offEvrEvents : Nat := 0x40008
def offTierEvents : Nat := 0x60010
def offMgmtEvents : Nat := 0x28
def offCliEvents (n : Nat) : Nat := 0x50000 + n * 0x40 + 0x38
def offLnkEvents (l : Nat) : Nat := 0x70000 + l * 0x400 + 8
def offDstEvents (d : Nat) : Nat := 0x80000 + d * 0x1000 + 0x10
def offArithEvents (d : Nat) : Nat := 0x80000 + d * 0x1000 + 0x220

/-- The group of a W1C register in MGMT_SUMMARY's layout (19 R481), none for any other offset. -/
def flagGroup (off : Nat) : Option Nat :=
  if off = offCadEvents then some 0
  else if off = offSupEvents then some 1
  else if off = offSecEvents then some 2
  else if off = offEvrEvents then some 3
  else if off = offTierEvents then some 4
  else if off = offMgmtEvents then some 8
  else if 0x50000 ≤ off ∧ off < 0x54000 ∧ off % 0x40 = 0x38 then some 5
  else if 0x70000 ≤ off ∧ off < 0x78000 ∧ off % 0x400 = 8 then some 6
  else if 0x80000 ≤ off ∧ off < 0x90000 ∧ (off % 0x1000 = 0x10 ∨ off % 0x1000 = 0x220) then some 7
  else none

/-- Key of a flag in the flag file. -/
def flagKey (off bit : Nat) : Nat := off * 64 + bit

def getFlag (s : State) (off bit : Nat) : Flag := FMap.getD s.flags (flagKey off bit) {}

/-- Raises the event vector for a group that is not masked, at most once a beat (19 R482). -/
def raiseEvent (off : Nat) (s : State) : State :=
  match flagGroup off with
  | none => s
  | some g =>
    if bitOf s.mgmt.mask g ∨ s.mgmt.vectorAt = some (stamp s) then s
    else { s with
      mgmt := { s.mgmt with vectorAt := some (stamp s) }
      out := { s.out with msix := s.out.msix ++ [(0, 256)] } }

/-- Hardware sets a W1C flag. -/
def setFlag (off bit : Nat) (s : State) : State :=
  let f := getFlag s off bit
  let f := { f with on := true, sets := satAdd 0xFFFFFFFF f.sets 1 }
  raiseEvent off { s with flags := FMap.put s.flags (flagKey off bit) f }

/-- Software clears a flag; `hw` says that hardware sets it in the same cycle, and then the set wins. -/
def clearFlag (off bit : Nat) (hw : Bool) (s : State) : State :=
  let f := getFlag s off bit
  let met : Flag := { on := true, sets := satAdd 0xFFFFFFFF f.sets 1, collisions := satAdd 0xFFFFFFFF f.collisions 1 }
  let cleared : Flag := { f with on := false }
  if hw then raiseEvent off { s with flags := FMap.put s.flags (flagKey off bit) met }
  else { s with flags := FMap.put s.flags (flagKey off bit) cleared }

/-- The value of a W1C register. -/
def flagWord (s : State) (off : Nat) : Nat :=
  (List.range 32).foldl (fun n b => n + (if (getFlag s off b).on then 2 ^ b else 0)) 0

end Sys2Proof.Machine
end

