-- ==== Sys2Proof/Machine/Operands.lean ====
section
/-! DEFINITION. The fields of a packet's header and parameters (11 R290). -/

namespace Sys2Proof.Machine

def opcodeOf (p : Packet) : Nat := fieldAt p.header 0 1
def flagsOf (p : Packet) : Nat := fieldAt p.header 1 1
def lengthOf (p : Packet) : Nat := fieldAt p.header 2 2
def tagOf (p : Packet) : Nat := fieldAt p.header 4 4
def handleOf (p : Packet) : Nat := fieldAt p.header 8 8
def epochOf (p : Packet) : Nat := fieldAt p.header 16 4
def argOf (p : Packet) (off len : Nat) : Nat := fieldAt p.header off len
/-- A parameter at its packet offset (parameters begin at 0x20). -/
def paramOf (p : Packet) (off len : Nat) : Nat := fieldAt p.params (off - 0x20) len
def isAsync (p : Packet) : Bool := bitOf (flagsOf p) 0
def isChain (p : Packet) : Bool := bitOf (flagsOf p) 3
def isSealed (p : Packet) : Bool := bitOf (flagsOf p) 4

end Sys2Proof.Machine
end

