-- ==== Sys2Proof/Machine/Ops.lean ====
section
/-! DEFINITION. The named operations every row shares: the Sillage recorder, clients, replies, host writes, messages, sessions by handle, and the bytes of State Space frames. -/

namespace Sys2Proof.Machine

/-! ### The Sillage (17 R437 to R444) -/

/-- Catalogue severity and default limit of a code; limit 0 stands for "—" (17 R450). -/
def catalogue (code : Nat) : Nat × Nat :=
  match code with
  | 0x001 => (1, 1) | 0x002 => (1, 1) | 0x003 => (5, 4) | 0x004 => (5, 4) | 0x005 => (6, 0) | 0x006 => (5, 4)
  | 0x100 => (2, 16) | 0x101 => (4, 16) | 0x102 => (4, 4)
  | 0x200 => (4, 4) | 0x201 => (5, 4) | 0x202 => (7, 0) | 0x203 => (5, 8)
  | 0x300 => (3, 16) | 0x301 => (4, 16) | 0x302 => (4, 16) | 0x303 => (5, 8) | 0x304 => (4, 16) | 0x305 => (5, 8)
  | 0x400 => (2, 16) | 0x401 => (4, 16) | 0x402 => (5, 16) | 0x403 => (4, 16) | 0x404 => (1, 4)
  | 0x500 => (4, 4) | 0x501 => (4, 64) | 0x502 => (6, 0) | 0x503 => (5, 32)
  | 0x600 => (3, 64) | 0x601 => (2, 64) | 0x602 => (2, 64)
  | 0x700 => (2, 16) | 0x701 => (4, 8)
  | 0x800 => (4, 16) | 0x801 => (5, 8) | 0x802 => (5, 0) | 0x803 => (7, 0)
  | 0x900 => (5, 8) | 0x901 => (5, 8) | 0x902 => (6, 0)
  | 0xA00 => (2, 8) | 0xA01 => (5, 8)
  | _ => (0, 0)

/-- A unit field U (17 R450): kind in [31:28], number in [27:0]. -/
def unitField (kind number : Nat) : Bytes := leBytes 4 (kind * 2 ^ 28 + number % 2 ^ 28)

/-- Cells of 16 bytes a record takes (17 R437, R443). -/
def recordCells (r : Record) : Nat := ceilDiv (16 + r.body.length) 16

/-- Cells in use. -/
def usedCells (rs : List Record) : Nat := rs.foldl (fun n r => n + recordCells r) 0

/-- Takes the oldest record of a severity test out of a SEQ-ordered list. -/
def takeOldest (p : Record → Bool) : List Record → Option (Record × List Record)
  | [] => none
  | r :: rest =>
    if p r then some (r, rest)
    else match takeOldest p rest with
      | none => none
      | some (v, l) => some (v, r :: l)

/-- Chooses victims for a record of severity `sev` until `free` reaches `need` (17 R444); none when the choice ends first. -/
def chooseVictims (sev need : Nat) : Nat → Nat → List Record → Option (List Record × List Record)
  | 0, free, rs => if need ≤ free then some ([], rs) else none
  | fuel + 1, free, rs =>
    if need ≤ free then some ([], rs)
    else
      match takeOldest (fun r => decide (r.severity < sev)) rs with
      | some (v, rs') =>
        (chooseVictims sev need fuel (free + recordCells v) rs').map (fun x => (v :: x.1, x.2))
      | none =>
        match takeOldest (fun r => decide (r.severity = sev)) rs with
        | some (v, rs') =>
          (chooseVictims sev need fuel (free + recordCells v) rs').map (fun x => (v :: x.1, x.2))
        | none => none

/-- Cells of the store and bytes of the side store (17 R443, R445). -/
def storeCells : Nat := 524288
def sideBytes : Nat := 262144

/-- A running snapshot meets the overwriting of a record of its range (17 R445). -/
def snapshotVictim (v : Record) (s : State) : State :=
  match s.evr.snapshot with
  | none => s
  | some n =>
    if n.fromSeq ≤ v.seq ∧ v.seq ≤ n.toSeq then
      let sz := 16 * recordCells v
      if n.side + sz ≤ sideBytes then { s with evr := { s.evr with snapshot := some { n with side := n.side + sz } } }
      else
        let n' := { n with records := n.records.filter (fun r => r.seq != v.seq), sideLost := n.sideLost + 1 }
        setFlag offEvrEvents 1 { s with evr := { s.evr with snapshot := some n' } }
    else s

/-- Starts the next window of every code where the stamp's window differs (17 R441, R451). -/
def rollWindow (s : State) : State :=
  let w := stamp s / 4096
  if s.evr.window = w then s
  else { s with evr := { s.evr with
    window := w
    limits := s.evr.nextLimits
    codes := FMap.mapVals (fun _ c => { c with count := 0 }) s.evr.codes } }

/-- The limit that holds for a code in its window; none for no limit. -/
def codeLimit (s : State) (code : Nat) : Option Nat :=
  let c := catalogue code
  if c.1 ≥ 6 ∨ c.2 = 0 then none
  else
    let v := FMap.getD s.evr.limits code 0
    if v = 255 then none else if v = 0 then some c.2 else some v

/-- Stores a record that the limit let through (17 R443, R444). -/
def storeRecord (sev code : Nat) (body : Bytes) (s : State) : State :=
  let c := FMap.getD s.evr.codes code {}
  let folded := c.pending != 0
  let r : Record := ⟨s.evr.nextSeq, stamp s, sev, code, folded, false,
    if folded then leBytes 4 c.pending ++ leBytes 4 c.first ++ body else body⟩
  let need := recordCells r
  match chooseVictims sev need s.evr.records.length (storeCells - usedCells s.evr.records) s.evr.records with
  | none =>
    setFlag offEvrEvents 0 { s with evr := { s.evr with
      drop := FMap.put s.evr.drop sev (satAdd (2 ^ 64 - 1) (FMap.getD s.evr.drop sev 0) 1)
      codes := FMap.put s.evr.codes code { c with count := c.count + 1 } } }
  | some (victims, rs) =>
    let s := victims.foldl (fun s v => snapshotVictim v s) s
    { s with evr := { s.evr with
      records := rs ++ [r]
      nextSeq := s.evr.nextSeq + 1
      codes := FMap.put s.evr.codes code { count := c.count + 1, pending := 0, first := 0 } } }

/-- Reports an event of a severity to the recorder: the floor, then the code's limit, then the store (17 R440 to R444). -/
def reportAt (sev code : Nat) (body : Bytes) (s : State) : State :=
  if sev < s.evr.floor then { s with evr := { s.evr with filtered := satAdd (2 ^ 64 - 1) s.evr.filtered 1 } }
  else
    let s := rollWindow s
    let c := FMap.getD s.evr.codes code {}
    match codeLimit s code with
    | some n =>
      if n ≤ c.count then
        setFlag offEvrEvents 3 { s with evr := { s.evr with
          suppressed := satAdd (2 ^ 64 - 1) s.evr.suppressed 1
          codes := FMap.put s.evr.codes code { c with
            pending := satAdd 0xFFFFFFFF c.pending 1
            first := if c.pending = 0 then stamp s % 2 ^ 32 else c.first } } }
      else storeRecord sev code body s
    | none => storeRecord sev code body s

/-- Reports an event at its catalogue severity. -/
def report (code : Nat) (body : Bytes) (s : State) : State := reportAt (catalogue code).1 code body s

/-- The 32 bytes of a schedule notice (08 R209). -/
def noticeBytes (n : Notice) : Bytes :=
  let b := leBytes 1 n.kind ++ leBytes 1 n.partition ++ leBytes 2 (if n.kind = 4 then 0 else n.slotId)
    ++ leBytes 4 (if n.kind = 4 then n.planId else 0) ++ leBytes 8 n.step ++ leBytes 8 n.e ++ leBytes 2 n.delta
    ++ leBytes 1 n.run ++ leBytes 1 n.microbatch ++ leBytes 2 n.source
  b ++ leBytes 2 (crc16 b)

/-! ### Clients and replies (11 R286 to R294) -/

/-- Client 0 runs after reset, the others do not (11 R280). -/
def clientOf (s : State) (n : Nat) : Client := FMap.getD s.clients n { run := n == 0 }

def putClient (n : Nat) (c : Client) (s : State) : State := { s with clients := FMap.put s.clients n c }

def modClient (n : Nat) (f : Client → Client) (s : State) : State := putClient n (f (clientOf s n)) s

/-- Bytes of a reply ring of a SIZE code (11 R286, R289). -/
def ringBytes (c : Client) : Nat := 2 ^ (12 + min c.size 8)

/-- The ring is valid when its base is nonzero and 4 KiB aligned (11 R286). -/
def ringOk (c : Client) : Bool := c.base != 0 && c.base % 4096 == 0

/-- Reply slots held by commands whose final reply is still to come (11 R288, R301). -/
def reservedSlots (s : State) (n : Nat) : Nat :=
  (s.commands.filter (fun c => c.origin.client == n && c.origin.sender.isNone)).length + (clientOf s n).recognised.length

/-- Free reply slots (11 R288). -/
def freeReplySlots (s : State) (n : Nat) : Nat :=
  let c := clientOf s n
  ringBytes c / 32 - (c.replyCount + 2 ^ 32 - c.ack) % 2 ^ 32 - reservedSlots s n

/-- A packet's origin: its recognition instant, or now for one that is recognised and answered at once or forwarded from another device (12 R338). -/
def originOf (p : Packet) (s : State) : Origin :=
  match s.comp.relayed.find? (fun r => decide (r.2 = p)) with
  | some r => ⟨p.client, tagOf p, p.trailerSeq, handleOf p, opcodeOf p, some r.1, s.cad.beat, s.cad.phase⟩
  | none =>
  match (clientOf s p.client).recognised.find? (fun r => decide (r.packet = p)) with
  | some r => ⟨p.client, tagOf p, p.trailerSeq, handleOf p, opcodeOf p, none, r.beat, r.phase⟩
  | none => ⟨p.client, tagOf p, p.trailerSeq, handleOf p, opcodeOf p, none, s.cad.beat, s.cad.phase⟩

/-! Status codes (11 R295). -/
def stOK : Nat := 0x0000
def stACCEPTED : Nat := 0x0001
def stPARTIAL : Nat := 0x0002
def stBAD_OPCODE : Nat := 0x0010
def stBAD_PARAM : Nat := 0x0011
def stBAD_LENGTH : Nat := 0x0012
def stNO_RESOURCE : Nat := 0x0020
def stTHROTTLED : Nat := 0x0021
def stBUSY : Nat := 0x0022
def stSTALE_EPOCH : Nat := 0x0030
def stNOT_OWNER : Nat := 0x0031
def stSTATE_LOST : Nat := 0x0040
def stREBUILT : Nat := 0x0041
def stREBUILDING : Nat := 0x0042
def stCANCELLED : Nat := 0x0050
def stPREEMPTED : Nat := 0x0051
def stCONSTRAINT_DEAD : Nat := 0x0052
def stSTOPPED : Nat := 0x0053
def stLIMIT_REACHED : Nat := 0x0054
def stNOT_ATTESTED : Nat := 0x0060
def stPRESENCE_REQUIRED : Nat := 0x0061
def stAUTH_FAIL : Nat := 0x0062
def stMEASURING : Nat := 0x0063
def stDIGEST_FAIL : Nat := 0x0070
def stMIXED_STEPS : Nat := 0x0071
def stSHAPE_MISMATCH : Nat := 0x0072
def stDEGRADED : Nat := 0x0080
def stINTERNAL : Nat := 0x00FF

/-- What a check or a command answers. -/
structure Ans where
  status : Nat
  detail : Nat := 0
  count0 : Nat := 0
  count1 : Nat := 0
  handle : Option Nat := none
  deriving DecidableEq, Repr

/-- A message leaves on the links. -/
def send (m : Msg) (s : State) : State := { s with out := { s.out with msgs := s.out.msgs ++ [m] } }

/-- Takes the next DIR 1 sequence numbers of a client's key for an object of some bytes, one an envelope of at most 1 MiB (13 R358, R359): the first of them, and the state with the counter advanced. -/
def takeSeq (client len : Nat) (s : State) : Nat × State :=
  match FMap.get? s.sec.payloadKeys client with
  | none => (0, s)
  | some k =>
    let k' : PayloadKeys := { k with outSeq := k.outSeq + ceilDiv len 1048576 }
    (k.outSeq + 1, { s with sec := { s.sec with payloadKeys := FMap.put s.sec.payloadKeys client k' } })

/-- Bytes written to a host buffer; under a bound tenant as an envelope of the KIND (13 R347, R358). -/
def hostWrite (client addr kind : Nat) (b : Bytes) (s : State) : State :=
  if s.sec.bound then
    let q := takeSeq client b.length s
    { q.2 with out := { q.2.out with host := q.2.out.host ++ [⟨client, addr, some kind, b, q.1⟩] } }
  else { s with out := { s.out with host := s.out.host ++ [⟨client, addr, none, b, 0⟩] } }

/-- Output of a command: to the issuing client's buffer, or as HOSTDATA to the device that forwarded it (12 R338). -/
def hostOut (o : Origin) (addr kind : Nat) (b : Bytes) (s : State) : State :=
  match o.sender with
  | some d => send (.hostdata d o.tag addr b) s
  | none => hostWrite o.client addr kind b s

/-- Bytes written plain whatever the tenancy. -/
def hostWritePlain (client addr : Nat) (b : Bytes) (s : State) : State :=
  { s with out := { s.out with host := s.out.host ++ [⟨client, addr, none, b, 0⟩] } }

/-- The reply vector of a client, at most once a beat (11 R287). -/
def raiseReplyVector (n : Nat) (s : State) : State :=
  let c := clientOf s n
  if c.vectorAt = some (stamp s) then s
  else
    let s := putClient n { c with vectorAt := some (stamp s) } s
    { s with out := { s.out with msix := s.out.msix ++ [if s.host.clientMode = 0 then (n, 0) else (0, n)] } }

/-- Writes a reply into a client's ring: at REPLY_AT, then the shadow, then the vector (11 R287). With the host lost, or its ring invalid, it is not delivered (15 R414, R415). -/
def writeReply (r : Reply) (s : State) : State :=
  if s.host.lost ∨ !ringOk (clientOf s r.client) then s else
  let c := clientOf s r.client
  let c' := { c with replyAt := (c.replyAt + 32) % ringBytes c, replyCount := (c.replyCount + 1) % 2 ^ 32 }
  let s := putClient r.client c' s
  let s := { s with out := { s.out with
    replies := s.out.replies ++ [{ r with at_ := c.replyAt }]
    shadows := if c.shadow = 0 then s.out.shadows else s.out.shadows ++ [(r.client, c'.replyCount, c'.scan)] } }
  raiseReplyVector r.client s

/-- Counters and records that a status carries with it (11 R314; 13 R360, R374). -/
def countStatus (o : Origin) (a : Ans) (s : State) : State :=
  if a.status = stTHROTTLED then { s with counters := { s.counters with throttled := satAdd (2 ^ 64 - 1) s.counters.throttled 1 } }
  else if a.status = stBUSY then { s with counters := { s.counters with busy := satAdd (2 ^ 64 - 1) s.counters.busy 1 } }
  else if a.status = stNO_RESOURCE then { s with counters := { s.counters with noResource := satAdd (2 ^ 64 - 1) s.counters.noResource 1 } }
  else if a.status = stAUTH_FAIL then
    report 0x800 (unitField 6 o.client ++ leBytes 1 o.opcode ++ leBytes 1 0 ++ leBytes 2 a.detail)
      (setFlag offSecEvents 2 { s with sec := { s.sec with authFailCnt := satAdd (2 ^ 64 - 1) s.sec.authFailCnt 1 } })
  else s

/-! ### Sessions by handle (03 R63 to R66) -/

def handleSlot (h : Nat) : Nat := bitsOf h 0 24
def handleGen (h : Nat) : Nat := bitsOf h 24 16
def handlePart (h : Nat) : Nat := bitsOf h 40 4
def handleHome (h : Nat) : Nat := bitsOf h 44 12

def makeHandle (slot gen part home : Nat) : Nat :=
  slot % 2 ^ 24 + (gen % 2 ^ 16) * 2 ^ 24 + (part % 16) * 2 ^ 40 + (home % 2 ^ 12) * 2 ^ 44

/-- The device's own index (03 R66). -/
def ownIndex (s : State) : Nat := if s.comp.inComp then s.comp.index else s.comp.last.getD 0

def sessionAt (s : State) (slot : Nat) : Session := FMap.getD s.slots.table slot {}

def putSession (slot : Nat) (x : Session) (s : State) : State :=
  { s with slots := { s.slots with table := FMap.put s.slots.table slot x } }

def modSession (slot : Nat) (f : Session → Session) (s : State) : State := putSession slot (f (sessionAt s slot)) s

/-- The handle a session bears now. -/
def sessionHandle (s : State) (slot : Nat) : Nat :=
  let x := sessionAt s slot
  makeHandle slot x.gen x.d.partition (ownIndex s)

/-- The slot a handle names on this device, if it passes 03 R65. -/
def liveSlot (s : State) (h : Nat) : Option Nat :=
  let slot := handleSlot h
  let x := sessionAt s slot
  if handleHome h = ownIndex s ∧ x.d.state ≠ 0 ∧ handleGen h = x.gen ∧ handlePart h = x.d.partition then some slot else none

/-- A reply reaches its origin: its client's ring, or the device a forwarded packet came from. -/
def landReply (o : Origin) (final : Bool) (r : Reply) (s : State) : State :=
  match o.sender with
  | some d => send (.forwardReply d r) s
  | none =>
    let c := clientOf s o.client
    let st := r.status
    let s := putClient o.client { c with
      inflight := if final then c.inflight - 1 else c.inflight
      blockedBy := if final ∧ c.blockedBy = some o.seq then none else c.blockedBy
      previous := if c.previous = .waiting o.seq then .status st else c.previous
      recognised := c.recognised.map (fun r => if r.prior = .waiting o.seq then { r with prior := .status st } else r) } s
    writeReply r s

/-- Gives a reply to an origin: to its ring, or to the home a forwarded packet came from (11 R294, 12 R338); a session that owes REBUILT wraps it (03 R94). -/
def replyTo (o : Origin) (final : Bool) (a : Ans) (s : State) : State :=
  let h := a.handle.getD o.handle
  let owed := (liveSlot s o.handle).filter (fun slot => (sessionAt s slot).rebuiltOwed)
  let s := match owed with
    | some slot => modSession slot (fun x => { x with rebuiltOwed := false }) s
    | none => s
  let st := if owed.isSome then stREBUILT else a.status
  let dt := if owed.isSome then a.status else a.detail
  let s := countStatus o a s
  landReply o final ⟨o.client, 0, o.tag, st, dt, h, stamp s, a.count0, a.count1⟩ s

/-- Gives a packet its only reply. -/
def reply (p : Packet) (a : Ans) (s : State) : State := replyTo (originOf p s) true a s

/-- The command waiting for a piece of work. -/
def commandOf (s : State) (w : Work) : Option Command := s.commands.find? (fun c => decide (c.work = w))

/-- Registers a command that will give its final reply later. -/
def await (w : Work) (o : Origin) (s : State) : State := { s with commands := s.commands ++ [⟨w, o⟩] }

/-- ACCEPTED, with the final reply to follow (11 R294). -/
def accept (p : Packet) (w : Work) (s : State) : State :=
  let o := originOf p s
  await w o (replyTo o false { status := stACCEPTED } s)

/-- Gives their final reply to every command waiting for a piece of work, in admission order. -/
def finish (w : Work) (a : Ans) (s : State) : State :=
  (s.commands.filter (fun c => decide (c.work = w))).foldl (fun s c => replyTo c.origin true a s)
    { s with commands := s.commands.filter (fun c => !decide (c.work = w)) }

/-! ### Bytes of State Space frames (04 R95 to R97, 05 R132) -/

/-- Whether a memory is in canonical form: addresses strictly rising, no listed zero. -/
def Memory.wf : List (Nat × Byte) → Bool
  | [] => true
  | [(_, b)] => b != 0
  | (a, b) :: (c, d) :: rest => b != 0 && decide (a < c) && Memory.wf ((c, d) :: rest)

/-- Reads a byte; a byte nothing has written reads 0 (05 R132, log entry 15). -/
def Memory.read : List (Nat × Byte) → Nat → Byte
  | [], _ => 0
  | (a, b) :: rest, addr => if a = addr then b else Memory.read rest addr

/-- Writes a byte, keeping the canonical form. -/
def Memory.write : List (Nat × Byte) → Nat → Byte → List (Nat × Byte)
  | [], addr, v => if v = 0 then [] else [(addr, v)]
  | (a, b) :: rest, addr, v =>
    if addr < a then (if v = 0 then (a, b) :: rest else (addr, v) :: (a, b) :: rest)
    else if a = addr then (if v = 0 then rest else (a, v) :: rest)
    else (a, b) :: Memory.write rest addr v

def Memory.writeBytes : List (Nat × Byte) → Nat → Bytes → List (Nat × Byte)
  | m, _, [] => m
  | m, addr, b :: rest => Memory.writeBytes (Memory.write m addr b) (addr + 1) rest

/-- Zeroes a span: a frame that returns to the pool (05 R132). -/
def Memory.clear (m : List (Nat × Byte)) (addr len : Nat) : List (Nat × Byte) :=
  m.filter (fun e => !(decide (addr ≤ e.1) && decide (e.1 < addr + len)))

def Memory.readBytes (m : List (Nat × Byte)) (addr : Nat) : Nat → Bytes
  | 0 => []
  | n + 1 => Memory.read m addr :: Memory.readBytes m (addr + 1) n

/-- The most elements a session may commit: MAX_LEN, where 0 means 2^32 − 1 (03 R68, R72). -/
def lengthLimit (d : Descriptor) : Nat := if d.maxLen = 0 then 2 ^ 32 - 1 else d.maxLen

def writeMem (addr : Nat) (b : Bytes) (s : State) : State := { s with mem := Memory.writeBytes s.mem addr b }

end Sys2Proof.Machine
end

