-- ==== Sys2Proof/Machine/Gate.lean ====
section
/-! DEFINITION. Recognition of packets (11 R283 to R288) and the checks every packet passes before its own (11 R315 checks 1 to 7): opcode and permission, reserved fields, tenancy and keys, sealing, policing, CHAIN, epoch and handle. -/

namespace Sys2Proof.Machine

/-- The opcodes of 11 R309 to R313; PAD is 0x00. -/
def knownOpcode (op : Nat) : Bool :=
  decide (op ≤ 4) || decide (0x10 ≤ op ∧ op ≤ 0x14) || decide (0x20 ≤ op ∧ op ≤ 0x2B) || decide (0x30 ≤ op ∧ op ≤ 0x32)
    || decide (0x40 ≤ op ∧ op ≤ 0x43) || decide (0x50 ≤ op ∧ op ≤ 0x53) || decide (0x60 ≤ op ∧ op ≤ 0x64)
    || decide (0x70 ≤ op ∧ op ≤ 0x74)

/-- Opcodes kept to the administrative client (11 R279). -/
def adminOpcode (op : Nat) : Bool :=
  op == 3 || decide (0x10 ≤ op ∧ op ≤ 0x14) || op == 0x32 || decide (0x40 ≤ op ∧ op ≤ 0x43) || decide (0x51 ≤ op ∧ op ≤ 0x53)
    || decide (0x60 ≤ op ∧ op ≤ 0x64) || decide (0x72 ≤ op ∧ op ≤ 0x74)

/-- Opcodes that need a session handle (11 R310, R311). -/
def handleOpcode (op : Nat) : Bool := decide (0x21 ≤ op ∧ op ≤ 0x2A) || op == 0x30

/-- Opcodes served in power-on phases 2 and 3 (18 R457). -/
def earlyOpcode (op : Nat) : Bool :=
  decide (1 ≤ op ∧ op ≤ 4) || op == 0x50 || decide (0x60 ≤ op ∧ op ≤ 0x64) || op == 0x70 || op == 0x71

/-- Opcodes served in Idle and Dormant (14 R393). -/
def quietOpcode (op : Nat) : Bool :=
  decide (1 ≤ op ∧ op ≤ 4) || decide (0x50 ≤ op ∧ op ≤ 0x53) || decide (0x60 ≤ op ∧ op ≤ 0x63) || decide (0x70 ≤ op ∧ op ≤ 0x74)

/-- Opcodes that need a bound tenant (13 R345). -/
def tenantOpcode (op : Nat) : Bool :=
  op == 0x10 || op == 0x14 || decide (0x20 ≤ op ∧ op ≤ 0x2B) || op == 0x30 || op == 0x31 || decide (0x40 ≤ op ∧ op ≤ 0x42)
    || op == 0x51 || op == 0x53 || op == 0x62

/-- Packet offset of each BUF the packet names for reading (11 R307 to R313). -/
def readBufs (p : Packet) : List Nat :=
  match opcodeOf p with
  | 0x10 => [0x30] | 0x13 => [0x40] | 0x14 => [0x30]
  | 0x22 => if bitOf (argOf p 21 1) 1 then [0x20] else []
  | 0x2B => [0x20] | 0x32 => [0x30] | 0x42 => [0x20, 0x30] | 0x51 => [0x20] | 0x52 => [0x20] | 0x60 => [0x30]
  | _ => []

/-- Packet offset of each BUF the packet names for writing. -/
def writeBufs (p : Packet) : List Nat :=
  match opcodeOf p with
  | 0x02 => [0x20]
  | 0x23 => if argOf p 20 1 = 0 then [0x48] else []
  | 0x28 => [0x20] | 0x2A => [0x20] | 0x41 => [0x30] | 0x50 => [0x40] | 0x70 => [0x30] | 0x71 => [0x20]
  | _ => []

/-- LEN of the BUF at a packet offset. -/
def bufLen (p : Packet) (off : Nat) : Nat := paramOf p (off + 8) 4
def bufAddr (p : Packet) (off : Nat) : Nat := paramOf p off 8

/-- Reserved fields of the ARGS: offset, length, and the mask of the reserved bits (11 R309 to R313). -/
def argSpans (op : Nat) : List (Nat × Nat × Nat) :=
  let all (n : Nat) := 2 ^ (8 * n) - 1
  match op with
  | 0x01 => [(20, 12, all 12)]
  | 0x03 => [(22, 10, all 10)]
  | 0x04 => [(25, 7, all 7)]
  | 0x10 => [(21, 11, all 11)] | 0x11 => [(21, 11, all 11)] | 0x12 => [(22, 10, all 10)]
  | 0x13 => [(21, 11, all 11)] | 0x14 => [(21, 11, all 11)] | 0x20 => [(21, 11, all 11)]
  | 0x21 => [(20, 12, all 12)]
  | 0x22 => [(21, 1, 0xFC), (22, 2, all 2), (28, 4, all 4)]
  | 0x23 => [(21, 1, 0xFE), (22, 2, all 2), (28, 4, all 4)]
  | 0x24 => [(20, 12, all 12)] | 0x25 => [(20, 12, all 12)] | 0x26 => [(20, 12, all 12)] | 0x27 => [(20, 12, all 12)]
  | 0x28 => [(20, 12, all 12)] | 0x29 => [(20, 12, all 12)] | 0x2A => [(20, 12, all 12)]
  | 0x2B => [(21, 11, all 11)] | 0x30 => [(22, 10, all 10)]
  | 0x31 => [(21, 1, 0xFF), (28, 4, all 4)]
  | 0x32 => [(20, 12, all 12)] | 0x40 => [(22, 10, all 10)] | 0x41 => [(21, 11, all 11)] | 0x42 => [(21, 11, all 11)]
  | 0x43 => [(20, 12, all 12)]
  | 0x50 => [(20, 12, all 12)] | 0x51 => [(20, 12, all 12)] | 0x52 => [(20, 12, all 12)] | 0x53 => [(20, 12, all 12)]
  | 0x60 => [(20, 12, all 12)] | 0x61 => [(20, 12, all 12)] | 0x62 => [(24, 8, all 8)] | 0x63 => [(24, 8, all 8)]
  | 0x64 => [(21, 11, all 11)]
  | 0x70 => [(20, 12, all 12)] | 0x71 => [(22, 10, all 10)]
  | 0x72 => [(21, 1, 0xFC), (22, 2, all 2), (28, 4, all 4)]
  | 0x73 => [(22, 10, all 10)] | 0x74 => [(21, 11, all 11)]
  | _ => []

/-- Reserved fields of the parameters (11 R307 to R313). -/
def paramSpans (p : Packet) : List (Nat × Nat × Nat) :=
  let z4 := 0xFFFFFFFF
  let z8 := 2 ^ 64 - 1
  match opcodeOf p with
  | 0x02 => [(0x2C, 4, z4)]
  | 0x03 => (List.range (argOf p 20 2)).map (fun k => (0x24 + 24 * k, 4, z4))
  | 0x10 => [(0x3C, 4, z4)]
  | 0x12 => [(0x23, 1, 0xFF), (0x2D, 1, 0xFF), (0x35, 11, 2 ^ 88 - 1)]
  | 0x13 => [(0x28, 8, z8), (0x4C, 4, z4)]
  | 0x14 => [(0x3C, 4, z4)]
  | 0x20 => [(0x20, 1, 0xFC), (0x21, 1, 0xF8), (0x22, 1, 0xE0), (0x23, 1, 0xFF), (0x24, 2, 0xFFF0), (0x26, 2, 0xFFFF), (0x2C, 4, z4), (0x38, 8, z8)]
  | 0x21 => [(0x28, 8, z8)]
  | 0x22 => if bitOf (argOf p 21 1) 1 then [(0x2C, 4, z4)] else []
  | 0x23 => if argOf p 20 1 = 0 then [(0x3A, 6, 2 ^ 48 - 1), (0x54, 4, z4)] else [(0x28, 8, z8)]
  | 0x24 => [(0x28, 8, z8)]
  | 0x28 => [(0x2C, 4, z4)] | 0x2A => [(0x2C, 4, z4)] | 0x2B => [(0x2C, 4, z4)]
  | 0x32 => [(0x24, 4, z4), (0x3C, 4, z4)]
  | 0x41 => [(0x28, 8, z8), (0x3C, 4, z4)]
  | 0x42 => [(0x2C, 4, z4), (0x3C, 4, z4)]
  | 0x43 => [(0x28, 8, z8)]
  | 0x50 => [(0x4C, 4, z4)]
  | 0x51 => [(0x2C, 4, z4)] | 0x52 => [(0x2C, 4, z4)]
  | 0x60 => [(0x3C, 4, z4)]
  | 0x70 => [(0x28, 8, z8), (0x3C, 4, z4)]
  | 0x71 => [(0x2C, 4, z4)]
  | _ => []

/-- The first reserved field of a list that is not zero, by its offset (11 R295; log entry 16). -/
def firstReserved (p : Packet) (spans : List (Nat × Nat × Nat)) : Option Nat :=
  (spans.find? (fun x => (fieldAt (p.header ++ p.params) x.1 x.2.1 &&& x.2.2) != 0)).map (fun x => x.1)

/-! ### Recognition -/

/-- Whether client n exists and its window is scanned (11 R278, R280, R283; 18 R457, R473). -/
def scanning (s : State) (n : Nat) : Bool :=
  let c := clientOf s n
  c.run && ringOk c && !c.preempting && !s.host.stopped && decide (2 ≤ s.svc.phase) && s.svc.phase != 6
    && (n == 0 || s.host.clientMode == 1 || s.host.vfEnable)

/-- LENGTH is 3 to 4,096 and the packet ends inside the window (11 R283). -/
def lengthFits (c : Client) (p : Packet) : Bool :=
  decide (3 ≤ lengthOf p ∧ lengthOf p ≤ 4096 ∧ c.scan + 16 * lengthOf p ≤ 65536)

/-- SCAN after a packet of some bytes (11 R283). -/
def advanceScan (scan bytes : Nat) : Nat := if 65536 - (scan + bytes) < 48 then 0 else scan + bytes

/-- SEQ after a packet (11 R282). -/
def advanceSeq (seq : Nat) : Nat := if seq = 0xFFFFFFFF then 1 else seq + 1

/-- How many bytes a recognised packet takes, none when neither trailer matches (11 R283). -/
def recognisedBytes (c : Client) (p : Packet) : Option Nat :=
  if lengthFits c p then (if p.trailerSeq = c.seq then some (16 * lengthOf p) else none)
  else if p.shortSeq = c.seq then some 48 else none

/-- Packets recognised so far in the present beat. -/
def tallied (s : State) (t : Nat × Nat) : Nat := if t.1 = s.cad.beat then t.2 else 0

/-- Room for one more packet in this beat: 16 a client, 1,024 a device (11 R285). -/
def beatHasRoom (s : State) (c : Client) : Bool :=
  decide (tallied s c.tally < 16) && decide (tallied s s.host.tally < 1024)

/-- Recognises a packet, or leaves it for later (11 R283 to R288). A BAD_LENGTH packet and an unknown opcode get their reply at once; a PAD gets none; every other packet waits to be served. -/
def recognise (p : Packet) (s : State) : State :=
  let c := clientOf s p.client
  if !scanning s p.client || c.blockedBy.isSome then s
  else
    match recognisedBytes c p with
    | none => s
    | some bytes =>
      if freeReplySlots s p.client < 2 then
        if c.held then s else setFlag (offCliEvents p.client) 2 (putClient p.client { c with held := true } s)
      else if !beatHasRoom s c then s
      else
        let c := { c with tally := (s.cad.beat, tallied s c.tally + 1) }
        let s := { s with host := { s.host with tally := (s.cad.beat, tallied s s.host.tally + 1) } }
        let bad := !lengthFits c p || p.trailerLen != lengthOf p
        let c1 := { c with held := false, scan := advanceScan c.scan bytes, seq := advanceSeq c.seq }
        if opcodeOf p = 0 ∧ ¬ bad then putClient p.client c1 s
        else
          let seq := c.seq
          let c2 := { c1 with
            inflight := c.inflight + 1
            previous := .waiting seq
            blockedBy := if isAsync p then none else some seq }
          let s1 := if opcodeOf p = 0 then s
            else { s with counters := { s.counters with recognised := satAdd (2 ^ 64 - 1) s.counters.recognised 1 } }
          let o := { originOf p s with seq := seq }
          if bad then
            replyTo o true { status := stBAD_LENGTH, detail := if lengthFits c p then p.trailerLen else lengthOf p }
              (setFlag (offCliEvents p.client) 1 (putClient p.client c2 s1))
          else if !knownOpcode (opcodeOf p) then
            replyTo o true { status := stBAD_OPCODE, detail := 0 } (putClient p.client c2 s1)
          else putClient p.client { c2 with recognised := c.recognised ++ [⟨p, c.previous, c.scan, c.seq, s.cad.beat, s.cad.phase⟩] } s1

/-! ### Envelopes (13 R358 to R360) -/

/-- The KEYGENs of a client's current and previous key, while not suspended. -/
def keygens (s : State) (n : Nat) : List Nat :=
  match FMap.get? s.sec.payloadKeys n with
  | none => []
  | some k => if k.suspended then [] else (k.keyId % 256) :: (match k.previous with | some q => [q.1 % 256] | none => [])

/-- Checks one input envelope; the answer is the state with its SEQ recorded, or an AUTH_FAIL detail (13 R360). -/
def openEnvelope (client kind : Nat) (e : Envelope) (s : State) : Except Nat State :=
  let own := e.dir == 1 && e.kind == kind && (kind == 3 || kind == 4)
  if e.client ≠ client ∨ e.kind ≠ kind ∨ ¬ (e.dir = 0 ∨ own) ∨ e.length = 0 ∨ 1048576 < e.length then .error 0x0005
  else if !(keygens s client).contains e.keygen then .error 0x0004
  else if !e.tagOk then .error 0x0002
  else if own then .ok s
  else
    match FMap.get? s.sec.payloadKeys client with
    | none => .error 0x0004
    | some k =>
      if e.seq = 0 ∨ e.seq + 1024 ≤ k.inTop ∨ k.inSeen.contains e.seq then .error 0x0003
      else
        let top := max k.inTop e.seq
        let k' := { k with inTop := top, inSeen := (e.seq :: k.inSeen).filter (fun q => decide (top < q + 1024)) }
        .ok { s with sec := { s.sec with payloadKeys := FMap.put s.sec.payloadKeys client k' } }

def openEnvelopes (client kind : Nat) : List Envelope → State → Except Nat State
  | [], s => .ok s
  | e :: rest, s =>
    match openEnvelope client kind e s with
    | .error d => .error d
    | .ok s' => openEnvelopes client kind rest s'

/-! ### Policing (11 R296, R297) -/

/-- Colours: 0 green, 1 yellow, 2 red. A meter whose PIR is 0 is off; pre-marks count only in colour-aware mode. -/
def meterColour (m : Meter) (size : Nat) (yellow red : Bool) : Nat :=
  if m.pir = 0 then 0
  else if red ∨ m.tp < size then 2
  else if yellow ∨ m.tc < size then 1
  else 0

def debit (m : Meter) (size colour : Nat) : Meter :=
  if m.pir = 0 then m
  else { m with tp := m.tp - size, tc := if colour = 0 then m.tc - size else m.tc }

/-- Retry of a red packet at a meter (11 R297). -/
def redRetry (m : Meter) (size : Nat) (yellow red : Bool) : Nat :=
  if meterColour m size yellow red = 2 then min 0xFFFE (ceilDiv (size - m.tp) m.pir) else 0

/-- Client 0's packets that are not metered (11 R296). -/
def unmetered (p : Packet) : Bool :=
  p.client == 0 && (opcodeOf p == 3 || opcodeOf p == 0x64 || decide (0x72 ≤ opcodeOf p ∧ opcodeOf p ≤ 0x74))

/-- Bytes the byte meter counts. -/
def packetBytes (p : Packet) : Nat := 16 * lengthOf p + ((readBufs p).map (bufLen p)).foldl (· + ·) 0

/-- The packet's colour with the meters debited, or the THROTTLED detail of a red packet. -/
def police (p : Packet) (s : State) : Except Nat (Nat × State) :=
  let c := clientOf s p.client
  if unmetered p then .ok (0, s)
  else
    let y := c.aware && bitOf (flagsOf p) 1
    let r := c.aware && bitOf (flagsOf p) 2
    let b := packetBytes p
    let col := max (meterColour c.cmd 256 y r) (meterColour c.byt b y r)
    if col = 2 then .error (max (redRetry c.cmd 256 y r) (redRetry c.byt b y r))
    else .ok (col, putClient p.client { c with cmd := debit c.cmd 256 col, byt := debit c.byt b col } s)

/-! ### The checks in order -/

/-- What the checks before a command's own say. -/
inductive Gate where
  | run (colour : Nat) (s : State)
  | refuse (s : State) (a : Ans)
  | forward (dest : Nat) (s : State)
  | wait
  deriving DecidableEq, Repr

def bad (detail : Nat) : Ans := { status := stBAD_PARAM, detail := detail }
def busy (detail : Nat) : Ans := { status := stBUSY, detail := detail }
def noResource (detail : Nat) : Ans := { status := stNO_RESOURCE, detail := detail }
def ok : Ans := { status := stOK }

/-- Beats from Idle or Dormant to Run: 40 and 400 microseconds (14 R387, R391). -/
def wakeBeats (s : State) : Nat := ceilDiv (if s.sup.dev = .idle then 40 else 400) (2 ^ s.cad.period)

/-- Check 2: permission, then the BUSY of start-up and of Idle and Dormant (11 R279; 14 R393; 18 R455, R457). -/
def checkOpcode (p : Packet) (s : State) : Option Ans :=
  let op := opcodeOf p
  if s.svc.phase = 5 then
    (if p.client = 0 ∧ (op = 1 ∨ op = 2 ∨ op = 0x60 ∨ op = 0x61) then none else some { status := stBAD_OPCODE, detail := 1 })
  else if p.client ≠ 0 ∧ adminOpcode op then some { status := stBAD_OPCODE, detail := 1 }
  else if s.svc.phase < 4 ∧ !earlyOpcode op then some (busy 0xFFFF)
  else if s.sup.dev ≠ .run ∧ !quietOpcode op then
    some (busy (if s.sup.devTarget = some .run then min 0xFFFE (wakeBeats s - (s.cad.beat - s.sup.wakeFrom)) else 0xFFFF))
  else none

/-- Check 3: reserved fields and pre-marks, by ascending offset (11 R291, R12, R65). -/
def checkReserved (p : Packet) (s : State) : Option Ans :=
  let f := flagsOf p
  if bitsOf f 5 3 ≠ 0 ∨ (bitOf f 1 ∧ bitOf f 2) then some (bad 0x0001)
  else if bitsOf (handleOf p) 56 8 ≠ 0 ∧ handleHome (handleOf p) = ownIndex s then some (bad 0x000F)
  else
    match firstReserved p (argSpans (opcodeOf p) ++ paramSpans p) with
    | some off => some (bad off)
    | none => if p.trailerRes ≠ 0 then some (bad (16 * lengthOf p - 2)) else none

/-- Check 4: tenancy and keys, a release in progress, then sealing (13 R345, R372; 11 R292). -/
def checkTenancy (p : Packet) (s : State) : Option Ans :=
  let op := opcodeOf p
  let buffers := ((readBufs p) ++ (writeBufs p)).length ≠ 0 ∧ op ≠ 0x50 ∧ op ≠ 0x51
  if !s.sec.bound then
    (if tenantOpcode op ∨ isSealed p then some { status := stNOT_ATTESTED } else none)
  else if s.sec.releasing ∧ tenantOpcode op then some (busy 0xFFFF)
  else if (isSealed p ∨ buffers) ∧ keygens s p.client = [] then some { status := stNOT_ATTESTED }
  else if op = 0x10 ∧ (FMap.get? s.sec.weightKeys (argOf p 20 1)).isNone then some { status := stNOT_ATTESTED }
  else if !isSealed p ∧ (op = 0x20 ∨ (op = 0x21 ∧ paramOf p 0x20 8 ≠ 0) ∨ (op = 0x22 ∧ !bitOf (argOf p 21 1) 1) ∨ op = 0x29 ∨ op = 0x62) then
    some { status := stAUTH_FAIL, detail := 0x0001 }
  else none

/-- The home that a STALE_EPOCH reply names (12 R337). -/
def currentHome (s : State) (h : Nat) : Option Nat × Option Nat :=
  match liveSlot s h with
  | some slot =>
    let x := sessionAt s slot
    if x.d.state = 5 then (some (handleHome x.d.newHome), some x.d.newHome) else (some (handleHome h), some h)
  | none =>
    match s.comp.map with
    | none => (none, none)
    | some m => if m.devices.any (fun d => d.index == handleHome h && !d.leaving) then (some (handleHome h), none) else (none, none)

/-- Check 7 on a command that names a session: its epoch, then its handle; a command for another device goes there (12 R337, R338; 03 R65). -/
def checkHandle (p : Packet) (colour : Nat) (s : State) : Gate :=
  let h := handleOf p
  if h = 0 then (if handleOpcode (opcodeOf p) then .refuse s (bad 0x0008) else .run colour s)
  else
    let e := s.comp.epoch
    let he := epochOf p
    let inGrace := match s.comp.graceUntil with | some g => decide (s.cad.beat < g) | none => false
    if e < he then
      match s.comp.staged with
      | some (m, at_) => if m.epoch = he then .refuse s (busy (min 0xFFFE (at_ - s.cad.beat))) else .refuse s (bad 0x0010)
      | none => .refuse s (bad 0x0010)
    else if he < e ∧ !(he == s.comp.previous && inGrace) then
      let c := currentHome s h
      .refuse s { status := stSTALE_EPOCH, count0 := e, count1 := c.1.getD 0xFFFFFFFF, handle := c.2 }
    else if handleHome h ≠ ownIndex s then
      match s.comp.map with
      | some m => if m.devices.any (fun d => d.index == handleHome h) then .forward (handleHome h) s else .refuse s (bad 0x0008)
      | none => .refuse s (bad 0x0008)
    else
      match liveSlot s h with
      | none => .refuse s (bad 0x0008)
      | some slot =>
        let x := sessionAt s slot
        if x.d.state = 5 then .forward (handleHome x.d.newHome) s
        else if x.d.state = 8 then .refuse s (bad 0x0008)
        else .run colour s

/-- Checks 2 to 7 of a packet whose LENGTH passed (11 R315). -/
def gate (p : Packet) (prior : Previous) (s : State) : Gate :=
  match checkOpcode p s with
  | some a => .refuse s a
  | none =>
  match checkReserved p s with
  | some a => .refuse s a
  | none =>
  match checkTenancy p s with
  | some a => .refuse s a
  | none =>
  match (if isSealed p then openEnvelopes p.client 0 (p.envs.take 1) s else .ok s) with
  | .error d => .refuse (if d = 3 then setFlag offSecEvents 3 s else s) { status := stAUTH_FAIL, detail := d }
  | .ok s1 =>
  match police p s1 with
  | .error d => .refuse (setFlag (offCliEvents p.client) 0 s1) { status := stTHROTTLED, detail := d }
  | .ok (colour, s2) =>
    if isChain p then
      match prior with
      | .waiting _ => .wait
      | .none => .refuse s2 { status := stCANCELLED, detail := 1 }
      | .status st =>
        if st = stOK ∨ st = stACCEPTED ∨ st = stPARTIAL then checkHandle p colour s2
        else .refuse s2 { status := stCANCELLED, detail := 1 }
    else checkHandle p colour s2

/-- Removes a packet from its client's recognised list. -/
def dropRecognised (p : Packet) (s : State) : State :=
  modClient p.client (fun c => { c with recognised := c.recognised.filter (fun r => !decide (r.packet = p)) }) s

def priorOf (p : Packet) (s : State) : Option Previous :=
  ((clientOf s p.client).recognised.find? (fun r => decide (r.packet = p))).map (fun r => r.prior)

/-- The KIND an object's envelopes carry in the buffers a packet reads (13 R347, R360). -/
def inputKind (p : Packet) : Nat := if opcodeOf p = 0x2B then 4 else 1

/-- Whether the packet's opcode reads host input in envelopes. -/
def readsEnveloped (p : Packet) (s : State) : Bool :=
  s.sec.bound && (readBufs p).length != 0 && opcodeOf p != 0x51

/-- A packet of one opcode. -/
def opIs (op : Nat) (p : Packet) : Bool := opcodeOf p == op

end Sys2Proof.Machine
end

