-- ==== Sys2Proof/Machine/Sessions.lean ====
section
/-! DEFINITION. The Session State Engine's shared operations: page and capsule sizes, frames and their counts, slots, ledgers and the journal queue, descriptor images, entry to REBUILDING and LOST, cancellation (03, 04). -/

namespace Sys2Proof.Machine

/-- Slot-needing commands are admitted in these states (02 R45). -/
def slotsServed (s : State) : Bool := s.cad.st = .locked || s.cad.st = .holdover || s.cad.st = .master

/-! ### Geometry (03 R77, 04 R97, R101) -/

def partitionAt (s : State) (p : Nat) : Option Partition := FMap.get? s.cont.partitions p

/-- Bytes of a KV element: 0 E4M3, 1 E5M2, 2 BF16. -/
def elemBytes (fmt : Nat) : Nat := if fmt = 2 then 2 else 1

def tileBytes (q : Partition) : Nat := 2 * 64 * q.headDim * elemBytes q.kvFormat
def tilesPerPage (q : Partition) : Nat := q.layers * q.kvHeads
def pageBytes (q : Partition) : Nat := tilesPerPage q * tileBytes q

/-- The frame granule: the page size rounded up to a power of two, from 64 KiB (04 R97). -/
def granule (q : Partition) : Nat :=
  match (List.range 11).find? (fun i => decide (pageBytes q ≤ 2 ^ (16 + i))) with
  | some i => 2 ^ (16 + i)
  | none => 2 ^ 26

def granuleOf (s : State) (p : Nat) : Nat := match partitionAt s p with | some q => granule q | none => 2 ^ 16

/-- A frame's State Space address (04 R96). -/
def frameAddr (part idx g : Nat) : Nat := 2 ^ 48 + part * 2 ^ 44 + idx * g

/-- Payload bytes of a tile record of a grade holding `kept` positions (04 R101); Extrait by its worst case. -/
def payloadBytes (q : Partition) (grade kept : Nat) : Nat :=
  match grade with
  | 0 => tileBytes q
  | 1 => 2 * ceilDiv (6 * kept * q.headDim) 8
  | _ => 2 * ceilDiv (4 * kept * q.headDim) 8

/-- Bytes of a page capsule (04 R100, R101). -/
def capsuleSize (q : Partition) (grade kept : Nat) : Nat :=
  32 + tilesPerPage q * (8 + ceilDiv (payloadBytes q grade kept) 8 * 8)

/-- The pattern block of a partition in the active image (05 R133). -/
def patternOf (s : State) (p : Nat) : Option Pattern :=
  match s.sched.active with
  | none => none
  | some img => img.patterns.find? (fun x => x.partition == p)

def windowOf (s : State) (p : Nat) : Nat := match patternOf s p with | some x => x.window | none => 0

def globalRanges (s : State) (p : Nat) : List (Nat × Nat) := match patternOf s p with | some x => x.globals | none => []

/-- Whether a position is global (05 R133). -/
def isGlobal (gs : List (Nat × Nat)) (pos : Nat) : Bool := gs.any (fun g => decide (g.1 ≤ pos ∧ pos < g.1 + g.2))

/-- Whether a page holds a global position (03 R78). -/
def pageIsGlobal (gs : List (Nat × Nat)) (n : Nat) : Bool :=
  gs.any (fun g => decide (g.1 < 64 * (n + 1) ∧ 64 * n < g.1 + g.2))

/-- Pages that hold the global ranges. -/
def globalPages (gs : List (Nat × Nat)) : List Nat :=
  (gs.foldl (fun l g => l ++ (List.range (ceilDiv (g.1 + g.2) 64 - g.1 / 64)).map (fun i => g.1 / 64 + i)) []).eraseDups

/-- RETIRED at a committed length (03 R82). -/
def retiredAt (w n : Nat) : Nat := if w = 0 then 0 else n + 1 - w

/-- A key position that KV head `h` attends from query `q` (05 R136). -/
def attends (x : Pattern) (h q k : Nat) : Bool :=
  decide (k ≤ q) && (isGlobal x.globals k
    || ((x.window == 0 || decide (q - k + 2 ≤ x.window))
      && (let m := x.maskMap.getD h 0
          m == 0 || ((x.masks.getD (m - 1) []).getD ((q - k) % 2 ^ x.maskLog2) false))))

/-- Pages the Fabric reads for a query of a session whose last page is known: the window pages and every GLOBAL page, and without a window every page (05 R137). -/
def pagesRead (w : Nat) (gs : List (Nat × Nat)) (last q : Nat) : List Nat :=
  let lo := if w = 0 then 0 else (q + 2 - w) / 64
  let hi := if w = 0 then max last (q / 64) else q / 64
  let window := (List.range (hi + 1 - lo)).map (fun i => lo + i)
  (globalPages gs).filter (fun n => decide (n < lo ∨ hi < n) && decide (n ≤ max last (q / 64))) ++ window

/-- The turn count of position p for a pair of frequency F (05 R138). -/
def turnCount (p f : Nat) : Nat := p * f % 2 ^ 64

/-! ### T1, T2 and frames (03 R79, 04 R99) -/

def frameAt (s : State) (addr : Nat) : Option Frame := FMap.get? s.tier.frames addr

/-- Whether an entry puts its frame on another HBM or DDR address than the one it had. -/
def frameMoves (old : Option Frame) (f : Frame) : Bool :=
  f.tier != 3 && (match old with | none => true | some g => g.tier != f.tier || g.channel != f.channel)

/-- Writes a frame-table entry (04 R99); where the frame comes to stand in HBM or DDR, its address there is the allocator's (log entry 88). -/
def putFrame (addr : Nat) (f : Frame) (s : State) : State :=
  if frameMoves (frameAt s addr) f then
    let v := freeValue s
    { v.2 with tier := { v.2.tier with frames := FMap.put v.2.tier.frames addr { f with place := v.1 } } }
  else { s with tier := { s.tier with frames := FMap.put s.tier.frames addr { f with place := if f.tier = 3 then 0 else f.place } } }

/-- Bytes of the retired frames that no page list names any more; the partition stands in the address (04 R96, R127). -/
def t1Retired (s : State) : Nat :=
  s.tier.retired.foldl (fun n a => if (frameAt s a).isNone then n + granuleOf s (a / 2 ^ 44 % 16) else n) 0

/-- T1 bytes that frames hold, those of parked pages that return at the next step boundary, and retired frames (log entry 12: pool sizes come from training). -/
def t1Used (s : State) : Nat :=
  s.tier.frames.foldl (fun n e => if e.2.tier = 1 then n + granuleOf s e.2.partition else n) (s.tier.releasing + t1Retired s)

/-- Pages a session holds in T1. -/
def t1Pages (x : Session) : Nat := (x.pages.filter (fun p => p.tier == 1)).length

/-- Frames one session has reserved and not taken (11 R301): a generation's, a scheduled revive's, an incoming handover's. -/
def reservedBy (s : State) (slot : Nat) (x : Session) : Nat :=
  match x.job with
  | some j => j.framesReserved - t1Pages x
  | none =>
    match x.handover with
    | some h => if h.source then 0 else h.frames - t1Pages x
    | none => if s.tier.ops.any (fun o => o.slot == slot && o.kind == .revive) then x.pages.length - t1Pages x else 0

/-- Bytes of frames reserved and not taken. -/
def reservedFrames (s : State) : Nat :=
  s.slots.table.foldl (fun n e => n + reservedBy s e.1 e.2 * granuleOf s e.2.d.partition) 0

/-- HBM beside the descriptor table: eight stacks of 48 GiB less 2 GiB (00 R4, 01 R15). -/
def hbmFree : Nat := 8 * 48 * 2 ^ 30 - 2 * 2 ^ 30

/-- Free T1 bytes after reservations. -/
def t1Free (s : State) : Nat := s.tier.t1Total * 2 ^ 20 - t1Used s - reservedFrames s

/-- The largest frame granule of the partitions defined, 64 KiB with none: what TIER_T1_FREE counts in (log entry 35). -/
def widestGranule (s : State) : Nat := s.cont.partitions.foldl (fun n e => max n (granule e.2)) (2 ^ 16)

def t1FreeFrames (s : State) (part : Nat) : Nat := t1Free s / granuleOf s part

/-- Capsule bytes in T2: own, and lent to borrowers. -/
def t2Used (s : State) : Nat :=
  s.tier.frames.foldl (fun n e => if e.2.tier = 2 then n + e.2.length else n) 0
    + s.tier.lent.foldl (fun n l => n + l.body.length) 0

/-- A session's pages that take part in a park: all but the private speculation page (05 R144). -/
def parkPages (x : Session) : List Page := x.pages.filter (fun p => !p.spec)

/-- Worst-case capsule bytes of a park (04 R114). -/
def parkBytes (s : State) (x : Session) (grade : Nat) : Nat :=
  match partitionAt s x.d.partition with
  | none => 0
  | some q => (parkPages x).length * capsuleSize q (if grade = 3 then 2 else grade) 64

/-- Capsule space a park reserves: the Extrait worst case (04 R114). -/
def parkSpace (s : State) (x : Session) : Nat := parkBytes s x 0

/-- Capsule space in T2 held by operations that are still to commit: a park's at the Extrait worst case (04 R114). -/
def t2Reserved (s : State) : Nat :=
  s.tier.ops.foldl (fun n o =>
    if o.dest ≠ 2 then n
    else if o.kind = .park then n + parkSpace s (sessionAt s o.slot)
    else if o.kind = .sessionIn then n + o.moveBytes else n) 0

def t2Free (s : State) : Nat := s.tier.t2Total * 2 ^ 20 - t2Used s - t2Reserved s

/-- Own capsules held by lenders, and capsules lent, in bytes (04 R128). -/
def t3Held (s : State) : Nat := s.tier.frames.foldl (fun n e => if e.2.tier = 3 then n + e.2.length else n) 0
def t3Lent (s : State) : Nat := s.tier.lent.foldl (fun n l => n + l.body.length) 0

/-- A frame index that no frame of the partition has (log entry 10). -/
def freeIndex (s : State) (part : Nat) : Nat :=
  let g := granuleOf s part
  match (List.range (s.tier.frames.length + s.tier.retired.length + 1)).find? (fun i =>
      (frameAt s (frameAddr part i g)).isNone && !s.tier.retired.contains (frameAddr part i g)) with
  | some i => i
  | none => 0

/-- The DDR channel an object is placed on: an ACTIVE one (log entry 33). -/
def placeChannel (s : State) (n : Nat) : Nat :=
  let a := (s.tier.ddr.filter (fun e => e.2.state == 1)).map (fun e => e.1)
  if a.isEmpty then n % 12 else a.getD (n % a.length) 0

/-- Takes a zeroed T1 frame (05 R132). -/
def takeFrame (part : Nat) (s : State) : Nat × State :=
  let a := frameAddr part (freeIndex s part) (granuleOf s part)
  (a, putFrame a { partition := part, tier := 1, grade := 0xFF, length := 0, count := 1, lender := 0, lref := 0, channel := 0 } s)

/-- Drops one reference of a frame; at zero it is free and its bytes read 0 again (03 R79, 05 R132), unless a checkpoint holds it (16 R422). -/
def dropFrame (addr : Nat) (s : State) : State :=
  match frameAt s addr with
  | none => s
  | some f =>
    if 1 < f.count then putFrame addr { f with count := f.count - 1 } s
    else if s.saves.checkpoints.any (fun c => c.snapped && c.held.contains addr) then putFrame addr { f with count := 0 } s
    else
      let s := if f.tier = 3 then send (.capsuleFree f.lender f.lref) s else s
      { s with
        mem := Memory.clear s.mem addr (granuleOf s f.partition)
        tier := { s.tier with
          frames := FMap.del s.tier.frames addr
          pairs := s.tier.pairs.filter (fun p => p.1 != addr && p.2.2 != addr) } }

/-- Work that falls due at a step boundary: at once while no image is active (log entry 17). -/
def frameDue (addr : Nat) (s : State) : State :=
  if addr = 0 then s
  else if s.sched.active.isNone then dropFrame addr s
  else { s with tier := { s.tier with due := s.tier.due ++ [addr] } }

def framesDue (addrs : List Nat) (s : State) : State := addrs.foldl (fun s a => frameDue a s) s

/-- The scratch frames and the statistics area of a training pass return at the next step boundary (05 R145, R146). -/
def returnScratch (slot : Nat) (s : State) : State :=
  let x := sessionAt s slot
  putSession slot ({ x with scratch := [], stats := [] }) (framesDue ((x.scratch ++ x.stats).map (fun e => e.2)) s)

/-- Adds a reference to a frame (03 R79). -/
def shareFrame (addr : Nat) (s : State) : State :=
  match frameAt s addr with
  | none => s
  | some f => putFrame addr { f with count := f.count + 1 } s

/-! ### Slots (03 R64) -/

/-- The slot the next session takes: never-used slots ascending, then slots in the order freed (log entry 10). -/
def nextSlot (s : State) : Option Nat :=
  if s.slots.fresh < 16777216 then some s.slots.fresh else s.slots.freed.head?

def takeSlot (s : State) : State :=
  if s.slots.fresh < 16777216 then { s with slots := { s.slots with fresh := s.slots.fresh + 1 } }
  else { s with slots := { s.slots with freed := s.slots.freed.tail } }

def nextGen (g : Nat) : Nat := if g = 0xFFFF then 1 else g + 1

/-- The generation before one: what a FREE descriptor's handle holds (03 R68). -/
def prevGen (g : Nat) : Nat := g - 1

/-- Releases one reference of a compiled set (10 R261). -/
def releaseSet (set : Option Nat) (s : State) : State :=
  match set with
  | none => s
  | some i =>
    match FMap.get? s.cont.sets i with
    | none => s
    | some c =>
      let rest := if c.count ≤ 1 then FMap.del s.cont.sets i else FMap.put s.cont.sets i { c with count := c.count - 1 }
      { s with cont := { s.cont with sets := rest } }

def holdSet (set : Option Nat) (s : State) : State :=
  match set with
  | none => s
  | some i =>
    match FMap.get? s.cont.sets i with
    | none => s
    | some c => { s with cont := { s.cont with sets := FMap.put s.cont.sets i { c with count := c.count + 1 } } }

/-- Sets a session's state and the beat of the change (03 R68). -/
def setState (slot st : Nat) (s : State) : State :=
  let b := stamp s
  modSession slot (fun x => { x with d := { x.d with state := st, lastBeat := b } }) s

/-- Whether every session slot is FREE, with an optional partition test. -/
def anySession (p : Session → Bool) (s : State) : Bool := FMap.any (fun _ x => x.d.state != 0 && p x) s.slots.table

/-- Whether a partition holds a session that is not FREE, of its own or another home. -/
def partitionHeld (s : State) (part : Nat) : Bool :=
  anySession (fun x => x.d.partition == part) s || FMap.any (fun _ x => x.d.state != 0 && x.d.partition == part) s.slots.guests

/-! ### The ledger and the journal (03 R70 to R76) -/

def journalOn (s : State) : Bool := s.tier.set.journalBase != 0 && s.tier.set.journalSize != 0

/-- Step number as runs carry it. -/
def stepNow (s : State) : Nat := s.sched.step

/-- Positions of a run (03 R71). -/
def runCount (r : Run) : Nat := if r.kind = 7 then 0 else r.elems.length

/-- Payload of a run (03 R70, R71). -/
def runPayload (r : Run) : Bytes :=
  if r.kind = 7 then leBytes 8 r.parent.1 ++ leBytes 8 r.parent.2
  else if r.tokens then (r.elems.map (leBytes 4)).flatten
  else r.elems.map (BitVec.ofNat 8)

/-- Bytes of a run in the ledger: header and payload padded to 8 (03 R70). -/
def runBytes (r : Run) : Nat := 8 + ceilDiv (runPayload r).length 8 * 8

/-- Cuts a ledger's runs into segments of at most 64 KiB, in ledger order (03 R73; log entry 21). -/
def segmentsFrom (cur : List Run) (size : Nat) : List Run → List (List Run)
  | [] => if cur.isEmpty then [] else [cur.reverse]
  | r :: rest =>
    if !cur.isEmpty ∧ 65536 < size + runBytes r then cur.reverse :: segmentsFrom [r] (runBytes r) rest
    else segmentsFrom (r :: cur) (size + runBytes r) rest

def segmentsOf (l : List Run) : List (List Run) := segmentsFrom [] 0 l

/-- A DDR channel that is ACTIVE and not among some others; channel `n` modulo twelve where there is none. -/
def otherChannel (s : State) (avoid : List Nat) (n : Nat) : Nat :=
  let a := ((s.tier.ddr.filter (fun e => e.2.state == 1)).map (fun e => e.1)).filter (fun c => !avoid.contains c)
  if a.isEmpty then n % 12 else a.getD (n % a.length) 0

/-- Allocates a ledger segment: its number, with its two copies on two channels (04 R126). -/
def newSegment (s : State) : Nat × State :=
  let n := s.slots.nextSegment
  let a := placeChannel s n
  (n, { s with slots := { s.slots with nextSegment := n + 1, segments := FMap.put s.slots.segments n ⟨1, a, otherChannel s [a] n⟩ } })

def newSegments : Nat → State → List Nat × State
  | 0, s => ([], s)
  | k + 1, s => let a := newSegment s; let r := newSegments k a.2; (a.1 :: r.1, r.2)

/-- The segments a session's body needs beyond those it has, one at the least. -/
def growSegments (slot : Nat) (s : State) : State :=
  let x := sessionAt s slot
  let r := newSegments (max 1 (segmentsOf x.body).length - x.segments.length) s
  modSession slot (fun x => { x with segments := x.segments ++ r.1 }) r.2

/-- One ledger less shares a segment; at none it is free (03 R81). -/
def dropSegment (n : Nat) (s : State) : State :=
  match FMap.get? s.slots.segments n with
  | none => s
  | some g => { s with slots := { s.slots with
      segments := if g.count ≤ 1 then FMap.del s.slots.segments n else FMap.put s.slots.segments n { g with count := g.count - 1 } } }

/-- One ledger more shares a segment. -/
def shareSegment (n : Nat) (s : State) : State :=
  match FMap.get? s.slots.segments n with
  | none => s
  | some g => { s with slots := { s.slots with segments := FMap.put s.slots.segments n { g with count := g.count + 1 } } }

/-- Segment compression is charged to both Mover budgets (04 R111). -/
def chargeLedger (rs : List Run) (s : State) : State :=
  let n := (rs.map runBytes).foldl (· + ·) 0
  { s with tier := { s.tier with moveUsed := s.tier.moveUsed + n, codecUsed := s.tier.codecUsed + n } }

/-- Runs join the body of a session's ledger, in T2. -/
def growBody (slot : Nat) (rs : List Run) (s : State) : State :=
  if rs.isEmpty then s
  else growSegments slot (chargeLedger rs (modSession slot (fun x => { x with body := x.body ++ rs }) s))

/-- Queues a journal record; its SEQ is given when it is written. -/
def queueRecord (r : JournalRecord) (s : State) : State :=
  if journalOn s then { s with tier := { s.tier with set := { s.tier.set with waiting := s.tier.set.waiting ++ [r] } } } else s

/-- Queues a run's record. -/
def queueRun (handle first : Nat) (r : Run) (s : State) : State :=
  queueRecord ⟨handle, r.step, first, 0, r.kind, boolNat r.tokens, runCount r, runPayload r⟩ s

/-- A session that came from elsewhere has nothing journaled here: its whole ledger waits for the lane (03 R73). -/
def queueLedger (slot : Nat) (s : State) : State :=
  let x := sessionAt s slot
  let h := sessionHandle s slot
  (x.body.foldl (fun (a : Nat × State) r => (a.1 + runCount r, queueRun h a.1 r a.2)) (0, s)).2

/-- CLOSED (8) and CANCELLED (9) records (03 R74). -/
def queueMark (handle kind first : Nat) (s : State) : State := queueRecord ⟨handle, stepNow s, first, 0, kind, 0, 0, []⟩ s

/-- A session begins unjournaled (03 R76): JOURNAL_LAG, with one record at the first such session. -/
def lagAtOpen (slot : Nat) (s : State) : State :=
  if journalOn s then s
  else
    let s := modSession slot (fun x => { x with d := { x.d with journalLag := true } }) s
    if s.evr.lagNoted then s
    else report 0x500 (leBytes 4 1 ++ leBytes 8 0) { s with evr := { s.evr with lagNoted := true } }

/-- Appends a run to a session's body (03 R73); a tail that has not moved yet goes before it, so that the ledger keeps its order. -/
def appendBody (slot : Nat) (r : Run) (s : State) : State :=
  let x := sessionAt s slot
  let s := queueRun (sessionHandle s slot) x.d.ledgerPos r s
  let s := growBody slot (x.tail ++ [r]) s
  modSession slot (fun x => { x with tail := [], d := { x.d with ledgerPos := x.d.ledgerPos + runCount r } }) s

/-- Appends a commit's runs: to the tail when they fit its 1 KiB, otherwise the tail and then the runs go to the body (03 R73). -/
def appendCommit (slot : Nat) (rs : List Run) (s : State) : State :=
  let x := sessionAt s slot
  let h := sessionHandle s slot
  let q := rs.foldl (fun (a : Nat × State) r => (a.1 + runCount r, queueRun h a.1 r a.2)) (x.d.ledgerPos, s)
  let fits : Bool := decide (((x.tail ++ rs).map runBytes).foldl (· + ·) 0 ≤ 1024)
  let s := if fits then q.2 else growBody slot (x.tail ++ rs) q.2
  modSession slot (fun x => { x with tail := if fits then x.tail ++ rs else [], d := { x.d with ledgerPos := q.1 } }) s

/-- Elements of a session's ledger in order. -/
def ledgerElems (x : Session) : List Nat := ((x.body ++ x.tail).map (fun r => if r.kind = 7 then [] else r.elems)).flatten

/-- Bytes of a record in the ring: padded to 16, in an envelope under a bound tenant (03 R74, 13 R358). -/
def recordBytes (s : State) (r : JournalRecord) : Nat :=
  let b := ceilDiv (32 + r.payload.length) 16 * 16
  if s.sec.bound then ceilDiv (32 + b) 16 * 16 else b

/-- Free bytes of the journal ring (04 R128). -/
def journalFree (s : State) : Nat := s.tier.set.journalSize - (s.tier.set.journalHead - s.tier.set.journalAck)

/-- Writes one record into the ring. -/
def writeRecord (r : JournalRecord) (s : State) : State :=
  let q := s.tier.set.journalSeq + 1
  let n := recordBytes s r
  let s := if s.sec.bound then (takeSeq 0 n s).2 else s
  let s := { s with
    out := { s.out with journal := s.out.journal ++ [{ r with seq := q % 2 ^ 32 }] }
    counters := { s.counters with journalBytes := satAdd (2 ^ 64 - 1) s.counters.journalBytes n }
    tier := { s.tier with set := { s.tier.set with journalSeq := q, journalHead := s.tier.set.journalHead + n } } }
  if r.handle = 0 then s
  else
    let x := sessionAt s (handleSlot r.handle)
    if x.d.state ≠ 0 ∧ x.gen = handleGen r.handle then
      modSession (handleSlot r.handle) (fun x => { x with d := { x.d with journalSeq := q % 2 ^ 32 }, journaled := r.first + r.count }) s
    else s

/-- Writes waiting records in order while they fit; answers those that do not (03 R75), every one while the host is lost (15 R415). -/
def writeRecords : List JournalRecord → State → List JournalRecord × State
  | [], s => ([], s)
  | r :: rest, s => if !s.host.lost ∧ recordBytes s r ≤ journalFree s then writeRecords rest (writeRecord r s) else (r :: rest, s)

/-- The journal part of a Plaza lane: waiting records, then the seal record; what does not fit leaves JOURNAL_LAG, a record and JOURNAL_FULL (03 R74, R75). -/
def journalLane (s : State) : State :=
  if !journalOn s then s
  else
    let todo := s.tier.set.waiting ++ [⟨0, stepNow s, 0, 0, 0, 0, 0, []⟩]
    let x := writeRecords todo s
    let s := { x.2 with tier := { x.2.tier with set := { x.2.tier.set with waiting := x.1 } } }
    let lagging (h : Nat) := x.1.any (fun r => r.handle == h && r.handle != 0)
    let own := ownIndex s
    let s := { s with slots := { s.slots with table := FMap.mapVals (fun slot y =>
      if y.d.state = 0 then y
      else { y with d := { y.d with journalLag := lagging (makeHandle slot y.gen y.d.partition own) } }) s.slots.table } }
    if x.1.isEmpty then s
    else
      let n := (s.slots.table.filter (fun e => e.2.d.state != 0 && e.2.d.journalLag)).length
      let b := (x.1.map (recordBytes s)).foldl (· + ·) 0
      setFlag offTierEvents 4 (report 0x500 (leBytes 4 n ++ leBytes 8 b) s)

/-- A slot enters FREE: its generation advances and it joins the order of free slots. -/
def freeSlot (slot : Nat) (s : State) : State :=
  let x := sessionAt s slot
  let s := releaseSet x.con.set s
  let s := match x.nextSet with | some n => releaseSet n s | none => s
  let s := x.segments.foldl (fun s n => dropSegment n s) s
  let s := putSession slot { gen := nextGen x.gen } s
  { s with
    slots := { s.slots with freed := s.slots.freed ++ [slot] }
    tier := { s.tier with ops := s.tier.ops.filter (fun o => o.slot != slot || o.kind == .demote || o.kind == .pull) } }

/-! ### Images of a session (03 R68, R83, R85; 11 R310) -/

def pageShared (s : State) (x : Session) : Bool :=
  x.pages.any (fun p => match frameAt s p.frame with | some f => decide (1 < f.count) | none => false)

/-- The descriptor's 128 bytes (03 R68). -/
def descriptorBytes (s : State) (slot : Nat) : Bytes :=
  let x := sessionAt s slot
  let d := x.d
  let flags := boolNat d.vocab + 2 * boolNat d.stopInc + 4 * boolNat (pageShared s x) + 8 * boolNat d.copying
    + 16 * boolNat d.parkPending + 32 * boolNat d.countsFolded + 64 * boolNat d.journalLag + 128 * boolNat d.revivePending
  let tailIdx := (x.pages.findIdx? (fun p => p.tail)).getD 0
  let h := if d.state = 0 then makeHandle slot (prevGen x.gen) d.partition (ownIndex s) else sessionHandle s slot
  let b := leBytes 8 h ++ leBytes 1 d.state ++ leBytes 1 flags
    ++ leBytes 1 (d.grade + 4 * boolNat d.fromProfile) ++ leBytes 1 (d.deadPolicy + 4 * d.vocabIndex)
    ++ leBytes 2 d.client ++ leBytes 2 d.spec ++ leBytes 8 d.committed ++ leBytes 8 d.ledgerPos
    ++ leBytes 8 (if d.state = 5 then d.newHome else 2 * 2 ^ 48 + x.segments.headD 0 * 65536)
    ++ leBytes 8 (3 * 2 ^ 48 + slot * 2 ^ 24) ++ leBytes 4 x.pages.length ++ leBytes 4 tailIdx ++ leBytes 8 d.retired
    ++ leBytes 8 (4 * 2 ^ 48 + slot * 2 ^ 16) ++ leBytes 8 (5 * 2 ^ 48 + slot * 128) ++ leBytes 8 d.genKey ++ leBytes 8 d.wake
    ++ leBytes 8 d.lastBeat ++ leBytes 4 d.epoch ++ leBytes 4 d.journalSeq ++ leBytes 4 d.maxLen
    ++ leBytes 4 (d.peer + 2 ^ 12 * d.copyPasses) ++ leBytes 4 0
  b ++ leBytes 4 (crc32c b)

/-- The counts header (03 R83). -/
def countsHeader (x : Session) : Bytes :=
  leBytes 2 x.counts.entries.length ++ leBytes 2 0 ++ leBytes 4 x.counts.foldedTotal ++ leBytes 4 x.counts.foldedDistinct ++ leBytes 4 0

/-- The counts area (03 R83). -/
def countsBytes (x : Session) : Bytes :=
  countsHeader x ++
    (if x.d.vocab then
      let e := (x.counts.entries.map (fun c => leBytes 4 c.1 ++ leBytes 4 c.2)).flatten
      e ++ List.replicate (32768 - e.length) 0
    else ((List.range 256).map (fun i => leBytes 4 (((x.counts.entries.find? (fun c => c.1 == i)).map (fun c => c.2)).getD 0))).flatten)

/-- The constraint state's 128 bytes (03 R85); automaton numbers are free (log entry 13). DESIGN CHOICE (log entry 92): while CARRY_LEN is below 63 the output bytes stand at the end of CARRY, behind zeros. -/
def constraintBytes (x : Session) : Bytes :=
  let c := x.con
  let num (b : Bytes) : Bytes := leBytes 4 (Config.automatonNumber b).toNat
  leBytes 4 (match c.set with | some i => i | none => if c.absent then 0xFFFFFFFE else 0xFFFFFFFF)
    ++ num c.ban ++ num c.force ++ num c.stop
    ++ leBytes 2 (c.forcePair.getD 0xFFFF) ++ leBytes 2 c.forceOffset ++ leBytes 1 c.carry.length ++ [0]
    ++ leBytes 2 (min c.relaxed 0xFFFF) ++ List.replicate 40 0
    ++ List.replicate (63 - c.carry.length) 0 ++ c.carry ++ [0]

/-- A page-list entry (03 R78). -/
def pageBytes16 (p : Page) : Bytes :=
  leBytes 4 p.no ++ leBytes 1 p.tier
    ++ leBytes 1 (boolNat p.shared + 2 * boolNat p.tail + 4 * boolNat p.spec + 8 * boolNat p.global + 16 * boolNat p.dirty)
    ++ leBytes 1 p.grade ++ leBytes 1 p.fill ++ leBytes 8 p.frame

/-- An entry of a session's own list: DIRTY is set while a tile of its page waits to be resent (01 R22, R23). -/
def listEntry (x : Session) (p : Page) : Bytes := pageBytes16 { p with dirty := x.dirty.any (fun t => t.1 == p.no) }

/-! ### The lead row, rows owed (05 R131, 09 R233) -/

/-- Positions a rebuild replays up to (03 R93). -/
def replayStop (x : Session) : Nat := if x.leadRow then x.d.committed - 1 else x.d.committed

/-- Replay passes remaining of a rebuild (11 R295, 03 R94). -/
def replayPasses (s : State) (x : Session) : Nat :=
  match x.rebuild with
  | none => 0
  | some r => ceilDiv (r.stop - r.next) ((partitionAt s x.d.partition).map (fun q => q.chunk) |>.getD 1)

/-! ### Delivery of output (11 R310) -/

/-- Delivers bytes of a generation at the next offset of OUT: one envelope under a bound tenant, plain otherwise. -/
def deliver (slot : Nat) (b : Bytes) (s : State) : State :=
  if b.isEmpty then s
  else
    let x := sessionAt s slot
    match x.job, commandOf s (.generate slot) with
    | some j, some c =>
      let n := if s.sec.bound then ceilDiv (32 + b.length) 16 * 16 else b.length
      let s := hostOut c.origin (j.outAddr + j.outUsed) 2 b s
      modSession slot (fun x => { x with job := some { j with outUsed := j.outUsed + n, delivered := j.delivered + b.length } }) s
    | _, _ => s

/-! ### Ends of generations, rebuilds, losses -/

/-- Removes pages only speculation took (03 R89, 05 R143). -/
def dropSpec (slot : Nat) (s : State) : State :=
  let x := sessionAt s slot
  let s := framesDue ((x.pages.filter (fun p => p.spec)).map (fun p => p.frame)) s
  modSession slot (fun x => { x with pages := x.pages.filter (fun p => !p.spec) }) s

/-- Rows a session owes, in the order its passes take them (09 R233; 03 R93 while REBUILDING). -/
def owedRows (x : Session) : List Nat :=
  match x.rebuild with
  | some r => (List.range (r.stop - r.next)).map (fun i => r.next + i)
  | none =>
    let l := x.cologne ++ (if x.leadRow then [x.d.committed - 1] else [])
      ++ (List.range (x.d.ledgerPos - x.d.committed)).map (fun i => x.d.committed + i)
    if l.isEmpty ∧ 1 ≤ x.d.committed ∧ x.job.isSome then [x.d.committed - 1] else l

def chunkOf (s : State) (part : Nat) : Nat := match partitionAt s part with | some q => q.chunk | none => 1

/-- Query positions of a piece (09 R223, R235). -/
def pieceOf (s : State) (part : Nat) : Nat := match partitionAt s part with | some q => max 1 (q.chunk / max 1 q.mb) | none => 1

/-- Query positions of the pass of a handle that is in flight; none when none is (09 R228). -/
def inFlight (s : State) (h : Nat) : Option Nat :=
  let ps := ((s.sched.sealPrev ++ s.sched.sealNow).map (fun m => m.places.filter (fun p => p.handle == h && !p.withdrawn))).flatten
  if ps.isEmpty then none else some (ps.foldl (fun n p => n + p.qpos) 0)

/-- A session whose pass in flight has committed, as far as the rows its next pass takes go: what stays owed, else the replay's end or the lead row the pass samples. -/
def afterPass (x : Session) (n : Nat) : Session :=
  match x.rebuild with
  | some r => if r.next + n < r.stop then { x with rebuild := some { r with next := r.next + n } } else { x with rebuild := none }
  | none =>
    if n < (owedRows x).length then
      let c := min n x.cologne.length
      let l := if x.leadRow ∧ c < n then 1 else 0
      { x with cologne := x.cologne.drop n, leadRow := x.leadRow && n == c + l, d := { x.d with committed := x.d.committed + (n - c - l) } }
    else { x with cologne := [], leadRow := true, d := { x.d with committed := x.d.ledgerPos + 1, ledgerPos := x.d.ledgerPos + 1 } }

/-- A session as its next pass will find it. -/
def nextView (s : State) (slot : Nat) : Session :=
  let x := sessionAt s slot
  match inFlight s (sessionHandle s slot) with | none => x | some n => afterPass x n

/-- Rows of the next pass at zero drafts. -/
def passRows (s : State) (x : Session) : List Nat := (owedRows x).take (chunkOf s x.d.partition)

/-- Whether a pass carries neither replay nor prefill, so that it may verify drafts (05 R140, 09 R233). -/
def draftsMay (x : Session) : Bool := x.rebuild.isNone && x.cologne.isEmpty && x.d.ledgerPos == x.d.committed

/-- Pages that the queries of some rows read in all (05 R137), with the session's last page: the first row of each page reads the most. -/
def pagesOfRows (s : State) (part last : Nat) (rows : List Nat) : Nat :=
  let w := windowOf s part
  let gs := globalRanges s part
  let firsts := rows.foldl (fun (l : List Nat) q => match l with
    | [] => [q]
    | p :: rest => if p / 64 = q / 64 then p :: rest else q :: p :: rest) []
  ((firsts.map (pagesRead w gs last)).flatten.eraseDups).length

/-- The last page a session holds in a pass over some rows. -/
def lastPage (x : Session) (rows : List Nat) : Nat := (rows.map (fun r => r / 64)).foldl max ((x.d.committed - 1) / 64)

/-- Cuts rows into pieces. -/
def cutPieces (n : Nat) : Nat → List Nat → List (List Nat)
  | 0, _ => []
  | fuel + 1, rows => if rows.length ≤ n then [rows] else rows.take n :: cutPieces n fuel (rows.drop n)

/-- The candidate entry of a session (12 R341). -/
def candidateOf (s : State) (slot : Nat) (cand : Bool) : Candidate :=
  let x := nextView s slot
  let rows := passRows s x
  let ps := cutPieces (pieceOf s x.d.partition) 16 rows
  let replayOnly := x.rebuild.isSome && x.job.isNone
  { handle := sessionHandle s slot, candidate := cand, replayOnly := replayOnly
    grantMax := if draftsMay x then min x.d.spec x.drafts.length else 0
    client := x.d.client, pieces := ps.length, qpos := rows.length
    order := if replayOnly then x.d.wake else (match x.job with | some j => j.waitStep | none => x.d.wake)
    admitBeat := (match x.job with | some j => j.admitBeat | none => 0)
    admitPhase := (match x.job with | some j => j.admitPhase | none => 0)
    pages := ps.map (fun r => pagesOfRows s x.d.partition (lastPage x rows) r) }

/-- Every home device reports a change of candidacy to position 0 (09 R227). -/
def reportCandidate (slot : Nat) (cand : Bool) (s : State) : State :=
  let x := sessionAt s slot
  let c := candidateOf s slot cand
  let s := { s with sched := { s.sched with candidates :=
    (s.sched.candidates.filter (fun e => e.2.handle != c.handle)) ++ (if cand then [(x.d.partition, c)] else []) } }
  match partitionAt s x.d.partition with
  | none => s
  | some q =>
    if q.position = 0 then s
    else
      match (s.sched.active.bind (fun img => img.rings.find? (fun r => r.partition == x.d.partition))) with
      | none => s
      | some r => send (.candidateOf (r.members.headD 0) x.d.partition (s.sched.step + 1) c) s

/-- Ring peers other than this device of a partition's ring. -/
def ringPeers (s : State) (part : Nat) : List Nat :=
  match s.sched.active with
  | none => []
  | some img => ((img.rings.filter (fun r => r.partition == part)).map (fun r => r.members)).flatten.filter (fun m => m != ownIndex s)

/-- Withdrawal of a session's sealed places (09 R232): its places are empty, and what has begun is discarded at later commit points. -/
def withdraw (h : Nat) (s : State) : State :=
  let mark (m : SealedMb) : SealedMb :=
    { m with places := m.places.map (fun p => { p with withdrawn := p.withdrawn || p.handle == h }) }
  let sealedIn := (s.sched.sealPrev ++ s.sched.sealNow ++ s.sched.sealNext).any (fun m => m.places.any (fun p => p.handle == h && !p.withdrawn))
  let s := { s with sched := { s.sched with sealPrev := s.sched.sealPrev.map mark, sealNow := s.sched.sealNow.map mark, sealNext := s.sched.sealNext.map mark } }
  if sealedIn then (ringPeers s (handlePart h)).foldl (fun s m => send (.session m 2 ⟨h, 0, s.sched.step, s.cad.beat, s.cad.phase⟩) s) s else s

/-- A replay completes (03 R89, R94): the session is RESIDENT, or ACTIVE if a command waits, and owes REBUILT. -/
def replayDone (slot : Nat) (s : State) : State :=
  let x := sessionAt s slot
  let s := setState slot (if x.job.isSome then 2 else 1) s
  let s := modSession slot (fun x => { x with rebuild := none, rebuiltOwed := true }) s
  { s with counters := { s.counters with rebuildsDone := satAdd (2 ^ 64 - 1) s.counters.rebuildsDone 1 } }

/-- A replay with no position to replay, and none to recall, is complete at once (03 R93). -/
def endEmptyReplay (slot : Nat) (s : State) : State :=
  let x := sessionAt s slot
  if x.d.state = 7 ∧ x.rebuild.any (fun r => decide (r.stop ≤ r.next)) ∧ !FMap.any (fun k _ => k == slot) s.tier.set.recalls then
    reportCandidate slot x.job.isSome (replayDone slot s)
  else s

/-- A session whose attention state is lost but whose ledger stands enters REBUILDING (03 R89, R93): its drafts and pages go, its replay begins at position 0. The record's cause has no numbers in the manual (log entry 14). -/
def enterRebuilding (slot : Nat) (s : State) : State :=
  let x := sessionAt s slot
  if x.d.state = 1 ∨ x.d.state = 2 ∨ x.d.state = 3 then
    let h := sessionHandle s slot
    let f := freeValue s
    let cause := f.1
    let s := f.2
    let s := withdraw h s
    let s := framesDue (x.pages.map (fun p => p.frame)) s
    let s := setState slot 7 s
    let s := modSession slot (fun x => { x with
      pages := [], drafts := [], cologne := []
      rebuild := some ⟨0, replayStop x⟩
      d := { x.d with parkPending := false, revivePending := false, copying := false } }) s
    let s := { s with
      tier := { s.tier with ops := s.tier.ops.filter (fun o => o.slot != slot) }
      counters := { s.counters with rebuildsStarted := satAdd (2 ^ 64 - 1) s.counters.rebuildsStarted 1 } }
    let s := report 0x501 (leBytes 8 h ++ leBytes 8 x.d.committed ++ leBytes 4 cause) s
    let s := finish (.park slot) { status := stREBUILDING } s
    let s := finish (.revive slot) { status := stREBUILDING } s
    let s := finish (.capsuleOut slot) { status := stREBUILDING } s
    endEmptyReplay slot (reportCandidate slot true s)
  else s

/-- A session whose attention state, ledger and journal are lost (03 R89). -/
def loseSession (slot : Nat) (s : State) : State :=
  let x := sessionAt s slot
  if x.d.state = 0 ∨ x.d.state = 5 then s
  else
    let h := sessionHandle s slot
    let s := withdraw h s
    let s := framesDue (x.pages.map (fun p => p.frame)) s
    let done := match x.job with | some j => (j.delivered, j.positions) | none => (0, 0)
    let a : Ans := { status := stSTATE_LOST, count0 := done.1, count1 := done.2 }
    let s := finish (.generate slot) a s
    let s := finish (.park slot) { status := stSTATE_LOST } s
    let s := finish (.revive slot) { status := stSTATE_LOST } s
    let s := finish (.capsuleOut slot) { status := stSTATE_LOST } s
    let s := finish (.handover slot) { status := stSTATE_LOST } s
    let s := modSession slot (fun x => { x with pages := [], job := none, rebuild := none, drafts := [] }) (returnScratch slot s)
    let s := setState slot 6 s
    let s := { s with
      tier := { s.tier with ops := s.tier.ops.filter (fun o => o.slot != slot) }
      counters := { s.counters with lost := satAdd (2 ^ 64 - 1) s.counters.lost 1 } }
    report 0x502 (leBytes 8 h ++ leBytes 8 x.d.committed) s

/-- Cancels a session at once (03 R92): the slot is FREE, ring peers are told, frames go at the boundary, CANCELLED is journaled, and every waiting command of the session is answered CANCELLED. Answers the counts. -/
def cancelSession (slot : Nat) (s : State) : (Nat × Nat) × State :=
  let x := sessionAt s slot
  let h := sessionHandle s slot
  let n := match x.job with | some j => (j.delivered, j.positions) | none => (0, 0)
  let a : Ans := { status := stCANCELLED, count0 := n.1, count1 := n.2 }
  let s := withdraw h s
  let s := (ringPeers s x.d.partition).foldl (fun s m => send (.session m 1 ⟨h, 0, s.sched.step, s.cad.beat, s.cad.phase⟩) s) s
  let s := finish (.generate slot) a s
  let s := finish (.park slot) { status := stCANCELLED } s
  let s := finish (.revive slot) { status := stCANCELLED } s
  let s := finish (.capsuleOut slot) { status := stCANCELLED } s
  let s := finish (.capsuleIn slot) { status := stCANCELLED } s
  let s := finish (.handover slot) { status := stCANCELLED } s
  let s := finish (.tokenize slot) { status := stCANCELLED } s
  let s := match x.handover with
    | some ho =>
      if ho.source then send (.hoAbort ho.peer h ho.newHandle stCANCELLED) s
      else send (.hoAbort ho.peer ho.oldHandle h stCANCELLED) s
    | none => s
  let s := queueMark h 9 x.d.ledgerPos s
  let s := framesDue (x.pages.map (fun p => p.frame)) s
  let s := { s with sched := { s.sched with candidates := s.sched.candidates.filter (fun e => e.2.handle != h) } }
  (n, freeSlot slot (returnScratch slot s))

/-- A CLOSING session's frees (03 R89). -/
def freeClosing (slot : Nat) (s : State) : State :=
  let x := sessionAt s slot
  let s := (x.pages.map (fun p => p.frame)).foldl (fun s a => dropFrame a s) s
  freeSlot slot s

/-- Counts of JOURNAL_LAG sessions, for TIER_STATUS (04 R128). -/
def anyLag (s : State) : Bool := anySession (fun x => x.d.journalLag) s

end Sys2Proof.Machine
end

