-- ==== Sys2Proof/Machine/Delays.lean ====
section
/-! DEFINITION. Calibrated delays of the links (02 R52 to R56; 12 R317; 18 R462, R464). -/

namespace Sys2Proof.Machine

def linkAt (s : State) (l : Nat) : Link := FMap.getD s.links.port l {}

/-- Factory and user values of an item; a user value of 0 is not stored (18 R463). -/
def calFactory (s : State) (item : Nat) : Int := FMap.getD s.cal.factory item 0
def calUser (s : State) (item : Nat) : Int := FMap.getD s.cal.user item 0

/-- The user value in force: a cable trim changes at a step boundary (02 R54). -/
def calInForce (s : State) (item : Nat) : Int := FMap.getD s.cal.pendingTrims item (calUser s item)

def itemTx (l : Nat) : Nat := 0x100 + l
def itemRx (l : Nat) : Nat := 0x200 + l
def itemTrim (l : Nat) : Nat := 0x10100 + l

def landingPs : Int := 8000

/-- Effective one-way delay from this device over a link, with the landing time (02 R52). -/
def delayOut (s : State) (l : Nat) : Int := calFactory s (itemTx l) + calInForce s (itemTrim l) + (linkAt s l).peerRx + landingPs

/-- Effective one-way delay to this device over a link. -/
def delayIn (s : State) (l : Nat) : Int := (linkAt s l).peerTx + (linkAt s l).peerTrim + calFactory s (itemRx l) + landingPs

/-- Serialisation of a frame in picoseconds: 100 GB/s on four lanes, 50 GB/s on two (12 R317). -/
def serialPs (half : Bool) (len : Nat) : Int := ((if half then 20 else 10) * max len 64 : Nat)

/-- A delay in phase units of a period code, rounded up. -/
def phaseUnitsAt (period : Nat) (ps : Int) : Nat := ceilDiv (ps.toNat * 4096) (10 ^ 6 * 2 ^ period)

def phaseUnits (s : State) (ps : Int) : Nat := phaseUnitsAt s.cad.period ps

/-- The budget of a transfer in phase units: forward delay with serialisation, one retry, the guard (02 R56). -/
def budgetUnits (s : State) (l : Nat) (receiving : Bool) (len : Nat) : Nat :=
  let ser := serialPs ((linkAt s l).st == .half) len
  let fwd := (if receiving then delayIn s l else delayOut s l) + ser
  let back := (if receiving then delayOut s l else delayIn s l) - landingPs
  phaseUnits s fwd + phaseUnits s (back + fwd) + 0x20

/-- The largest budget an image's MAX_DELAY declares for a link, in phase units (08 R501). -/
def declaredBudget (period maxDelay : Nat) : Nat :=
  let fwd : Int := (maxDelay : Int) + serialPs false 4096
  phaseUnitsAt period fwd + phaseUnitsAt period ((maxDelay : Int) + fwd) + 0x20

end Sys2Proof.Machine
end

