-- ==== Sys2Proof/Machine/Tick.lean ====
section
/-! DEFINITION. What a beat does when no command waits (log entry 2): the beat count advances, the meters refill (11 R296), pending meter settings take effect (11 R305), and vectors may be raised again (11 R287, 19 R482). -/

namespace Sys2Proof.Machine

/-- Both buckets refilled for some beats (11 R296). -/
def refill (n : Nat) (m : Meter) : Meter := { m with tc := min m.cbs (m.tc + n * m.cir), tp := min m.pbs (m.tp + n * m.pir) }

/-- A meter item of CLI settings: 0 CIR, 1 PIR, 2 CBS, 3 PBS (11 R305). -/
def setMeter (m : Meter) (item v : Nat) : Meter :=
  let m' := match item with
    | 0 => { m with cir := v }
    | 1 => { m with pir := v }
    | 2 => { m with cbs := v }
    | _ => { m with pbs := v }
  let full := m.pir = 0 ∧ m'.pir ≠ 0
  if full then { m' with tc := m'.cbs, tp := m'.pbs } else { m' with tc := min m'.tc m'.cbs, tp := min m'.tp m'.pbs }

/-- Applies a client's pending meter settings in order: items 0 to 3 the command meter, 4 to 7 the byte meter, 8 COLOUR_AWARE. A meter turned on with its sizes set in the same beat starts full at those sizes. -/
def applyMeters (c : Client) : Client :=
  let step (c : Client) (x : Nat × Nat) : Client :=
    if x.1 < 4 then { c with cmd := setMeter c.cmd x.1 x.2 }
    else if x.1 < 8 then { c with byt := setMeter c.byt (x.1 - 4) x.2 }
    else { c with aware := x.2 == 1 }
  let c' := c.pendingMeters.foldl step c
  let fill (was now : Meter) : Meter := if was.pir = 0 ∧ now.pir ≠ 0 then { now with tc := now.cbs, tp := now.pbs } else now
  { c' with cmd := fill c.cmd c'.cmd, byt := fill c.byt c'.byt, pendingMeters := [] }

/-- A client over some beats: a pending meter setting takes effect at the first of them. -/
def clientBeats (n : Nat) (c : Client) : Client :=
  if n = 0 then c
  else
    let d := applyMeters { c with cmd := refill 1 c.cmd, byt := refill 1 c.byt }
    { d with cmd := refill (n - 1) d.cmd, byt := refill (n - 1) d.byt }

/-- The beat-phase trim in force slews towards its value by at most one phase unit every 8 beats (02 R54). -/
def slewPhase (n : Nat) (s : State) : Calibration :=
  match FMap.get? s.cal.pendingTrims 0x10300 with
  | none => s.cal
  | some v =>
    let most : Int := max 1 (beatPs s / phasesPerBeat) * ((s.cad.beat + n) / 8 - s.cad.beat / 8 : Nat)
    let goal := FMap.getD s.cal.user 0x10300 0
    if goal - v ≤ most ∧ v - goal ≤ most then { s.cal with pendingTrims := FMap.del s.cal.pendingTrims 0x10300 }
    else { s.cal with pendingTrims := FMap.put s.cal.pendingTrims 0x10300 (if v < goal then v + most else v - most) }

/-! ### The cadence over some beats -/

/-- Cycles of the arithmetic clock in a beat, by operating profile and period code (02 R36): 1.05 GHz, 0.85 GHz for EFFICIENCY (2), 0.95 GHz for ENDURANCE (3). -/
def cyclesPerBeat (profile period : Nat) : Nat := (if profile = 2 then 850 else if profile = 3 then 950 else 1050) * 2 ^ period

/-- The cycle at which an event of a phase starts, and the phase a cycle shows (02 R38). -/
def phaseCycle (cycles p : Nat) : Nat := ceilDiv (p * cycles) phasesPerBeat
def cyclePhase (cycles c : Nat) : Nat := c * phasesPerBeat / cycles

/-- The holdover limit in beats of a period code: 10 s (02 R36, R48). -/
def holdLimitBeats (period : Nat) : Nat := 10000000 / 2 ^ period

/-- Members of every ring of the device. -/
def allMembers (s : State) : List Nat :=
  match s.sched.active with | some img => (img.rings.map (fun r => r.members)).flatten | none => []

/-- The mark of the lowest index among some marks. -/
def lowestMark (l : List PeerMark) : Option PeerMark :=
  l.foldl (fun best m => match best with | some b => if m.peer < b.peer then some m else best | none => some m) none

/-- The discipline source of a device in HOLDOVER (02 R47): the lowest-indexed LOCKED ring peer, else the lowest-indexed one in HOLDOVER below its own index. A peer stands while its link is up and its last mark is within the 64 beats of 16 R433. -/
def disciplineSource (s : State) : Option PeerMark :=
  let live := s.cad.lastMarks.filter (fun m => (allMembers s).contains m.peer
    && ((linkAt s m.link).st == .up || (linkAt s m.link).st == .half) && decide (s.cad.beat ≤ m.beat + 64))
  match lowestMark (live.filter (fun m => m.locked)) with
  | some m => some m
  | none => lowestMark (live.filter (fun m => decide (m.peer < ownIndex s)))

/-- PEER_DISC and DISC_LINK follow the source while the device is in HOLDOVER. -/
def takeSource (s : State) : State :=
  if s.cad.st = .holdover then
    let d := disciplineSource s
    { s with cad := { s.cad with peerDisc := d.isSome, discLink := match d with | some m => m.link | none => s.cad.discLink } }
  else s

/-- An offset brought towards 0 by at most some units. -/
def slewed (n : Nat) (left : Int) : Int := if left.natAbs ≤ n then 0 else if left < 0 then left + n else left - n

/-- The cadence block after some beats: beats of HOLDOVER are counted and the offset left by it is slewed by one unit every 8 beats (02 R45); a master drives a mark at phase 0 of each of its beats (R50). -/
def cadBeats (n : Nat) (c : Cadence) : Cadence :=
  { c with
    beat := (c.beat + n) % 2 ^ 63
    phase := if n = 0 then c.phase else 0
    holdBeats := if c.st = .holdover then c.holdBeats + n else c.holdBeats
    slew := slewed ((c.beat + n) / 8 - c.beat / 8) c.slew
    markOut := if c.st = .master ∧ n ≠ 0 then some ((c.beat + n) % 2 ^ 63) else c.markOut }

/-- Some beats pass: the cadence moves on and the meters refill. -/
def passBeats (n : Nat) (s : State) : State :=
  takeSource { s with
    cad := cadBeats n s.cad
    clients := FMap.mapVals (fun _ c => clientBeats n c) s.clients
    cal := slewPhase n s }

/-- One beat with nothing commanded. -/
def tick (s : State) : State := passBeats 1 s

end Sys2Proof.Machine
end

