-- ==== Sys2Proof/Machine/Cadence.lean ====
section
/-! DEFINITION. The cadence rows (02 R36 to R62): beat marks, beat numbers, lock states, holdover, departure, master modes. -/

namespace Sys2Proof.Machine

def cadCode : CadState → Nat
  | .unlocked => 0 | .acquiring => 1 | .locked => 2 | .holdover => 3 | .leaving => 4 | .master => 5

/-- The device belongs to a ring of the active image. -/
def inRing (s : State) : Bool := match s.sched.active with | some img => !img.rings.isEmpty | none => false

def ringIds (s : State) : List Nat := match s.sched.active with | some img => img.rings.map (fun r => r.ringId) | none => []

/-- Enters a cadence state; the local count restarts on entry to UNLOCKED and ACQUIRING (02 R39), which begins a new recorder window (17 R441); each change writes CAD_STATE. -/
def enterCad (st : CadState) (s : State) : State :=
  if s.cad.st = st then s
  else
    let old := s.cad.st
    let fresh := st = .unlocked ∨ st = .acquiring
    let c := { s.cad with
      st := st, goodMarks := 0, badMarks := 0, mismatchRun := 0, loadAt := none
      lastNum := if st = .acquiring then none else s.cad.lastNum
      beat := if fresh then 0 else s.cad.beat
      phase := if fresh then 0 else s.cad.phase
      peerDisc := if st = .holdover then s.cad.peerDisc else false
      slew := 0
      markBeat := if fresh then none else s.cad.markBeat
      markOut := if st = .master then s.cad.markOut else none
      holdBeats := if st = .holdover then 0 else s.cad.holdBeats }
    let s := { s with cad := c, evr := { s.evr with window := if fresh then 2 ^ 64 else s.evr.window } }
    report 0x100 (leBytes 1 (cadCode old) ++ leBytes 1 (cadCode st) ++ leBytes 2 0 ++ leBytes 4 (flagWord s offCadEvents)) s

/-- The first step boundary at least one full step after now (02 R49). -/
def departureBoundary (img : Image) (s : State) : Nat :=
  let k := (s.cad.beat + img.stepBeats - img.anchor + img.stepBeats - 1) / img.stepBeats
  img.anchor + k * img.stepBeats

/-- Announces departure from every ring (02 R49): from here on nothing new is sealed; what is sealed for the next step runs before the boundary. -/
def announceDeparture (s : State) : State :=
  match s.sched.active with
  | none => s
  | some img =>
    let b := departureBoundary img s
    let s := { s with cad := { s.cad with departAt := some b } }
    if s.cad.departAt.isSome ∧ inRing s then send (.departure b (ringIds s)) s else s

/-- Goes to ACQUIRING with marks present, else to UNLOCKED. -/
def reacquire (s : State) : State := enterCad (if s.cad.marks then .acquiring else .unlocked) s

/-- Enters LEAVING and departs; a device of no ring passes through at once (02 R49). -/
def leaveCad (s : State) : State :=
  let s := enterCad .leaving s
  if inRing s then announceDeparture s else reacquire s

/-- CAD.PERIOD (02 R37). -/
def changePeriod (code : Nat) (s : State) : State :=
  if code = s.cad.period then s
  else
    let s := { s with cad := { s.cad with period := code } }
    if s.cad.st = .master then s
    else if s.cad.st = .unlocked then
      { s with cad := { s.cad with beat := 0, phase := 0, goodMarks := 0 }, evr := { s.evr with window := 2 ^ 64 } }
    else enterCad .unlocked s

/-- CAD.MODE (02 R50). DESIGN CHOICE (log entry 83): a master made follower enters UNLOCKED at once with its count at 0; a change between modes 1 and 2 of a MASTER keeps the running count, since it became master before. -/
def changeMode (mode : Nat) (s : State) : State :=
  if mode = s.cad.mode then s
  else
    let was := s.cad.st
    let s := { s with cad := { s.cad with mode := mode, xrefLost := false } }
    if mode = 0 then enterCad .unlocked s
    else if was = .master then s
    else
      let s := enterCad .master s
      { s with cad := { s.cad with beat := s.cad.beatInit, phase := 0, markOut := some s.cad.beatInit } }

def execCadPeriodChange (code : Nat) (s : State) : Host.Outcome State Fault Refusal :=
  .next (if inRing s ∨ 4 < code then s else changePeriod code s)

def execCadModeChange (mode : Nat) (s : State) : Host.Outcome State Fault Refusal :=
  .next (if inRing s ∨ 2 < mode then s else changeMode mode s)

/-- A signed delay in phase units, rounded up (02 R52). -/
def signedUnits (s : State) (ps : Int) : Int := -((-(ps * 4096)) / ((beatPs s : Nat) : Int))

/-- The effective reference offset in phase units (02 R40): CAD_REF's factory input delay plus the beat-phase trim in force. -/
def refOffset (s : State) : Int := signedUnits s (calFactory s 0x300 + calInForce s 0x10300)

/-- The phase error of a mark: `err` is where it arrived against the device's own phase 0x000, and the beat's phase 0x000 stands at its arrival plus the effective offset. -/
def markErr (err : Int) (s : State) : Int := err + refOffset s

/-- A mark begins a beat (02 R39, R40): the next one when the last mark began the current beat or more than half of it has passed, else the current one. Phase 0x000 stands there. -/
def markBegins (s : State) : State :=
  let s := if s.cad.markBeat = some s.cad.beat ∨ 0x800 ≤ s.cad.phase then passBeats 1 s else s
  { s with cad := { s.cad with phase := 0, markBeat := some s.cad.beat } }

/-- A mark is sound: its spacing is right, and in LOCKED it lies within ±0x010 of the predicted phase, an offset still to be slewed not counted (02 R45). -/
def soundMark (spacingOk : Bool) (err : Int) (c : Cadence) : Bool :=
  spacingOk && (c.st != .locked || decide ((err - c.slew).natAbs ≤ 0x010))

/-- A beat mark in each lock state (02 R45); `err` is its phase error with the reference offset applied. -/
def markTaken (sound : Bool) (err : Int) (s : State) : State :=
  let c := { s.cad with marks := true, phaseErr := err }
  let s := { s with cad := c }
  match c.st with
  | .unlocked =>
    if !sound then { s with cad := { c with goodMarks := 0 } }
    else if c.goodMarks + 1 < 8 then { s with cad := { c with goodMarks := c.goodMarks + 1 } }
    else enterCad .acquiring s
  | .acquiring =>
    let good := if err.natAbs ≤ 0x004 then c.goodMarks + 1 else 0
    let s := { s with cad := { c with goodMarks := good } }
    match c.loadAt with
    | some (n, at_) =>
      if 64 ≤ good ∧ at_ ≤ c.beat then
        let late := c.beat - at_
        let s := enterCad .locked s
        { s with cad := { s.cad with beat := n + late, markBeat := some (n + late) } }
      else s
    | none => s
  | .locked =>
    if sound then { s with cad := { c with badMarks := 0 } }
    else if c.badMarks + 1 < 2 then { s with cad := { c with badMarks := c.badMarks + 1 } }
    else takeSource (enterCad .holdover (setFlag offCadEvents 0 s))
  | .holdover =>
    if err.natAbs ≤ 0x080 then { s with cad := { c with goodMarks := c.goodMarks + 1 } }
    else setFlag offCadEvents 5 { s with cad := { c with goodMarks := 0 } }
  | .leaving => s
  | .master => s

/-- A beat mark: a follower begins its beat there, but for an unsound mark of a LOCKED device and for the marks of HOLDOVER and LEAVING, which it does not follow; a master takes none (02 R50). -/
def beatMark (spacingOk : Bool) (arrival : Int) (s : State) : State :=
  let err := markErr arrival s
  let sound := soundMark spacingOk err s.cad
  match s.cad.st with
  | .master => s
  | .unlocked | .acquiring => markTaken sound err (markBegins s)
  | .locked => markTaken sound err (if sound then markBegins s else s)
  | .holdover | .leaving => markTaken sound err s

def execBeatMark (spacingOk : Bool) (phaseErr : Int) (s : State) : Host.Outcome State Fault Refusal :=
  .next (beatMark spacingOk phaseErr s)

/-- Sync byte and CRC of a beat-number message (02 R42). -/
def numSound (b : Bytes) : Bool :=
  b.length == 16 && fieldAt b 0 1 == 0xC5 && fieldAt b 14 2 == crc16 (b.take 14)

/-- The N a LOCKED device expects a message to announce now. -/
def expectedNum (s : State) : Nat := (s.cad.beat / 1024 + 1) * 1024

/-- A beat-number message (02 R41, R44, R45, R51). -/
def beatNumber (source : Nat) (b : Bytes) (s : State) : State :=
  if s.cad.st = .master then (if numSound b then setFlag offCadEvents 9 s else s)
  else if source ≠ s.cad.numSource then s
  else
    let n := fieldAt b 4 8
    if !numSound b || fieldAt b 1 1 != s.cad.period || n % 1024 != 0 then s
    else
      let agreed := n = expectedNum s
      let s := { s with cad := { s.cad with masterIndex := fieldAt b 12 2 % 4096 } }
      match s.cad.st with
      | .acquiring =>
        let pair := s.cad.lastNum = some (n - 1024) ∧ 1024 ≤ n
        { s with cad := { s.cad with lastNum := some n, loadAt := if pair then some (n, s.cad.beat + 512) else none } }
      | .locked =>
        if agreed then { s with cad := { s.cad with mismatchRun := 0, lastNum := some n } }
        else
          let s := setFlag offCadEvents 2 { s with cad := { s.cad with mismatchCnt := satAdd 0xFFFFFFFF s.cad.mismatchCnt 1, lastNum := some n } }
          if s.cad.mismatchRun = 0 then { s with cad := { s.cad with mismatchRun := 1 } }
          else leaveCad (setFlag offCadEvents 3 s)
      | .holdover =>
        if !s.cad.marks then s
        else if !agreed then setFlag offCadEvents 5 { s with cad := { s.cad with goodMarks := 0 } }
        else if 64 ≤ s.cad.goodMarks then
          let left := s.cad.phaseErr
          let s := enterCad .locked s
          { s with cad := { s.cad with slew := left } }
        else s
      | _ => { s with cad := { s.cad with lastNum := some n } }

def execBeatNumber (source : Nat) (bytes : Bytes) (s : State) : Host.Outcome State Fault Refusal :=
  .next (beatNumber source bytes s)

/-- Two frames without an accepted message (02 R44). -/
def execNumLost (s : State) : Host.Outcome State Fault Refusal :=
  .next (if s.cad.st = .master then s else setFlag offCadEvents 6 s)

/-- Two marks missing or off phase (02 R45). -/
def execMarksAbsent (s : State) : Host.Outcome State Fault Refusal :=
  let s := { s with cad := { s.cad with marks := false, goodMarks := 0 } }
  .next (if s.cad.st = .locked then takeSource (enterCad .holdover (setFlag offCadEvents 0 s)) else s)

/-- No lock within 4,096 local beats (02 R45): the count restarted on entry to ACQUIRING. -/
def execAcqFail (s : State) : Host.Outcome State Fault Refusal :=
  .next (if s.cad.st = .acquiring ∧ 4096 ≤ s.cad.beat then enterCad .unlocked (setFlag offCadEvents 1 s) else s)

/-- The holdover limit of 10 s in beats, or a discipline source that cannot be held within 0x010 units (02 R45, R48). -/
def execHoldLimit (s : State) : Host.Outcome State Fault Refusal :=
  .next (if s.cad.st = .holdover ∧ (holdLimitBeats s.cad.period ≤ s.cad.holdBeats ∨ (s.cad.peerDisc ∧ 0x010 < s.cad.phaseErr.natAbs)) then leaveCad (setFlag offCadEvents 4 s) else s)

/-- The 16 bytes of a beat-number message (02 R42); a master's index is its own. DESIGN CHOICE (log entry 84): a mode 2 master keeps source code 1 while it runs on the module oscillator after XREF_LOST. -/
def numBytes (s : State) : Bytes :=
  let src := if s.cad.st = .master then (if s.cad.mode = 2 then 1 else 0) else if s.cad.st = .holdover then 3 else 2
  let b := leBytes 1 0xC5 ++ leBytes 1 s.cad.period ++ leBytes 1 src ++ leBytes 1 0 ++ leBytes 8 (expectedNum s)
    ++ leBytes 2 (if s.cad.st = .master then ownIndex s else s.cad.masterIndex)
  b ++ leBytes 2 (crc16 b)

/-- Links that are up. -/
def upLinks (s : State) : List Nat :=
  (s.links.port.filter (fun e => e.2.st == .up || e.2.st == .half)).map (fun e => e.1)

/-- The instants at which a beat-number message is due (02 R43): during beat N − 512 of a LOCKED or MASTER device, once for each N. -/
def numDue (s : State) : Bool :=
  (s.cad.st == .locked || s.cad.st == .master) && s.cad.beat % 1024 == 512 && s.cad.numSent != some (expectedNum s)

/-- The message leaves in a CTRL frame on every up link, and a master's on CAD_SOUT too (02 R43, R50). -/
def execBeatNumberSend (s : State) : Host.Outcome State Fault Refusal :=
  .next (if numDue s then
    let b := numBytes s
    let serial := if s.cad.st = .master then send (.beatSerial b) s else s
    let sent := (upLinks s).foldl (fun s l => send (.beatNumber l b) s) serial
    { sent with cad := { sent.cad with numSent := some (expectedNum s) } }
  else s)

/-- Cadence marks are due in LOCKED and HOLDOVER once every 16 beats (02 R47). -/
def marksDue (s : State) : Bool :=
  (s.cad.st == .locked || s.cad.st == .holdover) && s.cad.markSent.all (fun b => decide (b + 16 ≤ s.cad.beat ∨ s.cad.beat < b))

/-- They leave on every up link. -/
def execCadenceMarkSend (s : State) : Host.Outcome State Fault Refusal :=
  .next (if marksDue s then
    let sent := (upLinks s).foldl (fun s l => send (.cadenceMark l s.cad.beat s.cad.phase) s) s
    { sent with cad := { sent.cad with markSent := some s.cad.beat } }
  else s)

/-- The instant moved by some phase units. -/
def moveInstant (err : Int) (s : State) : State :=
  let at_ := ((nowPhase s : Int) + err).toNat
  { s with cad := { s.cad with beat := at_ / phasesPerBeat, phase := at_ % phasesPerBeat } }

/-- A cadence mark (02 R47): remembered for its peer, whose state the frame does not carry (a free value, log entry 18). From the discipline source of a device in HOLDOVER it shows the phase error, and the device follows it where that is within ±0x010. -/
def execCadenceMark (link beat phase : Nat) (s : State) : Host.Outcome State Fault Refusal :=
  let p := linkAt s link
  let f := freeValue s
  let m : PeerMark := ⟨p.peer, link, s.cad.beat, f.1 % 2 == 1⟩
  let s := takeSource { f.2 with cad := { s.cad with lastMarks := (s.cad.lastMarks.filter (fun x => x.peer != p.peer)) ++ [m] } }
  .next (if s.cad.st = .holdover ∧ disciplineSource s = some m then
      let err : Int := ((beat * phasesPerBeat + phase + phaseUnits s (delayIn s link) : Nat) : Int) - (nowPhase s : Int)
      let s := { s with cad := { s.cad with phaseErr := err } }
      if err.natAbs ≤ 0x010 then moveInstant err s else s
    else s)

/-- CAD_XREF lost by a master in mode 2 (02 R51). -/
def execXrefLost (s : State) : Host.Outcome State Fault Refusal :=
  .next (if s.cad.st = .master ∧ s.cad.mode = 2 then { s with cad := { s.cad with xrefLost := true } } else s)

/-- CAD_XREF back for 1,024 cycles (02 R51). -/
def execXrefReturn (s : State) : Host.Outcome State Fault Refusal :=
  .next (if s.cad.st = .master ∧ s.cad.mode = 2 then { s with cad := { s.cad with xrefLost := false } } else s)

end Sys2Proof.Machine
end

