-- ==== Sys2Proof/Machine/Rails.lean ====
section
/-! DEFINITION. Rail requests over AVSBus (14 R383 to R386): rails 0 to 3 are core rails, 4 to 7 HBM rails. -/

namespace Sys2Proof.Machine

/-- Core-rail target of a profile in millivolts (14 R383). -/
def profileMv (p : Nat) : Nat := if p = 2 then 660 else if p = 3 then 700 else 750

def railAt (s : State) (r : Nat) : Rail := FMap.getD s.sup.rails r {}

def putRail (r : Nat) (x : Rail) (s : State) : State := { s with sup := { s.sup with rails := FMap.put s.sup.rails r x } }

/-- Requests a rail target. -/
def requestRail (r mV : Nat) (s : State) : State :=
  let x := railAt s r
  putRail r { x with target := mV, previous := x.target, pending := true, tries := 1 } s

/-- Requests the core rails whose target rises. -/
def raiseRails (mV : Nat) (s : State) : State :=
  (List.range 4).foldl (fun s r => if (railAt s r).target < mV then requestRail r mV s else s) s

/-- Requests the core rails whose target falls. -/
def lowerRails (mV : Nat) (s : State) : State :=
  (List.range 4).foldl (fun s r => if mV < (railAt s r).target then requestRail r mV s else s) s

/-- Some request waits for its acknowledgement. -/
def railsPending (s : State) : Bool := FMap.any (fun _ x => x.pending) s.sup.rails

/-- The rails of Dormant: core rails at 600 mV, HBM rails at their lowest target, 700 mV (14 R385, R391). -/
def dormantRails (s : State) : State :=
  (List.range 4).foldl (fun s r => requestRail (4 + r) 700 s) ((List.range 4).foldl (fun s r => requestRail r 600 s) s)

/-- The rails back at the profile's targets when Dormant is left: the HBM rails at the target they had before it. -/
def wakeRails (s : State) : State :=
  (List.range 4).foldl (fun s r => requestRail (4 + r) (railAt s (4 + r)).previous s) (raiseRails (profileMv s.sup.profile) s)

end Sys2Proof.Machine
end

