-- ==== Sys2Proof/Machine/Constraints.lean ====
section
/-! DEFINITION. The Byte and Constraint Unit (10 R253 to R269): tokenizing, automata as matched suffixes, constraint sets, held bytes. -/

namespace Sys2Proof.Machine

/-! ### Vocabularies -/

/-- Unit store bytes of a vocabulary (10 R253). -/
def vocabBytes (es : List VocabEntry) : Nat :=
  es.foldl (fun n e => n + 32 + ceilDiv e.len 8 * 8) 0

/-- Bytes of the Unit store in use (10 R253, R261), without the vocabulary of one index. -/
def unitUsed (s : State) (but : Option Nat) : Nat :=
  s.cont.vocabs.foldl (fun n v => if but = some v.1 then n else n + vocabBytes v.2.entries) 0
    + s.cont.sets.foldl (fun n c => n + c.2.bytes) 0

def unitStore : Nat := 32 * 2 ^ 20

/-- Bytes of an element (10 R258). -/
def elemBytesOf (vocab : Option Vocabulary) (e : Nat) : Bytes :=
  match vocab with
  | none => [BitVec.ofNat 8 e]
  | some v => match v.entries.find? (fun x => x.token == e) with | some x => x.bytes.take x.len | none => []

/-- Whether entry a is preferred to b where both match: longer, then lower RANK, then lower token (10 R257). -/
def preferred (a b : VocabEntry) : Bool :=
  decide (b.len < a.len) || (a.len == b.len && (decide (a.rank < b.rank) || (a.rank == b.rank && decide (a.token < b.token))))

/-- The entry taken at the start of a run (10 R257). -/
def longestMatch (es : List VocabEntry) (run : Bytes) : Option VocabEntry :=
  es.foldl (fun best e =>
    if e.special || e.len == 0 || !((e.bytes.take e.len).isPrefixOf run) then best
    else match best with
      | none => some e
      | some b => if preferred e b then some e else some b) none

/-- Tokenizes a run (10 R257); a byte no entry matches ends it, which check 5 of R255 rules out. -/
def tokenizeAux (es : List VocabEntry) : Nat → Bytes → List Nat
  | 0, _ => []
  | _, [] => []
  | fuel + 1, run =>
    match longestMatch es run with
    | none => []
    | some e => e.token :: tokenizeAux es fuel (run.drop e.len)

def tokenize (es : List VocabEntry) (run : Bytes) : List Nat := tokenizeAux es run.length run

def vocabOf (s : State) (x : Session) : Option Vocabulary :=
  if x.d.vocab then FMap.get? s.cont.vocabs x.d.vocabIndex else none

/-! ### Automata (10 R261) -/

/-- The longest suffix that is the beginning of some string. -/
def longestSuffix (strs : List Bytes) : Bytes → Bytes
  | [] => []
  | b :: rest => if strs.any (fun t => (b :: rest).isPrefixOf t) then b :: rest else longestSuffix strs rest

/-- An automaton's next state on a byte. -/
def feed (strs : List Bytes) (st : Bytes) (b : Byte) : Bytes := longestSuffix strs (st ++ [b])

def feedAll (strs : List Bytes) (st : Bytes) (bs : Bytes) : Bytes := bs.foldl (feed strs) st

/-- Strings complete in a state. -/
def complete (strs : List Bytes) (st : Bytes) : List Bytes := strs.filter (fun t => t.length != 0 && t.isSuffixOf st)

/-- Whether feeding bytes from a state reaches a complete string at any byte (10 R264). -/
def reaches (strs : List Bytes) : Bytes → Bytes → Bool
  | _, [] => false
  | st, b :: rest =>
    let st' := feed strs st b
    !(complete strs st').isEmpty || reaches strs st' rest

/-- The stop string that ends first in an element's bytes, the longest of those, with how many of the element's bytes follow its end (10 R267). -/
def firstStop (strs : List Bytes) : Bytes → Bytes → Option (Bytes × Nat)
  | _, [] => none
  | st, b :: rest =>
    let st' := feed strs st b
    match (complete strs st').foldl (fun (best : Option Bytes) t => match best with
        | none => some t
        | some u => if u.length < t.length then some t else some u) none with
    | some t => some (t, rest.length)
    | none => firstStop strs st' rest

/-- Bytes held back: the longest suffix of the stream that is a proper beginning of a stop string (10 R266). -/
def heldSuffix (strs : List Bytes) (stream : Bytes) : Bytes := longestSuffix (strs.map (fun t => t.dropLast)) stream

/-- The set a session's constraint state names. -/
def setOf (s : State) (x : Session) : Option Compiled := x.con.set.bind (fun i => FMap.get? s.cont.sets i)

def bansOf (c : Option Compiled) : List Bytes := match c with | some c => c.source.bans | none => []
def triggersOf (c : Option Compiled) : List Bytes := match c with | some c => c.source.pairs.map (fun p => p.1) | none => []
def stopsOf (c : Option Compiled) : List Bytes := match c with | some c => c.source.stops | none => []

/-- CARRY after more bytes: the last 63 of the stream (10 R259). -/
def pushCarry (carry bs : Bytes) : Bytes :=
  let l := carry ++ bs
  l.drop (l.length - 63)

/-- The constraint state after an element's bytes are committed. -/
def feedCon (c : Option Compiled) (k : ConState) (bs : Bytes) : ConState :=
  { k with
    ban := feedAll (bansOf c) k.ban bs
    force := feedAll (triggersOf c) k.force bs
    stop := feedAll (stopsOf c) k.stop bs
    carry := pushCarry k.carry bs }

/-- SESSION_APPEND starts a new stream (10 R259). -/
def resetStream (k : ConState) : ConState :=
  { k with ban := [], force := [], stop := [], carry := [], forcePair := none, forceOffset := 0 }

/-- The lowest-numbered trigger that ends at the last byte of the stream (10 R265). -/
def firedTrigger (c : Option Compiled) (force : Bytes) : Option Nat :=
  (triggersOf c).findIdx? (fun t => t.length != 0 && t.isSuffixOf force)

/-- A set takes effect: the automata run over CARRY from their start states (10 R262). -/
def seedCon (c : Option Compiled) (set : Option Nat) (k : ConState) : ConState :=
  { k with
    set := set, absent := false
    ban := feedAll (bansOf c) [] k.carry
    force := feedAll (triggersOf c) [] k.carry
    stop := feedAll (stopsOf c) [] k.carry
    forcePair := none, forceOffset := 0 }

/-! ### Constraint sets (10 R260, R261) -/

/-- Entries of a set: `n` strings from an offset, each with a bound on LEN; answers the strings and the next offset, or the offset at fault. -/
def readStrings (b : Bytes) (limits : List Nat) (off : Nat) : Except Nat (List Bytes × Nat) :=
  match limits with
  | [] => .ok ([], off)
  | m :: rest =>
    let len := fieldAt b off 2
    if b.length < off + 4 ∨ len = 0 ∨ m < len ∨ fieldAt b (off + 2) 2 ≠ 0 ∨ b.length < off + 4 + len then .error off
    else
      let padded := ceilDiv len 4 * 4
      if !zeroSpan b (off + 4 + len) (padded - len) then .error off
      else
        match readStrings b rest (off + 4 + padded) with
        | .error e => .error e
        | .ok (l, o) => .ok (((b.drop (off + 4)).take len) :: l, o)

/-- Pairs up a list. -/
def pairUp : List Bytes → List (Bytes × Bytes)
  | a :: b :: rest => (a, b) :: pairUp rest
  | _ => []

/-- A constraint set from its bytes: none for CLEAR, or the set; the error is the offset within the set (10 R260). -/
def readSet (b : Bytes) : Except Nat (Option ConSet) :=
  let bans := fieldAt b 0 2
  let pairs := fieldAt b 2 2
  let stops := fieldAt b 4 1
  let flags := fieldAt b 5 1
  if bitsOf flags 1 7 ≠ 0 then .error 5
  else if !zeroSpan b 6 10 then .error 6
  else if bitOf flags 0 then .ok none
  else if 256 < bans then .error 0
  else if 64 < pairs then .error 2
  else if 8 < stops then .error 4
  else
    let limits := List.replicate bans 64 ++ ((List.replicate pairs [64, 512]).flatten) ++ List.replicate stops 64
    match readStrings b limits 16 with
    | .error e => .error e
    | .ok (l, o) =>
      match firstNonzero b o (b.length - o) with
      | some z => .error z
      | none => .ok (some ⟨l.take bans, pairUp ((l.drop bans).take (2 * pairs)), l.drop (bans + 2 * pairs)⟩)

/-- The greatest space a compiled set takes (10 R261). -/
def setBound (c : ConSet) (vocab : Option Vocabulary) : Nat :=
  let n := (c.bans.map List.length).foldl (· + ·) 0 + (c.pairs.map (fun p => p.1.length)).foldl (· + ·) 0
    + (c.stops.map List.length).foldl (· + ·) 0
  let conts := (c.pairs.map (fun p => match vocab with | none => p.2.length | some v => 4 * (tokenize v.entries p.2).length)).foldl (· + ·) 0
  48 * n + 1024 + conts

/-- The space a compiled set takes: at most its bound; the manual does not fix it (log entry 13). -/
def setSpace (idx : Nat) (c : ConSet) (vocab : Option Vocabulary) : Nat :=
  min (Config.setBytes idx (setBound c vocab)) (setBound c vocab)

/-- Finds a set with an identical body for the same mode (10 R261). -/
def sameSet (s : State) (c : ConSet) (vi : Option Nat) : Option Nat :=
  (s.cont.sets.find? (fun e => decide (e.2.source = c ∧ e.2.vocab = vi))).map (fun e => e.1)

/-- Compiles a set or shares an identical one, counting the new holder; none when it does not fit. -/
def compileSet (c : ConSet) (x : Session) (s : State) : Option (Nat × State) :=
  let vi := if x.d.vocab then some x.d.vocabIndex else none
  match sameSet s c vi with
  | some i => some (i, holdSet (some i) s)
  | none =>
    let v := vocabOf s x
    let n := setSpace s.cont.nextSet c v
    if unitStore < unitUsed s none + n then none
    else
      let conts := c.pairs.map (fun p => match v with | none => p.2.map (fun b => b.toNat) | some v => tokenize v.entries p.2)
      let i := s.cont.nextSet
      some (i, { s with cont := { s.cont with sets := FMap.put s.cont.sets i ⟨c, vi, conts, n, 1⟩, nextSet := i + 1 } })

/-! ### Counts (03 R83, R84) -/

/-- Counts one committed element; a vocabulary session's 4,097th distinct token folds the least recent entry. -/
def countElem (vocab : Bool) (c : Counts) (e : Nat) : Counts :=
  let n := ((c.entries.find? (fun p => p.1 == e)).map (fun p => p.2)).getD 0
  let es := (e, n + 1) :: c.entries.filter (fun p => p.1 != e)
  if vocab ∧ 4096 < es.length then
    match es.getLast? with
    | none => { c with entries := es }
    | some l => { entries := es.dropLast, foldedTotal := c.foldedTotal + l.2, foldedDistinct := c.foldedDistinct + 1 }
  else { c with entries := es }

def countOf (c : Counts) (e : Nat) : Nat := ((c.entries.find? (fun p => p.1 == e)).map (fun p => p.2)).getD 0

end Sys2Proof.Machine
end

