-- ==== Sys2Proof/Machine/Float.lean ====
section
/-! DEFINITION. FP32 on the vector lanes (06 R162): operands as exact dyadic numbers, one rounding to nearest even with subnormals; and the correctly rounded functions of 07 R183 by fixed-point arithmetic of 192 fraction bits. -/

namespace Sys2Proof.Machine

/-- A decoded element: NaN, an infinity, or the finite number (-1)^neg * mant * 2^exp. -/
inductive FP where
  | nan
  | inf (neg : Bool)
  | fin (neg : Bool) (mant : Nat) (exp : Int)
  deriving DecidableEq, Repr

/-- Bit length of a number. -/
def bitLen (n : Nat) : Nat := if n = 0 then 0 else Nat.log2 n + 1

/-- m * 2^e rounded to nearest even with `prec` significant bits and least exponent `emin`: quotient and its exponent. `sticky` says that a nonzero part lies below m. -/
def roundTo (prec : Nat) (emin : Int) (m : Nat) (e : Int) (sticky : Bool) : Nat × Int :=
  let m2 := 4 * m + boolNat sticky
  let e2 := e - 2
  let target := max (e2 + bitLen m2 - prec) emin
  if target ≤ e2 then (m2 * 2 ^ (e2 - target).toNat, target)
  else
    let sh := (target - e2).toNat
    let q := m2 / 2 ^ sh
    let r := m2 % 2 ^ sh
    let half := 2 ^ (sh - 1)
    (if half < r ∨ (r = half ∧ q % 2 = 1) then q + 1 else q, target)

/-- FP32 words. -/
def f32NaN : Nat := 0x7FC00000
def f32Inf (neg : Bool) : Nat := 0x7F800000 + boolNat neg * 2 ^ 31
def f32Zero (neg : Bool) : Nat := boolNat neg * 2 ^ 31
def f32One : Nat := 0x3F800000

/-- The FP32 word of (-1)^neg * m * 2^e, rounded to nearest even; overflow gives an infinity. -/
def packF32 (neg : Bool) (m : Nat) (e : Int) (sticky : Bool) : Nat :=
  if m = 0 ∧ !sticky then f32Zero neg
  else
    let q := roundTo 24 (-149) m e sticky
    let b := (q.2 + 149).toNat * 2 ^ 23 + q.1
    if 0x7F800000 ≤ b then f32Inf neg else b + boolNat neg * 2 ^ 31

/-- Decodes FP32. -/
def unpackF32 (w : Nat) : FP :=
  let neg := bitOf w 31
  let ex := bitsOf w 23 8
  let fr := bitsOf w 0 23
  if ex = 255 then (if fr = 0 then .inf neg else .nan)
  else if ex = 0 then .fin neg fr (-149)
  else .fin neg (2 ^ 23 + fr) ((ex : Int) - 150)

/-- A signed integer of a sign and magnitude. -/
def toInt (neg : Bool) (m : Nat) : Int := if neg then -(m : Int) else (m : Int)

/-- Rounds a dyadic integer times 2^e; an exact zero takes the sign given. -/
def packInt (v e : Int) (zeroNeg : Bool) : Nat :=
  if v = 0 then f32Zero zeroNeg else packF32 (decide (v < 0)) v.natAbs e false

/-- Exact sum of two finite numbers at the smaller exponent. -/
def alignSum (n1 : Bool) (m1 : Nat) (e1 : Int) (n2 : Bool) (m2 : Nat) (e2 : Int) : Int × Int :=
  let e := min e1 e2
  (toInt n1 (m1 * 2 ^ (e1 - e).toNat) + toInt n2 (m2 * 2 ^ (e2 - e).toNat), e)

/-- Fused a * b + c with one rounding. -/
def f32Fma (a b c : Nat) : Nat :=
  match unpackF32 a, unpackF32 b, unpackF32 c with
  | .nan, _, _ => f32NaN
  | _, .nan, _ => f32NaN
  | _, _, .nan => f32NaN
  | .inf na, .inf nb, .inf nc => if (na != nb) = nc then f32Inf nc else f32NaN
  | .inf na, .inf nb, .fin _ _ _ => f32Inf (na != nb)
  | .inf na, .fin nb mb _, .inf nc => if mb = 0 then f32NaN else if (na != nb) = nc then f32Inf nc else f32NaN
  | .inf na, .fin nb mb _, .fin _ _ _ => if mb = 0 then f32NaN else f32Inf (na != nb)
  | .fin na ma _, .inf nb, .inf nc => if ma = 0 then f32NaN else if (na != nb) = nc then f32Inf nc else f32NaN
  | .fin na ma _, .inf nb, .fin _ _ _ => if ma = 0 then f32NaN else f32Inf (na != nb)
  | .fin _ _ _, .fin _ _ _, .inf nc => f32Inf nc
  | .fin na ma ea, .fin nb mb eb, .fin nc mc ec =>
    let np := na != nb
    let z := alignSum np (ma * mb) (ea + eb) nc mc ec
    packInt z.1 z.2 (if ma * mb = 0 ∧ mc = 0 then np && nc else false)

def f32Add (a b : Nat) : Nat :=
  match unpackF32 a, unpackF32 b with
  | .nan, _ => f32NaN
  | _, .nan => f32NaN
  | .inf x, .inf y => if x = y then f32Inf x else f32NaN
  | .inf x, .fin _ _ _ => f32Inf x
  | .fin _ _ _, .inf y => f32Inf y
  | .fin x m e, .fin y n f =>
    let z := alignSum x m e y n f
    packInt z.1 z.2 (if m = 0 ∧ n = 0 then x && y else false)

def f32Neg (a : Nat) : Nat := if bitOf a 31 then a - 2 ^ 31 else a + 2 ^ 31

def f32Sub (a b : Nat) : Nat := f32Add a (f32Neg b)

def f32Mul (a b : Nat) : Nat :=
  match unpackF32 a, unpackF32 b with
  | .nan, _ => f32NaN
  | _, .nan => f32NaN
  | .inf x, .inf y => f32Inf (x != y)
  | .inf x, .fin y n _ => if n = 0 then f32NaN else f32Inf (x != y)
  | .fin x m _, .inf y => if m = 0 then f32NaN else f32Inf (x != y)
  | .fin x m e, .fin y n f => if m * n = 0 then f32Zero (x != y) else packF32 (x != y) (m * n) (e + f) false

def f32Div (a b : Nat) : Nat :=
  match unpackF32 a, unpackF32 b with
  | .nan, _ => f32NaN
  | _, .nan => f32NaN
  | .inf _, .inf _ => f32NaN
  | .inf x, .fin y _ _ => f32Inf (x != y)
  | .fin x _ _, .inf y => f32Zero (x != y)
  | .fin x m e, .fin y n f =>
    if n = 0 then (if m = 0 then f32NaN else f32Inf (x != y))
    else if m = 0 then f32Zero (x != y)
    else packF32 (x != y) (m * 2 ^ 64 / n) (e - f - 64) (m * 2 ^ 64 % n != 0)

/-- Square root of a number by bisection on `fuel` bits: the largest r with r * r at most n. -/
def isqrtAux (n : Nat) : Nat → Nat → Nat
  | 0, r => r
  | fuel + 1, r => if (r + 2 ^ fuel) * (r + 2 ^ fuel) ≤ n then isqrtAux n fuel (r + 2 ^ fuel) else isqrtAux n fuel r

def isqrt (n : Nat) : Nat := isqrtAux n (bitLen n / 2 + 1) 0

def f32Sqrt (a : Nat) : Nat :=
  match unpackF32 a with
  | .nan => f32NaN
  | .inf neg => if neg then f32NaN else f32Inf false
  | .fin neg m e =>
    if m = 0 then f32Zero neg
    else if neg then f32NaN
    else
      let odd := e % 2 != 0
      let m1 := (if odd then 2 * m else m) * 2 ^ 64
      let e1 := if odd then e - 1 else e
      let r := isqrt m1
      packF32 false r ((e1 - 64) / 2) (r * r != m1)

/-- 1 / sqrt a, correctly rounded (07 R183). -/
def f32Rsqrt (a : Nat) : Nat :=
  match unpackF32 a with
  | .nan => f32NaN
  | .inf neg => if neg then f32NaN else f32Zero false
  | .fin neg m e =>
    if m = 0 then f32Inf neg
    else if neg then f32NaN
    else
      let odd := e % 2 != 0
      let m1 := if odd then 2 * m else m
      let e1 := if odd then e - 1 else e
      let n := 2 ^ 160
      let r := isqrt (n / m1)
      packF32 false r (-(80 + e1 / 2)) (r * r * m1 != n)

/-- Order key of a finite or infinite FP32 word: -0 and +0 compare equal as values. -/
def f32Le (a b : Nat) : Bool :=
  match unpackF32 a, unpackF32 b with
  | .nan, _ => false
  | _, .nan => false
  | .inf x, .inf y => x || !y
  | .inf x, .fin _ _ _ => x
  | .fin _ _ _, .inf y => !y
  | .fin x m e, .fin y n f => decide ((alignSum x m e (!y) n f).1 ≤ 0)

def f32Lt (a b : Nat) : Bool := f32Le a b && !f32Le b a

/-- IEEE 754-2019 minimum and maximum: NaN propagates and -0 is below +0. -/
def f32Min (a b : Nat) : Nat :=
  if unpackF32 a = .nan ∨ unpackF32 b = .nan then f32NaN
  else if f32Lt a b then a else if f32Lt b a then b else if bitOf a 31 then a else b

def f32Max (a b : Nat) : Nat :=
  if unpackF32 a = .nan ∨ unpackF32 b = .nan then f32NaN
  else if f32Lt a b then b else if f32Lt b a then a else if bitOf a 31 then b else a

/-- A whole number in FP32. -/
def f32OfNat (n : Nat) : Nat := packF32 false n 0 false

/-! ### Functions of 07 R183 -/

/-- Fraction bits of the fixed-point work, ln 2 and 2 pi at that scale. -/
def fixBits : Nat := 192
def fixLn2 : Int := 0xb17217f7d1cf79abc9e3b39803f2f6af40f343267298b62d
def fixTwoPi : Int := 0x6487ed5110b4611a62633145c06e0e68948127044533e63a0

/-- m * 2^e as a fixed-point number, floored. -/
def toFix (v : Int) (e : Int) : Int :=
  if 0 ≤ e + fixBits then v * (2 : Int) ^ (e + fixBits).toNat else v / (2 : Int) ^ (-(e + fixBits)).toNat

/-- Sum of r^i / i! from a term onward. -/
def expSeries (r : Int) : Nat → Nat → Int → Int
  | 0, _, _ => 0
  | fuel + 1, i, t => t + expSeries r fuel (i + 1) (t * r / (2 : Int) ^ fixBits / ((i : Int) + 1))

/-- e^a, correctly rounded. -/
def f32Exp (a : Nat) : Nat :=
  match unpackF32 a with
  | .nan => f32NaN
  | .inf neg => if neg then f32Zero false else f32Inf false
  | .fin neg m e =>
    if m = 0 then f32One
    else if f32Le 0x42D00000 (if neg then a - 2 ^ 31 else a) then (if neg then f32Zero false else f32Inf false)
    else
      let x := toFix (toInt neg m) e
      let k := (2 * x + fixLn2) / (2 * fixLn2)
      let r := x - k * fixLn2
      let y := expSeries r 48 0 ((2 : Int) ^ fixBits)
      packF32 false y.toNat (k - fixBits) true

/-- 2 * sum of z^(2i+1) / (2i+1). -/
def atanhSeries (z2 : Int) : Nat → Nat → Int → Int
  | 0, _, _ => 0
  | fuel + 1, i, t => t / (2 * (i : Int) + 1) + atanhSeries z2 fuel (i + 1) (t * z2 / (2 : Int) ^ fixBits)

/-- ln a, correctly rounded: ln 0 is -Inf, ln of a negative is NaN. -/
def f32Log (a : Nat) : Nat :=
  match unpackF32 a with
  | .nan => f32NaN
  | .inf neg => if neg then f32NaN else f32Inf false
  | .fin neg m e =>
    if m = 0 then f32Inf true
    else if neg then f32NaN
    else if a = f32One then f32Zero false
    else
      let b := bitLen m
      let k := e + b
      let f := toFix m (-(b : Int))
      let one := (2 : Int) ^ fixBits
      let big := 2 * f * 10 < one * 14
      let f := if big then 2 * f else f
      let k := if big then k - 1 else k
      let z := (f - one) * one / (f + one)
      let y := 2 * atanhSeries (z * z / one) 90 0 z + k * fixLn2
      packF32 (decide (y < 0)) y.natAbs (-(fixBits : Int)) true

/-- Cosine series (start 1) or sine series (start x) of a fixed-point angle. -/
def trigSeries (x2 : Int) : Nat → Nat → Int → Int
  | 0, _, _ => 0
  | fuel + 1, i, t => t + trigSeries x2 fuel (i + 2) (-(t * x2 / (2 : Int) ^ fixBits / (((i : Int) + 1) * ((i : Int) + 2))))

/-- Cosine and sine of 2 pi u / 2^32, correctly rounded (05 R138, 07 R181 TURN). -/
def turnCosSin (u : Nat) : Nat × Nat :=
  let quarter : Nat := u / 2 ^ 30 % 4
  let rest : Nat := u % 2 ^ 30
  let x := fixTwoPi * (rest : Int) / (2 : Int) ^ 32
  let x2 := x * x / (2 : Int) ^ fixBits
  let c := if rest = 0 then f32One else let y := trigSeries x2 60 0 ((2 : Int) ^ fixBits); packF32 false y.toNat (-(fixBits : Int)) true
  let s := if rest = 0 then 0 else let y := trigSeries x2 60 1 x; packF32 false y.toNat (-(fixBits : Int)) true
  match quarter with
  | 0 => (c, s)
  | 1 => (if rest = 0 then 0 else f32Neg s, c)
  | 2 => (f32Neg c, if rest = 0 then 0 else f32Neg s)
  | _ => (s, f32Neg c)

/-- t / (1 + e^-a) as VSILU: a / u with u = 1 + VEXP(-a). -/
def f32Silu (a : Nat) : Nat := f32Div a (f32Add f32One (f32Exp (f32Neg a)))

/-! ### Row operations in the order of 07 R182 -/

/-- Adds row elements i = j (mod 16) to lane j in ascending i. -/
def laneSums (op : Nat → Nat → Nat) : List Nat → Nat → List Nat → List Nat
  | [], _, lanes => lanes
  | x :: rest, i, lanes => laneSums op rest (i + 1) (lanes.set (i % 16) (op (lanes.getD (i % 16) 0) x))

/-- Adds adjacent pairs. -/
def pairSums : List Nat → List Nat
  | a :: b :: rest => f32Add a b :: pairSums rest
  | l => l

def laneTree (lanes : List Nat) : Nat := (pairSums (pairSums (pairSums (pairSums lanes)))).headD 0

def rsum (row : List Nat) : Nat := laneTree (laneSums f32Add row 0 (List.replicate 16 0))
def rsumsq (row : List Nat) : Nat := laneTree (laneSums (fun s x => f32Fma x x s) row 0 (List.replicate 16 0))
def rmax (row : List Nat) : Nat := match row with | [] => f32Inf true | x :: rest => rest.foldl f32Max x

end Sys2Proof.Machine
end

