-- ==== Sys2Proof/Machine/Arith.lean ====
section
/-! DEFINITION. Element formats, the exact accumulator, output conversion, compact accumulators and the configured operations (06 R150 to R170, 07 R181). -/

namespace Sys2Proof.Machine

/-! ### Element formats (06 R150) -/

/-- Decodes a small float of `eb` exponent bits and `mb` mantissa bits with no specials. -/
def decodeSmall (eb mb : Nat) (bias : Int) (code : Nat) : FP :=
  let neg := bitOf code (eb + mb)
  let e := bitsOf code mb eb
  let m := bitsOf code 0 mb
  if e = 0 then .fin neg m (1 - bias - mb) else .fin neg (2 ^ mb + m) ((e : Int) - bias - mb)

/-- Decodes an element of a format code of 08 R503. -/
def decodeElem (fmt code : Nat) : FP :=
  match fmt with
  | 0 => if bitsOf code 0 7 = 0x7F then .nan else decodeSmall 4 3 7 code
  | 1 => if bitsOf code 2 5 = 31 then (if bitsOf code 0 2 = 0 then .inf (bitOf code 7) else .nan) else decodeSmall 5 2 15 code
  | 2 => decodeSmall 3 2 3 code
  | 3 => decodeSmall 2 3 1 code
  | 4 => decodeSmall 2 1 1 code
  | 5 => let v := signedOf 8 code; .fin (decide (v < 0)) v.natAbs 0
  | 6 => unpackF32 (code % 2 ^ 16 * 2 ^ 16)
  | _ => unpackF32 (code % 2 ^ 32)

/-- v of 06 R150: every finite element is below 2^v. -/
def formatV (fmt : Nat) : Int :=
  match fmt with | 0 => 9 | 1 => 16 | 2 => 5 | 3 => 3 | 4 => 3 | _ => 8

/-- Least normal exponent of the formats term-aligned pairs use. -/
def minNormal (fmt : Nat) : Int := match fmt with | 0 => -6 | 1 => -14 | _ => -126

/-- Unbiased exponent of a finite nonzero element; subnormals take the least normal exponent (06 R154). -/
def unbiased (fmt m : Nat) (e : Int) : Int := max (minNormal fmt) (e + bitLen m - 1)

/-- The permitted operand pairs (06 R152). -/
def blockAligned (a b : Nat) : Bool := (decide (a ≤ 4) && decide (b ≤ 4)) || (a == 5 && b == 5)
def termAligned (a b : Nat) : Bool := (a == 6 && b == 6) || (a == 7 && (b == 0 || b == 1 || b == 6))
def pairAllowed (a b : Nat) : Bool := blockAligned a b || termAligned a b

/-! ### The accumulator (06 R153 to R158, R169) -/

/-- An accumulator: window, alignment, flags, spread, and the residue that its residue unit carries. -/
structure Acc where
  w : Int := 0
  lambda : Int := 0
  nan : Bool := false
  pinf : Bool := false
  ninf : Bool := false
  lost : Bool := false
  spread : Nat := 0
  residue : Nat := 0
  deriving DecidableEq, Repr

/-- A signed contribution enters a residue modulo 127. -/
def residueAdd (r : Nat) (neg : Bool) (t : Nat) : Nat := if neg then (r + (127 - t % 127)) % 127 else (r + t) % 127

/-- A term (-1)^neg * ma * mb * 2^e enters W, truncated toward zero at 2^lambda (06 R156); the residue unit adds the term's residue, or that of its truncated value (06 R169). -/
def addTerm (a : Acc) (neg : Bool) (ma mb : Nat) (e : Int) : Acc :=
  if a.lambda ≤ e then
    let k := (e - a.lambda).toNat
    { a with w := a.w + toInt neg (ma * mb * 2 ^ k), residue := residueAdd a.residue neg (ma * mb % 127 * 2 ^ (k % 7)) }
  else
    let sh := (a.lambda - e).toNat
    { a with w := a.w + toInt neg (ma * mb / 2 ^ sh), lost := a.lost || ma * mb % 2 ^ sh != 0
             residue := residueAdd a.residue neg (ma * mb / 2 ^ sh) }

/-- Adds one product of two elements at block exponent E (06 R158). DESIGN CHOICE (log entry 97): two infinite elements set PINF or NINF by the sign of the product; the rule's table has no row for them. -/
def addProduct (a : Acc) (blockNaN : Bool) (eb : Int) (x y : FP) : Acc :=
  if blockNaN then { a with nan := true }
  else
    match x, y with
    | .nan, _ => { a with nan := true }
    | _, .nan => { a with nan := true }
    | .inf p, .inf q => if p = q then { a with pinf := true } else { a with ninf := true }
    | .inf p, .fin q n _ => if n = 0 then { a with nan := true } else if p = q then { a with pinf := true } else { a with ninf := true }
    | .fin p m _, .inf q => if m = 0 then { a with nan := true } else if p = q then { a with pinf := true } else { a with ninf := true }
    | .fin p m e, .fin q n f => if m * n = 0 then a else addTerm a (p != q) m n (e + f + eb)

/-- Largest and smallest of a list of exponents. -/
def maxInt : List Int → Option Int
  | [] => none
  | x :: rest => some (rest.foldl max x)
def minInt : List Int → Option Int
  | [] => none
  | x :: rest => some (rest.foldl min x)

/-- The scale code of an element: one for each block of 32 along the reduction dimension, 127 in a tensor stored without scales (06 R151). -/
def scaleAt (scales : List Nat) (i : Nat) : Nat := scales.getD (i / 32) 127

/-- E_b of the block of an element, and whether a scale of it is NaN. -/
def blockExponent (j : DotJob) (i : Nat) : Int := ((scaleAt j.scalesA i : Int) - 127) + ((scaleAt j.scalesB i : Int) - 127)
def blockIsNaN (j : DotJob) (i : Nat) : Bool := scaleAt j.scalesA i == 0xFF || scaleAt j.scalesB i == 0xFF

/-- The element pairs of a dot product with their index. -/
def dotTerms (j : DotJob) : List ((Nat × Nat) × Nat) := (List.zip j.as j.bs).zipIdx

/-- Exponents that fix E_max: of blocks without a NaN scale, or of terms that are finite and nonzero (06 R154). -/
def dotExponents (j : DotJob) : List Int :=
  if blockAligned j.fmtA j.fmtB then
    ((List.range (ceilDiv (dotTerms j).length 32)).filter (fun b => !blockIsNaN j (32 * b))).map (fun b => blockExponent j (32 * b))
  else
    (dotTerms j).filterMap (fun t =>
      match decodeElem j.fmtA t.1.1, decodeElem j.fmtB t.1.2 with
      | .fin _ m e, .fin _ n f => if m * n = 0 then none else some (unbiased j.fmtA m e + unbiased j.fmtB n f)
      | _, _ => none)

/-- The local E_max; DESIGN CHOICE (log entry 95): 0 where no block or term counts, for which the rule gives no value. -/
def localMax (j : DotJob) : Int := (maxInt (dotExponents j)).getD 0

/-- E_max of a dot product: the maximum of what every participant of a split reduction found (06 R164). -/
def alignedMax (j : DotJob) : Int := if j.split then (maxInt (dotExponents j ++ j.maxima)).getD 0 else localMax j

/-- The alignment of a dot product (06 R154). -/
def lambdaOf (j : DotJob) : Int :=
  (if blockAligned j.fmtA j.fmtB then alignedMax j + formatV j.fmtA + formatV j.fmtB else alignedMax j + 2) - 128

/-- The terms of a dot product summed at an alignment (06 R154 to R158); a fault of the datapath changes the window, not the residue. -/
def sumAt (lambda emax : Int) (j : DotJob) : Acc :=
  let init : Acc := { lambda := lambda, spread := (emax - (minInt (dotExponents j)).getD emax).toNat }
  let aligned := blockAligned j.fmtA j.fmtB
  let a := (dotTerms j).foldl (fun a t =>
    addProduct a (aligned && blockIsNaN j t.2) (if aligned then blockExponent j t.2 else 0) (decodeElem j.fmtA t.1.1) (decodeElem j.fmtB t.1.2)) init
  { a with w := a.w + j.upset }

/-- The accumulator of a dot product's own terms. -/
def accumulate (j : DotJob) : Acc := sumAt (lambdaOf j) (alignedMax j) j

/-! ### Compact accumulators and residues (06 R165, R166, R169) -/

/-- Residue modulo 127 of an integer. -/
def residueOf (w : Int) : Nat := (w % 127).toNat

/-- Residue of the three 64-bit words of a window (06 R169). -/
def residueWords (w0 w1 w2 : Nat) : Nat := (((w0 : Int) + 2 * (w1 : Int) + 4 * signedOf 64 w2) % 127).toNat

def compactBytes (a : Acc) : Bytes :=
  leBytes 24 (signedField 192 a.w) ++ leBytes 4 (signedField 32 a.lambda)
    ++ leBytes 1 (boolNat a.nan + 2 * boolNat a.pinf + 4 * boolNat a.ninf + 8 * boolNat a.lost)
    ++ leBytes 1 (residueOf a.w) ++ [0, 0]

/-- Whether a received compact accumulator passes its checks against the alignment the receiver derived (06 R166). -/
def compactOk (lambda : Int) (c : CompactAcc) : Bool :=
  signedOf 32 (fieldAt c.bytes 24 4) == lambda
    && residueWords (fieldAt c.bytes 0 8) (fieldAt c.bytes 8 8) (fieldAt c.bytes 16 8) == fieldAt c.bytes 29 1
    && bitsOf (fieldAt c.bytes 28 1) 4 4 == 0 && zeroSpan c.bytes 30 2

/-- Adds a received window, its flags and its residue (06 R164). -/
def joinCompact (a : Acc) (c : CompactAcc) : Acc :=
  let f := fieldAt c.bytes 28 1
  { a with
    w := a.w + signedOf 192 (fieldAt c.bytes 0 24)
    residue := (a.residue + fieldAt c.bytes 29 1) % 127
    nan := a.nan || bitOf f 0
    pinf := a.pinf || bitOf f 1
    ninf := a.ninf || bitOf f 2
    lost := a.lost || bitOf f 3 }

/-- The accumulator of a dot product with what it received. -/
def fullSum (j : DotJob) : Acc := j.received.foldl joinCompact (accumulate j)

/-- The residue of W disagrees with the residue carried (06 R170). -/
def residueBad (a : Acc) : Bool := residueOf a.w != a.residue

/-! ### Output conversion (06 R160, R161) -/

/-- An output element: its code, and whether it saturated or became NaN. -/
structure OutElem where
  code : Nat
  sat : Bool := false
  nan : Bool := false
  deriving DecidableEq, Repr

/-- Width in bytes of an output format. -/
def outBytes (fmt : Nat) : Nat := match fmt with | 6 => 2 | 7 => 4 | 8 => 32 | _ => 1

/-- Exponent and mantissa widths, least exponent, largest finite code, infinity code and NaN code of a float output. -/
structure OutFormat where
  mant : Nat
  emin : Int
  maxCode : Nat
  infCode : Option Nat
  nanCode : Nat
  sign : Nat

def outFormat (fmt : Nat) : OutFormat :=
  match fmt with
  | 0 => ⟨3, -9, 0x7E, none, 0x7F, 7⟩
  | 1 => ⟨2, -16, 0x7B, some 0x7C, 0x7E, 7⟩
  | 6 => ⟨7, -133, 0x7F7F, some 0x7F80, 0x7FC0, 15⟩
  | _ => ⟨23, -149, 0x7F7FFFFF, some 0x7F800000, 0x7FC00000, 31⟩

/-- Converts an exact value to a float format with SAT or NONSAT. -/
def convertFinite (f : OutFormat) (sat neg : Bool) (m : Nat) (e : Int) : OutElem :=
  let sg := boolNat neg * 2 ^ f.sign
  if m = 0 then { code := 0 }
  else
    let q := roundTo (f.mant + 1) f.emin m e false
    let code := (q.2 - f.emin).toNat * 2 ^ f.mant + q.1
    if code ≤ f.maxCode then { code := code + sg }
    else if sat then { code := f.maxCode + sg, sat := true }
    else match f.infCode with
      | some c => { code := c + sg }
      | none => { code := f.nanCode, nan := true }

/-- Converts an infinity to a float format. -/
def convertInf (f : OutFormat) (sat neg : Bool) : OutElem :=
  let sg := boolNat neg * 2 ^ f.sign
  match f.infCode with
  | some c => { code := c + sg }
  | none => if sat then { code := f.maxCode + sg, sat := true } else { code := f.nanCode, nan := true }

/-- Converts an accumulator to INT8: the nearest integer, saturated (06 R160). DESIGN CHOICE (log entry 14): a NaN has no INT8 code in the spec; its code is a free value of the accumulator, and it counts as NaN. -/
def convertInt8 (a : Acc) : OutElem :=
  if a.nan || (a.pinf && a.ninf) then { code := Config.freeOf [5, a.w.natAbs, a.lambda.toNat, (-a.lambda).toNat] % 256, nan := true }
  else if a.pinf then { code := 0x7F, sat := true }
  else if a.ninf then { code := 0x80, sat := true }
  else
    let q := roundTo 400 0 a.w.natAbs a.lambda false
    let v := toInt (decide (a.w < 0)) (q.1 * 2 ^ q.2.toNat)
    if v < -128 then { code := 0x80, sat := true }
    else if 127 < v then { code := 0x7F, sat := true }
    else { code := signedField 8 v }

/-- Converts an accumulator to its output format (06 R160, R161). -/
def convert (fmt : Nat) (sat : Bool) (a : Acc) : OutElem :=
  if fmt = 5 then convertInt8 a
  else
    let f := outFormat fmt
    if a.nan || (a.pinf && a.ninf) then { code := f.nanCode, nan := true }
    else if a.pinf || a.ninf then convertInf f sat a.ninf
    else convertFinite f sat (decide (a.w < 0)) a.w.natAbs a.lambda

/-! ### Configured operations on FP32 rows (07 R181) -/

/-- emax of the MX element formats (07 R181 QMX). -/
def mxEmax (fmt : Nat) : Int := match fmt with | 0 => 8 | 1 => 15 | 2 => 4 | 3 => 2 | _ => 2

/-- Encodes a magnitude in a small float, rounded to nearest even and saturated. -/
def encodeSmall (fmt : Nat) (neg : Bool) (m : Nat) (e : Int) : Nat :=
  let p : Nat × Int × Nat × Nat := match fmt with
    | 0 => (3, -9, 0x7E, 7) | 1 => (2, -16, 0x7B, 7) | 2 => (2, -4, 0x1F, 5) | 3 => (3, -3, 0x1F, 5) | _ => (1, -1, 0x7, 3)
  let q := roundTo (p.1 + 1) p.2.1 m e false
  let code := if m = 0 then 0 else (q.2 - p.2.1).toNat * 2 ^ p.1 + q.1
  min code p.2.2.1 + boolNat neg * 2 ^ p.2.2.2

/-- floor(log2 m * 2^e) of a nonzero magnitude. -/
def floorLog2 (m : Nat) (e : Int) : Int := e + bitLen m - 1

/-- The scale code of a QMX block: 127 where every element is zero, 254 where one is infinite (log entry 98). -/
def qmxCode (fmt : Nat) (fs : List FP) : Nat :=
  if fs.any (fun f => match f with | .inf _ => true | _ => false) then 254
  else match maxInt (fs.filterMap (fun f => match f with | .fin _ m e => if m = 0 then none else some (floorLog2 m e) | _ => none)) with
    | none => 127
    | some l => (max 0 (min 254 (l - mxEmax fmt + 127))).toNat

/-- QMX of 32 elements: scale code, then element codes at the scale the code names (log entry 98). A NaN element gives code 0xFF; the manual states no element codes then (log entry 14). -/
def qmx (fmt : Nat) (xs : List Nat) : List Nat :=
  let fs := xs.map unpackF32
  if fs.any (fun f => f = .nan) then 0xFF :: xs.map (fun x => Config.freeOf [fmt, x] % 256)
  else
    let code := qmxCode fmt fs
    code :: fs.map (fun f => match f with
      | .fin neg m e => encodeSmall fmt neg m (e - ((code : Int) - 127))
      | .inf neg => encodeSmall fmt neg 1 1000
      | .nan => 0)

/-- DQMX: each element becomes q * 2^s in FP32. -/
def dqmx (fmt scale : Nat) (xs : List Nat) : List Nat :=
  xs.map (fun c =>
    if scale = 0xFF then f32NaN
    else match decodeElem fmt c with
      | .nan => f32NaN
      | .inf neg => f32Inf neg
      | .fin neg m e => packF32 neg m (e + (scale : Int) - 127) false)

/-- An element as numbers, for a value that depends on it and is not stated. -/
def fpWords : FP → List Nat
  | .nan => [0]
  | .inf neg => [1, boolNat neg]
  | .fin neg m e => [2, boolNat neg, m, e.toNat, (-e).toNat]

/-- Scale code and element codes of a tile half at a lossy grade (04 R103). DESIGN CHOICE (log entry 87): the scale of a half with a NaN or infinite element, a scale below E8M0's codes, and the code of a NaN or infinite element are not stated, and each is a free value of the half. -/
def gradeHalf (fmt : Nat) (xs : List FP) : Nat × List Nat :=
  let logs := xs.filterMap (fun f => match f with | .fin _ m e => if m = 0 then none else some (floorLog2 m e) | _ => none)
  let words := fmt :: (xs.map fpWords).flatten
  let odd := xs.any (fun f => match f with | .fin _ _ _ => false | _ => true)
  let code := match maxInt logs with
    | none => if odd then Config.freeOf words % 256 else 127
    | some l => if odd ∨ l - mxEmax fmt + 127 < 0 then Config.freeOf words % 256 else (l - mxEmax fmt + 127).toNat
  (code, (xs.zipIdx).map (fun e => match e.1 with
    | .fin neg m x => encodeSmall fmt neg m (x - ((code : Int) - 127))
    | _ => Config.freeOf (e.2 :: words) % 64))

/-- FP32 to BF16, E4M3 or E5M2 (07 R181 CVT; 06 R161, R162): BF16 overflows to an infinity. -/
def cvt (fmt : Nat) (sat : Bool) (x : Nat) : OutElem :=
  let f := outFormat fmt
  match unpackF32 x with
  | .nan => { code := f.nanCode, nan := true }
  | .inf neg => convertInf f sat neg
  | .fin neg m e => if m = 0 then { code := boolNat neg * 2 ^ f.sign } else convertFinite f (sat && fmt != 6) neg m e

/-- The elements that CVT makes: to a narrow format, or from one (its constant with 0x100), where a NaN counts too (06 R162). -/
def cvtAll (j : OpJob) : List OutElem :=
  if j.const < 0x100 then j.xs.map (cvt j.const j.sat)
  else (dqmx (j.const % 256) 127 j.xs).map (fun w => { code := w, nan := w == f32NaN })

/-- The results of a configured operation: FP32 words, or the codes of a narrow format. CVT's constant is its narrow format, plus 0x100 for the direction to FP32. None for the codes that are not row operations: products and their conversion are dot products of the command (MMA to ROUND, SCORE, PV), MASK, STATS_SAVE, STATS_USE and OPT need the session or the adapters, and the sampling commit runs 0x30 to 0x37. -/
def runOp (j : OpJob) : Option (List Nat) :=
  let zip2 (f : Nat → Nat → Nat) := some (List.zipWith f j.xs j.ys)
  match j.code with
  | 0x08 => some ((cvtAll j).map (fun e => e.code))
  | 0x09 => some (qmx j.const j.xs)
  | 0x0A => some (dqmx j.const (j.ys.headD 127) j.xs)
  | 0x10 => zip2 f32Add
  | 0x11 => zip2 f32Mul
  | 0x12 => some (List.zipWith (fun p c => f32Fma p.1 p.2 c) (List.zip j.xs j.ys) j.zs)
  | 0x13 => zip2 f32Div
  | 0x14 => some (j.xs.map f32Sqrt)
  | 0x15 => zip2 f32Min
  | 0x16 => zip2 f32Max
  | 0x17 => some (j.xs.map f32Rsqrt)
  | 0x18 => some (j.xs.map f32Exp)
  | 0x19 => some (j.xs.map f32Log)
  | 0x1A => some (j.xs.map f32Silu)
  | 0x1B => some (List.zipWith (fun p m => if m = 0 then p.2 else p.1) (List.zip j.xs j.ys) j.zs)
  | 0x20 => some [rsum j.xs]
  | 0x21 => some [rmax j.xs]
  | 0x22 => some [rsumsq j.xs]
  | 0x23 =>
    let r := f32Rsqrt (f32Add (f32Div (rsumsq j.xs) (f32OfNat j.xs.length)) j.const)
    some (List.zipWith (fun x g => f32Mul (f32Mul x r) g) j.xs j.ys)
  | 0x24 => some ((List.zipWith (fun p f => let t := turnCosSin (p * f % 2 ^ 64 / 2 ^ 32); [t.1, t.2]) j.xs j.ys).flatten)
  | 0x25 =>
    let c := j.zs.headD 0
    let s := (j.zs.drop 1).headD 0
    some ((List.zipWith (fun x y => [f32Sub (f32Mul x c) (f32Mul y s), f32Add (f32Mul x s) (f32Mul y c)]) j.xs j.ys).flatten)
  | 0x2A =>
    let m := rmax j.xs
    let p := j.xs.map (fun x => f32Exp (f32Sub x m))
    some (p ++ [m, rsum p])
  | 0x31 => some (if j.const = 0 ∨ j.const = 2 ^ 31 then j.xs else j.xs.map (fun x => f32Div x j.const))
  | _ => none

/-- Bytes of one result: narrow codes take their format's bytes, an FP6 or FP4 code one byte (log entry 82). -/
def opWidth (j : OpJob) : Nat :=
  if j.code = 0x08 ∧ j.const < 0x100 then outBytes j.const else if j.code = 0x09 then 1 else 4

/-- What follows the conversion of an FP32 output: SCORE multiplies by its constant, PV divides by it (07 R181). -/
def postDot (j : DotJob) (v : Nat) : Nat :=
  if j.out ≠ 7 then v else if j.post = 0x28 then f32Mul v j.const else if j.post = 0x2B then f32Div v j.const else v

/-- MASK of a row of scores (07 R181): `ys` are the key positions, `keep` the keys that the query sees. -/
def maskRow (keep : Nat → Bool) (j : OpJob) : List Nat := List.zipWith (fun x k => if keep k then x else f32Inf true) j.xs j.ys

/-- The probabilities of a row of scores from a saved record (07 R181 STATS_USE; 05 R147). -/
def statsUse (m l : Nat) (xs : List Nat) : List Nat := xs.map (fun x => f32Div (f32Exp (f32Sub x m)) l)

end Sys2Proof.Machine
end

