-- ==== Sys2Proof/Machine/Capsule.lean ====
section
/-! DEFINITION. Page capsules (04 R100 to R106): the bytes a page becomes at each grade, Extrait's Zstandard frames among them, and the tiles it becomes again. -/

namespace Sys2Proof.Machine

/-- Positions of a page that a park keeps, as rows 0 to 63: the committed ones, and at Cologne only the globals and the last 512 (04 R105). -/
def keptRows (s : State) (x : Session) (p : Page) (grade : Nat) : List Nat :=
  let gs := globalRanges s x.d.partition
  (List.range p.fill).filter (fun r =>
    let pos := 64 * p.no + r
    grade != 3 || isGlobal gs pos || decide (x.d.committed ≤ pos + 512))

/-- Format number of 06 for a partition's KV format. -/
def kvFmt (q : Partition) : Nat := if q.kvFormat = 2 then 6 else q.kvFormat

/-- A number as `n` bits, lowest first. -/
def lowBits : Nat → Nat → List Bool
  | 0, _ => []
  | n + 1, v => bitOf v 0 :: lowBits n (v / 2)

/-- The number a bit list holds. -/
def bitsNat : List Bool → Nat
  | [] => 0
  | b :: rest => boolNat b + 2 * bitsNat rest

/-- Packs codes of `w` bits into bytes (04 R104). -/
def packCodes (w : Nat) (codes : List Nat) : Bytes :=
  leBytes (ceilDiv (w * codes.length) 8) (bitsNat ((codes.map (lowBits w)).flatten))

/-- Unpacks `n` codes of `w` bits. -/
def unpackCodes (w n : Nat) (b : Bytes) : List Nat := (List.range n).map (fun i => bitsOf (leNat b) (w * i) w)

/-- Element codes of the kept rows of one half of a tile (05 R130: position-major). -/
def halfCodes (q : Partition) (half : Bytes) (rows : List Nat) : List Nat :=
  let es := elemBytes q.kvFormat
  (rows.map (fun r => (List.range q.headDim).map (fun d => fieldAt half ((r * q.headDim + d) * es) es))).flatten

/-- Element width and MX format of a lossy grade (04 R101, R103). -/
def gradeWidth (grade : Nat) : Nat := if grade = 1 then 6 else 4
def gradeFmt (grade : Nat) : Nat := if grade = 1 then 2 else 4

/-- A half of a tile reordered from position-major to dimension-major, for Extrait (04 R102). -/
def dimMajor (q : Partition) (half : Bytes) : Bytes :=
  let es := elemBytes q.kvFormat
  ((List.range q.headDim).map (fun d => ((List.range 64).map (fun p => (half.drop ((p * q.headDim + d) * es)).take es)).flatten)).flatten

/-- A half back in position-major order. -/
def posMajor (q : Partition) (half : Bytes) : Bytes :=
  let es := elemBytes q.kvFormat
  ((List.range 64).map (fun p => ((List.range q.headDim).map (fun d => (half.drop ((d * 64 + p) * es)).take es)).flatten)).flatten

/-- Each half of a tile in another order. -/
def bothHalves (q : Partition) (f : Bytes → Bytes) (tile : Bytes) : Bytes :=
  f (tile.take (tileBytes q / 2)) ++ f ((tile.drop (tileBytes q / 2)).take (tileBytes q / 2))

/-- The header of a Zstandard frame meets 04 R102: RFC 8878's magic, Single_Segment_Flag 1, no dictionary, Content_Checksum present, and a Frame_Content_Size equal to the tile's bytes. -/
def frameHeaderOk (n : Nat) (f : Bytes) : Bool :=
  let d := fieldAt f 4 1
  let size := match bitsOf d 6 2 with
    | 0 => fieldAt f 5 1
    | 1 => fieldAt f 5 2 + 256
    | 2 => fieldAt f 5 4
    | _ => fieldAt f 5 8
  fieldAt f 0 4 == 0xFD2FB528 && bitOf d 5 && bitOf d 2 && bitsOf d 0 2 == 0 && size == n

/-- The tile of an Extrait frame; none for a frame that 04 R102 refuses. -/
def frameTile (q : Partition) (f : Bytes) : Option Bytes :=
  if frameHeaderOk (tileBytes q) f then
    (Config.zstdData f).bind (fun b => if b.length = tileBytes q then some (bothHalves q (posMajor q) b) else none)
  else none

/-- Padding of a tile record to a multiple of 8 bytes. -/
def padTo8 (n : Nat) : Bytes := List.replicate (ceilDiv n 8 * 8 - n) 0

/-- An Extrait tile record (04 R101, R102): the frame of the transformed tile where it is shorter and gives the tile back, else the tile itself. -/
def extraitRecord (q : Partition) (tile : Bytes) : Bytes :=
  let f := Config.zstdFrame (bothHalves q (dimMajor q) tile)
  if f.length < tile.length ∧ frameTile q f = some tile then leBytes 4 f.length ++ [1, 0, 0, 0] ++ f ++ padTo8 f.length
  else leBytes 4 tile.length ++ [0, 0, 0, 0] ++ tile ++ padTo8 tile.length

/-- A tile record of a grade (04 R100, R103). -/
def tileRecord (q : Partition) (grade : Nat) (rows : List Nat) (tile : Bytes) : Bytes :=
  if grade = 0 then extraitRecord q tile
  else
    let h := tileBytes q / 2
    let k := gradeHalf (gradeFmt grade) ((halfCodes q (tile.take h) rows).map (decodeElem (kvFmt q)))
    let v := gradeHalf (gradeFmt grade) ((halfCodes q (tile.drop h) rows).map (decodeElem (kvFmt q)))
    let body := packCodes (gradeWidth grade) k.2 ++ packCodes (gradeWidth grade) v.2
    leBytes 4 body.length ++ leBytes 1 (if grade = 1 then 2 else 3) ++ leBytes 1 k.1 ++ leBytes 1 v.1 ++ [0] ++ body ++ padTo8 body.length

/-- Cuts a byte string into `n` pieces of a length. -/
def pieces (len : Nat) : Nat → Bytes → List Bytes
  | 0, _ => []
  | n + 1, b => b.take len :: pieces len n (b.drop len)

/-- A page capsule (04 R100). -/
def encodePage (q : Partition) (grade : Nat) (p : Page) (rows : List Nat) (tiles : Bytes) : Bytes :=
  let body := ((pieces (tileBytes q) (tilesPerPage q) tiles).map (tileRecord q grade rows)).flatten
  let keep := rows.foldl (fun n r => n + 2 ^ r) 0
  let h := leBytes 2 0xCA95 ++ leBytes 1 grade
    ++ leBytes 1 (boolNat p.global + 2 * boolNat p.tail + 4 * boolNat (rows.length != p.fill))
    ++ leBytes 4 p.no ++ leBytes 1 p.fill ++ [0] ++ leBytes 2 (tilesPerPage q) ++ leBytes 4 (tileBytes q)
    ++ leBytes 8 keep ++ leBytes 4 body.length
  h ++ leBytes 4 (crc32c (h ++ body)) ++ body

/-- Cuts a capsule's body into tile records, each its 8-byte header and LEN bytes of payload, padded. -/
def cutRecords : Nat → Bytes → List Bytes
  | 0, _ => []
  | n + 1, b => let len := 8 + ceilDiv (fieldAt b 0 4) 8 * 8; b.take len :: cutRecords n (b.drop len)

def recordMethod (r : Bytes) : Nat := fieldAt r 4 1
def recordPayload (r : Bytes) : Bytes := (r.drop 8).take (fieldAt r 0 4)

/-- Whether a tile record can be decoded: a frame as 04 R102 asks where its method is 1. -/
def recordOk (q : Partition) (r : Bytes) : Bool :=
  match recordMethod r with
  | 0 => (recordPayload r).length == tileBytes q
  | 1 => (frameTile q (recordPayload r)).isSome
  | _ => true

/-- A page capsule passes: MAGIC, the tiles it names, BODY_BYTES and CHECK, and every frame decodes (04 R100, R102). -/
def capsuleOk (q : Partition) (c : Bytes) : Bool :=
  fieldAt c 0 2 == 0xCA95 && fieldAt c 10 2 == tilesPerPage q && fieldAt c 12 4 == tileBytes q
    && fieldAt c 24 4 == c.length - 32 && fieldAt c 28 4 == crc32c (c.take 28 ++ c.drop 32)
    && (cutRecords (tilesPerPage q) (c.drop 32)).all (recordOk q)

/-- An element decoded from a lossy grade into the KV format (04 R103). -/
def decodeGrade (q : Partition) (grade scale code : Nat) : Nat :=
  match decodeElem (gradeFmt grade) code with
  | .fin neg m e =>
    let f := outFormat (kvFmt q)
    if m = 0 then boolNat neg * 2 ^ f.sign else (convertFinite f true neg m (e + (scale : Int) - 127)).code
  | _ => 0

/-- One half of a tile from its codes: kept rows in place, every other row zero. -/
def halfFrom (q : Partition) (grade scale : Nat) (rows : List Nat) (codes : List Nat) : Bytes :=
  let es := elemBytes q.kvFormat
  ((List.range 64).map (fun r => match rows.findIdx? (· == r) with
    | none => List.replicate (q.headDim * es) 0
    | some i => ((List.range q.headDim).map (fun d => leBytes es (decodeGrade q grade scale (codes.getD (i * q.headDim + d) 0)))).flatten)).flatten

/-- The tile of a record; `rows` are the kept positions. -/
def recordTile (q : Partition) (grade : Nat) (rows : List Nat) (r : Bytes) : Bytes :=
  match recordMethod r with
  | 0 => recordPayload r
  | 1 => (frameTile q (recordPayload r)).getD (List.replicate (tileBytes q) 0)
  | _ =>
    let w := gradeWidth grade
    let half := ceilDiv (w * rows.length * q.headDim) 8
    halfFrom q grade (fieldAt r 5 1) rows (unpackCodes w (rows.length * q.headDim) ((r.drop 8).take half))
      ++ halfFrom q grade (fieldAt r 6 1) rows (unpackCodes w (rows.length * q.headDim) ((r.drop (8 + half)).take half))

/-- The tiles of a page capsule (04 R102, R103, R106). -/
def decodePage (q : Partition) (c : Bytes) : Bytes :=
  let rows := (List.range 64).filter (bitOf (fieldAt c 16 8))
  ((cutRecords (tilesPerPage q) (c.drop 32)).map (recordTile q (fieldAt c 2 1) rows)).flatten

/-- Bytes of an object that other devices make (log entry 11). -/
def openBytes (id n : Nat) : Bytes := (List.range n).map (Config.storedByte id)

/-- Replaces the bytes of a T1 frame. -/
def setFrameBytes (part addr : Nat) (b : Bytes) (s : State) : State :=
  { s with mem := Memory.writeBytes (Memory.clear s.mem addr (granuleOf s part)) addr b }

/-- The bytes of a frame leave T1. -/
def clearFrame (part addr : Nat) (s : State) : State := { s with mem := Memory.clear s.mem addr (granuleOf s part) }

/-- A capsule whose bytes a lender holds and this device has never seen: they stay open until CAPSULE_DATA brings them (log entry 32). -/
def unseenTiles (q : Partition) (addr : Nat) : Bytes := openBytes addr (pageBytes q)

/-- The tiles a frame holds, from T1 or from its capsule. -/
def frameTiles (s : State) (q : Partition) (addr : Nat) : Bytes :=
  match frameAt s addr with
  | none => List.replicate (pageBytes q) 0
  | some f =>
    if f.tier = 1 then Memory.readBytes s.mem addr (pageBytes q)
    else if f.capsule.isEmpty then unseenTiles q addr
    else decodePage q f.capsule

end Sys2Proof.Machine
end

