-- ==== Sys2Proof/Machine/Mover.lean ====
section
/-! DEFINITION. The Mover (04 R111 to R119): budgets, admission, placement, demotion, and what parks, revives and copies commit; the slowdown measurement of Mover commands (09 R245 to R247). -/

namespace Sys2Proof.Machine

/-! ### Mover slots and budgets (04 R111, R112, R114) -/

def moverSlots (img : Image) : List SlotEntry := img.slots.filter (fun x => x.lane == 2)

/-- The step's move and codec budgets in bytes: 2 and 1.2 bytes per picosecond. -/
def moveBudget (s : State) (img : Image) : Nat := 2 * (img.stepBeats * beatPs s)
def codecBudget (s : State) (img : Image) : Nat := 12 * (img.stepBeats * beatPs s) / 10

/-- Mover slots that begin from now to the second following step boundary. -/
def slotsAhead (s : State) (img : Image) : Nat :=
  ((moverSlots img).filter (fun x => decide (nowPhase s ≤ (stepStart img s.sched.step + x.start) * 4096))).length + (moverSlots img).length

def pendingMove (s : State) : Nat := s.tier.ops.foldl (fun n o => n + o.moveBytes) 0
def pendingCodec (s : State) : Nat := s.tier.ops.foldl (fun n o => n + o.codecBytes) 0

/-- TIER_MOVER_LAST of the step that ends: whole percents of the budgets that the committed operations used, and their number (04 R128). -/
def moverUse (s : State) (img : Image) : Nat :=
  let pct (used budget : Nat) : Nat := min 255 (if budget = 0 then 0 else 100 * used / budget)
  pct s.tier.moveUsed (moveBudget s img) + 2 ^ 8 * pct s.tier.codecUsed (codecBudget s img) + 2 ^ 16 * min 0xFFFF s.tier.opsDone

/-- Whether bytes can be reserved in the Mover slots before the second following boundary (04 R114). -/
def moverFits (move codec : Nat) (s : State) : Bool :=
  match s.sched.active with
  | none => false
  | some img =>
    let n := (moverSlots img).length
    let k := slotsAhead s img
    n != 0 && decide ((pendingMove s + move) * n ≤ k * moveBudget s img)
      && decide ((pendingCodec s + codec) * n ≤ k * codecBudget s img)

/-- The reserved share of the coming slots' budgets is at most a percentage (11 R299). -/
def moverShareOk (pct : Nat) (s : State) : Bool :=
  match s.sched.active with
  | none => true
  | some img =>
    let n := (moverSlots img).length
    let k := slotsAhead s img
    decide (100 * pendingMove s * n ≤ pct * (k * moveBudget s img))
      && decide (100 * pendingCodec s * n ≤ pct * (k * codecBudget s img))

/-- End, in phase units, of the k-th Mover slot that begins after an instant; the instant itself where there is none. -/
def moverEnd (img : Image) (at_ k : Nat) : Nat :=
  let n := (moverSlots img).length
  let j := (at_ / 4096 - img.anchor) / (max 1 img.stepBeats)
  let all := ((List.range (k / (max 1 n) + 3)).map (fun i => (moverSlots img).map (fun x => (stepStart img (j + i) + x.start, x.beats)))).flatten
  match (all.filter (fun x => decide (at_ < x.1 * 4096)))[k - 1]? with
  | some x => (x.1 + x.2) * 4096
  | none => at_

/-! ### Bytes of operations -/

/-- The grade a park applies (04 R107; 14 R383: LATENCY parks at Parfum, every other profile at Toilette). -/
def parkGrade (s : State) (x : Session) : Nat := if x.d.fromProfile then (if s.sup.profile = 1 then 1 else 2) else x.d.grade

/-- Tile bytes of a session's pages. -/
def tileBytesOf (s : State) (x : Session) : Nat :=
  match partitionAt s x.d.partition with | none => 0 | some q => (parkPages x).length * pageBytes q

/-- Bytes of a session's capsules as stored. -/
def storedBytes (s : State) (x : Session) : Nat :=
  (parkPages x).foldl (fun n p => match frameAt s p.frame with | some f => if f.tier = 1 then n else n + f.length | none => n) 0

/-- Codec bytes of a revive: capsule bytes, tile bytes for Extrait (04 R111). -/
def reviveCodec (s : State) (x : Session) : Nat :=
  match partitionAt s x.d.partition with
  | none => 0
  | some q => (parkPages x).foldl (fun n p => match frameAt s p.frame with
      | some f => if f.tier = 1 then n else if f.grade = 0 then n + pageBytes q else n + f.length
      | none => n) 0

/-- Adds an operation in admission order. -/
def addOp (kind : MoverKind) (slot move codec grade buffer client dest : Nat) (s : State) : State :=
  let o : MoverOp := ⟨s.tier.nextOp, kind, slot, false, move, codec, grade, buffer, client, decide (kind = .sessionOut ∨ kind = .shard), false, false, dest⟩
  { s with tier := { s.tier with ops := s.tier.ops ++ [o], nextOp := s.tier.nextOp + 1 } }

def dropOps (p : MoverOp → Bool) (s : State) : State := { s with tier := { s.tier with ops := s.tier.ops.filter (fun o => !p o) } }

def opOf (s : State) (slot : Nat) (p : MoverOp → Bool) : Option MoverOp := s.tier.ops.find? (fun o => o.slot == slot && p o)

def isRevive (o : MoverOp) : Bool := o.kind == .revive || o.kind == .reviveTaken

/-! ### Placement and demotion (04 R116 to R118) -/

/-- WAKE as an order: 0 is later than every beat. -/
def wakeKey (w : Nat) : Nat := if w = 0 then 2 ^ 64 else w

/-- A lender with room for some bytes: fewest hops, then most free space, then lowest index (04 R118). -/
def lenderFor (s : State) (bytes : Nat) : Option Nat :=
  let better (a b : Nat × Advert) : Bool :=
    decide (a.2.hops < b.2.hops) || (a.2.hops == b.2.hops && (decide (b.2.freeMiB < a.2.freeMiB) || (a.2.freeMiB == b.2.freeMiB && decide (a.1 < b.1))))
  ((s.tier.adverts.filter (fun e => decide (bytes ≤ e.2.freeMiB * 2 ^ 20))).foldl (fun (best : Option (Nat × Advert)) e =>
    match best with | none => some e | some b => if better e b then some e else some b) none).map (fun e => e.1)

/-- Parked sessions with capsules in T2 and no operation, latest WAKE first, then oldest LAST_BEAT (04 R117). -/
def demotable (s : State) : List Nat :=
  let l := (s.slots.table.filter (fun e => e.2.d.state == 3 && e.2.pages.any (fun p => p.tier == 2 && p.frame != 0)
    && !s.tier.ops.any (fun o => o.slot == e.1))).map (fun e => (e.1, wakeKey e.2.d.wake, e.2.d.lastBeat))
  (l.mergeSort (fun a b => decide (b.2.1 < a.2.1) || (a.2.1 == b.2.1 && decide (a.2.2 ≤ b.2.2)))).map (fun e => e.1)

def t2Bytes (s : State) (slot : Nat) : Nat :=
  (sessionAt s slot).pages.foldl (fun n p => match frameAt s p.frame with | some f => if f.tier = 2 then n + f.length else n | none => n) 0

/-- Schedules demotions of sessions in order until some bytes are made free; answers whether they are. -/
def demoteUntil (need : Nat) : List Nat → State → Bool × State
  | [], s => (need == 0, s)
  | slot :: rest, s =>
    if need = 0 then (true, s)
    else
      let b := t2Bytes s slot
      if (lenderFor s b).isNone then (false, s)
      else demoteUntil (need - b) rest (addOp .demote slot b 0 0 0 0 3 s)

def reserveBytes (s : State) : Nat := s.tier.set.t2Reserve * 2 ^ 30

/-- Places a park's capsules: in T2, in T2 after demotions, or in T3; none when there is no room (04 R116). -/
def placePark (slot space wake : Nat) (s : State) : Option (Nat × State) :=
  if space + reserveBytes s ≤ t2Free s then some (2, s)
  else
    let later := (demotable s).filter (fun o => o != slot && decide (wakeKey wake < wakeKey (sessionAt s o).d.wake))
    match demoteUntil (space + reserveBytes s - t2Free s) later s with
    | (true, s') => some (2, s')
    | (false, _) => if (lenderFor s space).isSome then some (3, s) else none

/-- Demotions while T2 stands below its reserve (04 R117). -/
def demoteLow (s : State) : State :=
  let going := s.tier.ops.foldl (fun n o => if o.kind = .demote then n + o.moveBytes else n) 0
  if reserveBytes s ≤ t2Free s + going then s else (demoteUntil (reserveBytes s - t2Free s - going) (demotable s) s).2

/-! ### Revives (04 R119) -/

/-- Frames a revive takes. -/
def reviveFrames (x : Session) : Nat := (parkPages x).length - t1Pages x

/-- Frames a session's revive must find free, in bytes. -/
def reviveNeed (s : State) (x : Session) : Nat := reviveFrames x * granuleOf s x.d.partition

/-- Schedules a prefetch revive when it can reserve its frames and Mover capacity, and withdraws a demotion or pull that has not begun (04 R119, R125); otherwise it stays pending. -/
def tryRevive (slot : Nat) (s : State) : State :=
  let x := sessionAt s slot
  if reviveNeed s x ≤ t1Free s ∧ moverFits (tileBytesOf s x) (reviveCodec s x) s then
    let s := dropOps (fun o => o.slot == slot && !o.begun && (o.kind == .demote || o.kind == .pull)) s
    modSession slot (fun x => { x with toolQueued := 0 }) (addOp .revive slot (tileBytesOf s x) (reviveCodec s x) 0 0 0 1 s)
  else s

/-- The next place in the order in which TOOL runs arrived. -/
def toolTurn (s : State) : Nat := s.slots.table.foldl (fun n e => max n e.2.toolQueued) 0 + 1

/-- A TOOL run on a parked session (03 R89, 04 R119): REVIVE_PENDING, and a revive as soon as one can be reserved. -/
def prefetchTool (slot : Nat) (s : State) : State :=
  if (opOf s slot isRevive).isSome then s
  else tryRevive slot (modSession slot (fun x => { x with toolQueued := toolTurn s, d := { x.d with revivePending := true } }) s)

/-! ### Slowdown (09 R245 to R247) -/

/-- Adds a measured command to its client's period sums. -/
def addSlow (client observed solo : Nat) (s : State) : State :=
  let ratio := if solo = 0 then 256 else min 0xFFFF (256 * observed / solo)
  modClient client (fun c => { c with slow := { c.slow with
    observed := c.slow.observed + observed, solo := c.slow.solo + solo,
    commands := c.slow.commands + 1, worst := max c.slow.worst ratio } }) s

/-- Observed beats of a command that replies now (09 R245). -/
def observedBeats (o : Origin) (s : State) : Nat := ceilDiv (nowPhase s - (o.beat * 4096 + o.phase)) 4096

/-- Solo beats of a Mover command (09 R246). -/
def soloMover (o : Origin) (move : Nat) (s : State) : Nat :=
  match s.sched.active with
  | none => 0
  | some img =>
    let n := (moverSlots img).length
    let at_ := o.beat * 4096 + o.phase
    let k := max 1 (ceilDiv (move * n) (moveBudget s img))
    ceilDiv (moverEnd img at_ k - at_) 4096

/-- The final OK of a Mover command, measured. -/
def finishMover (w : Work) (move : Nat) (a : Ans) (s : State) : State :=
  let cs := s.commands.filter (fun c => decide (c.work = w))
  cs.foldl (fun s c => if c.origin.sender.isSome then s else addSlow c.origin.client (observedBeats c.origin s) (soloMover c.origin move s) s) (finish w a s)

/-! ### Commits -/

/-- What one page becomes when its session parks: its entry, and the frames it leaves (04 R99, R105). A source frame whose capsule at this grade stands already is coded no second time, whoever else held it (R108). -/
def parkPage (slot grade dest : Nat) (p : Page) (s : State) : Page × State :=
  let x := sessionAt s slot
  match partitionAt s x.d.partition, frameAt s p.frame with
  | some q, some f =>
    if p.tier ≠ 1 then (p, s)
    else
      let rows := keptRows s x p grade
      if grade = 3 ∧ rows = [] then
        ({ p with tier := 2, grade := 3, frame := 0, shared := false }, frameDue p.frame s)
      else
        match (s.tier.pairs.find? (fun r => r.1 == p.frame && r.2.1 == grade)).bind (fun r => (frameAt s r.2.2).map (fun g => (r.2.2, g.tier))) with
        | some r => ({ p with tier := r.2, grade := grade, frame := r.1, shared := true }, frameDue p.frame (shareFrame r.1 s))
        | none =>
          let c := encodePage q grade p rows (Memory.readBytes s.mem p.frame (pageBytes q))
          let lender := if dest = 3 then (lenderFor s c.length).getD 0 else 0
          let lref := if dest = 3 then s.tier.nextRef else 0
          let put (s : State) : State :=
            if dest = 3 then send (.capsulePut lender lref c) { s with tier := { s.tier with nextRef := s.tier.nextRef + 1 } } else s
          let g : Frame := { f with
            tier := dest, grade := grade, length := c.length, lender := lender, lref := lref, channel := placeChannel s slot, capsule := c }
          if 1 < f.count then
            let a := frameAddr x.d.partition (freeIndex s x.d.partition) (granule q)
            let s := putFrame a { g with count := 1 } s
            let s := { s with tier := { s.tier with pairs := s.tier.pairs ++ [(p.frame, grade, a)] } }
            ({ p with tier := dest, grade := grade, frame := a, shared := false }, put (frameDue p.frame s))
          else
            let s := putFrame p.frame g (clearFrame x.d.partition p.frame s)
            let s := if s.sched.active.isNone then s else { s with tier := { s.tier with releasing := s.tier.releasing + granule q } }
            ({ p with tier := dest, grade := grade, shared := false }, put s)
  | _, _ => (p, s)

/-- Parks every page of a session. -/
def parkPagesAll (slot grade dest : Nat) : List Page → State → List Page × State
  | [], s => ([], s)
  | p :: rest, s =>
    if p.spec then parkPagesAll slot grade dest rest (frameDue p.frame s)
    else
      let a := parkPage slot grade dest p s
      let b := parkPagesAll slot grade dest rest a.2
      (a.1 :: b.1, b.2)

/-- A park commits (03 R89, 04 R112): the session is PARKED, or stays ACTIVE for a command that came after the park began (03 R91). -/
def commitPark (o : MoverOp) (s : State) : State :=
  let x := sessionAt s o.slot
  let r := parkPagesAll o.slot o.grade o.dest x.pages s
  let b := s.cad.beat
  let s := modSession o.slot (fun x => { x with
    pages := r.1, drafts := [], parkWake := 0
    d := { x.d with
      parkPending := false
      wake := if x.d.parkPending then (if x.parkWake = 0 then 0 else b + x.parkWake) else x.d.wake } }) r.2
  let s := if x.d.state = 1 ∧ x.job.isNone then setState o.slot 3 s else s
  let s := { s with counters := { s.counters with parks := satAdd (2 ^ 64 - 1) s.counters.parks 1 } }
  let s := finishMover (.park o.slot) o.moveBytes ok s
  if x.toolQueued ≠ 0 ∧ x.job.isNone then prefetchTool o.slot s else s

/-- What one page becomes when its session is revived (04 R106, 03 R81). -/
def revivePage (slot : Nat) (p : Page) (s : State) : Page × State :=
  let x := sessionAt s slot
  match partitionAt s x.d.partition with
  | none => (p, s)
  | some q =>
    if p.tier = 1 then (p, s)
    else if p.frame = 0 then
      let t := takeFrame x.d.partition s
      ({ p with tier := 1, frame := t.1 }, t.2)
    else
      match frameAt s p.frame with
      | none => (p, s)
      | some f =>
        let partial_ := f.grade = 3 ∧ (keptRows s x p 3).length ≠ p.fill
        let tiles := frameTiles s q p.frame
        let g := if partial_ then 3 else 0xFF
        if 1 < f.count then
          let t := takeFrame x.d.partition s
          ({ p with tier := 1, grade := g, frame := t.1, shared := false }, frameDue p.frame (setFrameBytes x.d.partition t.1 tiles t.2))
        else
          let s := if f.tier = 3 then send (.capsuleFree f.lender f.lref) s else s
          let s := setFrameBytes x.d.partition p.frame tiles
            (putFrame p.frame { f with tier := 1, grade := 0xFF, length := 0, lender := 0, lref := 0, capsule := [] } s)
          ({ p with tier := 1, grade := g }, { s with tier := { s.tier with pairs := s.tier.pairs.filter (fun r => r.2.2 != p.frame) } })

def revivePagesAll (slot : Nat) : List Page → State → List Page × State
  | [], s => ([], s)
  | p :: rest, s =>
    let a := revivePage slot p s
    let b := revivePagesAll slot rest a.2
    (a.1 :: b.1, b.2)

/-- Positions a Cologne revive must replay (04 R106). -/
def cologneRows (s : State) (x : Session) : List Nat :=
  let gs := globalRanges s x.d.partition
  if x.pages.any (fun p => p.grade == 3) then
    ((List.range (x.d.committed - 512 - x.d.retired)).map (fun i => x.d.retired + i)).filter (fun p => !isGlobal gs p)
  else []

/-- A revive commits (03 R89): RESIDENT, or ACTIVE with every reserved page resident. -/
def commitRevive (o : MoverOp) (s : State) : State :=
  let x := sessionAt s o.slot
  let r := revivePagesAll o.slot x.pages s
  let s := modSession o.slot (fun x => { x with
    pages := r.1, toolQueued := 0
    job := x.job.map (fun j => { j with resident := true })
    d := { x.d with revivePending := false } }) r.2
  let s := modSession o.slot (fun x => { x with cologne := cologneRows s x }) s
  let s := if x.d.state = 3 then setState o.slot 1 s else s
  let s := { s with counters := { s.counters with revives := satAdd (2 ^ 64 - 1) s.counters.revives 1 } }
  let s := finishMover (.revive o.slot) o.moveBytes ok s
  if x.job.isSome then reportCandidate o.slot true s else s

/-- A demotion or a pull commits: frames of the session move between T2 and T3, or from a lender that leaves to another (04 R99, R111; 15 R413). -/
def commitShift (o : MoverOp) (s : State) : State :=
  let x := sessionAt s o.slot
  let fromTier := if o.kind = .pull then 3 else 2
  let s := x.pages.foldl (fun s p =>
    match frameAt s p.frame with
    | none => s
    | some f =>
      if f.tier ≠ fromTier ∨ (o.kind = .pull ∧ o.buffer ≠ 0 ∧ o.buffer ≠ f.lender + 1) then s
      else if o.dest = 3 then
        let l := (lenderFor s f.length).getD 0
        let s := if o.kind = .pull then send (.capsuleFree f.lender f.lref) s else s
        let s := putFrame p.frame { f with tier := 3, lender := l, lref := s.tier.nextRef } s
        send (.capsulePut l s.tier.nextRef f.capsule) { s with tier := { s.tier with nextRef := s.tier.nextRef + 1 } }
      else
        send (.capsuleFree f.lender f.lref) (putFrame p.frame { f with tier := 2, lender := 0, lref := 0, channel := placeChannel s o.slot } s)) s
  let fr := s.tier.frames
  let s := { s with slots := { s.slots with table := FMap.mapVals (fun _ y => { y with
    pages := y.pages.map (fun p => match FMap.get? fr p.frame with | some f => { p with tier := f.tier } | none => p) }) s.slots.table } }
  if o.kind = .demote then setFlag offTierEvents 1 s else s

/-- A private copy of a shared frame commits (03 R80): the writer's tail entry names the copy. -/
def commitPrivate (o : MoverOp) (s : State) : State :=
  let x := sessionAt s o.slot
  match partitionAt s x.d.partition, x.pages.find? (fun p => p.tail) with
  | some q, some p =>
    let tiles := Memory.readBytes s.mem p.frame (pageBytes q)
    let t := takeFrame x.d.partition s
    let s := setFrameBytes x.d.partition t.1 tiles t.2
    let s := frameDue p.frame s
    modSession o.slot (fun x => { x with pages := x.pages.map (fun r => if r.tail then { r with frame := t.1, shared := false } else r) }) s
  | _, _ => s

/-- A tail page whose frame other sessions share needs a private copy before it is written (03 R80). -/
def tailShared (s : State) (x : Session) : Bool :=
  x.pages.any (fun p => p.tail && p.tier == 1 && (match frameAt s p.frame with | some f => decide (1 < f.count) | none => false))

end Sys2Proof.Machine
end

