-- ==== Sys2Proof/Machine/Endings.lean ====
section
/-! DEFINITION. How commands in progress end: generations (03 R89, 10 R266, R269), Mover commands, handovers, and a client's pre-emption (09 R242). -/

namespace Sys2Proof.Machine

/-! ### The solo estimate of a generation (09 R246) -/

/-- First layer slot, last sampling commit and entry spacing of a partition's microbatch 0, in phase units from the step start. -/
def mbEntry (img : Image) (part mb : Nat) : Nat :=
  match img.slots.find? (fun x => x.lane == 0 && x.partition == part && x.microbatch == mb) with
  | some x => x.start * 4096
  | none => 0

/-- Commit point of a slot in phase units from the step start. -/
def commitAt (x : SlotEntry) : Nat := (x.start + x.commitBeat) * 4096 + x.commitPhase

/-- Span from the entry of microbatch 0 to its sampling commit point, or to its last slot's where this image samples nothing. -/
def mbSpan (img : Image) (part : Nat) : Nat :=
  let e := mbEntry img part 0
  let own := img.slots.filter (fun x => x.partition == part && x.microbatch == 0 && x.lane ≤ 1)
  let last := match own.find? (fun x => x.lane == 1) with
    | some x => commitAt x
    | none => own.foldl (fun n x => max n (commitAt x)) e
  if last < e then last + img.stepBeats * 4096 - e else last - e

/-- Solo beats of a generation that replies now. -/
def soloGenerate (slot : Nat) (o : Origin) (s : State) : Nat :=
  let x := sessionAt s slot
  match s.sched.active, x.job with
  | some img, some j =>
    let r := o.beat * 4096 + o.phase
    let k := ceilDiv (j.yAt - (img.anchor + img.plazaOffset) * 4096) (img.stepBeats * 4096)
    let e0 := (stepStart img (k + 1)) * 4096 + mbEntry img x.d.partition 0
    let mb := (partitionAt s x.d.partition).map (fun q => q.mb)
    let g := if mb.getD 1 ≤ 1 then 0 else mbEntry img x.d.partition 1 - mbEntry img x.d.partition 0
    ceilDiv ((e0 - r) + (j.passes - 1) * img.stepBeats * 4096 + mbSpan img x.d.partition + (j.lastPieces - 1) * g) 4096
  | _, _ => 0

/-- Statuses whose commands are measured (09 R245). -/
def measured (st : Nat) : Bool := st == stOK || st == stSTOPPED || st == stLIMIT_REACHED || st == stCONSTRAINT_DEAD

/-- Adds the measurement of a generation to its client. -/
def measureGenerate (slot status : Nat) (s : State) : State :=
  match commandOf s (.generate slot), (sessionAt s slot).job with
  | some c, some j =>
    if measured status && !j.train && c.origin.sender.isNone then addSlow c.origin.client (observedBeats c.origin s) (soloGenerate slot c.origin s) s else s
  | _, _ => s

/-! ### Ends of generations (03 R89) -/

/-- Schedules the park of a generation that ended with its session PARKED; where no tier has room it waits in T1 (log entry 20). -/
def parkAfterEnd (slot wakeAfter : Nat) (s : State) : State :=
  let x := sessionAt s slot
  let wake := if wakeAfter = 0 then 0 else s.cad.beat + wakeAfter
  let g := parkGrade s x
  let s := modSession slot (fun x => { x with drafts := [], d := { x.d with wake := wake } }) s
  let s := setState slot 3 s
  let place := placePark slot (parkSpace s x) wake s
  let s1 := match place with | some r => r.2 | none => setFlag offTierEvents 0 s
  let dest := match place with | some r => r.1 | none => 2
  let b := parkBytes s x g
  addOp .park slot b (if g = 0 then tileBytesOf s x else b) g 0 0 dest s1

/-- Ends a generation: held bytes go out unless a stop string ended it, the reply carries bytes delivered and positions committed, with NOT_OWNER the new handle (04 R123), speculation pages return, and the session is RESIDENT or PARKED (03 R89; 10 R251, R266, R272). -/
def endGeneration (slot status detail : Nat) (park : Bool) (wakeAfter : Nat) (s : State) : State :=
  match (sessionAt s slot).job with
  | none => s
  | some j =>
    let s := if status = stSTOPPED ∨ (status = stOK ∧ detail ≠ 0) then s else deliver slot j.pendingBytes s
    let n := match (sessionAt s slot).job with | some j => (j.delivered, j.positions) | none => (0, 0)
    let s := measureGenerate slot status s
    let newH : Option Nat := if status = stNOT_OWNER then (sessionAt s slot).handover.map (fun h => h.newHandle) else none
    let s := finish (.generate slot) { status := status, detail := detail, count0 := n.1, count1 := n.2, handle := newH } s
    let s := dropSpec slot (withdraw (sessionHandle s slot) s)
    let s := modSession slot (fun x => { x with job := none }) (returnScratch slot s)
    let s := reportCandidate slot false s
    if park ∧ (sessionAt s slot).d.state = 2 then parkAfterEnd slot wakeAfter s
    else if (sessionAt s slot).d.state = 2 then
      let s := dropOps (fun o => o.slot == slot && (o.kind == .reviveTaken || o.kind == .privateCopy)) s
      setState slot (if (parkPages (sessionAt s slot)).any (fun p => p.tier != 1) then 3 else 1) s
    else s

/-! ### Handovers that end early (03 R89, 12 R343) -/

/-- The source reverts a handover: the target frees its slot, and the command gets its reply. -/
def revertHandover (slot : Nat) (tell : Bool) (a : Ans) (s : State) : State :=
  let x := sessionAt s slot
  match x.handover with
  | none => s
  | some ho =>
    if !ho.source then s
    else
      let s := if tell then send (.hoAbort ho.peer (sessionHandle s slot) ho.newHandle a.status) s else s
      let back := if ho.prior = 2 ∧ x.job.isNone then 1 else ho.prior
      let s := if x.d.state = 4 then setState slot back s else s
      let s := modSession slot (fun x => { x with handover := none, dirty := [], d := { x.d with copying := false, copyPasses := 0, peer := 0 } }) s
      let s := dropOps (fun o => o.slot == slot && (o.kind == .copyPass || o.kind == .finalPass)) s
      finish (.handover slot) a s

/-- A target frees the slot and frames it took for a handover. -/
def freeTarget (slot : Nat) (s : State) : State :=
  let x := sessionAt s slot
  let s := framesDue (x.pages.map (fun p => p.frame)) s
  freeSlot slot s

/-! ### Mover commands that end early -/

/-- Withdraws or kills a session's Mover commands with a status: no effect of theirs stands (04 R112). -/
def endMoverWork (slot : Nat) (a : Ans) (s : State) : State :=
  let x := sessionAt s slot
  let s := dropOps (fun o => o.slot == slot && (o.kind == .park || o.kind == .revive || o.kind == .sessionOut || o.kind == .sessionIn)) s
  let s := modSession slot (fun x => { x with parkWake := 0, d := { x.d with parkPending := false, revivePending := false } }) s
  let s := finish (.park slot) a s
  let s := finish (.revive slot) a s
  let s := finish (.capsuleOut slot) a s
  let s := if (commandOf s (.capsuleIn slot)).isSome ∧ !x.exported then freeSlot slot (finish (.capsuleIn slot) a s) else finish (.capsuleIn slot) a s
  s

/-! ### Pre-emption (09 R242) -/

/-- Whether a sealed place of a session has entered a COLLECTIVE slot in this step (08 R212). -/
def inCollective (h : Nat) (s : State) : Bool :=
  match s.sched.active with
  | none => false
  | some img => (s.sched.sealPrev ++ s.sched.sealNow).any (fun m => m.places.any (fun p => p.handle == h && !p.withdrawn)
      && img.slots.any (fun x => bitOf x.flags 1 && x.partition == m.partition && x.microbatch == m.microbatch && s.sched.done.contains x.id))

/-- Whether the first slot of a sealed microbatch has started in this step. -/
def mbStarted (s : State) (m : SealedMb) : Bool :=
  match s.sched.active with
  | none => false
  | some img => (img.slots.find? (fun x => x.lane == 0 && x.partition == m.partition && x.microbatch == m.microbatch)).any (fun x => s.sched.done.contains x.id)

/-- Whether a pass of a handle has entered and still stands: one of the step before, or one of this step whose first slot has started. -/
def passBegun (h : Nat) (s : State) : Bool :=
  s.sched.sealPrev.any (fun m => m.places.any (fun p => p.handle == h && !p.withdrawn))
    || s.sched.sealNow.any (fun m => m.places.any (fun p => p.handle == h && !p.withdrawn && p.piece == 0) && mbStarted s m)

/-- Whether the Fabric may still read tiles of a handle: a pass in flight, withdrawn or not (01 R22; 09 R232). -/
def passRunning (h : Nat) (s : State) : Bool :=
  s.sched.sealPrev.any (fun m => m.places.any (fun p => p.handle == h))
    || s.sched.sealNow.any (fun m => m.places.any (fun p => p.handle == h) && mbStarted s m)

/-- Ends a SESSION_GENERATE with PREEMPTED; a pass in a COLLECTIVE slot commits first. -/
def preemptGenerate (slot : Nat) (s : State) : State :=
  let h := sessionHandle s slot
  if inCollective h s then
    modSession slot (fun x => { x with job := x.job.map (fun j => { j with endWith := some stPREEMPTED }) }) s
  else endGeneration slot stPREEMPTED 0 false 0 (withdraw h s)

/-- Ends one command of a pre-empted client as 09 R242 says; a command that completes is left. -/
def preemptCommand (c : Command) (s : State) : State :=
  let a : Ans := { status := stPREEMPTED }
  match c.work with
  | .generate slot => preemptGenerate slot s
  | .park slot => endMoverWork slot a s
  | .revive slot => endMoverWork slot a s
  | .capsuleOut slot => endMoverWork slot a s
  | .capsuleIn slot => endMoverWork slot a s
  | .handover slot => if (sessionAt s slot).d.state = 4 then s else revertHandover slot true a s
  | _ => s

/-- Opcodes whose recognised packets end with PREEMPTED before they are served. -/
def preemptible (op : Nat) : Bool := op == 0x23 || op == 0x24 || op == 0x25 || op == 0x2A || op == 0x2B || op == 0x30

/-- Pre-emption of a client begins: recognition stops, and its commands end or run to their own end. -/
def beginPreempt (n : Nat) (s : State) : State :=
  let s := setFlag (offCliEvents n) 3 (modClient n (fun c => { c with preempting := true }) s)
  let mine := s.commands.filter (fun c => c.origin.client == n && c.origin.sender.isNone)
  let s := mine.foldl (fun s c => preemptCommand c s) s
  ((clientOf s n).recognised.filter (fun r => preemptible (opcodeOf r.packet))).foldl (fun s r =>
    dropRecognised r.packet (reply r.packet { status := stPREEMPTED } s)) s

/-- Every recognised command of the client has replied. -/
def preemptDone (n : Nat) (s : State) : Bool :=
  let c := clientOf s n
  c.preempting && c.inflight == 0

/-- RUN becomes 0 and QUEUE_STATE stands recorded in the client's pointers (09 R242, R243). -/
def endPreempt (n : Nat) (s : State) : State :=
  if preemptDone n s then modClient n (fun c => { c with run := false, preempting := false, blockedBy := none }) s else s

end Sys2Proof.Machine
end

