-- ==== Sys2Proof/Machine/Serve.lean ====
section
/-! DEFINITION. Serving a packet: recognition, the checks in order, its own body, and the yellow admission rule (11 R283, R299, R315). -/

namespace Sys2Proof.Machine

/-- Status of the newest reply, the wrapped one under REBUILT; OK where the body gave none. -/
def newStatus (s s' : State) : Nat :=
  if s'.out.replies.length ≤ s.out.replies.length then stOK
  else match s'.out.replies.getLast? with
    | some r => if r.status = stREBUILT then r.detail else r.status
    | none => stOK

/-- Whether a body's outcome is an admission. -/
def admits (st : Nat) : Bool := st == stOK || st == stACCEPTED || st == stPARTIAL || st == stDEGRADED

/-- T1 frames and Mover slots stay in the spare after a yellow command's reservation (11 R299). -/
def yellowOk (s s' : State) : Bool :=
  decide (s'.host.yellowFloor * (s'.tier.t1Total * 2 ^ 20) ≤ 100 * t1Free s')
    && (decide (pendingMove s' ≤ pendingMove s) || moverShareOk s'.host.yellowMover s')

/-- A green command's outcome stands; a yellow one's only in spare reservation, else it is THROTTLED (11 R299). -/
def admitted (colour : Nat) (p : Packet) (s s' : State) : State :=
  if colour = 1 ∧ admits (newStatus s s') ∧ !yellowOk s s' then
    reply p { status := stTHROTTLED, detail := beatsToBoundary s } s
  else s'

/-- A command goes to another device, and with it the host data it names (12 R338); the bytes of an imported capsule stand outside the model. -/
def forwardTo (dest : Nat) (p : Packet) (data : Bytes) (s : State) : State :=
  let s := send (.forward dest p) s
  if data.isEmpty ∧ opcodeOf p ≠ 0x2B then s else send (.hostdata dest (tagOf p) 0 data) s

/-- Serves a packet as its row: it must match the row and stand recognised, or be recognised now; then the checks in order; then the command's own body, given the packet's colour. A packet that must wait stays recognised (log entry 4). -/
def serveHost (data : Bytes) (is : Packet → Bool) (waits : Packet → State → Bool) (body : Nat → Packet → State → State) (p : Packet) (s : State) : State :=
  if !is p then s
  else
    let s0 := if (priorOf p s).isSome then s else recognise p s
    match priorOf p s0 with
    | none => s0
    | some prior =>
      match gate p prior s0 with
      | .wait => s0
      | .refuse s1 a => dropRecognised p (reply p a s1)
      | .forward dest s1 => dropRecognised p (await (.forwarded (tagOf p)) (originOf p s1) (forwardTo dest p data s1))
      | .run colour s1 =>
        if waits p s1 then s0
        else
          match (if readsEnveloped p s1 then openEnvelopes p.client (inputKind p) (if isSealed p then p.envs.drop 1 else p.envs) s1 else .ok s1) with
          | .error d => dropRecognised p (reply p { status := stAUTH_FAIL, detail := d } (if d = 3 then setFlag offSecEvents 3 s1 else s1))
          | .ok s2 => dropRecognised p (admitted colour p s2 (body colour p s2))

/-- Serves a packet that brings no host data. -/
def serve (is : Packet → Bool) (waits : Packet → State → Bool) (body : Nat → Packet → State → State) (p : Packet) (s : State) : State :=
  serveHost [] is waits body p s

/-- Buffer bytes an object takes: envelopes of at most 1 MiB each while a tenant is bound (13 R358). -/
def writtenBytes (s : State) (n : Nat) : Nat :=
  if s.sec.bound then n / 2 ^ 20 * (2 ^ 20 + 32) + (if n % 2 ^ 20 = 0 then 0 else ceilDiv (32 + n % 2 ^ 20) 16 * 16) else n

/-- The longest object a buffer holds. -/
def roomBytes (s : State) (len : Nat) : Nat :=
  if s.sec.bound then len / (2 ^ 20 + 32) * 2 ^ 20 + (len % (2 ^ 20 + 32) / 16 * 16 - 32) else len

/-- A reply whose detail the manual does not state (log entry 14). -/
def replyOpen (p : Packet) (status : Nat) (s : State) : State :=
  let f := freeValue s
  reply p { status := status, detail := f.1 % 2 ^ 16 } f.2

/-- No reason to wait beyond the checks. -/
def never (_ : Packet) (_ : State) : Bool := false

end Sys2Proof.Machine
end

