-- ==== Sys2Proof/Machine/Settings.lean ====
section
/-! DEFINITION. The settings of SET_PARAM and GET_PARAM (11 R304 to R306; 02 R36, R50, R61; 04 R121; 09 R241 to R248; 14 R392, R394; 15 R404; 16 R427; 17 R451), and the rows that stand for single settings. -/

namespace Sys2Proof.Machine

/-! ### Where a setting lands (08 R221) -/

/-- The largest slip among the device's rings in this step, by which the Plaza lane starts later (08 R207). -/
def maxSlip (s : State) : Nat := s.cont.partitions.foldl (fun n e => max n e.2.slip) 0

/-- The step boundary at which a step-boundary change recognised now lands: the end of this step before its Plaza lane, else the end of the next. None while no image is active. -/
def landing (s : State) : Option Nat :=
  match s.sched.active with
  | none => none
  | some img =>
    let k := s.sched.step
    some (if s.cad.beat < stepStart img k + img.plazaOffset + maxSlip s then stepStart img (k + 1) else stepStart img (k + 2))

/-- A change of a step-boundary setting takes effect. -/
def applyDue (id v : Nat) (s : State) : State :=
  match id with
  | 0x01000005 => { s with cad := { s.cad with staggerBeats := v } }
  | 0x01000006 => { s with cad := { s.cad with staggerPhase := v } }
  | 0x02000001 => { s with tier := { s.tier with set := { s.tier.set with t2Reserve := v } } }
  | 0x02000002 => { s with tier := { s.tier with set := { s.tier.set with commonsShare := v } } }
  | 0x03000001 => { s with host := { s.host with slowPeriod := v } }
  | _ => s

/-- Holds a step-boundary setting until its boundary; at once while no image is active (log entry 17). -/
def setDue (id v : Nat) (s : State) : State :=
  match landing s with
  | none => applyDue id v s
  | some at_ => { s with host := { s.host with due := s.host.due ++ [(at_, id, v)] } }

/-! ### Device states (14 R391 to R394) -/

def devRank : DevState → Nat | .run => 0 | .idle => 1 | .dormant => 2
def devOf (v : Nat) : DevState := if v = 1 then .idle else if v = 2 then .dormant else .run

/-- Begins a change of device state, or replaces the one in progress (14 R394). A wake has no abort points, so a deeper state asked for during it follows it. -/
def changeDevice (d : DevState) (s : State) : State :=
  let sup := s.sup
  match sup.devTarget with
  | none =>
    if d = sup.dev then s
    else
      let from_ := if devRank d < devRank sup.dev then s.cad.beat else sup.wakeFrom
      let s := { s with sup := { sup with devTarget := some d, devNext := none, wakeFrom := from_, entryPoint := 0 } }
      if sup.dev = .dormant then wakeRails s else s
  | some t =>
    let entering : Bool := decide (devRank sup.dev < devRank t)
    if d = t then { s with sup := { sup with devNext := none } }
    else if entering then
      if d = .dormant ∨ (d = .idle ∧ sup.entryPoint < 4) then { s with sup := { sup with devTarget := some d, devNext := none } }
      else { s with sup := { sup with devNext := some d } }
    else if devRank d < devRank sup.dev then { s with sup := { sup with devTarget := some d, devNext := none } }
    else { s with sup := { sup with devNext := some d } }

/-- The refusal of a device-state request (14 R392). -/
def deviceRefusal (d : DevState) (s : State) : Bool :=
  (d != .run && inRing s) || (d == .dormant && decide (0 < t3Lent s))

/-- POWER.DEVICE_STATE set to a state. -/
def execDeviceStateRequest (state : Nat) (s : State) : Host.Outcome State Fault Refusal :=
  .next (if 2 < state ∨ deviceRefusal (devOf state) s then s else changeDevice (devOf state) s)

/-! ### Clients (09 R241 to R244) -/

/-- Outcome of one setting entry. -/
inductive SetOut where
  | done (s : State)
  | refused (a : Ans)
  | waiting (client : Nat) (s : State)
  deriving DecidableEq, Repr

/-- CLI.n.RUN. -/
def setRun (n v : Nat) (s : State) : SetOut :=
  if n = 0 ∨ 1 < v then .refused (bad 0)
  else
    let c := clientOf s n
    if boolNat c.run = v then
      (if c.preempting ∧ v = 0 then .waiting n s else .done s)
    else if v = 1 then .done (modClient n (fun c => { c with run := true }) s)
    else
      let s := beginPreempt n s
      if preemptDone n s then .done (endPreempt n s) else .waiting n s

/-- CLI.n.QUEUE_STATE (09 R243). -/
def setQueue (n scan seq replyAt replyCount : Nat) (s : State) : SetOut :=
  let c := clientOf s n
  if c.run ∨ scan % 16 ≠ 0 ∨ 65536 ≤ scan ∨ replyAt % 16 ≠ 0 ∨ ringBytes c ≤ replyAt then .refused (bad 0)
  else .done (putClient n { c with scan := scan, seq := seq, replyAt := replyAt, replyCount := replyCount } s)

/-- A meter item: 0 CIR, 1 PIR, 2 CBS, 3 PBS of the command meter, 4 to 7 of the byte meter, 8 COLOUR_AWARE; from the next beat (11 R296, R305). -/
def setMeterItem (n item v : Nat) (s : State) : SetOut :=
  let now := applyMeters (clientOf s n)
  let m := if item < 4 then now.cmd else now.byt
  if (item % 4 = 0 ∧ item < 8 ∧ m.pir ≠ 0 ∧ m.pir < v) ∨ (item % 4 = 1 ∧ v ≠ 0 ∧ v < m.cir) ∨ (item = 8 ∧ 1 < v) then .refused (bad 0)
  else .done (modClient n (fun c => { c with pendingMeters := c.pendingMeters ++ [(item, v)] }) s)

def setClient (n item v : Nat) (s : State) : SetOut :=
  if item = 1 then setRun n v s
  else if item = 2 then setQueue n (bitsOf v 0 32) (bitsOf v 32 32) (bitsOf v 64 32) (bitsOf v 96 32) s
  else if 0x10 ≤ item ∧ item ≤ 0x18 then setMeterItem n (item - 0x10) v s
  else .refused (bad 0)

/-! ### The other groups -/

def inRange (lo hi v : Nat) (f : State → State) (s : State) : SetOut := if lo ≤ v ∧ v ≤ hi then .done (f s) else .refused (bad 0)

def isPow2Between (lo hi v : Nat) : Bool := (List.range 64).any (fun i => v == 2 ^ i && decide (lo ≤ v ∧ v ≤ hi))

def setCad (id v : Nat) (s : State) : SetOut :=
  match id with
  | 0x01000001 => if inRing s then .refused (bad 0) else inRange 0 4 v (changePeriod v) s
  | 0x01000002 => if inRing s then .refused (bad 0) else inRange 0 2 v (changeMode v) s
  | 0x01000003 => if v % 1024 ≠ 0 ∨ 2 ^ 62 ≤ v then .refused (bad 0) else .done { s with cad := { s.cad with beatInit := v } }
  | 0x01000004 => inRange 0 32 v (fun s => { s with cad := { s.cad with numSource := v } }) s
  | 0x01000005 => inRange 0 63 v (setDue id v) s
  | 0x01000006 => inRange 0 0xFFF v (setDue id v) s
  | _ => .refused (bad 0)

def modSet (f : TierSet → TierSet) (s : State) : State := { s with tier := { s.tier with set := f s.tier.set } }

def setTier (id v : Nat) (s : State) : SetOut :=
  let open_ := anySession (fun _ => true) s
  match id with
  | 0x02000001 => inRange 0 256 v (setDue id v) s
  | 0x02000002 => inRange 0 50 v (setDue id v) s
  | 0x02000003 => inRange 0 0xFFFFFFFF v (modSet (fun t => { t with prefetchLead := v })) s
  | 0x02000004 => inRange 0 100 v (modSet (fun t => { t with prefetchFloor := v })) s
  | 0x02000005 => if open_ then .refused (bad 0) else .done (modSet (fun t => { t with journalBase := v, journalHead := 0, journalAck := 0 }) s)
  | 0x02000006 =>
    if open_ ∨ !isPow2Between (2 ^ 20) (2 ^ 30) v then .refused (bad 0)
    else .done (modSet (fun t => { t with journalSize := v, journalHead := 0, journalAck := 0 }) s)
  | 0x02000007 =>
    if !s.tier.set.recalls.isEmpty ∨ v % 4096 ≠ 0 then .refused (bad 0)
    else .done (modSet (fun t => { t with recallBase := v, recallHead := 0, recallTail := 0 }) s)
  | 0x02000008 =>
    if !s.tier.set.recalls.isEmpty ∨ !isPow2Between (2 ^ 20) (2 ^ 30) v then .refused (bad 0)
    else .done (modSet (fun t => { t with recallSize := v, recallHead := 0, recallTail := 0 }) s)
  | 0x02000009 => .done (modSet (fun t => { t with recallBeats := v }) s)
  | 0x0200000A => inRange 1 65535 v (modSet (fun t => { t with ckptHold := v })) s
  | _ => .refused (bad 0)

def setHost (id v : Nat) (s : State) : SetOut :=
  match id with
  | 0x03000001 => inRange 1 65535 v (setDue id v) s
  | 0x03000002 => inRange 0 0xFFFF v (fun s => { s with host := { s.host with slowThreshold := v } }) s
  | 0x05000001 =>
    if anySession (fun _ => true) s ∨ s.host.vfEnable then .refused (bad 0)
    else inRange 0 1 v (fun s => { s with host := { s.host with clientMode := v } }) s
  | 0x05000002 => inRange 0 0xFFFFFFFF v (fun s => { s with host := { s.host with holdBeats := v } }) s
  | 0x06000001 => inRange 0 100 v (fun s => { s with host := { s.host with yellowFloor := v } }) s
  | 0x06000002 => inRange 0 100 v (fun s => { s with host := { s.host with yellowMover := v } }) s
  | 0x07000001 =>
    if 2 < v then .refused (bad 0)
    else if deviceRefusal (devOf v) s then .refused (busy 0xFFFF)
    else .done (changeDevice (devOf v) s)
  | 0x07000002 => inRange 0 1 v (fun s => { s with sup := { s.sup with baseRetain := v == 1 } }) s
  | 0x08000001 => inRange 0 7 v (fun s => { s with evr := { s.evr with floor := v } }) s
  | _ =>
    if 0x08001000 ≤ id ∧ id ≤ 0x08001FFF then
      inRange 0 255 v (fun s => { s with evr := { s.evr with nextLimits := FMap.put s.evr.nextLimits (id - 0x08001000) v } }) s
    else .refused (bad 0)

/-- Applies one setting entry (11 R305). A value whose unused high bytes are not zero is out of range. -/
def setEntry (id v : Nat) (s : State) : SetOut :=
  let g := bitsOf id 24 8
  if 2 ^ 64 ≤ v ∧ ¬ (g = 4 ∧ bitsOf id 0 16 = 2) then .refused (bad 0)
  else if g = 4 then setClient (bitsOf id 16 8) (bitsOf id 0 16) v s
  else if g = 1 then setCad id v s
  else if g = 2 then setTier id v s
  else setHost id v s

/-! ### SET_PARAM (11 R304) -/

/-- Runs the entries from one on; a pre-emption in progress holds the rest (09 R242). -/
def runSettings (o : Origin) (p : Packet) : Nat → Nat → State → State
  | 0, k, s => replyTo o true { status := stOK, detail := k } s
  | fuel + 1, k, s =>
    let off := 0x20 + 24 * k
    match setEntry (paramOf p off 4) (paramOf p (off + 8) 16) s with
    | .done s' => runSettings o p fuel (k + 1) s'
    | .refused a =>
      if k = 0 then replyTo o true (if a.status = stBAD_PARAM then bad off else a) s
      else replyTo o true { status := stPARTIAL, detail := k, count0 := a.status, count1 := off } s
    | .waiting n s' => await (.setParam n) o { s' with host := { s'.host with rests := s'.host.rests ++ [⟨p, n, k + 1⟩] } }

def setParamBody (_ : Nat) (p : Packet) (s : State) : State :=
  let n := argOf p 20 2
  if n = 0 ∨ 255 < n then reply p (bad 0x14) s
  else if 16 * lengthOf p < 40 + 24 * n then reply p { status := stBAD_LENGTH, detail := lengthOf p } s
  else runSettings (originOf p s) p n 0 s

def execSetParam (p : Packet) (s : State) : Host.Outcome State Fault Refusal :=
  .next (serve (opIs 3) never setParamBody p s)

/-- Ends a client's pre-emption and lets each SET_PARAM that waited for it go on. -/
def completePreemption (n : Nat) (s : State) : State :=
  if preemptDone n s then
    let s := endPreempt n s
    let mine := s.host.rests.filter (fun r => r.target == n)
    let s := { s with host := { s.host with rests := s.host.rests.filter (fun r => r.target != n) } }
    mine.foldl (fun s r =>
      match commandOf s (.setParam n) with
      | none => s
      | some c =>
        let s := { s with commands := s.commands.erase c }
        runSettings c.origin r.packet (argOf r.packet 20 2 - r.index) r.index s) s
  else s

/-- CLI.n.RUN set to 0. -/
def execCliRunPreempt (n : Nat) (s : State) : Host.Outcome State Fault Refusal :=
  .next (match setRun n 0 s with | .done s' => s' | .refused _ => s | .waiting _ s' => s')

def execPreemptionComplete (n : Nat) (s : State) : Host.Outcome State Fault Refusal := .next (completePreemption n s)

/-- CLI.n.RUN set to 1. -/
def execCliRunResume (n : Nat) (s : State) : Host.Outcome State Fault Refusal :=
  .next (match setRun n 1 s with | .done s' => s' | .refused _ => s | .waiting _ s' => s')

/-- CLI.n.QUEUE_STATE written. -/
def execQueueStateWrite (n scan seq replyAt replyCount : Nat) (s : State) : Host.Outcome State Fault Refusal :=
  .next (match setQueue n scan seq replyAt replyCount s with | .done s' => s' | .refused _ => s | .waiting _ s' => s')

/-! ### GET_PARAM (11 R306): values in force -/

def getClient (c : Client) (item : Nat) : Option Nat :=
  match item with
  | 1 => some (boolNat c.run)
  | 2 => some (c.scan + c.seq * 2 ^ 32 + c.replyAt * 2 ^ 64 + c.replyCount * 2 ^ 96)
  | 0x10 => some c.cmd.cir | 0x11 => some c.cmd.pir | 0x12 => some c.cmd.cbs | 0x13 => some c.cmd.pbs
  | 0x14 => some c.byt.cir | 0x15 => some c.byt.pir | 0x16 => some c.byt.cbs | 0x17 => some c.byt.pbs
  | 0x18 => some (boolNat c.aware)
  | _ => none

def getSetting (id : Nat) (s : State) : Option Nat :=
  let t := s.tier.set
  match id with
  | 0x01000001 => some s.cad.period
  | 0x01000002 => some s.cad.mode
  | 0x01000003 => some s.cad.beatInit
  | 0x01000004 => some s.cad.numSource
  | 0x01000005 => some s.cad.staggerBeats
  | 0x01000006 => some s.cad.staggerPhase
  | 0x02000001 => some t.t2Reserve
  | 0x02000002 => some t.commonsShare
  | 0x02000003 => some t.prefetchLead
  | 0x02000004 => some t.prefetchFloor
  | 0x02000005 => some t.journalBase
  | 0x02000006 => some t.journalSize
  | 0x02000007 => some t.recallBase
  | 0x02000008 => some t.recallSize
  | 0x02000009 => some t.recallBeats
  | 0x0200000A => some t.ckptHold
  | 0x03000001 => some s.host.slowPeriod
  | 0x03000002 => some s.host.slowThreshold
  | 0x05000001 => some s.host.clientMode
  | 0x05000002 => some s.host.holdBeats
  | 0x06000001 => some s.host.yellowFloor
  | 0x06000002 => some s.host.yellowMover
  | 0x07000001 => some (devRank (s.sup.devTarget.getD s.sup.dev))
  | 0x07000002 => some (boolNat s.sup.baseRetain)
  | 0x08000001 => some s.evr.floor
  | _ =>
    if bitsOf id 24 8 = 4 then getClient (clientOf s (bitsOf id 16 8)) (bitsOf id 0 16)
    else if 0x08001000 ≤ id ∧ id ≤ 0x08001FFF then some (FMap.getD s.evr.nextLimits (id - 0x08001000) 0)
    else none

def getParamBody (_ : Nat) (p : Packet) (s : State) : State :=
  let word := argOf p 24 1
  match getSetting (argOf p 20 4) s with
  | none => reply p (bad 0x14) s
  | some v =>
    if 1 < word then reply p (bad 0x18) s
    else reply p { status := stOK, count0 := bitsOf v (64 * word) 32, count1 := bitsOf v (64 * word + 32) 32 } s

def execGetParam (p : Packet) (s : State) : Host.Outcome State Fault Refusal :=
  .next (serve (opIs 4) never getParamBody p s)

end Sys2Proof.Machine
end

