-- ==== Sys2Proof/Machine/Commands.lean ====
section
/-! DEFINITION. Recognition, PAD, PING, QUERY_DEVICE, STATS_READ and EVENT_SNAPSHOT (11 R281 to R289, R309, R313, R314; 17 R445 to R447; 18 R472). -/

namespace Sys2Proof.Machine

/-- A packet's trailer lands (11 R283). -/
def execPacketRecognise (p : Packet) (s : State) : Host.Outcome State Fault Refusal := .next (recognise p s)

/-- A PAD packet's trailer lands (11 R283). -/
def execPad (p : Packet) (s : State) : Host.Outcome State Fault Refusal := .next (if opcodeOf p = 0 then recognise p s else s)

def execPing (p : Packet) (s : State) : Host.Outcome State Fault Refusal :=
  .next (serve (opIs 1) never (fun _ p s => reply p { status := stOK, count0 := p.client, count1 := (clientOf s p.client).inflight } s) p s)

/-! ### Fenced units (13 R350, 15 R405, 07 R187) -/

def blockKey (district block : Nat) : Nat := district * 16 + block

def blockAt (s : State) (district block : Nat) : Block := FMap.getD s.fab.blocks (blockKey district block) {}

/-- ID of a core or Block in UNIT_FENCE's layout (11 R313). -/
def unitId (key core : Nat) : Nat := key / 16 * 512 + key % 16 * 32 + core

/-- The fenced units, UNIT and ID ascending: cores, Blocks (a Block under partial reset counts), link lanes, HBM channels. -/
def fencedUnits (s : State) : List (Nat × Nat) :=
  let cores := (s.fab.blocks.map (fun e => if e.2.wholeFenced then [] else ((e.2.fenced.filter (fun c => !e.2.pendingFence.any (fun f => f.1 == c))).mergeSort (· ≤ ·)).map (fun c => (1, unitId e.1 c)))).flatten
  let blocks := (s.fab.blocks.filter (fun e => e.2.wholeFenced || e.2.resetting)).map (fun e => (2, unitId e.1 0))
  let lanes := ((s.links.port.map (fun e => e.2.fencedLanes.map (fun l => e.1 + 256 * l))).flatten.mergeSort (· ≤ ·)).map (fun i => (3, i))
  let channels := (s.tier.hbm.filter (fun e => e.2.used != 0)).map (fun e => (4, e.1 * 32 + (e.2.used - 1)))
  cores ++ blocks ++ lanes ++ channels

/-- Logical cores the compiler can schedule (01 R18, R19). -/
def schedulableCores (s : State) : Nat :=
  7680 - 30 * FMap.count (fun _ b => b.wholeFenced || b.resetting) s.fab.blocks

/-! ### QUERY_DEVICE (11 R309) -/

def deviceItems (s : State) : List (Nat × Nat × Nat) :=
  let word (d : Digest) (w : Nat) := bitsOf d.toNat (64 * w) 64
  let up := s.links.port.foldl (fun n e => if e.2.st = .up ∨ e.2.st = .half then n + 2 ^ e.1 else n) 0
  [(1, 0, 0x00481FA7), (2, 0, s.mgmt.fwVersion), (3, 0, if s.comp.inComp then s.comp.index else 0xFFFF), (4, 0, schedulableCores s)]
    ++ (s.cont.partitions.map (fun e => (5, e.1, s.tier.t1Total * 2 ^ 20 / granule e.2)))
    ++ (List.range 12).map (fun c => (6, c, (FMap.getD s.tier.ddr c {}).sizeGiB * 2 ^ 30))
    ++ [(7, 0, up), (8, 0, cadCode s.cad.st), (9, 0, s.sup.profile)]
    ++ (List.range 16).map (fun i => (0x10, i, match partitionAt s i with
        | none => 0
        | some q => q.model + q.mb * 2 ^ 8 + q.places * 2 ^ 16 + q.chunk * 2 ^ 32))
    ++ ((List.range 8).map (fun i => (List.range 8).map (fun w => (0x20, 8 * i + w,
        match FMap.get? s.cont.vocabs i with | none => 0 | some v => word v.digest w)))).flatten
    ++ ((List.range 16).map (fun i => (List.range 8).map (fun w => (0x30, 8 * i + w,
        match FMap.get? s.cont.models i with | none => 0 | some m => word m.measurement w)))).flatten
    ++ [(0x40, 0, (fencedUnits s).length)]

def queryDeviceBody (_ : Nat) (p : Packet) (s : State) : State :=
  let items := (deviceItems s).filter (fun e => decide (argOf p 20 4 ≤ e.1))
  let n := min items.length (min (argOf p 24 4) (roomBytes s (bufLen p 0x20) / 16))
  let next := match (items.drop n).head? with | some e => e.1 | none => 0
  let b := ((items.take n).map (fun e => leBytes 4 e.1 ++ leBytes 4 e.2.1 ++ leBytes 8 e.2.2)).flatten
  reply p { status := stOK, count0 := n, count1 := next } (if b.isEmpty then s else hostWrite p.client (bufAddr p 0x20) 5 b s)

def execQueryDevice (p : Packet) (s : State) : Host.Outcome State Fault Refusal :=
  .next (serve (opIs 2) never queryDeviceBody p s)

/-! ### STATS_READ (11 R314) -/

def deviceCounterBytes (k : DeviceCounters) : Bytes :=
  ([k.steps, k.recognised, k.throttled, k.busy, k.noResource, k.opened, k.parks, k.revives, k.handoversOut, k.handoversIn,
    k.exported, k.imports, k.rebuildsStarted, k.rebuildsDone, k.lost, k.journalBytes].map (leBytes 8)).flatten

def partitionCounterBytes (k : PartitionCounters) : Bytes :=
  ([k.steps, k.passes, k.slips, k.aborts, k.deferrals, k.fallbacks, k.maxSlip, k.verifyPasses, k.draftsVerified, k.draftsAccepted,
    k.deadEnd, k.deadRelax, k.deadHalt, k.relaxed, k.stops, k.forced, k.tokenized, k.replayPasses, k.exactLost, 0].map (leBytes 8)).flatten

/-- The object of a KIND and INDEX; counters as they stood at the last step boundary, or now while no image is active. -/
def statsObject (kind index : Nat) (s : State) : Except Nat Bytes :=
  let live := s.sched.active.isNone
  match kind with
  | 0 => .ok (clientOf s index).slow.latched
  | 1 =>
    match partitionAt s index with
    | none => .error 0x15
    | some q => .ok (partitionCounterBytes (if live then q.counters else q.latched))
  | 2 => if index ≠ 0 then .error 0x15 else .ok (deviceCounterBytes (if live then s.counters else s.latched))
  | 3 => if s.sec.bound then .error 0x14 else if 1 < index then .error 0x15 else .ok s.svc.stopRecord
  | _ => .error 0x14

def statsBody (_ : Nat) (p : Packet) (s : State) : State :=
  let kind := argOf p 20 1
  match statsObject kind (argOf p 21 1) s with
  | .error off => reply p (bad off) s
  | .ok b =>
    if kind = 3 ∧ argOf p 21 1 = 1 then
      reply p ok { s with svc := { s.svc with stopRecord := [], stopDiscarded := true } }
    else if bufLen p 0x20 < writtenBytes s b.length then reply p { status := stBAD_LENGTH, detail := writtenBytes s b.length } s
    else reply p { status := stOK, count0 := writtenBytes s b.length } (hostWrite p.client (bufAddr p 0x20) 5 b s)

def execStatsRead (p : Packet) (s : State) : Host.Outcome State Fault Refusal :=
  .next (serve (opIs 0x71) never statsBody p s)

/-! ### EVENT_SNAPSHOT (17 R445 to R447) -/

/-- A record as stored: header, body, zeros to 16 bytes (17 R437). -/
def recordImage (r : Record) : Bytes :=
  let cells := recordCells r
  let b := leBytes 8 r.seq ++ leBytes 5 (r.stamp % 2 ^ 40)
    ++ leBytes 1 (cells - 1 + 32 * boolNat r.folded + 64 * boolNat r.redacted + 128 * boolNat (bitOf r.stamp 63))
    ++ leBytes 2 (r.code + 4096 * r.severity) ++ r.body
  b ++ List.replicate (16 * cells - b.length) 0

/-- Codes holding a pending count, and their sum. -/
def pendingCodes (s : State) : Nat × Nat :=
  s.evr.codes.foldl (fun a e => if e.2.pending = 0 then a else (a.1 + 1, satAdd 0xFFFFFFFF a.2 e.2.pending)) (0, 0)

def snapshotBody (_ : Nat) (p : Packet) (s : State) : State :=
  let need := writtenBytes s 64
  if bufLen p 0x30 < need then reply p { status := stBAD_LENGTH, detail := need } s
  else if s.evr.snapshot.isSome then reply p (busy (Config.estimate s.cad.beat % 2 ^ 16)) s
  else
    let from_ := paramOf p 0x20 8
    let upto := s.evr.nextSeq - 1
    let n := pendingCodes s
    let snap : Snapshot := ⟨p.client, bufAddr p 0x30, bufLen p 0x30, from_, upto, stamp s,
      (match s.evr.records.head? with | some r => r.seq | none => 0), n.1, n.2,
      s.evr.records.filter (fun r => decide (from_ ≤ r.seq ∧ r.seq ≤ upto)), 0, 0⟩
    await .snapshot (originOf p s) { s with evr := { s.evr with snapshot := some snap } }

def execEventSnapshot (p : Packet) (s : State) : Host.Outcome State Fault Refusal :=
  .next (serve (opIs 0x70) never snapshotBody p s)

/-- Whole entries that fit in the room left, and the first record that does not. -/
def snapshotEntries (room : Nat) : List Record → List Bytes × Option Nat
  | [] => ([], none)
  | r :: rest =>
    let e := leBytes 8 r.stamp ++ recordImage r
    if e.length ≤ room then
      let x := snapshotEntries (room - e.length) rest
      (e :: x.1, x.2)
    else ([], some r.seq)

/-- A snapshot ends: entries, header, reply. -/
def execEventSnapshotDone (s : State) : Host.Outcome State Fault Refusal :=
  .next (match s.evr.snapshot with
    | none => s
    | some n =>
      let x := snapshotEntries (roomBytes s n.len - 64) n.records
      let b := leBytes 4 0x4C4C4953 ++ leBytes 2 1 ++ leBytes 2 0 ++ leBytes 8 n.fromSeq ++ leBytes 8 n.toSeq
        ++ leBytes 8 (x.2.getD (n.toSeq + 1)) ++ leBytes 8 n.now ++ leBytes 4 x.1.length ++ leBytes 4 n.sideLost
        ++ leBytes 4 n.pendingCodes ++ leBytes 4 n.pendingTotal ++ leBytes 8 n.oldest ++ x.1.flatten
      let s := hostWrite n.client n.addr 5 b { s with evr := { s.evr with snapshot := none } }
      finish .snapshot { status := stOK, count0 := x.1.length, count1 := writtenBytes s b.length } s)

end Sys2Proof.Machine
end

