-- ==== Sys2Proof/Machine/ImageChecks.lean ====
section
/-! DEFINITION. The checks of a schedule image (08 R193 to R204, R501 to R504; 05 R133 to R135, R149; 09 R224; 12 R330) and of a plan image (08 R219). -/

namespace Sys2Proof.Machine

/-! ### Check 2: the container -/

def headerOk (img : Image) (kind : Nat) : Bool :=
  img.magic == 0x53484146 && img.version == 1 && img.kind == kind && img.zeroOk
    && decide (1 ≤ img.dir.length ∧ img.dir.length ≤ 256) && decide (64 ≤ img.stepBeats ∧ img.stepBeats ≤ 1048576)
    && decide (img.period ≤ 4) && decide (img.profiles < 16) && decide (1 ≤ img.partitions ∧ img.partitions ≤ 16)
    && decide (1 ≤ img.slipLead ∧ img.slipLead ≤ 0xFFFF) && decide (1 ≤ img.fallbackLead ∧ img.fallbackLead ≤ 1024)

/-- Types that belong to a partition (08 R194). -/
def perPartition (type : Nat) : Bool := type == 1 || type == 7 || type == 8

/-- Where the k-th section of a type stands in the directory. -/
def placeOf (img : Image) (i : Nat) : Nat :=
  match img.dir[i]? with
  | none => 0
  | some e => ((img.dir.take i).filter (fun x => x.type == e.type)).length

def linksBytes (ls : List LinkEntry) : Nat := (ls.map (fun l => 64 + 8 * l.gates.length)).foldl (· + ·) 0

/-- The LENGTH of a FALLBACK section: up to the end of its entries and of the tables they point into (08 R215, R504). -/
def fallbackBytes (fs : List FallbackPlan) : Nat :=
  ((fs.map (fun f => (f.tables.filter (fun t => t.2 != 0)).map (fun t => t.1 + t.2))).flatten).foldl max (16 + 32 * fs.length)

/-- A gate table is the link entries it holds, to its end. -/
def gateTableOk (f : FallbackPlan) : Bool := (f.tables[2]?).any (fun t => t.2 == linksBytes f.links)

/-- The LENGTH of a section, or none where the manual gives no layout (08 R504). -/
def sectionLength (img : Image) (type k : Nat) : Option Nat :=
  match type with
  | 1 => (img.rings[k]?).map (fun r => 192 + 2 * r.members.length)
  | 2 => some (48 * img.slots.length)
  | 3 => some (16 + 32 * img.regions.length)
  | 4 => (img.mprogs[k]?).map (fun m => 64 + 32 * m.functions.length + m.codeBytes)
  | 5 => some (32 * img.transfers.length)
  | 6 => some (linksBytes img.links)
  | 7 => (img.patterns[k]?).map (fun p => 192 + 8 * p.ropeTurns.length + (if p.maskRows = 0 then 0 else p.maskRows * (2 ^ p.maskLog2 / 8)))
  | 9 => some (fallbackBytes img.fallbacks)
  | _ => none

/-- A directory entry and its section's length and reserved fields. -/
def dirEntryOk (img : Image) (i : Nat) (e : DirEntry) : Bool :=
  e.zeroOk && e.sectionZeroOk && decide (1 ≤ e.type ∧ e.type ≤ 9)
    && (if perPartition e.type then decide (e.partition ≤ 15) else e.partition == 0xFF)
    && e.offset % 64 == 0 && decide (64 + 16 * img.dir.length ≤ e.offset) && decide (e.offset + e.length + 64 ≤ img.totalBytes)
    && (match sectionLength img e.type (placeOf img i) with | some n => e.length == n | none => true)
    && (e.type != 9 || img.fallbacks.all gateTableOk)

def dirParts (img : Image) (type : Nat) : List Nat := (img.dir.filter (fun e => e.type == type)).map (fun e => e.partition)

/-- Partitions whose slots carry the TRAIN flag. -/
def trainParts (img : Image) : List Nat := ((img.slots.filter (fun x => bitOf x.flags 5)).map (fun x => x.partition)).eraseDups

def sameSet_ (a b : List Nat) : Bool := a.length == b.length && a.all (fun x => b.contains x) && a.eraseDups.length == a.length

/-- Section counts (08 R504), by type; the first type whose count is wrong. -/
def countFault (img : Image) : Option Nat :=
  let n (t : Nat) := (dirParts img t).length
  let ring := dirParts img 1
  if ¬ (ring.length = img.partitions ∧ ring.eraseDups.length = ring.length ∧ img.rings.length = n 1) then some 1
  else if n 2 ≠ 1 then some 2
  else if n 3 ≠ 1 then some 3
  else if n 4 ≠ 16 ∨ img.mprogs.length ≠ 16 then some 4
  else if n 5 ≠ 1 then some 5
  else if n 6 ≠ 1 then some 6
  else if !sameSet_ (dirParts img 7) ring ∨ img.patterns.length ≠ n 7 then some 7
  else if !sameSet_ (dirParts img 8) (trainParts img) ∨ img.trains.length ≠ n 8 ∨ !(dirParts img 8).all (fun p => ring.contains p) then some 8
  else if 1 < n 9 then some 9
  else none

/-- Directory indices of a type. -/
def sectionIndex (img : Image) (type k : Nat) : Nat :=
  (((img.dir.zipIdx).filter (fun e => e.1.type == type)).map (fun e => e.2)).getD k 0

def containerFault (img : Image) (kind : Nat) : Option Ans :=
  if !headerOk img kind then some (bad 0)
  else match (img.dir.zipIdx).find? (fun e => !dirEntryOk img e.2 e.1) with
  | some e => some (bad (0x1000 + e.2))
  | none => (countFault img).map (fun t => bad (0x2000 + t))

/-! ### Check 4: rings (08 R195, 09 R224) -/

def layerSlots (img : Image) (part : Nat) : List SlotEntry := img.slots.filter (fun x => x.lane == 0 && x.partition == part)
def samplingSlots (img : Image) (part : Nat) : List SlotEntry := img.slots.filter (fun x => x.lane == 1 && x.partition == part)

/-- The conditions of 09 R224 that the device's own image shows. -/
def ringSlotsOk (img : Image) (r : RingSection) (q : Partition) : Bool :=
  let layers := layerSlots img r.partition
  let samples := samplingSlots img r.partition
  let mbs := List.range q.mb
  layers.all (fun x => decide (x.microbatch < q.mb)) && mbs.all (fun m => layers.any (fun x => x.microbatch == m))
    && layers.all (fun x => layers.all (fun y => x.microbatch != y.microbatch || (x.qpos == y.qpos && x.keys == y.keys && x.pairs == y.pairs)))
    && ((trainParts img).contains r.partition ||
      (if r.position + 1 = r.members.length then
        samples.length == q.mb && mbs.all (fun m => match samples.filter (fun x => x.microbatch == m) with
          | [x] => layers.all (fun y => y.microbatch != m || decide (y.start + y.beats ≤ x.start))
          | _ => false)
      else samples.isEmpty))

def ringOk_ (s : State) (img : Image) (r : RingSection) : Bool :=
  match partitionAt s r.partition with
  | none => false
  | some q =>
    (match FMap.get? s.cont.models q.model with | some m => m.measurement == r.modelDigest | none => false)
      && r.members[r.position]? == some (ownIndex s) && decide (1 ≤ r.members.length ∧ r.members.length ≤ 1024)
      && r.position == q.position && r.firstLayer == q.firstLayer && r.layers == q.layers && ringSlotsOk img r q

/-! ### Check 6: patterns and microprograms -/

/-- Global ranges in order, apart, and small enough (05 R134). -/
def rangesOk : Nat → Nat → List (Nat × Nat) → Bool
  | _, total, [] => decide (total ≤ 1024)
  | from_, total, g :: rest => decide (from_ ≤ g.1) && decide (1 ≤ g.2) && decide (g.1 + g.2 ≤ 2 ^ 32) && rangesOk (g.1 + g.2) (total + g.2) rest

def patternOk (s : State) (x : Pattern) : Bool :=
  match partitionAt s x.partition with
  | none => false
  | some q =>
    (x.window == 0 || decide (2 ≤ x.window ∧ x.window ≤ 16777216)) && decide (x.globals.length ≤ 16) && rangesOk 0 0 x.globals
      && decide (x.maskRows ≤ 8) && x.masks.length == x.maskRows
      && (if x.maskRows = 0 then x.maskLog2 == 0 else decide (6 ≤ x.maskLog2 ∧ x.maskLog2 ≤ 16))
      && x.masks.all (fun m => m.length == 2 ^ x.maskLog2 && m.headD false)
      && decide (x.ropePairing ≤ 1) && decide (2 * x.ropeTurns.length ≤ q.headDim) && decide (1 ≤ x.qPerKv ∧ x.qPerKv ≤ 16)
      && x.maskMap.all (fun m => decide (m ≤ x.maskRows)) && (x.maskMap.drop q.kvHeads).all (· == 0)
      && ((patternOf s x.partition).isNone || patternOf s x.partition == some x || !partitionHeld s x.partition)

/-- Configured operation codes of 07 R181. -/
def knownOp (k : Nat) : Bool :=
  decide (1 ≤ k ∧ k ≤ 0x0A) || decide (0x10 ≤ k ∧ k ≤ 0x1B) || decide (0x20 ≤ k ∧ k ≤ 0x25) || decide (0x28 ≤ k ∧ k ≤ 0x2D) || decide (0x30 ≤ k ∧ k ≤ 0x3E)

/-- A pair code names the formats 0 to 7 of a pair of 06 R152: a block-aligned pair in either order, a term-aligned pair as the table has it. -/
def pairCodeOk (c : Nat) : Bool :=
  let a := c % 16
  let b := c / 16
  decide (c < 256) && decide (a ≤ 7) && decide (b ≤ 7) && pairAllowed a b

def mprogOk (i : Nat) (m : Mprog) : Bool :=
  m.district == i && decide (m.functions.length ≤ 48) && decide (m.codeBytes ≤ 32768)
    && (m.functions.map (fun f => f.id)).eraseDups.length == m.functions.length
    && m.functions.all (fun f => decide (1 ≤ f.codeLength) && decide (f.codeOffset + f.codeLength ≤ m.codeBytes)
        && (List.range 64).all (fun k => !bitOf f.ops k || knownOp k) && decide (f.pairs.length ≤ 8) && f.pairs.all pairCodeOk)

/-- The limits of 05 R149 on what an image trains: Q, K, V and output projections, ranks, the two optimizers. -/
def trainOk (t : Train) : Bool := decide (t.optimizer ≤ 1) && t.adapters.all (fun a => decide (1 ≤ a.rank ∧ a.rank ≤ 64) && decide (a.projection ≤ 3))

/-! ### Check 7: slots and regions (08 R199, R501, R502) -/

/-- Arrival margin of a CROSS slot in beats; none when a transfer uses a link LINKS does not name. -/
def arrivalMargin (img : Image) (x : SlotEntry) : Option Nat :=
  let ts := img.transfers.filter (fun t => t.slotId == x.id)
  if ts.any (fun t => (img.links.find? (fun l => l.link == t.link)).isNone) then none
  else
    let units := ts.map (fun t => match img.links.find? (fun l => l.link == t.link) with | some l => declaredBudget img.period l.maxDelay | none => 0)
    some (ceilDiv (units.foldl max 0) 4096)

def sortedSlots : List SlotEntry → Bool
  | x :: y :: rest => (decide (x.start < y.start) || (x.start == y.start && decide (x.id < y.id))) && sortedSlots (y :: rest)
  | _ => true

/-- One slot entry against 08 R196 and R199. -/
def slotOk (img : Image) (x : SlotEntry) : Bool :=
  let active := img.stepBeats - img.windowBeats
  let commit := x.commitBeat * 4096 + x.commitPhase
  let incoming := (img.transfers.filter (fun t => t.slotId == x.id && (t.dir == 1 || t.dir == 2))).map (fun t => t.consumeBeat % img.stepBeats * 4096 + t.consumePhase)
  decide (x.lane ≤ 3) && decide (x.commitPhase < 4096)
    && (if x.lane ≤ 1 then
        decide (x.partition ≤ 15) && decide (x.start + x.beats ≤ active) && decide (commit + img.slipLead ≤ x.beats * 4096)
      else
        x.partition == 0xFF && x.rerunBeats == 0 && x.commitBeat == x.beats && x.commitPhase == 0
          && decide (x.start + x.beats ≤ (if x.lane = 2 then img.stepBeats else active)))
    && (x.microbatch == 0xFF || decide (x.microbatch ≤ 15))
    && (x.lane == 0 || (x.qpos == 0 && x.keys == 0 && x.pairs == 0))
    && (bitOf x.flags 1 || x.abortLead == 0)
    && (!bitOf x.flags 1 || incoming.all (fun c => decide (c + x.abortLead * 4096 ≤ x.start * 4096 + commit)))
    && (!bitOf x.flags 0 || (match arrivalMargin img x with | some m => decide (x.beats + m ≤ img.windowBeats) | none => false))

def slotsOk (img : Image) : Bool :=
  decide (ceilDiv img.stepBeats 20 ≤ img.windowBeats) && decide (img.windowBeats ≤ img.stepBeats)
    && decide (img.plazaOffset + img.plazaBeats ≤ img.stepBeats - img.windowBeats)
    && (img.slots.map (fun x => x.id)).eraseDups.length == img.slots.length && sortedSlots img.slots && img.slots.all (slotOk img)

def slotById (img : Image) (id : Nat) : Option SlotEntry := img.slots.find? (fun x => x.id == id)

/-- Lifetime of a region as spans of phase units within the step (08 R502). -/
def lifetime (img : Image) (r : Region) : List (Nat × Nat) :=
  match slotById img r.firstSlot, slotById img r.lastSlot with
  | some a, some b =>
    let l := img.stepBeats * 4096
    let begin_ := if r.kind = 1 then a.start * 4096 + a.commitBeat * 4096 + a.commitPhase else a.start * 4096
    let end_ := match r.kind with
      | 0 => a.start * 4096 + a.commitBeat * 4096 + a.commitPhase
      | 2 => l
      | _ => (b.start + b.beats) * 4096
    if bitOf r.flags 0 then [(begin_, l), (0, end_)] else [(begin_, end_)]
  | _, _ => []

def apart (a b : List (Nat × Nat)) : Bool := a.all (fun x => b.all (fun y => decide (x.2 ≤ y.1 ∨ y.2 ≤ x.1)))

/-- LAND opens before the first frame of every transfer that names it. -/
def landInTime (img : Image) (i : Nat) (r : Region) : Bool :=
  match slotById img r.firstSlot with
  | none => false
  | some a => (img.transfers.filter (fun t => t.region == i)).all (fun t =>
      decide (a.start * 4096 + (t.frames - 1) * phaseUnitsAt img.period (serialPs false 4096) ≤ t.launchBeat * 4096 + t.launchPhase))

def regionOk (img : Image) (i : Nat) (r : Region) : Bool :=
  let uses (id : Nat) : Bool := match slotById img id with | some x => bitOf x.districts r.district | none => false
  let mirrors := (img.regions.zipIdx).filter (fun e => e.1.kind == 1 && bitOf e.1.flags 1 && e.1.mirror == i)
  decide (r.district ≤ 15) && decide (r.block ≤ 15) && decide (r.kind ≤ 5) && decide (r.flags < 4) && r.offset % 64 == 0
    && r.length % 64 == 0 && decide (64 ≤ r.length) && decide (r.offset + r.length ≤ 2097152) && uses r.firstSlot && uses r.lastSlot
    && (decide (r.kind = 1 ∨ r.kind = 2) || r.lastSlot == r.firstSlot) && (r.kind != 2 || landInTime img i r)
    && (if r.kind = 1 then
        (match img.regions[r.mirror]? with
        | none => false
        | some m => m.kind == 1 && m.mirror == i && bitOf m.flags 1 != bitOf r.flags 1 && m.district / 4 == r.district / 4
            && (m.district != r.district || m.block != r.block) && m.length == r.length && m.firstSlot == r.firstSlot && m.lastSlot == r.lastSlot
            && bitOf m.flags 0 == bitOf r.flags 0)
          && (bitOf r.flags 1 || mirrors.length == 1)
      else r.mirror == 0xFFFFFFFF && !bitOf r.flags 1)

def regionsOk (img : Image) : Bool :=
  let rs := img.regions.zipIdx
  rs.all (fun e => regionOk img e.2 e.1)
    && rs.all (fun e => rs.all (fun f => e.2 == f.2 || e.1.district != f.1.district || e.1.block != f.1.block
      || decide (e.1.offset + e.1.length ≤ f.1.offset ∨ f.1.offset + f.1.length ≤ e.1.offset) || apart (lifetime img e.1) (lifetime img f.1)))

/-! ### Fallback plans applied to an image (08 R215, R216) -/

def replaceSlots (new old : List SlotEntry) : List SlotEntry := old.map (fun x => (new.find? (fun y => y.id == x.id)).getD x)
def replaceTransfers (new old : List Transfer) : List Transfer := old.map (fun x => (new.find? (fun y => y.id == x.id)).getD x)
def replaceLinks (new old : List LinkEntry) : List LinkEntry :=
  old.map (fun x => match new.find? (fun y => y.link == x.link) with | some y => { x with gates := y.gates } | none => x)

def withPlan (img : Image) (f : FallbackPlan) : Image :=
  { img with slots := replaceSlots f.slots img.slots, transfers := replaceTransfers f.transfers img.transfers, links := replaceLinks f.links img.links }

/-! ### Check 9: links (02 R56; 12 R330) -/

def linkUp (s : State) (l : Nat) : Bool := (linkAt s l).st == .up || (linkAt s l).st == .half

/-- Bytes per beat of a port with two lanes. -/
def halfRate (period : Nat) : Nat := 50000 * 2 ^ period

def gatesFrom (l : Nat) : List GateEntry → Bool
  | a :: b :: rest => decide (a.beat * 4096 + a.phase < b.beat * 4096 + b.phase) && decide (b.beat < l) && gatesFrom l (b :: rest)
  | _ => true

/-- Spans in which a gate bit stays open, from the entries in order. -/
def openSpans (l bit : Nat) : Option Nat → List GateEntry → List (Nat × Nat)
  | none, [] => []
  | some a, [] => [(a, l * 4096)]
  | none, g :: rest => openSpans l bit (if bitOf g.gates bit then some (g.beat * 4096 + g.phase) else none) rest
  | some a, g :: rest => if bitOf g.gates bit then openSpans l bit (some a) rest else (a, g.beat * 4096 + g.phase) :: openSpans l bit none rest

def linkEntryOk (img : Image) (e : LinkEntry) : Bool :=
  decide (e.gates.length ≤ 64) && (match e.gates with | [] => true | g :: _ => g.beat == 0 && g.phase == 0) && gatesFrom img.stepBeats e.gates
    && [1, 2, 3].all (fun b => (openSpans img.stepBeats b none e.gates).all (fun x => decide (2 * phaseUnitsAt img.period (serialPs true 4096) ≤ x.2 - x.1)))
    && decide (e.ctrlIdle + e.migrIdle ≤ halfRate img.period)
    && decide (0 ≤ e.ctrlHi ∧ e.ctrlLo ≤ 0 ∧ 0 ≤ e.migrHi ∧ e.migrLo ≤ 0)

/-- The slot that launches a transfer has the CROSS_STEP flag (08 R196). -/
def crossSlot (img : Image) (t : Transfer) : Bool := (slotById img t.slotId).any (fun x => bitOf x.flags 6)

/-- The fields of a transfer lie in their ranges (08 R197): its id stands once, a send or a receive names a region of kind ACT or LAND, and a send is consumed past L only from a CROSS_STEP slot. DEDUCED (log entry 99): no check of 08 R201 names these ranges; they are refused with the transfer at check 9. -/
def transferFieldsOk (img : Image) (t : Transfer) : Bool :=
  ((img.transfers.filter (fun u => u.id == t.id)).length == 1) && decide (t.link ≤ 31) && decide (t.dir ≤ 3)
    && decide (t.launchPhase < 4096) && decide (t.consumePhase < 4096)
    && (decide (2 ≤ t.dir) || (img.regions[t.region]?).any (fun r => r.kind == 1 || r.kind == 2))
    && (t.dir != 0 || decide (t.consumeBeat ≤ img.stepBeats) || crossSlot img t)

/-- A transfer meets its budget under the current calibration; the launch of a CROSS_STEP transfer, one consumed past its own step, is taken WINDOW_BEATS later. -/
def transferOk (s : State) (img : Image) (t : Transfer) : Bool :=
  let cross : Bool := decide (img.stepBeats ≤ t.consumeBeat)
  let launch := (t.launchBeat + (if cross then img.windowBeats else 0)) * 4096 + t.launchPhase
  let last := if t.frames = 0 then 0 else t.bytes - (t.frames - 1) * 4096
  transferFieldsOk img t && linkUp s t.link && decide (launch + budgetUnits s t.link (t.dir == 1 || t.dir == 2) last ≤ t.consumeBeat * 4096 + t.consumePhase)

/-- The lowest link that fails check 9. -/
def linkFault (s : State) (img : Image) : Option Nat :=
  let named := img.transfers.map (fun t => t.link) ++ img.links.map (fun e => e.link)
  let fails (l : Nat) : Bool :=
    img.transfers.any (fun t => t.link == l && !transferOk s img t)
      || img.links.any (fun e => e.link == l && (!linkEntryOk img e || (e.gates.any (fun g => bitOf g.gates 0) && !linkUp s l)
          || decide ((e.maxDelay : Int) < delayOut s l)))
  ((named.mergeSort (· ≤ ·)).find? fails)

/-! ### Check 8 -/

/-- Blocks an image names in a District (08 R503). -/
def namedBlocks (img : Image) (d : Nat) : List Nat :=
  (List.range 16).filter (fun b => (img.mprogs.any (fun m => m.district == d && bitOf m.blocks b)) || img.regions.any (fun r => r.district == d && r.block == b))

def districtFault (s : State) (img : Image) : Option Nat :=
  (List.range 16).find? (fun d => img.mprogs.any (fun m => m.district == d && (bitOf m.cores 30 || bitOf m.cores 31))
    || (namedBlocks img d).any (fun b => (blockAt s d b).wholeFenced || (blockAt s d b).resetting))

/-! ### Check 10 (08 R203) -/

def activateOk (s : State) (img : Image) (at_ : Nat) : Bool :=
  let l := match s.sched.active with | some a => a.stepBeats | none => img.stepBeats
  (match s.sched.active with | some a => decide (a.anchor ≤ at_) && (at_ - a.anchor) % a.stepBeats == 0 | none => true)
    && decide (img.anchor ≤ at_) && (at_ - img.anchor) % img.stepBeats == 0 && decide (nowPhase s + 2 * l * phasesPerBeat ≤ at_ * phasesPerBeat)

/-! ### All checks in order (08 R201) -/

/-- Checks 4 to 9, after the container and the digest. -/
def contentFault (s : State) (img : Image) : Option Ans :=
  match (img.rings.zipIdx).find? (fun e => !ringOk_ s img e.1) with
  | some e => some { status := stSHAPE_MISMATCH, detail := sectionIndex img 1 e.2 }
  | none =>
  if img.period ≠ s.cad.period ∨ !bitOf img.profiles s.sup.profile then some (bad 0xFFFF)
  else match (img.dir.zipIdx).find? (fun e =>
      (e.1.type == 7 && !((img.patterns[placeOf img e.2]?).any (patternOk s)))
        || (e.1.type == 8 && !((img.trains[placeOf img e.2]?).any trainOk))
        || (e.1.type == 4 && !((img.mprogs[placeOf img e.2]?).any (mprogOk (placeOf img e.2))))) with
  | some e => some (bad e.2)
  | none =>
  if !slotsOk img then some (bad (sectionIndex img 2 0))
  else if !regionsOk img then some (bad (sectionIndex img 3 0))
  else if img.fallbacks.any (fun f => f.planId == 0 || !decide (1 ≤ f.kind ∧ f.kind ≤ 3) || !slotsOk (withPlan img f)) then some (bad (sectionIndex img 9 0))
  else match districtFault s img with
  | some d => some (noResource (0x100 + d))
  | none =>
  match linkFault s img with
  | some l => some (bad l)
  | none => none

/-- Checks 1 to 10 of a schedule image. -/
def imageFault (s : State) (img : Image) (at_ : Nat) : Option Ans :=
  if img.facts.delivered ≠ img.totalBytes then some { status := stBAD_LENGTH }
  else match containerFault img 0 with
  | some a => some a
  | none =>
  if img.facts.digest ≠ img.facts.trailer then some { status := stDIGEST_FAIL }
  else match contentFault s img with
  | some a => some a
  | none => if activateOk s img at_ then none else some (bad 0x20)

/-! ### Plan images (08 R219) -/

/-- The state a role image is checked against: its role's position, layers and model in place of the partition's (16 R436). -/
def withRole (s : State) (role : Image) : State :=
  role.rings.foldl (fun s r =>
    match partitionAt s r.partition with
    | none => s
    | some q =>
      let m := ((s.cont.models.find? (fun e => e.2.measurement == r.modelDigest)).map (fun e => e.1)).getD q.model
      let q' : Partition := { q with position := r.position, firstLayer := r.firstLayer, layers := r.layers, model := m }
      { s with cont := { s.cont with partitions := FMap.put s.cont.partitions r.partition q' } }) s

/-- Bytes of a SHRINK section (08 R219). -/
def shrinkBytes (p : PlanImage) : Nat := 128 + 2 * p.ringSize + 16 * p.roleDir.length

/-- The directory of a plan image: one SHRINK section of the length its fields give (08 R504), with one to four roles. -/
def planDirFault (p : PlanImage) : Option Ans :=
  match (p.head.dir.zipIdx).find? (fun e => !(e.1.zeroOk && e.1.sectionZeroOk && e.1.type == 10 && e.1.partition == 0xFF && e.1.offset % 64 == 0
      && decide (64 + 16 * p.head.dir.length ≤ e.1.offset) && decide (e.1.offset + e.1.length + 64 ≤ p.head.totalBytes)
      && e.1.length == shrinkBytes p && decide (1 ≤ p.roles.length ∧ p.roles.length ≤ 4))) with
  | some e => some (bad (0x1000 + e.2))
  | none => if p.head.dir.length = 1 then none else some (bad (0x2000 + 10))

/-- Role images name the old members without the position lost, where the plan's base is the active image. -/
def rolesFit (s : State) (p : PlanImage) : Bool :=
  match s.sched.active with
  | none => true
  | some img =>
    if img.facts.trailer ≠ p.base then true
    else match img.rings.find? (fun r => r.ringId == p.ringId) with
      | none => false
      | some r => (p.roleFor.zipIdx).all (fun e => e.1 == 0xFFFF ||
          (match p.roles[e.1]? with
          | none => false
          | some role => role.rings.any (fun x => x.members == r.members.eraseIdx e.2)))

/-- Checks 1 to 3 of a role image. -/
def roleFault (img : Image) : Option Ans :=
  if img.facts.delivered ≠ img.totalBytes then some { status := stBAD_LENGTH }
  else match containerFault img 0 with
  | some a => some a
  | none => if img.facts.digest ≠ img.facts.trailer then some { status := stDIGEST_FAIL } else none

def planFault (s : State) (p : PlanImage) : Option Ans :=
  if p.facts.delivered ≠ p.head.totalBytes then some { status := stBAD_LENGTH }
  else if !headerOk p.head 1 then some (bad 0)
  else match planDirFault p with
  | some a => some a
  | none =>
  if p.facts.digest ≠ p.facts.trailer then some { status := stDIGEST_FAIL }
  else match p.roles.findSome? (fun r => match roleFault r with | some a => some a | none => contentFault (withRole s r) r) with
  | some a => some a
  | none => if rolesFit s p then none else some { status := stSHAPE_MISMATCH, detail := 0 }

end Sys2Proof.Machine
end

