-- ==== Sys2Proof/Machine/Keccak.lean ====
section
/-! DEFINITION. SHAKE256 of FIPS 202, which the spec names for every digest (08 R198; 10 R254; 12 R333; 13 R350; 15 R410; 16 R424). The sponge's state is one number of 1,600 bits: lane (x, y) at bit 64 (x + 5 y). -/

namespace Sys2Proof.Machine

/-- `f` of a number that is evaluated first. -/
def withNat (n : Nat) (f : Nat → Nat) : Nat := match n with | 0 => f 0 | k + 1 => f (k + 1)

/-- The same 320 bits in each of the five planes; the same 64 bits in each of a plane's five lanes. -/
def everyPlane (v : Nat) : Nat := v * (1 + 2 ^ 320 + 2 ^ 640 + 2 ^ 960 + 2 ^ 1280)
def everyLane (v : Nat) : Nat := v * (1 + 2 ^ 64 + 2 ^ 128 + 2 ^ 192 + 2 ^ 256)

def planeOnes : Nat := 2 ^ 320 - 1

/-- The parity of every column, as a plane. -/
def parityPlane (a : Nat) : Nat := (a ^^^ a >>> 320 ^^^ a >>> 640 ^^^ a >>> 960 ^^^ a >>> 1280) &&& planeOnes

/-- A plane with its lanes one place up, with wrap. -/
def lanesUp (c : Nat) : Nat := ((c <<< 64) &&& planeOnes) ||| c >>> 256

/-- A plane with its lanes one place down, with wrap. -/
def lanesDown (c : Nat) : Nat := c >>> 64 ||| ((c <<< 256) &&& planeOnes)

/-- Every lane of a plane turned left by one bit. -/
def turnLanes (c : Nat) : Nat := ((c &&& everyLane (2 ^ 63 - 1)) <<< 1) ||| ((c >>> 63) &&& everyLane 1)

/-- Theta. -/
def thetaStep (a : Nat) : Nat :=
  withNat (parityPlane a) (fun c => a ^^^ everyPlane (lanesUp c ^^^ turnLanes (lanesDown c)))

/-- The lane that comes to each place in the rho and pi steps, and the turn it makes. -/
def rhoPiMoves : List (Nat × Nat) :=
  [(0, 0), (6, 44), (12, 43), (18, 21), (24, 14), (3, 28), (9, 20), (10, 3), (16, 45), (22, 61), (1, 1), (7, 6), (13, 25)]
  ++ [(19, 8), (20, 18), (4, 27), (5, 36), (11, 10), (17, 15), (23, 56), (2, 62), (8, 55), (14, 39), (15, 41), (21, 2)]

/-- Rho and pi: lanes turn and move, the last place first. -/
def moveLanes (a : Nat) : List (Nat × Nat) → Nat
  | [] => 0
  | m :: rest =>
    withNat ((a >>> (64 * m.1)) &&& (2 ^ 64 - 1)) (fun l =>
      withNat (((l <<< m.2) &&& (2 ^ 64 - 1)) ||| l >>> (64 - m.2)) (fun l => l + 2 ^ 64 * moveLanes a rest))

/-- Every lane takes the one `k` places after it in its plane. -/
def rowShift (k a : Nat) : Nat :=
  ((a >>> (64 * k)) &&& everyPlane (2 ^ (64 * (5 - k)) - 1)) ||| ((a &&& everyPlane (2 ^ (64 * k) - 1)) <<< (64 * (5 - k)))

/-- Chi. -/
def chiStep (a : Nat) : Nat := a ^^^ (((2 ^ 1600 - 1) ^^^ rowShift 1 a) &&& rowShift 2 a)

/-- Round constants of iota. -/
def iotaConstants : List Nat :=
  [0x0000000000000001, 0x0000000000008082, 0x800000000000808A, 0x8000000080008000, 0x000000000000808B, 0x0000000080000001,
   0x8000000080008081, 0x8000000000008009, 0x000000000000008A, 0x0000000000000088, 0x0000000080008009, 0x000000008000000A]
  ++ [0x000000008000808B, 0x800000000000008B, 0x8000000000008089, 0x8000000000008003, 0x8000000000008002, 0x8000000000000080,
   0x000000000000800A, 0x800000008000000A, 0x8000000080008081, 0x8000000000008080, 0x0000000080000001, 0x8000000080008008]

/-- Rounds with the given constants. -/
def keccakRounds : List Nat → Nat → Nat
  | [], a => a
  | rc :: rest, a =>
    withNat (thetaStep a) (fun a => withNat (moveLanes a rhoPiMoves) (fun a => withNat (chiStep a ^^^ rc) (fun a => keccakRounds rest a)))

/-- Absorbs blocks of 136 bytes. -/
def absorbAll : Nat → Nat → Bytes → Nat
  | 0, a, _ => a
  | n + 1, a, b =>
    withNat (leNat (b.take 136)) (fun m => withNat (keccakRounds iotaConstants (a ^^^ m)) (fun a => absorbAll n a (b.drop 136)))

/-- A message with its padding: the suffix 1111, then 1, zeros and 1 to whole blocks. -/
def padMessage (b : Bytes) : Bytes :=
  let z := 135 - b.length % 136
  if z = 0 then b ++ [0x9F] else b ++ [0x1F] ++ List.replicate (z - 1) 0 ++ [0x80]

/-- The SHAKE256 digest, 512 bits, of a byte string; its first byte is the least significant. -/
def shake256 (b : Bytes) : Digest := BitVec.ofNat 512 (absorbAll (b.length / 136 + 1) 0 (padMessage b))

end Sys2Proof.Machine
end

