-- ==== Sys2Proof/Machine/ImageRead.lean ====
section
/-! DEFINITION. The objects software delivers, read field by field from their bytes, little-endian (00 R7): schedule and plan images (08 R192 to R198, R215, R219, R502, R503; 05 R133; 12 R325, R328), vocabulary images (10 R254), composition maps (12 R333), firmware images (15 R410), tenant policies (13 R353). Every field is read whatever it holds; the checks come after. -/

namespace Sys2Proof.Machine

/-- Consecutive fields of one width. -/
def fieldsAt (b : Bytes) (off width n : Nat) : List Nat := (List.range n).map (fun i => fieldAt b (off + width * i) width)

/-- Length, digest over every byte before a trailer of 64 bytes, and the trailer. -/
def objectFacts (b : Bytes) : ObjectFacts :=
  ⟨b.length, shake256 (b.take (b.length - 64)), BitVec.ofNat 512 (fieldAt b (b.length - 64) 64)⟩

/-! ### The container (08 R193, R194) -/

def readDirEntry (b : Bytes) (i : Nat) : DirEntry :=
  let e := (b.drop (64 + 16 * i)).take 16
  { type := fieldAt e 0 2, partition := fieldAt e 2 1, offset := fieldAt e 4 4, length := fieldAt e 8 4
    zeroOk := zeroSpan e 3 1 && zeroSpan e 12 4, sectionZeroOk := true }

def readDir (b : Bytes) : List DirEntry := (List.range (fieldAt b 6 2)).map (readDirEntry b)

def sectionBytes (b : Bytes) (e : DirEntry) : Bytes := (b.drop e.offset).take e.length

/-! ### Sections -/

/-- RING (08 R195), of the partition its directory entry names. -/
def readRing (part : Nat) (x : Bytes) : RingSection :=
  { partition := part, ringId := fieldAt x 0 8, position := fieldAt x 10 2, firstLayer := fieldAt x 12 2, layers := fieldAt x 14 2
    modelDigest := BitVec.ofNat 512 (fieldAt x 32 64), orderDigest := fieldAt x 96 32, ringDigest := fieldAt x 128 32
    members := (fieldsAt x 192 2 (fieldAt x 8 2)).map (fun m => m % 4096) }

def ringZeros (x : Bytes) : Bool := zeroSpan x 16 16 && zeroSpan x 160 32 && (fieldsAt x 192 2 (fieldAt x 8 2)).all (fun m => decide (m < 4096))

/-- A slot entry (08 R196). -/
def readSlot (x : Bytes) : SlotEntry :=
  { id := fieldAt x 0 2, lane := fieldAt x 2 1, partition := fieldAt x 3 1, start := fieldAt x 4 4, beats := fieldAt x 8 2
    rerunBeats := fieldAt x 10 2, commitBeat := fieldAt x 12 2, commitPhase := fieldAt x 14 2 % 4096, flags := fieldAt x 16 1
    microbatch := fieldAt x 17 1, layer := fieldAt x 18 1, abortLead := fieldAt x 20 2, districts := fieldAt x 22 2
    qpos := fieldAt x 24 4, keys := fieldAt x 28 4, pairs := fieldAt x 32 8 }

def slotZeros (x : Bytes) : Bool := decide (fieldAt x 14 2 < 4096) && decide (fieldAt x 16 1 < 128) && zeroSpan x 19 1 && zeroSpan x 40 8

/-- A transfer entry (08 R197). -/
def readTransfer (x : Bytes) : Transfer :=
  { id := fieldAt x 0 2, link := fieldAt x 2 1, dir := fieldAt x 3 1, slotId := fieldAt x 4 2, peer := fieldAt x 6 2
    launchBeat := fieldAt x 8 4, launchPhase := fieldAt x 12 2, frames := fieldAt x 14 2, consumeBeat := fieldAt x 16 4
    consumePhase := fieldAt x 20 2, bytes := fieldAt x 24 4, region := fieldAt x 28 2, alt := fieldAt x 30 2 }

def transferZeros (x : Bytes) : Bool := zeroSpan x 22 2

/-- Entries of one size. -/
def entriesOf (x : Bytes) (off size n : Nat) : List Bytes := (List.range n).map (fun i => (x.drop (off + size * i)).take size)

/-- A region entry (08 R502). -/
def readRegionEntry (x : Bytes) : Region :=
  { district := fieldAt x 0 1, block := fieldAt x 1 1, kind := fieldAt x 2 1, flags := fieldAt x 3 1, offset := fieldAt x 4 4
    length := fieldAt x 8 4, firstSlot := fieldAt x 12 2, lastSlot := fieldAt x 14 2, mirror := fieldAt x 16 4 }

def regionZeros (x : Bytes) : Bool := decide (fieldAt x 3 1 < 4) && zeroSpan x 20 12

/-- A function entry and an MPROG section (08 R503). -/
def readFn (x : Bytes) : MprogFn :=
  { id := fieldAt x 0 2, codeOffset := fieldAt x 4 4, codeLength := fieldAt x 8 4, ops := fieldAt x 16 8, pairs := fieldsAt x 24 1 (fieldAt x 2 1) }

def fnZeros (x : Bytes) : Bool := zeroSpan x 3 1 && zeroSpan x 12 4 && zeroSpan x (24 + fieldAt x 2 1) (8 - fieldAt x 2 1)

def readMprog (x : Bytes) : Mprog :=
  let n := fieldAt x 2 2
  { district := fieldAt x 0 1, codeBytes := fieldAt x 4 4, code := (x.drop (64 + 32 * n)).take (fieldAt x 4 4), blocks := fieldAt x 8 2
    cores := fieldAt x 12 4, functions := (entriesOf x 64 32 n).map readFn }

def mprogZeros (x : Bytes) : Bool := zeroSpan x 1 1 && zeroSpan x 10 2 && zeroSpan x 16 48 && (entriesOf x 64 32 (fieldAt x 2 2)).all fnZeros

/-- A gate entry (12 R325). -/
def readGate (x : Bytes) : GateEntry := { beat := fieldAt x 0 4, phase := fieldAt x 4 2 % 4096, gates := fieldAt x 6 1, partition := fieldAt x 7 1 }

def gateZeros (x : Bytes) : Bool := decide (fieldAt x 4 2 < 4096) && decide (fieldAt x 6 1 < 32)

/-- A link entry with its gate list (12 R328). -/
def readLink (x : Bytes) : LinkEntry :=
  { link := fieldAt x 0 1, maxDelay := fieldAt x 4 4, ctrlIdle := fieldAt x 8 4, migrIdle := fieldAt x 12 4
    ctrlHi := signedOf 32 (fieldAt x 16 4), ctrlLo := signedOf 32 (fieldAt x 20 4), migrHi := signedOf 32 (fieldAt x 24 4)
    migrLo := signedOf 32 (fieldAt x 28 4), gates := (entriesOf x 64 8 (fieldAt x 32 2)).map readGate }

def linkZeros (x : Bytes) : Bool := zeroSpan x 1 3 && zeroSpan x 34 30 && (entriesOf x 64 8 (fieldAt x 32 2)).all gateZeros

/-- Bytes of a link entry with its gates. -/
def linkSize (x : Bytes) : Nat := 64 + 8 * fieldAt x 32 2

/-- Link entries one after another while bytes remain. -/
def readLinks : Nat → Bytes → List LinkEntry
  | 0, _ => []
  | fuel + 1, x => if x.isEmpty then [] else readLink x :: readLinks fuel (x.drop (linkSize x))

def linksZeros : Nat → Bytes → Bool
  | 0, _ => true
  | fuel + 1, x => x.isEmpty || (linkZeros x && linksZeros fuel (x.drop (linkSize x)))

/-- The attention pattern block (05 R133): MASK_MAP nibbles, GLOBALS, ROPE_TURNS, and mask bits. -/
def readPattern (part : Nat) (x : Bytes) : Pattern :=
  let pairs := fieldAt x 8 2
  let k := fieldAt x 6 1
  let row (r : Nat) : Bytes := (x.drop (192 + 8 * pairs + r * (2 ^ k / 8))).take (2 ^ k / 8)
  { partition := part, window := fieldAt x 0 4, maskRows := fieldAt x 5 1, maskLog2 := k, ropePairing := fieldAt x 7 1
    qPerKv := fieldAt x 10 2, maskMap := (List.range 64).map (fun h => bitsOf (fieldAt x 16 32) (4 * h) 4)
    globals := (List.range (fieldAt x 4 1)).map (fun i => (fieldAt x (64 + 8 * i) 4, fieldAt x (68 + 8 * i) 4))
    ropeTurns := fieldsAt x 192 8 pairs
    masks := (List.range (fieldAt x 5 1)).map (fun r => ((row r).map (fun b => (List.range 8).map (fun i => bitOf b.toNat i))).flatten) }

def patternZeros (x : Bytes) : Bool :=
  zeroSpan x 12 4 && zeroSpan x 48 16 && zeroSpan x (64 + 8 * fieldAt x 4 1) (128 - 8 * fieldAt x 4 1)

/-- A TRAIN section. The manual gives its content, not its layout; DESIGN CHOICE (log entry 94): TRAIN_LEN (4), optimizer (1), zero (1), adapter entries (2), five FP32 words, zeros to 64; entries of 32 bytes: adapter (2), layer (2), projection (1), rank (1), zero (2), d_in (4), d_out (4), offset and count of its masters (4, 4), zero (8). -/
def readShape (x e : Bytes) : AdapterShape :=
  { adapter := fieldAt e 0 2, layer := fieldAt e 2 2, projection := fieldAt e 4 1, rank := fieldAt e 5 1, dIn := fieldAt e 8 4
    dOut := fieldAt e 12 4, init := fieldsAt x (fieldAt e 16 4) 4 (fieldAt e 20 4) }

def readTrain (part : Nat) (x : Bytes) : Train :=
  { partition := part, trainLen := fieldAt x 0 4, optimizer := fieldAt x 4 1, rate := fieldAt x 8 4, beta1 := fieldAt x 12 4
    beta2 := fieldAt x 16 4, eps := fieldAt x 20 4, decay := fieldAt x 24 4
    adapters := (entriesOf x 64 32 (fieldAt x 6 2)).map (readShape x) }

/-- A fallback plan and its tables (08 R215). -/
def readFallback (x e : Bytes) : FallbackPlan :=
  let gates := (x.drop (fieldAt e 24 4)).take (fieldAt e 28 4)
  { kind := fieldAt e 0 1, unit := fieldAt e 1 1, block := fieldAt e 2 1, planId := fieldAt e 4 4
    tables := [(fieldAt e 8 4, 48 * fieldAt e 12 4), (fieldAt e 16 4, 32 * fieldAt e 20 4), (fieldAt e 24 4, fieldAt e 28 4)]
    slots := (entriesOf x (fieldAt e 8 4) 48 (fieldAt e 12 4)).map readSlot
    transfers := (entriesOf x (fieldAt e 16 4) 32 (fieldAt e 20 4)).map readTransfer
    links := readLinks gates.length gates }

def fallbackZeros (x e : Bytes) : Bool :=
  let gates := (x.drop (fieldAt e 24 4)).take (fieldAt e 28 4)
  zeroSpan e 3 1 && (fieldAt e 0 1 == 3 || zeroSpan e 2 1) && (entriesOf x (fieldAt e 8 4) 48 (fieldAt e 12 4)).all slotZeros
    && (entriesOf x (fieldAt e 16 4) 32 (fieldAt e 20 4)).all transferZeros && linksZeros gates.length gates

/-- Reserved fields of a section, by type. -/
def sectionZeros (type : Nat) (x : Bytes) : Bool :=
  match type with
  | 1 => ringZeros x
  | 2 => (entriesOf x 0 48 (x.length / 48)).all slotZeros
  | 3 => zeroSpan x 4 12 && (entriesOf x 16 32 (fieldAt x 0 4)).all regionZeros
  | 4 => mprogZeros x
  | 5 => (entriesOf x 0 32 (x.length / 32)).all transferZeros
  | 6 => linksZeros x.length x
  | 7 => patternZeros x
  | 9 => zeroSpan x 4 12 && (entriesOf x 16 32 (fieldAt x 0 4)).all (fallbackZeros x)
  | 10 => zeroSpan x 76 52
  | _ => true

/-! ### Schedule and plan images -/

/-- The sections of a type, in directory order. -/
def sectionsOf (b : Bytes) (dir : List DirEntry) (type : Nat) : List (Nat × Bytes) :=
  (dir.filter (fun e => e.type == type)).map (fun e => (e.partition, sectionBytes b e))

/-- A schedule image, with the count of regions and plans their headers give. -/
def readImage (b : Bytes) : Image :=
  let dir := (readDir b).map (fun e => { e with sectionZeroOk := sectionZeros e.type (sectionBytes b e) })
  let secs (t : Nat) : List (Nat × Bytes) := sectionsOf b dir t
  { magic := fieldAt b 0 4, version := fieldAt b 4 2, totalBytes := fieldAt b 8 8, anchor := fieldAt b 16 8, stepBeats := fieldAt b 24 4
    windowBeats := fieldAt b 28 4, plazaOffset := fieldAt b 32 4, plazaBeats := fieldAt b 36 4, period := fieldAt b 40 1
    profiles := fieldAt b 41 1, partitions := fieldAt b 42 1, kind := fieldAt b 43 1, slipLead := fieldAt b 44 2, fallbackLead := fieldAt b 46 2
    zeroOk := zeroSpan b 48 16, dir := dir
    rings := (secs 1).map (fun e => readRing e.1 e.2)
    slots := ((secs 2).map (fun e => (entriesOf e.2 0 48 (e.2.length / 48)).map readSlot)).flatten
    regions := ((secs 3).map (fun e => (entriesOf e.2 16 32 (fieldAt e.2 0 4)).map readRegionEntry)).flatten
    mprogs := (secs 4).map (fun e => readMprog e.2)
    transfers := ((secs 5).map (fun e => (entriesOf e.2 0 32 (e.2.length / 32)).map readTransfer)).flatten
    links := ((secs 6).map (fun e => readLinks e.2.length e.2)).flatten
    patterns := (secs 7).map (fun e => readPattern e.1 e.2)
    trains := (secs 8).map (fun e => readTrain e.1 e.2)
    fallbacks := ((secs 9).map (fun e => (entriesOf e.2 16 32 (fieldAt e.2 0 4)).map (readFallback e.2))).flatten
    facts := objectFacts b }

/-- A plan image (08 R219): ROLE_DIR places its role images in it. -/
def readPlan (b : Bytes) : PlanImage :=
  let head := readImage b
  let x := match (sectionsOf b head.dir 10) with | e :: _ => e.2 | [] => []
  let n := fieldAt x 72 2
  let roleDir := (List.range (fieldAt x 74 2)).map (fun i => (fieldAt x (128 + 2 * n + 16 * i) 8, fieldAt x (136 + 2 * n + 16 * i) 8))
  { head := head, ringId := fieldAt x 0 8, base := BitVec.ofNat 512 (fieldAt x 8 64), ringSize := n, roleFor := fieldsAt x 128 2 n
    roleDir := roleDir, roles := roleDir.map (fun r => readImage ((b.drop r.1).take r.2)), facts := head.facts }

/-! ### Vocabularies, maps, firmware, policies -/

/-- Vocabulary entries one after another. -/
def readEntries : Nat → Bytes → List VocabEntry
  | 0, _ => []
  | n + 1, x =>
    if x.length < 16 then []
    else
      let len := fieldAt x 8 1
      let full := ceilDiv len 8 * 8
      ⟨fieldAt x 0 4 % 2 ^ 18, fieldAt x 4 4, len, bitOf (fieldAt x 9 1) 0,
        decide (fieldAt x 0 4 < 2 ^ 18) && decide (fieldAt x 9 1 < 2) && zeroSpan x 10 6 && zeroSpan x (16 + len) (full - len), (x.drop 16).take len⟩
        :: readEntries n (x.drop (16 + full))

def readVocab (b : Bytes) : VocabImage :=
  { magic := fieldAt b 0 4, version := fieldAt b 4 2, entries := fieldAt b 8 4, totalBytes := fieldAt b 16 8
    zeroOk := zeroSpan b 6 2 && zeroSpan b 12 4 && zeroSpan b 24 40
    list := readEntries (fieldAt b 8 4) ((b.drop 64).take (b.length - 128)), facts := objectFacts b }

/-- An entry of a composition map (12 R333). -/
def readMapEntry (x : Bytes) : MapEntry :=
  { index := fieldAt x 0 2 % 4096, leaving := bitOf (fieldAt x 2 1) 0, identity := fieldAt x 4 16
    links := (List.range 32).map (fun i => (fieldAt x (32 + 3 * i) 2, fieldAt x (34 + 3 * i) 1)) }

def mapEntryZeros (x : Bytes) : Bool := decide (fieldAt x 0 2 < 4096) && decide (fieldAt x 2 1 < 2) && zeroSpan x 3 1 && zeroSpan x 20 12

def readMap (b : Bytes) : CompMap :=
  let n := fieldAt b 6 2
  { magic := fieldAt b 0 4, version := fieldAt b 4 2, count := n, epoch := fieldAt b 8 4, graceBeats := fieldAt b 12 4
    root := fieldAt b 16 2, zeroOk := zeroSpan b 18 6 && zeroSpan b 32 32 && (entriesOf b 64 128 n).all mapEntryZeros
    devices := (entriesOf b 64 128 n).map readMapEntry, facts := objectFacts b }

/-- A firmware image (15 R410): the digest stands before the signature of 29,792 bytes. -/
def readFirmware (o : FirmwareObject) : FirmwareImage :=
  let b := o.bytes
  let signed := b.take (b.length - 29792)
  { magic := fieldAt b 0 4, version := fieldAt b 4 2, zeroOk := zeroSpan b 6 2 && zeroSpan b 12 4 && zeroSpan b 24 104
    rollback := fieldAt b 8 4, totalBytes := fieldAt b 16 8, fwVersion := o.fwVersion, signatureOk := o.signatureOk
    facts := { objectFacts signed with delivered := b.length } }

/-- A tenant policy (13 R353) and its digest. -/
def readPolicy (b : Bytes) : TenantPolicy :=
  { magic := fieldAt b 0 4, version := fieldAt b 4 2, allow := fieldAt b 6 1, zero7 := zeroSpan b 7 1, zero24 := zeroSpan b 24 8
    allowList := (fieldsAt b 32 64 (fieldAt b 6 1)).map (BitVec.ofNat 512), length := b.length, digest := shake256 b }

end Sys2Proof.Machine
end

