-- ==== Sys2Proof/Machine/Contents.lean ====
section
/-! DEFINITION. Staged objects and what they become: models, partitions, schedule and plan images, vocabularies (11 R308, R309; 13 R362, R363; 08 R200 to R204; 09 R223 to R226; 10 R253 to R255). -/

namespace Sys2Proof.Machine

/-! ### Pieces (11 R308) -/

/-- What a piece does: refused, kept with the bytes staged so far, or the last of its object. -/
inductive PieceOut where
  | refused (a : Ans) (s : State)
  | kept (a : Ans) (s : State)
  | last (s : State)
  deriving DecidableEq, Repr

/-- Bytes a piece brings: the buffer's, or under a bound tenant its envelopes' plaintext (13 R358). -/
def pieceBytes (p : Packet) (base : Nat) (s : State) : Nat :=
  if s.sec.bound then ((if isSealed p then p.envs.drop 1 else p.envs).map (fun e => e.length)).foldl (· + ·) 0 else paramOf p (base + 24) 4

def dropStaging (key : Nat) (s : State) : State := { s with cont := { s.cont with staging := FMap.del s.cont.staging key } }

/-- Takes a PIECE whose fields begin at a packet offset. -/
def takePiece (key base : Nat) (p : Packet) (s : State) : PieceOut :=
  let off := paramOf p base 8
  let total := paramOf p (base + 8) 8
  let n := off + pieceBytes p base s
  let cur := FMap.get? s.cont.staging key
  let wrong := if off = 0 then none else match cur with
    | none => some base
    | some c => if c.staged ≠ off then some base else if c.total ≠ total then some (base + 8) else none
  match wrong with
  | some d => .refused (bad d) (dropStaging key s)
  | none =>
    if total < n then .refused (bad (base + 24)) (dropStaging key s)
    else if n < total then
      .kept { status := stOK, count0 := n % 2 ^ 32, count1 := n / 2 ^ 32 } { s with cont := { s.cont with staging := FMap.put s.cont.staging key ⟨n, total⟩ } }
    else .last (dropStaging key s)

/-! ### MODEL_STAGE and MODEL_UNLOAD -/

def modelNamed (s : State) (m : Nat) : Bool := FMap.any (fun _ q => q.model == m) s.cont.partitions

/-- HBM bytes that neither the descriptor table, the frame pool nor weights hold (log entry 12). -/
def weightRoom (s : State) : Nat :=
  hbmFree - s.tier.t1Total * 2 ^ 20 - s.cont.models.foldl (fun n m => n + 2 * m.2.bytes) 0

def modelKey (m : Nat) : Nat := 0x1000 + m

def finishModel (m : Nat) (p : Packet) (piece : ModelPiece) (s : State) : State :=
  let bytes := piece.dieBytes.foldl (· + ·) 0
  if piece.magic ≠ 0x4C444F4D ∨ piece.version ≠ 1 ∨ !piece.headerZero then reply p (bad 0) s
  else if FMap.get? s.sec.weightKeys m ≠ some piece.keyId then reply p (bad 8) s
  else if piece.facts.digest ≠ piece.facts.trailer then reply p { status := stDIGEST_FAIL } s
  else if weightRoom { s with cont := { s.cont with models := FMap.del s.cont.models m } } < 2 * bytes then reply p (noResource 0x0007) s
  else reply p ok { s with cont := { s.cont with models := FMap.put s.cont.models m ⟨piece.facts.trailer, bytes, piece.outputRow⟩ } }

def modelStageBody (piece : ModelPiece) (_ : Nat) (p : Packet) (s : State) : State :=
  let m := argOf p 20 1
  if 15 < m then reply p (bad 0x14) s
  else if modelNamed s m then reply p (busy 0xFFFF) s
  else match takePiece (modelKey m) 0x20 p s with
  | .refused a s' => reply p a s'
  | .kept a s' =>
    (match piece.badChunk with
    | some i => reply p { status := stAUTH_FAIL, detail := i % 2 ^ 16 } (dropStaging (modelKey m) s')
    | none => reply p a s')
  | .last s' =>
    (match piece.badChunk with
    | some i => reply p { status := stAUTH_FAIL, detail := i % 2 ^ 16 } s'
    | none => finishModel m p piece s')

def execModelStage (p : Packet) (piece : ModelPiece) (s : State) : Host.Outcome State Fault Refusal :=
  .next (serve (opIs 0x10) never (modelStageBody piece) p s)

def modelUnloadBody (_ : Nat) (p : Packet) (s : State) : State :=
  let m := argOf p 20 1
  if 15 < m then reply p (bad 0x14) s
  else if modelNamed s m then reply p (busy 0xFFFF) s
  else reply p ok (dropStaging (modelKey m) { s with cont := { s.cont with models := FMap.del s.cont.models m } })

def execModelUnload (p : Packet) (s : State) : Host.Outcome State Fault Refusal :=
  .next (serve (opIs 0x11) never modelUnloadBody p s)

/-! ### PARTITION_DEFINE (05 R130, 09 R223 to R226) -/

def definedBy (p : Packet) : Partition := {
  model := paramOf p 0x20 1, kvFormat := paramOf p 0x21 1, kvHeads := paramOf p 0x22 1, headDim := paramOf p 0x24 2
  position := paramOf p 0x26 2, firstLayer := paramOf p 0x28 2, layers := paramOf p 0x2A 2, mb := paramOf p 0x2C 1
  places := paramOf p 0x2E 2, chunk := paramOf p 0x30 2, specMax := paramOf p 0x32 1
  adapterPart := paramOf p 0x33 1, adapterIndex := paramOf p 0x34 1 }

/-- The offset of the first attribute outside its range. -/
def partitionRefusal (q : Partition) (s : State) : Option Nat :=
  if (FMap.get? s.cont.models q.model).isNone then some 0x20
  else if 2 < q.kvFormat then some 0x21
  else if q.kvHeads < 1 ∨ 64 < q.kvHeads then some 0x22
  else if q.headDim % 32 ≠ 0 ∨ q.headDim < 32 ∨ 256 < q.headDim ∨ tileBytes q < 4096 ∨ 65536 < tileBytes q then some 0x24
  else if q.layers = 0 ∨ 2 ^ 26 < pageBytes q then some 0x2A
  else if q.mb < 1 ∨ 16 < q.mb then some 0x2C
  else if q.places < 1 ∨ 256 < q.places then some 0x2E
  else if q.chunk < 64 ∨ 16384 < q.chunk ∨ q.chunk % 64 ≠ 0 ∨ q.chunk % q.mb ≠ 0 then some 0x30
  else if 8 < q.specMax then some 0x32
  else if q.adapterPart ≠ 0xFF ∧ (partitionAt s q.adapterPart).isNone then some 0x33
  else none

/-- Places of every partition but one (09 R224). -/
def placesBut (s : State) (part : Nat) : Nat := s.cont.partitions.foldl (fun n e => if e.1 = part then n else n + e.2.mb * e.2.places) 0

def partitionBody (_ : Nat) (p : Packet) (s : State) : State :=
  let part := argOf p 20 1
  let action := argOf p 21 1
  if 15 < part then reply p (bad 0x14) s
  else if 1 < action then reply p (bad 0x15) s
  else if partitionHeld s part then reply p (busy 0xFFFF) s
  else if action = 1 then reply p ok { s with cont := { s.cont with partitions := FMap.del s.cont.partitions part } }
  else
    let q := definedBy p
    match partitionRefusal q s with
    | some d => reply p (bad d) s
    | none =>
      if 4096 < placesBut s part + q.mb * q.places then reply p (noResource 0x0009) s
      else reply p ok { s with cont := { s.cont with partitions := FMap.put s.cont.partitions part q } }

def execPartitionDefine (p : Packet) (s : State) : Host.Outcome State Fault Refusal :=
  .next (serve (opIs 0x12) never partitionBody p s)

/-! ### SCHEDULE_LOAD (08 R200 to R203, R219) -/

/-- IMAGE_READY goes to every other member of every ring of the image (08 R202). -/
def sendReady (img : Image) (at_ : Nat) (s : State) : State :=
  img.rings.foldl (fun s r => r.members.foldl (fun s m => if m = ownIndex s then s else send (.imageReady m r.ringId r.ringDigest at_) s) s) s

/-- A complete object is checked and staged: a schedule image for its activation, a plan image beside the armed one. -/
def loadSchedule (p : Packet) (kind : Nat) (obj : Bytes) (s : State) : State :=
  if kind = 0 then
    let img := readImage obj
    let at_ := paramOf p 0x20 8
    match imageFault s img at_ with
    | some a => reply p a s
    | none => sendReady img at_ (accept p .schedule { s with sched := { s.sched with staged := some ⟨img, at_, false⟩ } })
  else
    let plan := readPlan obj
    match planFault s plan with
    | some a => reply p a s
    | none => reply p ok { s with sched := { s.sched with
        plans := s.sched.plans.filter (fun q => q.armed || q.img.ringId != plan.ringId) ++ [⟨plan, false⟩] } }

def scheduleBody (obj : Bytes) (_ : Nat) (p : Packet) (s : State) : State :=
  let kind := argOf p 20 1
  if 1 < kind then reply p (bad 0x14) s
  else match s.sched.staged with
  | some g => reply p (busy (min 0xFFFE (g.activateAt - s.cad.beat))) s
  | none =>
    match takePiece (0x1300 + kind) 0x30 p s with
    | .refused a s' => reply p a s'
    | .kept a s' => reply p a s'
    | .last s' => loadSchedule p kind obj s'

/-- `obj` is the whole object that the last piece completes. -/
def execScheduleLoad (p : Packet) (obj : Bytes) (s : State) : Host.Outcome State Fault Refusal :=
  .next (serve (opIs 0x13) never (scheduleBody obj) p s)

/-! ### VOCAB_LOAD (10 R253 to R255) -/

/-- Bytes of an entry record in the image. -/
def entryBytes (e : VocabEntry) : Nat := 16 + ceilDiv e.len 8 * 8

/-- Check 4: the first entry at fault, or the entry count when bytes remain. -/
def entryFault (room : Nat) : Nat → List VocabEntry → Nat → Option Nat
  | i, [], n => if i < n then some i else if room ≠ 0 then some n else none
  | i, e :: rest, n =>
    if e.token ≠ i ∨ e.len < 1 ∨ 64 < e.len ∨ !e.zeroOk ∨ e.bytes.length < e.len ∨ room < entryBytes e then some i
    else entryFault (room - entryBytes e) (i + 1) rest n

/-- Check 5: the first byte no plain entry of length 1 holds. -/
def missingByte (es : List VocabEntry) : Option Nat :=
  (List.range 256).find? (fun b => !es.any (fun e => !e.special && e.len == 1 && e.bytes.take 1 == [BitVec.ofNat 8 b]))

def vocabFault (v : VocabImage) : Option Ans :=
  if v.facts.delivered ≠ v.totalBytes then some { status := stBAD_LENGTH }
  else if v.magic ≠ 0x42434F56 ∨ v.version ≠ 1 ∨ v.entries < 256 ∨ 262144 < v.entries ∨ !v.zeroOk then some (bad 0)
  else if v.facts.digest ≠ v.facts.trailer then some { status := stDIGEST_FAIL }
  else match entryFault (v.totalBytes - 128) 0 v.list v.entries with
  | some i => some (bad (i % 2 ^ 16))
  | none => (missingByte v.list).map (fun b => bad (0x100 + b))

def vocabHeld (s : State) (idx : Nat) : Bool := anySession (fun x => x.d.vocab && x.d.vocabIndex == idx) s

/-- A complete vocabulary is checked and becomes resident. -/
def loadVocab (idx : Nat) (v : VocabImage) (p : Packet) (s : State) : State :=
  match vocabFault v with
  | some a => reply p a s
  | none =>
    if unitStore < unitUsed s (some idx) + vocabBytes v.list then reply p (noResource 0x0006) s
    else reply p ok { s with cont := { s.cont with vocabs := FMap.put s.cont.vocabs idx ⟨v.list, v.facts.trailer⟩ } }

def vocabBody (obj : Bytes) (_ : Nat) (p : Packet) (s : State) : State :=
  let idx := argOf p 20 1
  if 7 < idx then reply p (bad 0x14) s
  else if vocabHeld s idx then reply p (busy 0xFFFF) s
  else match takePiece (0x1400 + idx) 0x20 p s with
  | .refused a s' => reply p a s'
  | .kept a s' => reply p a s'
  | .last s' => loadVocab idx (readVocab obj) p s'

def execVocabLoad (p : Packet) (obj : Bytes) (s : State) : Host.Outcome State Fault Refusal :=
  .next (serve (opIs 0x14) never (vocabBody obj) p s)

end Sys2Proof.Machine
end

