-- ==== Sys2Proof/Machine/Store.lean ====
section
/-! DEFINITION. The Block store: what its regions hold, for how long, and how commands, commits and links reach them (07 R177, R178, R186; 08 R502). -/

namespace Sys2Proof.Machine

def regionAt (s : State) (i : Nat) : Option Region := s.sched.active.bind (fun img => img.regions[i]?)
def storeAt (s : State) (i : Nat) : RegionStore := FMap.getD s.fab.store i {}

def modStore (i : Nat) (f : RegionStore → RegionStore) (s : State) : State :=
  { s with fab := { s.fab with store := FMap.put s.fab.store i (f (storeAt s i)) } }

/-- A byte of a region: the newest write of this step or of the one before; a line nothing wrote reads zero (07 R175, R177). -/
def regionByte (x : RegionStore) (a : Nat) : Byte := if Memory.read x.now a = 0 then Memory.read x.before a else Memory.read x.now a

def regionBytes (x : RegionStore) (a : Nat) : Nat → Bytes
  | 0 => []
  | n + 1 => regionByte x a :: regionBytes x (a + 1) n

/-- Writes bytes of a region; `late` where they belong to the step before. -/
def writeRegion (late : Bool) (i offset : Nat) (b : Bytes) (s : State) : State :=
  match regionAt s i with
  | none => s
  | some r =>
    if r.length < offset + b.length then s
    else if late then modStore i (fun x => { x with before := Memory.writeBytes x.before offset b }) s
    else modStore i (fun x => { now := Memory.writeBytes x.now offset b, before := Memory.clear x.before offset b.length }) s

/-- Region kinds (08 R502). -/
def kindStage : Nat := 0
def kindAct : Nat := 1
def kindLand : Nat := 2
def kindWstream : Nat := 3
def kindKvbuf : Nat := 4
def kindScore : Nat := 5

/-- A commit of a slot hands activations to an ACT region of that slot, and to its mirror (07 R177, R178). -/
def commitRegion (slotId i offset : Nat) (b : Bytes) (s : State) : State :=
  match regionAt s i with
  | none => s
  | some r =>
    if r.kind = kindAct ∧ !bitOf r.flags 1 ∧ r.firstSlot = slotId then writeRegion false r.mirror offset b (writeRegion false i offset b s)
    else s

/-- A command of a slot writes a region of that slot, of a kind its operation fills (07 R177). -/
def stepRegion (kinds : List Nat) (slotId i offset : Nat) (b : Bytes) (s : State) : State :=
  match regionAt s i with
  | some r => if kinds.contains r.kind ∧ r.firstSlot = slotId then writeRegion false i offset b s else s
  | none => s

/-- Empties the regions of a slot of one kind: STAGE at a kill, SCORE at the end of a command (07 R177). -/
def dropKind (kind slotId : Nat) (s : State) : State :=
  { s with fab := { s.fab with store := s.fab.store.filter (fun e => !(regionAt s e.1).any (fun r => r.kind == kind && r.firstSlot == slotId)) } }

/-! ### Lifetimes (08 R502) -/

def spanHolds (t : Nat) (span : Option (Nat × Nat)) : Bool := span.any (fun w => decide (w.1 ≤ t ∧ t < w.2))

/-- What is left of a region at a phase unit of the step: outside its lifetime it is dead. -/
def aliveAt (img : Image) (t i : Nat) (x : RegionStore) : RegionStore :=
  let spans := match img.regions[i]? with | some r => lifetime img r | none => []
  { now := if spanHolds t spans[0]? then x.now else [], before := if spanHolds t spans[1]? then x.before else [] }

/-- Bytes of a region as a read at a phase unit of the step finds them: a dead region reads zero (07 R175, R177). -/
def readRegion (img : Image) (t i offset n : Nat) (s : State) : Bytes := regionBytes (aliveAt img t i (storeAt s i)) offset n

/-- Drops every region that is dead at a phase unit of the step. -/
def dropDead (img : Image) (t : Nat) (s : State) : State :=
  { s with fab := { s.fab with store := FMap.mapVals (fun i x => aliveAt img t i x) s.fab.store } }

/-- At a step boundary only a region that LAST_NEXT carries over keeps what the step wrote. -/
def carryOver (img : Image) (m : FMap RegionStore) : FMap RegionStore :=
  FMap.mapVals (fun i (x : RegionStore) => ({ before := if (img.regions[i]?).any (fun r => bitOf r.flags 0) then x.now else [] } : RegionStore)) m

/-- A new image keeps what a LAST_NEXT region of passes in flight holds, under the number it gives a region declared alike (01 R31, 08 R502). -/
def carryImage (old new : Image) (m : FMap RegionStore) : FMap RegionStore :=
  (new.regions.zipIdx).foldl (fun acc e =>
    if bitOf e.1.flags 0 then
      match old.regions.findIdx? (fun r => r == e.1) with
      | some i => (match FMap.get? m i with | some x => FMap.put acc e.2 x | none => acc)
      | none => acc
    else acc) []

/-! ### Operands of a command -/

/-- Bytes of one element of a format in a Block store (log entry 82). -/
def operandBytes (fmt : Nat) : Nat := match fmt with | 6 => 2 | 7 => 4 | _ => 1

/-- The bytes of a row as its elements of `w` bytes. -/
def rowWords (w : Nat) (b : Bytes) : List Nat := (List.range (b.length / max 1 w)).map (fun i => fieldAt b (w * i) w)

end Sys2Proof.Machine
end

