-- ==== Sys2Proof/Machine/SessionRows.lean ====
section
/-! DEFINITION. The session commands that act at recognition (11 R310): open, fork, append, park, revive, cancel, close, query, constrain. -/

namespace Sys2Proof.Machine

/-- The slot a checked handle names. -/
def slotOf (p : Packet) (s : State) : Nat := (liveSlot s (handleOf p)).getD 0

/-- A command that acts on the session its handle names. -/
def namesSession (p : Packet) : Bool :=
  handleOf p != 0 && ((decide (0x21 ≤ opcodeOf p) && decide (opcodeOf p ≤ 0x2B)) || opcodeOf p == 0x30)

/-- Recognised packets that come before a recognised packet: those of an earlier beat, in the same beat those of a lower client, and of its own client those before it in the window (03 R90). -/
def standsBefore (p : Packet) (s : State) : List Packet :=
  match (clientOf s p.client).recognised.find? (fun r => decide (r.packet = p)) with
  | none => []
  | some me =>
    (s.clients.map (fun e =>
      (if e.1 = p.client then e.2.recognised.takeWhile (fun r => !decide (r.packet = p))
        else e.2.recognised.filter (fun r => decide (r.beat < me.beat) || (r.beat == me.beat && decide (e.1 < p.client)))).map
        (fun r => r.packet))).flatten

/-- A command for the same session recognised earlier has not been applied (03 R90). -/
def outOfTurn (p : Packet) (s : State) : Bool :=
  (standsBefore p s).any (fun q => namesSession q && handleOf q == handleOf p)

/-- A tokenizing append holds later commands for its session (10 R256), and they apply in the order of recognition (03 R90). -/
def behindAppend (p : Packet) (s : State) : Bool :=
  outOfTurn p s || (match liveSlot s (handleOf p) with
    | some slot => (sessionAt s slot).tokenizing.isSome
    | none => false)

/-- Also waits for a pending revive to commit, whether or not it has its frames yet (03 R91, 04 R125). -/
def behindRevive (p : Packet) (s : State) : Bool :=
  behindAppend p s || (match liveSlot s (handleOf p) with
    | some slot => (sessionAt s slot).d.state == 3 && ((sessionAt s slot).d.revivePending || (opOf s slot isRevive).isSome)
    | none => false)

/-- An export or a handover also waits for a pending park, and then proceeds as for the PARKED session. DESIGN CHOICE (log entry 90): 03 R89 lists neither for PARK_PENDING and 04 R125 gives no order. -/
def behindShift (p : Packet) (s : State) : Bool :=
  behindRevive p s || (match liveSlot s (handleOf p) with
    | some slot => (opOf s slot (fun o => o.kind == .park)).isSome
    | none => false)

/-- The refusal of a command that a session's state does not take (03 R89). -/
def stateRefusal (x : Session) (allowed : List Nat) (s : State) : Option Ans :=
  if allowed.contains x.d.state then none
  else if x.d.state = 4 then some (busy (beatsToBoundary s))
  else if x.d.state = 6 then some { status := stSTATE_LOST }
  else some (busy 0xFFFF)

/-- Whether a map flags this device LEAVING (12 R339). -/
def isLeaving (s : State) : Bool :=
  s.comp.inComp && (match s.comp.map with
    | some m => m.devices.any (fun d => d.index == s.comp.index && d.leaving)
    | none => false)

/-- Slot-needing commands wait for a lock and an active image (02 R45; log entry 17). -/
def slotsReady (s : State) : Bool := slotsServed s && s.sched.active.isSome

/-! ### SESSION_OPEN and SESSION_FORK (03 R68, R81, R87; 10 R250) -/

/-- Length of the output row of a partition's model. -/
def outputRow (s : State) (q : Partition) : Nat := match FMap.get? s.cont.models q.model with | some m => m.outputRow | none => 0

/-- What SESSION_OPEN refuses in its parameters. -/
def openRefusal (p : Packet) (q : Partition) (s : State) : Option Ans :=
  let flags := paramOf p 0x20 1
  let policy := paramOf p 0x22 1
  if bitsOf policy 0 2 = 3 then some (bad 0x22)
  else if 8 < paramOf p 0x24 2 then some (bad 0x24)
  else if bitOf flags 0 then
    match FMap.get? s.cont.vocabs (bitsOf policy 2 3) with
    | none => some (bad 0x22)
    | some v => if v.entries.length ≠ outputRow s q then some (bad 0x22) else none
  else if outputRow s q ≠ 256 then some (bad 0x20)
  else none

/-- The descriptor of a new session (03 R68). -/
def openDescriptor (p : Packet) (part : Nat) (q : Partition) (key : Nat) (s : State) : Descriptor := {
  state := 1, partition := part
  vocab := bitOf (paramOf p 0x20 1) 0, stopInc := bitOf (paramOf p 0x20 1) 1
  grade := bitsOf (paramOf p 0x21 1) 0 2, fromProfile := bitOf (paramOf p 0x21 1) 2
  deadPolicy := bitsOf (paramOf p 0x22 1) 0 2, vocabIndex := bitsOf (paramOf p 0x22 1) 2 3
  client := p.client, spec := min (paramOf p 0x24 2) q.specMax
  genKey := key, lastBeat := stamp s, epoch := s.comp.epoch
  maxLen := paramOf p 0x28 4 }

/-- Counts a created session, allocates its ledger's segments, and gives it its unjournaled mark (03 R73, R76; 04 R98). -/
def sessionCreated (slot : Nat) (s : State) : State :=
  lagAtOpen slot (growSegments slot { s with counters := { s.counters with opened := satAdd (2 ^ 64 - 1) s.counters.opened 1 } })

def openBody (_ : Nat) (p : Packet) (s : State) : State :=
  let part := argOf p 20 1
  match partitionAt s part with
  | none => reply p (bad 0x14) s
  | some q =>
    match openRefusal p q s with
    | some a => reply p a s
    | none =>
      if isLeaving s then reply p (noResource 0x000B) s
      else match nextSlot s with
      | none => reply p (noResource 0x0008) s
      | some slot =>
        let given := paramOf p 0x30 8
        let d := draw s
        let key := if given = 0 then d.1 else given
        let s := takeSlot (if given = 0 then d.2 else s)
        let gen := (sessionAt s slot).gen
        let s := putSession slot { gen := gen, d := openDescriptor p part q key s } s
        let s := sessionCreated slot s
        reply p { status := stOK, handle := some (sessionHandle s slot) } s

def execSessionOpen (p : Packet) (s : State) : Host.Outcome State Fault Refusal :=
  .next (serve (opIs 0x20) never openBody p s)

/-- Raises the count of every frame a page list names. -/
def shareAll (x : Session) (s : State) : State := x.pages.foldl (fun s p => if p.frame = 0 then s else shareFrame p.frame s) s

def forkBody (_ : Nat) (p : Packet) (s : State) : State :=
  let slot := slotOf p s
  let x := sessionAt s slot
  match stateRefusal x [1, 3] s with
  | some a => reply p a s
  | none =>
    if x.d.copying then reply p (busy 0xFFFF) s
    else if x.pages.any (fun g => match frameAt s g.frame with | some f => decide (0xFFFF ≤ f.count) | none => false) then
      replyOpen p stNO_RESOURCE s
    else match nextSlot s with
    | none => reply p (noResource 0x0008) s
    | some child =>
      let key := paramOf p 0x20 8
      let s := takeSlot (shareAll x s)
      let gen := (sessionAt s child).gen
      let parent := sessionHandle s slot
      let run : Run := ⟨7, false, stepNow s, [], (parent, x.d.ledgerPos)⟩
      let pages := x.pages.map (fun g => { g with shared := true })
      let full := x.segments.take ((segmentsOf x.body).length - 1)
      let y : Session := {
        gen := gen, pages := pages, body := x.body ++ x.tail ++ [run], counts := x.counts, con := x.con
        leadRow := x.leadRow, cologne := x.cologne, exported := x.exported
        d := { x.d with
          client := p.client, genKey := if key = 0 then x.d.genKey else key, lastBeat := stamp s, epoch := s.comp.epoch
          journalSeq := 0, journalLag := false, parkPending := false, revivePending := false, peer := 0, copyPasses := 0 }
        segments := full }
      let s := full.foldl (fun s n => shareSegment n s) s
      let s := putSession child y (modSession slot (fun x => { x with pages := pages }) (holdSet x.con.set s))
      let s := sessionCreated child s
      let s := queueRun (sessionHandle s child) x.d.ledgerPos run s
      reply p { status := stOK, handle := some (sessionHandle s child) } s

def execSessionFork (p : Packet) (s : State) : Host.Outcome State Fault Refusal :=
  .next (serve (opIs 0x21) behindAppend forkBody p s)

/-! ### SESSION_APPEND (03 R72, R73; 10 R252, R256, R259; 04 R119) -/

/-- Positions cut into runs of at most 4,096 (03 R70). -/
def cutRuns (kind step : Nat) (tokens : Bool) : Nat → List Nat → List Run
  | 0, l => [⟨kind, tokens, step, l, (0, 0)⟩]
  | n + 1, l =>
    if l.length ≤ 4096 then [⟨kind, tokens, step, l, (0, 0)⟩]
    else ⟨kind, tokens, step, l.take 4096, (0, 0)⟩ :: cutRuns kind step tokens n (l.drop 4096)

/-- Appends the elements to the body, starts a new output stream, and answers; a TOOL run on a parked session asks for its revive. -/
def appendElems (o : Origin) (slot kind : Nat) (elems : List Nat) (s : State) : State :=
  let x := sessionAt s slot
  if 2 ^ 32 - 1 < x.d.ledgerPos + elems.length then replyTo o true { status := stLIMIT_REACHED, detail := 1 } s
  else
    let first := x.d.ledgerPos
    let runs := cutRuns kind (stepNow s) x.d.vocab elems.length elems
    let s := runs.foldl (fun s r => appendBody slot r s) s
    let s := modSession slot (fun x => { x with drafts := [], con := resetStream x.con }) s
    let t4 := x.d.state = 3 ∧ x.exported
    let s :=
      if kind ≠ 2 ∨ t4 then s
      else if x.d.parkPending ∨ (x.d.state = 3 ∧ (opOf s slot (fun o => o.kind == .park)).isSome) then
        modSession slot (fun x => { x with toolQueued := toolTurn s }) s
      else if x.d.state = 3 then prefetchTool slot s
      else s
    replyTo o true { status := stOK, detail := if kind = 2 ∧ t4 then 0x0004 else 0, count0 := first, count1 := elems.length } s

/-- Data of an append: the host buffer's bytes or the parameters'. -/
def appendData (p : Packet) (buf : Bytes) : Bytes := if bitOf (argOf p 21 1) 1 then buf else p.params

def appendBodyCmd (buf : Bytes) (_ : Nat) (p : Packet) (s : State) : State :=
  let slot := slotOf p s
  let x := sessionAt s slot
  match stateRefusal x [1, 3, 7] s with
  | some a => reply p a s
  | none =>
    let kind := argOf p 20 1
    let tokens := bitOf (argOf p 21 1) 0
    let count := argOf p 24 4
    if kind ≠ 1 ∧ kind ≠ 2 then reply p (bad 0x14) s
    else if tokens ∧ !x.d.vocab then reply p (bad 0x15) s
    else
      let data := appendData p buf
      let size := if tokens then 4 * count else count
      if data.length < size then reply p { status := stBAD_LENGTH, detail := size % 2 ^ 16 } s
      else if tokens then
        let elems := (List.range count).map (fun i => fieldAt data (4 * i) 4)
        let n := ((vocabOf s x).map (fun v => v.entries.length)).getD 0
        match elems.findIdx? (fun e => decide (n ≤ e)) with
        | some i => reply p (bad ((if bitOf (argOf p 21 1) 1 then 4 * i else 0x20 + 4 * i) % 2 ^ 16)) s
        | none => appendElems (originOf p s) slot kind elems s
      else if x.d.vocab then
        await (.tokenize slot) (originOf p s) (modSession slot (fun x => { x with tokenizing := some (kind, data.take size) }) s)
      else appendElems (originOf p s) slot kind ((data.take size).map (fun b => b.toNat)) s

def execSessionAppend (p : Packet) (buf : Bytes) (s : State) : Host.Outcome State Fault Refusal :=
  .next (serveHost buf (opIs 0x22) behindAppend (appendBodyCmd buf) p s)

/-- Adds to a partition's counters. -/
def countPart (part : Nat) (f : PartitionCounters → PartitionCounters) (s : State) : State :=
  match partitionAt s part with
  | none => s
  | some q => { s with cont := { s.cont with partitions := FMap.put s.cont.partitions part { q with counters := f q.counters } } }

/-- Tokenization of the oldest waiting append ends (10 R256, R257). -/
def execTokenizeEnd (slot : Nat) (s : State) : Host.Outcome State Fault Refusal :=
  let x := sessionAt s slot
  let oldest := s.commands.find? (fun c => match c.work with | .tokenize _ => true | _ => false)
  .next (match x.tokenizing, oldest with
    | some t, some c =>
      if c.work = .tokenize slot then
        let elems := match vocabOf s x with | some v => tokenize v.entries t.2 | none => []
        let s := { s with commands := s.commands.filter (fun c => !decide (c.work = .tokenize slot)) }
        let s := modSession slot (fun x => { x with tokenizing := none }) s
        let s := countPart x.d.partition (fun k => { k with tokenized := satAdd (2 ^ 64 - 1) k.tokenized t.2.length }) s
        appendElems c.origin slot t.1 elems s
      else s
    | _, _ => s)

/-! ### SESSION_PARK and SESSION_REVIVE (03 R89, R91; 04 R114 to R116) -/

def parkBody (_ : Nat) (p : Packet) (s : State) : State :=
  let slot := slotOf p s
  let x := sessionAt s slot
  match stateRefusal x [1] s with
  | some a => reply p a s
  | none =>
    if !slotsReady s ∨ x.d.copying ∨ x.d.parkPending ∨ (opOf s slot (fun o => o.kind == .sessionOut)).isSome then reply p (busy 0xFFFF) s
    else
      let after := paramOf p 0x20 8
      let wake := if after = 0 then 0 else s.cad.beat + after
      let g := parkGrade s x
      let b := parkBytes s x g
      let codec := if g = 0 then tileBytesOf s x else b
      match placePark slot (parkSpace s x) wake s with
      | none => reply p (noResource 0x0002) (setFlag offTierEvents 0 s)
      | some (dest, s1) =>
        if !moverFits b codec s1 then reply p (busy (beatsToBoundary s)) s
        else
          let s := addOp .park slot b codec g 0 p.client dest s1
          let s := modSession slot (fun x => { x with parkWake := after, d := { x.d with parkPending := true } }) s
          accept p (.park slot) s

def execSessionPark (p : Packet) (s : State) : Host.Outcome State Fault Refusal :=
  .next (serve (opIs 0x24) behindRevive parkBody p s)

/-- The REBUILDING reply (03 R89). -/
def rebuilding (s : State) (x : Session) : Ans := { status := stREBUILDING, detail := min 0xFFFF (replayPasses s x) }

def reviveBody (_ : Nat) (p : Packet) (s : State) : State :=
  let slot := slotOf p s
  let x := sessionAt s slot
  if x.d.state = 7 then reply p (rebuilding s x) s
  else match stateRefusal x [3] s with
  | some a => reply p a s
  | none =>
    if !slotsReady s then reply p (busy 0xFFFF) s
    else if x.exported then reply p (noResource 0x0004) s
    else if (opOf s slot (fun o => o.kind == .sessionOut)).isSome then reply p (busy (beatsToBoundary s)) s
    else if (opOf s slot isRevive).isSome then accept p (.revive slot) s
    else if (opOf s slot (fun o => o.kind == .park)).isSome then reply p (busy 0xFFFF) s
    else if t1Free s < reviveNeed s x then reply p (noResource 0x0001) s
    else if !moverFits (tileBytesOf s x) (reviveCodec s x) s then reply p (busy (beatsToBoundary s)) s
    else
      let s := dropOps (fun o => o.slot == slot && !o.begun && (o.kind == .demote || o.kind == .pull)) s
      let s := addOp .revive slot (tileBytesOf s x) (reviveCodec s x) 0 0 p.client 1 s
      let s := modSession slot (fun x => { x with toolQueued := 0, d := { x.d with revivePending := true } }) s
      accept p (.revive slot) s

def execSessionRevive (p : Packet) (s : State) : Host.Outcome State Fault Refusal :=
  .next (serve (opIs 0x25) behindAppend reviveBody p s)

/-! ### SESSION_CANCEL and SESSION_CLOSE (03 R89, R92) -/

/-- A LOST session is freed by CLOSE or CANCEL, with CLOSED journaled. -/
def freeLost (slot : Nat) (s : State) : State :=
  let x := sessionAt s slot
  freeSlot slot (queueMark (sessionHandle s slot) 8 x.d.ledgerPos s)

def cancelBody (_ : Nat) (p : Packet) (s : State) : State :=
  let slot := slotOf p s
  let x := sessionAt s slot
  if x.d.state = 6 then reply p ok (freeLost slot s)
  else
    let r := cancelSession slot s
    reply p { status := stOK, count0 := r.1.1, count1 := r.1.2 } r.2

def execSessionCancel (p : Packet) (s : State) : Host.Outcome State Fault Refusal :=
  .next (serve (opIs 0x26) never cancelBody p s)

/-- What ends a background copy with its session: the target is told, and HANDOVER_OUT is answered CANCELLED. DESIGN CHOICE (log entry 91): the rules give this for SESSION_CANCEL (12 R343), and say nothing of a close or an export in copy passes 1 to 3. -/
def endCopy (slot : Nat) (s : State) : State := revertHandover slot true { status := stCANCELLED } s

/-- Closes a session: CLOSED is journaled, waiting commands end CANCELLED, frees fall due at the boundary. -/
def closeSession (slot : Nat) (s : State) : State :=
  let x := sessionAt s slot
  let h := sessionHandle s slot
  let n := match x.job with | some j => (j.delivered, j.positions) | none => (0, 0)
  let s := withdraw h s
  let s := endCopy slot s
  let s := finish (.generate slot) { status := stCANCELLED, count0 := n.1, count1 := n.2 } s
  let s := endMoverWork slot { status := stCANCELLED } s
  let s := queueMark h 8 x.d.ledgerPos s
  let s := modSession slot (fun x => { x with job := none, rebuild := none }) (returnScratch slot s)
  let s := reportCandidate slot false s
  setState slot 8 s

def closeBody (_ : Nat) (p : Packet) (s : State) : State :=
  let slot := slotOf p s
  let x := sessionAt s slot
  if x.d.state = 6 then reply p ok (freeLost slot s)
  else match stateRefusal x [1, 3, 7] s with
  | some a => reply p a s
  | none =>
    let s := reply p ok (closeSession slot s)
    if s.sched.active.isNone then freeClosing slot s else s

def execSessionClose (p : Packet) (s : State) : Host.Outcome State Fault Refusal :=
  .next (serve (opIs 0x27) behindAppend closeBody p s)

/-! ### SESSION_QUERY (11 R310) -/


/-- A session that is moving or lost answers no query (03 R89). -/
def queryBody (_ : Nat) (p : Packet) (s : State) : State :=
  let slot := slotOf p s
  let need := writtenBytes s 272
  match stateRefusal (sessionAt s slot) [1, 2, 3, 7] s with
  | some a => reply p a s
  | none =>
  if bufLen p 0x20 < need then reply p { status := stBAD_LENGTH, detail := need } s
  else
    let x := sessionAt s slot
    let b := descriptorBytes s slot ++ countsHeader x ++ constraintBytes x
    reply p { status := stOK, count0 := 272 } (hostOut (originOf p s) (bufAddr p 0x20) 5 b s)

def execSessionQuery (p : Packet) (s : State) : Host.Outcome State Fault Refusal :=
  .next (serve (opIs 0x28) behindAppend queryBody p s)

/-! ### SESSION_CONSTRAIN (03 R86; 10 R260 to R262) -/

/-- A set, or none, takes effect: the old set's reference goes, the automata are seeded, held bytes go out (10 R262). -/
def applySet (slot : Nat) (set : Option Nat) (s : State) : State :=
  let x := sessionAt s slot
  let s := releaseSet x.con.set s
  let c := set.bind (fun i => FMap.get? s.cont.sets i)
  let s := modSession slot (fun x => { x with con := seedCon c set x.con, nextSet := none, nextSetDue := false }) s
  match x.job with
  | none => s
  | some j =>
    let s := deliver slot j.pendingBytes s
    modSession slot (fun x => { x with job := x.job.map (fun j => { j with pendingBytes := [] }) }) s

def installSet (slot : Nat) (set : Option Nat) (s : State) : State :=
  let x := sessionAt s slot
  if x.d.state = 2 then
    let s := match x.nextSet with | some old => releaseSet old s | none => s
    modSession slot (fun x => { x with nextSet := some set, nextSetDue := false }) s
  else applySet slot set s

def constrainBody (_ : Nat) (p : Packet) (s : State) : State :=
  let slot := slotOf p s
  let x := sessionAt s slot
  match stateRefusal x [1, 2, 3] s with
  | some a => reply p a s
  | none =>
    match readSet p.params with
    | .error off => reply p (bad ((0x20 + off) % 2 ^ 16)) s
    | .ok none => reply p ok (installSet slot none s)
    | .ok (some c) =>
      match compileSet c x s with
      | none => reply p (noResource 0x0006) s
      | some (i, s) => reply p ok (installSet slot (some i) s)

def execSessionConstrain (p : Packet) (s : State) : Host.Outcome State Fault Refusal :=
  .next (serve (opIs 0x29) behindAppend constrainBody p s)

end Sys2Proof.Machine
end

