-- ==== Sys2Proof/Machine/Training.lean ====
section
/-! DEFINITION. Training (05 R145 to R149; 07 R181 OPT): adapters with their gradients and the optimizer, scratch pages and row statistics of a training pass. -/

namespace Sys2Proof.Machine

/-- The TRAIN section of a partition in the active image. -/
def trainOf (s : State) (part : Nat) : Option Train := s.sched.active.bind (fun img => img.trains.find? (fun t => t.partition == part))

/-! ### Adapters (05 R148) -/

/-- Number of the k-th adapter matrix pair of a training partition. -/
def adapterKey (part k : Nat) : Nat := part * 65536 + k

def adapterAt (s : State) (key : Nat) : Adapter := FMap.getD s.fab.adapters key {}

def modAdapter (key : Nat) (f : Adapter → Adapter) (s : State) : State :=
  { s with fab := { s.fab with adapters := FMap.put s.fab.adapters key (f (adapterAt s key)) } }

/-- Elements of A and B together. -/
def shapeSize (h : AdapterShape) : Nat := h.rank * (h.dIn + h.dOut)

/-- The BF16 form of FP32 masters. -/
def bf16Of (elems : FMap AdapterElem) : FMap Nat := elems.map (fun e => (e.1, (cvt 6 true e.2.master).code))

/-- An adapter as an image declares it: one of that size is kept, another starts from the image's masters (log entry 94). -/
def declareAdapter (key : Nat) (h : AdapterShape) (s : State) : State :=
  if (adapterAt s key).size = shapeSize h then s
  else
    let elems : FMap AdapterElem := ((h.init.take (shapeSize h)).zipIdx).map (fun e => (e.2, ⟨e.1, 0, 0⟩))
    modAdapter key (fun _ => { size := shapeSize h, elems := elems, live := bf16Of elems, prev := bf16Of elems }) s

/-- The adapters of every training partition of an image. -/
def declareAdapters (img : Image) (s : State) : State :=
  img.trains.foldl (fun s t => (t.adapters.zipIdx).foldl (fun s e => declareAdapter (adapterKey t.partition e.2) e.1 s) s) s

/-- At a step boundary the gradients end; an adapter updated in the step applies to passes that enter from now on, passes in flight keep the one they entered with (05 R148, 01 R31). -/
def turnAdapter (a : Adapter) : Adapter :=
  { a with grads := [], prev := a.live, live := if a.updated then bf16Of a.elems else a.live
           updates := if a.updated then a.updates + 1 else a.updates, updated := false }

def turnAdapters (s : State) : State := { s with fab := { s.fab with adapters := FMap.mapVals (fun _ a => turnAdapter a) s.fab.adapters } }

/-- The adapter that passes of a partition run with: its own while it trains, or the one it names, if that one has the matrix pair (09 R223). -/
def passAdapter (s : State) (part k : Nat) : Option Nat :=
  if (trainOf s part).isSome then some (adapterKey part k)
  else
    match partitionAt s part with
    | none => none
    | some q =>
      if q.adapterPart = 0xFF then none
      else
        match (trainOf s q.adapterPart).bind (fun t => t.adapters[k]?) with
        | some h => if h.adapter = q.adapterIndex then some (adapterKey q.adapterPart k) else none
        | none => none

/-- BF16 codes of elements of the adapter of a pass; `entered` where it entered before the last boundary. -/
def adapterCodes (s : State) (entered : Bool) (part k element n : Nat) : List Nat :=
  match passAdapter s part k with
  | none => List.replicate n 0
  | some key =>
    let a := adapterAt s key
    (List.range n).map (fun i => FMap.getD (if entered then a.prev else a.live) (element + i) 0)

/-! ### Gradients (05 R148) -/

/-- A command's products join the gradient of an adapter element. -/
def addGradient (part : Nat) (j : DotJob) (s : State) : State :=
  modAdapter (adapterKey part j.adapter.1) (fun a => { a with grads := FMap.put a.grads j.adapter.2 (FMap.getD a.grads j.adapter.2 [] ++ [j]) }) s

/-- The exact sum of an element's gradient over every example and microbatch of the step: one alignment, taken over all its products, so that neither order nor placement shows. -/
def gradientSum (js : List DotJob) : Acc :=
  let l := (maxInt (js.map lambdaOf)).getD 0
  js.foldl (fun a j =>
    let b := sumAt l (alignedMax j) j
    { a with w := a.w + b.w, nan := a.nan || b.nan, pinf := a.pinf || b.pinf, ninf := a.ninf || b.ninf, lost := a.lost || b.lost
             spread := max a.spread b.spread, residue := (a.residue + b.residue) % 127 }) { lambda := l }

/-! ### The optimizer (07 R181 OPT; log entry 94) -/

/-- b^n, multiplied up. -/
def f32Pow (b : Nat) : Nat → Nat
  | 0 => f32One
  | n + 1 => f32Mul (f32Pow b n) b

/-- SGD with momentum: v = beta v + g; w = w - rate v. -/
def sgdStep (t : Train) (g : Nat) (e : AdapterElem) : AdapterElem :=
  let v := f32Add (f32Mul t.beta1 e.first) g
  { e with first := v, master := f32Sub e.master (f32Mul t.rate v) }

/-- AdamW: moments, their bias correction at update n, decoupled decay. -/
def adamStep (t : Train) (n g : Nat) (e : AdapterElem) : AdapterElem :=
  let m := f32Add (f32Mul t.beta1 e.first) (f32Mul (f32Sub f32One t.beta1) g)
  let v := f32Add (f32Mul t.beta2 e.second) (f32Mul (f32Sub f32One t.beta2) (f32Mul g g))
  let mh := f32Div m (f32Sub f32One (f32Pow t.beta1 n))
  let vh := f32Div v (f32Sub f32One (f32Pow t.beta2 n))
  let d := f32Add (f32Div mh (f32Add (f32Sqrt vh) t.eps)) (f32Mul t.decay e.master)
  { master := f32Sub e.master (f32Mul t.rate d), first := m, second := v }

/-- OPT on one element: its gradient in FP32, then the image's optimizer; whether the gradient's sum lost a bit. -/
def optElem (t : Train) (key : Nat) (i : Nat) (s : State) : OutElem × Acc × State :=
  let a := adapterAt s key
  let g := gradientSum (FMap.getD a.grads i [])
  let o := convert 7 true g
  let e := FMap.getD a.elems i ⟨0, 0, 0⟩
  let e' := if t.optimizer = 0 then sgdStep t o.code e else adamStep t (a.updates + 1) o.code e
  (o, g, modAdapter key (fun a => { a with elems := FMap.put a.elems i e', updated := true }) s)

/-! ### The adapter part of a shard (16 R423, R424; its layout: log entry 94) -/

def adapterBytes (a : Adapter) : Bytes :=
  leBytes 8 a.size ++ leBytes 8 a.updates ++ leBytes 8 a.elems.length
    ++ (a.elems.map (fun e => leBytes 8 e.1 ++ leBytes 4 e.2.master ++ leBytes 4 e.2.first ++ leBytes 4 e.2.second)).flatten

/-- The adapters of a training partition, each behind its number and length. -/
def adapterPart (s : State) (part : Nat) : Bytes :=
  ((s.fab.adapters.filter (fun e => e.1 / 65536 == part)).map (fun e => leBytes 8 (e.1 % 65536) ++ leBytes 8 (adapterBytes e.2).length ++ adapterBytes e.2)).flatten

/-- An adapter from its bytes. -/
def adapterOf (b : Bytes) : Adapter :=
  let elems : FMap AdapterElem := (List.range (fieldAt b 16 8)).map (fun i =>
    (fieldAt b (24 + 20 * i) 8, ⟨fieldAt b (32 + 20 * i) 4, fieldAt b (36 + 20 * i) 4, fieldAt b (40 + 20 * i) 4⟩))
  { size := fieldAt b 0 8, updates := fieldAt b 8 8, elems := elems, live := bf16Of elems, prev := bf16Of elems }

/-- Restores the adapters of a partition from a shard's adapter part. -/
def restoreAdapters (part : Nat) : Nat → Bytes → State → State
  | 0, _, s => s
  | fuel + 1, b, s =>
    if b.length < 16 then s
    else restoreAdapters part fuel (b.drop (16 + fieldAt b 8 8))
      (modAdapter (adapterKey part (fieldAt b 0 8)) (fun _ => adapterOf ((b.drop 16).take (fieldAt b 8 8))) s)

/-! ### Frames of a training pass (05 R145, R146) -/

/-- Query heads of a partition (05 R146). -/
def queryHeads (s : State) (part : Nat) (q : Partition) : Nat := q.kvHeads * (match patternOf s part with | some a => a.qPerKv | none => 1)

/-- Bytes of the statistics area of a pass over `len` positions. -/
def statsBytes (s : State) (part len : Nat) : Nat :=
  match partitionAt s part with | some q => q.layers * queryHeads s part q * len * 8 | none => 0

/-- Takes frames for the given keys. -/
def takeFrames (part : Nat) (keys : List Nat) (a : FMap Nat × State) : FMap Nat × State :=
  keys.foldl (fun a k => let t := takeFrame part a.2; (FMap.put a.1 k t.1, t.2)) a

/-- Offset of the record of a local layer, query head and position in the statistics area. -/
def statsOffset (s : State) (part len layer head pos : Nat) : Nat :=
  match partitionAt s part with | some q => ((layer * queryHeads s part q + head) * len + pos) * 8 | none => 0

/-- State Space address of an offset of a session's statistics area. -/
def statsAddr (s : State) (x : Session) (offset : Nat) : Option Nat :=
  let g := granuleOf s x.d.partition
  (FMap.get? x.stats (offset / g)).map (fun f => f + offset % g)

end Sys2Proof.Machine
end

