-- ==== Sys2Proof/Machine/Transfer.lean ====
section
/-! DEFINITION. SESSION_GENERATE in both variants, SESSION_EXPORT and SESSION_IMPORT (11 R301, R310; 04 R109, R110; 05 R145 to R149). -/

namespace Sys2Proof.Machine

/-! ### Reservations (11 R301) -/

/-- The RING section of a partition in the active image. -/
def ringOf (s : State) (part : Nat) : Option RingSection := s.sched.active.bind (fun img => img.rings.find? (fun r => r.partition == part))

def ringSizeOf (s : State) (part : Nat) : Nat := match ringOf s part with | some r => r.members.length | none => 1

/-- CTRL message slots that admitted generations hold: one per ring member (12 R332). -/
def ctrlHeld (s : State) : Nat :=
  s.slots.table.foldl (fun n e => if e.2.job.isSome then n + ringSizeOf s e.2.d.partition else n) 0

/-- MIGR stream slots that handovers hold: three copy passes and the final pass (11 R301). -/
def migrHeld (s : State) : Nat :=
  s.slots.table.foldl (fun n e => match e.2.handover with | some h => if h.source then n + 4 else n | none => n) 0

/-- Frames a serving generation reserves. -/
def steadyFrames (s : State) (x : Session) (byteCount : Nat) : Nat :=
  let w := windowOf s x.d.partition
  let copy := boolNat (tailShared s x)
  if w = 0 then x.pages.length + ceilDiv (byteCount + 1) 64 + 1 + copy
  else ceilDiv (w - 1) 64 + 1 + (globalPages (globalRanges s x.d.partition)).length + 1 + copy

/-- Free T1 bytes, with what a session's pending revive has reserved for it. -/
def t1FreeFor (s : State) (slot : Nat) : Nat :=
  let x := sessionAt s slot
  t1Free s + reservedBy s slot x * granuleOf s x.d.partition

/-! ### The sampling block (10 R273) -/

def samplingOf (p : Packet) : Sampling := {
  temp := paramOf p 0x20 4, topP := paramOf p 0x24 4, minP := paramOf p 0x28 4, presence := paramOf p 0x2C 4
  frequency := paramOf p 0x30 4, repetition := paramOf p 0x34 4, topK := paramOf p 0x38 2 }

/-- Whether an FP32 word lies between two bounds; a NaN lies nowhere. -/
def f32In (lo hi v : Nat) : Bool := f32Le lo v && f32Le v hi

def f32Hundred : Nat := 0x42C80000
def f32MinusHundred : Nat := 0xC2C80000
def f32Sixteen : Nat := 0x41800000
def f32Hundredth : Nat := 0x3C23D70A

/-- The offset of the first field outside its range (10 R273). -/
def samplingRefusal (b : Sampling) : Option Nat :=
  if !(bitsOf b.temp 0 31 == 0 || f32In f32Hundredth f32Hundred b.temp) then some 0x20
  else if !(f32Lt 0 b.topP && f32Le b.topP f32One) then some 0x24
  else if !(f32Le 0 b.minP && f32Lt b.minP f32One) then some 0x28
  else if !f32In f32MinusHundred f32Hundred b.presence then some 0x2C
  else if !f32In f32MinusHundred f32Hundred b.frequency then some 0x30
  else if !f32In f32One f32Sixteen b.repetition then some 0x34
  else if 256 < b.topK then some 0x38
  else none

/-! ### SESSION_GENERATE, serving -/

/-- Instant by which every reserved page is resident, as 09 R246 takes it. -/
def residentAt (o : Origin) (resident : Bool) (s : State) : Nat :=
  let r := o.beat * 4096 + o.phase
  if resident then r else match s.sched.active with | some img => moverEnd img r 1 | none => r

/-- The generation record of an admitted command. -/
def newGeneration (p : Packet) (o : Origin) (count frames : Nat) (resident : Bool) (s : State) : Generation := {
  block := samplingOf p, byteCount := count
  outAddr := bufAddr p 0x48, wakeAfter := paramOf p 0x40 8
  parkOnEnd := bitOf (argOf p 21 1) 0, admitBeat := o.beat, admitPhase := o.phase, waitStep := s.sched.step
  resident := resident, framesReserved := frames, yAt := residentAt o resident s }

/-- A park that has not begun is withdrawn for a SESSION_GENERATE (03 R91): its reply is CANCELLED. -/
def withdrawPark (slot : Nat) (s : State) : State :=
  let s := dropOps (fun o => o.slot == slot && !o.begun && o.kind == .park) s
  finish (.park slot) { status := stCANCELLED } (modSession slot (fun x => { x with parkWake := 0, d := { x.d with parkPending := false } }) s)

/-- Admission of a serving generation: frames, CTRL slots and Mover capacity at one instant, else NO_RESOURCE or BUSY (11 R300, R301). -/
def admitGenerate (p : Packet) (slot count : Nat) (s : State) : State :=
  let x := sessionAt s slot
  let o := originOf p s
  let frames := steadyFrames s x count
  let need := (frames - t1Pages x) * granuleOf s x.d.partition
  let parked : Bool := (parkPages x).any (fun g => g.tier != 1)
  let park := opOf s slot (fun o => o.kind == .park)
  let begun : Bool := match park with | some o => o.begun | none => false
  let pend := opOf s slot isRevive
  let fresh : Bool := (parked || begun) && pend.isNone
  let copy : Bool := tailShared s x && !begun
  let move := if fresh then tileBytesOf s x else if copy then granuleOf s x.d.partition else 0
  let codec := if fresh then max (reviveCodec s x) (if begun then parkBytes s x (parkGrade s x) else 0) else 0
  if t1FreeFor s slot < need then reply p (noResource 0x0001) s
  else if 4096 < ctrlHeld s + ringSizeOf s x.d.partition then reply p (noResource 0x000A) s
  else if (fresh ∨ copy) ∧ !moverFits move codec s then reply p (busy (beatsToBoundary s)) s
  else
    let s := dropOps (fun o => o.slot == slot && !o.begun && (o.kind == .demote || o.kind == .pull)) s
    let s := if begun then s else withdrawPark slot s
    let s := { s with tier := { s.tier with ops := s.tier.ops.map (fun o => if o.slot = slot ∧ o.kind = .revive then { o with kind := .reviveTaken } else o) } }
    let s := if fresh then addOp .reviveTaken slot move codec 0 0 p.client 1 s
      else if copy then addOp .privateCopy slot move 0 0 0 p.client 1 s else s
    let resident := !parked && !begun && pend.isNone
    let j := newGeneration p o count frames resident s
    let s := modSession slot (fun x => { x with job := some j, toolQueued := 0, d := { x.d with revivePending := x.d.revivePending && pend.isSome } }) s
    let s := setState slot 2 s
    let s := accept p (.generate slot) s
    if resident then reportCandidate slot true s else s

def generateBody (_ : Nat) (p : Packet) (s : State) : State :=
  let slot := slotOf p s
  let x := sessionAt s slot
  if x.d.state = 7 then reply p (rebuilding s x) s
  else match stateRefusal x [1, 3] s with
  | some a => reply p a s
  | none =>
    let count := argOf p 24 4
    let out := bufLen p 0x48
    if 1 < argOf p 20 1 then reply p (bad 0x14) s
    else if !slotsReady s ∨ (ringOf s x.d.partition).isNone then reply p (busy 0xFFFF) s
    else match samplingRefusal (samplingOf p) with
    | some off => reply p (bad off) s
    | none =>
      if out < 48 * max count 1 then reply p (bad 0x48) s
      else if x.d.ledgerPos = 0 then reply p (bad 0x0008) s
      else if x.con.absent then reply p (bad 0xFFFE) s
      else if x.d.state = 3 ∧ x.exported then reply p (noResource 0x0004) s
      else if (opOf s slot (fun o => o.kind == .sessionOut || o.kind == .sessionIn)).isSome then reply p (busy (beatsToBoundary s)) s
      else admitGenerate p slot (if count = 0 then out / 48 else count) s

/-- The serving variant, and a VARIANT the table does not give. -/
def isServe (p : Packet) : Bool := opcodeOf p == 0x23 && argOf p 20 1 != 1
def isTrain (p : Packet) : Bool := opcodeOf p == 0x23 && argOf p 20 1 == 1

def execSessionGenerate (p : Packet) (s : State) : Host.Outcome State Fault Refusal :=
  .next (serve isServe behindAppend generateBody p s)

/-! ### SESSION_GENERATE, training (05 R145, R146, R149) -/

/-- Frames a training pass takes at admission: scratch pages and the statistics area. -/
def trainFrames (s : State) (x : Session) : Nat :=
  ceilDiv x.d.ledgerPos 64 + ceilDiv (statsBytes s x.d.partition x.d.ledgerPos) (granuleOf s x.d.partition)

/-- The scratch frames and the statistics area are taken (05 R145, R146). -/
def takeScratch (slot : Nat) (s : State) : State :=
  let x := sessionAt s slot
  let part := x.d.partition
  let a := takeFrames part (List.range (ceilDiv x.d.ledgerPos 64)) (([] : FMap Nat), s)
  let b := takeFrames part (List.range (ceilDiv (statsBytes s part x.d.ledgerPos) (granuleOf s part))) (([] : FMap Nat), a.2)
  modSession slot (fun x => { x with scratch := a.1, stats := b.1 }) b.2

def trainBody (_ : Nat) (p : Packet) (s : State) : State :=
  let slot := slotOf p s
  let x := sessionAt s slot
  if x.d.state = 7 then reply p (rebuilding s x) s
  else match stateRefusal x [1] s with
  | some a => reply p a s
  | none =>
    if !slotsReady s ∨ x.d.copying ∨ (opOf s slot (fun o => o.kind == .park && o.begun)).isSome then reply p (busy 0xFFFF) s
    else match trainOf s x.d.partition with
    | none => reply p (bad 0x14) s
    | some t =>
      let lossFrom := paramOf p 0x20 8
      let frames := trainFrames s x
      if min t.trainLen 16384 < x.d.ledgerPos then reply p { status := stLIMIT_REACHED } s
      else if x.d.ledgerPos ≤ lossFrom + 1 then reply p (bad 0x20) s
      else if t1Free s < frames * granuleOf s x.d.partition then reply p (noResource 0x0001) s
      else if 4096 < ctrlHeld s + ringSizeOf s x.d.partition then reply p (noResource 0x000A) s
      else
        let o := originOf p s
        let s := withdrawPark slot s
        let j : Generation := { train := true, lossFrom := lossFrom, admitBeat := o.beat, admitPhase := o.phase, waitStep := s.sched.step }
        accept p (.generate slot) (setState slot 2 (takeScratch slot (modSession slot (fun x => { x with job := some j }) s)))

def execTrainingGenerate (p : Packet) (s : State) : Host.Outcome State Fault Refusal :=
  .next (serve isTrain behindAppend trainBody p s)

/-- A training pass has run: OK with the positions that carry loss and the bits of the summed loss; its scratch frames return at the next step boundary (05 R145). -/
def endTraining (slot : Nat) (s : State) : State :=
  match (sessionAt s slot).job with
  | none => s
  | some j =>
    if !j.train then s
    else
      let n := (sessionAt s slot).d.ledgerPos - 1 - j.lossFrom
      let s := setState slot 1 (modSession slot (fun x => { x with job := none }) (returnScratch slot s))
      finish (.generate slot) { status := stOK, count0 := n, count1 := j.loss } s

/-! ### The session capsule (04 R109) -/

/-- The bytes of a run as the ledger holds it: its 8-byte header and its payload, padded to 8 (03 R70). -/
def runImage (r : Run) : Bytes :=
  let b := runPayload r
  leBytes 1 r.kind ++ leBytes 1 (boolNat r.tokens) ++ leBytes 2 (if r.kind = 7 then 0 else r.elems.length) ++ leBytes 4 (r.step % 2 ^ 32) ++ b ++ padTo8 b.length

/-- A ledger segment as a capsule carries it (04 R109): its header and one Zstandard frame of its runs. -/
def segmentBytes (first : Nat) (g : List Run) : Bytes :=
  let f := Config.zstdFrame ((g.map runImage).flatten)
  leBytes 8 first ++ leBytes 4 ((g.map runCount).foldl (· + ·) 0) ++ leBytes 4 f.length ++ f ++ padTo8 f.length

def ledgerBytesFrom : Nat → List (List Run) → Bytes
  | _, [] => []
  | first, g :: gs => segmentBytes first g ++ ledgerBytesFrom (first + (g.map runCount).foldl (· + ·) 0) gs

/-- This device's part: its page list with offsets for frames, then the page capsules, those of lenders among them. -/
def partBytes (s : State) (x : Session) : Bytes :=
  let list := parkPages x
  let caps := list.map (fun p => match frameAt s p.frame with | some f => if f.tier = 1 then [] else f.capsule | none => [])
  let base := 16 * list.length
  let offs := caps.foldl (fun (a : List Nat × Nat) c => (a.1 ++ [if c.isEmpty then 0 else a.2], a.2 + c.length)) ([], base)
  ((list.zip offs.1).map (fun e => pageBytes16 { e.1 with frame := e.2 })).flatten ++ caps.flatten

/-- The grade of a session's page capsules; the parking grade where it has none. -/
def capsuleGrade (s : State) (x : Session) : Nat :=
  match x.pages.find? (fun p => p.tier != 1) with | some p => p.grade | none => parkGrade s x

/-- First layer of a ring position, for a model split evenly (log entry 21). -/
def layerFrom (q : Partition) (i : Nat) : Nat := q.firstLayer + i * q.layers - q.position * q.layers

/-- The session capsule an export writes: header, counts, constraint state, ledger, directory, parts, and the SHAKE256 digest of all of it. Other positions' parts arrive from their devices (log entry 11). -/
def sessionCapsuleBytes (s : State) (slot : Nat) : Bytes :=
  let x := sessionAt s slot
  let segs := segmentsOf (x.body ++ x.tail)
  let ledger := ledgerBytesFrom 0 segs
  let counts := countsBytes x
  let own := partBytes s x
  match partitionAt s x.d.partition with
  | none => []
  | some q =>
    let r := ringSizeOf s x.d.partition
    let dirAt := 256 + counts.length + 128 + ledger.length
    let partsAt := dirAt + 32 * r
    let part (i : Nat) : Bytes := if i = q.position then own
      else match x.parts.find? (fun e => e.1 == i) with | some e => e.2 | none => openBytes (slot * 2 ^ 12 + i) own.length
    let padded := (List.range r).map (fun i => part i ++ List.replicate (ceilDiv (part i).length 8 * 8 - (part i).length) 0)
    let entry (i : Nat) : Bytes :=
      leBytes 2 i ++ leBytes 2 (layerFrom q i) ++ leBytes 2 q.layers ++ leBytes 2 q.kvHeads ++ leBytes 2 q.headDim
        ++ leBytes 1 q.kvFormat ++ leBytes 5 0 ++ leBytes 8 (partsAt + ((padded.take i).map List.length).foldl (· + ·) 0) ++ leBytes 8 (part i).length
    let parts := padded.flatten
    let total := partsAt + parts.length + 64
    let digest := match FMap.get? s.cont.models q.model with | some m => leBytes 32 m.measurement.toNat | none => leBytes 32 0
    let b := leBytes 4 0x43534E46 ++ leBytes 2 1 ++ leBytes 1 (capsuleGrade s x) ++ [0] ++ leBytes 8 (sessionHandle s slot) ++ leBytes 2 r ++ leBytes 2 0
      ++ leBytes 4 segs.length ++ leBytes 8 total ++ digest ++ List.replicate 64 0 ++ descriptorBytes s slot
      ++ counts ++ constraintBytes x ++ ledger ++ ((List.range r).map entry).flatten ++ parts
    b ++ leBytes 64 (shake256 b).toNat

/-- The worst-case capsule a buffer must hold: every page at the Extrait worst case, ledger segments uncompressed (log entry 21). -/
def worstCapsule (s : State) (x : Session) : Nat :=
  let r := ringSizeOf s x.d.partition
  256 + (if x.d.vocab then 32784 else 1040) + 128 + ((segmentsOf (x.body ++ x.tail)).map (fun g => 16 + (g.map runBytes).foldl (· + ·) 0)).foldl (· + ·) 0
    + 32 * r + r * (16 * x.pages.length + parkSpace s x) + 64

/-! ### SESSION_EXPORT -/

def exportBody (_ : Nat) (p : Packet) (s : State) : State :=
  let slot := slotOf p s
  let x := sessionAt s slot
  match stateRefusal x [1, 3] s with
  | some a => reply p a s
  | none =>
    if !slotsReady s ∨ x.exported ∨ (opOf s slot (fun o => o.kind == .sessionOut)).isSome then reply p (busy 0xFFFF) s
    else if bufLen p 0x20 < writtenBytes s (worstCapsule s x) then replyOpen p stBAD_LENGTH s
    else
      let g := parkGrade s x
      let b := if x.d.state = 1 then parkBytes s x g else storedBytes s x
      let codec := if x.d.state = 1 then (if g = 0 then tileBytesOf s x else b) else 0
      if !moverFits b codec s then reply p (busy (beatsToBoundary s)) s
      else
        let s := dropOps (fun o => o.slot == slot && !o.begun && (o.kind == .demote || o.kind == .pull)) (endCopy slot s)
        let s := addOp .sessionOut slot b codec g (bufAddr p 0x20) p.client 4 s
        accept p (.capsuleOut slot) s

def execSessionExport (p : Packet) (s : State) : Host.Outcome State Fault Refusal :=
  .next (serve (opIs 0x2A) behindShift exportBody p s)

/-- An export commits: its pages are in T4, the host holds the capsule, and the session is PARKED (03 R89, 04 R112). -/
def commitExport (o : MoverOp) (s : State) : State :=
  let x := sessionAt s o.slot
  let r := if x.d.state = 1 then parkPagesAll o.slot o.grade 2 x.pages s else (x.pages, s)
  let s := modSession o.slot (fun x => { x with pages := r.1, drafts := [] }) r.2
  let b := sessionCapsuleBytes s o.slot
  let s := match commandOf s (.capsuleOut o.slot) with | some c => hostOut c.origin o.buffer 4 b s | none => s
  let s := framesDue (r.1.map (fun p => p.frame)) s
  let s := modSession o.slot (fun x => { x with
    exported := true, parts := [], pages := x.pages.map (fun p => { p with tier := 4, frame := 0, shared := false }) }) s
  let s := if x.d.state = 1 then setState o.slot 3 s else s
  let s := { s with counters := { s.counters with exported := satAdd (2 ^ 64 - 1) s.counters.exported 1 } }
  finishMover (.capsuleOut o.slot) o.moveBytes { status := stOK, count0 := b.length % 2 ^ 32, count1 := b.length / 2 ^ 32 } s

/-! ### SESSION_IMPORT (04 R110) -/

/-- The part directory fits the ring: every position, the layer split, heads, dimension and format. -/
def partsMatch (s : State) (part : Nat) (q : Partition) (parts : List PartEntry) : Bool :=
  decide (parts.length = ringSizeOf s part)
    && parts.all (fun e => e.kvHeads == q.kvHeads && e.headDim == q.headDim && e.kvFormat == q.kvFormat
      && e.firstLayer == layerFrom q e.position && e.layers == q.layers)
    && (parts.zipIdx).all (fun e => e.1.position == e.2)

/-- Capsule bytes an image brings to this device. -/
def incomingBytes (b : SessionImage) : Nat := (b.capsules.map List.length).foldl (· + ·) 0

/-- The checks of 04 R110 in order; `placed` says whether placement finds room. -/
def importRefusal (p : Packet) (part : Nat) (q : Partition) (cap : SessionCapsule) (placed : Bool) (s : State) : Option Ans :=
  if cap.magic ≠ 0x43534E46 ∨ cap.version ≠ 1 ∨ cap.totalBytes ≠ cap.facts.delivered then some (bad 0x20)
  else if cap.facts.digest ≠ cap.facts.trailer then some { status := stDIGEST_FAIL }
  else if (FMap.get? s.cont.models q.model).any (fun m => m.measurement.toNat % 2 ^ 256 != cap.modelDigest) then some (bad 0x20)
  else if !partsMatch s part q cap.parts then some { status := stSHAPE_MISMATCH }
  else if handleOf p ≠ 0 ∧ cap.body.handle ≠ handleOf p then some (bad 0x0008)
  else if !placed then some (noResource 0x0002)
  else none

/-- A session's fields from its travelling image (04 R110, 12 R340). -/
def fromImage (b : SessionImage) (old : Session) (part client epoch now : Nat) : Session := {
  gen := old.gen, exported := b.pages.any (fun p => p.tier == 4), body := b.ledger, counts := b.counts, con := b.con, leadRow := b.leadRow
  d := {
    state := 0, partition := part, vocab := b.vocab, stopInc := b.stopInc, grade := b.grade, fromProfile := b.fromProfile
    deadPolicy := b.deadPolicy, vocabIndex := b.vocabIndex, client := client, spec := b.spec, committed := b.committed
    ledgerPos := b.ledgerPos, retired := b.retired, genKey := b.genKey, wake := b.wake, maxLen := b.maxLen
    countsFolded := b.counts.foldedDistinct != 0, lastBeat := now, epoch := epoch } }

def importBody (cap : SessionCapsule) (_ : Nat) (p : Packet) (s : State) : State :=
  let part := argOf p 20 1
  match partitionAt s part with
  | none => reply p (bad 0x14) s
  | some q =>
    let old := liveSlot s (handleOf p)
    let x := sessionAt s (old.getD 0)
    let refusal := if old.isSome then (match stateRefusal x [3] s with
        | some a => some a
        | none => if x.exported ∧ (opOf s (old.getD 0) (fun o => o.kind == .sessionIn)).isNone then none else some (busy 0xFFFF)) else none
    match refusal with
    | some a => reply p a s
    | none =>
      if !slotsReady s then reply p (busy 0xFFFF) s
      else if old.isNone ∧ isLeaving s then reply p (noResource 0x000B) s
      else
      let fresh := if old.isSome then old else nextSlot s
      let n := incomingBytes cap.body
      let place := placePark (fresh.getD (2 ^ 24)) n (if old.isSome then x.d.wake else cap.body.wake) s
      match importRefusal p part q cap place.isSome s with
      | some a => reply p a s
      | none =>
        match fresh with
        | none => reply p (noResource 0x0008) s
        | some slot =>
          if !moverFits n 0 s then reply p (busy (beatsToBoundary s)) s
          else
            let dest := (place.map (fun r => r.1)).getD 2
            let s := (place.map (fun r => r.2)).getD s
            let s1 := if old.isSome then s else
              putSession slot (fromImage cap.body (sessionAt s slot) part p.client s.comp.epoch (stamp s)) (takeSlot s)
            let s1 := modSession slot (fun x => { x with incoming := some cap.body }) s1
            let s1 := addOp .sessionIn slot n 0 cap.body.grade 0 p.client dest s1
            accept p (.capsuleIn slot) s1

def execSessionImport (p : Packet) (cap : SessionCapsule) (s : State) : Host.Outcome State Fault Refusal :=
  .next (serve (opIs 0x2B) behindAppend (importBody cap) p s)

/-- Places one arriving page capsule in a new frame of T2 or T3. -/
def placeCapsule (part dest : Nat) (g : Page) (b : Bytes) (s : State) : Page × State :=
  if b.isEmpty then ({ g with tier := 2, frame := 0, shared := false }, s)
  else
    let a := frameAddr part (freeIndex s part) (granuleOf s part)
    let l := if dest = 3 then (lenderFor s b.length).getD 0 else 0
    let f : Frame := { partition := part, tier := dest, grade := g.grade, length := b.length, count := 1, lender := l, lref := s.tier.nextRef
                       channel := placeChannel s a, capsule := b }
    let s := if dest = 3 then send (.capsulePut l s.tier.nextRef b) { s with tier := { s.tier with nextRef := s.tier.nextRef + 1 } } else s
    ({ g with tier := dest, frame := a, shared := false }, putFrame a f s)

def placeCapsules (part dest : Nat) : List Page → List Bytes → State → List Page × State
  | [], _, s => ([], s)
  | g :: rest, bs, s =>
    let a := placeCapsule part dest g (bs.headD []) s
    let r := placeCapsules part dest rest bs.tail a.2
    (a.1 :: r.1, r.2)

/-- An import commits: the capsules are in T2 or T3 and the session is PARKED (03 R89, 04 R110; 10 R263). -/
def commitImport (o : MoverOp) (s : State) : State :=
  let x := sessionAt s o.slot
  match x.incoming with
  | none => s
  | some b =>
    let fresh := x.d.state = 0
    let r := placeCapsules x.d.partition o.dest b.pages b.capsules s
    let named := b.con.set.isSome || b.con.absent
    let old := x.con.set
    let s := releaseSet old r.2
    let s := modSession o.slot (fun x => { x with
      pages := r.1, incoming := none, exported := false
      con := { (if fresh then b.con else x.con) with set := none, absent := named } }) s
    let s := setState o.slot 3 s
    let s := if fresh then queueLedger o.slot (sessionCreated o.slot s) else s
    let s := { s with counters := { s.counters with imports := satAdd (2 ^ 64 - 1) s.counters.imports 1 } }
    finishMover (.capsuleIn o.slot) o.moveBytes { status := stOK, handle := some (sessionHandle s o.slot) } s

end Sys2Proof.Machine
end

