-- ==== Sys2Proof/Machine/Faults.lean ====
section
/-! DEFINITION. Kills, schedule notices, deferrals, fallback plans, departures and fences (08 R206 to R218; 06 R170, R171; 07 R187, R188; 15 R396 to R405; 02 R49). -/

namespace Sys2Proof.Machine

/-! ### Slots and passes of the running step -/

/-- The microbatch of a slot still runs the pass of the step before (01 R31). -/
def passPrev (s : State) (x : SlotEntry) : Bool := s.sched.sealPrev.any (fun m => m.partition == x.partition && m.microbatch == x.microbatch)

/-- The image that a slot runs under: the one its pass in flight entered with, else the one in force (01 R31). -/
def slotImage (s : State) (id : Nat) : Option Image :=
  match s.sched.imagePrev with
  | some old => if (slotById old id).any (passPrev s) then some old else s.sched.active
  | none => s.sched.active

def activeSlot (s : State) (id : Nat) : Option SlotEntry := (slotImage s id).bind (fun img => slotById img id)

/-- The image that holds a transfer: that of a pass in flight first. -/
def transferImage (s : State) (id : Nat) : Option Image :=
  match s.sched.imagePrev with
  | some old => if (old.transfers.find? (fun t => t.id == id)).any (fun t => (slotById old t.slotId).any (passPrev s)) then some old else s.sched.active
  | none => s.sched.active

def slipOf (s : State) (part : Nat) : Nat := match partitionAt s part with | some q => q.slip | none => 0

/-- Slips of a partition that apply in this step, in the order they were noticed. -/
def slipsOf (s : State) (part : Nat) : List Notice :=
  s.sched.notices.filter (fun n => (n.kind == 1 || n.kind == 2) && n.partition == part && !s.sched.slipDue.contains n && n.step == s.sched.step)

/-- Beats by which a slot of a start in the step has moved: each slip moves the slots that begin at its E or later (08 R207). -/
def startSlip (s : State) (img : Image) (part start : Nat) : Nat :=
  (slipsOf s part).foldl (fun k n => if n.e ≤ stepStart img s.sched.step + start + k then k + n.delta else k) 0

/-- Beat at which a slot starts in this step, with its slip. -/
def slotBeat (s : State) (img : Image) (x : SlotEntry) : Nat := stepStart img s.sched.step + x.start + (if x.lane ≤ 1 then startSlip s img x.partition x.start else 0)

/-- How often a slot has been killed in this step: the run count of the run that stands (01 R28). -/
def runOf (s : State) (id : Nat) : Nat := FMap.getD s.sched.runs id 0

/-- The membership of a microbatch whose pass runs now: a pass of the step before until its sampling commit, then this step's (01 R31, R34). -/
def passOf (s : State) (part mb : Nat) : Option SealedMb :=
  let is (m : SealedMb) : Bool := m.partition == part && m.microbatch == mb
  match s.sched.sealPrev.find? is with
  | some m => some m
  | none => s.sched.sealNow.find? is

/-- Districts of a slot (08 R196). -/
def slotDistricts (x : SlotEntry) : List Nat := (List.range 16).filter (fun d => bitOf x.districts d)

def modDistrict (d : Nat) (f : District → District) (s : State) : State :=
  { s with fab := { s.fab with districts := FMap.put s.fab.districts d (f (FMap.getD s.fab.districts d {})) } }

def modBlock (d b : Nat) (f : Block → Block) (s : State) : State :=
  { s with fab := { s.fab with blocks := FMap.put s.fab.blocks (blockKey d b) (f (blockAt s d b)) } }

/-! ### Departures (02 R49, 08 R218) -/

/-- The first step boundary at least some beats after now. -/
def boundaryAfter (img : Image) (beats : Nat) (s : State) : Nat :=
  img.anchor + ceilDiv (s.cad.beat + beats - img.anchor) (max 1 img.stepBeats) * img.stepBeats

/-- The device leaves some of its rings at the first boundary at least a full step away, and tells their members. -/
def departRings (rings : List Nat) (s : State) : State :=
  match s.sched.active with
  | none => s
  | some img =>
    if rings.isEmpty ∨ s.sched.departures.any (fun e => e.1 == ownIndex s && rings.all (fun r => e.2.2.contains r)) then s
    else
      let b := departureBoundary img s
      send (.departure b rings) { s with sched := { s.sched with departures := s.sched.departures ++ [(ownIndex s, b, rings)] } }

/-! ### Notices (08 R208 to R213, R222) -/

/-- A deferral takes the unwithdrawn members of a microbatch out of every sealed place and keeps the deferred pass for its redo (08 R210, 09 R237). -/
def deferMb (part mb e : Nat) (s : State) : State :=
  match passOf s part mb with
  | none => s
  | some m =>
    let hs := (m.places.filter (fun p => !p.withdrawn)).map (fun p => p.handle)
    let fromPrev := s.sched.sealPrev.any (fun x => x.partition == part && x.microbatch == mb)
    let list := if fromPrev then s.sched.sealPrev else s.sched.sealNow
    let kept := (list.filter (fun x => x.partition == part)).filterMap (fun x =>
      let ps := x.places.filter (fun p => hs.contains p.handle && !p.withdrawn)
      if ps.isEmpty then none else some (e, { x with places := ps }))
    let mark (x : SealedMb) : SealedMb := { x with places := x.places.map (fun p => { p with withdrawn := p.withdrawn || hs.contains p.handle }) }
    { s with sched := { s.sched with
        kept := s.sched.kept ++ kept
        sealPrev := s.sched.sealPrev.map mark
        sealNow := s.sched.sealNow.map mark
        sealNext := s.sched.sealNext.map mark } }

/-- A deferral has emptied the pass of a slot's microbatch from its E on (08 R210): the rest of it runs with no work. -/
def deferred (s : State) (x : SlotEntry) : Bool :=
  s.sched.notices.any (fun n => n.kind == 3 && n.partition == x.partition && n.microbatch == x.microbatch && decide (n.e ≤ s.cad.beat))
    && !(passOf s x.partition x.microbatch).any (fun m => m.places.any (fun p => !p.withdrawn))

/-- Whether a notice of the same kind, step, slot, run and plan has been applied. -/
def noticed (n : Notice) (s : State) : Bool :=
  s.sched.notices.any (fun m => m.kind == n.kind && m.partition == n.partition && m.step == n.step && m.slotId == n.slotId
    && m.run == n.run && m.planId == n.planId && m.microbatch == n.microbatch)

/-- A slip waits for its instant. -/
def slipLater (n : Notice) (s : State) : State := { s with sched := { s.sched with slipDue := s.sched.slipDue ++ [n] } }

/-- Whether a slip of some beats stays within the rerun window (08 R210). -/
def slipFits (part delta : Nat) (s : State) : Bool :=
  match s.sched.active with
  | some img => decide (slipOf s part + delta ≤ img.windowBeats)
  | none => false

/-- Some command of a slot has passed its commit point in this step: it is not killed any more (01 R28). -/
def slotCommitted (id : Nat) (s : State) : Bool := s.sched.commits.any (fun e => e.1 == id)

/-- A run of a slot is killed: its effects are void and the next run count begins (01 R28). Each District whose commands die counts them: its share of the slot, or the one command that a core's mismatch kills (07 R191; log entry 86). -/
def voidRun (x : SlotEntry) (ds : List Nat) (s : State) : State :=
  let r := runOf s x.id
  let s := dropKind kindStage x.id { s with sched := { s.sched with killed := s.sched.killed ++ [(x.id, r)], runs := FMap.put s.sched.runs x.id (r + 1) } }
  ds.foldl (fun s d => modDistrict d (fun k => { k with kills := min 0xFFFF (k.kills + 1) }) s) s

/-- The started slots of a microbatch that have not committed. -/
def uncommitted (s : State) (part mb : Nat) : List SlotEntry :=
  (s.sched.done.filterMap (activeSlot s)).filter (fun x => x.partition == part && x.microbatch == mb && !slotCommitted x.id s)

/-- A deferral at its E: the microbatch's uncommitted commands die, its places go (08 R210). -/
def runDefer (n : Notice) (s : State) : State :=
  deferMb n.partition n.microbatch n.e ((uncommitted s n.partition n.microbatch).foldl (fun s x => voidRun x (slotDistricts x) s) s)

/-- Deferrals whose E has come take place; whatever reads the sealed places settles them first. -/
def settleDefers (s : State) : State :=
  let due := s.sched.deferDue.filter (fun n => decide (n.e ≤ s.cad.beat))
  due.foldl (fun s n => runDefer n s) { s with sched := { s.sched with deferDue := s.sched.deferDue.filter (fun n => !decide (n.e ≤ s.cad.beat)) } }

def deferLater (n : Notice) (s : State) : State := settleDefers { s with sched := { s.sched with deferDue := s.sched.deferDue ++ [n] } }

/-- Applies a notice once, whichever device sent it. -/
def registerNotice (n : Notice) (s : State) : State :=
  if noticed n s then s
  else
    let s := { s with sched := { s.sched with notices := s.sched.notices ++ [n] } }
    match n.kind with
    | 1 => slipLater n s
    | 2 =>
      let s := countPart n.partition (fun c => { c with aborts := c.aborts + 1 }) (report 0x401 (noticeBytes n) s)
      let s := match activeSlot s n.slotId with
        | some x => if bitOf x.flags 1 ∧ x.partition = n.partition ∧ runOf s x.id = n.run ∧ !slotCommitted x.id s then voidRun x (slotDistricts x) s else s
        | none => s
      if slipFits n.partition n.delta s then slipLater n s else s
    | 3 => deferLater n (countPart n.partition (fun c => { c with deferrals := c.deferrals + 1 }) (report 0x402 (noticeBytes n) s))
    | 4 =>
      let s := report 0x403 (noticeBytes n) s
      { s with sched := { s.sched with fallbacks := s.sched.fallbacks ++ [⟨n.planId, n.e, n.run == 1⟩] } }
    | _ => s

/-- Sends a notice to every ring member of some partitions and applies it here. -/
def sendNotice (peers : List Nat) (n : Notice) (s : State) : State :=
  registerNotice n (peers.foldl (fun s m => send (.notice (some m) n) s) s)

/-- A DEFER of a microbatch from this device. -/
def sendDefer (x : SlotEntry) (run e : Nat) (s : State) : State :=
  sendNotice (ringPeers s x.partition) ⟨3, x.partition, x.id, 0, s.sched.step, e, 0, run, x.microbatch, ownIndex s⟩ s

/-- What a kill of a slot's commands costs: a slip, a group abort for collective work, a deferral where the slip would not fit (08 R206 to R213). A slot whose killed run has not yet been rerun is not killed again. -/
def killRun (id : Nat) (ds : List Nat) (s : State) : State :=
  match s.sched.active, activeSlot s id with
  | some img, some x =>
    if s.sched.slipDue.any (fun n => n.slotId == id && n.partition == x.partition) then s
    else
      let r := runOf s id
      let fits := slipFits x.partition x.rerunBeats s
      let e := slotBeat s img x + x.beats
      if bitOf x.flags 1 then
        let ea := s.cad.beat + (if s.cad.phase = 0 then 0 else 1) + x.abortLead
        let s := sendNotice (ringPeers s x.partition) ⟨2, x.partition, id, 0, s.sched.step, ea, x.rerunBeats, r, x.microbatch, ownIndex s⟩ s
        if fits then s else sendDefer x r e s
      else
        let s := voidRun x ds s
        if fits then sendNotice (ringPeers s x.partition) ⟨1, x.partition, id, 0, s.sched.step, e, x.rerunBeats, r, x.microbatch, ownIndex s⟩ s
        else sendDefer x r e s
  | _, _ => s

/-- Kills the commands of a slot by a fault, unless they have committed (01 R28). -/
def killSlot (id : Nat) (s : State) : State := if slotCommitted id s then s else killRun id (match activeSlot s id with | some x => slotDistricts x | none => []) s

/-- Kills one command at its commit point: the others of its run, whose commit point is the same instant, still commit or mismatch there (06 R166, R170). -/
def killCommand (id district : Nat) (s : State) : State :=
  let r := runOf s id
  killRun id [district] { s with sched := { s.sched with partly := s.sched.partly ++ [(id, r, nowPhase s)] } }

/-! ### Fallback plans (08 R215 to R218) -/

def planFor (kind unit block : Nat) (img : Image) : Option FallbackPlan :=
  img.fallbacks.find? (fun f => f.kind == kind && f.unit == unit && f.block == block)

/-- Every member of the image's rings but this device. -/
def allPeers (s : State) : List Nat := ((allMembers s).filter (fun m => m != ownIndex s)).eraseDups

/-- Sends a FALLBACK of a plan, to apply or to revert, for a boundary. -/
def sendFallback (planId e : Nat) (revert : Bool) (s : State) : State :=
  sendNotice (allPeers s) ⟨4, 0, 0, planId, s.sched.step, e, 0, boolNat revert, 0xFF, ownIndex s⟩ s

/-- Rings with a transfer on a link that has no ALT route. -/
def ringsWithoutAlt (img : Image) (l : Nat) : List Nat :=
  let parts := (img.transfers.filter (fun t => t.link == l && t.alt == 0xFFFF)).filterMap (fun t => (slotById img t.slotId).map (fun x => x.partition))
  (img.rings.filter (fun r => parts.contains r.partition)).map (fun r => r.ringId)

/-- Slots that consume a frame of a link without an ALT route (08 R218). -/
def slotsWithoutAlt (img : Image) (l : Nat) : List SlotEntry :=
  (img.transfers.filter (fun t => t.link == l && t.alt == 0xFFFF && t.dir == 1)).filterMap (fun t => slotById img t.slotId)

/-- A link runs on two lanes (kind 1) or is lost (kind 2): its plan's FALLBACK, or departure of the end with the higher index, with the passes that need it deferred. -/
def linkDegraded (kind l : Nat) (s : State) : State :=
  match s.sched.active with
  | none => s
  | some img =>
    let s := match planFor kind l 0 img with
      | some f => sendFallback f.planId (boundaryAfter img img.fallbackLead s) false s
      | none => s
    let rings := ringsWithoutAlt img l
    if rings.isEmpty then s
    else
      let s := if (linkAt s l).peer < ownIndex s then departRings rings s else s
      ((slotsWithoutAlt img l).filter (fun x => !s.sched.done.contains x.id)).foldl (fun s x =>
        sendDefer x (runOf s x.id) (slotBeat s img x + x.beats) s) s

/-- A Block is fenced whole at a boundary: its plan's FALLBACK, or departure (08 R216, R218). -/
def blockPlan (d b e : Nat) (s : State) : State :=
  match s.sched.active with
  | none => s
  | some img =>
    match planFor 3 d b img with
    | some f => sendFallback f.planId e false s
    | none => if (namedBlocks img d).contains b then departRings (ringIds s) s else s

/-! ### Fences (07 R187, R188; 01 R18, R19; 15 R405) -/

/-- Beats of 130 microseconds, rounded up. -/
def swapLead (s : State) : Nat := ceilDiv (130 * 10 ^ 6) (beatPs s)

/-- The Block is fenced as a whole. -/
def wholeFence (d b : Nat) (s : State) : State :=
  let blk := blockAt s d b
  if blk.wholeFenced then s
  else
    let s := modBlock d b (fun k => { k with wholeFenced := true, fenceDue := none, pendingFence := [], spareTop := [] }) s
    let s := setFlag (offDstEvents d) 4 s
    let s := finish (.fence 2 (unitId (blockKey d b) 0)) ok s
    blk.pendingFence.foldl (fun s f => finish (.fence 1 (unitId (blockKey d b) f.1)) ok s) s

/-- The Block's whole fence is decided: its boundary is the plan's (08 R216). -/
def planWholeFence (d b earliest : Nat) (s : State) : State :=
  match s.sched.active with
  | none => wholeFence d b s
  | some img =>
    let e := max earliest (boundaryAfter img img.fallbackLead s)
    blockPlan d b e (modBlock d b (fun k => { k with fenceDue := some e }) s)

/-- Power state of a Block: Base where it is fenced whole, else its District's; in a District that is up, Heart where the active image names it in no slot (07 R179; 14 R388). -/
def blockPower (s : State) (d b : Nat) : UnitPower :=
  let k := FMap.getD s.fab.districts d {}
  if (blockAt s d b).wholeFenced then .base
  else if k.power ≠ .top then k.power
  else if s.sched.active.any (fun img => !(namedBlocks img d).contains b) then .heart else .top

/-- Power state of a physical core: Base once its fence has taken effect, a spare in Heart until a swap wakes it, else its Block's (07 R187; 14 R388). -/
def corePower (s : State) (d b c : Nat) : UnitPower :=
  let blk := blockAt s d b
  if blk.coreBase.contains c then .base
  else if blockPower s d b ≠ .top then blockPower s d b
  else if blk.spares.contains c ∧ !blk.spareTop.contains c then .heart else .top

/-- Microprogram stores of some cores of a Block, loaded from their District's copy in HBM (07 R180, R187). -/
def loadStores (d b : Nat) (cores : List Nat) (s : State) : State :=
  match FMap.get? s.fab.copy d with
  | none => s
  | some m => { s with fab := { s.fab with stores := cores.foldl (fun l c => FMap.put l (d * 512 + b * 32 + c) m) s.fab.stores } }

/-- The lowest spares, one for each fence that still waits for its swap, have their stores loaded and go to Top (07 R187). -/
def wakeSpares (d b : Nat) (s : State) : State :=
  let blk := blockAt s d b
  let ready := blk.spares.take (blk.pendingFence.filter (fun f => blk.map.contains f.1)).length
  loadStores d b (ready.filter (fun c => !blk.spareTop.contains c)) (modBlock d b (fun k => { k with spareTop := ready }) s)

/-- One swap of a Block at a step boundary: the pending core of the lowest logical number moves to the lowest spare. With no spare left the Block is fenced whole at its plan's boundary (01 R19, 08 R216), until when the core serves on. -/
def swapCore (d b : Nat) (f : Nat × Nat × Nat) (s : State) : State :=
  let blk := blockAt s d b
  if blk.wholeFenced then s
  else
    let late (s : State) : State := if f.2.2 = s.cad.beat ∨ s.sched.active.isNone then s else setFlag (offDstEvents d) 5 s
    let left (k : Block) : List (Nat × Nat × Nat) := k.pendingFence.filter (fun g => g.1 != f.1)
    match blk.map.findIdx? (fun c => c == f.1) with
    | none => finish (.fence 1 (unitId (blockKey d b) f.1)) ok (modBlock d b (fun k => { k with pendingFence := left k }) s)
    | some l =>
      match blk.spares with
      | [] => if blk.fenceDue.isSome then s else planWholeFence d b s.cad.beat s
      | sp :: rest =>
        finish (.fence 1 (unitId (blockKey d b) f.1)) ok
          (modBlock d b (fun k => { k with
            map := k.map.set l sp, spares := rest, pendingFence := left k
            spareTop := k.spareTop.filter (fun c => c != sp), coreBase := k.coreBase ++ [f.1] }) (late s))

/-- Order 2 of R30 for one Block. -/
def swapBlock (d b : Nat) (s : State) : State :=
  let blk := blockAt s d b
  let due := (blk.pendingFence.filter (fun f => decide (f.2.1 ≤ s.cad.beat) || s.sched.active.isNone)).map (fun f =>
    ((blk.map.findIdx? (fun c => c == f.1)).getD 30, f))
  let s := ((due.mergeSort (fun x y => decide (x.1 ≤ y.1))).map (fun e => e.2)).foldl (fun s f => swapCore d b f s) s
  match (blockAt s d b).fenceDue with
  | some at_ => if at_ ≤ s.cad.beat ∨ s.sched.active.isNone then wholeFence d b s else s
  | none => s

/-- Firmware decides to fence a physical core: marked at once, swapped at a boundary that its lead time meets, for which the lowest spare is loaded and woken; a spare only leaves the list. -/
def fenceCore (d b core : Nat) (s : State) : State :=
  let blk := blockAt s d b
  if blk.fenced.contains core ∨ blk.wholeFenced then s
  else
    let logical := blk.map.findIdx? (fun c => c == core)
    let free := freeValue s
    let s := if logical.isNone then free.2 else s
    let first := (landing s).getD s.cad.beat
    let at_ := match s.sched.active with | some img => max first (boundaryAfter img (swapLead s) s) | none => s.cad.beat
    let decided := match s.sched.active with | some img => stepStart img (s.sched.step + 1) | none => s.cad.beat
    let due := if logical.isNone then first else at_
    let s := modBlock d b (fun k => { k with
      fenced := k.fenced ++ [core]
      spares := k.spares.filter (fun c => c != core)
      coreBase := if logical.isNone then k.coreBase ++ [core] else k.coreBase
      pendingFence := k.pendingFence ++ [(core, due, if logical.isNone then first else decided)] }) s
    let s := wakeSpares d b (report 0x303 (unitField 1 (unitId (blockKey d b) core) ++ leBytes 4 (logical.getD free.1)) s)
    let s := if logical.isSome then setFlag (offDstEvents d) 3 s else s
    let blk := blockAt s d b
    let moving := (blk.pendingFence.filter (fun f => blk.map.contains f.1)).length
    let s := if logical.isSome ∧ blk.spares.length < moving ∧ blk.fenceDue.isNone ∧ s.sched.active.isSome then planWholeFence d b at_ s else s
    if s.sched.active.isNone then swapBlock d b s else s

/-! ### Residue mismatches (06 R170, R171) -/

/-- Mismatches of a core that its history keeps. -/
def recentMismatches (now : Nat) (h : List Nat) : List Nat :=
  let l := h.filter (fun b => decide (now ≤ b + 1000000)) ++ [now]
  l.drop (l.length - 3)

def residueMismatch (unit logical slotId : Nat) (s : State) : State :=
  let d := unit / 512 % 16
  let b := unit / 32 % 16
  let c := unit % 32
  let hist := recentMismatches s.cad.beat (FMap.getD (blockAt s d b).residue c [])
  let s := modBlock d b (fun k => { k with residue := FMap.put k.residue c hist }) s
  let last := b + c * 2 ^ 4 + logical % 32 * 2 ^ 9 + hist.length * 2 ^ 16 + s.cad.beat % 2 ^ 32 * 2 ^ 32
  let s := modDistrict d (fun k => { k with residueMm := satAdd (2 ^ 64 - 1) k.residueMm 1, residueLast := last }) s
  let s := setFlag (offArithEvents d) 1 (report 0x301 (unitField 1 unit ++ leBytes 1 logical ++ [0] ++ leBytes 2 slotId) s)
  let blk := blockAt s d b
  let s := if hist.length = 3 ∧ !blk.fenced.contains c ∧ !blk.wholeFenced then fenceCore d b c (setFlag (offArithEvents d) 2 s) else s
  killCommand slotId d s

/-! ### Uncorrectable data (15 R402) -/

/-- The record of an uncorrectable error; the manual gives no numbers for its memory and outcome (log entry 14). -/
def uncorrRecord (kind number addr : Nat) (s : State) : State :=
  let a := freeValue s
  let b := freeValue a.2
  report 0x503 (unitField kind number ++ leBytes 1 a.1 ++ leBytes 1 b.1 ++ [0, 0] ++ leBytes 8 addr) b.2

/-! ### The rows -/

/-- An awaited frame has not landed (02 R57, 08 R211): the record's lateness is in phase units. -/
def execLateArrival (link slotId transfer lateness : Nat) (s : State) : Host.Outcome State Fault Refusal :=
  let l := linkAt s link
  let s1 := setFlag (offLnkEvents link) 4 <| setFlag offCadEvents 7 { s with links := { s.links with port := FMap.put s.links.port link { l with late := satAdd 0xFFFFFFFF l.late 1 } } }
  let s1 := report 0x101 (unitField 3 link ++ leBytes 2 slotId ++ leBytes 2 lateness) s1
  let alt : Bool := match s.sched.active with
    | some img => img.transfers.any (fun t => t.id == transfer && t.alt != 0xFFFF)
    | none => false
  .next (if runOf s slotId ≠ 0 ∧ alt ∧ l.st ≠ .up then s1 else killSlot slotId s1)

/-- An uncorrectable error in a microprogram store (07 R180): it is loaded again from the copy in HBM; a second in the same step fences the core. -/
def execMprogError (district block core slotId : Nat) (s : State) : Host.Outcome State Fault Refusal :=
  let n := FMap.getD (blockAt s district block).mprogErrors core 0 + 1
  let s := modBlock district block (fun k => { k with mprogErrors := FMap.put k.mprogErrors core n }) s
  let s := loadStores district block [core] s
  let s := setFlag (offDstEvents district) 2 (uncorrRecord 1 (unitId (blockKey district block) core) slotId s)
  let s := if 2 ≤ n then fenceCore district block core s else s
  .next (killSlot slotId s)

/-- Rings of every partition that names a model (15 R398). -/
def ringsOfModel (m : Nat) (s : State) : List Nat :=
  match s.sched.active with
  | none => []
  | some img => (img.rings.filter (fun r => (partitionAt s r.partition).any (fun q => q.model == m))).map (fun r => r.ringId)

/-- A weight chunk fails (07 R185, 15 R402): the consuming commands are killed and rerun on the chunk read again, a second time on its second copy with the weights marked damaged; where that is bad too the rings of its model are left. -/
def weightFail (model chunk slotId : Nat) (secondBad : Bool) (s : State) : State :=
  let s := (match activeSlot s slotId with | some x => slotDistricts x | none => []).foldl (fun s d => setFlag (offDstEvents d) 0 s) s
  let s := report 0x305 (unitField 0 0 ++ leBytes 1 model ++ [0, 0, 0] ++ leBytes 4 chunk) s
  let before := (s.fab.reread.filter (fun e => e == (model, chunk))).length
  let s := { s with fab := { s.fab with
    reread := s.fab.reread ++ [(model, chunk)]
    damaged := if before ≠ 0 ∧ !s.fab.damaged.contains model then s.fab.damaged ++ [model] else s.fab.damaged } }
  let s := killSlot slotId s
  if (before ≠ 0 ∧ secondBad) ∨ 2 ≤ before then departRings (ringsOfModel model s) s else s

def execWeightTagFail (model chunk slotId : Nat) (s : State) : Host.Outcome State Fault Refusal :=
  .next (weightFail model chunk slotId false s)

/-! ### Notices from ring members -/

/-- A SLIP notice lands. -/
def execSlipNotice (n : Notice) (s : State) : Host.Outcome State Fault Refusal :=
  .next (if n.kind = 1 then registerNotice n s else s)

/-- E of the earliest due slip of a partition: its later slots start DELTA later (08 R207, R222). -/
def execSlipApply (partition : Nat) (s : State) : Host.Outcome State Fault Refusal :=
  match s.sched.slipDue.find? (fun n => n.partition == partition && decide (n.e ≤ s.cad.beat)) with
  | none => .next s
  | some n =>
    let s := { s with sched := { s.sched with slipDue := s.sched.slipDue.erase n } }
    match partitionAt s partition with
    | none => .next s
    | some q =>
      let slip := q.slip + n.delta
      let c := { q.counters with slips := if n.kind = 1 then q.counters.slips + 1 else q.counters.slips, maxSlip := max q.counters.maxSlip slip }
      let s := { s with cont := { s.cont with partitions := FMap.put s.cont.partitions partition { q with slip := slip, counters := c } } }
      .next (if n.kind = 1 then report 0x400 (noticeBytes n) s else s)

/-- E of an ABORT: the collective slot's commands die and the slip waits for the slot's end (08 R213). -/
def execAbortNotice (n : Notice) (s : State) : Host.Outcome State Fault Refusal :=
  .next (if n.kind = 2 then registerNotice n s else s)

def execDeferNotice (n : Notice) (s : State) : Host.Outcome State Fault Refusal :=
  .next (if n.kind = 3 then registerNotice n s else s)

def execFallbackNotice (n : Notice) (s : State) : Host.Outcome State Fault Refusal :=
  .next (if n.kind = 4 then registerNotice n s else s)

/-- The IMAGE_READY messages held: the newest of each member and ring whose activation is still to come. -/
def noteReady (n : ReadyNote) (s : State) : List ReadyNote :=
  s.sched.readies.filter (fun x => decide (s.cad.beat < x.activateAt) && !(x.member == n.member && x.ringId == n.ringId)) ++ [n]

/-- IMAGE_READY of a ring member is held, whether or not this device has staged its own image yet (08 R202). -/
def execImageReady (member ringId ringDigest activateAt : Nat) (s : State) : Host.Outcome State Fault Refusal :=
  .next { s with sched := { s.sched with readies := noteReady ⟨member, ringId, ringDigest, activateAt⟩ s } }

end Sys2Proof.Machine
end

