-- ==== Sys2Proof/Machine/Power.lean ====
section
/-! DEFINITION. Supply states, rail requests, operating profiles and device states (14 R376 to R395; 18 R472). -/

namespace Sys2Proof.Machine

/-! ### Supply states (14 R376 to R379) -/

def setSup (f : Supply → Supply) (s : State) : State := { s with sup := f s.sup }

/-- The latest input readings. -/
def reading (mV : Nat) (s : State) : State := setSup (fun u => { u with vin := mV }) s

/-- Started slots of the layer and sampling lanes whose commit point is still to come. -/
def openSlots (img : Image) (s : State) : List SlotEntry :=
  img.slots.filter (fun x => decide (x.lane ≤ 1) && s.sched.done.contains x.id
    && decide (nowPhase s ≤ (slotBeat s img x + x.commitBeat) * 4096 + x.commitPhase) && !slotCommitted x.id s)

/-- Kills every uncommitted command of the layer and sampling lanes. -/
def killLanes (s : State) : State :=
  match s.sched.active with
  | none => s
  | some img => (openSlots img s).foldl (fun s x => voidRun x (slotDistricts x) s) s

/-- A DEFER notice for every microbatch of every partition the device serves (14 R378). -/
def deferAll (e : Nat) (s : State) : State :=
  match s.sched.active with
  | none => s
  | some img =>
    img.rings.foldl (fun s r =>
      match partitionAt s r.partition with
      | none => s
      | some q => (List.range q.mb).foldl (fun s m =>
          let id := ((img.slots.find? (fun x => x.partition == r.partition && x.microbatch == m)).map (fun x => x.id)).getD 0
          sendNotice (ringPeers s r.partition) ⟨3, r.partition, id, 0, s.sched.step, e, 0, runOf s id, m, ownIndex s⟩ s) s) s

/-- The first beat that begins at least some phase units after now. -/
def beatAfter (units : Nat) (s : State) : Nat := ceilDiv (nowPhase s + units) 4096

/-- Classes of R113: 1 to 8. -/
def moverClass (k : MoverKind) : Nat :=
  match k with
  | .reviveTaken => 1 | .privateCopy => 2 | .finalPass => 3 | .revive => 4 | .park => 5 | .copyPass => 6
  | .sessionOut => 7 | .sessionIn => 7 | .shard => 7 | .evacuate => 8 | .demote => 8 | .pull => 8

/-- Entry to REDUCED (14 R378). -/
def enterReduced (mV mA : Nat) (s : State) : State :=
  let s := setSup (fun u => { u with st := .reduced, vin := mV, iin := mA, reducedCnt := satAdd (2 ^ 64 - 1) u.reducedCnt 1 }) s
  let s := killLanes (setFlag offSupEvents 1 s)
  let s := match s.sched.active with | some img => deferAll (beatAfter img.slipLead s) s | none => s
  let s := { s with tier := { s.tier with ops := s.tier.ops.map (fun o => if 4 ≤ moverClass o.kind then { o with begun := false, readDone := false, bytesDone := false } else o) } }
  report 0x201 (leBytes 4 mV ++ leBytes 4 mA) s

def canReduce (s : State) : Bool := s.sup.st == .normal || s.sup.st == .warn

def execSupplyWarn (mV : Nat) (s : State) : Host.Outcome State Fault Refusal :=
  .next (if s.sup.st = .normal then
      report 0x200 (leBytes 4 mV) (setFlag offSupEvents 0 (setSup (fun u => { u with st := .warn, vin := mV }) s))
    else reading mV s)

def execSupplyNormal (mV : Nat) (s : State) : Host.Outcome State Fault Refusal :=
  .next (setSup (fun u => { u with st := if u.st = .warn then .normal else u.st, vin := mV }) s)

def execReducedEntry (mV mA : Nat) (s : State) : Host.Outcome State Fault Refusal :=
  .next (if canReduce s then enterReduced mV mA s else reading mV s)

/-- Input current above 35 A for 16 samples (14 R376). -/
def execOvercurrent (mV mA : Nat) (s : State) : Host.Outcome State Fault Refusal :=
  let s := setFlag offSupEvents 3 s
  .next (if canReduce s then enterReduced mV mA s else setSup (fun u => { u with vin := mV, iin := mA }) s)

/-- The exit of R379, to WARN or NORMAL by the 42 V test. -/
def execReducedExit (mV : Nat) (s : State) : Host.Outcome State Fault Refusal :=
  .next (if s.sup.st = .reduced then setSup (fun u => { u with st := if mV < 42000 then .warn else .normal, vin := mV }) s else s)

/-! ### Stopping (14 R380) -/

/-- Runs of a session that the journal does not hold yet, with their first positions. -/
def unjournaled (x : Session) : List (Nat × Run) :=
  ((x.body ++ x.tail).foldl (fun (a : Nat × List (Nat × Run)) r =>
    (a.1 + runCount r, if x.journaled ≤ a.1 ∧ r.kind ≠ 7 then a.2 ++ [(a.1, r)] else a.2)) (0, [])).2

/-- Journal records of every unjournaled run, in ledger order. -/
def stopRuns (s : State) : List JournalRecord :=
  (s.slots.table.filter (fun e => e.2.d.state != 0 && e.2.d.state != 5)).foldl (fun l e =>
    l ++ (unjournaled e.2).map (fun p => ⟨sessionHandle s e.1, p.2.step, p.1, 0, p.2.kind, boolNat p.2.tokens, runCount p.2, runPayload p.2⟩)) []

/-- Bytes of an envelope of the stop area (13 R358). -/
def stopBytes (r : JournalRecord) : Nat := ceilDiv (32 + ceilDiv (32 + r.payload.length) 16 * 16) 16 * 16

def stopArea : Nat := 8 * 2 ^ 20

/-- Runs in order while they fit the 8 MiB stop area: those held, and those left. -/
def fitStop : Nat → List JournalRecord → List JournalRecord × List JournalRecord
  | _, [] => ([], [])
  | room, r :: rest =>
    if stopBytes r ≤ room then let a := fitStop (room - stopBytes r) rest; (r :: a.1, a.2) else ([], r :: rest)

/-- DIMM service in progress is abandoned (15 R408). -/
def abandonDimm (s : State) : State :=
  let f (d : Ddr) : Ddr :=
    if d.state = 4 then { d with state := 3, pwrEn := false, stage := 0 } else if d.state = 2 then { d with state := 1, stage := 0 } else d
  { s with tier := { s.tier with ddr := FMap.mapVals (fun _ d => f d) s.tier.ddr } }

/-- Notifies ring peers that the device is lost at the boundary that ends this step (14 R380, 13 R370). -/
def departNow (s : State) : State :=
  match s.sched.active with
  | none => s
  | some img =>
    if img.rings.isEmpty then s
    else
      let b := stepStart img (s.sched.step + 1)
      send (.departure b (ringIds s)) { s with sched := { s.sched with sealNext := [], departures := s.sched.departures ++ [(ownIndex s, b, ringIds s)] } }

/-- Entry to STOPPING at a detection (14 R380). -/
def enterStopping (mV : Nat) (s : State) : State :=
  let a := fitStop (stopArea - 32) (stopRuns s)
  let s := setSup (fun u => { u with st := .stopping, vin := mV, stopStage := 1 }) s
  let s := killLanes { s with host := { s.host with stopped := true }, svc := { s.svc with activateAt := none, takenOver := false } }
  let s := { s with tier := { s.tier with ops := s.tier.ops.map (fun (o : MoverOp) => ({ o with begun := false, readDone := false, bytesDone := false } : MoverOp)) } }
  let s := abandonDimm { s with saves := { s.saves with checkpoints := [] } }
  report 0x202 (leBytes 4 mV ++ leBytes 4 a.1.length) (departNow s)

def execRideLimit (mV : Nat) (s : State) : Host.Outcome State Fault Refusal :=
  .next (if s.sup.st = .reduced then enterStopping mV (setFlag offSupEvents 6 s) else s)

def execSupplyStop (mV : Nat) (s : State) : Host.Outcome State Fault Refusal :=
  .next (if s.sup.st = .stopping then reading mV s else enterStopping mV s)

def execOvervolt (mV : Nat) (s : State) : Host.Outcome State Fault Refusal :=
  .next (if s.sup.st = .stopping then reading mV s else enterStopping mV (setFlag offSupEvents 4 s))

/-- The stop record as STATS_READ serves it (18 R472): the header and each run's journal record, as an envelope under client 0's key; the body bytes stand in the clear in the model. -/
def stopRecordBytes (held : List JournalRecord) (lost boot beat : Nat) : Bytes :=
  let one (r : JournalRecord) : Bytes :=
    let b := leBytes 8 r.handle ++ leBytes 8 r.step ++ leBytes 8 r.first ++ leBytes 4 r.seq ++ leBytes 1 r.kind ++ leBytes 1 r.flags ++ leBytes 2 r.count ++ r.payload
    b ++ List.replicate (stopBytes r - b.length) 0
  leBytes 4 0x50544F53 ++ leBytes 2 1 ++ [0, 0] ++ leBytes 4 held.length ++ leBytes 4 lost ++ leBytes 8 boot ++ leBytes 8 beat
    ++ (held.map one).flatten

/-- 1,600 microseconds: the runs stand in the stop area and, as far as space allows, in the journal ring; the record closes and the stop flag is set. -/
def execStopRecordClose (s : State) : Host.Outcome State Fault Refusal :=
  .next (if s.sup.st = .stopping ∧ s.sup.stopStage = 1 then
      let runs := (stopRuns s).zipIdx.map (fun e => { e.1 with seq := (s.tier.set.journalSeq + 1 + e.2) % 2 ^ 32 })
      let a := fitStop (stopArea - 32) runs
      let w := if journalOn s ∧ !s.host.lost then writeRecords runs s else (runs, s)
      let lost := min a.2.length w.1.length
      let s := w.2
      { s with
        sup := { s.sup with stopStage := 2, stopRuns := a.1.length, stopLost := min 0xFFFF lost }
        svc := { s.svc with stopRecord := stopRecordBytes a.1 lost s.sec.bootCount (stamp s), stopFlag := true, stopDiscarded := false }
        evr := { s.evr with mirrored := s.evr.records, mirrorSeq := s.evr.nextSeq - 1 } }
    else s)

/-- 1,700 microseconds: the rails go off, core first, and volatile memory with them. -/
def execStopRailsOff (s : State) : Host.Outcome State Fault Refusal :=
  .next (if s.sup.st = .stopping ∧ s.sup.stopStage = 2 then
      { s with sup := { s.sup with stopStage := 3, railsOff := true, rails := FMap.mapVals (fun _ x => { x with target := 0, pending := false }) s.sup.rails }, mem := [] }
    else s)

def execStopComplete (s : State) : Host.Outcome State Fault Refusal :=
  .next (if s.sup.st = .stopping ∧ s.sup.stopStage = 3 then setSup (fun u => { u with stopStage := 4 }) s else s)

/-! ### Profiles (14 R384) -/

/-- The new profile is in force: the clock has switched; rails that fall are asked for, and PROFILE_SET is answered. -/
def landProfile (p : Nat) (s : State) : State :=
  let s := setSup (fun u => { u with profile := p, profilePending := none }) s
  finish .profile ok (lowerRails (profileMv p) s)

/-- A core rail raised for a profile has not answered. -/
def raisePending (p : Nat) (s : State) : Bool := (List.range 4).any (fun r => (railAt s r).pending && (railAt s r).target == profileMv p)

def profileBody (_ : Nat) (p : Packet) (s : State) : State :=
  let v := argOf p 20 1
  let barred : Bool := match s.sched.active with | some img => !bitOf img.profiles v | none => false
  if 3 < v ∨ barred then reply p (bad 0x14) s
  else
    match s.sup.profilePending with
    | some g => reply p (busy (min 0xFFFE (g.2 - s.cad.beat))) s
    | none =>
      let s := await .profile (originOf p s) s
      match landing s with
      | some at_ => setSup (fun u => { u with profilePending := some (v, at_) }) s
      | none =>
        let s := raiseRails (profileMv v) s
        if raisePending v s then setSup (fun u => { u with profilePending := some (v, s.cad.beat) }) s else landProfile v s

def execProfileSet (p : Packet) (s : State) : Host.Outcome State Fault Refusal :=
  .next (serve (opIs 0x74) never profileBody p s)

/-- The Plaza lane's part of a profile change: rails that rise are requested when the change lands at this step's end. -/
def plazaRails (s : State) : State :=
  match s.sched.active, s.sup.profilePending with
  | some img, some g => if g.2 = stepStart img (s.sched.step + 1) then raiseRails (profileMv g.1) s else s
  | _, _ => s

/-- A due profile change at a boundary: lands, or waits for the next boundary while a raise is unacknowledged. -/
def boundaryProfile (s : State) : State :=
  match s.sup.profilePending with
  | none => s
  | some g =>
    if s.cad.beat < g.2 then s
    else if raisePending g.1 s then
      setSup (fun u => { u with profilePending := some (g.1, g.2 + (match s.sched.active with | some img => img.stepBeats | none => 0)) }) s
    else landProfile g.1 s

/-! ### Device states (14 R389 to R394) -/

/-- Every District in Heart or Base, or awake. -/
def allDistricts (pw : UnitPower) (s : State) : State :=
  (List.range 16).foldl (fun s d => modDistrict d (fun k => { k with power := pw, running := decide (pw = .top) }) s) s

/-- Gives up a device-state change: the device stays in the last state it completed. -/
def abandonDevice (s : State) : State := setSup (fun u => { u with devTarget := none, devNext := none, entryPoint := 0 }) s

/-- A rail answers (14 R385). -/
def execAvsAck (rail : Nat) (s : State) : Host.Outcome State Fault Refusal :=
  let x := railAt s rail
  if !x.pending then .next s
  else
    let s := putRail rail { x with pending := false, tries := 0, failed := x.failed && decide (3 ≤ x.tries) } s
    .next (match s.sched.active, s.sup.profilePending with
      | none, some g => if raisePending g.1 s then s else landProfile g.1 s
      | _, _ => s)

/-- 100 microseconds without an answer (14 R386): the request is repeated once, then its previous target is requested and the change that needed the rail is abandoned. -/
def execAvsTimeout (rail : Nat) (s : State) : Host.Outcome State Fault Refusal :=
  let x := railAt s rail
  if !x.pending then .next s
  else if x.tries = 1 ∨ x.tries = 3 then .next (putRail rail { x with tries := x.tries + 1 } s)
  else if 4 ≤ x.tries then .next (putRail rail { x with pending := false } s)
  else
    let s := report 0x203 (unitField 8 rail ++ leBytes 4 x.target) (setFlag offSupEvents 5 s)
    let s := putRail rail { x with target := x.previous, previous := x.target, tries := 3, failed := true } s
    .next (if s.sup.devTarget.isSome then abandonDevice s
      else if s.sup.profilePending.isSome ∧ x.previous < x.target then
        finish .profile (noResource 0x000C) (setSup (fun u => { u with profilePending := none }) s)
      else s)

/-- A unit that enters Heart or Base reaches its next abort point (14 R389): a wake asked for meanwhile ends the entry; past EA4 of an entry to Dormant the rails are lowered. -/
def execUnitEntryPoint (s : State) : Host.Outcome State Fault Refusal :=
  match s.sup.devTarget with
  | none => .next s
  | some t =>
    if devRank t ≤ devRank s.sup.dev then .next s
    else
      let e := s.sup.entryPoint + 1
      let last := if t = .dormant then 5 else 3
      if last < e then .next s
      else
        match (if e ≤ 4 then s.sup.devNext else none) with
        | some n =>
          let s := setFlag offSupEvents 7 s
          .next (if e = 4 then setSup (fun u => { u with dev := .dormant, devTarget := some n, devNext := none, wakeFrom := s.cad.beat, entryPoint := 0 }) s
            else setSup (fun u => { u with devTarget := if n = u.dev then none else some n, devNext := none, entryPoint := 0 }) s)
        | none =>
          let s := setSup (fun u => { u with entryPoint := e }) s
          .next (if e = 5 then dormantRails s else s)

/-- A waking unit locks to the beat clock (14 R390): it runs again at the next boundary, at once while no image is active. -/
def execUnitWakeLock (s : State) : Host.Outcome State Fault Refusal :=
  match s.sup.devTarget with
  | none => .next s
  | some t =>
    .next (if devRank t < devRank s.sup.dev then allDistricts (if t = .run then .top else .heart) s else s)

/-- The change completes, once no rail waits; a state asked for meanwhile follows. -/
def execDeviceStateDone (s : State) : Host.Outcome State Fault Refusal :=
  match s.sup.devTarget with
  | none => .next s
  | some t =>
    if railsPending s then .next s
    else
      let s := allDistricts (match t with | .run => .top | .idle => .heart | .dormant => .base) s
      let next := s.sup.devNext
      let s := setSup (fun u => { u with dev := t, devTarget := none, devNext := none, entryPoint := 0 }) s
      .next (match next with | some n => changeDevice n s | none => s)

end Sys2Proof.Machine
end

