-- ==== Sys2Proof/Machine/Seal.lean ====
section
/-! DEFINITION. The Plaza lane and the start of slots: ledger tails and the journal (03 R73 to R76), the seal of the next step (08 R204; 09 R227 to R235), and a pass's entry (05 R142; 09 R238). -/

namespace Sys2Proof.Machine

/-! ### Pages a pass writes -/

/-- Puts a page in its place of a list that is in page order (03 R78). -/
def insertPage (p : Page) : List Page → List Page
  | [] => [p]
  | q :: rest => if p.no < q.no then p :: q :: rest else q :: insertPage p rest

/-- Gives a session a zeroed page in T1 unless it has one (05 R132, R142). -/
def ensurePage (slot no : Nat) (spec : Bool) (s : State) : State :=
  let x := sessionAt s slot
  if x.pages.any (fun p => p.no == no) then s
  else
    let t := takeFrame x.d.partition s
    let p : Page := ⟨no, 1, false, false, spec, pageIsGlobal (globalRanges s x.d.partition) no, false, 0xFF, 0, t.1⟩
    modSession slot (fun x => { x with pages := insertPage p x.pages }) t.2

def guestAt (s : State) (h : Nat) : Session := FMap.getD s.slots.guests h {}
def dropGuest (h : Nat) (s : State) : State := { s with slots := { s.slots with guests := FMap.del s.slots.guests h } }
def putGuest (h : Nat) (x : Session) (s : State) : State := { s with slots := { s.slots with guests := FMap.put s.slots.guests h x } }

/-- A page that this ring position holds of another home's session (05 R142). -/
def guestPage (part h no : Nat) (spec : Bool) (s : State) : State :=
  let x := guestAt s h
  if x.pages.any (fun p => p.no == no) then s
  else
    let t := takeFrame part s
    let p : Page := ⟨no, 1, false, false, spec, pageIsGlobal (globalRanges s part) no, false, 0xFF, 0, t.1⟩
    putGuest h { x with pages := insertPage p x.pages, d := { x.d with state := 2, partition := part } } t.2

/-- The rows that a pass of `n` query positions of another home's session writes here: its lead row and the positions from COMMITTED on (05 R131, R141). -/
def guestRows (x : Session) (n : Nat) : List Nat :=
  let lead := x.leadRow || (decide (n = 1) && decide (1 ≤ x.d.committed))
  (if lead then [x.d.committed - 1] else []) ++ (List.range (n - boolNat lead)).map (fun i => x.d.committed + i)

/-- Drafts a pass verifies (09 R238). -/
def draftsAt (x : Session) (grant : Nat) : Nat :=
  match x.job with
  | none => 0
  | some j => min (min grant x.drafts.length) (min (j.byteCount - j.elems - 1) (lengthLimit x.d - x.d.committed - 1))

/-- The rows a sealed pass of `n` query positions takes, and whether it samples (09 R233). -/
def sealedRows (x : Session) (n : Nat) : List Nat := (owedRows x).take n
def samplesNow (x : Session) (n : Nat) : Bool := x.rebuild.isNone && x.job.isSome && decide ((owedRows x).length ≤ n)

/-- Query positions sealed for a handle in a list of microbatches. -/
def sealedCount (ms : List SealedMb) (h : Nat) : Nat :=
  ((ms.map (fun m => m.places.filter (fun p => p.handle == h && !p.withdrawn))).flatten).foldl (fun n p => n + p.qpos) 0

/-- The page number of the speculation page of a pass at a committed length with some drafts, where 05 R142 takes one. -/
def specPage (n d : Nat) : Option Nat := if 1 ≤ n ∧ 64 * ((n - 1) / 64 + 1) ≤ n + d then some ((n - 1) / 64 + 1) else none

/-- A pass enters: its ordinary pages and, where its rows reach past the tail page, the speculation page (05 R142). DESIGN CHOICE (log entry 100): with a prefill chunk the test takes N after the chunk, and only where the pass samples. -/
def enterPass (slot n grant : Nat) (s : State) : State :=
  let x := sessionAt s slot
  let rows := sealedRows x n
  let s := ((rows.map (fun r => r / 64)).eraseDups).foldl (fun s p => ensurePage slot p false s) s
  let last := if x.rebuild.isSome then 0 else x.d.committed + (rows.filter (fun r => decide (x.d.committed ≤ r))).length
  let d := if draftsMay x then draftsAt x grant else 0
  match (if samplesNow x n then specPage last d else none) with
  | some p => ensurePage slot p true s
  | none => s

/-- A sealed session enters its pass only in the state it was sealed for and with every page resident in T1 (01 R21). -/
def mayEnter (x : Session) : Bool :=
  ((x.d.state == 2 && x.job.any (fun j => j.resident)) || (x.d.state == 7 && x.rebuild.isSome)) && x.pages.all (fun p => p.tier == 1)

/-- A place of this step is empty: its session waits for a later pass (01 R21). -/
def emptyPlace (h : Nat) (s : State) : State :=
  let mark (m : SealedMb) : SealedMb := { m with places := m.places.map (fun p => { p with withdrawn := p.withdrawn || p.handle == h }) }
  { s with sched := { s.sched with sealNow := s.sched.sealNow.map mark } }

/-- A pass of another home's session enters here: the pages of its rows, and the speculation page by the same test from the length this position knows. A replay's rows are known only at its home (log entry 23). -/
def enterGuest (part : Nat) (p : Place) (n : Nat) (s : State) : State :=
  if p.replay then s
  else
    let x := guestAt s p.handle
    let rows := guestRows x n
    let s := ((rows.map (fun r => r / 64)).eraseDups).foldl (fun s no => guestPage part p.handle no false s) s
    let last := x.d.committed + (rows.filter (fun r => decide (x.d.committed ≤ r))).length
    match specPage last p.drafts with
    | some no => guestPage part p.handle no true s
    | none => s

/-- One member at its microbatch's first slot: its pass enters, or its place is empty. -/
def enterMember (part : Nat) (p : Place) (s : State) : State :=
  match liveSlot s p.handle with
  | none => if handleHome p.handle = ownIndex s then s else enterGuest part p (sealedCount s.sched.sealNow p.handle) s
  | some slot => if mayEnter (sessionAt s slot) then enterPass slot (sealedCount s.sched.sealNow p.handle) p.drafts s else emptyPlace p.handle s

/-- The first layer slot of a microbatch on this device. -/
def isEntry (img : Image) (x : SlotEntry) : Bool :=
  x.lane == 0 && ((layerSlots img x.partition).find? (fun y => y.microbatch == x.microbatch)).any (fun y => y.id == x.id)

/-- A slot awaits a frame over a link that is down with no ALT route while a departure is named, or from a member that has been named lost (08 R218, 16 R433). -/
def needsLost (s : State) (img : Image) (slotId : Nat) : Bool :=
  let mine := img.transfers.filter (fun t => t.slotId == slotId && t.dir == 1)
  let lost (m : Nat) : Bool := s.sched.departures.any (fun e => e.1 == m)
  (mine.any (fun t => t.alt == 0xFFFF && !linkUp s t.link) && !s.sched.departures.isEmpty)
    || mine.any (fun t => match (slotById img t.slotId).bind (fun x => img.rings.find? (fun r => r.partition == x.partition)) with
        | some r => (r.members[t.peer]?).any lost
        | none => false)

/-- A sequencer starts a slot at its scheduled beat, moved by the slips before it (02 R38; 07 R179; 08 R207). While REDUCED the lanes are held (14 R378); a slot that needs a lost link without an ALT route is deferred (08 R218). Block store regions whose lifetime has ended are dead from here on (07 R177). -/
def execSlotStart (slotId : Nat) (s : State) : Host.Outcome State Fault Refusal :=
  match slotImage s slotId, activeSlot s slotId with
  | some img, some x =>
    if s.sched.done.contains slotId ∨ 1 < x.lane ∨ s.sup.st = .reduced ∨ s.sup.st = .stopping then .next s
    else
      let s := settleDefers (passBeats (slotBeat s img x - s.cad.beat) s)
      let s := dropDead img (x.start * 4096) { s with sched := { s.sched with done := s.sched.done ++ [slotId] } }
      let s := (slotDistricts x).foldl (fun s d => modDistrict d (fun k => { k with running := true, slot := slotId }) s) s
      if needsLost s img slotId then
        .next (sendDefer x (runOf s slotId) (slotBeat s img x + x.beats) s)
      else if isEntry img x then
        match s.sched.sealNow.find? (fun m => m.partition == x.partition && m.microbatch == x.microbatch) with
        | none => .next s
        | some m =>
          .next ((m.places.filter (fun p => !p.withdrawn && p.piece == 0)).foldl (fun s p => enterMember x.partition p s) s)
      else .next s
  | _, _ => .next s

/-! ### Candidates (09 R228) -/

/-- Whether a home session may be sealed; a replay without a command also needs T1 above the prefetch floor (04 R127). -/
def isCandidate (s : State) (slot : Nat) : Bool :=
  let x := sessionAt s slot
  let h := sessionHandle s slot
  let frozen : Bool := match x.handover with | some ho => ho.frozen | none => false
  let mine : Bool := match x.job with
    | some j => !j.train && j.resident && j.endWith.isNone
      && (match commandOf s (.generate slot) with | some c => !(clientOf s c.origin.client).preempting || c.origin.sender.isSome | none => true)
    | none => true
  let room : Bool := x.job.isSome || decide (s.tier.set.prefetchFloor * (s.tier.t1Total * 2 ^ 20)
    < 100 * (t1Free s - ceilDiv (passRows s x).length 64 * granuleOf s x.d.partition))
  let view := nextView s slot
  let rows := passRows s view
  let fresh := (((rows.map (fun r => r / 64)).eraseDups).filter (fun n => !x.pages.any (fun p => p.no == n))).length
  let free : Bool := decide (fresh * granuleOf s x.d.partition ≤ t1FreeFor s slot)
  !s.host.held && ((x.d.state == 2 && x.job.isSome) || (x.d.state == 7 && x.rebuild.isSome && !FMap.any (fun k _ => k == slot) s.tier.set.recalls && room))
    && mine && !frozen && free && !(owedRows view).isEmpty
    && !s.sched.kept.any (fun k => k.2.places.any (fun p => p.handle == h))
    && (opOf s slot (fun o => o.kind == .privateCopy)).isNone

/-- Candidates of a partition at position 0: its own sessions as they stand, those of other homes as reported. -/
def candidatesOf (s : State) (part : Nat) : List Candidate :=
  ((s.slots.table.filter (fun e => e.2.d.partition == part && isCandidate s e.1)).map (fun e => candidateOf s e.1 true))
    ++ ((s.sched.candidates.filter (fun e => e.1 == part && e.2.candidate && handleHome e.2.handle != ownIndex s
        && !s.sched.kept.any (fun k => k.2.places.any (fun p => p.handle == e.2.handle)))).map (fun e => e.2))

/-- Lexicographic order of key lists. -/
def keysLe : List Nat → List Nat → Bool
  | [], _ => true
  | _, [] => false
  | a :: l, b :: r => decide (a < b) || (a == b && keysLe l r)

/-- Keys 2 to 6 of R229. -/
def candidateKey (s : State) (c : Candidate) : List Nat :=
  [boolNat c.replayOnly, if c.replayOnly then wakeKey c.order else c.order, if (inFlight s c.handle).isSome then 0 else 1,
    c.admitBeat, c.admitPhase, c.client, handleSlot c.handle]

/-! ### When passes end (09 R228, 08 R204) -/

/-- End of a pass of a microbatch in phase units from the start of the step it entered: its sampling commit where this image has it; otherwise the entry plus the ring's layer runs and one slot more (log entry 22). -/
def passEnd (img : Image) (part mb : Nat) : Nat :=
  let e := mbEntry img part mb
  match img.slots.find? (fun x => x.lane == 1 && x.partition == part && x.microbatch == mb) with
  | some x => if commitAt x < e then commitAt x + img.stepBeats * 4096 else commitAt x
  | none =>
    let own := (layerSlots img part).filter (fun x => x.microbatch == mb)
    let last := own.foldl (fun n x => max n (x.start + x.beats)) 0
    let one := own.foldl (fun n x => max n x.beats) 0
    let d := match img.rings.find? (fun r => r.partition == part) with | some r => r.members.length | none => 1
    e + (d * (last * 4096 - e)) + one * 4096

/-- Where the pass of a handle in flight ends, in phase units from the start of the present step. -/
def flightEnd (s : State) (img : Image) (part h : Nat) : Nat :=
  let last (ms : List SealedMb) : Option Nat := (ms.filter (fun m => m.partition == part && m.places.any (fun p => p.handle == h && !p.withdrawn))).foldl
    (fun (n : Option Nat) m => some (max (n.getD 0) (passEnd img part m.microbatch))) none
  match last s.sched.sealNow with
  | some e => e
  | none => match last s.sched.sealPrev with | some e => e - img.stepBeats * 4096 | none => 0

/-- The image the next step runs (08 R204). -/
def sealImage (s : State) (img : Image) : Image :=
  match s.sched.staged with
  | some g => if g.activateAt = stepStart img (s.sched.step + 1) then g.img else img
  | none => img

/-- What two images say of a partition differs (08 R204). -/
def partChanges (a b : Image) (part : Nat) : Bool :=
  let of (i : Image) := (i.rings.filter (fun r => r.partition == part), i.patterns.filter (fun r => r.partition == part), i.trains.filter (fun r => r.partition == part),
    i.slots.filter (fun x => x.partition == part), i.transfers.filter (fun t => (slotById i t.slotId).any (fun x => x.partition == part)))
  decide (of a ≠ of b)

/-- A microbatch that R204 keeps empty in the next step: its pass would still run when a changed partition's image activates. -/
def barredMb (s : State) (img : Image) (part mb : Nat) : Bool :=
  match s.sched.staged with
  | some g => decide (g.activateAt = stepStart img (s.sched.step + 2)) && partChanges img g.img part && decide (img.stepBeats * 4096 < passEnd img part mb)
  | none => false

/-! ### Placement (09 R230, R231, R235) -/

/-- What one microbatch holds so far: query positions, keys, pairs and places. -/
structure MbLoad where
  qpos : Nat := 0
  keys : Nat := 0
  pairs : Nat := 0
  places : List Place := []

/-- A seal being made: loads by microbatch, and the members in placement order with what they may still be granted. -/
structure Sealing where
  loads : List MbLoad
  order : List (Nat × Candidate)

/-- Budgets of a microbatch's layer slots (07 R190). -/
def mbBudget (img : Image) (part mb : Nat) : Nat × Nat × Nat :=
  match (layerSlots img part).find? (fun x => x.microbatch == mb) with
  | some x => (x.qpos, x.keys, x.pairs)
  | none => (0, 0, 0)

def fits (b : Nat × Nat × Nat) (l : MbLoad) (n pages : Nat) : Bool :=
  decide (l.qpos + n ≤ b.1) && decide (l.keys + 64 * pages ≤ b.2.1) && decide (l.pairs + n * 64 * pages ≤ b.2.2)

def addPlace (l : MbLoad) (p : Place) (pages : Nat) : MbLoad :=
  { qpos := l.qpos + p.qpos + p.drafts, keys := l.keys + 64 * pages, pairs := l.pairs + (p.qpos + p.drafts) * 64 * pages, places := l.places ++ [p] }

/-- Query positions of the pieces of a pass. -/
def pieceSizes (n q : Nat) : List Nat := (List.range (max 1 (ceilDiv q n))).map (fun i => min n (q - i * n))

/-- Puts the pieces of a candidate at consecutive microbatches from one on. -/
def placeAt (c : Candidate) (sizes : List Nat) (kept chunk replay : Bool) (m : Nat) (loads : List MbLoad) : List MbLoad :=
  (sizes.zipIdx).foldl (fun ls e =>
    match ls[m + e.2]? with
    | none => ls
    | some l => ls.set (m + e.2) (addPlace l ⟨c.handle, e.2, sizes.length, 0, kept, chunk, replay, e.1, false⟩ (c.pages.getD e.2 0))) loads

/-- Places one candidate, if a run of microbatches takes all its pieces. -/
def placeOne (s : State) (img next : Image) (part places : Nat) (chunk replay : Bool) (c : Candidate) (z : Sealing) : Sealing :=
  let sizes := pieceSizes (pieceOf s part) c.qpos
  let joins (m : Nat) : Bool := match inFlight s c.handle with
    | none => true
    | some _ => decide (flightEnd s img part c.handle < img.stepBeats * 4096 + mbEntry next part m)
  let room (m : Nat) : Bool := (sizes.zipIdx).all (fun e => match z.loads[m + e.2]? with
    | none => false
    | some l => decide (l.places.length < places) && fits (mbBudget next part (m + e.2)) l e.1 (c.pages.getD e.2 0) && !barredMb s img part (m + e.2))
  match (List.range z.loads.length).find? (fun m => joins m && room m) with
  | none => z
  | some m => { loads := placeAt c sizes false chunk replay m z.loads, order := z.order ++ [(m, c)] }

/-- Pages a pass of one piece reads with some drafts: exact for a home session; for another home's as reported, and the pages its drafts reach past the lead row, counted from the length this position knows (log entry 23). -/
def grantPages (s : State) (c : Candidate) (d : Nat) : Nat :=
  match liveSlot s c.handle with
  | some slot =>
    let x := nextView s slot
    let rows := passRows s x ++ (List.range d).map (fun i => x.d.ledgerPos + i)
    pagesOfRows s x.d.partition (lastPage x rows) rows
  | none =>
    let n := (guestAt s c.handle).d.committed + (if (inFlight s c.handle).isSome then 1 else 0)
    c.pages.getD 0 0 + ((n + d - 1) / 64 - (n - 1) / 64)

/-- The most drafts a member may be granted: none beside prefill or replay. -/
def grantLimit (s : State) (c : Candidate) : Nat :=
  match liveSlot s c.handle with
  | some slot => let x := nextView s slot; if draftsMay x then x.d.spec else 0
  | none => c.grantMax

/-- One round of grants in placement order (09 R231). -/
def grantRound (s : State) (next : Image) (part : Nat) (z : Sealing) : Sealing :=
  z.order.foldl (fun z e =>
    match z.loads[e.1]? with
    | none => z
    | some l =>
      match l.places.find? (fun p => p.handle == e.2.handle) with
      | none => z
      | some p =>
        let b := mbBudget next part e.1
        let pages := grantPages s e.2 p.drafts
        let more := grantPages s e.2 (p.drafts + 1)
        let l' : MbLoad := { l with
          qpos := l.qpos + 1, keys := l.keys + 64 * (more - pages)
          pairs := l.pairs + (p.qpos + p.drafts + 1) * 64 * more - (p.qpos + p.drafts) * 64 * pages
          places := l.places.map (fun r => if r.handle = p.handle then { r with drafts := r.drafts + 1 } else r) }
        if p.kept ∨ p.pieces ≠ 1 ∨ grantLimit s e.2 ≤ p.drafts ∨ b.1 < l'.qpos ∨ b.2.1 < l'.keys ∨ b.2.2 < l'.pairs then z
        else { z with loads := z.loads.set e.1 l' }) z

def grantRounds (s : State) (next : Image) (part : Nat) : Nat → Sealing → Sealing
  | 0, z => z
  | n + 1, z => grantRounds s next part n (grantRound s next part z)

/-- Deferred members whose notice's E has come, in their own microbatches (08 R210). -/
def keptDue (s : State) (part : Nat) : List SealedMb :=
  (s.sched.kept.filter (fun k => k.2.partition == part && decide (k.1 ≤ s.cad.beat))).map (fun k => k.2)

/-- A kept member still stands. -/
def keptAlive (s : State) (p : Place) : Bool :=
  if handleHome p.handle = ownIndex s then
    match liveSlot s p.handle with
    | some slot => (sessionAt s slot).d.state == 2 || (sessionAt s slot).d.state == 7
    | none => false
  else true

/-- Pages that a kept place reads with its drafts: of its own rows for a home session, else as its home reported them. -/
def keptPages (s : State) (p : Place) : Nat :=
  match liveSlot s p.handle with
  | some slot =>
    let x := nextView s slot
    let rows := passRows s x
    let own := (cutPieces (pieceOf s x.d.partition) 16 rows).getD p.piece []
    let ahead := (List.range p.drafts).map (fun i => x.d.ledgerPos + i)
    pagesOfRows s x.d.partition (lastPage x (rows ++ ahead)) (own ++ ahead)
  | none => match s.sched.candidates.find? (fun e => e.2.handle == p.handle) with
    | some e => if p.pieces = 1 then grantPages s e.2 p.drafts else e.2.pages.getD p.piece 0
    | none => 0

/-- The loads of a partition's microbatches with the kept places first (09 R229 key 1), each with its query positions, drafts and pages (07 R190). A microbatch that 08 R204 keeps empty takes none: its members wait for the next seal. -/
def seedKept (s : State) (img : Image) (part mbs : Nat) : List MbLoad :=
  (List.range mbs).map (fun m =>
    if barredMb s img part m then {}
    else
      let ps := (((keptDue s part).filter (fun k => k.microbatch == m)).map (fun k => k.places)).flatten.filter (keptAlive s)
      ps.foldl (fun l p => addPlace l { p with kept := true, withdrawn := false } (keptPages s p)) {})

/-- The membership of a partition's microbatches in the next step, whose image gives its budgets and its pattern (08 R204). -/
def sealPartition (s : State) (img next : Image) (part : Nat) (q : Partition) : List SealedMb :=
  let s := { s with sched := { s.sched with active := some next } }
  let cs := (candidatesOf s part).mergeSort (fun a b => keysLe (candidateKey s a) (candidateKey s b))
  let z := cs.foldl (fun z c =>
    let x := (liveSlot s c.handle).map (fun slot => nextView s slot)
    let replay : Bool := match x with | some y => y.rebuild.isSome || !y.cologne.isEmpty | none => c.replayOnly
    let chunk : Bool := match x with | some y => !draftsMay y | none => c.grantMax == 0 && decide (1 < c.qpos)
    placeOne s img next part q.places chunk replay c z) ⟨seedKept s img part q.mb, []⟩
  let z := grantRounds s next part q.specMax z
  (z.loads.zipIdx).map (fun e => ⟨part, e.2, s.sched.step + 1, e.1.places⟩)

def sealEntry (p : Place) : SealEntry := ⟨p.handle, p.piece, p.pieces, p.drafts, p.kept, p.chunk, p.replay, p.qpos⟩

/-- Seals one partition, tells the ring, and counts the passes sealed. -/
def sealOne (img : Image) (part : Nat) (s : State) : State :=
  match partitionAt s part with
  | none => s
  | some q =>
    let next := sealImage s img
    let leaving := s.cad.departAt.isSome || s.sched.departures.any (fun e =>
      e.2.2.any (fun r => next.rings.any (fun g => g.partition == part && g.ringId == r)) && (e.1 == ownIndex s || decide (e.2.1 ≤ stepStart img (s.sched.step + 1))))
    if q.position ≠ 0 ∨ leaving ∨ s.sched.halted.contains part ∨ !(next.rings.any (fun r => r.partition == part)) then s
    else
      let ms := sealPartition s img next part q
      let due := (keptDue s part).filter (fun k => !barredMb s img part k.microbatch)
      let n := (ms.map (fun m => (m.places.filter (fun p => p.piece == 0)).length)).foldl (· + ·) 0
      let s := { s with sched := { s.sched with
        sealNext := s.sched.sealNext.filter (fun m => m.partition != part) ++ ms
        kept := s.sched.kept.filter (fun k => !(k.2.partition == part && due.contains k.2 && decide (k.1 ≤ s.cad.beat))) } }
      let s := countPart part (fun c => { c with passes := satAdd (2 ^ 64 - 1) c.passes n }) s
      ms.foldl (fun s m => (ringPeers s part).foldl (fun s d => send (.sealOf (some d) ⟨part, m.microbatch, m.step, m.places.map sealEntry⟩) s) s) s

def sealAll (s : State) : State :=
  match s.sched.active with
  | none => s
  | some img => (s.cont.partitions.map (fun e => e.1)).foldl (fun s part => sealOne img part s) s

/-- Every ledger tail moves into its body (03 R73). -/
def moveTails (s : State) : State :=
  (s.slots.table.map (fun e => e.1)).foldl (fun s slot =>
    modSession slot (fun x => { x with tail := [] }) (growBody slot (sessionAt s slot).tail s)) s

/-- The copy of every descriptor that is not FREE in its ledger header, refreshed in each Plaza lane (03 R69). -/
def refreshHeaders (s : State) : State :=
  { s with slots := { s.slots with table := FMap.mapVals (fun _ x => if x.d.state = 0 then x else { x with header := some (x.d, x.leadRow) }) s.slots.table } }

/-- The beat at which the Plaza lane of the running step starts: later by the largest slip among the device's rings (08 R207). -/
def plazaBeat (s : State) (img : Image) : Nat :=
  stepStart img s.sched.step + img.plazaOffset + maxSlip s

/-- The Plaza lane starts: the seal, the ledger and its journal, the rails of a profile change, and the notices of a REDUCED device (09 R227; 03 R73, R74; 14 R378, R384). -/
def execPlazaLane (s : State) : Host.Outcome State Fault Refusal :=
  match s.sched.active with
  | none => .next s
  | some img =>
    let s := settleDefers (passBeats (plazaBeat s img - s.cad.beat) s)
    let s := if s.sup.st = .reduced then deferAll (stepStart img (s.sched.step + 1)) s else s
    .next (plazaRails (refreshHeaders (journalLane (moveTails (sealAll s)))))

end Sys2Proof.Machine
end

