-- ==== Sys2Proof/Machine/Fabric.lean ====
section
/-! DEFINITION. Layer commands: the steps a microprogram runs on a core's scratchpad and the Block store, and what the command releases at its commit point (01 R22, R23, R27; 05 R129 to R138, R142, R145 to R148; 06 R157 to R170; 07 R173 to R186). -/

namespace Sys2Proof.Machine

/-! ### Sessions of a pass -/

/-- Whether a handle has a place that stands in the pass of a microbatch. -/
def placed (s : State) (part mb h : Nat) : Bool :=
  match passOf s part mb with
  | some m => m.places.any (fun p => p.handle == h && !p.withdrawn)
  | none => false

/-- A session of a handle as this device holds it: its home's, or the pages of another home's. -/
def sessionOf (s : State) (h : Nat) : Session := match liveSlot s h with | some slot => sessionAt s slot | none => guestAt s h

/-- Whether a session runs a training pass: at its home by its command, elsewhere in a training partition (05 R145). -/
def trains (s : State) (part h : Nat) : Bool :=
  (trainOf s part).isSome && (match liveSlot s h with
    | some slot => (sessionAt s slot).d.partition == part && (sessionAt s slot).job.any (fun j => j.train)
    | none => handleHome h != ownIndex s)

/-- The microbatches among which the pass of a microbatch has its pieces. -/
def passList (s : State) (part mb : Nat) : List SealedMb :=
  if s.sched.sealPrev.any (fun m => m.partition == part && m.microbatch == mb) then s.sched.sealPrev else s.sched.sealNow

/-- The rows a session's pass writes: at its home those it owes and its drafts, elsewhere the lead row and what follows it (05 R131, R141; 09 R233). None where another home replays: its rows are known there only (log entry 23). -/
def passRowsOf (s : State) (part mb h : Nat) : Option (List Nat) :=
  let list := (passList s part mb).filter (fun m => m.partition == part)
  let ps := ((list.map (fun m => m.places)).flatten).filter (fun p => p.handle == h && !p.withdrawn)
  let n := ps.foldl (fun n p => n + p.qpos) 0
  let d := ps.foldl (fun n p => n + p.drafts) 0
  match liveSlot s h with
  | some slot =>
    let x := sessionAt s slot
    let k := if samplesNow x n ∧ draftsMay x then draftsAt x d else 0
    some (sealedRows x n ++ (List.range k).map (fun i => x.d.committed + i))
  | none => if ps.any (fun p => p.replay) then none else some (guestRows (guestAt s h) (n + d))

/-- Frame of a session's page in T1. -/
def pageFrame (x : Session) (no : Nat) : Option Nat := (x.pages.find? (fun p => p.no == no && p.tier == 1)).map (fun p => p.frame)

/-- The frame in which a pass finds a page: a scratch frame of a training pass, else the session's own (05 R145). -/
def passFrame (s : State) (part h no : Nat) : Option Nat :=
  if trains s part h then FMap.get? (sessionOf s h).scratch no else pageFrame (sessionOf s h) no

/-! ### Tile writes (01 R23, R27; 05 R142) -/

/-- A report of tiles written (01 R23): each tile of a session being copied is dirty. Nothing is marked where no page moves (04 R122), nor on the speculation page, which is never sent (05 R144). -/
def noteWrite (q : Partition) (no offset len beat : Nat) (x : Session) : Session :=
  if !x.d.copying ∨ x.handover.any (fun h => h.near) ∨ x.pages.any (fun p => p.no == no && p.spec) then x
  else
    let t := max 1 (tileBytes q)
    let marks := (List.range ((offset + len - 1) / t + 1 - offset / t)).map (fun i => (no, offset / t + i))
    { x with
      dirty := x.dirty ++ marks.filter (fun m => !x.dirty.contains m)
      written := x.written.filter (fun w => w.2.2 == beat) ++ marks.map (fun m => (m.1, m.2, beat)) }

/-- Bytes of one page of a session reach its frame, and the write is reported. -/
def writePage (q : Partition) (part h no offset : Nat) (b : Bytes) (s : State) : State :=
  match passFrame s part h no with
  | none => s
  | some f =>
    let beat := s.cad.beat
    let t := writeMem (f + offset) b s
    match liveSlot s h with
    | some slot => modSession slot (noteWrite q no offset b.length beat) t
    | none => putGuest h (noteWrite q no offset b.length beat (guestAt t h)) t

/-- A pass writes only pages that hold one of its rows: the tail, the speculation page, the pages of its chunk (05 R142). -/
def mayWrite (s : State) (part mb h no : Nat) : Bool :=
  trains s part h || (placed s part mb h && (match passRowsOf s part mb h with
    | some rows => rows.any (fun r => r / 64 == no)
    | none => true))

/-- A page that another ring position takes at its first write: in a replay, and the scratch pages of a training pass (log entry 23). -/
def guestWritePage (part h no : Nat) (s : State) : State :=
  if (liveSlot s h).isSome ∨ handleHome h = ownIndex s then s
  else if trains s part h then
    (if (FMap.get? (guestAt s h).scratch no).isSome then s
    else
      let t := takeFrame part s
      let x := guestAt t.2 h
      putGuest h { x with scratch := FMap.put x.scratch no t.1, d := { x.d with state := 2, partition := part } } t.2)
  else guestPage part h no false s

/-- One staged tile write is released to T1 and reported (01 R22, R23; 07 R177): its bytes come from a STAGE region. -/
def releaseTile (img : Image) (x : SlotEntry) (t : Nat) (w : TileWrite) (s : State) : State :=
  match partitionAt s x.partition with
  | none => s
  | some q =>
    if !mayWrite s x.partition x.microbatch w.handle w.pageNo ∨ pageBytes q < w.offset + w.len ∨ w.len = 0
        ∨ !(regionAt s w.region).any (fun r => r.kind == kindStage) then s
    else writePage q x.partition w.handle w.pageNo w.offset (readRegion img t w.region w.at_ w.len s) (guestWritePage x.partition w.handle w.pageNo s)

/-- Staged activations are handed to their ACT region (07 R177). -/
def releaseHand (img : Image) (x : SlotEntry) (t : Nat) (h : HandOver) (s : State) : State :=
  if (regionAt s h.region).any (fun r => r.kind == kindStage) then commitRegion x.id h.act h.actAt (readRegion img t h.region h.at_ h.len s) s else s

/-! ### Operand rows -/

/-- What the outputs of a command count (06 R172). -/
structure OutCounts where
  lost : Nat := 0
  sat : Nat := 0
  nan : Nat := 0
  spread : Nat := 0

/-- A command while it runs: the scratchpad, in which a line that nothing wrote reads zero (07 R175); what its outputs count; whether a residue disagreed; the link of a compact accumulator that failed its check; the device with what the command has staged. -/
structure CmdRun where
  scratch : List (Nat × Byte) := []
  counts : OutCounts := {}
  residue : Bool := false
  reduce : Option Nat := none
  st : State

/-- Where a command runs: image, slot, and the phase unit of the step just before its commit point. -/
structure CmdEnv where
  img : Image
  slot : SlotEntry
  at_ : Nat

/-- Bytes of an operand row; an adapter's elements are BF16, as the pass entered with them (05 R148, 01 R31). -/
def rowBytes (e : CmdEnv) (w : CmdRun) (src : RowSource) (n : Nat) : Bytes :=
  match src with
  | .scratch off => Memory.readBytes w.scratch off n
  | .region i off => readRegion e.img e.at_ i off n w.st
  | .adapter k el => ((adapterCodes w.st (passPrev w.st e.slot) e.slot.partition k el (n / 2)).map (leBytes 2)).flatten

/-- The link on which the frames of a LAND region arrive. -/
def landLink (e : CmdEnv) (i : Nat) : Nat := match e.img.transfers.find? (fun t => t.region == i && t.dir == 1) with | some t => t.link | none => 0xFF

/-- Reads one operand row into a dot product. -/
def loadDot (e : CmdEnv) (w : CmdRun) (j : DotJob) (r : RowRead) : DotJob :=
  let row (width : Nat) : List Nat := rowWords width (rowBytes e w r.source (width * r.count))
  match r.row with
  | 0 => { j with as := row (operandBytes j.fmtA) }
  | 1 => { j with bs := row (operandBytes j.fmtB) }
  | 3 => { j with scalesA := row 1 }
  | 4 => { j with scalesB := row 1 }
  | 5 => { j with maxima := (row 4).map (signedOf 32) }
  | 6 => { j with received := j.received ++ [⟨rowBytes e w r.source 32, match r.source with | .region i _ => landLink e i | _ => 0xFF⟩] }
  | _ => j

/-- Reads one operand row, of FP32 words, into a configured operation. -/
def loadOp (e : CmdEnv) (w : CmdRun) (j : OpJob) (r : RowRead) : OpJob :=
  let row := rowWords (if j.code = 0x08 ∧ 0x100 ≤ j.const then operandBytes (j.const % 256) else 4)
    (rowBytes e w r.source ((if j.code = 0x08 ∧ 0x100 ≤ j.const then operandBytes (j.const % 256) else 4) * r.count))
  match r.row with
  | 0 => { j with xs := row }
  | 1 => { j with ys := row }
  | 2 => { j with zs := row }
  | _ => j

def loadRow (e : CmdEnv) (w : CmdRun) (j : RowJob) (r : RowRead) : RowJob :=
  if r.row = 0 then { j with xs := rowWords 4 (rowBytes e w r.source (4 * r.count)) } else j

/-! ### Results -/

/-- The summed loss of a training pass is noted for its reply (05 R145). -/
def noteLoss (part h : Nat) (b : Bytes) (s : State) : State :=
  match liveSlot s h with
  | some slot => if trains s part h then modSession slot (fun x => { x with job := x.job.map (fun j => { j with loss := fieldAt b 0 4 }) }) s else s
  | none => s

/-- Writes the bytes of a result where it goes: the 64 KiB scratchpad, a STAGE or SCORE region, the reply of a training pass. Only a compact accumulator leaves through the reduction switch (07 R176, R179). -/
def putOut (e : CmdEnv) (dest : RowDest) (b : Bytes) (w : CmdRun) : CmdRun :=
  match dest with
  | .scratch off => if off + b.length ≤ 65536 then { w with scratch := Memory.writeBytes w.scratch off b } else w
  | .region i off => { w with st := stepRegion [kindStage, kindScore] e.slot.id i off b w.st }
  | .peers => w
  | .loss h => { w with st := noteLoss e.slot.partition h b w.st }

/-- Counts output elements (06 R161, R162). -/
def countElems (os : List OutElem) (w : CmdRun) : CmdRun :=
  { w with counts := { w.counts with sat := w.counts.sat + (os.filter (fun o => o.sat)).length, nan := w.counts.nan + (os.filter (fun o => o.nan)).length } }

/-- Counts an output of an accumulator that lost bits, with the largest S of the command (06 R157; log entry 96). -/
def countLost (a : Acc) (w : CmdRun) : CmdRun :=
  { w with counts := { w.counts with lost := w.counts.lost + boolNat a.lost, spread := if a.lost then max w.counts.spread a.spread else w.counts.spread } }

/-- Runs a dot product: the local E_max of a split reduction goes to the other participants, received accumulators are checked against the derived alignment, the residue is compared, and the sum is converted once, emitted in compact form, or joins an adapter's gradient (06 R160 to R170; 05 R148). -/
def runDot (e : CmdEnv) (j : DotJob) (w : CmdRun) : CmdRun :=
  let w := if j.split then { w with st := send (.alignMax (leBytes 4 (signedField 32 (localMax j)))) w.st } else w
  match j.received.find? (fun c => !compactOk (lambdaOf j) c) with
  | some c => { w with reduce := some c.link }
  | none =>
    let a := fullSum j
    if residueBad a then { w with residue := true }
    else if j.out = 8 then
      (match j.dest with
      | .peers => { w with st := send (.partialSum (compactBytes a)) w.st }
      | _ => putOut e j.dest (compactBytes a) w)
    else if j.out = 9 then { w with st := addGradient e.slot.partition j w.st }
    else
      let o := convert j.out j.sat a
      putOut e j.dest (leBytes (outBytes j.out) (postDot j o.code)) (countLost a (countElems [o] w))

/-! ### Attention rows (05 R130, R136, R138, R146, R147) -/

/-- One element of a row after the rotary transform at a position (05 R138). -/
def rotated (p : Pattern) (pos : Nat) (xs : List Nat) (d : Nat) : Nat :=
  let half := xs.length / 2
  let i := if p.ropePairing = 0 then d / 2 else d % max 1 half
  let first : Bool := if p.ropePairing = 0 then d % 2 == 0 else decide (d < half)
  match p.ropeTurns[i]? with
  | none => xs.getD d 0
  | some f =>
    let t := turnCosSin (turnCount pos f / 2 ^ 32)
    let x := xs.getD (if p.ropePairing = 0 then 2 * i else i) 0
    let y := xs.getD (if p.ropePairing = 0 then 2 * i + 1 else i + half) 0
    if first then f32Sub (f32Mul x t.1) (f32Mul y t.2) else f32Add (f32Mul x t.2) (f32Mul y t.1)

def rotateRow (p : Pattern) (pos : Nat) (xs : List Nat) : List Nat := (List.range xs.length).map (rotated p pos xs)

/-- Output format of a KV format. -/
def kvOut (fmt : Nat) : Nat := match fmt with | 0 => 0 | 1 => 1 | _ => 6

/-- A row for a position: a query is rotated and stays FP32, a key is rotated and rounded once to the KV format, a value is only rounded (05 R130, R138). -/
def runRow (e : CmdEnv) (j : RowJob) (w : CmdRun) : CmdRun :=
  match partitionAt w.st e.slot.partition, patternOf w.st e.slot.partition with
  | some q, some p =>
    if j.kind = 0 then putOut e j.dest (((rotateRow p j.position j.xs).map (leBytes 4)).flatten) w
    else
      let os := (if j.kind = 1 then rotateRow p j.position j.xs else j.xs).map (cvt (kvOut q.kvFormat) true)
      putOut e j.dest ((os.map (fun o => leBytes (elemBytes q.kvFormat) o.code)).flatten) (countElems os w)
  | _, _ => w

/-- Whether the row of a key is written for a query of the pass: it lies below FILL and is not the lead row, or the query's own pass wrote it (05 R131); in a training pass every row of the example is its own. -/
def rowWritten (s : State) (part mb h k : Nat) : Bool :=
  let x := sessionOf s h
  let own : Bool := match passRowsOf s part mb h with | some rows => rows.contains k | none => true
  let stored : Bool := match x.rebuild with
    | some r => decide (k < r.next)
    | none => decide (k < x.d.committed) && !(x.leadRow && k + 1 == x.d.committed)
  trains s part h || own || stored

/-- The keys that a query sees (05 R136, R131); a position that a Cologne revive replays sees the globals and the positions from RETIRED on (04 R106). -/
def keySeen (s : State) (p : Pattern) (part mb h head q k : Nat) : Bool :=
  let x := sessionOf s h
  attends p head q k && rowWritten s part mb h k
    && (!x.cologne.contains q || isGlobal p.globals k || decide (x.d.retired ≤ k))

/-- Positions of the example that a training pass of a session runs over: its ledger at home; elsewhere the command's constant (log entry 23). -/
def exampleLength (s : State) (j : OpJob) : Nat := match liveSlot s j.handle with | some slot => (sessionAt s slot).d.ledgerPos | none => j.const

/-- The statistics record of a row goes to T1 (05 R146). -/
def saveStats (part len : Nat) (j : OpJob) (pos m l : Nat) (s : State) : State :=
  let h := j.handle
  let off := statsOffset s part len j.layer j.head pos
  let s := if (liveSlot s h).isNone ∧ handleHome h ≠ ownIndex s ∧ trains s part h then
      (let x := guestAt s h
       let i := off / granuleOf s part
       if (FMap.get? x.stats i).isSome then s
       else let t := takeFrame part s; putGuest h { x with stats := FMap.put x.stats i t.1, d := { x.d with state := 2, partition := part } } t.2)
    else s
  let x := sessionOf s h
  match (if trains s part h then statsAddr s x off else none) with
  | some a => writeMem a (leBytes 4 m ++ leBytes 4 l) s
  | none => s

/-- The record read back (05 R147). -/
def loadStats (s : State) (part len : Nat) (j : OpJob) (pos : Nat) : Nat × Nat :=
  match statsAddr s (sessionOf s j.handle) (statsOffset s part len j.layer j.head pos) with
  | some a => let b := Memory.readBytes s.mem a 8; (fieldAt b 0 4, fieldAt b 4 4)
  | none => (0, 0)

/-- OPT over elements of an adapter (07 R181). -/
def runOpt (e : CmdEnv) (j : OpJob) (w : CmdRun) : CmdRun :=
  match trainOf w.st e.slot.partition with
  | none => w
  | some t => j.ys.foldl (fun (w : CmdRun) i =>
      let o := optElem t (adapterKey e.slot.partition j.const) i w.st
      countLost o.2.1 (countElems [o.1] { w with st := o.2.2 })) w

/-- Runs a configured operation on rows. -/
def runVec (e : CmdEnv) (j : OpJob) (w : CmdRun) : CmdRun :=
  let part := e.slot.partition
  let q := j.zs.headD 0
  let words (l : List Nat) (w : CmdRun) : CmdRun := putOut e j.dest ((l.map (leBytes (opWidth j))).flatten) w
  match j.code with
  | 0x08 => words ((cvtAll j).map (fun o => o.code)) (countElems (cvtAll j) w)
  | 0x29 => (match patternOf w.st part with
    | some p => words (maskRow (keySeen w.st p part e.slot.microbatch j.handle j.head q) j) w
    | none => w)
  | 0x2C => { w with st := saveStats part (exampleLength w.st j) j q (j.xs.headD 0) ((j.xs.drop 1).headD 0) w.st }
  | 0x2D => let r := loadStats w.st part (exampleLength w.st j) j q; words (statsUse r.1 r.2 j.xs) w
  | 0x3E => runOpt e j w
  | _ => match runOp j with | some l => words l w | none => w

/-! ### Movement (07 R181: WLOAD, KVREAD, STAGE) -/

/-- Bytes of a chunk of a partition's weights. -/
def weightBytes (s : State) (part chunk offset len : Nat) : Bytes :=
  match (partitionAt s part).bind (fun q => FMap.get? s.cont.models q.model) with
  | some m => (List.range len).map (fun i => Config.weightByte m.measurement.toNat chunk (offset + i))
  | none => List.replicate len 0

/-- Bytes of a page of a session of the pass, as T1 holds them. -/
def pageRead (s : State) (part mb h no offset len : Nat) : Bytes :=
  match (if placed s part mb h ∨ trains s part h then passFrame s part h no else none) with
  | some f => Memory.readBytes s.mem (f + offset) len
  | none => List.replicate len 0

/-- One step of a command; after a mismatch the command only waits to be killed. -/
def runStep (e : CmdEnv) (w : CmdRun) (k : FabStep) : CmdRun :=
  if w.residue ∨ w.reduce.isSome then w
  else
    match k with
    | .dot reads j => runDot e (reads.foldl (loadDot e w) j) w
    | .vec reads j => runVec e (reads.foldl (loadOp e w) j) w
    | .row reads j => runRow e (reads.foldl (loadRow e w) j) w
    | .wload chunk offset len region at_ =>
      { w with st := stepRegion [kindWstream] e.slot.id region at_ (weightBytes w.st e.slot.partition chunk offset len) w.st }
    | .kvread h no offset len region at_ =>
      { w with st := stepRegion [kindKvbuf] e.slot.id region at_ (pageRead w.st e.slot.partition e.slot.microbatch h no offset len) w.st }
    | .stage src len region at_ => { w with st := stepRegion [kindStage] e.slot.id region at_ (rowBytes e w src len) w.st }

/-- A command run from a clear scratchpad to its commit point (07 R175, R176). -/
def runSteps (e : CmdEnv) (steps : List FabStep) (s : State) : CmdRun := steps.foldl (runStep e) { st := s }

/-! ### The commit point -/

/-- Counters, flags and the record of a command's outputs (06 R157, R172). The record names the logical core; DESIGN CHOICE (log entry 96): its S is taken over the outputs that lost bits and stops at 255, the most its byte holds. -/
def countOutputs (x : SlotEntry) (c : LayerCommit) (k : OutCounts) (s : State) : State :=
  let d := c.core / 512 % 16
  let lim := 2 ^ 64 - 1
  let s := modDistrict d (fun y => { y with exactLost := satAdd lim y.exactLost k.lost, satOut := satAdd lim y.satOut k.sat, nanOut := satAdd lim y.nanOut k.nan }) s
  let s := if k.sat = 0 then s else setFlag (offArithEvents d) 4 s
  let s := if k.nan = 0 then s else setFlag (offArithEvents d) 5 s
  if k.lost = 0 then s
  else
    let s := countPart x.partition (fun p => { p with exactLost := satAdd lim p.exactLost k.lost }) (setFlag (offArithEvents d) 0 s)
    report 0x300 (unitField 1 (c.core / 32 * 32 + c.logical) ++ leBytes 2 x.id ++ leBytes 1 x.partition ++ leBytes 1 (min 255 k.spread)) s

/-- The update slot of a training partition: the last of its slots with the TRAIN flag (05 R145, 08 R196). -/
def isUpdate (s : State) (x : SlotEntry) : Bool :=
  bitOf x.flags 5 && (match s.sched.active with
    | some img => ((img.slots.filter (fun y => y.partition == x.partition && bitOf y.flags 5)).getLast?).any (fun y => y.id == x.id)
    | none => false)

/-- Scratch frames that this position took for training passes of other homes return with the update slot's commit (05 R145, R146). -/
def endGuestTraining (part : Nat) (s : State) : State :=
  let due := s.slots.guests.filter (fun e => e.2.d.partition == part && !(e.2.scratch.isEmpty && e.2.stats.isEmpty))
  due.foldl (fun s e => dropGuest e.1 (framesDue ((e.2.scratch ++ e.2.stats).map (fun f => f.2)) s)) s

/-- The commit of the update slot ends every training pass that entered before this step, and answers it (05 R145). -/
def endUpdate (x : SlotEntry) (s : State) : State :=
  if !isUpdate s x then s
  else
    let due := (s.slots.table.filter (fun e => e.2.d.partition == x.partition && e.2.d.state == 2
      && (match e.2.job with | some j => j.train && decide (j.waitStep < s.sched.step) | none => false))).map (fun e => e.1)
    due.foldl (fun s slot => endTraining slot s) (endGuestTraining x.partition s)

/-- The core that a command names serves its logical number in the Block's map (01 R18, 07 R187). -/
def servesLogical (s : State) (core logical : Nat) : Bool :=
  (blockAt s (core / 512 % 16) (core / 32 % 16)).map[logical]? == some (core % 32)

/-- The command's run stands: not killed, or killed for another command at this very commit point; and it has not committed before. -/
def runStands (s : State) (c : LayerCommit) : Bool :=
  !s.sched.commits.contains (c.slotId, c.core) && (c.run == runOf s c.slotId || s.sched.partly.contains (c.slotId, c.run, nowPhase s))

/-- What a layer command releases at its commit point: tile writes, activations, then what it counts; SCORE regions end with it. -/
def releaseAll (e : CmdEnv) (c : LayerCommit) (w : CmdRun) : State :=
  let x := e.slot
  let s := c.writes.foldl (fun s t => releaseTile e.img x e.at_ t s) w.st
  let s := c.hands.foldl (fun s h => releaseHand e.img x e.at_ h s) s
  let s := modDistrict (c.core / 512 % 16) (fun y => { y with running := false }) (dropKind kindScore x.id s)
  let s := { s with sched := { s.sched with commits := s.sched.commits ++ [(c.slotId, c.core)] } }
  endUpdate x (countOutputs x c w.counts s)

/-- The environment of a command of a slot: just before its commit point on the schedule without slips (08 R502). -/
def cmdEnv (img : Image) (x : SlotEntry) : CmdEnv := ⟨img, x, (x.start + x.commitBeat) * 4096 + x.commitPhase - 1⟩

/-- The commit point of a layer command (01 R27): a killed run and a core that does not serve its logical number release nothing, a deferred microbatch runs without work (08 R210); a residue or received-accumulator mismatch kills the command before it (06 R166, R170), and all it staged is void. -/
def execCommitPoint (c : LayerCommit) (s : State) : Host.Outcome State Fault Refusal :=
  let s := settleDefers s
  match slotImage s c.slotId, activeSlot s c.slotId with
  | some img, some x =>
    if !runStands s c ∨ !servesLogical s c.core c.logical ∨ deferred s x then .next s
    else
      let w := runSteps (cmdEnv img x) c.steps s
      if w.residue then .next (residueMismatch c.core c.logical c.slotId s)
      else
        match w.reduce with
        | some link =>
          let s := setFlag (offArithEvents (c.core / 512 % 16)) 3 s
          .next (killCommand c.slotId (c.core / 512 % 16) (report 0x302 (unitField 3 link ++ leBytes 2 c.slotId ++ [0, 0]) s))
        | none => .next (releaseAll (cmdEnv img x) c w)
  | _, _ => .next s

end Sys2Proof.Machine
end

