-- ==== Sys2Proof/Machine/Sampling.lean ====
section
/-! DEFINITION. The pick of one position (10 R270 to R276): penalties, the candidate list, bans, temperature, min-p, top-p, the draw. -/

namespace Sys2Proof.Machine

/-- PENALTY on one logit of an element with a count above 0 (10 R274). -/
def penalise (b : Sampling) (count l : Nat) : Nat :=
  if count = 0 then l
  else
    let l := if b.repetition = f32One then l else if f32Lt 0 l then f32Div l b.repetition else f32Mul l b.repetition
    let l := f32Sub l (f32Mul b.frequency (f32OfNat count))
    f32Sub l b.presence

def isFinite (l : Nat) : Bool := match unpackF32 l with | .fin _ _ _ => true | _ => false

/-- Inserts a candidate: descending value, ties by ascending index (07 R182). -/
def insertCandidate (c : Nat × Nat) : List (Nat × Nat) → List (Nat × Nat)
  | [] => [c]
  | d :: rest => if f32Lt d.2 c.2 then c :: d :: rest else d :: insertCandidate c rest

/-- The candidate list after steps (a) and (b): the 256 largest finite penalised logits as (element, logit). -/
def candidates (b : Sampling) (counts : Counts) (row : List Nat) : List (Nat × Nat) :=
  let pen := (row.mapIdx (fun i l => (i, penalise b (countOf counts i) l))).filter (fun c => isFinite c.2)
  (pen.foldl (fun l c => insertCandidate c l) []).take 256

/-- The 32-bit draw for a ledger position (10 R276). -/
def drawAt (key pos idx : Nat) : Nat :=
  let z : BitVec 64 := BitVec.ofNat 64 key + BitVec.ofNat 64 pos * 0x9E3779B97F4A7C15#64 + BitVec.ofNat 64 idx * 0xD1B54A32D192ED03#64
  let z := (z ^^^ (z >>> (30 : Nat))) * 0xBF58476D1CE4E5B9#64
  let z := (z ^^^ (z >>> (27 : Nat))) * 0x94D049BB133111EB#64
  let z := z ^^^ (z >>> (31 : Nat))
  z.toNat / 2 ^ 32

/-- Running sums r_j of weights (10 R275). -/
def runningSums : Nat → List Nat → List Nat
  | _, [] => []
  | r, w :: rest => let r' := f32Add r w; r' :: runningSums r' rest

/-- Running sums that start at the first weight itself. -/
def runSums : List Nat → List Nat
  | [] => []
  | w :: rest => w :: runningSums w rest

/-- Picks from a candidate list that is not empty (10 R275). -/
def pickFrom (b : Sampling) (key pos : Nat) (list : List (Nat × Nat)) : Nat :=
  let list := if b.topK = 0 then list else list.take b.topK
  let first := list.headD (0, 0)
  if bitsOf b.temp 0 31 = 0 then first.1
  else
    let t := list.map (fun c => (c.1, f32Div c.2 b.temp))
    let l0 := (t.headD (0, 0)).2
    let w := t.map (fun c => (c.1, f32Exp (f32Sub c.2 l0)))
    let w := w.filter (fun c => !f32Lt c.2 b.minP)
    let z := rsum (w.map (fun c => c.2))
    let r := runSums (w.map (fun c => c.2))
    let keep := if f32Lt b.topP f32One then
        (match r.findIdx? (fun x => f32Le (f32Mul b.topP z) x) with | some j => j + 1 | none => w.length)
      else w.length
    let w := w.take keep
    let r := r.take keep
    let cut := r.getLast?.getD 0
    let target := f32Mul (packF32 false (drawAt key pos 0) (-32) false) cut
    match r.findIdx? (fun x => f32Lt target x) with
    | some j => (w.getD j first).1
    | none => (w.getLast?.getD first).1

/-- What a position's pick comes to: an element, an element picked with the constraint relaxed, or a dead position with detail bit 0 (10 R271, R272). -/
inductive Pick where
  | element (e : Nat)
  | relaxed (e : Nat)
  | dead (noFinite : Bool)
  deriving DecidableEq, Repr

/-- The pick at a ledger position from the model's row. -/
def pickAt (b : Sampling) (key pos policy : Nat) (vocab : Option Vocabulary) (c : Option Compiled) (k : ConState)
    (counts : Counts) (row : List Nat) : Pick :=
  let list := candidates b counts row
  let bans := bansOf c
  let free := list.filter (fun x => bans.isEmpty || !reaches bans k.ban (elemBytesOf vocab x.1))
  if list.isEmpty then .dead true
  else if free.isEmpty then (if policy = 1 then .relaxed (pickFrom b key pos list) else .dead false)
  else .element (pickFrom b key pos free)

end Sys2Proof.Machine
end

