-- ==== Sys2Proof/Machine/Commit.lean ====
section
/-! DEFINITION. What a sampling commit does to each member of its microbatch (05 R131, R140 to R143; 09 R233, R236 to R239; 10 R264 to R277). -/

namespace Sys2Proof.Machine

/-! ### The elements of a sampling commit (10 R264 to R272) -/

/-- How the picking of a commit ends. -/
inductive DrawEnd where
  | going
  | stopped (own : Nat)
  | dead (noFinite : Bool)
  | limit
  | count
  deriving DecidableEq, Repr

/-- A commit in progress: automata and counts as if its elements had been committed, the elements with their kinds and bytes, the bytes that wait. -/
structure Draw where
  con : ConState
  counts : Counts
  pos : Nat
  elems : Nat
  items : List (Nat × Nat × Nat) := []
  wait : Bytes
  out : Bytes := []
  accepted : Nat := 0
  relaxed : List Nat := []
  deadSeen : Nat := 0
  ended : DrawEnd := .going
  deriving DecidableEq, Repr

/-- What stands fixed while a commit picks. -/
structure DrawEnv where
  session : Session
  job : Generation
  vocab : Option Vocabulary
  set : Option Compiled

/-- Entries of the page list of a session once a position is committed (03 R78). -/
def pageEntries (x : Session) (pos : Nat) : Nat :=
  let held := ceilDiv x.d.committed 64
  (x.pages.filter (fun p => !p.spec && decide (p.no < held))).length + (pos / 64 + 1 - held)

/-- A commit of a position would take the page list above its 1,048,576 entries (04 R98). -/
def listFull (x : Session) (pos : Nat) : Bool := decide (2 ^ 20 < pageEntries x pos)

/-- The limits of R265 and R269 after an element, MAX_LEN first, and of 04 R98 on the page list. -/
def limitEnd (v : DrawEnv) (d : Draw) : Draw :=
  if d.ended ≠ .going then d
  else if lengthLimit v.session.d ≤ d.pos ∨ listFull v.session d.pos then { d with ended := .limit }
  else if v.job.byteCount ≤ d.elems then { d with ended := .count }
  else d

/-- Commits one element: counts and automata advance; bytes wait while they may begin a stop string; a complete stop string ends the output at its end point (10 R266, R267). -/
def putElem (v : DrawEnv) (kind e : Nat) (d : Draw) : Draw :=
  let b := elemBytesOf v.vocab e
  let stops := stopsOf v.set
  let con := feedCon v.set d.con b
  let base : Draw := { d with
    con := con, counts := countElem v.session.d.vocab d.counts e, pos := d.pos + 1, elems := d.elems + 1, items := d.items ++ [(kind, e, b.length)] }
  match firstStop stops d.con.stop b with
  | some (t, rest) =>
    let all := d.wait ++ b
    let cut := min all.length (if v.session.d.stopInc then rest else rest + t.length)
    { base with
      wait := [], out := d.out ++ all.take (all.length - cut)
      con := { con with forcePair := none, forceOffset := 0 }
      ended := .stopped (min b.length cut) }
  | none =>
    let all := d.wait ++ b
    let held := min all.length (heldSuffix stops con.carry).length
    { base with wait := all.drop (all.length - held), out := d.out ++ all.take (all.length - held) }

/-- Appends what is left of a continuation as FORCED elements, up to a limit or a stop string (10 R265). -/
def forceElems (v : DrawEnv) : List Nat → Draw → Draw
  | [], d => { d with con := { d.con with forcePair := none, forceOffset := 0 } }
  | e :: rest, d =>
    let d := limitEnd v d
    if d.ended ≠ .going then d
    else
      let d := putElem v 4 e d
      if d.ended ≠ .going then d
      else forceElems v rest { d with con := { d.con with forceOffset := d.con.forceOffset + (elemBytesOf v.vocab e).length } }

/-- Elements of a continuation beyond some of its bytes. -/
def dropBytes (vocab : Option Vocabulary) : Nat → List Nat → List Nat
  | _, [] => []
  | n, e :: rest => if n = 0 then e :: rest else dropBytes vocab (n - (elemBytesOf vocab e).length) rest

def contOf (v : DrawEnv) (pair : Nat) : List Nat := match v.set with | some c => c.conts.getD pair [] | none => []

/-- Picks at one position after another while the drafts agree (05 R141; 10 R269, R272). -/
def pickAll (v : DrawEnv) : List (List Nat) → List Nat → Draw → Draw
  | [], _, d => d
  | row :: rows, drafts, d =>
    let x := v.session
    let go (e : Nat) (d : Draw) : Draw :=
      let d := putElem v 3 e d
      let agree := drafts.head? == some e
      let d := if agree then { d with accepted := d.accepted + 1 } else d
      if d.ended ≠ .going then d
      else
        match firedTrigger v.set d.con.force with
        | some p => limitEnd v (forceElems v (contOf v p) { d with con := { d.con with forcePair := some p, forceOffset := 0 } })
        | none =>
          let d := limitEnd v d
          if d.ended ≠ .going ∨ !agree then d else pickAll v rows drafts.tail d
    match pickAt v.job.block x.d.genKey d.pos x.d.deadPolicy v.vocab v.set d.con d.counts row with
    | .dead b => { d with ended := .dead b, deadSeen := d.deadSeen + 1 }
    | .relaxed e => go e { d with relaxed := d.relaxed ++ [d.pos], deadSeen := d.deadSeen + 1, con := { d.con with relaxed := min 0xFFFF (d.con.relaxed + 1) } }
    | .element e => go e d

/-- The elements of a sampling pass that took every row owed: a pending continuation first, no pick at MAX_LEN, else the picks. -/
def drawAll (v : DrawEnv) (rows : List (List Nat)) (drafts : List Nat) : Draw :=
  let x := v.session
  let d : Draw := { con := x.con, counts := x.counts, pos := x.d.ledgerPos, elems := v.job.elems, wait := v.job.pendingBytes }
  match x.con.forcePair with
  | some p => limitEnd v (forceElems v (dropBytes v.vocab x.con.forceOffset (contOf v p)) d)
  | none =>
    let d := limitEnd v d
    if d.ended ≠ .going then d else pickAll v (rows.take (drafts.length + 1)) drafts d

/-- The runs of a commit: elements not wholly delivered when a stop string ended the output are WITHHELD (10 R267). -/
def commitRuns (step : Nat) (tokens stopped : Bool) (delivered : Nat) (items : List (Nat × Nat × Nat)) (waited : Nat) : List Run :=
  let tagged := (items.foldl (fun (a : Nat × List (Nat × Nat)) e =>
    let at_ := a.1 + e.2.2
    (at_, a.2 ++ [(if stopped ∧ delivered < at_ then 5 else e.1, e.2.1)])) (waited, [])).2
  (tagged.foldl (fun (l : List Run) e => match l with
    | r :: rest => if r.kind = e.1 then { r with elems := r.elems ++ [e.2] } :: rest else ⟨e.1, tokens, step, [e.2], (0, 0)⟩ :: l
    | [] => [⟨e.1, tokens, step, [e.2], (0, 0)⟩]) []).reverse

/-! ### Pages after a commit (03 R82, 05 R143) -/

/-- A session's page list at a committed length, with the frames of the pages that leave it: the speculation page joins or goes, fills and the tail move, retired pages leave. A speculation page that joins during a background copy is sent like any other page (05 R144). -/
def settled (s : State) (n : Nat) (x : Session) : Session × List Nat :=
  let w := windowOf s x.d.partition
  let ret := retiredAt w n
  let gone (p : Page) : Bool := (p.spec && decide (n ≤ 64 * p.no)) || (w != 0 && !p.global && decide (64 * (p.no + 1) ≤ ret))
  let joined := (x.pages.filter (fun p => p.spec && !gone p)).map (fun p => p.no)
  let tiles := match partitionAt s x.d.partition with | some q => tilesPerPage q | none => 0
  let marks := if x.d.copying ∧ !x.handover.any (fun h => h.near) then (joined.map (fun no => (List.range tiles).map (fun t => (no, t)))).flatten else []
  ({ x with
    pages := (x.pages.filter (fun p => !gone p)).map (fun p => { p with spec := false, fill := min 64 (n - 64 * p.no), tail := decide (1 ≤ n) && p.no == (n - 1) / 64 })
    dirty := x.dirty ++ marks.filter (fun m => !x.dirty.contains m)
    d := { x.d with retired := max x.d.retired ret } }, (x.pages.filter gone).map (fun p => p.frame))

/-- The page list of a home session at a committed length; the frames of pages that leave it return at the boundary. -/
def settlePages (slot n : Nat) (s : State) : State :=
  let r := settled s n (sessionAt s slot)
  putSession slot r.1 (framesDue r.2 s)

/-- The pages this position holds of another home's session, at the commit that takes its length to `n` (03 R82, 05 R143). -/
def settleGuest (h n : Nat) (sampled : Bool) (s : State) : State :=
  let r := settled s n (guestAt s h)
  putGuest h { r.1 with leadRow := if n ≠ r.1.d.committed then sampled else r.1.leadRow, d := { r.1.d with committed := n } } (framesDue r.2 s)

/-! ### One member -/

/-- Replay rows of a rebuild commit (03 R93): the last of them ends it. -/
def commitReplay (slot n : Nat) (r : Rebuild) (s : State) : State :=
  let x := sessionAt s slot
  let next := min r.stop (r.next + n)
  let s := modSession slot (fun x => { x with rebuild := some { r with next := next } }) s
  let s := settlePages slot next s
  let s := countPart x.d.partition (fun c => { c with replayPasses := c.replayPasses + 1 }) s
  if next < r.stop then s
  else
    let s := replayDone slot (settlePages slot x.d.committed s)
    reportCandidate slot (sessionAt s slot).job.isSome s

/-- Position counters, records and drafts of a sampled commit. -/
def countDraw (slot : Nat) (d : Draw) (verified : Nat) (s : State) : State :=
  let x := sessionAt s slot
  let stopped : Bool := match d.ended with | .stopped _ => true | _ => false
  let forced := (d.items.filter (fun e => e.1 == 4)).length
  let s := countPart x.d.partition (fun c => { c with
    verifyPasses := c.verifyPasses + (if verified = 0 then 0 else 1)
    draftsVerified := c.draftsVerified + verified, draftsAccepted := c.draftsAccepted + d.accepted
    deadEnd := c.deadEnd + (if x.d.deadPolicy = 0 then d.deadSeen else 0)
    deadRelax := c.deadRelax + (if x.d.deadPolicy = 1 then d.deadSeen else 0)
    deadHalt := c.deadHalt + (if x.d.deadPolicy = 2 then d.deadSeen else 0)
    relaxed := c.relaxed + d.relaxed.length, stops := c.stops + boolNat stopped, forced := c.forced + forced }) s
  let h := sessionHandle s slot
  let s := d.relaxed.foldl (fun s p => report 0x601 (leBytes 8 h ++ leBytes 8 p) s) s
  if x.counts.foldedDistinct ≠ 0 ∧ !x.d.countsFolded then
    report 0x602 (leBytes 8 h ++ leBytes 4 x.counts.foldedDistinct) (modSession slot (fun x => { x with d := { x.d with countsFolded := true } }) s)
  else s

/-- How a generation ends after its commit (03 R89; 10 R267, R269, R272). -/
def endAfter (slot : Nat) (d : Draw) (s : State) : State :=
  match (sessionAt s slot).job with
  | none => s
  | some j =>
    let park := j.parkOnEnd
    let held := s.host.held
    let wake := if held then 0 else j.wakeAfter
    let policy := (sessionAt s slot).d.deadPolicy
    match d.ended with
    | .stopped own => endGeneration slot (if park then stOK else stSTOPPED) own (park || held) wake s
    | .limit => endGeneration slot (if park then stOK else stLIMIT_REACHED) 0 (park || held) wake s
    | .count => endGeneration slot stOK 0 (park || held) wake s
    | .dead b => endGeneration slot stCONSTRAINT_DEAD (boolNat b) (park || policy == 2 || held) (if policy = 2 then 0 else wake) s
    | .going => match j.endWith with | some st => endGeneration slot st 0 held 0 s | none => s

/-- Cologne pages whose last dropped row has been replayed are whole again (04 R106). -/
def regrade (cologne : List Nat) (ps : List Page) : List Page :=
  ps.map (fun p => if p.grade = 3 ∧ p.tier = 1 ∧ !cologne.any (fun r => r / 64 == p.no) then { p with grade := 0xFF } else p)

/-- A commit that the page list has no room for is refused: its rows stay owed and the generation ends (04 R98). -/
def refuseCommit (slot : Nat) (s : State) : State :=
  let x := sessionAt s slot
  let beyond (p : Page) : Bool := p.spec || decide (ceilDiv x.d.committed 64 ≤ p.no)
  let s := framesDue ((x.pages.filter beyond).map (fun p => p.frame)) s
  endGeneration slot stLIMIT_REACHED 0 s.host.held 0 (modSession slot (fun x => { x with pages := x.pages.filter (fun p => !beyond p) }) s)

/-- Rows commit and, where the pass took every row owed under a pending command, its elements. -/
def commitServe (slot n grant pieces step : Nat) (out : Option MemberOutput) (s : State) : State :=
  let x := sessionAt s slot
  let rows := sealedRows x n
  let samples := samplesNow x n
  let d0 := if draftsMay x ∧ samples then draftsAt x grant else 0
  let nCol := (rows.filter (fun r => x.cologne.contains r)).length
  let prefill := (rows.filter (fun r => decide (x.d.committed ≤ r))).length
  let cologne := x.cologne.drop nCol
  if prefill ≠ 0 ∧ listFull x (x.d.committed + prefill - 1) then refuseCommit slot s
  else
  let s := modSession slot (fun x => { x with
    cologne := cologne
    leadRow := x.leadRow && prefill == 0
    pages := regrade cologne x.pages
    d := { x.d with committed := x.d.committed + prefill } }) s
  let s := if nCol = 0 then s else countPart x.d.partition (fun c => { c with replayPasses := c.replayPasses + 1 }) s
  match (if samples then x.job else none) with
  | none =>
    let s := settlePages slot (x.d.committed + prefill) s
    let s := modSession slot (fun x => { x with job := x.job.map (fun j => { j with
      waitStep := if prefill = 0 then j.waitStep else step, positions := j.positions + prefill, passes := j.passes + (if prefill = 0 then 0 else 1), lastPieces := pieces }) }) s
    let s := endAfter slot { con := x.con, counts := x.counts, pos := 0, elems := 0, wait := [] } s
    if (sessionAt s slot).job.isSome then reportCandidate slot true s else s
  | some j =>
    let y := sessionAt s slot
    let v : DrawEnv := ⟨y, j, vocabOf s y, setOf s y⟩
    let drafts := x.drafts.take d0
    let d := drawAll v ((out.map (fun o => o.rows)).getD []) drafts
    let picked := (d.items.filter (fun e => e.1 == 3)).length
    let forced := d.items.length - picked
    let stopped : Bool := match d.ended with | .stopped _ => true | _ => false
    let release : Bool := d.ended != .going && !stopped
    let runs := commitRuns (stepNow s) y.d.vocab stopped d.out.length d.items j.pendingBytes.length
    let s := appendCommit slot runs s
    let n' := y.d.committed + picked
    let spec := y.d.spec
    let s := modSession slot (fun x => { x with
      con := { d.con with set := x.con.set }, counts := d.counts
      leadRow := x.leadRow || picked != 0
      drafts := if 0 < picked ∧ forced = 0 then ((out.map (fun o => o.newDrafts)).getD []).take spec else []
      job := x.job.map (fun j => { j with
        elems := d.elems, pendingBytes := if release then [] else d.wait
        positions := j.positions + prefill + picked
        waitStep := if prefill + picked = 0 then j.waitStep else step
        passes := j.passes + (if prefill + picked = 0 then 0 else 1), lastPieces := pieces })
      d := { x.d with committed := n' } }) s
    let s := settlePages slot n' s
    let s := countDraw slot d d0 s
    let s := deliver slot (if release then d.out ++ d.wait else d.out) s
    let s := endAfter slot d s
    if (sessionAt s slot).job.isSome then reportCandidate slot true s else s

/-- The pass of another home's session ends: its pages settle at the length its home reaches, which a sampling commit tells and a chunk's rows give. -/
def commitGuest (p : Place) (n : Nat) (out : Option MemberOutput) (s : State) : State :=
  let x := guestAt s p.handle
  if p.replay ∨ handleHome p.handle = ownIndex s ∨ (FMap.get? s.slots.guests p.handle).isNone then s
  else match (out.bind (fun o => if o.rows.isEmpty then none else some o.committed)) with
  | some c => settleGuest p.handle c true s
  | none => settleGuest p.handle (x.d.committed + ((guestRows x n).filter (fun r => decide (x.d.committed ≤ r))).length) false s

/-- One member of a microbatch whose pass ends here: only the last piece commits (09 R236), and only where the session still stands. -/
def commitMember (p : Place) (n step : Nat) (out : Option MemberOutput) (s : State) : State :=
  match liveSlot s p.handle with
  | none => commitGuest p n out s
  | some slot =>
    let x := sessionAt s slot
    let s := match x.rebuild with
      | some r => if x.d.state = 7 then commitReplay slot n r s else s
      | none => if x.d.state = 1 ∨ x.d.state = 2 ∨ x.d.state = 4 then commitServe slot n p.drafts p.pieces step out s else s
    let y := sessionAt s slot
    match (if y.nextSetDue then y.nextSet else none) with
    | some set => applySet slot set s
    | none => s

/-- Insertion of a member by its handle. -/
def insertMember (e : Place × Nat) : List (Place × Nat) → List (Place × Nat)
  | [] => [e]
  | f :: rest => if e.1.handle ≤ f.1.handle then e :: f :: rest else f :: insertMember e rest

/-- The members whose last piece a microbatch holds, in ascending handle (03 R74), each with the query positions of its pass. -/
def endingMembers (list : List SealedMb) (part : Nat) (m : SealedMb) : List (Place × Nat) :=
  ((m.places.filter (fun p => p.piece + 1 == p.pieces)).map (fun p =>
    (p, sealedCount (list.filter (fun x => x.partition == part)) p.handle))).foldr insertMember []

/-- The places of members whose passes end leave a list of sealed microbatches. -/
def stripEnded (part mb : Nat) (hs : List Nat) (l : List SealedMb) : List SealedMb :=
  (l.map (fun x => if x.partition = part then { x with places := x.places.filter (fun p => !hs.contains p.handle) } else x)).filter
    (fun x => !(x.partition == part && x.microbatch == mb && x.places.isEmpty))

/-- The commit point of a sampling slot: every member whose last piece it holds commits, and its places end. A killed run commits nothing (01 R28). -/
def execSamplingCommit (c : SamplingCommit) (s : State) : Host.Outcome State Fault Refusal :=
  let s := settleDefers s
  match passOf s c.partition c.microbatch with
  | none => .next s
  | some m =>
    if c.run ≠ runOf s c.slotId ∨ slotCommitted c.slotId s then .next s
    else
      let fromPrev := s.sched.sealPrev.any (fun x => x.partition == c.partition && x.microbatch == c.microbatch)
      let list := if fromPrev then s.sched.sealPrev else s.sched.sealNow
      let members := endingMembers list c.partition m
      let strip := stripEnded c.partition c.microbatch (members.map (fun e => e.1.handle))
      let s1 := if fromPrev then { s with sched := { s.sched with sealPrev := strip s.sched.sealPrev } }
        else { s with sched := { s.sched with sealNow := strip s.sched.sealNow } }
      let s2 := { s1 with sched := { s1.sched with commits := s1.sched.commits ++ [(c.slotId, 0)] } }
      .next (members.foldl (fun s e =>
        if e.1.withdrawn then s
        else commitMember e.1 e.2 c.step (c.members.find? (fun o => o.handle == e.1.handle)) s) s2)

end Sys2Proof.Machine
end

