-- ==== Sys2Proof/Machine/Handover.lean ====
section
/-! DEFINITION. Handovers (04 R122 to R124; 12 R340 to R343): the source's and the target's side, copy passes, ownership transfers, and the commands HANDOVER_OUT and HANDOVER_IN. -/

namespace Sys2Proof.Machine

/-! ### Sessions and guests by one key -/

/-- A Mover operation names a home session by its slot, another home's session by its handle, whose generation is never 0. -/
def holder (s : State) (k : Nat) : Session := if k < 2 ^ 24 then sessionAt s k else guestAt s k
def putHolder (k : Nat) (x : Session) (s : State) : State := if k < 2 ^ 24 then putSession k x s else putGuest k x s
def modHolder (k : Nat) (f : Session → Session) (s : State) : State := putHolder k (f (holder s k)) s
def holderHandle (s : State) (k : Nat) : Nat := if k < 2 ^ 24 then sessionHandle s k else k

/-! ### The travelling image of a session (12 R340, 16 R424) -/

def imageOf (s : State) (slot : Nat) (pages : List Page) (capsules : List Bytes) : SessionImage :=
  let x := sessionAt s slot
  let d := x.d
  { handle := sessionHandle s slot, client := d.client, vocab := d.vocab, stopInc := d.stopInc, grade := d.grade, fromProfile := d.fromProfile
    deadPolicy := d.deadPolicy, vocabIndex := d.vocabIndex, spec := d.spec, committed := d.committed, ledgerPos := d.ledgerPos
    retired := d.retired, genKey := d.genKey, wake := d.wake, maxLen := d.maxLen, leadRow := x.leadRow
    pages := pages, counts := x.counts, con := x.con
    setSource := (x.con.set.bind (fun i => FMap.get? s.cont.sets i)).map (fun c => c.source)
    ledger := x.body ++ x.tail, capsules := capsules }

/-- Installs the constraint set an image brings: compiled again here, or named and absent where the Unit store has no room (10 R263). -/
def adoptSet (slot : Nat) (img : SessionImage) (s : State) : State :=
  let named := img.con.set.isSome || img.con.absent
  let put (set : Option Nat) (s : State) : State :=
    modSession slot (fun x => { x with con := { img.con with set := set, absent := named && set.isNone } }) s
  match img.setSource with
  | none => put none s
  | some c =>
    match compileSet c (sessionAt s slot) s with
    | some (i, s) => put (some i) s
    | none => put none s

/-! ### The source -/

/-- Whether the target is a member of the session's own ring, so that no page moves (04 R122). -/
def ownRing (s : State) (part peer : Nat) : Bool := (ringPeers s part).contains peer

/-- Every tile of a session's pages but its speculation page, in page-list order (04 R123). -/
def allTiles (s : State) (x : Session) : List (Nat × Nat) :=
  match partitionAt s x.d.partition with
  | none => []
  | some q => ((x.pages.filter (fun p => !p.spec)).map (fun p => (List.range (tilesPerPage q)).map (fun t => (p.no, t)))).flatten

def requestOf (s : State) (slot : Nat) : HoRequest :=
  let x := sessionAt s slot
  let n := ringSizeOf s x.d.partition
  match partitionAt s x.d.partition with
  | none => ⟨ownIndex s, sessionHandle s slot, x.d.partition, x.d.state, n, x.pages.length, 0, 0, []⟩
  | some q => ⟨ownIndex s, sessionHandle s slot, x.d.partition, x.d.state, n, x.pages.length, ((x.body ++ x.tail).map runBytes).foldl (· + ·) 0,
      ((FMap.get? s.cont.models q.model).map (fun m => m.measurement)).getD 0, (List.range n).map (fun i => (layerFrom q i, q.layers))⟩

/-- Members of the composition other than this device. -/
def isMember (s : State) (m : Nat) : Bool := m != ownIndex s && (match s.comp.map with | some c => c.devices.any (fun d => d.index == m) | none => false)

/-- HANDOVER_OUT asks the target; the reply waits for its answer (log entry 30). A PARKED session is MOVING from here, a RESIDENT or ACTIVE one COPYING. -/
def handoverOutBody (_ : Nat) (p : Packet) (s : State) : State :=
  let slot := slotOf p s
  let x := sessionAt s slot
  let target := argOf p 20 2
  match stateRefusal x [1, 2, 3] s with
  | some a => reply p a s
  | none =>
    if !isMember s target then reply p (bad 0x14) s
    else if !slotsReady s ∨ x.handover.isSome then reply p (busy 0xFFFF) s
    else if (opOf s slot (fun o => o.kind == .sessionOut || o.kind == .sessionIn || o.kind == .reviveTaken)).isSome then
      reply p (busy (beatsToBoundary s)) s
    else if 256 < migrHeld s + 4 then reply p (noResource 0x000A) s
    else if x.d.state ≠ 3 ∧ !moverFits (2 * tileBytesOf s x) 0 s then reply p (busy (beatsToBoundary s)) s
    else
      let r := requestOf s slot
      let ho : Handover := ⟨true, target, 0, sessionHandle s slot, x.d.state, false, false, ownRing s x.d.partition target && x.d.state != 3, 0⟩
      let s := dropOps (fun o => o.slot == slot && !o.begun && (o.kind == .demote || o.kind == .pull)) s
      let s := if x.d.state = 3 then setState slot 4 s else s
      let s := modSession slot (fun x => { x with handover := some ho, d := { x.d with peer := target, copying := decide (r.state ≠ 3), copyPasses := 0 } }) s
      await (.handover slot) (originOf p s) (send (.hoRequest target r) s)

def execHandoverOut (p : Packet) (s : State) : Host.Outcome State Fault Refusal :=
  .next (serve (opIs 0x30) behindShift handoverOutBody p s)

/-- A page entry of an ownership transfer names its lender and the lender's reference; a capsule of this device's T2 is given a reference (04 R124). -/
def ownPages (peer : Nat) : List Page → State → List Page × State
  | [], s => ([], s)
  | p :: rest, s =>
    match frameAt s p.frame with
    | none => let r := ownPages peer rest s; (p :: r.1, r.2)
    | some f =>
      let mine := f.tier = 2
      let ref := if mine then s.tier.nextRef else f.lref
      let lender := if mine then ownIndex s else f.lender
      let s := if mine then putFrame p.frame { f with lref := ref } { s with tier := { s.tier with nextRef := s.tier.nextRef + 1 } } else s
      let r := ownPages peer rest s
      ({ p with frame := lender + 2 ^ 12 * ref } :: r.1, r.2)

/-- A pass begins with the tiles dirty then, which are clean from here on; a tile written in this very beat stays dirty too (01 R23). -/
def beginCopy (k : Nat) (s : State) : State :=
  let b := s.cad.beat
  modHolder k (fun x => { x with
    sending := x.sending ++ x.dirty
    dirty := x.dirty.filter (fun t => x.written.any (fun w => w.1 == t.1 && w.2.1 == t.2 && w.2.2 == b)) }) s

/-- Bytes of a tile of a session's partition. -/
def tileSize (s : State) (k : Nat) : Nat := match partitionAt s (holder s k).d.partition with | some q => tileBytes q | none => 0

/-- The next pass of a copy, sized by what is dirty now. -/
def nextCopy (k : Nat) (s : State) : State := addOp .copyPass k ((holder s k).dirty.length * tileSize s k) 0 0 0 0 0 s

/-- A copy starts: its first pass is due, and the capacity of its final pass is reserved for every tile (04 R123). -/
def startCopy (k : Nat) (s : State) : State :=
  addOp .finalPass k ((holder s k).dirty.length * tileSize s k) 0 0 0 0 0 (nextCopy k s)

/-- ACCEPTED goes out and the copy, or the ownership transfer, begins. -/
def startHandover (slot newHandle : Nat) (s : State) : State :=
  let x := sessionAt s slot
  match x.handover with
  | none => s
  | some ho =>
    let s := match commandOf s (.handover slot) with | some c => replyTo c.origin false { status := stACCEPTED } s | none => s
    let near := ownRing s x.d.partition ho.peer
    let s := modSession slot (fun x => { x with handover := some { ho with newHandle := newHandle } }) s
    if ho.prior = 3 then
      let r := ownPages ho.peer x.pages s
      let s := modSession slot (fun x => { x with handover := x.handover.map (fun h => { h with finalSent := true }) }) r.2
      send (.hoOwnership ho.peer newHandle (imageOf s slot r.1 [])) s
    else
      let tiles := if near then [] else allTiles s x
      let s := modSession slot (fun x => { x with dirty := tiles, sending := [] }) s
      let s := if near then s else
        (ringPeers s x.d.partition).foldl (fun s m => send (.session m 3 ⟨sessionHandle s slot, 0, s.sched.step, s.cad.beat, s.cad.phase⟩) s) s
      startCopy slot s

/-- The target's answer (12 R342): a refusal is the command's only reply. -/
def execHoAnswer (handle status newHandle : Nat) (s : State) : Host.Outcome State Fault Refusal :=
  let asked := (liveSlot s handle).filter (fun slot => match (sessionAt s slot).handover with | some ho => ho.source && ho.newHandle == 0 | none => false)
  .next (match asked with
    | none => if status = stOK then send (.hoAbort (handleHome newHandle) handle newHandle stCANCELLED) s else s
    | some slot =>
      if status = stOK then startHandover slot newHandle s
      else revertHandover slot false { status := status, detail := if status = stNO_RESOURCE then 0x000B else 0 } s)

/-! ### Copy passes (04 R123) -/

/-- Bytes of one tile of a session's page. -/
def tileAt (s : State) (x : Session) (t : Nat × Nat) : Bytes :=
  match partitionAt s x.d.partition, pageFrame x t.1 with
  | some q, some f => Memory.readBytes s.mem (f + t.2 * tileBytes q) (tileBytes q)
  | _, _ => []

/-- Sends the tiles of a pass. -/
def sendTiles (k : Nat) (s : State) : State :=
  let x := holder s k
  let h := match x.handover with | some ho => ho.newHandle | none => k
  let s := x.sending.foldl (fun s t => send (.tiles x.d.peer h t.1 t.2 (tileAt s x t)) s) s
  modHolder k (fun x => { x with sending := [] }) s

/-- The freeze (04 R123): MOVING, no new membership, and the pending command ends now or with its pass in flight. -/
def freezeSession (slot : Nat) (s : State) : State :=
  let h := sessionHandle s slot
  let s := setState slot 4 s
  let s := modSession slot (fun x => { x with handover := x.handover.map (fun ho => { ho with frozen := true }) }) s
  let s := reportCandidate slot false s
  if passBegun h s then
    let mark (m : SealedMb) : SealedMb := { m with places := m.places.map (fun p => { p with withdrawn := p.withdrawn || p.handle == h }) }
    let s := { s with sched := { s.sched with sealNext := s.sched.sealNext.map mark } }
    modSession slot (fun x => { x with job := x.job.map (fun j => { j with endWith := some stNOT_OWNER }) }) s
  else
    let s := withdraw h s
    if (sessionAt s slot).job.isSome then endGeneration slot stNOT_OWNER 0 false 0 s else s

/-- Whether this device has entered the freeze of a copy: at the home MOVING, elsewhere a fourth mark of its pass count. -/
def frozenHere (s : State) (k : Nat) : Bool :=
  if k < 2 ^ 24 then (sessionAt s k).handover.any (fun ho => ho.frozen) else decide (3 < (guestAt s k).d.copyPasses)

/-- A copy whose third pass has ended here freezes once it has ended on every ring device. No message tells one device of another's third pass, so with other ring devices a free value says, at each Mover slot's end, whether it has (log entry 31). -/
def tryFreeze (k : Nat) (s : State) : State :=
  if (holder s k).d.copyPasses ≠ 3 ∨ frozenHere s k ∨ !(holder s k).d.copying then s
  else
    let alone : Bool := (ringPeers s (holder s k).d.partition).isEmpty || (holder s k).handover.any (fun ho => ho.near)
    let v := freeValue s
    if alone ∨ v.1 % 2 = 1 then
      let s := if alone then s else v.2
      if k < 2 ^ 24 then freezeSession k s else modHolder k (fun x => { x with d := { x.d with copyPasses := 4 } }) s
    else v.2

/-- Every copy of this device whose third pass has ended looks for its freeze. -/
def freezeAll (s : State) : State :=
  let home := (s.slots.table.filter (fun e => e.2.d.copying)).map (fun e => e.1)
  let away := (s.slots.guests.filter (fun e => e.2.d.copying)).map (fun e => e.1)
  (home ++ away).foldl (fun s k => tryFreeze k s) s

/-- A final pass waits for the freeze, the end of the pending command, and the end of the session's passes in flight (04 R123). -/
def finalReady (s : State) (k : Nat) : Bool :=
  frozenHere s k && (holder s k).job.isNone && (inFlight s (holderHandle s k)).isNone

/-- A copy pass commits; the next one follows it, up to three. -/
def commitCopy (o : MoverOp) (s : State) : State :=
  let k := o.slot
  let s := sendTiles k (if o.begun then s else beginCopy k s)
  let s := modHolder k (fun x => { x with d := { x.d with copyPasses := x.d.copyPasses + 1 } }) s
  if (holder s k).d.copyPasses < 3 then nextCopy k s else s

/-- The final pass commits; the home device's carries the session. -/
def commitFinal (o : MoverOp) (s : State) : State :=
  let k := o.slot
  let s := sendTiles k (if o.begun then s else beginCopy k s)
  if k < 2 ^ 24 then
    match (sessionAt s k).handover with
    | none => s
    | some ho =>
      let s := modSession k (fun x => { x with handover := some { ho with finalSent := true } }) s
      send (.hoFinal ho.peer ho.newHandle (imageOf s k ((sessionAt s k).pages.filter (fun p => !p.spec)) [])) s
  else modHolder k (fun x => { x with dirty := [], d := { x.d with copying := false, copyPasses := 0 } }) s

/-- A copy notice (04 R123): this ring position copies its pages of the session to the target ring's position of the same number. The notice names neither, so which member that is stays open (log entry 14). -/
def execCopyNotice (n : SessionNotice) (s : State) : Host.Outcome State Fault Refusal :=
  let x := guestAt s n.handle
  if x.pages.isEmpty ∨ handleHome n.handle = ownIndex s ∨ x.d.copying then .next s
  else
    let position := ((partitionAt s x.d.partition).map (fun q => q.position)).getD 0
    let peer := Config.matchingMember n.handle position % 4096
    .next (startCopy n.handle (putGuest n.handle { x with dirty := allTiles s x, sending := [], d := { x.d with copying := true, copyPasses := 0, peer := peer } } s))

/-! ### How a handover ends at the source -/

/-- Capsules of this device's T2 are lent to the new home (04 R124), and a lender keeps what it holds; every frame of the session falls due at the step boundary (03 R79), one that has gone with no capsule left in it. -/
def lendPages (peer : Nat) (x : Session) (s : State) : State :=
  x.pages.foldl (fun s p =>
    match frameAt s p.frame with
    | none => s
    | some f =>
      let s := if f.tier = 2 then { s with tier := { s.tier with lent := s.tier.lent ++ [⟨peer, f.lref, f.capsule, f.channel⟩] } } else s
      let s := if f.tier ≠ 1 ∧ f.count ≤ 1 then putFrame p.frame { f with tier := 2, length := 0, capsule := [] } s else s
      frameDue p.frame s) s

/-- The REMOTE record's life (12 R338). -/
def graceBeats (s : State) : Nat := match s.comp.map with | some m => if m.graceBeats = 0 then 2048 else m.graceBeats | none => 2048

/-- The target has the session: REMOTE here, and HANDOVER_OUT is answered. -/
def confirmHandover (slot newHandle : Nat) (s : State) : State :=
  let x := sessionAt s slot
  match x.handover with
  | none => s
  | some ho =>
    let near := ownRing s x.d.partition ho.peer && decide (ho.prior ≠ 3)
    let s := if near then putGuest newHandle { pages := x.pages, leadRow := x.leadRow, d := { state := 2, partition := x.d.partition, committed := x.d.committed } } s
      else if ho.prior = 3 then lendPages ho.peer x s
      else framesDue (x.pages.map (fun p => p.frame)) s
    let s := setState slot 5 s
    let grace := some (s.cad.beat + graceBeats s)
    let s := releaseSet x.con.set s
    let s := modSession slot (fun x => { x with
      pages := [], handover := none, dirty := [], sending := [], drafts := [], con := { x.con with set := none }, graceEnd := grace
      d := { x.d with newHome := newHandle, copying := false, copyPasses := 0 } }) s
    let s := dropOps (fun o => o.slot == slot) s
    let s := { s with counters := { s.counters with handoversOut := satAdd (2 ^ 64 - 1) s.counters.handoversOut 1 } }
    finish (.handover slot) ok s

/-- HO_CONFIRM (03 R89); one that lands after the source has aborted is answered with HO_ABORT again (12 R343). -/
def execHoConfirm (handle newHandle epoch : Nat) (s : State) : Host.Outcome State Fault Refusal :=
  let due := (liveSlot s handle).filter (fun slot => match (sessionAt s slot).handover with
    | some ho => ho.source && ho.newHandle == newHandle && ho.finalSent
    | none => false)
  let done := (liveSlot s handle).any (fun slot => (sessionAt s slot).d.state == 5 && (sessionAt s slot).d.newHome == newHandle)
  .next (match due with
    | some slot => if epoch = s.comp.epoch ∨ epoch = s.comp.previous then confirmHandover slot newHandle s else s
    | none => if done then s else send (.hoAbort (handleHome newHandle) handle newHandle stCANCELLED) s)

/-- Reverts a handover with NO_RESOURCE, whose detail the manual does not state for this case. -/
def revertOpen (slot : Nat) (tell : Bool) (s : State) : State :=
  let f := freeValue s
  revertHandover slot tell { status := stNO_RESOURCE, detail := f.1 % 2 ^ 16 } f.2

/-- 1,024 beats without a confirmation (12 R343). -/
def execHoTimeout (slot : Nat) (s : State) : Host.Outcome State Fault Refusal :=
  .next (match (sessionAt s slot).handover with
    | some ho => if ho.source ∧ ho.newHandle ≠ 0 then revertOpen slot true s else s
    | none => s)

/-! ### The target -/

/-- An open grant for a partition and source. -/
def grantOpen (s : State) (part source : Nat) : Option (Nat × Nat × Nat) :=
  s.comp.grants.find? (fun g => g.1 == part && (g.2.1 == source || g.2.1 == 0xFFFF) && decide (0 < g.2.2))

def useGrant (g : Nat × Nat × Nat) (s : State) : State :=
  let put (x : Nat × Nat × Nat) : Nat × Nat × Nat := if x = g then (x.1, x.2.1, x.2.2 - 1) else x
  { s with comp := { s.comp with grants := (s.comp.grants.map put).filter (fun x => decide (0 < x.2.2)) } }

/-- Ring size, layer split and model of the request fit the partition here (12 R342). -/
def shapeFits (r : HoRequest) (s : State) : Bool :=
  match partitionAt s r.partition with
  | none => false
  | some q => r.ringSize == ringSizeOf s r.partition && r.layers.length == r.ringSize
      && r.layers[q.position]? == some (q.firstLayer, q.layers)
      && (FMap.get? s.cont.models q.model).any (fun m => m.measurement == r.modelDigest)

/-- The target's answer to a request. -/
def hoStatus (r : HoRequest) (s : State) : Nat :=
  let near := ownRing s r.partition r.source
  if (grantOpen s r.partition r.source).isNone ∨ isLeaving s ∨ (nextSlot s).isNone
      ∨ (r.state ≠ 3 ∧ !near ∧ t1Free s < r.pages * granuleOf s r.partition) then stNO_RESOURCE
  else if !shapeFits r s then stSHAPE_MISMATCH
  else stOK

def execHoRequest (r : HoRequest) (s : State) : Host.Outcome State Fault Refusal :=
  let st := hoStatus r s
  .next (match nextSlot s, grantOpen s r.partition r.source with
    | some slot, some g =>
      if st ≠ stOK then send (.hoAnswer r.source r.handle st 0) s
      else
        let s := takeSlot (useGrant g s)
        let frames := if r.state = 3 ∨ ownRing s r.partition r.source then 0 else r.pages
        let ho : Handover := ⟨false, r.source, 0, r.handle, r.state, false, false, ownRing s r.partition r.source && r.state != 3, frames⟩
        let d : Descriptor := { state := 4, partition := r.partition, lastBeat := stamp s, epoch := s.comp.epoch }
        let s := putSession slot { gen := (sessionAt s slot).gen, d := d, handover := some ho } s
        send (.hoAnswer r.source r.handle stOK (sessionHandle s slot)) s
    | _, _ => send (.hoAnswer r.source r.handle st 0) s)

/-- A tile of a copy pass lands in the frames of the target position (04 R123). -/
def execTiles (newHandle pageNo tile : Nat) (bytes : Bytes) (s : State) : Host.Outcome State Fault Refusal :=
  let put (part : Nat) (x : Session) (s : State) : State :=
    match partitionAt s part, pageFrame x pageNo with
    | some q, some f => if tile < tilesPerPage q ∧ bytes.length = tileBytes q then writeMem (f + tile * tileBytes q) bytes s else s
    | _, _ => s
  .next (match liveSlot s newHandle with
    | some slot =>
      let x := sessionAt s slot
      if x.d.state = 4 ∧ x.handover.any (fun ho => !ho.source) then
        let s := ensurePage slot pageNo false s
        put x.d.partition (sessionAt s slot) s
      else s
    | none =>
      if handleHome newHandle = ownIndex s ∨ (partitionAt s (handlePart newHandle)).isNone then s
      else
        let s := guestPage (handlePart newHandle) newHandle pageNo false s
        put (handlePart newHandle) (guestAt s newHandle) s)

/-- The session is the target's own now (03 R89): RESIDENT or PARKED, as at the source, with this device's epoch. -/
def settleTarget (slot : Nat) (img : SessionImage) (pages : List Page) (s : State) : State :=
  let x := sessionAt s slot
  match x.handover with
  | none => s
  | some ho =>
    let y := fromImage img x x.d.partition img.client s.comp.epoch (stamp s)
    let st := if ho.prior = 3 then 3 else 1
    let s := putSession slot { y with pages := pages, d := { y.d with state := st } } s
    let s := adoptSet slot img s
    let s := queueLedger slot (lagAtOpen slot (growSegments slot { s with
      counters := { s.counters with handoversIn := satAdd (2 ^ 64 - 1) s.counters.handoversIn 1 } }))
    send (.hoConfirm ho.peer ho.oldHandle (sessionHandle s slot) s.comp.epoch) s

/-- The pages of a copied session: each has its frame from the copy passes, or from the pages this ring position held already. -/
def arrivedPages (slot old : Nat) : List Page → State → List Page × State
  | [], s => ([], s)
  | p :: rest, s =>
    let x : Session := sessionAt s slot
    let g : Session := guestAt s old
    let r : Page × State := match x.pages.find? (fun q => q.no == p.no) with
      | some q => ({ p with tier := q.tier, grade := q.grade, frame := q.frame, shared := false, spec := false }, s)
      | none =>
        match g.pages.find? (fun q => q.no == p.no) with
        | some q => ({ p with tier := q.tier, grade := q.grade, frame := q.frame, shared := false, spec := false }, s)
        | none => let t := takeFrame x.d.partition s; ({ p with tier := 1, grade := 0xFF, frame := t.1, shared := false, spec := false }, t.2)
    let b := arrivedPages slot old rest r.2
    (r.1 :: b.1, b.2)

/-- A session that is here as the target of a handover. -/
def targetSlot (s : State) (newHandle : Nat) : Option Nat :=
  (liveSlot s newHandle).filter (fun slot => (sessionAt s slot).d.state == 4 && (sessionAt s slot).handover.any (fun ho => !ho.source))

def execHoFinal (newHandle : Nat) (img : SessionImage) (s : State) : Host.Outcome State Fault Refusal :=
  .next (match targetSlot s newHandle with
    | none => s
    | some slot =>
      let old := ((sessionAt s slot).handover.map (fun ho => ho.oldHandle)).getD 0
      let r := arrivedPages slot old img.pages s
      settleTarget slot img r.1 (dropGuest old r.2))

/-- The pages of an ownership transfer (04 R124): capsules this device lent become its T2, every other capsule is T3. The bytes a lender holds are unknown here until CAPSULE_DATA brings them; lengths follow from the grade (log entry 32). -/
def ownedPages (slot : Nat) (part : Nat) : List Page → State → List Page × State
  | [], s => ([], s)
  | p :: rest, s =>
    if p.tier = 4 ∨ p.frame = 0 then let r := ownedPages slot part rest s; (p :: r.1, r.2)
    else
      let lender := p.frame % 2 ^ 12
      let ref := p.frame / 2 ^ 12
      let a := frameAddr part (freeIndex s part) (granuleOf s part)
      let mine := if lender = ownIndex s then s.tier.lent.find? (fun l => l.ref == ref) else none
      let s := match mine with
        | some l =>
          putFrame a { partition := part, tier := 2, grade := p.grade, length := l.body.length, count := 1, lender := 0, lref := 0, channel := l.channel, capsule := l.body }
            { s with tier := { s.tier with lent := s.tier.lent.filter (fun x => x.ref != ref) } }
        | none =>
          let n := match partitionAt s part with | some q => capsuleSize q (if p.grade = 3 then 2 else p.grade) p.fill | none => 0
          putFrame a { partition := part, tier := 3, grade := p.grade, length := n, count := 1, lender := lender, lref := ref, channel := 0 } s
      let r := ownedPages slot part rest s
      ({ p with tier := if mine.isSome then 2 else 3, frame := a, shared := false } :: r.1, r.2)

def execHoOwnership (newHandle : Nat) (img : SessionImage) (s : State) : Host.Outcome State Fault Refusal :=
  .next (match targetSlot s newHandle with
    | none => s
    | some slot =>
      let r := ownedPages slot (sessionAt s slot).d.partition img.pages s
      settleTarget slot img r.1 r.2)

/-- HO_ABORT (12 R343): the target frees its slot and frames; a source told of the target's end reverts. -/
def execHoAbort (handle newHandle status : Nat) (s : State) : Host.Outcome State Fault Refusal :=
  .next (match targetSlot s newHandle with
    | some slot => freeTarget slot s
    | none =>
      match liveSlot s handle with
      | some slot => if (sessionAt s slot).handover.any (fun ho => ho.source && ho.newHandle == newHandle) ∧ status ≠ stOK then revertOpen slot false s else s
      | none => s)

/-- A target that no abort can reach frees the slot after GRACE_BEATS (12 R343). -/
def execHoTargetGrace (slot : Nat) (s : State) : Host.Outcome State Fault Refusal :=
  .next (if (sessionAt s slot).d.state = 4 ∧ (sessionAt s slot).handover.any (fun ho => !ho.source) then freeTarget slot s else s)

/-- The notice of 04 R125 to a handover's target. -/
def execFreeTargetSlot (n : SessionNotice) (s : State) : Host.Outcome State Fault Refusal :=
  .next (match targetSlot s n.handle with | some slot => freeTarget slot s | none => s)

/-- A REMOTE record's grace period ends (12 R338). -/
def execRemoteGraceEnd (slot : Nat) (s : State) : Host.Outcome State Fault Refusal :=
  .next (if (sessionAt s slot).d.state = 5 then freeSlot slot s else s)

/-! ### HANDOVER_IN (11 R311) -/

def handoverInBody (_ : Nat) (p : Packet) (s : State) : State :=
  let part := argOf p 20 1
  let source := argOf p 22 2
  let n := argOf p 24 4
  if (partitionAt s part).isNone then reply p (bad 0x14) s
  else if 4095 < source ∧ source ≠ 0xFFFF then reply p (bad 0x16) s
  else if !slotsServed s then reply p (busy 0xFFFF) s
  else
    let rest := s.comp.grants.filter (fun g => !(g.1 == part && g.2.1 == source))
    let grants := if n = 0 then rest else rest ++ [(part, source, n)]
    let s := { s with comp := { s.comp with grants := grants } }
    reply p { status := stOK, count0 := (grants.foldl (fun n g => n + g.2.2) 0) % 2 ^ 32 } s

def execHandoverIn (p : Packet) (s : State) : Host.Outcome State Fault Refusal :=
  .next (serve (opIs 0x31) never handoverInBody p s)

end Sys2Proof.Machine
end

