-- ==== Sys2Proof/Machine/Saves.lean ====
section
/-! DEFINITION. Checkpoints, restores and the arming of shrink plans (16 R419 to R432, R436; 08 R220). -/

namespace Sys2Proof.Machine

/-! ### Checkpoints in progress -/

def checkpointOf (s : State) (part : Nat) : Option Checkpoint := s.saves.checkpoints.find? (fun c => c.partition == part && !c.ending)

def modCheckpoint (part : Nat) (f : Checkpoint → Checkpoint) (s : State) : State :=
  { s with saves := { s.saves with checkpoints := s.saves.checkpoints.map (fun c => if c.partition = part ∧ !c.ending then f c else c) } }

/-- Key of a shard's Mover operation. -/
def shardKey (part : Nat) : Nat := 2 ^ 61 + part

/-- A checkpoint whose end has come gives its holds up: frames that no session names any more are free (16 R422). -/
def releaseHolds (s : State) : State :=
  let s := { s with saves := { s.saves with checkpoints := s.saves.checkpoints.filter (fun c => !c.ending) } }
  let gone := (s.tier.frames.filter (fun e => e.2.count == 0 && !s.saves.checkpoints.any (fun c => c.held.contains e.1))).map (fun e => e.1)
  gone.foldl (fun s a => dropFrame a s) s

/-- The checkpoint ends; its holds go at the next step boundary. -/
def endCheckpoint (part : Nat) (s : State) : State :=
  let s := modCheckpoint part (fun c => { c with ending := true }) s
  if s.sched.active.isNone then releaseHolds s else s

/-- Abandons a checkpoint (16 R427). -/
def abandonCheckpoint (part : Nat) (s : State) : State :=
  match checkpointOf s part with
  | none => s
  | some c =>
    let n := if c.written then writtenBytes s (c.body.length + 64) else 0
    let s := finish (.checkpoint part) { status := stCANCELLED } s
    let s := finish (.shardOut part) { status := stCANCELLED, count0 := n % 2 ^ 32, count1 := n / 2 ^ 32 } s
    endCheckpoint part (dropOps (fun o => o.slot == shardKey part) s)

/-! ### CHECKPOINT_BEGIN (16 R420) -/

def checkpointBody (_ : Nat) (p : Packet) (s : State) : State :=
  let part := argOf p 20 1
  let grade := argOf p 21 1
  let k := paramOf p 0x20 8
  match s.sched.active with
  | none => reply p (bad 0x14) s
  | some img =>
    if (ringOf s part).isNone then reply p (bad 0x14) s
    else if grade ≠ 0xFF ∧ grade ≠ 2 then reply p (bad 0x15) s
    else if stepStart img (k + 1) < s.cad.beat + 2 * img.stepBeats then reply p (bad 0x20) s
    else if (checkpointOf s part).isSome ∨ !slotsServed s then reply p (busy 0xFFFF) s
    else accept p (.checkpoint part) { s with saves := { s.saves with checkpoints := s.saves.checkpoints ++ [{ partition := part, step := k, grade := grade, client := p.client }] } }

def execCheckpointBegin (p : Packet) (s : State) : Host.Outcome State Fault Refusal :=
  .next (serve (opIs 0x40) never checkpointBody p s)

/-! ### The snapshot (16 R421 to R424) -/

/-- The source form of a constraint set (10 R260). -/
def conSetBytes (c : ConSet) : Bytes :=
  let entry (b : Bytes) : Bytes := leBytes 2 b.length ++ [0, 0] ++ b ++ List.replicate (ceilDiv b.length 4 * 4 - b.length) 0
  leBytes 2 c.bans.length ++ leBytes 2 c.pairs.length ++ leBytes 1 c.stops.length ++ List.replicate 11 0
    ++ (c.bans.map entry).flatten ++ (c.pairs.map (fun p => entry p.1 ++ entry p.2)).flatten ++ (c.stops.map entry).flatten

/-- A page's tiles with rows beyond FILL and the lead row as zeros (16 R421). -/
def committedTiles (q : Partition) (p : Page) (lead : Option Nat) (tiles : Bytes) : Bytes :=
  let h := max 1 (tileBytes q / 2)
  let row := max 1 (q.headDim * elemBytes q.kvFormat)
  (tiles.zipIdx).map (fun e =>
    let r := e.2 % h / row
    if p.fill ≤ r ∨ lead = some (64 * p.no + r) then 0 else e.1)

/-- The capsule of a page in a shard: T1 pages at Extrait or Toilette, capsules as stored, nothing for a page without content (16 R423). -/
def shardCapsule (s : State) (q : Partition) (grade : Nat) (lead : Option Nat) (p : Page) : Bytes :=
  match frameAt s p.frame with
  | none => []
  | some f =>
    if f.tier ≠ 1 then f.capsule
    else encodePage q (if grade = 2 then 2 else 0) p (List.range p.fill) (committedTiles q p lead (frameTiles s q p.frame))

/-- A shard being written: bytes, the offsets of frames already written, the worst-case length. -/
structure ShardOut where
  body : Bytes
  seen : List (Nat × Nat)
  worst : Nat

/-- One session record (16 R424); a frame named before is named again by its offset. -/
def shardRecord (r : ShardSource) (o : ShardOut) : ShardOut :=
  let base := o.body.length + 64 + r.home.length + 16 * r.pages.length
  let a := r.pages.foldl (fun (a : List Nat × Bytes × List (Nat × Nat) × Nat) p =>
    match a.2.2.1.find? (fun e => e.1 == p.1.frame) with
    | some e => (a.1 ++ [e.2], a.2.1, a.2.2.1, a.2.2.2)
    | none =>
      let c := p.2.1
      let at_ := if c.isEmpty then 0 else base + a.2.1.length
      (a.1 ++ [at_], a.2.1 ++ c, if c.isEmpty then a.2.2.1 else a.2.2.1 ++ [(p.1.frame, at_)], a.2.2.2 + p.2.2)) ([], [], o.seen, 0)
  let list := ((r.pages.zip a.1).map (fun e => pageBytes16 { e.1.1 with frame := e.2 })).flatten
  let after := r.home ++ list ++ a.2.1
  let head := leBytes 8 r.handle ++ leBytes 1 r.flags ++ [0, 0, 0] ++ leBytes 4 r.pages.length ++ leBytes 8 r.ledgerBytes ++ leBytes 4 r.setBytes
    ++ leBytes 4 0 ++ leBytes 8 after.length ++ List.replicate 24 0
  { body := o.body ++ head ++ after, seen := a.2.2.1, worst := o.worst + 64 + r.home.length + list.length + a.2.2.2 }

/-- Descriptor, counts, constraint state, set source and ledger of a home session. -/
def homeParts (s : State) (slot : Nat) : Bytes × Bytes × Bytes :=
  let x := sessionAt s slot
  let set := match x.con.set.bind (fun i => FMap.get? s.cont.sets i) with | some c => conSetBytes c.source | none => []
  let ledger := ledgerBytesFrom 0 (segmentsOf (x.body ++ x.tail))
  (descriptorBytes s slot ++ countsBytes x ++ constraintBytes x ++ set ++ List.replicate (ceilDiv set.length 8 * 8 - set.length) 0 ++ ledger, set, ledger)

/-- Whether a session is written, and whether with REBUILD set (16 R421). -/
def writtenState (x : Session) : Option Bool :=
  match x.d.state with
  | 1 => some false
  | 2 => some false
  | 3 => some x.exported
  | 7 => some true
  | 4 => if x.handover.any (fun h => h.source) then some false else none
  | _ => none

/-- Sessions of a partition that a shard records, in ascending handle order: home sessions, and the pages this position holds of other homes' sessions. -/
def shardSessions (s : State) (part : Nat) : List (Nat × Option Nat) :=
  let own := ((s.slots.table.filter (fun e => e.2.d.partition == part && (writtenState e.2).isSome)).map (fun e => (sessionHandle s e.1, some e.1)))
  let guests := ((s.slots.guests.filter (fun e => e.2.d.partition == part && !e.2.pages.isEmpty)).map (fun e => (e.1, (none : Option Nat))))
  (own ++ guests).mergeSort (fun a b => decide (a.1 ≤ b.1))

/-- Pages of a record: none where the session is rebuilt, and never the speculation page. -/
def recordPages (x : Session) (rebuild : Bool) : List Page := if rebuild then [] else x.pages.filter (fun p => !p.spec)

/-- A page as a shard records it, with the most bytes it can take. -/
def shardPage (s : State) (q : Partition) (grade : Nat) (lead : Option Nat) (p : Page) : Page × Bytes × Nat :=
  let c := shardCapsule s q grade lead p
  (p, c, match frameAt s p.frame with
    | some f => if f.tier = 1 ∧ grade ≠ 2 then capsuleSize q 0 64 else c.length
    | none => 0)

/-- The records of a partition's shard, as they stand. -/
def shardSources (s : State) (q : Partition) (part grade : Nat) : List ShardSource :=
  (shardSessions s part).map (fun e =>
    match e.2 with
    | some slot =>
      let x := sessionAt s slot
      let rb := (writtenState x).getD true
      let h := homeParts s slot
      ⟨e.1, some slot, 1 + 2 * boolNat rb, h.1, h.2.1.length, h.2.2.length,
        (recordPages x rb).map (shardPage s q grade (if x.leadRow then some (x.d.committed - 1) else none))⟩
    | none => ⟨e.1, none, 0, [], 0, 0, (recordPages (guestAt s e.1) false).map (shardPage s q grade none)⟩)

/-- The shard's records after its header. -/
def shardRecords (l : List ShardSource) (o : ShardOut) : ShardOut := l.foldl (fun o r => shardRecord r o) o

/-- A shard's bytes when some of its records change: the header's counts and the records are written anew. -/
def shardAgain (body : Bytes) (l : List ShardSource) : Bytes :=
  let a := fieldAt body 40 8
  let o := shardRecords l ⟨List.replicate (64 + a) 0, [], 0⟩
  body.take 28 ++ leBytes 4 l.length ++ leBytes 8 (o.body.length + 64) ++ (body.drop 40).take (24 + a) ++ o.body.drop (64 + a)

/-- What an uncorrectable read does to shards that are not yet written: `f` keeps, changes or drops each record; the digest of the changed bytes follows them (16 R425). -/
def changeShards (f : ShardSource → Option ShardSource) (s : State) : State :=
  { s with saves := { s.saves with checkpoints := s.saves.checkpoints.map (fun (c : Checkpoint) =>
      let l := c.sources.filterMap f
      if !c.snapped || c.written || decide (l = c.sources) then c
      else ({ c with sources := l, body := shardAgain c.body l, digest := shake256 (shardAgain c.body l) } : Checkpoint)) } }

/-- A page of a shard cannot be read: the session's record has REBUILD set and no pages (16 R425). -/
def spoilPage (addr : Nat) (s : State) : State :=
  if s.saves.checkpoints.any (fun c => c.snapped && !c.written && c.sources.any (fun r => r.pages.any (fun p => p.1.frame == addr && !p.2.1.isEmpty))) then
    changeShards (fun r => if r.pages.any (fun p => p.1.frame == addr && !p.2.1.isEmpty) then
      some { r with flags := r.flags % 2 + 2, pages := [] } else some r) s
  else s

/-- A ledger of a shard cannot be read: the session is left out (16 R425). -/
def spoilLedger (slot : Nat) (s : State) : State :=
  if s.saves.checkpoints.any (fun c => c.snapped && !c.written && c.sources.any (fun r => r.slot == some slot)) then
    changeShards (fun r => if r.slot == some slot then none else some r) s
  else s

/-- Frames a snapshot holds. -/
def snapshotFrames (s : State) (part : Nat) : List Nat :=
  ((shardSessions s part).map (fun e =>
    let x := match e.2 with | some slot => sessionAt s slot | none => guestAt s e.1
    ((recordPages x ((e.2.bind (fun _ => writtenState x)).getD false)).map (fun p => p.frame)).filter (fun a => a != 0))).flatten.eraseDups

/-- Length of a manifest (16 R426). -/
def manifestLength (n : Nat) : Nat := 80288 + 160 * n

/-- The snapshot instant S: the shard is fixed, its frames are held, and CHECKPOINT_BEGIN is answered with SHARD_MAX. -/
def takeSnapshot (c : Checkpoint) (s : State) : State :=
  match partitionAt s c.partition, ringOf s c.partition with
  | some q, some r =>
    let adapter := if (trainOf s c.partition).isSome then adapterPart s c.partition else []
    let sources := shardSources s q c.partition c.grade
    let o := shardRecords sources ⟨List.replicate (64 + adapter.length) 0, [], 64 + adapter.length⟩
    let n := sources.length
    let head := leBytes 4 0x44524853 ++ leBytes 2 1 ++ leBytes 1 c.grade ++ leBytes 1 c.partition ++ leBytes 8 r.ringId ++ leBytes 8 c.step
      ++ leBytes 2 r.position ++ leBytes 2 r.members.length ++ leBytes 4 n ++ leBytes 8 (o.body.length + 64) ++ leBytes 8 adapter.length ++ List.replicate 16 0
    let body := head ++ adapter ++ o.body.drop (64 + adapter.length)
    let most := writtenBytes s (o.worst + 64) + (if r.position = 0 then writtenBytes s (manifestLength r.members.length) else 0)
    let held := snapshotFrames s c.partition
    let at_ := s.cad.beat
    let s := modCheckpoint c.partition (fun c => { c with
      snapped := true, body := body, digest := shake256 body, shardMax := most, held := held, takenAt := at_, sources := sources }) s
    finish (.checkpoint c.partition) { status := stOK, count0 := most % 2 ^ 32, count1 := most / 2 ^ 32 } s
  | _, _ => abandonCheckpoint c.partition s

/-- Snapshots that fall due at the boundary that ends a step. -/
def dueSnapshots (img : Image) (s : State) : State :=
  (s.saves.checkpoints.filter (fun c => !c.snapped && !c.ending && decide (stepStart img (c.step + 1) ≤ s.cad.beat))).foldl (fun s c => takeSnapshot c s) s

/-! ### CHECKPOINT_SHARD (16 R425, R426) -/

def shardBody (_ : Nat) (p : Packet) (s : State) : State :=
  let part := argOf p 20 1
  match s.saves.checkpoints.find? (fun c => c.partition == part && c.snapped && !c.ending && c.step == paramOf p 0x20 8) with
  | none => reply p (bad 0x20) s
  | some c =>
    if bufLen p 0x30 < c.shardMax then reply p { status := stBAD_LENGTH, detail := 0 } s
    else if !slotsReady s ∨ (commandOf s (.shardOut part)).isSome then reply p (busy 0xFFFF) s
    else
      let s := modCheckpoint part (fun c => { c with addr := bufAddr p 0x30, client := p.client }) s
      let s := addOp .shard (shardKey part) c.body.length 0 0 (bufAddr p 0x30) p.client 4 s
      await (.shardOut part) (originOf p s) s

def execCheckpointShard (p : Packet) (s : State) : Host.Outcome State Fault Refusal :=
  .next (serve (opIs 0x41) never shardBody p s)

/-- The manifest (16 R426); digests of other positions' images, certificates and the signature come from outside (log entry 6). -/
def manifestBytes (s : State) (c : Checkpoint) (q : Partition) (r : RingSection) : Bytes :=
  let n := r.members.length
  let model := match FMap.get? s.cont.models q.model with | some m => m.measurement.toNat | none => 0
  let vocab (i : Nat) : Bytes := match FMap.get? s.cont.vocabs i with | some v => leBytes 32 v.digest.toNat | none => leBytes 32 0
  let own := match s.sched.active with | some img => leBytes 64 img.facts.trailer.toNat | none => leBytes 64 0
  let entry (i : Nat) : Bytes :=
    let g := (c.collected.find? (fun e => e.1 == i)).getD (i, 0, 0)
    leBytes 2 i ++ leBytes 2 (r.members.getD i 0) ++ leBytes 2 (layerFrom q i) ++ leBytes 2 q.layers ++ leBytes 1 q.kvFormat ++ leBytes 1 q.kvHeads
      ++ leBytes 2 q.headDim ++ leBytes 4 0 ++ leBytes 8 (if i = r.position then c.body.length + 64 else g.2.1)
      ++ (if i = r.position then own else openBytes (2 ^ 51 + i) 64) ++ leBytes 64 (if i = r.position then c.digest.toNat else g.2.2.toNat) ++ leBytes 8 0
  let tenant := match s.sec.policy with | some t => leBytes 64 t.digest.toNat | none => leBytes 64 0
  let b := leBytes 4 0x54464E4D ++ leBytes 2 1 ++ leBytes 1 c.grade ++ leBytes 1 c.partition ++ leBytes 8 r.ringId ++ leBytes 8 c.step ++ leBytes 8 c.takenAt
    ++ leBytes 2 n ++ leBytes 2 (ownIndex s) ++ leBytes 4 (manifestLength n) ++ List.replicate 24 0 ++ leBytes 64 model ++ leBytes 32 r.orderDigest
    ++ leBytes 32 r.ringDigest ++ tenant ++ ((List.range 8).map vocab).flatten ++ ((List.range n).map entry).flatten
  b ++ openBytes (2 ^ 52 + c.partition) (manifestLength n - b.length)

/-- The shard stands in the host buffer, and on the coordinator every DIGEST has come: the command is answered. -/
def closeShard (part : Nat) (s : State) : State :=
  match checkpointOf s part, partitionAt s part, ringOf s part, commandOf s (.shardOut part) with
  | some c, some q, some r, some k =>
    let n := writtenBytes s (c.body.length + 64)
    let others := (List.range r.members.length).filter (fun i => i != r.position)
    if !c.written ∨ (r.position = 0 ∧ !others.all (fun i => c.collected.any (fun e => e.1 == i))) then s
    else
      let total := if r.position = 0 then n + writtenBytes s (manifestLength r.members.length) else n
      let s := if r.position = 0 then hostOut k.origin (c.addr + n) 4 (manifestBytes s c q r) s
        else send (.shard (r.members.headD 0) 1 ⟨part, r.position, c.step, c.body.length + 64, c.digest⟩) s
      let f := freeValue s
      let s := report 0xA00 (leBytes 8 r.ringId ++ leBytes 8 c.step ++ leBytes 4 f.1) f.2
      let s := finish (.shardOut part) { status := stOK, count0 := total % 2 ^ 32, count1 := total / 2 ^ 32 } s
      endCheckpoint part s
  | _, _, _, _ => s

/-- The Mover has written a shard. -/
def commitShard (o : MoverOp) (s : State) : State :=
  let part := o.slot - shardKey 0
  match checkpointOf s part, commandOf s (.shardOut part) with
  | some c, some k =>
    let s := hostOut k.origin o.buffer 4 (c.body ++ leBytes 64 c.digest.toNat) s
    closeShard part (modCheckpoint part (fun c => { c with written := true }) s)
  | _, _ => s

/-- A DIGEST message reaches the coordinator (16 R425, R429). -/
def execShardDigest (m : ShardMsg) (s : State) : Host.Outcome State Fault Refusal :=
  .next (match checkpointOf s m.partition with
    | none => s
    | some c =>
      if c.step ≠ m.step ∨ c.collected.any (fun e => e.1 == m.position) then s
      else closeShard m.partition (modCheckpoint m.partition (fun c => { c with collected := c.collected ++ [(m.position, m.value, m.digest)] }) s))

/-- TIER.CKPT_HOLD_STEPS steps after S without a manifest (16 R427). -/
def execCkptHoldExpiry (partition : Nat) (s : State) : Host.Outcome State Fault Refusal :=
  .next (if (checkpointOf s partition).any (fun c => c.snapped) then abandonCheckpoint partition s else s)

/-! ### RESTORE (16 R430) -/

/-- The first manifest fault of check 1: the offset within the manifest, or none. -/
def manifestFault (m : Manifest) : Option Nat :=
  if m.magic ≠ 0x54464E4D then some 0 else if m.version ≠ 1 then some 4 else if !m.zeroOk then some m.badOffset else none

/-- The lowest position that disagrees with the target ring, 0xFFFF for size or model (16 R430 check 3). -/
def shapeFault (s : State) (part : Nat) (q : Partition) (m : Manifest) : Option Nat :=
  if m.positions.length ≠ ringSizeOf s part ∨ !(FMap.get? s.cont.models q.model).any (fun x => x.measurement == m.modelDigest) then some 0xFFFF
  else ((m.positions.zipIdx).find? (fun e => !(e.1.firstLayer == layerFrom q e.2 && e.1.layers == q.layers
      && e.1.kvFormat == q.kvFormat && e.1.kvHeads == q.kvHeads && e.1.headDim == q.headDim))).map (fun e => e.2)

/-- The first VOCABS entry that is not resident (16 R430 check 4). -/
def vocabShort (s : State) (m : Manifest) : Option Nat :=
  ((m.vocabs.zipIdx).find? (fun e => e.1 != 0 && !(FMap.get? s.cont.vocabs e.2).any (fun v => v.digest.toNat % 2 ^ 256 == e.1))).map (fun e => e.2)

def restoreBody (ms : List Manifest) (report : Nat) (shards : List Shard) (_ : Nat) (p : Packet) (s : State) : State :=
  let part := argOf p 20 1
  match partitionAt s part with
  | none => reply p (bad 0x14) s
  | some q =>
    if ms.isEmpty ∨ !ms.all (fun m => m.lengthOk) then reply p { status := stBAD_LENGTH } s
    else match ms.findSome? manifestFault with
    | some off => reply p (bad (0x8000 + off)) s
    | none =>
      let tenant := match s.sec.policy with | some t => t.digest | none => 0
      let signed := ms.filter (fun m => m.signed && m.tenantDigest == tenant)
      let fitting := signed.filter (fun m => (shapeFault s part q m).isNone)
      if signed.isEmpty then reply p { status := stDIGEST_FAIL } s
      else if fitting.isEmpty then reply p { status := stSHAPE_MISMATCH, detail := ((signed.head?.bind (shapeFault s part q)).getD 0xFFFF) } s
      else match fitting.findSome? (vocabShort s) with
      | some i => reply p { status := stSHAPE_MISMATCH, detail := 0x0100 + i } s
      | none =>
        if partitionHeld s part ∨ (checkpointOf s part).isSome ∨ s.saves.restores.any (fun r => r.partition == part) ∨ !slotsServed s then reply p (busy 0xFFFF) s
        else
          let cands := (fitting.map (fun m => (m.step, m.shardDigests))).mergeSort (fun a b => decide (b.1 ≤ a.1))
          let r : Restoring := { partition := part, cands := cands, shards := shards, client := p.client, reportAt := report }
          accept p (.restoring part) { s with saves := { s.saves with restores := s.saves.restores ++ [r] } }

def execRestore (p : Packet) (manifests : List Manifest) (report : Nat) (shards : List Shard) (s : State) : Host.Outcome State Fault Refusal :=
  .next (serve (opIs 0x42) never (restoreBody manifests report shards) p s)

/-! ### Restores in progress (16 R431, R432) -/

def restoreOf (s : State) (part : Nat) : Option Restoring := s.saves.restores.find? (fun r => r.partition == part)

def modRestore (part : Nat) (f : Restoring → Restoring) (s : State) : State :=
  { s with saves := { s.saves with restores := s.saves.restores.map (fun r => if r.partition = part then f r else r) } }

def ownPosition (s : State) (part : Nat) : Nat := match ringOf s part with | some r => r.position | none => 0

/-- The shard this member lists for a step. -/
def listedShard (s : State) (r : Restoring) (step : Nat) : Option Shard :=
  r.shards.find? (fun x => x.step == step && x.position == ownPosition s r.partition)

/-- What staging a shard is short of: slots, or capsule space (11 R300). -/
def stagingShort (s : State) (x : Shard) : Option Nat :=
  let homes := (x.records.filter (fun r => r.home)).length
  let bytes := x.records.foldl (fun n r => n + incomingBytes r.body) 0
  let slots := 16777216 - s.slots.fresh + s.slots.freed.length
  if slots < homes then some 0x0008
  else if t2Free s < bytes + reserveBytes s ∧ (lenderFor s bytes).isNone then some 0x0002
  else none

/-- Ends a restore with its final reply. -/
def endRestore (part : Nat) (a : Ans) (s : State) : State :=
  finish (.restoring part) a { s with saves := { s.saves with restores := s.saves.restores.filter (fun r => r.partition != part) } }

/-- The next candidate, or MIXED_STEPS with the report of every step tried (16 R431). -/
def nextCandidate (r : Restoring) (s : State) : State :=
  let step := (r.cands.head?.map (fun c => c.1)).getD 0
  let atZero := ownPosition s r.partition = 0
  let f := freeValue s
  let good := if atZero then (r.reports.filter (fun e => e.2 == 0)).length else f.1
  let s := if atZero then s else f.2
  let tried := r.tried ++ [(step, good, (r.cands.head?.map (fun c => c.2.length)).getD 0)]
  match r.cands.tail with
  | [] =>
    let b := (tried.map (fun t => leBytes 8 t.1 ++ leBytes 4 t.2.1 ++ leBytes 4 t.2.2)).flatten
    let s := match commandOf s (.restoring r.partition) with | some c => hostOut c.origin r.reportAt 5 b s | none => s
    endRestore r.partition { status := stMIXED_STEPS, detail := tried.length } s
  | rest => modRestore r.partition (fun r => { r with cands := rest, tried := tried, reports := [], short := none }) s

/-- Places the capsules of a record; a capsule written once for several sessions is one frame (16 R432). -/
def restorePages (part dest : Nat) : List Page → List Bytes → List (Nat × Nat) → State → List Page × List (Nat × Nat) × State
  | [], _, seen, s => ([], seen, s)
  | g :: rest, bs, seen, s =>
    match (if g.frame = 0 then none else seen.find? (fun e => e.1 == g.frame)) with
    | some e =>
      let r := restorePages part dest rest bs.tail seen (shareFrame e.2 s)
      ({ g with tier := dest, frame := e.2, shared := true } :: r.1, r.2)
    | none =>
      let a := placeCapsule part dest g (bs.headD []) s
      let r := restorePages part dest rest bs.tail (if a.1.frame = 0 then seen else seen ++ [(g.frame, a.1.frame)]) a.2
      (a.1 :: r.1, r.2)

/-- The committed length that a page list's fills show. -/
def pagesLength (ps : List Page) : Nat := ps.foldl (fun n p => max n (64 * p.no + p.fill)) 0

/-- One record of a shard becomes a session of this home, or the pages this position holds for another home's. -/
def restoreRecord (part dest client : Nat) (x : ShardRecord) (a : List (Nat × Nat) × List (Nat × Nat) × State) : List (Nat × Nat) × List (Nat × Nat) × State :=
  let s := a.2.2
  let b := x.body
  if x.home then
    match nextSlot s with
    | none => a
    | some slot =>
      let s := takeSlot s
      let y := fromImage { b with wake := b.wake } (sessionAt s slot) part client s.comp.epoch (stamp s)
      let r := if x.rebuild then (([] : List Page), a.2.1, s) else restorePages part dest b.pages b.capsules a.2.1 s
      let s := putSession slot { y with pages := r.1, d := { y.d with state := 3, countsFolded := false } } r.2.2
      let s := adoptSet slot b s
      let s := queueLedger slot (lagAtOpen slot (growSegments slot s))
      let h := sessionHandle s slot
      let s := if x.rebuild then enterRebuilding slot s else s
      (a.1 ++ [(b.handle, h)], r.2.1, s)
  else
    let r := restorePages part dest b.pages b.capsules a.2.1 s
    (a.1, r.2.1, putGuest b.handle { pages := r.1, d := { state := 2, partition := part, committed := pagesLength b.pages } } r.2.2)

/-- COMMIT 1: the staging takes effect. -/
def commitRestore (r : Restoring) (s : State) : State :=
  let step := (r.cands.head?.map (fun c => c.1)).getD 0
  match listedShard s r step with
  | none => modRestore r.partition (fun r => { r with committed := true }) s
  | some x =>
    let bytes := x.records.foldl (fun n q => n + incomingBytes q.body) 0
    let dest := if bytes + reserveBytes s ≤ t2Free s then 2 else 3
    let a := x.records.foldl (fun a q => restoreRecord r.partition dest r.client q a) (([] : List (Nat × Nat)), ([] : List (Nat × Nat)), s)
    modRestore r.partition (fun r => { r with committed := true, homes := a.1 }) (restoreAdapters r.partition x.adapters.length x.adapters a.2.2)

/-- ALL_DONE: the map of old and new handles goes to REPORT BUF and RESTORE is answered. -/
def allDone (part : Nat) (s : State) : State :=
  match restoreOf s part with
  | none => s
  | some r =>
    if !r.committed then s
    else
      let b := (r.homes.map (fun h => leBytes 8 h.1 ++ leBytes 8 h.2)).flatten
      let s := match commandOf s (.restoring part) with | some c => if b.isEmpty then s else hostOut c.origin r.reportAt 5 b s | none => s
      endRestore part { status := stOK, count0 := r.homes.length } s

/-- Sends a SHARD message to every other member of the partition's ring. -/
def shardToAll (part type value step : Nat) (s : State) : State :=
  (ringPeers s part).foldl (fun s m => send (.shard m type ⟨part, ownPosition s part, step, value, 0⟩) s) s

/-- Position 0 holds a DONE from every member. -/
def checkDones (part : Nat) (s : State) : State :=
  match restoreOf s part with
  | none => s
  | some r =>
    if (List.range (ringSizeOf s part)).all (fun i => r.dones.contains i) then
      allDone part (shardToAll part 5 0 ((r.cands.head?.map (fun c => c.1)).getD 0) s)
    else s

/-- A member applies position 0's decision. -/
def applyCommit (part value : Nat) (s : State) : State :=
  match restoreOf s part with
  | none => s
  | some r =>
    if value = 1 then
      let s := commitRestore r s
      let step := (r.cands.head?.map (fun c => c.1)).getD 0
      if ownPosition s part = 0 then checkDones part (modRestore part (fun r => { r with dones := r.dones ++ [0] }) s)
      else send (.shard (((ringOf s part).map (fun g => g.members.headD 0)).getD 0) 4 ⟨part, ownPosition s part, step, 0, 0⟩) s
    else if value = 2 then
      match r.short with
      | some d => endRestore part (noResource d) s
      | none => let f := freeValue s; endRestore part (noResource (f.1 % 2 ^ 16)) f.2
    else nextCandidate r s

/-- Position 0 decides once every position has reported (16 R431). -/
def decide_ (part : Nat) (s : State) : State :=
  match restoreOf s part with
  | none => s
  | some r =>
    if !(List.range (ringSizeOf s part)).all (fun i => r.reports.any (fun e => e.1 == i)) then s
    else
      let v := if r.reports.any (fun e => e.2 == 3) then 2 else if r.reports.all (fun e => e.2 == 0) then 1 else 0
      applyCommit part v (shardToAll part 3 v ((r.cands.head?.map (fun c => c.1)).getD 0) s)

/-- A report reaches position 0, or is its own. -/
def takeReport (part position step value : Nat) (s : State) : State :=
  match restoreOf s part with
  | none => s
  | some r =>
    if (r.cands.head?.map (fun c => c.1)) ≠ some step ∨ r.reports.any (fun e => e.1 == position) ∨ r.committed then s
    else decide_ part (modRestore part (fun r => { r with reports := r.reports ++ [(position, value)] }) s)

/-- Staging of the candidate step ends: VALUE 1 digest failed, 2 no shard listed, 3 resources (16 R429, R431); `value` is what reading the shard showed. -/
def execRestoreStagingDone (partition value : Nat) (s : State) : Host.Outcome State Fault Refusal :=
  .next (match restoreOf s partition with
    | none => s
    | some r =>
      match r.cands.head? with
      | none => s
      | some c =>
        let pos := ownPosition s partition
        let shard := listedShard s r c.1
        let short := shard.bind (fun x => stagingShort s x)
        let v := match shard with
          | none => 2
          | some x => if c.2[pos]? ≠ some x.digest ∨ value = 1 then 1 else if short.isSome then 3 else value
        let s := modRestore partition (fun r => { r with short := short }) s
        if pos = 0 then takeReport partition 0 c.1 v s
        else send (.shard (((ringOf s partition).map (fun g => g.members.headD 0)).getD 0) 2 ⟨partition, pos, c.1, v, 0⟩) s)

def execShardReport (m : ShardMsg) (s : State) : Host.Outcome State Fault Refusal :=
  .next (if ownPosition s m.partition = 0 then takeReport m.partition m.position m.step m.value s else s)

def execShardCommit (m : ShardMsg) (s : State) : Host.Outcome State Fault Refusal :=
  .next (match restoreOf s m.partition with
    | none => s
    | some r => if (r.cands.head?.map (fun c => c.1)) = some m.step ∧ !r.committed ∧ ownPosition s m.partition ≠ 0 then applyCommit m.partition m.value s else s)

def execShardDone (m : ShardMsg) (s : State) : Host.Outcome State Fault Refusal :=
  .next (match restoreOf s m.partition with
    | none => s
    | some r =>
      if ownPosition s m.partition ≠ 0 ∨ r.dones.contains m.position then s
      else checkDones m.partition (modRestore m.partition (fun r => { r with dones := r.dones ++ [m.position] }) s))

def execShardAllDone (m : ShardMsg) (s : State) : Host.Outcome State Fault Refusal := .next (allDone m.partition s)

/-- No REPORT within TIER.CKPT_HOLD_STEPS steps (16 R431): the lowest missing position, as position 0 knows it. -/
def execRestoreTimeout (partition : Nat) (s : State) : Host.Outcome State Fault Refusal :=
  .next (match restoreOf s partition with
    | none => s
    | some r =>
      if r.committed then s
      else
        let missing := (List.range (ringSizeOf s partition)).find? (fun i => !r.reports.any (fun e => e.1 == i))
        if ownPosition s partition = 0 then endRestore partition { status := stSHAPE_MISMATCH, detail := missing.getD 0 } s
        else let f := freeValue s; endRestore partition { status := stSHAPE_MISMATCH, detail := f.1 % 2 ^ 16 } f.2)

/-! ### SHRINK_ARM (08 R220; 16 R436) -/

def shrinkBody (_ : Nat) (p : Packet) (s : State) : State :=
  let ring := paramOf p 0x20 8
  match s.sched.plans.find? (fun q => !q.armed && q.img.ringId == ring), s.sched.active with
  | some q, some img =>
    if q.img.base ≠ img.facts.trailer then replyOpen p stSHAPE_MISMATCH s
    else match (q.img.roles.zipIdx).find? (fun e => (contentFault (withRole s e.1) e.1).isSome || !rolesFit s q.img) with
    | some e => reply p { status := stSHAPE_MISMATCH, detail := e.2 } s
    | none => reply p ok { s with sched := { s.sched with plans := s.sched.plans.filter (fun x => x.img.ringId != ring) ++ [{ q with armed := true }] } }
  | _, _ => replyOpen p stSHAPE_MISMATCH s

def execShrinkArm (p : Packet) (s : State) : Host.Outcome State Fault Refusal :=
  .next (serve (opIs 0x43) never shrinkBody p s)

end Sys2Proof.Machine
end

