-- ==== Sys2Proof/Machine/MoverRows.lean ====
section
/-! DEFINITION. Mover slots (04 R112 to R114), wake-driven prefetch (04 R119), the Commons (04 R118; 12 R340), and the evacuation of DDR channels (15 R406). -/

namespace Sys2Proof.Machine

/-! ### Order and eligibility (04 R113) -/

/-- Members that the map in force flags LEAVING. -/
def leavingMembers (s : State) : List Nat := match s.comp.map with | some m => (m.devices.filter (fun d => d.leaving)).map (fun d => d.index) | none => []

/-- Within class 8: evacuation copies, pulls of capsules a LEAVING device lent, other demotions and pulls. -/
def classEight (s : State) (o : MoverOp) : Nat :=
  match o.kind with
  | .evacuate => 0
  | .pull => if (sessionAt s o.slot).pages.any (fun p => match frameAt s p.frame with | some f => f.tier == 3 && (leavingMembers s).contains f.lender | none => false) then 1 else 2
  | _ => 2

def moverKey (s : State) (o : MoverOp) : List Nat := [moverClass o.kind, classEight s o, o.id]

/-- Operations in the order of a Mover slot. -/
def moverOrder (s : State) : List MoverOp := s.tier.ops.mergeSort (fun a b => keysLe (moverKey s a) (moverKey s b))

/-- Operations that move a session's pages between tiers, which follow one another (04 R125). -/
def shifts (k : MoverKind) : Bool :=
  match k with | .reviveTaken | .revive | .park | .sessionOut | .sessionIn | .demote | .pull => true | _ => false

/-- Whether an operation reads or writes a DDR channel whose controller restarts (18 R469). -/
def onRestarting (s : State) (o : MoverOp) : Bool :=
  FMap.any (fun c d => d.restarting && (o.slot == 2 ^ 60 + c
    || (sessionAt s o.slot).pages.any (fun p => (match frameAt s p.frame with | some f => f.tier == 2 && f.channel == c | none => false)))) s.tier.ddr

/-- Whether an operation must not run now: another of its session goes first, a final pass is not ready, tiles would leave T1 under a pass in flight (01 R22), or the device is REDUCED (14 R378) or stopping. -/
def held (s : State) (o : MoverOp) : Bool :=
  (shifts o.kind && s.tier.ops.any (fun r => r.slot == o.slot && shifts r.kind && decide (r.id < o.id)))
    || (o.kind == .finalPass && !finalReady s o.slot)
    || ((o.kind == .park || o.kind == .sessionOut) && decide (o.slot < 2 ^ 24) && passRunning (sessionHandle s o.slot) s)
    || onRestarting s o || (s.sup.st == .reduced && decide (4 ≤ moverClass o.kind)) || s.sup.st == .stopping

/-! ### A slot begins -/

/-- Operations that read capsules where they are. -/
def readsLenders (k : MoverKind) : Bool := k == .revive || k == .reviveTaken || k == .pull || k == .sessionOut

/-- The lenders of a session's T3 capsules are asked for them (04 R118; 12 R340). -/
def askLenders (slot : Nat) (s : State) : State :=
  (sessionAt s slot).pages.foldl (fun s p => match frameAt s p.frame with
    | some f => if f.tier = 3 then send (.capsuleGet f.lender f.lref) s else s
    | none => s) s

/-- A capsule that an operation reads has not yet come from its lender. -/
def awaitsLender (s : State) (o : MoverOp) : Bool :=
  readsLenders o.kind && (sessionAt s o.slot).pages.any (fun p => (frameAt s p.frame).any (fun f => f.tier == 3 && f.capsule.isEmpty))

/-- Marks an operation begun; a copy pass takes the tiles dirty now. -/
def beginOp (o : MoverOp) (s : State) : State :=
  if o.begun then s
  else
    let s := { s with tier := { s.tier with ops := s.tier.ops.map (fun (r : MoverOp) => if r.id = o.id then ({ r with begun := true } : MoverOp) else r) } }
    if o.kind = .copyPass ∨ o.kind = .finalPass then beginCopy o.slot s
    else if readsLenders o.kind then askLenders o.slot s
    else s

/-- Begins operations in order while the bytes ahead of them leave room in one slot's share of both budgets. -/
def beginOps (moveRoom codecRoom : Nat) : List MoverOp → Nat → Nat → State → State
  | [], _, _, s => s
  | o :: rest, m, c, s =>
    if held s o then beginOps moveRoom codecRoom rest m c s
    else if m < moveRoom ∧ c < codecRoom then beginOps moveRoom codecRoom rest (m + o.moveBytes) (c + o.codecBytes) (beginOp o s)
    else s

def execMoverSlotStart (slotId : Nat) (s : State) : Host.Outcome State Fault Refusal :=
  match s.sched.active, activeSlot s slotId with
  | some img, some x =>
    if x.lane ≠ 2 then .next s
    else
      let n := max 1 (moverSlots img).length
      let s := { s with tier := { s.tier with inSlot := true } }
      .next (beginOps (moveBudget s img / n) (codecBudget s img / n) (moverOrder s) 0 0 s)
  | _, _ => .next s

/-! ### Evacuation (15 R406) -/

/-- Key of a channel's evacuation copies in the operation list. -/
def evacKey (c : Nat) : Nat := 2 ^ 60 + c

/-- T2 bytes of a channel, by its share of the installed DDR (log entry 33). -/
def channelShare (s : State) (c : Nat) : Nat :=
  let total := s.tier.ddr.foldl (fun n e => if e.2.state = 1 ∨ e.2.state = 2 then n + e.2.sizeGiB else n) 0
  if total = 0 then 0 else s.tier.t2Total * (FMap.getD s.tier.ddr c {}).sizeGiB / total

/-- Capsule bytes that stand on a channel. -/
def onChannel (s : State) (c : Nat) : Nat :=
  s.tier.frames.foldl (fun n e => if e.2.tier = 2 ∧ e.2.channel = c then n + e.2.length else n) 0
    + s.tier.lent.foldl (fun n l => if l.channel = c then n + l.body.length else n) 0

/-- T2 bytes free on the other channels. -/
def freeElsewhere (s : State) (c : Nat) : Nat :=
  (s.tier.t2Total - channelShare s c) * 2 ^ 20 - (t2Used s - onChannel s c) - t2Reserved s

/-- Queues a copy for every capsule, lent capsule and ledger segment copy on an evacuating channel that has none. -/
def queueEvacuation (c : Nat) (s : State) : State :=
  let has (kind : Nat) (id : Nat) (s : State) : Bool := s.tier.ops.any (fun o => o.slot == evacKey c && o.dest == kind && o.buffer == id)
  let s := s.tier.frames.foldl (fun s e => if e.2.tier = 2 ∧ e.2.channel = c ∧ !has 2 e.1 s then addOp .evacuate (evacKey c) e.2.length 0 0 e.1 0 2 s else s) s
  let s := s.tier.lent.foldl (fun s l => if l.channel = c ∧ !has 3 l.ref s then addOp .evacuate (evacKey c) l.body.length 0 0 l.ref 0 3 s else s) s
  s.slots.segments.foldl (fun s e => if (e.2.first = c ∨ e.2.second = c) ∧ !has 1 e.1 s then addOp .evacuate (evacKey c) 65536 0 0 e.1 0 1 s else s) s

/-- One object's copy commits: to another channel, or to a lender where T2 has no room; without room it stays. -/
def commitEvacuate (o : MoverOp) (s : State) : State :=
  let c := o.slot - evacKey 0
  if o.dest = 1 then
    let move (g : Segment) : Segment :=
      let other := if g.first = c then g.second else g.first
      let d := otherChannel s [c, other] o.buffer
      if g.first = c then { g with first := d } else if g.second = c then { g with second := d } else g
    { s with slots := { s.slots with segments := s.slots.segments.map (fun e => if e.1 = o.buffer then (e.1, move e.2) else e) } }
  else if o.dest = 3 then
    { s with tier := { s.tier with lent := s.tier.lent.map (fun (l : Lent) => if l.channel = c ∧ l.ref = o.buffer then ({ l with channel := placeChannel s l.ref } : Lent) else l) } }
  else
    match frameAt s o.buffer with
    | none => s
    | some f =>
      if f.tier ≠ 2 ∨ f.channel ≠ c then s
      else if f.length ≤ freeElsewhere s c then putFrame o.buffer { f with channel := placeChannel s o.buffer } s
      else
        match lenderFor s f.length with
        | none => s
        | some l =>
          let ref := s.tier.nextRef
          let s := putFrame o.buffer { f with tier := 3, lender := l, lref := ref } { s with tier := { s.tier with nextRef := ref + 1 } }
          let fr := s.tier.frames
          let s := { s with slots := { s.slots with table := FMap.mapVals (fun _ y => { y with
            pages := y.pages.map (fun p => if p.frame = o.buffer then (match FMap.get? fr p.frame with | some g => { p with tier := g.tier } | none => p) else p) }) s.slots.table } }
          send (.capsulePut l ref f.capsule) s

/-! ### A slot ends (04 R112) -/

/-- Sessions whose page lists name a frame. -/
def sessionsOn (s : State) (addr : Nat) : List Nat :=
  (s.slots.table.filter (fun e => e.2.d.state != 0 && e.2.pages.any (fun p => p.frame == addr && p.frame != 0))).map (fun e => e.1)

/-- Every session referencing a bad capsule or frame enters REBUILDING (04 R127), and a shard not yet written loses the page (16 R425). -/
def badFrame (addr : Nat) (s : State) : State := (sessionsOn s addr).foldl (fun s slot => enterRebuilding slot s) (spoilPage addr s)

/-- A capsule that an operation reads fails, the one of the page named (04 R127): every session that references it is rebuilt. The writing of a shard goes on: UNCORRECTABLE_ERROR names the page it lost (16 R425). -/
def badCapsule (o : MoverOp) (addr : Nat) (s : State) : State :=
  if o.kind = .shard then s
  else badFrame addr (dropOps (fun r => r.id == o.id) (setFlag offTierEvents 3 s))

/-- The frame a failure of an operation names: an evacuation's own object, else the page of its session. -/
def failedFrame (s : State) (o : MoverOp) (no : Nat) : Nat :=
  if o.kind = .evacuate then o.buffer
  else ((((sessionAt s o.slot).pages.filter (fun p => p.tier != 1)).find? (fun p => p.no == no)).map (fun p => p.frame)).getD 0

/-- The first capsule an operation reads whose CHECK does not hold, or whose frame the device refuses (04 R102, R127); one that a lender has not yet given is not looked at. -/
def unsound (s : State) (o : MoverOp) : Option Nat :=
  if o.kind = .revive ∨ o.kind = .reviveTaken ∨ o.kind = .demote ∨ o.kind = .pull ∨ o.kind = .sessionOut then
    ((sessionAt s o.slot).pages.find? (fun p => match frameAt s p.frame with
      | some f => f.tier != 1 && !f.capsule.isEmpty && (match partitionAt s f.partition with | some q => !capsuleOk q f.capsule | none => false)
      | none => false)).map (fun p => p.frame)
  else none

/-- The host buffer of an export cannot be written (04 R127): the session is PARKED in T2. -/
def badBuffer (o : MoverOp) (s : State) : State :=
  let s := dropOps (fun r => r.id == o.id) s
  let x := sessionAt s o.slot
  let s := if x.d.state = 1 then
      let r := parkPagesAll o.slot o.grade 2 x.pages s
      setState o.slot 3 (modSession o.slot (fun x => { x with pages := r.1, drafts := [] }) r.2)
    else s
  finish (.capsuleOut o.slot) (noResource 0x0005) s

/-- The lender left or cannot be reached (04 R125): the operation is killed and placed again for the next slot. -/
def lostLender (o : MoverOp) (s : State) : State :=
  let place := if o.kind = .park then placePark o.slot (parkSpace s (sessionAt s o.slot)) (sessionAt s o.slot).d.wake s else none
  let s1 := match place with | some r => r.2 | none => s
  let d := match place with | some r => r.1 | none => o.dest
  { s1 with tier := { s1.tier with ops := s1.tier.ops.map (fun (r : MoverOp) => if r.id = o.id then ({ r with begun := false, bytesDone := false, dest := d } : MoverOp) else r) } }

/-- Bytes that an operation moved and coded, as its commit shows them (04 R111): a park those of the capsules it wrote, a private copy the page's, every other operation those it reserved. -/
def usedBytes (o : MoverOp) (before after : State) : Nat × Nat :=
  match o.kind with
  | .park | .sessionOut =>
    if (sessionAt before o.slot).pages.all (fun p => p.tier != 1) then (o.moveBytes, 0)
    else
      let new : List (Nat × Frame) := after.tier.frames.filter (fun e => e.2.tier != 1 && (match frameAt before e.1 with | some f => f.tier == 1 | none => true))
      let move := new.foldl (fun n e => n + e.2.length) 0
      let tiles := new.foldl (fun n e => n + (match partitionAt after e.2.partition with | some q => pageBytes q | none => 0)) 0
      (move, if o.grade = 0 then tiles else move)
  | .privateCopy => (match partitionAt before (sessionAt before o.slot).d.partition with | some q => (pageBytes q, 0) | none => (0, 0))
  | _ => (o.moveBytes, o.codecBytes)

/-- What an operation's commit does. -/
def commitKind (o : MoverOp) (s : State) : State :=
  match o.kind with
  | .reviveTaken => commitRevive o s
  | .revive => commitRevive o s
  | .privateCopy => let s := commitPrivate o s; if (sessionAt s o.slot).job.isSome then reportCandidate o.slot true s else s
  | .finalPass => commitFinal o s
  | .copyPass => commitCopy o s
  | .park => commitPark o s
  | .sessionOut => commitExport o s
  | .sessionIn => commitImport o s
  | .evacuate => commitEvacuate o s
  | .demote => commitShift o s
  | .pull => commitShift o s
  | .shard => commitShard o s

/-- The commit of one operation, and what it adds to the step's use of both budgets. -/
def commitOpOf (o : MoverOp) (s : State) : State :=
  let t := commitKind o (dropOps (fun r => r.id == o.id) s)
  let u := usedBytes o s t
  { t with tier := { t.tier with moveUsed := t.tier.moveUsed + u.1, codecUsed := t.tier.codecUsed + u.2, opsDone := t.tier.opsDone + 1 } }

/-- What the end of a slot does to one operation: a result of its own, or bytes that had moved before and whose host read has completed since. -/
def endOp (results : List MoverResult) (id : Nat) (s : State) : State :=
  match s.tier.ops.find? (fun o => o.id == id) with
  | none => s
  | some o =>
    if held s o then s
    else
      let r := results.find? (fun r => r.op == id)
      match r.map (fun r => r.failure) with
      | some 1 => badCapsule o (failedFrame s o ((r.map (fun r => r.pageNo)).getD 0)) s
      | some 2 => if o.kind = .sessionOut then badBuffer o s else if o.kind = .shard then abandonCheckpoint (o.slot - shardKey 0) s else s
      | some 3 => lostLender o s
      | _ =>
        let moved : Bool := o.bytesDone || r.any (fun r => r.done)
        if !moved ∨ awaitsLender s o then s
        else if o.needRead ∧ !o.readDone then
          { s with tier := { s.tier with ops := s.tier.ops.map (fun (q : MoverOp) => if q.id = id then ({ q with begun := true, bytesDone := true } : MoverOp) else q) } }
        else match unsound s o with
          | some a => badCapsule o a s
          | none => commitOpOf o s

def execMoverSlotEnd (results : List MoverResult) (s : State) : Host.Outcome State Fault Refusal :=
  if !s.tier.inSlot then .next s
  else
    let ids := (moverOrder s).map (fun o => o.id)
    .next (freezeAll (ids.foldl (fun s id => endOp results id s) { s with tier := { s.tier with inSlot := false } }))

/-- The read that ends an export's host writes completes (04 R112). -/
def execHostReadCompletion (op : Nat) (s : State) : Host.Outcome State Fault Refusal :=
  .next { s with tier := { s.tier with ops := s.tier.ops.map (fun (o : MoverOp) => if o.id = op ∧ o.needRead then ({ o with readDone := true } : MoverOp) else o) } }

/-! ### Wake-driven prefetch (04 R119) -/

/-- WAKE − 4 × TIER.PREFETCH_LEAD: capsules in T3 come to T2 where R116's first condition holds. -/
def execPrefetchPull (slot : Nat) (s : State) : Host.Outcome State Fault Refusal :=
  let x := sessionAt s slot
  let b := x.pages.foldl (fun n p => match frameAt s p.frame with | some f => if f.tier = 3 then n + f.length else n | none => n) 0
  .next (if x.d.state = 3 ∧ x.d.wake ≠ 0 ∧ x.d.wake ≤ s.cad.beat + 4 * s.tier.set.prefetchLead ∧ b ≠ 0 ∧ b + reserveBytes s ≤ t2Free s
      ∧ (opOf s slot (fun o => shifts o.kind)).isNone then addOp .pull slot b 0 0 0 0 2 s
    else s)

/-- WAKE − TIER.PREFETCH_LEAD: a revive, unless T1 would fall to the floor. -/
def execPrefetchRevive (slot : Nat) (s : State) : Host.Outcome State Fault Refusal :=
  let x := sessionAt s slot
  let due : Bool := x.d.state == 3 && !x.exported && x.d.wake != 0 && decide (x.d.wake ≤ s.cad.beat + s.tier.set.prefetchLead) && (opOf s slot isRevive).isNone
  .next (if !due then s
    else if s.tier.set.prefetchFloor * (s.tier.t1Total * 2 ^ 20) < 100 * (t1Free s - reviveNeed s x) ∧ reviveNeed s x ≤ t1Free s then
      prefetchTool slot s
    else setFlag offTierEvents 5 s)

/-! ### The Commons (04 R118; 12 R340) -/

/-- Bytes this device may still lend. -/
def lendRoom (s : State) : Nat :=
  let installed := s.tier.ddr.foldl (fun n e => if e.2.state = 1 then n + e.2.sizeGiB else n) 0
  min (installed * 2 ^ 30 * s.tier.set.commonsShare / 100 - t3Lent s) (t2Free s)

def execLenderAdvert (member freeMiB hops : Nat) (s : State) : Host.Outcome State Fault Refusal :=
  .next (if isMember s member then { s with tier := { s.tier with adverts := FMap.put s.tier.adverts member ⟨freeMiB, hops⟩ } } else s)

/-- A capsule arrives to be kept for a member, within the share. -/
def execCapsulePut (borrower ref : Nat) (body : Bytes) (s : State) : Host.Outcome State Fault Refusal :=
  .next (if isMember s borrower ∧ body.length ≤ lendRoom s ∧ !s.tier.lent.any (fun l => l.borrower == borrower && l.ref == ref) then
      { s with tier := { s.tier with lent := s.tier.lent ++ [⟨borrower, ref, body, placeChannel s ref⟩] } }
    else s)

/-- The lent capsule a reference names. After an ownership transfer the new home asks for it under the reference its page entry gave (04 R124), and it counts as the borrower from then on. DEDUCED: no message tells a third lender of the transfer (log entry 93). -/
def lentTo (s : State) (borrower ref : Nat) : Option Lent :=
  match s.tier.lent.find? (fun l => l.borrower == borrower && l.ref == ref) with
  | some l => some l
  | none => s.tier.lent.find? (fun l => l.ref == ref)

def execCapsuleGet (borrower ref : Nat) (s : State) : Host.Outcome State Fault Refusal :=
  .next (match lentTo s borrower ref with
    | some l =>
      let take (m : Lent) : Lent := if m = l then { m with borrower := borrower } else m
      send (.capsuleData borrower ref l.body) { s with tier := { s.tier with lent := s.tier.lent.map take } }
    | none => s)

/-- Capsule data comes back from a lender: a capsule whose CHECK fails sends its sessions to REBUILDING (04 R127). -/
def execCapsuleData (ref : Nat) (body : Bytes) (lender : Nat) (s : State) : Host.Outcome State Fault Refusal :=
  .next (match s.tier.frames.find? (fun e => e.2.tier == 3 && e.2.lref == ref && e.2.lender == lender) with
    | none => s
    | some e =>
      match partitionAt s e.2.partition with
      | none => s
      | some q =>
        if capsuleOk q body then putFrame e.1 { e.2 with length := body.length, capsule := body } s
        else badFrame e.1 (setFlag offTierEvents 3 s))

def execCapsuleFree (borrower ref : Nat) (s : State) : Host.Outcome State Fault Refusal :=
  .next (match lentTo s borrower ref with
    | some l => { s with tier := { s.tier with lent := s.tier.lent.filter (fun m => !decide (m = l)) } }
    | none => s)

/-- A lender has lost a capsule: the notice names a session or the borrower's reference (log entry 34). -/
def execCapsuleLostNotice (n : SessionNotice) (s : State) : Host.Outcome State Fault Refusal :=
  .next (match liveSlot s n.handle with
    | some slot => enterRebuilding slot s
    | none =>
      match s.tier.frames.find? (fun e => e.2.tier == 3 && e.2.lref == n.handle) with
      | some e => badFrame e.1 s
      | none => s)

end Sys2Proof.Machine
end

