-- ==== Sys2Proof/Machine/Composition.lean ====
section
/-! DEFINITION. Composition maps (12 R333 to R339) and what the Commons does when one takes effect (04 R127, 15 R413). -/

namespace Sys2Proof.Machine

/-! ### Links by number -/

def putLink (l : Nat) (x : Link) (s : State) : State := { s with links := { s.links with port := FMap.put s.links.port l x } }

def modLink (l : Nat) (f : Link → Link) (s : State) : State := putLink l (f (linkAt s l)) s

/-- A map mismatch restricts a link (12 R336): the flag, and a record where the link agreed before or had not been judged. -/
def mapMismatch (l : Nat) (s : State) : State :=
  let x := linkAt s l
  let s := setFlag (offLnkEvents l) 7 (modLink l (fun x => { x with mapOk := false }) s)
  report 0x701 (unitField 3 l ++ leBytes 2 x.peer ++ leBytes 2 0) s

/-! ### COMPOSITION_SET (12 R335) -/

/-- Header fields and ascending indices. -/
def mapFieldsOk (m : CompMap) : Bool :=
  m.magic == 0x504D4F43 && m.version == 1 && m.zeroOk && decide (1 ≤ m.count ∧ m.count ≤ 4096) && m.count == m.devices.length
    && decide (1 ≤ m.epoch ∧ m.epoch ≤ 0xFFFFFFFF) && (m.graceBeats == 0 || decide (256 ≤ m.graceBeats ∧ m.graceBeats ≤ 1048576))
    && decide (m.root < 4096) && m.devices.all (fun d => decide (d.index < 4096))
    && (m.devices.zip (m.devices.drop 1)).all (fun e => decide (e.1.index < e.2.index))

/-- The entry of this device, by the first 16 bytes of the digest of its identity key. -/
def ownEntry (s : State) (m : CompMap) : Option MapEntry := m.devices.find? (fun d => d.identity == s.sec.idDigest.toNat % 2 ^ 128)

/-- The lowest link that is up and whose entry disagrees with its peer. -/
def linkDisagrees (s : State) (d : MapEntry) : Option Nat :=
  (List.range 32).find? (fun l => linkUp s l && !decide (d.links[l]? = some ((linkAt s l).peer, (linkAt s l).peerLink)))

/-- Every member of the device's active rings stays. -/
def ringsStay (s : State) (m : CompMap) : Bool :=
  (allMembers s).all (fun i => m.devices.any (fun d => d.index == i && !d.leaving))

def effectiveOk (s : State) (at_ : Nat) : Bool :=
  match s.sched.active with
  | none => decide (s.cad.beat ≤ at_)
  | some img => decide (img.anchor ≤ at_) && (at_ - img.anchor) % img.stepBeats == 0 && decide (s.cad.beat + 2 * img.stepBeats ≤ at_)

def compositionBody (buf : Bytes) (_ : Nat) (p : Packet) (s : State) : State :=
  let m := readMap buf
  let at_ := paramOf p 0x28 8
  if m.facts.delivered ≠ 128 + 128 * m.count then replyOpen p stBAD_LENGTH s
  else if !mapFieldsOk m then replyOpen p stBAD_PARAM s
  else if m.facts.digest ≠ m.facts.trailer then reply p { status := stDIGEST_FAIL } s
  else if m.epoch ≠ paramOf p 0x20 4 ∨ m.epoch ≤ s.comp.epoch then reply p { status := stSTALE_EPOCH, count0 := s.comp.epoch } s
  else match s.comp.staged with
  | some g => reply p (busy (min 0xFFFE (g.2 - s.cad.beat))) s
  | none =>
    match ownEntry s m with
    | none => replyOpen p stBAD_PARAM s
    | some d =>
      match linkDisagrees s d with
      | some l => reply p { status := stSHAPE_MISMATCH, detail := l } s
      | none =>
        if !ringsStay s m then reply p { status := stSHAPE_MISMATCH, detail := 0xFFFF } s
        else if !effectiveOk s at_ then reply p (bad 0x28) s
        else if d.index ≠ ownIndex s ∧ anySession (fun _ => true) s then reply p (busy 0xFFFF) s
        else accept p .composition { s with comp := { s.comp with staged := some (m, at_) } }

def execCompositionSet (p : Packet) (buf : Bytes) (s : State) : Host.Outcome State Fault Refusal :=
  .next (serve (opIs 0x32) never (compositionBody buf) p s)

/-! ### The Commons at a change of members (04 R127, 15 R413) -/

/-- A lender of own capsules is gone: every session with a capsule there enters REBUILDING. -/
def lenderLost (m : Nat) (s : State) : State :=
  let held := (s.tier.frames.filter (fun e => e.2.tier == 3 && e.2.lender == m)).map (fun e => e.1)
  let s := { s with tier := { s.tier with adverts := FMap.del s.tier.adverts m } }
  if held.isEmpty then s else held.foldl (fun s a => badFrame a s) (setFlag offTierEvents 2 s)

/-- A borrower is gone: what it was lent is free. -/
def borrowerLost (m : Nat) (s : State) : State := { s with tier := { s.tier with lent := s.tier.lent.filter (fun l => l.borrower != m) } }

def memberGone (m : Nat) (s : State) : State := borrowerLost m (lenderLost m s)

/-- Sessions with capsules at a leaving lender, earliest WAKE first. -/
def lenderUsers (s : State) (m : Nat) : List Nat :=
  let l := (s.slots.table.filter (fun e => e.2.d.state != 0 && e.2.pages.any (fun p => (match frameAt s p.frame with | some f => f.tier == 3 && f.lender == m | none => false)))).map
    (fun e => (e.1, wakeKey e.2.d.wake))
  (l.mergeSort (fun a b => decide (a.2 ≤ b.2))).map (fun e => e.1)

/-- Bytes of a session's capsules at a lender. -/
def lentBytes (s : State) (m slot : Nat) : Nat :=
  (sessionAt s slot).pages.foldl (fun n p => match frameAt s p.frame with | some f => if f.tier = 3 ∧ f.lender = m then n + f.length else n | none => n) 0

/-- Queues the pulls of R413 that have room: into T2, or to another lender. A pull names its lender, one more than the index. -/
def pullFrom (m : Nat) (s : State) : State :=
  (lenderUsers s m).foldl (fun s slot =>
    if s.tier.ops.any (fun o => o.slot == slot && shifts o.kind) then s
    else
      let b := lentBytes s m slot
      if b + reserveBytes s ≤ t2Free s then addOp .pull slot b 0 0 (m + 1) 0 2 s
      else if (lenderFor s b).isSome then addOp .pull slot b 0 0 (m + 1) 0 3 s
      else s) s

def pullLeaving (s : State) : State :=
  ((leavingMembers s).filter (fun m => m != ownIndex s)).foldl (fun s m => pullFrom m s) s

/-! ### A map takes effect, and a member leaves (12 R336 to R339) -/

/-- The staged map takes effect: epoch, index, grace; members that are gone are lost to the Commons, leaving ones advertise no more. -/
def applyMap (m : CompMap) (at_ : Nat) (s : State) : State :=
  let was : List Nat := match s.comp.map with | some o => o.devices.map (fun d => d.index) | none => []
  let gone := was.filter (fun i => !m.devices.any (fun (d : MapEntry) => d.index == i))
  let idx := match ownEntry s m with | some d => d.index | none => ownIndex s
  let grace := if m.graceBeats = 0 then 2048 else m.graceBeats
  let s := { s with comp := { s.comp with
    inComp := true, index := idx, last := some idx, previous := s.comp.epoch, epoch := m.epoch
    graceUntil := some (at_ + grace), map := some m, staged := none } }
  let s := gone.foldl (fun s i => memberGone i s) s
  let s := { s with tier := { s.tier with adverts := (leavingMembers s).foldl (fun a i => FMap.del a i) s.tier.adverts } }
  finish .composition ok (pullLeaving s)

/-- The device leaves its composition: no map, epoch 0, the last index kept; its REMOTE records end, what it lent and what it had lent out are gone. -/
def leaveComposition (s : State) : State :=
  if !s.comp.inComp then s
  else
    let lenders := (s.tier.frames.map (fun e => if e.2.tier = 3 then e.2.lender + 1 else 0)).eraseDups.filter (fun i => i != 0)
    let remote := (s.slots.table.filter (fun e => e.2.d.state == 5)).map (fun e => e.1)
    let s := lenders.foldl (fun s i => lenderLost (i - 1) s) s
    let s := remote.foldl (fun s slot => freeSlot slot s) s
    let s := { s with tier := { s.tier with lent := [], adverts := [] } }
    { s with comp := { s.comp with
      inComp := false, last := some s.comp.index, epoch := 0, previous := 0, graceUntil := none, map := none } }

/-- G: a LEAVING device leaves; to every other device, the members that leave are gone. -/
def execGraceEnd (s : State) : Host.Outcome State Fault Refusal :=
  .next (match s.comp.graceUntil with
    | none => s
    | some g =>
      if s.cad.beat < g then s
      else if (leavingMembers s).contains (ownIndex s) then leaveComposition s
      else
        let s := (leavingMembers s).foldl (fun s i => memberGone i s) s
        { s with comp := { s.comp with graceUntil := none } })

/-! ### MAP_DIGEST (12 R336) -/

/-- The digest of the map in force. -/
def mapDigestOf (s : State) : Digest := match s.comp.map with | some m => m.facts.trailer | none => 0

/-- The message each boundary sends on every link. -/
def sendDigests (s : State) : State :=
  match s.comp.map with
  | none => s
  | some m => (upLinks s).foldl (fun s l => send (.mapDigest l s.comp.epoch m.facts.trailer) s) s

def execMapDigest (link epoch : Nat) (digest : Digest) (s : State) : Host.Outcome State Fault Refusal :=
  let agrees : Bool := s.comp.inComp && epoch == s.comp.epoch && decide (digest = mapDigestOf s)
  .next (if agrees then modLink link (fun x => { x with mapOk := x.peerOk }) s
    else mapMismatch link s)

end Sys2Proof.Machine
end

