-- ==== Sys2Proof/Machine/Security.lean ====
section
/-! DEFINITION. Tenancy, quotes, key release, tenant release, presence, the seal and custodial commands (13 R345 to R374). -/

namespace Sys2Proof.Machine

def modSec (f : Security → Security) (s : State) : State := { s with sec := f s.sec }

/-- TENANT_DIGEST (13 R351): zero when unbound. -/
def tenantDigest (s : State) : Digest := if s.sec.bound then (match s.sec.policy with | some q => q.digest | none => 0) else 0

/-- A KEYS record (17 R450). The manual numbers its events no further than by their order; the code is open (log entry 14). -/
def keysRecord (entries : Nat) (s : State) : State :=
  let f := freeValue s
  report 0x801 (leBytes 1 (f.1 % 256) ++ leBytes 1 entries ++ leBytes 2 0) f.2

/-- New memory keys (13 R364): all 20 pairs, one draw. -/
def drawMemKeys (s : State) : State :=
  let d := draw s
  { d.2 with secw := { d.2.secw with memKey := d.1, memKeyGen := d.2.secw.memKeyGen + 1, channelKeys := [] } }

/-! ### Measurements (13 R350) -/

/-- The user calibration area as stored (18 R463). -/
def calBytes (s : State) : Bytes :=
  let es := s.cal.user.filter (fun e => e.2 != 0)
  let h := leBytes 4 0x4C414355 ++ leBytes 2 1 ++ leBytes 2 es.length ++ leBytes 8 s.cal.writeCount ++ leBytes 12 0
  let b := (es.map (fun e => leBytes 4 e.1 ++ leBytes 4 0 ++ leBytes 8 (signedField 64 e.2))).flatten
  h ++ leBytes 4 (crc32c (h ++ b)) ++ b

/-- The fenced-unit entries of a quote (13 R351). -/
def fencedBytes (s : State) : Bytes := ((fencedUnits s).map (fun u => leBytes 4 u.1 ++ leBytes 4 u.2)).flatten

/-- The partition a plan image's ring serves in the active image. -/
def planPartition (s : State) (p : PlanImage) : Nat :=
  match s.sched.active.bind (fun img => img.rings.find? (fun r => r.ringId == p.ringId)) with | some r => r.partition | none => 0xFF

/-- The measurement table in order: KIND, INDEX, STATE, DIGEST. -/
def measurements (s : State) : List (Nat × Nat × Nat × Digest) :=
  [(1, 0, 0, s.secw.fwMeasurement)]
    ++ (match s.svc.staged with | some f => [(1, 0, 1, f.facts.trailer)] | none => [])
    ++ (match s.sched.base with | some i => [(2, 0, 0, i.facts.trailer)] | none => [])
    ++ (match s.sched.staged with | some g => [(2, 0, 1, g.img.facts.trailer)] | none => [])
    ++ ((s.sched.plans.filter (fun q => q.armed)).map (fun q => (planPartition s q.img, q.img.facts.trailer))
        |>.mergeSort (fun a b => decide (a.1 ≤ b.1)) |>.map (fun e => (3, e.1, 2, e.2)))
    ++ (s.cont.models.map (fun e => (4, e.1, 0, e.2.measurement)))
    ++ [(5, 0, 0, shake256 (calBytes s)), (6, 0, 0, shake256 (fencedBytes s))]

/-! ### Quotes (13 R351, R352, R366) -/

def quoteLength (s : State) : Nat := 81664 + 72 * (measurements s).length + 8 * (fencedUnits s).length

def quoteFlags (s : State) : Nat :=
  boolNat ((fencedUnits s).length != 0) + 2 * boolNat s.sec.bound + 4 * boolNat s.sec.debug + 8 * boolNat s.sec.hostHold
    + 16 * boolNat s.sec.sealTripped + 32 * boolNat s.sec.purged

def digestBytes (d : Digest) : Bytes := leBytes 64 d.toNat

/-- The quote's bytes; keys, certificate and signature are open (log entry 6). -/
def quoteBytes (j : QuoteJob) (s : State) : Bytes :=
  leBytes 4 0x54514E46 ++ leBytes 2 1 ++ leBytes 2 (quoteFlags s) ++ leBytes 8 (stamp s) ++ j.nonce
    ++ leBytes 2 (measurements s).length ++ leBytes 2 (fencedUnits s).length ++ leBytes 2 (if s.comp.inComp then s.comp.index else 0xFFFF)
    ++ leBytes 2 j.client ++ leBytes 4 s.sec.rollback ++ leBytes 4 s.sec.chainEpoch ++ leBytes 8 s.sec.bootCount ++ leBytes 8 s.sec.akSerial
    ++ digestBytes (tenantDigest s) ++ digestBytes (mapDigestOf s) ++ digestBytes s.sec.idDigest ++ List.replicate 48 0
    ++ ((measurements s).map (fun m => leBytes 1 m.1 ++ leBytes 1 m.2.1 ++ leBytes 1 m.2.2.1 ++ leBytes 5 0 ++ digestBytes m.2.2.2)).flatten
    ++ fencedBytes s
    ++ (List.range 81344).map (fun i => Config.storedByte (2 ^ 62 + j.serial) i)

/-- A MEASURING reply with its estimate (log entry 14). -/
def replyMeasuring (p : Packet) (s : State) : State :=
  reply p { status := stMEASURING, detail := min 0xFFFE (Config.estimate s.freeCtr) } { s with freeCtr := s.freeCtr + 1 }

def quoteBody (_ : Nat) (p : Packet) (s : State) : State :=
  if s.sec.measuring then replyMeasuring p s
  else if bufLen p 0x40 < quoteLength s then reply p { status := stBAD_LENGTH, detail := quoteLength s } s
  else
    let n := s.secw.quoteSerial + 1
    await (.quote n) (originOf p s) { s with secw := { s.secw with
      quoteSerial := n
      quotes := s.secw.quotes ++ [⟨n, p.params.take 32, p.client, bufAddr p 0x40, bufLen p 0x40⟩] } }

def execAttestQuote (p : Packet) (s : State) : Host.Outcome State Fault Refusal :=
  .next (serve (opIs 0x50) never quoteBody p s)

/-- Firmware signs the oldest quote: it is written without an envelope, and the decapsulation key of its digest is held with those of the three before it. -/
def execQuoteSigned (quoteDigest : Digest) (s : State) : Host.Outcome State Fault Refusal :=
  .next (match s.secw.quotes with
    | [] => s
    | j :: rest =>
      if s.sec.measuring then s
      else
        let n := quoteLength s
        let f := (fencedUnits s).length
        let b := quoteBytes j s
        let s := { s with secw := { s.secw with quotes := rest } }
        if j.len < n then finish (.quote j.serial) { status := stBAD_LENGTH, detail := n } s
        else
          let keys := s.secw.decap ++ [⟨quoteDigest, tenantDigest s, s.sec.hostHold && !s.host.lost⟩]
          let s := hostWritePlain j.client j.addr b { s with secw := { s.secw with decap := keys.drop (keys.length - 4) } }
          finish (.quote j.serial) { status := if f = 0 then stOK else stDEGRADED, detail := f, count0 := n } s)

/-- 300 s after signing. -/
def execDecapKeyExpiry (quoteDigest : Digest) (s : State) : Host.Outcome State Fault Refusal :=
  .next { s with secw := { s.secw with decap := s.secw.decap.filter (fun k => !decide (k.digest = quoteDigest)) } }

/-- A new attestation key is generated and certified. -/
def execAkCertified (s : State) : Host.Outcome State Fault Refusal :=
  .next (if s.sec.measuring ∧ 2 ≤ s.svc.phase ∧ s.svc.phase ≤ 4 ∧ !s.svc.takenOver then
      modSec (fun k => { k with measuring := false, akSerial := k.akSerial + 1 }) s
    else s)

/-! ### Binding and key release (13 R353 to R357, R367, R368) -/

/-- Offset of a policy's failing field. -/
def policyFault (q : TenantPolicy) (s : State) : Option Nat :=
  if q.magic ≠ 0x4E545046 then some 0
  else if q.version ≠ 1 then some 4
  else if !decide (1 ≤ q.allow ∧ q.allow ≤ 16) ∨ q.allowList.length ≠ q.allow ∨ q.length ≠ 32 + 64 * q.allow then some 6
  else if !q.zero7 then some 7
  else if !q.zero24 then some 24
  else if !q.allowList.contains s.secw.fwMeasurement then some 32
  else none

def bindBody (buf : Bytes) (_ : Nat) (p : Packet) (s : State) : State :=
  let q := readPolicy buf
  if s.sec.sealTripped then reply p { status := stPRESENCE_REQUIRED } s
  else if s.sec.bound then reply p (busy 0xFFFF) s
  else
    match policyFault q s with
    | some off => reply p (bad (0x8000 + off)) s
    | none => reply p ok (keysRecord 0 (drawMemKeys (modSec (fun k => { k with bound := true, policy := some q }) s)))

def execTenantBind (p : Packet) (buf : Bytes) (s : State) : Host.Outcome State Fault Refusal :=
  .next (serve (opIs 0x52) never (bindBody buf) p s)

/-- Index of the first entry of a list that fails a test. -/
def firstIndex {α : Type} (f : α → Bool) (l : List α) : Option Nat := l.findIdx? f

/-- A release message's model whose staged image has another KEY_ID (13 R355 check 6). -/
def weightBusy (s : State) (e : KeyEntry) : Bool :=
  e.kind == 1 && ((FMap.get? s.cont.models e.index).isSome || (FMap.get? s.cont.staging (modelKey e.index)).isSome)
    && (FMap.get? s.sec.weightKeys e.index).any (fun k => k != e.keyId)

/-- A payload entry that reuses the current KEYGEN for another key (check 7). -/
def keygenTaken (s : State) (e : KeyEntry) : Bool :=
  e.kind == 2 && (FMap.get? s.sec.payloadKeys e.index).any (fun k => k.keyId % 256 == e.keyId % 256 && k.key != e.key)

/-- A message's shape: the offset of the field that fails check 2. -/
def messageFault (m : KeyMessage) : Option Nat :=
  if m.magic ≠ 0x4C45524B then some 0
  else if m.version ≠ 1 then some 4
  else if !decide (1 ≤ m.entriesField ∧ m.entriesField ≤ 272) ∨ m.entries.length ≠ m.entriesField then some 6
  else if !m.zeroOk then some 1652
  else none

def entryBad (es : List KeyEntry) (i : Nat) (e : KeyEntry) : Bool :=
  !((e.kind == 1 && decide (e.index < 16)) || (e.kind == 2 && decide (e.index < 256))) || !e.zeroOk
    || (es.take i).any (fun d => d.kind == e.kind && d.index == e.index)

/-- Installs one key. A payload key that is already current keeps its counters; a new one starts them again and the old one becomes previous. -/
def installKey (suspended : Bool) (s : State) (e : KeyEntry) : State :=
  if e.kind = 1 then
    modSec (fun k => { k with weightKeys := FMap.put k.weightKeys e.index e.keyId, weightSecrets := FMap.put k.weightSecrets e.index e.key }) s
  else
    let was := FMap.get? s.sec.payloadKeys e.index
    let new : PayloadKeys := match was with
      | none => { keyId := e.keyId, key := e.key, suspended := suspended }
      | some k =>
        if k.keyId % 256 = e.keyId % 256 then { k with keyId := e.keyId, suspended := suspended }
        else { keyId := e.keyId, key := e.key, previous := some (k.keyId, k.key), suspended := suspended }
    modSec (fun k => { k with payloadKeys := FMap.put k.payloadKeys e.index new }) s

def acceptBody (m : KeyMessage) (_ : Nat) (p : Packet) (s : State) : State :=
  let key := s.secw.decap.find? (fun k => decide (k.digest = m.quoteDigest))
  if !s.sec.bound ∨ key.any (fun k => !decide (k.tenant = tenantDigest s)) then reply p { status := stNOT_ATTESTED } s
  else if m.length ≠ 1672 + 48 * m.entriesField then reply p { status := stBAD_LENGTH, detail := 1672 + 48 * m.entriesField } s
  else match messageFault m with
  | some off => reply p (bad (0x8000 + off)) s
  | none =>
  match key with
  | none => reply p { status := stAUTH_FAIL, detail := 0x0020 } s
  | some k =>
    let s := { s with secw := { s.secw with decap := s.secw.decap.filter (fun d => !decide (d.digest = m.quoteDigest)) } }
    if !m.opens then reply p { status := stAUTH_FAIL, detail := 0x0021 } s
    else match (m.entries.zipIdx).find? (fun e => entryBad m.entries e.2 e.1) with
    | some e => reply p (bad (0x8000 + 48 * e.2)) s
    | none =>
      if m.entries.any (weightBusy s) then reply p (busy 0xFFFF) s
      else match firstIndex (keygenTaken s) m.entries with
      | some i => reply p (bad (0x8000 + 48 * i)) s
      | none =>
        let ends := s.sec.suspended && k.held
        let s := m.entries.foldl (fun s e => installKey (s.sec.suspended && !k.held) s e) s
        let s := modSec (fun k => { k with purged := false, suspended := k.suspended && !ends, hostHold := k.hostHold && !ends }) s
        let s := if s.sec.suspended then s else { s with host := { s.host with held := false, retained := false } }
        reply p ok (keysRecord m.entries.length s)

def execKeyAccept (p : Packet) (msg : KeyMessage) (s : State) : Host.Outcome State Fault Refusal :=
  .next (serve (opIs 0x51) never (acceptBody msg) p s)

/-! ### Tenant release (13 R372, R373; 17 R449) -/

/-- A DIMM service or a firmware activation is going on. -/
def dimmBusy (s : State) : Bool := FMap.any (fun _ c => c.state == 2 || c.state == 4) s.tier.ddr
def activating (s : State) : Bool := s.svc.activateAt.isSome || s.svc.takenOver

/-- Step 1: a device of a ring departs, and the rest waits for the departure boundary. -/
def beginRelease (s : State) : State :=
  if s.sec.releasing then s
  else
    let s := if inRing s then announceDeparture s else s
    modSec (fun k => { k with releasing := true, releaseAt := if inRing s then s.cad.departAt else none }) s

def releaseBody (_ : Nat) (p : Packet) (s : State) : State :=
  if activating s then replyMeasuring p s
  else if dimmBusy s then reply p (busy 0xFFFF) s
  else beginRelease (accept p .release s)

def execTenantRelease (p : Packet) (s : State) : Host.Outcome State Fault Refusal :=
  .next (serve (opIs 0x53) never releaseBody p s)

/-- Key under which firmware pieces are staged. -/
def fwKey : Nat := 0x6000

/-- Commands that wait for the release itself. -/
def ofRelease (w : Work) : Bool := match w with | .release => true | .custodial _ _ => true | _ => false

/-- Step 2: every pending command replies CANCELLED with its counts. -/
def cancelAll (s : State) : State :=
  let counts (c : Command) : Nat × Nat := match c.work with
    | .generate slot => (match (sessionAt s slot).job with | some j => (j.delivered, j.positions) | none => (0, 0))
    | _ => (0, 0)
  let s := (s.commands.filter (fun c => !ofRelease c.work)).foldl (fun s c =>
      replyTo c.origin true { status := stCANCELLED, count0 := (counts c).1, count1 := (counts c).2 } s) s
  { s with
    commands := s.commands.filter (fun c => ofRelease c.work)
    secw := { s.secw with quotes := [] }
    evr := { s.evr with snapshot := none } }

/-- Step 2: every session is FREE. -/
def freeAll (s : State) : State :=
  let used := (s.slots.table.filter (fun e => e.2.d.state != 0)).map (fun e => e.1)
  { s with slots := { s.slots with
    table := FMap.mapVals (fun _ x => if x.d.state = 0 then x else { gen := nextGen x.gen }) s.slots.table
    guests := []
    freed := s.slots.freed ++ used } }

/-- Step 3: keys destroyed, new memory keys. -/
def destroyKeys (s : State) : State :=
  drawMemKeys (modSec (fun k => { k with weightKeys := [], weightSecrets := [], payloadKeys := [], suspended := false, hostHold := false, purged := false })
    { s with secw := { s.secw with decap := [] } })

/-- Steps 4 and 5: stores zeroized, contents discarded, the composition left, the journal ring cleared. -/
def scrub (s : State) : State :=
  let s := leaveComposition s
  { s with
    mem := []
    cont := { staging := s.cont.staging.filter (fun e => e.1 == fwKey) }
    sched := {}
    saves := {}
    host := { s.host with retained := false, held := false }
    comp := { s.comp with staged := none, grants := [], relayed := [] }
    fab := { s.fab with damaged := [], reread := [], store := [], blocks := FMap.mapVals (fun _ b => { b with residue := [], mprogErrors := [] }) s.fab.blocks }
    tier := { s.tier with
      frames := [], due := [], releasing := 0, pairs := [], ops := [], inSlot := false, lent := [], adverts := []
      set := { s.tier.set with journalBase := 0, journalSize := 0, journalHead := 0, journalAck := 0, waiting := [], notices := [], recalls := [] } } }

/-- Fields a release zeroes in a record (17 R449, R450): the handle, and the eight bytes marked T after it. -/
def redactBody (r : Record) : Bytes :=
  let f := if r.folded then 8 else 0
  let z (off : Nat) (b : Bytes) : Bytes := b.take off ++ List.replicate (min 8 (b.length - off)) 0 ++ b.drop (off + 8)
  if r.code = 0x501 ∨ r.code = 0x502 ∨ r.code = 0x601 then z (f + 8) (z f r.body)
  else if r.code = 0x602 then z f r.body
  else r.body

def redact (r : Record) : Record := { r with redacted := true, body := redactBody r }

/-- Step 6. -/
def redactAll (s : State) : State :=
  setFlag offEvrEvents 4 { s with evr := { s.evr with records := s.evr.records.map redact, mirrored := s.evr.mirrored.map redact } }

/-! ### Custodial effects (13 R371) -/

def debugEffect (v : Nat) (s : State) : State := modSec (fun k => { k with debug := v == 1 }) s

/-- A new identity chain: the AK and decapsulation keys are destroyed, and a new AK generated and certified. -/
def identityEffect (s : State) : State :=
  modSec (fun k => { k with chainEpoch := k.chainEpoch + 1, akSerial := k.akSerial + 1 }) { s with secw := { s.secw with decap := [] } }

/-- Factory return: user calibration erased, the stop record discarded (18 R472), policies as at the factory. -/
def factoryEffect (s : State) : State :=
  modSec (fun k => { k with presencePolicy := 0, rollback := 0, debug := false })
    { s with
      cal := { s.cal with user := [], pendingTrims := [], trimAt := [], writeCount := 0, copyInUse := 0, status := s.cal.status % 2 }
      svc := { s.svc with stopRecord := [], stopDiscarded := true } }

/-- A custodial subcommand completes: its record, its flag, and the presence window closes with the OK. -/
def custodialDone (sub v : Nat) (s : State) : State :=
  report 0x802 (leBytes 1 sub ++ leBytes 3 0 ++ leBytes 8 v) (setFlag offSecEvents 6 (modSec (fun k => { k with presenceOpen := false, windowS := 0 }) s))

/-- Subcommands that waited for the release. -/
def custodialAfter (s : State) : State :=
  (s.commands.filterMap (fun c => match c.work with | .custodial sub v => some (sub, v) | _ => none)).foldl (fun s e =>
    let s := if e.1 = 2 then debugEffect e.2 s else if e.1 = 3 then identityEffect s else if e.1 = 4 then factoryEffect s else s
    finish (.custodial e.1 e.2) ok (custodialDone e.1 e.2 s)) s

/-- Steps 2 to 7. -/
def completeRelease (s : State) : State :=
  let was := s.sec.bound
  let s := redactAll (scrub (destroyKeys (freeAll (cancelAll s))))
  let s := modSec (fun k => { k with bound := false, policy := none, releasing := false, releaseAt := none }) s
  custodialAfter (finish .release ok (if was then setFlag offSecEvents 5 s else s))

/-- Release runs once the departure boundary, if any, is past. -/
def execTenantReleaseRun (s : State) : Host.Outcome State Fault Refusal :=
  .next (if s.sec.releasing ∧ s.sec.releaseAt.all (fun b => decide (b ≤ s.cad.beat)) then completeRelease s else s)

/-- The hold time passes without a key re-release (15 R416). -/
def execHostHoldExpiry (s : State) : Host.Outcome State Fault Refusal :=
  .next (if s.sec.suspended ∧ s.host.holdBeats ≠ 0 ∧ s.host.lostAt + s.host.holdBeats ≤ s.cad.beat then beginRelease s else s)

/-! ### Presence and the seal (13 R369, R370; 20 R491, R500) -/

/-- SEC_STATUS (13 R374). -/
def secStatus (s : State) : Nat :=
  let k := s.sec
  boolNat k.bound + 2 * boolNat k.releasing + 4 * boolNat k.measuring + 8 * boolNat k.purged + 16 * boolNat k.suspended + 32 * boolNat k.debug
    + 64 * boolNat k.sealOk + 128 * boolNat k.sealTripped + 256 * boolNat k.presenceOpen + 512 * k.presencePolicy + 2 ^ 16 * k.windowS

/-- PRESENCE_N was held low for 100 ms with the loop closed. -/
def execPresence (s : State) : Host.Outcome State Fault Refusal :=
  .next (if s.sec.sealOk then setFlag offSecEvents 1 (modSec (fun k => { k with presenceOpen := true, windowS := 30 }) s) else s)

def execPresenceWindowEnd (s : State) : Host.Outcome State Fault Refusal :=
  .next (modSec (fun k => { k with presenceOpen := false, windowS := 0 }) s)

def execSealLoopClose (s : State) : Host.Outcome State Fault Refusal :=
  .next (modSec (fun k => { k with sealOk := true }) s)

/-- A stop that is running closes its record incomplete (14 R382). -/
def cutStop (s : State) : State :=
  if s.sup.st = .stopping ∧ s.sup.stopStage = 1 then
    let n := (stopRuns s).length
    { s with
      sup := { s.sup with stopStage := 2, stopRuns := 0, stopLost := min 0xFFFF n }
      svc := { s.svc with stopRecord := stopRecordBytes [] n s.sec.bootCount (stamp s), stopDiscarded := false } }
  else s

/-- The loop opens: keys go, every command is killed, peers are told the boundary that ends this step, and the release completes from its second step. -/
def openSeal (s : State) : State :=
  let s := cutStop s
  let s := modSec (fun k => { k with sealOk := false, sealTripped := true, presenceOpen := false, windowS := 0 }) s
  let s := report 0x803 (leBytes 4 (secStatus s)) (setFlag offSecEvents 0 s)
  completeRelease (departNow (killLanes s))

def execSealOpen (s : State) : Host.Outcome State Fault Refusal := .next (openSeal s)

/-! ### CUSTODIAL (13 R369, R371) -/

/-- The refusal of a custodial command without presence. -/
def presenceShort (sub : Nat) (s : State) : Bool :=
  !s.sec.presenceOpen || (s.sec.sealTripped && sub != 5) || (s.sec.presencePolicy == 1 && s.sec.bound)

/-- A subcommand: presence, its VALUE's range, then its effect, after tenant release where it is marked so. -/
def custodial (sub limit : Nat) (releases : Bool) (effect : Nat → State → State) (_ : Nat) (p : Packet) (s : State) : State :=
  let v := paramOf p 0x20 8
  if presenceShort sub s then reply p { status := stPRESENCE_REQUIRED } s
  else if limit < v then reply p (bad 0x20) s
  else if releases ∧ s.sec.bound then beginRelease (await (.custodial sub v) (originOf p s) s)
  else reply p ok (custodialDone sub v (effect v s))

def isCustodial (sub : Nat) (p : Packet) : Bool := opcodeOf p == 0x64 && argOf p 20 1 == sub

/-- Subcommand 1; a subcommand outside 1 to 6 is refused here. -/
def rollbackBody (c : Nat) (p : Packet) (s : State) : State :=
  if argOf p 20 1 = 1 then custodial 1 0xFFFFFFFF false (fun v => modSec (fun k => { k with rollback := v })) c p s
  else reply p (bad 0x14) s

def execCustodialRollback (p : Packet) (s : State) : Host.Outcome State Fault Refusal :=
  .next (serve (fun p => opcodeOf p == 0x64 && !decide (2 ≤ argOf p 20 1 ∧ argOf p 20 1 ≤ 6)) never rollbackBody p s)

def execCustodialDebug (p : Packet) (s : State) : Host.Outcome State Fault Refusal :=
  .next (serve (isCustodial 2) never (custodial 2 1 (paramOf p 0x20 8 == 1) debugEffect) p s)

def execIdentityReset (p : Packet) (s : State) : Host.Outcome State Fault Refusal :=
  .next (serve (isCustodial 3) never (custodial 3 0 true (fun _ => identityEffect)) p s)

def execFactoryReturn (p : Packet) (s : State) : Host.Outcome State Fault Refusal :=
  .next (serve (isCustodial 4) never (custodial 4 0 true (fun _ => factoryEffect)) p s)

/-- Subcommand 5 needs the loop closed. -/
def overrideBody (c : Nat) (p : Packet) (s : State) : State :=
  if s.sec.sealOk then custodial 5 0 false (fun _ => modSec (fun k => { k with sealTripped := false })) c p s
  else reply p { status := stPRESENCE_REQUIRED } s

def execSealOverride (p : Packet) (s : State) : Host.Outcome State Fault Refusal :=
  .next (serve (isCustodial 5) never overrideBody p s)

def execPresencePolicy (p : Packet) (s : State) : Host.Outcome State Fault Refusal :=
  .next (serve (isCustodial 6) never (custodial 6 1 false (fun v => modSec (fun k => { k with presencePolicy := v }))) p s)

end Sys2Proof.Machine
end

