-- ==== Sys2Proof/Machine/Firmware.lean ====
section
/-! DEFINITION. Calibration commands (18 R462 to R466; 02 R53, R54), sessions held (15 R415), and firmware staging and activation (15 R410 to R412; 13 R367). -/

namespace Sys2Proof.Machine

/-! ### Calibration -/

def within (lo hi v : Int) : Bool := decide (lo ≤ v ∧ v ≤ hi)

/-- An item of the factory store (18 R464), by its number w. -/
def factoryItem (w : Nat) : Bool :=
  decide (0x100 ≤ w ∧ w < 0x120) || decide (0x200 ≤ w ∧ w < 0x220) || w == 0x300 || decide (0x400 ≤ w ∧ w < 0x41C)
    || w == 0x500 || w == 0x501 || decide (0x600 ≤ w ∧ w < 0x620) || w == 0x700

def cableItem (i : Nat) : Bool := decide (0x10100 ≤ i ∧ i < 0x10120)

/-- Bounds of a user item; none for an item that is no user item. -/
def userBounds (i : Nat) : Option (Int × Int) :=
  if cableItem i then some (-1000, 250000)
  else if i = 0x10300 then some (-50000, 50000)
  else if 0x10400 ≤ i ∧ i < 0x1041C then some (-5000, 5000)
  else if i = 0x10500 then some (-10000, 10000)
  else if i = 0x10501 then some (-20000, 20000)
  else none

/-- Detail of a value out of bounds. -/
def boundDetail (i : Nat) : Nat := if cableItem i then i - 0x10100 else if i = 0x10300 then 0xFFFF else i % 2 ^ 16

/-- A cable trim would put the link's delay above what the active image, or one that is staged, declares (02 R54, 08 R201). -/
def trimTooLong (i : Nat) (v : Int) (s : State) : Bool :=
  let l := i - 0x10100
  let tooFar (img : Image) : Bool := (img.links.find? (fun e => e.link == l)).any (fun e =>
    decide ((e.maxDelay : Int) < calFactory s (itemTx l) + v + (linkAt s l).peerRx + landingPs))
  cableItem i && (s.sched.active.any tooFar || s.sched.staged.any (fun g => tooFar g.img))

/-- A user value is stored in both copies; a trim that must wait keeps its old value in force until then. -/
def storeUser (i : Nat) (v : Int) (s : State) : State :=
  let waits : Bool := (cableItem i && s.sched.active.isSome) || i == 0x10300
  let pend := if waits ∧ (FMap.get? s.cal.pendingTrims i).isNone then FMap.put s.cal.pendingTrims i (calUser s i) else s.cal.pendingTrims
  { s with cal := { s.cal with
    user := if v = 0 then FMap.del s.cal.user i else FMap.put s.cal.user i v
    pendingTrims := pend
    trimAt := match (if cableItem i then landing s else none) with | some b => FMap.put s.cal.trimAt i b | none => s.cal.trimAt
    writeCount := s.cal.writeCount + 1
    copyInUse := 1 - s.cal.copyInUse
    status := s.cal.status % 2 + 2 + 8 * (s.cal.status / 8 % 2) } }

def calWriteBody (verifies : Bool) (_ : Nat) (p : Packet) (s : State) : State :=
  let i := argOf p 20 4
  let v := signedOf 64 (paramOf p 0x20 8)
  if s.commands.any (fun c => match c.work with | .custodial 4 _ => true | _ => false) then reply p (busy 0xFFFF) s
  else match userBounds i with
  | none => reply p (bad 0x14) s
  | some b =>
    if !within b.1 b.2 v then reply p (bad (boundDetail i)) s
    else if trimTooLong i v s then reply p (bad (i - 0x10100)) s
    else if !verifies then reply p (noResource 0x000E) s
    else reply p ok (storeUser i v s)

def execCalUserWrite (p : Packet) (verifies : Bool) (s : State) : Host.Outcome State Fault Refusal :=
  .next (serve (opIs 0x62) never (calWriteBody verifies) p s)

/-- The value CAL_READ returns for an item; none for no item. -/
def calValue (s : State) (i : Nat) : Option Int :=
  if factoryItem i then some (calFactory s i)
  else if (userBounds i).isSome then some (calUser s i)
  else if 0x20100 ≤ i ∧ i < 0x20120 then some (linkAt s (i - 0x20100)).estimate
  else if 0x30000 ≤ i ∧ factoryItem (i - 0x30000) then some (calFactory s (i - 0x30000) + calInForce s (i - 0x20000))
  else none

def calReadBody (_ : Nat) (p : Packet) (s : State) : State :=
  match calValue s (argOf p 20 4) with
  | none => reply p (bad 0x14) s
  | some v => reply p { status := stOK, count0 := signedField 64 v % 2 ^ 32, count1 := signedField 64 v / 2 ^ 32 } s

def execCalRead (p : Packet) (s : State) : Host.Outcome State Fault Refusal :=
  .next (serve (opIs 0x63) never calReadBody p s)

/-! ### Sessions held (15 R415; 13 R367) -/

/-- One session is held: it parks at its GRADE with WAKE 0 once its passes in flight are done. -/
def holdSession (s : State) (slot : Nat) : State :=
  let s := if (opOf s slot (fun o => !o.begun)).isSome then endMoverWork slot { status := stCANCELLED } s else s
  let x := sessionAt s slot
  if x.d.state = 2 ∧ x.job.isSome then
    (if (inFlight s (sessionHandle s slot)).isSome then
      modSession slot (fun x => { x with job := x.job.map (fun j => { j with endWith := some stCANCELLED }) }) s
    else endGeneration slot stCANCELLED 0 true 0 s)
  else if x.d.state = 1 ∧ (opOf s slot (fun o => o.kind == .park)).isNone then parkAfterEnd slot 0 s
  else s

/-- Every session homed here is held, and Mover operations not begun are withdrawn. -/
def holdSessions (s : State) : State :=
  let s := { s with host := { s.host with held := true } }
  let s := (s.slots.table.map (fun e => e.1)).foldl holdSession s
  dropOps (fun o => !o.begun && o.kind != .park) s

/-! ### FW_STAGE (15 R410; 18 R460) -/

/-- The ordered checks of a complete image. -/
def checkFirmware (img : FirmwareImage) (total : Nat) (p : Packet) (s : State) : State :=
  if img.facts.delivered ≠ img.totalBytes ∨ img.totalBytes ≠ total then replyOpen p stBAD_LENGTH s
  else if img.magic ≠ 0x57464E46 ∨ img.version ≠ 1 ∨ !img.zeroOk then replyOpen p stBAD_PARAM s
  else if img.facts.digest ≠ img.facts.trailer then reply p { status := stDIGEST_FAIL } s
  else if !img.signatureOk then reply p { status := stAUTH_FAIL, detail := 0x0010 } s
  else if img.rollback < s.sec.rollback then reply p { status := stAUTH_FAIL, detail := 0x0011 } s
  else reply p ok { s with svc := { s.svc with staged := some img } }

def fwStageBody (obj : FirmwareObject) (_ : Nat) (p : Packet) (s : State) : State :=
  let total := paramOf p 0x28 8
  if 16 * 2 ^ 20 < total then replyOpen p stBAD_LENGTH s
  else match takePiece fwKey 0x20 p s with
  | .refused a s => reply p a s
  | .kept a s => reply p a s
  | .last s => checkFirmware (readFirmware obj) total p s

def execFwStage (p : Packet) (obj : FirmwareObject) (s : State) : Host.Outcome State Fault Refusal :=
  .next (serve (opIs 0x60) never (fwStageBody obj) p s)

/-! ### Activation (15 R411, R412; 13 R366, R367) -/

/-- AT as a step boundary a full step or more away; with no image active, any beat not past (log entry 17). -/
def activateBeat (at_ : Nat) (s : State) : Option Nat :=
  match s.sched.active with
  | none => if at_ = 0 then some s.cad.beat else if s.cad.beat ≤ at_ then some at_ else none
  | some img =>
    if at_ = 0 then some (departureBoundary img s)
    else if img.anchor ≤ at_ ∧ (at_ - img.anchor) % img.stepBeats = 0 ∧ s.cad.beat + img.stepBeats ≤ at_ then some at_
    else none

/-- The staged firmware is not allowed by the tenant's policy. -/
def disallowed (img : FirmwareImage) (s : State) : Bool :=
  s.sec.bound && !(match s.sec.policy with | some q => q.allowList.contains img.facts.trailer | none => false)

/-- The device departs its rings at the activation boundary, and its sessions are held; what is sealed already runs before it. -/
def departFor (at_ : Nat) (s : State) : State :=
  let s := if inRing s then
      send (.departure at_ (ringIds s)) { s with cad := { s.cad with departAt := some at_ } }
    else s
  holdSessions s

def scheduleActivation (p : Packet) (img : FirmwareImage) (s : State) : State :=
  match activateBeat (paramOf p 0x20 8) s with
  | none => reply p (bad 0x20) s
  | some at_ =>
    let s := accept p .activate { s with svc := { s.svc with activateAt := some at_ } }
    if disallowed img s then departFor at_ s else s

/-- AT: recognition stops and the new firmware takes over; quotes answer MEASURING. -/
def execFwTakeover (s : State) : Host.Outcome State Fault Refusal :=
  .next (match s.svc.activateAt, s.svc.staged with
    | some at_, some _ =>
      if s.svc.takenOver ∨ s.cad.beat < at_ then s
      else modSec (fun k => { k with measuring := true }) { s with host := { s.host with stopped := true }, svc := { s.svc with takenOver := true } }
    | _, _ => s)

/-- First 16 bytes of a measurement. -/
def digestHead (n : Nat) (d : Digest) : Bytes := leBytes n (d.toNat % 2 ^ (8 * n))

/-- An FW_ACTIVATE record; its outcome codes are open (log entry 14). -/
def activateRecord (old new : Digest) (s : State) : State :=
  let f := freeValue s
  report 0x004 (digestHead 16 old ++ digestHead 16 new ++ leBytes 4 (f.1 % 2 ^ 32)) f.2

/-- Keys of the old firmware's tenancy go where the policy does not allow the new one. -/
def purgeKeys (s : State) : State :=
  keysRecord 0 (setFlag offSecEvents 4 (modSec (fun k => { k with weightKeys := [], weightSecrets := [], payloadKeys := [], purged := true }) s))

/-- The slot that boots from now on. -/
def runFirmware (img : FirmwareImage) (s : State) : State :=
  let other := 1 - s.svc.running
  modSec (fun k => { k with fwRollback := img.rollback }) { s with
    svc := { s.svc with running := other, slots := FMap.put s.svc.slots other ⟨img.fwVersion, img.rollback, img.facts.trailer⟩
                        staged := none, activateAt := none, takenOver := false }
    secw := { s.secw with fwMeasurement := img.facts.trailer, decap := [] }
    mgmt := { s.mgmt with fwVersion := img.fwVersion }
    host := { s.host with stopped := s.host.lost } }

/-- The new firmware resumes recognition within 150 beats of AT. -/
def execFwResume (s : State) : Host.Outcome State Fault Refusal :=
  .next (match s.svc.activateAt, s.svc.staged with
    | some at_, some img =>
      if !s.svc.takenOver ∨ at_ + 150 < s.cad.beat then s
      else
        let old := s.secw.fwMeasurement
        let bars := disallowed img s
        let s := activateRecord old img.facts.trailer (runFirmware img s)
        finish .activate ok (if bars then purgeKeys s else s)
    | _, _ => s)

/-- An INTERNAL record (17 R450); the firmware location is open (log entry 14). -/
def internalRecord (opcode : Nat) (s : State) : State :=
  let f := freeValue s
  report 0x005 (leBytes 1 opcode ++ leBytes 3 0 ++ leBytes 8 (f.1 % 2 ^ 64)) f.2

/-- 150 beats after AT the security unit restarts the previous firmware, which discards the staged image. -/
def execFwActivateTimeout (s : State) : Host.Outcome State Fault Refusal :=
  .next (match s.svc.activateAt, s.svc.staged with
    | some at_, some img =>
      if !s.svc.takenOver ∨ s.cad.beat < at_ + 150 then s
      else
        let s := { s with
          svc := { s.svc with staged := none, activateAt := none, takenOver := false }
          host := { s.host with stopped := s.host.lost, held := s.sec.suspended } }
        let s := internalRecord 0x61 (activateRecord s.secw.fwMeasurement img.facts.trailer s)
        finish .activate { status := stINTERNAL, detail := 0x005 } s
    | _, _ => s)

end Sys2Proof.Machine
end

