-- ==== Sys2Proof/Machine/Wire.lean ====
section
/-! DEFINITION. Link frames as bytes on the wire (12 R321), little-endian (00 R7). -/

namespace Sys2Proof.Machine

/-- The header of a frame up to its HCRC. -/
def frameHead (f : LinkFrame) : Bytes :=
  leBytes 1 f.cls ++ leBytes 1 f.type ++ leBytes 2 f.len ++ leBytes 4 f.linkSeq ++ leBytes 4 f.step ++ leBytes 2 f.id ++ leBytes 2 f.frame
    ++ leBytes 1 f.run ++ leBytes 1 f.flags ++ leBytes 2 f.src ++ leBytes 2 f.dst ++ [0, 0] ++ leBytes 4 f.epoch

/-- Payload bytes of a frame, LEN of them. -/
def framePayloadBytes (f : LinkFrame) : Bytes := (f.payload ++ List.replicate (f.len - f.payload.length) 0).take f.len

/-- A frame on the wire: header with HCRC, payload, its CRC-32C, zeros to a multiple of 8 bytes. -/
def frameBytes (f : LinkFrame) : Bytes :=
  let p := framePayloadBytes f
  frameHead f ++ leBytes 4 (crc32c (frameHead f)) ++ p ++ leBytes 4 (crc32c p) ++ List.replicate (ceilDiv (f.len + 4) 8 * 8 - (f.len + 4)) 0

/-- A frame read from the wire, with what its two CRCs show. -/
def readFrame (b : Bytes) : LinkFrame :=
  let p := (b.drop 32).take (fieldAt b 2 2)
  { cls := fieldAt b 0 1, type := fieldAt b 1 1, len := fieldAt b 2 2, linkSeq := fieldAt b 4 4, step := fieldAt b 8 4, id := fieldAt b 12 2
    frame := fieldAt b 14 2, run := fieldAt b 16 1, flags := fieldAt b 17 1, src := fieldAt b 18 2 % 4096, dst := fieldAt b 20 2 % 4096
    epoch := fieldAt b 24 4, hcrcOk := fieldAt b 28 4 == crc32c (b.take 28), pcrcOk := fieldAt b (32 + fieldAt b 2 2) 4 == crc32c p, payload := p }

end Sys2Proof.Machine
end

