-- ==== Sys2Proof/Machine/Links.lean ====
section
/-! DEFINITION. Link ports: training, lanes, retries, routes, gates, shapers, credits (12 R317 to R334; 02 R55 to R58; 15 R409; 18 R469). -/

namespace Sys2Proof.Machine

/-! ### States of a link (12 R318) -/

def linkCode : LinkState → Nat
  | .down => 0 | .training => 1 | .up => 2 | .retrain => 3 | .half => 4 | .lost => 5

/-- A link changes state: LANES_OK and the record of it. -/
def enterLink (l : Nat) (st : LinkState) (lanes : Nat) (s : State) : State :=
  let old := linkAt s l
  let s := modLink l (fun x => { x with st := st, lanes := lanes, widenAt := none }) s
  report 0x700 (unitField 3 l ++ leBytes 1 (linkCode old.st) ++ leBytes 1 (linkCode st) ++ leBytes 1 lanes ++ [0]) s

def flowAt (s : State) (l : Nat) : LinkFlow := FMap.getD s.links.flow l {}

def putFlow (l : Nat) (f : LinkFlow) (s : State) : State := { s with links := { s.links with flow := FMap.put s.links.flow l f } }

def modFlow (l : Nat) (f : LinkFlow → LinkFlow) (s : State) : State := putFlow l (f (flowAt s l)) s

/-- A control word waits for the next frame boundary. -/
def queueWord (l : Nat) (w : ControlWord) (s : State) : State := modFlow l (fun f => { f with words := f.words ++ [w] }) s

/-! ### Routes (12 R334) -/

/-- Hops both ends list: device, its link, the device it leads to. -/
def mapEdges (m : CompMap) : List (Nat × Nat × Nat) :=
  (m.devices.map (fun d =>
    (d.links.zipIdx.filter (fun e =>
      m.devices.any (fun p => p.index == e.1.1 && decide ((p.links.getD e.1.2 (0xFFFF, 0)) = (d.index, e.2))))).map (fun e => (d.index, e.2, e.1.1)))).flatten

/-- Breadth-first distances over some hops. -/
def distances (hops : List (Nat × Nat)) : Nat → Nat → List Nat → FMap Nat → FMap Nat
  | 0, _, _, seen => seen
  | fuel + 1, n, front, seen =>
    let seen := front.foldl (fun m v => FMap.put m v n) seen
    let next := ((hops.filter (fun h => front.contains h.1 && (FMap.get? seen h.2).isNone)).map (fun h => h.2)).eraseDups
    if next.isEmpty then seen else distances hops fuel (n + 1) next seen

/-- Hop distances from ROOT. -/
def mapLevels (m : CompMap) : FMap Nat :=
  distances ((mapEdges m).map (fun e => (e.1, e.2.2))) (m.devices.length + 1) 0 [m.root] []

/-- A hop is up when it leads to a lower level, or to the same level and a lower index. -/
def isUpHop (lv : FMap Nat) (a b : Nat) : Bool :=
  let x := FMap.getD lv a 0xFFFF
  let y := FMap.getD lv b 0xFFFF
  decide (y < x) || (y == x && decide (b < a))

/-- Moves of a route: twice a device, plus one once a down hop has been taken. -/
def routeMoves (m : CompMap) (shut : Nat → Nat → Bool) : List (Nat × Nat × Nat) :=
  let lv := mapLevels m
  (((mapEdges m).filter (fun e => !shut e.1 e.2.1)).map (fun e =>
    if isUpHop lv e.1 e.2.2 then [(2 * e.1, e.2.1, 2 * e.2.2)]
    else [(2 * e.1, e.2.1, 2 * e.2.2 + 1), (2 * e.1 + 1, e.2.1, 2 * e.2.2 + 1)])).flatten

/-- The first move of the shortest route from a node to a device, ties to the lowest link. -/
def nextMove (moves : List (Nat × Nat × Nat)) (size dst node : Nat) : Option (Nat × Nat) :=
  let d := distances (moves.map (fun e => (e.2.2, e.1))) (2 * size + 2) 0 [2 * dst, 2 * dst + 1] []
  let here := FMap.getD d node 0
  let good := moves.filter (fun e => e.1 == node && FMap.get? d e.2.2 == some (here - 1) && decide (0 < here))
  match good.foldl (fun (b : Option (Nat × Nat)) e => match b with | some x => if x.1 ≤ e.2.1 then b else some (e.2.1, e.2.2) | none => some (e.2.1, e.2.2)) none with
  | some x => some x
  | none => none

/-- Follows the route from a node until it stands at a device; the node it stands on there. -/
def routeNode (moves : List (Nat × Nat × Nat)) (size dst own : Nat) : Nat → Nat → Option Nat
  | 0, _ => none
  | fuel + 1, node =>
    if node / 2 = own then some node
    else match nextMove moves size dst node with
      | none => none
      | some x => routeNode moves size dst own fuel x.2

/-- A link counted as lost for routes. -/
def routeLost (s : State) (l : Nat) : Bool :=
  let x := linkAt s l
  !(x.st == .up || x.st == .half || x.st == .retrain) || !x.mapOk || !x.peerOk

/-- The link on which a frame from one device to another leaves this one: the next hop of the map's route, recomputed from here without lost links when that hop is lost. -/
def nextHop (s : State) (src dst : Nat) : Option Nat :=
  match s.comp.map with
  | none => none
  | some m =>
    let n := m.devices.length
    let own := ownIndex s
    let free := routeMoves m (fun _ _ => false)
    let node := (routeNode free n dst own (n + 1) (2 * src)).getD (2 * own)
    match nextMove free n dst node with
    | some x =>
      if !routeLost s x.1 then some x.1
      else (nextMove (routeMoves m (fun a l => a == own && routeLost s l)) n dst (2 * own)).map (fun y => y.1)
    | none => none

/-! ### Receiving (12 R320 to R323, R331; 02 R58) -/

/-- The receiver gives a hop credit back when a frame leaves its buffer. -/
def returnCredit (l cls : Nat) (s : State) : State :=
  if cls = 2 then queueWord l (.credit 1 0 0) s
  else if cls = 1 then queueWord l (.credit 0 1 0) s
  else if cls = 3 then queueWord l (.credit 0 0 1) s
  else s

/-- A frame waits for a link, at the end of its class. -/
def queueFrame (l : Nat) (q : Queued) (s : State) : State :=
  modFlow l (fun f =>
    if q.frame.cls = 0 then { f with sched := f.sched ++ [q] }
    else if q.frame.cls = 1 then { f with migr := f.migr ++ [q] }
    else if q.frame.cls = 2 then { f with ctrl := f.ctrl ++ [q] }
    else { f with bulk := f.bulk ++ [q] }) s

/-- The link of a SCHED relay: the image's relay-out entry of the same transfer. -/
def relayLink (s : State) (id : Nat) : Option Nat :=
  s.sched.active.bind (fun img => (img.transfers.find? (fun t => t.id == id && t.dir == 3)).map (fun t => t.link))

/-- A frame that is not for this device goes on, or is discarded for want of a route. -/
def forwardFrame (l : Nat) (f : LinkFrame) (s : State) : State :=
  match (if f.cls = 0 then relayLink s f.id else nextHop s f.src f.dst) with
  | some out => queueFrame out ⟨f, some l⟩ s
  | none => returnCredit l f.cls (setFlag (offLnkEvents l) 8 s)

/-- Beats that slips of a partition had added in a notice's step before its own. -/
def slipBefore (l : List Notice) (n : Notice) : Nat :=
  (l.filter (fun m => (m.kind == 1 || m.kind == 2) && m.partition == n.partition && m.step == n.step && decide (m.e < n.e))).foldl (fun k m => k + m.delta) 0

/-- A notice kills the run that a frame's tag names (01 R28): a SLIP of its sender for the slot that launches the transfer, which ends at the notice's E; an ABORT of the collective slot; a DEFER of the microbatch, whatever the run. -/
def noticeKills (img : Image) (all : List Notice) (f : LinkFrame) (t : Transfer) (x : SlotEntry) (n : Notice) : Bool :=
  let launch := stepStart img n.step + t.launchBeat + slipBefore all n
  n.partition == x.partition && n.microbatch == x.microbatch && n.step % 2 ^ 32 == f.step
    && (n.kind == 3 || (n.run == f.run
      && ((n.kind == 1 && n.source == f.src && decide (launch ≤ n.e ∧ n.e ≤ launch + n.delta)) || (n.kind == 2 && n.slotId == t.slotId))))

/-- The run a SCHED frame's tag names was killed, in this step or, for a frame that crosses the boundary, in the one before. -/
def killedRun (s : State) (f : LinkFrame) : Bool :=
  let all := s.sched.noticesLast ++ s.sched.notices
  match transferImage s f.id with
  | none => false
  | some img =>
    match img.transfers.find? (fun t => t.id == f.id) with
    | none => false
    | some t => (slotById img t.slotId).any (fun x => all.any (noticeKills img all f t x))

/-- The payload of a SCHED frame lands in the region of its transfer (02 R52, 12 R322); a frame of the step before belongs to that step's regions. -/
def landPayload (f : LinkFrame) (s : State) : State :=
  match (transferImage s f.id).bind (fun img => img.transfers.find? (fun t => t.id == f.id && t.dir == 1)) with
  | none => s
  | some t => writeRegion (f.step != s.sched.step % 2 ^ 32) t.region (4096 * f.frame) f.payload s

/-- The payload of a SCHED frame that leaves here: what the command has written into it while its slot has not committed, the region of its transfer from the commit point on (01 R27); a relayed frame keeps its own. -/
def framePayload (s : State) (f : LinkFrame) : Bytes :=
  match (if f.cls = 0 then (transferImage s f.id).bind (fun img => img.transfers.find? (fun t => t.id == f.id && t.dir == 0)) else none) with
  | none => f.payload
  | some t =>
    match (if slotCommitted t.slotId s then transferImage s f.id else none) with
    | some img => readRegion img (t.launchBeat * 4096 + t.launchPhase) t.region (4096 * f.frame) f.len s
    | none => f.payload

/-- A SCHED frame lands: its slack against the consume instant, in phase units. -/
def landSched (l : Nat) (f : LinkFrame) (slack : Int) (s : State) : State :=
  let s := landPayload f s
  let s := modLink l (fun x => match x.slackNow with
    | some (v, _) => if slack < v then { x with slackNow := some (slack, f.id) } else x
    | none => { x with slackNow := some (slack, f.id) }) s
  if 0 < slack ∧ slack < 0x20 then setFlag offCadEvents 8 (setFlag (offLnkEvents l) 5 s) else s

/-- The epoch table of R337 applied to a frame would answer STALE_EPOCH. -/
def staleFrame (s : State) (f : LinkFrame) : Bool :=
  let grace := match s.comp.graceUntil with | some g => decide (s.cad.beat < g) | none => false
  (f.cls == 1 || f.cls == 3 || (f.cls == 2 && f.type != 1 && f.type != 2))
    && decide (f.epoch < s.comp.epoch) && !(f.epoch == s.comp.previous && grace)

/-- A frame that passed its checks. -/
def takeFrameIn (l : Nat) (f : LinkFrame) (slack : Int) (s : State) : State :=
  let s := queueWord l (.ack f.linkSeq) (modLink l (fun x => { x with expected := (x.expected + 1) % 2 ^ 32, nakOut := false }) s)
  if f.dst ≠ ownIndex s then forwardFrame l f s
  else if f.cls = 0 then (if killedRun s f then s else landSched l f slack s)
  else returnCredit l f.cls (if staleFrame s f then setFlag (offLnkEvents l) 6 s else s)

/-- A received frame: its CRCs and sequence first; a gap is told once until the missing frame arrives, a frame seen before is dropped. -/
def execFrameReceive (link : Nat) (bytes : Bytes) (consumeSlack : Int) (corrected uncorrectable : Nat) (s : State) : Host.Outcome State Fault Refusal :=
  let x := linkAt s link
  let f := readFrame bytes
  if !linkUp s link then .next s
  else
    let s := modLink link (fun x => { x with fecCorrected := corrected, fecUncorrectable := satAdd 0xFFFFFFFF x.fecUncorrectable uncorrectable }) s
    let nak := queueWord link (.nak x.expected) (modLink link (fun x => { x with nakOut := true }) s)
    .next (
      if !f.hcrcOk then nak
      else if f.linkSeq = x.expected then (if f.pcrcOk then takeFrameIn link f consumeSlack s else nak)
      else if (f.linkSeq + 2 ^ 32 - x.expected) % 2 ^ 32 < 2 ^ 31 then (if x.nakOut then s else nak)
      else s)

/-! ### Lanes (12 R318, R319; 15 R409) -/

def lanePair (lanes : Nat) : Nat := if lanes % 4 = 3 then 3 else if lanes / 4 % 4 = 3 then 12 else 0

def withoutLane (lanes lane : Nat) : Nat := (List.range 4).foldl (fun n i => if i ≠ lane ∧ bitOf lanes i then n + 2 ^ i else n) 0

/-- Frames waiting for a lost link find another route, or are discarded (12 R334). -/
def reroute (l : Nat) (s : State) : State :=
  let f := flowAt s l
  let s := putFlow l { f with migr := [], ctrl := [], bulk := [], words := [], resend := [] } s
  (f.ctrl ++ f.migr ++ f.bulk).foldl (fun s q =>
    match nextHop s (if q.via.isSome then q.frame.src else ownIndex s) q.frame.dst with
    | some out => queueFrame out q s
    | none =>
      let s := setFlag (offLnkEvents l) 8 s
      match q.via with | some v => returnCredit v q.frame.cls s | none => s) s

/-- A link becomes LOST: its LINK_LOST plan, or departure. -/
def loseLink (l : Nat) (s : State) : State :=
  linkDegraded 2 l (reroute l (setFlag (offLnkEvents l) 1 (enterLink l .lost 0 s)))

/-- A lane fails: a four-lane link retrains on the other pair; a link of that pair alone is lost. -/
def failLane (l lane : Nat) (s : State) : State :=
  let x := linkAt s l
  if x.st = .up then linkDegraded 1 l (enterLink l .retrain (withoutLane x.lanes lane) (setFlag (offLnkEvents l) 0 s))
  else if x.st = .half ∧ bitOf x.lanes lane then loseLink l (setFlag (offLnkEvents l) 0 s)
  else if x.st = .half ∨ x.st = .retrain then
    modLink l (fun x => { x with widenAt := none, lanes := withoutLane x.lanes lane }) (setFlag (offLnkEvents l) 0 s)
  else s

def execLaneFail (link lane : Nat) (s : State) : Host.Outcome State Fault Refusal :=
  .next (if linkUp s link ∨ (linkAt s link).st = .retrain then failLane link lane (queueWord link (.laneFailed lane) s) else s)

/-- The pair without the failed lane aligns within 256 beats; the replay buffer resends. -/
def execRetrainDone (link : Nat) (s : State) : Host.Outcome State Fault Refusal :=
  let x := linkAt s link
  .next (if x.st = .retrain ∧ lanePair x.lanes ≠ 0 then
      modFlow link (fun f => { f with resend := x.replay }) (enterLink link .half (lanePair x.lanes) s)
    else s)

def execRetrainTimeout (link : Nat) (s : State) : Host.Outcome State Fault Refusal :=
  .next (if (linkAt s link).st = .retrain then loseLink link s else s)

/-- The idle pair of a HALF link is retrained in the background; nothing changes until it aligns (15 R409). -/
def execHalfRetrain (_ : Nat) (s : State) : Host.Outcome State Fault Refusal := .next s

/-- The link runs on four lanes again. -/
def widenLink (l : Nat) (s : State) : State := setFlag (offLnkEvents l) 9 (enterLink l .up 15 s)

/-- The revert FALLBACK of a link's plan, and its boundary. -/
def revertPlan (kind l : Nat) (img : Image) (s : State) : State :=
  match planFor kind l 0 img with
  | some f => if s.sched.applied.contains f.planId ∨ s.sched.fallbacks.any (fun d => d.planId == f.planId && !d.revert) then
      sendFallback f.planId (boundaryAfter img img.fallbackLead s) true s else s
  | none => s

/-- The idle pair has aligned and shown no failure for 1,024 beats: the link widens at the boundary of the revert notice, at once while no image is active. -/
def execLaneRepairDone (link : Nat) (s : State) : Host.Outcome State Fault Refusal :=
  let x := linkAt s link
  .next (if x.st = .half ∧ x.fencedLanes = [] ∧ x.widenAt = none then
      match s.sched.base with
      | none => widenLink link s
      | some img => revertPlan 1 link img (modLink link (fun x => { x with widenAt := some (boundaryAfter img img.fallbackLead s) }) s)
    else s)

/-! ### Training (12 R318, R331; 02 R55; 13 R365) -/

def execLinkSignalDetect (link : Nat) (s : State) : Host.Outcome State Fault Refusal :=
  let x := linkAt s link
  .next (if x.st = .down ∨ x.st = .lost then enterLink link .training 0 s else s)

def execLinkTrainRetry (link : Nat) (s : State) : Host.Outcome State Fault Refusal :=
  .next (if (linkAt s link).st = .down then enterLink link .training 0 s else s)

def execTrainFail (link : Nat) (s : State) : Host.Outcome State Fault Refusal :=
  .next (if (linkAt s link).st = .training then setFlag (offLnkEvents link) 2 (enterLink link .down 0 s) else s)

/-- The one-way estimate in picoseconds. -/
def oneWay (s : State) (l : Nat) (r : TrainResult) : Int :=
  (r.roundTrip - calFactory s (itemTx l) - r.peerTx - calFactory s (itemRx l) - r.peerRx - 2 * landingPs) / 2

/-- What the two ends exchanged is kept; credits, sequences and buffers start anew. -/
def exchange (l : Nat) (r : TrainResult) (s : State) : State :=
  let s := modLink l (fun x => { x with
    peer := r.peer, peerLink := r.peerLink, mapOk := r.mapDigestAgrees, peerOk := r.peerTrusted
    peerTx := r.peerTx, peerRx := r.peerRx, peerTrim := r.peerTrim, estimate := oneWay s l r
    expected := 0, nextSeq := 0, replay := [], nakOut := false }) s
  let s := modFlow l (fun f => { f with
    ctrlCredit := 64, migrCredit := 192, bulkCredit := 128, ctrlShaper := 0, migrShaper := 0
    ctrlAt := nowPhase s, migrAt := nowPhase s, words := [], resend := [], nakRun := 0 }) s
  let own := calUser s (itemTrim l)
  let s := if 1000 < (own - r.peerTrim).natAbs then
    report 0x102 (unitField 3 l ++ leBytes 4 (signedField 32 own) ++ leBytes 4 (signedField 32 r.peerTrim)) s else s
  if r.mapDigestAgrees ∧ r.peerTrusted then s else mapMismatch l s

/-- Lanes aligned and identities exchanged within 4,096 beats; a link that returns to four lanes reverts its plans (08 R216). -/
def execTrainingComplete (link : Nat) (r : TrainResult) (s : State) : Host.Outcome State Fault Refusal :=
  if (linkAt s link).st ≠ .training then .next s
  else if r.lanes % 16 = 15 then
    let s := exchange link r (enterLink link .up 15 s)
    .next (match s.sched.base with
      | some img => revertPlan 2 link img (revertPlan 1 link img s)
      | none => s)
  else if lanePair r.lanes ≠ 0 then .next (exchange link r (enterLink link .half (lanePair r.lanes) s))
  else .next s

/-- No control word for 64 beats while UP or HALF (18 R469). -/
def execLinkPortReset (link : Nat) (s : State) : Host.Outcome State Fault Refusal :=
  .next (if linkUp s link then enterLink link .down 0 s else s)

/-! ### Control words (12 R320, R331) -/

/-- The next eight NAKs of a frame count as a failure of the lane with the most corrected symbols. -/
def takeNak (l seq worstLane : Nat) (s : State) : State :=
  let f := flowAt s l
  let run := if f.nakSeq = seq ∧ f.nakRun ≠ 0 then f.nakRun + 1 else 1
  let back := (linkAt s l).replay.filter (fun g => decide ((g.linkSeq + 2 ^ 32 - seq) % 2 ^ 32 < 2 ^ 31))
  let s := putFlow l { f with nakSeq := seq, nakRun := run, resend := back } s
  if run = 8 then failLane l worstLane (queueWord l (.laneFailed worstLane) (modFlow l (fun f => { f with nakRun := 0 }) s)) else s

/-- An acknowledged frame is no longer NAKed in a row. -/
def takeAck (l seq : Nat) (s : State) : State :=
  modFlow l (fun f => if f.nakSeq = seq then { f with nakRun := 0 } else f) s

def addCredit (ctrl migr bulk : Nat) (f : LinkFlow) : LinkFlow :=
  { f with ctrlCredit := min 64 (f.ctrlCredit + ctrl), migrCredit := min 192 (f.migrCredit + migr), bulkCredit := min 128 (f.bulkCredit + bulk) }

def execControlWord (link : Nat) (w : ControlWord) (worstLane : Nat) (s : State) : Host.Outcome State Fault Refusal :=
  .next (if linkUp s link then
      match w with
      | .ack seq => takeAck link seq s
      | .nak seq => takeNak link seq worstLane s
      | .credit c m b => modFlow link (addCredit c m b) s
      | .laneFailed lane => failLane link lane s
    else s)

/-! ### Transmitting (12 R324 to R329) -/

/-- A span of phase units in which something is open, with the partition of a SCHED window and whether it carries ALT relays. -/
structure Window where
  from_ : Nat
  till : Nat
  gates : Nat
  partition : Nat
  deriving DecidableEq, Repr

/-- Gate entries of one step as spans, from the step's first phase unit. -/
def gateSpans (base stepUnits : Nat) : List GateEntry → List Window
  | [] => []
  | [g] => [⟨base + g.beat * 4096 + g.phase, base + stepUnits, g.gates, g.partition⟩]
  | g :: h :: rest => ⟨base + g.beat * 4096 + g.phase, base + h.beat * 4096 + h.phase, g.gates, g.partition⟩ :: gateSpans base stepUnits (h :: rest)

/-- The gate entries that hold on a link; one entry with MIGR, CTRL and BULK open where the image names no list (12 R328). -/
def gatesOf (s : State) (l : Nat) : List GateEntry :=
  match s.sched.active.bind (fun img => img.links.find? (fun e => e.link == l)) with
  | some e => if e.gates.isEmpty then [⟨0, 0, 14, 0xFF⟩] else e.gates
  | none => [⟨0, 0, 14, 0xFF⟩]

/-- The spans of this step and the next, the SCHED windows of this one shifted by the slips of their partition before them (12 R326, 08 R207). -/
def linkSpans (s : State) (l : Nat) : List Window × List Window :=
  match s.sched.active with
  | none => ([⟨0, 2 ^ 80, 14, 0xFF⟩], [])
  | some img =>
    let units := img.stepBeats * 4096
    let b := stepStart img s.sched.step * 4096
    let now := gateSpans b units (gatesOf s l)
    let next := gateSpans (b + units) units (gatesOf s l)
    let by_ (w : Window) : Nat := startSlip s img w.partition ((w.from_ - b) / 4096) * 4096
    let shift (w : Window) : Window := { w with from_ := w.from_ + by_ w, till := w.till + by_ w }
    let isSched (w : Window) : Bool := bitOf w.gates 0
    (now ++ next, (now.filter isSched).map shift ++ next.filter isSched)

/-- Whether the gate of MIGR (bit 1), CTRL (2) or BULK (3) is open at an instant. -/
def gateOpen (sp : List Window × List Window) (bit t : Nat) : Bool :=
  !sp.2.any (fun w => decide (w.from_ ≤ t ∧ t < w.till)) && sp.1.any (fun w => decide (w.from_ ≤ t ∧ t < w.till) && bitOf w.gates bit)

/-- Instants at which some gate may change, after one instant. -/
def gateEdges (sp : List Window × List Window) (t : Nat) : List Nat :=
  (((sp.1 ++ sp.2).map (fun w => [w.from_, w.till])).flatten.filter (fun e => decide (t < e))).mergeSort (fun a b => decide (a ≤ b))

/-- The next instant at which a class's gate closes. -/
def gateCloses (sp : List Window × List Window) (bit t : Nat) : Nat :=
  ((gateEdges sp t).find? (fun e => !gateOpen sp bit e)).getD (2 ^ 80)

/-- Phase units between two instants during which a class's gate is open. -/
def openUnits (sp : List Window × List Window) (bit a b : Nat) : Nat :=
  let cuts := a :: ((gateEdges sp a).filter (fun e => decide (e < b))).eraseDups
  ((cuts.zip (cuts.drop 1 ++ [b])).filter (fun p => gateOpen sp bit p.1)).foldl (fun n p => n + (p.2 - p.1)) 0

/-- The port rate in bytes per beat (12 R329). -/
def portRate (s : State) (l : Nat) : Nat := if (linkAt s l).st = .half then beatPs s / 20 else beatPs s / 10

/-- Occupancy of a frame in phase units (12 R317). -/
def occupancy (s : State) (l len : Nat) : Nat := phaseUnits s (serialPs ((linkAt s l).st == .half) len)

/-- A shaper: idle slope in bytes per beat, bounds in bytes. -/
structure Shaper where
  idle : Nat
  hi : Int
  lo : Int
  deriving DecidableEq, Repr

/-- The shaper of CTRL or MIGR on a link, with its slope no greater than the port rate. -/
def shaperOf (s : State) (l : Nat) (ctrl : Bool) : Shaper :=
  let r := portRate s l
  match s.sched.active.bind (fun img => img.links.find? (fun e => e.link == l)) with
  | some e => if ctrl then ⟨min r e.ctrlIdle, e.ctrlHi, e.ctrlLo⟩ else ⟨min r e.migrIdle, e.migrHi, e.migrLo⟩
  | none => if ctrl then ⟨min r 8192, 65536, -65536⟩ else ⟨min r 50000, 65536, -65536⟩

def clampCredit (sh : Shaper) (c : Int) : Int := max (sh.lo * 4096) (min (sh.hi * 4096) c)

/-- Credit gained by waiting: towards 0 with an empty queue, to HI with frames waiting. -/
def gainCredit (sh : Shaper) (waiting : Bool) (units : Nat) (c : Int) : Int :=
  let g := clampCredit sh (c + (units * sh.idle : Nat))
  if waiting then g else min (max c 0) g

/-- Brings both shapers of a link up to an instant. -/
def runShapers (l t : Nat) (sp : List Window × List Window) (s : State) (f : LinkFlow) : LinkFlow :=
  let f := if f.ctrlAt < t then
    { f with ctrlShaper := gainCredit (shaperOf s l true) (!f.ctrl.isEmpty) (openUnits sp 2 f.ctrlAt t) f.ctrlShaper, ctrlAt := t } else f
  if f.migrAt < t then
    { f with migrShaper := gainCredit (shaperOf s l false) (!f.migr.isEmpty) (openUnits sp 1 f.migrAt t) f.migrShaper, migrAt := t } else f

/-- What a link whose digests or peer disagree still carries (12 R336). -/
def linkCarries (s : State) (l : Nat) (f : LinkFrame) : Bool :=
  ((linkAt s l).mapOk && (linkAt s l).peerOk) || f.cls == 0 || (f.cls == 2 && decide (f.type ≤ 5))

/-- The partition of a SCHED frame's transfer. -/
def framePartition (s : State) (f : LinkFrame) : Option Nat :=
  s.sched.active.bind (fun img => (img.transfers.find? (fun t => t.id == f.id)).bind (fun t => (slotById img t.slotId).map (fun x => x.partition)))

/-- The end of the SCHED window open for a frame now. -/
def schedWindow (s : State) (sp : List Window × List Window) (f : LinkFrame) (t : Nat) : Option Nat :=
  (sp.2.find? (fun w => decide (w.from_ ≤ t ∧ t < w.till)
    && (if bitOf f.flags 1 then bitOf w.gates 4 else framePartition s f == some w.partition))).map (fun w => w.till)

/-- The class of the frame that may start at an instant: SCHED 0, CTRL 2, MIGR 1, BULK 3, in that order. -/
def chooseClass (s : State) (l t : Nat) (sp : List Window × List Window) (f : LinkFlow) : Option Nat :=
  let fits (q : Queued) (close : Nat) : Bool := decide (t + occupancy s l q.frame.len ≤ close) && linkCarries s l q.frame
  let inWindow := sp.2.find? (fun w => decide (w.from_ ≤ t ∧ t < w.till))
  let sched : Bool := match f.sched with | q :: _ => (schedWindow s sp q.frame t).any (fits q) | [] => false
  let ctrl : Bool := match f.ctrl with
    | q :: _ => decide (0 ≤ f.ctrlShaper) && decide (0 < f.ctrlCredit) &&
        (match inWindow with
          | some w => decide (16 ≤ f.schedRun) && decide (q.frame.len ≤ 256) && fits q w.till
          | none => gateOpen sp 2 t && fits q (gateCloses sp 2 t))
    | [] => false
  let migr : Bool := match f.migr with
    | q :: _ => decide (0 ≤ f.migrShaper) && decide (0 < f.migrCredit) && gateOpen sp 1 t && fits q (gateCloses sp 1 t)
    | [] => false
  let bulk : Bool := match f.bulk with
    | q :: _ => decide (0 < f.bulkCredit) && gateOpen sp 3 t && fits q (gateCloses sp 3 t)
    | [] => false
  if inWindow.isSome ∧ 16 ≤ f.schedRun ∧ ctrl then some 2
  else if sched then some 0 else if ctrl then some 2 else if migr then some 1 else if bulk then some 3 else none

/-- Credit lost by sending for some units. -/
def spendCredit (s : State) (l : Nat) (sh : Shaper) (occ : Nat) (empties : Bool) (c : Int) : Int :=
  let v := clampCredit sh (c + (occ : Int) * ((sh.idle : Int) - (portRate s l : Int)))
  if empties ∧ 0 < v then 0 else v

/-- A frame leaves: its LINK_SEQ, the replay buffer of the last 64 frames, the credit its class spends, the byte counters. -/
def sendQueued (l t cls : Nat) (q : Queued) (s : State) : State :=
  let x := linkAt s l
  let g := { q.frame with linkSeq := x.nextSeq }
  let occ := occupancy s l g.len
  let s := modLink l (fun x => { x with nextSeq := (x.nextSeq + 1) % 2 ^ 32, replay := (x.replay ++ [g]).drop (x.replay.length + 1 - 64) }) s
  let f := flowAt s l
  let f := { f with busyUntil := t + occ, schedRun := if cls = 0 then f.schedRun + 1 else 0 }
  let big := 2 ^ 64 - 1
  let f := match cls with
    | 0 => { f with sched := f.sched.drop 1, schedBytes := satAdd big f.schedBytes g.len }
    | 1 => { f with migr := f.migr.drop 1, migrBytes := satAdd big f.migrBytes g.len, migrCredit := f.migrCredit - 1, migrAt := t + occ
                    migrShaper := spendCredit s l (shaperOf s l false) occ (decide (f.migr.length ≤ 1)) f.migrShaper }
    | 2 => { f with ctrl := f.ctrl.drop 1, ctrlBytes := satAdd big f.ctrlBytes g.len, ctrlCredit := f.ctrlCredit - 1, ctrlAt := t + occ
                    ctrlShaper := spendCredit s l (shaperOf s l true) occ (decide (f.ctrl.length ≤ 1)) f.ctrlShaper }
    | _ => { f with bulk := f.bulk.drop 1, bulkBytes := satAdd big f.bulkBytes g.len, bulkCredit := f.bulkCredit - 1 }
  let s := send (.frame l (frameBytes g)) (putFlow l f s)
  match q.via with | some v => returnCredit v cls s | none => s

/-- A resent frame leaves with the LINK_SEQ it had. -/
def resendFrame (l t : Nat) (g : LinkFrame) (s : State) : State :=
  let s := modLink l (fun x => { x with retry := satAdd (2 ^ 64 - 1) x.retry 1 }) s
  let s := modFlow l (fun f => { f with resend := f.resend.drop 1, busyUntil := t + occupancy s l g.len }) s
  send (.frame l (frameBytes g)) (setFlag (offLnkEvents l) 3 s)

/-- A link is degraded or lost and the plan that answers it is not applied (08 R217). -/
def awaitsPlan (s : State) (l : Nat) : Bool :=
  let st := (linkAt s l).st
  let kind := if st = .half then 1 else 2
  st != .up && !(s.sched.base.bind (planFor kind l 0)).any (fun f => s.sched.applied.contains f.planId)

/-- The link on which a frame queued for a link leaves, with its bytes. From the detection of a degraded or lost link until its plan applies, a transfer with an ALT route takes that route: the RELAY flag is set, and DEDUCED (log entry 99) its ID is that of the route's entry, by which relays and the receiver find it (08 R197, R217). -/
def routed (s : State) (l : Nat) (f : LinkFrame) : Nat × LinkFrame :=
  let g := { f with payload := framePayload s f }
  match (if f.cls = 0 ∧ awaitsPlan s l then (transferImage s f.id).bind (fun img =>
      (img.transfers.find? (fun t => t.id == f.id && t.dir == 0 && t.link == l)).bind (fun t => img.transfers.find? (fun u => u.id == t.alt))) else none) with
  | some u => (u.link, { g with id := u.id, flags := f.flags % 2 + 2 })
  | none => (l, g)

/-- Queues the frames that units of the device have for a link. -/
def queueAll (l : Nat) (fs : List LinkFrame) (s : State) : State :=
  fs.foldl (fun s f => queueFrame (routed s l f).1 ⟨(routed s l f).2, none⟩ s) s

/-- A frame boundary of a link at a phase of this beat: pending control words, then a frame to be resent, then the first eligible class. `queued` are the frames the device's units have queued since the last one. -/
def execFrameTransmit (link phase : Nat) (queued : List LinkFrame) (s : State) : Host.Outcome State Fault Refusal :=
  if !linkUp s link then .next (queueAll link (queued.filter (fun f => (routed s link f).1 != link)) s)
  else
    let t := s.cad.beat * 4096 + phase % 4096
    let sp := linkSpans s link
    let s := putFlow link (runShapers link t sp s (flowAt s link)) s
    let s := queueAll link queued s
    let f := flowAt s link
    if t < f.busyUntil then .next s
    else if !f.words.isEmpty then
      .next (f.words.foldl (fun s w => send (.control link w) s) (putFlow link { f with words := [] } s))
    else match f.resend with
      | g :: _ => .next (resendFrame link t g s)
      | [] =>
        match chooseClass s link t sp f with
        | none => .next s
        | some cls =>
          let list := match cls with | 0 => f.sched | 1 => f.migr | 2 => f.ctrl | _ => f.bulk
          match list with
          | q :: _ => .next (sendQueued link t cls q s)
          | [] => .next s

end Sys2Proof.Machine
end

