-- ==== Sys2Proof/Machine/Service.lean ====
section
/-! DEFINITION. Errors, fencing and repair in service (15 R396 to R408; 07 R178; 04 R126, R127; 18 R469; 20 R494). -/

namespace Sys2Proof.Machine

/-! ### HBM sparing (15 R400) -/

/-- Keys by which the model asks whether a channel holds a descriptor or weights (log entry 14). -/
def descriptorAt (slot : Nat) : Nat := 2 ^ 62 + slot
def weightsAt (m : Nat) : Nat := 2 ^ 63 + m

def hbmOf (s : State) (stack : Nat) : Hbm := FMap.getD s.tier.hbm stack {}

def modHbm (stack : Nat) (f : Hbm → Hbm) (s : State) : State :=
  { s with tier := { s.tier with hbm := FMap.put s.tier.hbm stack (f (hbmOf s stack)) } }

def hbmId (stack channel : Nat) : Nat := stack * 32 + channel

/-- The record of a sparing; its outcome code is not given (log entry 14). -/
def spareRecord (stack channel : Nat) (s : State) : State :=
  let f := freeValue s
  report 0x901 (unitField 4 (hbmId stack channel) ++ leBytes 4 f.1) f.2

/-- A T1 frame is unreadable: its sessions rebuild, the frame is retired. -/
def badT1 (addr : Nat) (s : State) : State :=
  let s := badFrame addr s
  { s with tier := { s.tier with retired := if s.tier.retired.contains addr then s.tier.retired else s.tier.retired ++ [addr] } }

/-- A stack loses a channel beyond its reserve. -/
def loseHbm (stack channel : Nat) (s : State) : State :=
  let holds := Config.hbmHolds stack channel
  let frames := (s.tier.frames.filter (fun e => e.2.tier == 1 && holds e.1)).map (fun e => e.1)
  let descs := (s.slots.table.filter (fun e => e.2.d.state != 0 && holds (descriptorAt e.1))).map (fun e => e.1)
  let models := (s.cont.models.filter (fun e => holds (weightsAt e.1))).map (fun e => e.1)
  let s := frames.foldl (fun s a => badT1 a s) s
  let s := descs.foldl (fun s i => enterRebuilding i s) s
  let s := { s with
    fab := { s.fab with damaged := s.fab.damaged ++ models.filter (fun m => !s.fab.damaged.contains m) }
    tier := { s.tier with t1Total := s.tier.t1Total - 1536 } }
  spareRecord stack channel (modHbm stack (fun h => { h with lost := h.lost ++ [channel] }) s)

/-- The remap of a spared channel takes effect (order 2 of 01 R30). -/
def remapHbm (stack : Nat) (s : State) : State :=
  match (hbmOf s stack).due with
  | none => s
  | some c => finish (.fence 4 (hbmId stack c)) ok (spareRecord stack c (modHbm stack (fun h => { h with due := none, used := c + 1 }) s))

/-- A channel fails or is fenced: it is copied into the reserve, or lost where the reserve is taken. -/
def failHbm (stack channel : Nat) (s : State) : State :=
  let h := hbmOf s stack
  if h.used = channel + 1 ∨ h.copying = some channel ∨ h.due = some channel ∨ h.lost.contains channel then s
  else if h.used = 0 ∧ h.copying = none ∧ h.due = none then modHbm stack (fun h => { h with copying := some channel }) s
  else loseHbm stack channel s

def execHbmSpareStart (stack channel : Nat) (s : State) : Host.Outcome State Fault Refusal :=
  .next (if stack < 8 ∧ channel < 32 then failHbm stack channel s else s)

def execHbmSpareCopyDone (stack : Nat) (s : State) : Host.Outcome State Fault Refusal :=
  .next (match (hbmOf s stack).copying with
    | none => s
    | some c =>
      let s := modHbm stack (fun h => { h with copying := none, due := some c }) s
      if s.sched.active.isNone then remapHbm stack s else s)

/-! ### UNIT_FENCE (15 R405; 08 R212, R213) -/

/-- The kill that a UNIT_FENCE requests (08 R206, R212) of the running slots of a test: at once where `plain`, and as a group abort of COLLECTIVE ones where it is forced. -/
def requestKill (plain force : Bool) (test : Image → SlotEntry → Bool) (s : State) : State :=
  match s.sched.active with
  | none => s
  | some img => ((openSlots img s).filter (fun x => (if bitOf x.flags 1 then force else plain) && test img x)).foldl (fun s x => killSlot x.id s) s

def usesDistricts (ds : List Nat) (_ : Image) (x : SlotEntry) : Bool := ds.any (fun d => bitOf x.districts d)
def usesLink (l : Nat) (img : Image) (x : SlotEntry) : Bool := img.transfers.any (fun t => t.link == l && t.slotId == x.id)

def fenceLane (l lane : Nat) (restore : Bool) (s : State) : State :=
  let has := (linkAt s l).fencedLanes.contains lane
  if restore then
    (if has then modLink l (fun x => { x with fencedLanes := x.fencedLanes.filter (fun n => n != lane) }) s else s)
  else if has then s
  else
    let s := modLink l (fun x => { x with fencedLanes := x.fencedLanes ++ [lane] }) s
    failLane l lane (if linkUp s l then queueWord l (.laneFailed lane) s else s)

def coreBody (d b c : Nat) (force : Bool) (p : Packet) (s : State) : State :=
  let blk := blockAt s d b
  if blk.wholeFenced ∨ (blk.fenced.contains c ∧ !blk.pendingFence.any (fun f => f.1 == c)) then reply p ok s
  else
    requestKill false force (usesDistricts [d]) (fenceCore d b c (await (.fence 1 (unitId (blockKey d b) c)) (originOf p s) s))

def blockBody (d b : Nat) (force : Bool) (p : Packet) (s : State) : State :=
  if (blockAt s d b).wholeFenced then reply p ok s
  else
    let s := await (.fence 2 (unitId (blockKey d b) 0)) (originOf p s) s
    let s := if (blockAt s d b).fenceDue.isSome then s else planWholeFence d b 0 s
    requestKill true force (usesDistricts [d]) s

def channelBody (stack c : Nat) (force : Bool) (p : Packet) (s : State) : State :=
  let s := failHbm stack c s
  let h := hbmOf s stack
  let s := if h.copying = some c ∨ h.due = some c then await (.fence 4 (hbmId stack c)) (originOf p s) s else reply p ok s
  requestKill false force (usesDistricts ((List.range 4).map (fun i => stack / 2 * 4 + i))) s

def unitFenceBody (_ : Nat) (p : Packet) (s : State) : State :=
  let unit := argOf p 20 1
  let force := bitOf (argOf p 21 1) 0
  let restore := bitOf (argOf p 21 1) 1
  let id := argOf p 24 4
  let d := id / 512
  let b := id / 32 % 16
  if unit = 0 ∨ 4 < unit then reply p (bad 0x14) s
  else if restore ∧ unit ≠ 3 then reply p (bad 0x15) s
  else if unit ≤ 2 then
    if 16 ≤ d then reply p (bad 0x18) s
    else if unit = 1 then coreBody d b (id % 32) force p s
    else blockBody d b force p s
  else if unit = 3 then
    if 0x400 ≤ id ∨ id / 32 % 8 ≠ 0 then reply p (bad 0x18) s
    else
      let s := if restore then s else requestKill true force (usesLink (id % 32)) s
      reply p ok (fenceLane (id % 32) (id / 256) restore s)
  else if 256 ≤ id then reply p (bad 0x18) s
  else channelBody (id / 32) (id % 32) force p s

def execUnitFence (p : Packet) (s : State) : Host.Outcome State Fault Refusal :=
  .next (serve (opIs 0x72) never unitFenceBody p s)

/-! ### DIMM service (15 R406 to R408) -/

def ddrAt (s : State) (c : Nat) : Ddr := FMap.getD s.tier.ddr c {}

def modDdr (c : Nat) (f : Ddr → Ddr) (s : State) : State :=
  { s with tier := { s.tier with ddr := FMap.put s.tier.ddr c (f (ddrAt s c)) } }

/-- The record of a service; its outcome code is not given (log entry 14). -/
def dimmRecord (c action : Nat) (s : State) : State :=
  let f := freeValue s
  report 0x900 (unitField 5 c ++ leBytes 1 action ++ leBytes 1 f.1 ++ [0, 0]) f.2

/-- An evacuated channel is switched off at a step boundary, at once while no image is active. -/
def completeEvacuation (c : Nat) (s : State) : State :=
  if (ddrAt s c).state = 2 ∧ onChannel s c = 0 ∧ !FMap.any (fun _ g => g.first == c || g.second == c) s.slots.segments then
    let share := channelShare s c
    let s := modDdr c (fun d => { d with state := 3, pwrEn := false }) s
    finish (.dimm c) ok (dimmRecord c 1 { s with tier := { s.tier with t2Total := s.tier.t2Total - share } })
  else s

def isEvacuate (p : Packet) : Bool := opcodeOf p == 0x73 && argOf p 21 1 != 2
def isAdmit (p : Packet) : Bool := opcodeOf p == 0x73 && argOf p 21 1 == 2

def evacuateBody (_ : Nat) (p : Packet) (s : State) : State :=
  let c := argOf p 20 1
  if 11 < c then reply p (bad 0x14) s
  else if argOf p 21 1 ≠ 1 then reply p (bad 0x15) s
  else if dimmBusy s ∨ (ddrAt s c).state ≠ 1 then reply p (busy 0xFFFF) s
  else
    let s := accept p (.dimm c) s
    let s := queueEvacuation c (modDdr c (fun d => { d with state := 2 }) s)
    if s.sched.active.isNone then completeEvacuation c s else s

def execDimmEvacuate (p : Packet) (s : State) : Host.Outcome State Fault Refusal :=
  .next (serve isEvacuate never evacuateBody p s)

def dimmBody (_ : Nat) (p : Packet) (s : State) : State :=
  let c := argOf p 20 1
  if 11 < c then reply p (bad 0x14) s
  else if dimmBusy s ∨ (ddrAt s c).state ≠ 3 then reply p (busy 0xFFFF) s
  else modDdr c (fun d => { d with state := 4, pwrEn := true, stage := 1 }) (accept p (.dimm c) s)

def execDimmAdmit (p : Packet) (s : State) : Host.Outcome State Fault Refusal :=
  .next (serve isAdmit never dimmBody p s)

/-- Detection or training fails: the switch is turned off, the channel stays OFF. -/
def dimmFails (c : Nat) (s : State) : State :=
  finish (.dimm c) (noResource 0x000D) (dimmRecord c 2 (modDdr c (fun d => { d with state := 3, pwrEn := false, stage := 0 }) s))

/-- 10,000 µs after power: the serial presence detect. -/
def execDimmSpdRead (channel sizeGiB : Nat) (ok : Bool) (s : State) : Host.Outcome State Fault Refusal :=
  let d := ddrAt s channel
  .next (if d.state = 4 ∧ d.stage = 1 then
      (if ok ∧ 0 < sizeGiB ∧ sizeGiB ≤ 256 then modDdr channel (fun d => { d with stage := 2, sizeGiB := sizeGiB }) s else dimmFails channel s)
    else s)

/-- Training ends; with a tenant bound the channel gets a key of its own. -/
def execDimmTrainDone (channel : Nat) (ok : Bool) (s : State) : Host.Outcome State Fault Refusal :=
  let d := ddrAt s channel
  .next (if d.state = 4 ∧ d.stage = 2 then
      (if ok then
        let s := modDdr channel (fun d => { d with stage := 3 }) s
        if s.sec.bound then
          let k := draw s
          { k.2 with secw := { k.2.secw with channelKeys := FMap.put k.2.secw.channelKeys channel k.1 } }
        else s
      else dimmFails channel s)
    else s)

/-- Zeros written over every byte: the channel is ACTIVE and its room joins T2. -/
def execDimmScrubDone (channel : Nat) (s : State) : Host.Outcome State Fault Refusal :=
  let d := ddrAt s channel
  .next (if d.state = 4 ∧ d.stage = 3 then
      let s := modDdr channel (fun d => { d with state := 1, stage := 0, failing := false, uncorr := 0 }) s
      finish (.dimm channel) ok (dimmRecord channel 2 { s with tier := { s.tier with t2Total := s.tier.t2Total + d.sizeGiB * 1024 } })
    else s)

/-! ### Ledger recall (15 R403) -/

/-- Positions lost in both copies: the session waits for their recall, or is LOST. -/
def recallRuns (slot first count : Nat) (s : State) : State :=
  let x := sessionAt s slot
  let t := s.tier.set
  if x.d.state = 0 ∨ x.d.state = 5 then s
  else if (x.d.journalLag ∧ x.journaled < first + count) ∨ t.recallBase = 0 ∨ t.recallSize = 0 then loseSession slot s
  else
    let h := sessionHandle s slot
    let had := FMap.getD s.tier.set.recalls slot []
    let s := { s with tier := { s.tier with set := { s.tier.set with recalls := FMap.put s.tier.set.recalls slot (had ++ [(first, count)]) } } }
    let s := enterRebuilding slot s
    queueRecord ⟨h, stepNow s, first, 0, 0x0A, 0, 0, leBytes 8 count⟩ s

/-! ### A channel lost (04 R126, R127; 18 R469; 20 R494) -/

/-- One copy of a segment is written anew on another channel (04 R126). -/
def rewriteCopy (n : Nat) (second : Bool) (avoid : List Nat) (s : State) : State :=
  match FMap.get? s.slots.segments n with
  | none => s
  | some g =>
    let c := otherChannel s ((if second then g.first else g.second) :: avoid) n
    let g := if second then { g with second := c } else { g with first := c }
    setFlag offTierEvents 6 { s with slots := { s.slots with segments := FMap.put s.slots.segments n g } }

/-- Positions of a session that stand in one of its segments: the first and how many. -/
def segmentSpan (x : Session) (n : Nat) : Nat × Nat :=
  let l := segmentsOf x.body
  let count (g : List Run) : Nat := (g.map runCount).foldl (· + ·) 0
  let i := x.segments.idxOf n
  (((l.take i).map count).foldl (· + ·) 0, ((l[i]?).map count).getD 0)

/-- Both copies of a segment are lost: every session with a run in it recalls its positions, and two new copies are laid out (15 R403). -/
def loseSegment (n : Nat) (avoid : List Nat) (s : State) : State :=
  let on := s.slots.table.filter (fun e => e.2.segments.contains n && e.2.d.state != 0)
  let s := on.foldl (fun s e => let p := segmentSpan e.2 n; recallRuns e.1 p.1 p.2 (spoilLedger e.1 s)) s
  rewriteCopy n true avoid (rewriteCopy n false avoid s)

/-- The ledger copies on a lost channel: one copy is rewritten elsewhere; a segment whose two copies stood there is lost. -/
def loseCopies (c : Nat) (s : State) : State :=
  s.slots.segments.foldl (fun s e =>
    if e.2.first = c ∧ e.2.second = c then loseSegment e.1 [c] s
    else if e.2.first = c then rewriteCopy e.1 false [c] s
    else if e.2.second = c then rewriteCopy e.1 true [c] s
    else s) s

/-- A DIMM or channel is lost: own sessions rebuild, borrowers are told, the channel is OFF. -/
def channelLost (c : Nat) (s : State) : State :=
  let d := ddrAt s c
  let serving := d.state = 1 ∨ d.state = 2
  let share := channelShare s c
  let frames := (s.tier.frames.filter (fun e => e.2.tier == 2 && e.2.channel == c)).map (fun e => e.1)
  let lent := s.tier.lent.filter (fun l => l.channel == c)
  let s := if serving then frames.foldl (fun s a => badFrame a s) (loseCopies c s) else s
  let s := lent.foldl (fun s l => send (.session l.borrower 4 ⟨l.ref, 0, 0, 0, 0⟩) s) s
  let s := { s with tier := { s.tier with
    lent := s.tier.lent.filter (fun l => l.channel != c)
    ops := s.tier.ops.filter (fun o => o.slot != evacKey c)
    t2Total := if serving then s.tier.t2Total - share else s.tier.t2Total } }
  let s := modDdr c (fun d => { d with state := 3, pwrEn := false, stage := 0, restarting := false }) s
  finish (.dimm c) (if d.state = 4 then noResource 0x000D else ok) s

/-- No answer from a channel controller for 100 µs: its Mover operations are killed and run again. -/
def execDdrControllerReset (channel : Nat) (s : State) : Host.Outcome State Fault Refusal :=
  .next (if (ddrAt s channel).state = 1 ∨ (ddrAt s channel).state = 2 then
      let s := modDdr channel (fun d => { d with restarting := true }) s
      let again (o : MoverOp) : MoverOp := if onRestarting s o then { o with begun := false } else o
      let s := { s with tier := { s.tier with ops := s.tier.ops.map again } }
      report 0x003 (unitField 5 channel ++ leBytes 4 4) s
    else s)

def execDdrControllerRestartEnd (channel : Nat) (inTime : Bool) (s : State) : Host.Outcome State Fault Refusal :=
  .next (if (ddrAt s channel).restarting then
      (if inTime then modDdr channel (fun d => { d with restarting := false }) s else channelLost channel s)
    else s)

/-- DDR_PRSNT_N_c rises or falls. -/
def execDdrPresenceChange (channel : Nat) (present : Bool) (s : State) : Host.Outcome State Fault Refusal :=
  let st := (ddrAt s channel).state
  .next (if 11 < channel then s
    else if st = 0 then modDdr channel (fun d => { d with state := 3 }) s
    else if !present ∧ (st = 1 ∨ st = 2 ∨ st = 4) then channelLost channel s
    else s)

/-- DDR_PG_c releases while the channel is powered. -/
def execDdrPgRelease (channel : Nat) (s : State) : Host.Outcome State Fault Refusal :=
  .next (if (ddrAt s channel).pwrEn then channelLost channel s else s)

/-! ### What software recalled (15 R403) -/

/-- What is left of lost positions when some have come back. -/
def uncovered (first count : Nat) (l : List (Nat × Nat)) : List (Nat × Nat) :=
  (l.map (fun r =>
    let a := if first < r.1 + r.2 ∧ r.1 < first + count then
        [(r.1, first - r.1), (first + count, r.1 + r.2 - (first + count))]
      else [r]
    a.filter (fun (e : Nat × Nat) => e.2 != 0))).flatten

/-- One envelope of the recall ring: skipped unless its tag holds and it belongs to a session that waits for it. -/
def takeRecalled (e : Nat × Nat × Run × Bool) (s : State) : State :=
  match liveSlot s e.1 with
  | none => setFlag offTierEvents 3 s
  | some slot =>
    match FMap.get? s.tier.set.recalls slot with
    | none => setFlag offTierEvents 3 s
    | some l =>
      if !e.2.2.2 then setFlag offTierEvents 3 s
      else
        let rest := uncovered e.2.1 (runCount e.2.2.1) l
        let set := s.tier.set
        if rest.isEmpty then
          endEmptyReplay slot (reportCandidate slot true { s with tier := { s.tier with set := { set with recalls := FMap.del set.recalls slot } } })
        else { s with tier := { s.tier with set := { set with recalls := FMap.put set.recalls slot rest } } }

/-- Software advances TIER_RECALL_TAIL; firmware reads what it wrote (15 R403, R418). -/
def execRecallTailWrite (v : Word64) (found : List (Nat × Nat × Run × Bool)) (s : State) : Host.Outcome State Fault Refusal :=
  let t := s.tier.set
  .next (if v.toNat < t.recallTail ∨ t.recallHead + t.recallSize < v.toNat then setFlag offMgmtEvents 1 s
    else
      let s := { s with tier := { s.tier with set := { t with recallTail := v.toNat } } }
      let s := found.foldl (fun s e => takeRecalled e s) s
      { s with tier := { s.tier with set := { s.tier.set with recallHead := v.toNat } } })

def execRecallTimeout (slot : Nat) (s : State) : Host.Outcome State Fault Refusal :=
  .next (match FMap.get? s.tier.set.recalls slot with
    | none => s
    | some _ => loseSession slot { s with tier := { s.tier with set := { s.tier.set with recalls := FMap.del s.tier.set.recalls slot } } })

/-! ### Uncorrectable errors (15 R402) -/

/-- The slots of a microbatch from the one that wrote a region to its reader; a LAST_NEXT region was written in the step before. -/
def passSpan (img : Image) (writer x : SlotEntry) : List SlotEntry :=
  img.slots.filter (fun y => y.id == x.id || (y.lane == 0 && y.partition == x.partition && y.microbatch == x.microbatch
    && (if writer.start ≤ x.start then decide (writer.start ≤ y.start ∧ y.start ≤ x.start) else decide (writer.start ≤ y.start ∨ y.start ≤ x.start))))

/-- Both copies of an ACT region are bad: the microbatch's pass reruns on this device from the slot that wrote the region (07 R178), its commits among it; collective slots of it are aborted (08 R213). -/
def killPass (slotId : Nat) (writer : SlotEntry) (s : State) : State :=
  match slotImage s slotId, activeSlot s slotId with
  | some img, some x =>
    let span := passSpan img writer x
    let ids := span.map (fun y => y.id)
    let delta := (span.filter (fun y => !bitOf y.flags 1)).foldl (fun n y => n + y.rerunBeats) 0
    let e := slotBeat s img x + x.beats
    let r := runOf s slotId
    let s := { s with sched := { s.sched with commits := s.sched.commits.filter (fun c => !ids.contains c.1) } }
    let s := (span.filter (fun y => bitOf y.flags 1)).foldl (fun s y => killSlot y.id s) s
    let s := (span.filter (fun y => !bitOf y.flags 1)).foldl (fun s y => voidRun y (slotDistricts y) s) s
    if slipFits x.partition delta s then
      sendNotice (ringPeers s x.partition) ⟨1, x.partition, slotId, 0, s.sched.step, e, delta, r, x.microbatch, ownIndex s⟩ s
    else sendDefer x r e s
  | _, _ => s

/-- A Block store region: ACT is read again from its mirror, any other region reruns its reader. -/
def badRegion (d b index slotId : Nat) (mirrorBad : Bool) (s : State) : State :=
  match s.sched.active.bind (fun img => img.regions[index]?) with
  | none => killSlot slotId s
  | some r =>
    if r.kind ≠ 1 then killSlot slotId s
    else
      let s := report 0x304 (unitField 2 (unitId (blockKey d b) 0) ++ leBytes 4 index) (setFlag (offDstEvents d) 1 s)
      if !mirrorBad then killSlot slotId s
      else match activeSlot s r.firstSlot with
        | some w => killPass slotId w s
        | none => killSlot slotId s

/-- Both banks of a ledger tail are lost: LOST, unless every run of the tail has been journaled. -/
def badTail (slot : Nat) (s : State) : State :=
  let x := sessionAt s slot
  let first := x.body.foldl (fun n r => n + runCount r) 0
  let count := x.tail.foldl (fun n r => n + runCount r) 0
  if journalOn s ∧ first + count ≤ x.journaled then recallRuns slot first count s else loseSession slot s

/-- The frame an HBM address stands in. -/
def frameOver (s : State) (addr : Nat) : Option Nat :=
  (s.tier.frames.find? (fun e => decide (e.1 ≤ addr ∧ addr < e.1 + granuleOf s e.2.partition))).map (fun e => e.1)

/-- A bad descriptor is restored from the copy in the ledger header, which stands as the last Plaza lane left it (03 R69). DEDUCED: the ledger is the record of every position, so LEDGER_POS is its length, and the state is the one the session's commands stand in (log entry 89). -/
def restoreHeader (slot : Nat) (s : State) : State :=
  modSession slot (fun x => match x.header with
    | none => x
    | some h => { x with leadRow := h.2, d := { h.1 with state := x.d.state, ledgerPos := x.d.ledgerPos } }) s

/-- An uncorrectable error, and what firmware does at its place. -/
def uncorrectable (p : ErrorPlace) (s : State) : State :=
  match p with
  | .scratch d b c slot => killSlot slot (uncorrRecord 1 (unitId (blockKey d b) c) slot s)
  | .region d b index slot mirrorBad => badRegion d b index slot mirrorBad (uncorrRecord 2 (unitId (blockKey d b) 0) index s)
  | .weight m chunk slot secondBad => weightFail m chunk slot secondBad (uncorrRecord 0 0 chunk s)
  | .frame addr => badT1 addr (uncorrRecord 0 0 addr s)
  | .capsule addr =>
    let c := match frameAt s addr with | some f => f.channel | none => 0
    let s := modDdr c (fun d => { d with failing := true, uncorr := satAdd 0xFFFF d.uncorr 1 }) (uncorrRecord 5 c addr s)
    badFrame addr (setFlag offTierEvents 3 s)
  | .descriptor slot => enterRebuilding slot (restoreHeader slot (uncorrRecord 0 0 slot s))
  | .counts slot => uncorrRecord 0 0 slot s
  | .constraint slot => uncorrRecord 0 0 slot s
  | .segmentOne n copy =>
    let at_ := (FMap.get? s.slots.segments n).elim 0 (fun g => if copy = 1 then g.second else g.first)
    rewriteCopy n (copy == 1) [at_] (uncorrRecord 5 at_ n s)
  | .segmentBoth n => loseSegment n [] (uncorrRecord 5 0 n s)
  | .tail slot bothBad => (if bothBad then badTail slot else id) (uncorrRecord 0 0 slot s)
  | .unitStore => uncorrRecord 0 0 0 s
  | .barRead addr =>
    let s := setFlag offMgmtEvents 3 (uncorrRecord 0 0 addr s)
    match frameOver s addr with | some a => badT1 a s | none => s

def execUncorrectableError (place : ErrorPlace) (s : State) : Host.Outcome State Fault Refusal := .next (uncorrectable place s)

/-! ### Correctable errors (15 R401) -/

/-- A memory row shows a correctable error. Memories: 0 Block store, 1 session cache, 2 Unit store, 3 Sillage, 4 scratchpad, 5 microprogram store; any other is corrected in line. A second one within 1,000,000 beats spares the row at the next step boundary, or at the next device reset (log entry 14). -/
def execCorrectableError (memory row : Nat) (s : State) : Host.Outcome State Fault Refusal :=
  let key := memory * 2 ^ 32 + row
  .next (if 5 < memory then s
    else match FMap.get? s.tier.rows key with
      | some b =>
        if s.cad.beat ≤ b + 1000000 then
          let s := { s with tier := { s.tier with rows := FMap.del s.tier.rows key } }
          if memory ≤ 3 then
            (if s.sched.active.isNone then { s with tier := { s.tier with rowsSpared := s.tier.rowsSpared ++ [(memory, row)] } }
             else { s with tier := { s.tier with rowsDue := s.tier.rowsDue ++ [(memory, row)] } })
          else { s with svc := { s.svc with repairs := if s.svc.repairs.contains (memory, row) then s.svc.repairs else s.svc.repairs ++ [(memory, row)] } }
        else { s with tier := { s.tier with rows := FMap.put s.tier.rows key s.cad.beat } }
      | none => { s with tier := { s.tier with rows := FMap.put s.tier.rows key s.cad.beat } })

/-! ### Resetting a Block (18 R469) -/

/-- A sequencer misses a slot start, or a slot ends uncommitted: the Block is reset, as if fenced whole. -/
def execBlockPartialReset (district block : Nat) (s : State) : Host.Outcome State Fault Refusal :=
  if (blockAt s district block).resetting ∨ (blockAt s district block).wholeFenced then .next s
  else
    let s := modBlock district block (fun k => { k with resetting := true, rejoinAt := none }) s
    let s := report 0x003 (unitField 2 (unitId (blockKey district block) 0) ++ leBytes 4 4) s
    .next (match s.sched.active with
      | none => s
      | some img =>
        let s := ((openSlots img s).filter (fun x => bitOf x.districts district)).foldl (fun s x => killSlot x.id s) s
        blockPlan district block (boundaryAfter img img.fallbackLead s) s)

/-- The Block is back in the Districts' use. -/
def rejoinBlock (d b : Nat) (s : State) : State := modBlock d b (fun k => { k with resetting := false, rejoinAt := none }) s

def execBlockSelfTestDone (district block : Nat) (pass : Bool) (s : State) : Host.Outcome State Fault Refusal :=
  if !(blockAt s district block).resetting then .next s
  else if !pass then .next (wholeFence district block (modBlock district block (fun k => { k with resetting := false, rejoinAt := none }) s))
  else
    .next (match s.sched.base with
      | none => rejoinBlock district block s
      | some img =>
        let e := boundaryAfter img img.fallbackLead s
        let s := modBlock district block (fun k => { k with rejoinAt := some e }) s
        match planFor 3 district block img with
        | some f => sendFallback f.planId e true s
        | none => s)

end Sys2Proof.Machine
end

