-- ==== Sys2Proof/Machine/Startup.lean ====
section
/-! DEFINITION. Power-on, the boot phases, resets of every kind, and the loss of the host (18 R453 to R473; 15 R414 to R417; 13 R368; 20 R494, R499, R500). -/

namespace Sys2Proof.Machine

/-! ### What a reset keeps (18 R468) -/

/-- A record whose code the manual does not give (18 R459, R463; log entry 14). -/
def openRecord (sev : Nat) (s : State) : State :=
  let f := freeValue s
  reportAt sev (f.1 % 4096) [] f.2

/-- Fences that MRAM keeps: cores and whole Blocks until they are tested again, link lanes, spared HBM channels (18 R471). -/
def keptBlock (b : Block) : Block := { fenced := b.fenced, wholeFenced := b.wholeFenced || b.resetting }

def keptLink (l : Link) : Link := { fencedLanes := l.fencedLanes }

def keptHbm (h : Hbm) : Hbm := { used := h.used }

/-- The Sillage after a device reset is the retained store; after a power-on it waits for the mirror. -/
def keptRecorder (kind : Nat) (e : Recorder) : Recorder :=
  if kind = 2 then
    { records := e.records, nextSeq := e.nextSeq, codes := e.codes, mirrorSeq := e.mirrorSeq, mirrored := e.mirrored, mirrorCodes := e.mirrorCodes }
  else { mirrorSeq := e.mirrorSeq, mirrored := e.mirrored, mirrorCodes := e.mirrorCodes }

/-- The state at phase 1 of a power-on (kind 1) or device reset (kind 2): the reset state, with what MRAM, the fuses and the retained Sillage store hold. -/
def bootState (kind : Nat) (s : State) : State :=
  { pending := s.pending
    freeCtr := s.freeCtr
    out := s.out
    sec := {
      sealOk := s.sec.sealOk, sealTripped := s.sec.sealTripped, presencePolicy := s.sec.presencePolicy
      rollback := s.sec.rollback, fwRollback := s.sec.fwRollback, chainEpoch := s.sec.chainEpoch
      akSerial := s.sec.akSerial, idDigest := s.sec.idDigest, bootCount := s.sec.bootCount + 1 }
    secw := { fwMeasurement := s.secw.fwMeasurement, quoteSerial := s.secw.quoteSerial, memKeyGen := s.secw.memKeyGen }
    evr := keptRecorder kind s.evr
    sup := { stopRuns := s.sup.stopRuns, stopLost := s.sup.stopLost, rails := (List.range 4).map (fun r => (r, ({ target := profileMv 0 } : Rail))) }
    comp := { last := if s.comp.inComp then some s.comp.index else s.comp.last }
    fab := { blocks := FMap.mapVals (fun _ b => keptBlock b) s.fab.blocks }
    links := { port := FMap.mapVals (fun _ l => keptLink l) s.links.port }
    tier := { hbm := FMap.mapVals (fun _ h => keptHbm h) s.tier.hbm }
    cal := { factory := s.cal.factory, user := s.cal.user, writeCount := s.cal.writeCount, copyInUse := s.cal.copyInUse }
    svc := {
      phase := 1, running := s.svc.running, slots := s.svc.slots, repairs := s.svc.repairs
      stopRecord := s.svc.stopRecord, stopFlag := s.svc.stopFlag, stopDiscarded := s.svc.stopDiscarded, resetKind := kind } }

/-- The seal loop as the ROM finds it: an open loop has tripped (13 R370). -/
def checkSeal (closed : Bool) (s : State) : State :=
  let s := modSec (fun k => { k with sealOk := closed, sealTripped := k.sealTripped || !closed }) s
  if closed then s else setFlag offSecEvents 0 s

/-- The ROM checks the factory calibration and chooses the firmware slot (18 R455). -/
def romSelect (slotAOk slotBOk factoryOk : Bool) (s : State) : State :=
  let good (n : Nat) : Bool := if n = 0 then slotAOk else slotBOk
  let run := s.svc.running
  if !factoryOk then { s with svc := { s.svc with phase := 6 } }
  else
    let s := { s with cal := { s.cal with status := 1 } }
    let boot (n : Nat) (fell : Bool) : State :=
      let f := FMap.getD s.svc.slots n {}
      modSec (fun k => { k with fwRollback := f.rollback }) { s with
        svc := { s.svc with running := n, fellBack := fell }
        secw := { s.secw with fwMeasurement := f.measurement } }
    if good run then boot run false
    else if good (1 - run) then boot (1 - run) true
    else { s with svc := { s.svc with phase := 5 }, host := { s.host with stopped := false } }

/-- The input has stood at 44 V or more for 100,000 µs, counted from a stop's completion where there was one (18 R453, 14 R381). -/
def execPowerOnQualified (sealClosed slotAOk slotBOk factoryOk senseOpen : Bool) (s : State) : Host.Outcome State Fault Refusal :=
  .next (if s.svc.phase = 0 ∨ s.sup.tripped ∨ s.sup.stopStage = 4 then
      let s := romSelect slotAOk slotBOk factoryOk (checkSeal sealClosed (bootState 1 s))
      if senseOpen then setFlag offSupEvents 0 s else s
    else s)

/-- A device reset from any phase (18 R467, R468). -/
def deviceResetTo (slotAOk slotBOk factoryOk : Bool) (s : State) : State :=
  romSelect slotAOk slotBOk factoryOk (checkSeal s.sec.sealOk (bootState 2 s))

/-- RESET_N low for 1 µs: ignored while a stop runs, with the rails off, and before power-on (20 R500). A reset during power-on keeps its kind. -/
def execDeviceReset (slotAOk slotBOk factoryOk : Bool) (s : State) : Host.Outcome State Fault Refusal :=
  .next (if s.svc.phase = 0 ∨ s.sup.tripped ∨ s.sup.railsOff ∨ s.sup.st = .stopping then s
    else if s.svc.phase = 1 ∧ s.svc.resetKind = 1 then
      romSelect slotAOk slotBOk factoryOk (checkSeal s.sec.sealOk (bootState 1 s))
    else deviceResetTo slotAOk slotBOk factoryOk s)

/-! ### Firmware starts (18 R456, R461, R463, R471) -/

/-- The Sillage restored from its mirror at a power-on. -/
def restoreSillage (s : State) : State :=
  if s.svc.resetKind = 2 then s
  else
    let top := s.evr.mirrored.foldl (fun n r => max n r.seq) 0
    { s with evr := { s.evr with records := s.evr.mirrored, codes := s.evr.mirrorCodes, nextSeq := top + 1, mirrorSeq := top } }

/-- User calibration: a value out of its bounds counts as 0. With no valid copy every value is 0, and a record of severity 4 says so. -/
def loadCalibration (valid : Bool) (s : State) : State :=
  if valid then
    { s with cal := { s.cal with
        user := s.cal.user.filter (fun e => match userBounds e.1 with | some b => within b.1 b.2 e.2 | none => false)
        status := s.cal.status % 2 + 2 } }
  else openRecord 4 { s with cal := { s.cal with user := [], status := s.cal.status % 2 + 8 } }

/-- A core found failing at start-up: its logical number goes to the first spare; with none left the Block is fenced whole. -/
def bootFence (unit : Nat) (s : State) : State :=
  let d := unit / 512 % 16
  let b := unit / 32 % 16
  let c := unit % 32
  let blk := blockAt s d b
  if blk.fenced.contains c ∨ blk.wholeFenced then s
  else if blk.spares.contains c then
    modBlock d b (fun k => { k with fenced := k.fenced ++ [c], coreBase := k.coreBase ++ [c], spares := k.spares.filter (fun x => x != c) }) s
  else match blk.spares with
    | [] => modBlock d b (fun k => { k with fenced := k.fenced ++ [c], wholeFenced := true }) s
    | sp :: rest =>
      modBlock d b (fun k => { k with
        fenced := k.fenced ++ [c], coreBase := k.coreBase ++ [c], spares := rest
        map := k.map.map (fun x => if x = c then sp else x) }) s

def bootFenceBlock (unit : Nat) (s : State) : State :=
  modBlock (unit / 512 % 16) (unit / 32 % 16) (fun k => { k with wholeFenced := true }) s

/-- Units of the fenced list that fail their self-test again stay on it: kind 1 a core, 2 a Block. -/
def reFence (units : List (Nat × Nat)) (s : State) : State :=
  let s := { s with fab := { s.fab with blocks := [] } }
  units.foldl (fun s u => if u.1 = 1 then bootFence u.2 s else if u.1 = 2 then bootFenceBlock u.2 s else s) s

/-- BOOT, RESET, and the record of a fallback to the other slot. -/
def bootRecords (s : State) : State :=
  let s := report 0x002 (digestHead 32 s.secw.fwMeasurement ++ leBytes 8 s.sec.bootCount) s
  let s := report 0x003 (unitField 0 0 ++ leBytes 4 s.svc.resetKind) s
  if s.svc.fellBack then
    activateRecord (FMap.getD s.svc.slots (1 - s.svc.running) {}).measurement s.secw.fwMeasurement s
  else s

/-- Firmware starts: the work of R456 in its order, then the rails and training of phase 3. -/
def execFirmwareStart (calValid : Bool) (failingUnits : List (Nat × Nat)) (s : State) : Host.Outcome State Fault Refusal :=
  if s.svc.phase ≠ 1 then .next s
  else
    let fresh := s.cad.st = .unlocked ∨ s.cad.st = .acquiring
    let s := if fresh then { s with cad := { s.cad with beat := 0, phase := 0, markBeat := none } } else s
    let s := loadCalibration calValid (restoreSillage s)
    let s := bootRecords (drawMemKeys (reFence failingUnits s))
    let s := if s.svc.stopFlag then setFlag offSupEvents 2 { s with svc := { s.svc with stopFlag := false } } else s
    let s := { s with
      svc := { s.svc with phase := 3 }
      host := { s.host with stopped := false }
      mgmt := { s.mgmt with fwVersion := (FMap.getD s.svc.slots s.svc.running {}).version } }
    .next (raiseRails (profileMv 0) s)

/-! ### Training ends (18 R459; 20 R494) -/

def trainFailing (s : State) (u : Nat × Nat) : State :=
  if u.1 = 1 then report 0x303 (unitField 1 u.2 ++ leBytes 4 (u.2 % 32)) (bootFence u.2 s)
  else if u.1 = 2 then openRecord 5 (bootFenceBlock u.2 s)
  else if u.1 = 4 then
    let k := u.2 / 32
    let h := hbmOf s k
    if h.used = u.2 % 32 + 1 then s
    else if h.used = 0 then spareRecord k (u.2 % 32) (modHbm k (fun h => { h with used := u.2 % 32 + 1 }) s)
    else loseHbm k (u.2 % 32) s
  else if u.1 = 5 then dimmRecord u.2 2 (modDdr u.2 (fun d => { d with state := 3, pwrEn := false }) s)
  else if u.1 = 6 then
    openRecord 5 ((List.range 4).foldl (fun s i => (List.range 16).foldl (fun s b =>
      bootFenceBlock (unitId (blockKey (u.2 / 2 * 4 + i) b) 0) s) s) s)
  else s

/-- The channels that trained, at most 12 of at most 256 GiB each (00 R4). -/
def trainedDdr (l : List (Nat × Nat)) : List (Nat × Nat) := (l.filter (fun e => decide (e.1 < 12 ∧ e.2 ≠ 0))).map (fun e => (e.1, min e.2 256))

/-- HBM and DDR5 are trained and the frame pool is zeroed: the device is READY. Failing units: 1 core, 2 Block, 4 HBM channel, 5 DDR channel, 6 a whole HBM stack. -/
def execTrainingDone (t1MiB t2MiB : Nat) (ddrGiB : List (Nat × Nat)) (failing : List (Nat × Nat)) (s : State) : Host.Outcome State Fault Refusal :=
  if s.svc.phase ≠ 3 then .next s
  else
    let ddr := (trainedDdr ddrGiB).foldl (fun m e => FMap.put m e.1 ({ state := 1, pwrEn := true, sizeGiB := e.2 } : Ddr)) s.tier.ddr
    let t2Most := ddr.foldl (fun n e => n + e.2.sizeGiB * 1024) 0
    let s := { s with
      mem := []
      tier := { s.tier with t1Total := min t1MiB (hbmFree / 2 ^ 20), t2Total := min t2MiB t2Most, ddr := ddr } }
    let s := failing.foldl trainFailing s
    .next { s with svc := { s.svc with phase := 4 } }

/-! ### Losing power by heat (20 R499) -/

/-- A junction above 125 °C: every rail goes, nothing is saved. -/
def execThermtrip (_ : Nat) (s : State) : Host.Outcome State Fault Refusal :=
  .next { s with
    mem := [], commands := []
    sup := { s.sup with railsOff := true, tripped := true, devTarget := none, devNext := none, stopStage := 0
                        rails := FMap.mapVals (fun _ x => { x with target := 0, pending := false }) s.sup.rails }
    host := { s.host with stopped := true }
    svc := { s.svc with phase := 0, activateAt := none, takenOver := false } }

/-! ### The watchdog (18 R470) -/

/-- Packets recognised but not admitted are found again in the window: SCAN and SEQ stand at the first of them. -/
def rewindClient (c : Client) : Client :=
  match c.recognised with
  | [] => c
  | r :: _ => { c with
      scan := r.scan, seq := r.seq, previous := r.prior, recognised := []
      inflight := c.inflight - c.recognised.length
      blockedBy := if c.blockedBy.any (fun q => c.recognised.any (fun x => x.seq == q)) then none else c.blockedBy }

/-- 4,000 µs without a refresh: the active slot is restarted, and takes over, or a device reset follows. -/
def execWatchdogExpiry (takeoverOk : Bool) (s : State) : Host.Outcome State Fault Refusal :=
  .next (if s.svc.phase < 2 ∨ 4 < s.svc.phase ∨ s.sup.railsOff ∨ s.sup.st = .stopping then s
    else if !takeoverOk then deviceResetTo true true true s
    else
      let s := modSec (fun k => { k with measuring := true }) { s with clients := FMap.mapVals (fun _ c => rewindClient c) s.clients }
      report 0x003 (unitField 0 0 ++ leBytes 4 3) s)

/-! ### The host (15 R414 to R417; 13 R368; 18 R473) -/

/-- Sessions that park for the loss. -/
def parkingCount (s : State) : Nat := (s.slots.table.filter (fun e => e.2.d.state == 1 || e.2.d.state == 2)).length

/-- The host is lost: recognition stops, sessions are held, payload keys suspended. -/
def loseHost (cause : Nat) (s : State) : State :=
  let parked := parkingCount s
  let again := s.sec.suspended || s.host.held
  let s := { s with host := { s.host with lost := true, stopped := true, lostAt := if again then s.host.lostAt else s.cad.beat } }
  let s := dropOps (fun o => o.kind == .shard && !o.begun) (holdSessions s)
  let s := if s.sec.bound then
    keysRecord 0 (modSec (fun k => { k with suspended := true, hostHold := true
                                            payloadKeys := FMap.mapVals (fun _ p => { p with suspended := true }) k.payloadKeys }) s)
    else s
  report 0x902 (leBytes 4 cause ++ leBytes 4 parked) s

/-- The data link is down for 1,000 µs, PERST_N, a hot reset, or a reset of the physical function; before any reply ring was set it is no loss (18 R458). -/
def execHostLoss (cause : Nat) (s : State) : Host.Outcome State Fault Refusal :=
  .next (if s.host.ringEverSet ∧ !s.host.lost ∧ 2 ≤ s.svc.phase ∧ s.svc.phase ≤ 4 then loseHost cause s else s)

/-- A client's entry after re-enumeration: its meters are settings and stay. -/
def freshEntry (n : Nat) (c : Client) : Client :=
  { run := n == 0, cmd := c.cmd, byt := c.byt, aware := c.aware, pendingMeters := c.pendingMeters, slow := c.slow }

/-- The host is enumerated again: CLI entries reset, commands whose replies cannot be delivered dropped, RETAINED set while sessions are held. -/
def execHostPortReset (s : State) : Host.Outcome State Fault Refusal :=
  if s.svc.phase < 2 then .next s
  else
    let s := if s.host.ringEverSet ∧ !s.host.lost ∧ s.svc.phase ≤ 4 then loseHost 0 s else s
    let s := { s with
      clients := FMap.mapVals (fun n c => freshEntry n c) s.clients
      commands := s.commands.filter (fun c => c.origin.sender.isSome || ofRelease c.work)
      host := { s.host with
        lost := false, vfEnable := false, rests := []
        held := s.host.held && s.sec.bound
        stopped := s.svc.takenOver || decide (s.sup.st = .stopping)
        retained := s.host.held && s.sec.bound && anySession (fun x => x.d.state != 8) s } }
    .next (report 0x003 (unitField 0 0 ++ leBytes 4 5) s)

/-- A reset of virtual function n: its client is pre-empted with its replies discarded, and its ring is invalid. -/
def execVfFlr (n : Nat) (s : State) : Host.Outcome State Fault Refusal :=
  .next (if n = 0 ∨ 255 < n then s
    else
      let s := endPreempt n (beginPreempt n (modClient n (fun c => { c with base := 0 }) s))
      report 0x003 (unitField 6 n ++ leBytes 4 6) s)

/-- The host sets or clears VF Enable (18 R473). -/
def execVfEnable (on : Bool) (s : State) : Host.Outcome State Fault Refusal :=
  .next { s with host := { s.host with vfEnable := on } }

/-! ### FW_ACTIVATE (15 R411; 18 R455) -/

/-- In RECOVERY a verified staged image is marked active, and a device reset follows. -/
def recoverWith (p : Packet) (img : FirmwareImage) (s : State) : State :=
  let s := reply p { status := stACCEPTED } s
  let other := 1 - s.svc.running
  deviceResetTo true true true { s with svc := { s.svc with running := other, slots := FMap.put s.svc.slots other ⟨img.fwVersion, img.rollback, img.facts.trailer⟩ } }

def activateBody (_ : Nat) (p : Packet) (s : State) : State :=
  match s.svc.staged with
  | none => reply p (bad 0x20) s
  | some img =>
    if s.svc.phase = 5 then recoverWith p img s
    else if dimmBusy s ∨ activating s then reply p (busy 0xFFFF) s
    else scheduleActivation p img s

def execFwActivate (p : Packet) (s : State) : Host.Outcome State Fault Refusal :=
  .next (serve (opIs 0x61) never activateBody p s)

end Sys2Proof.Machine
end

