-- ==== Sys2Proof/Machine/Registers.lean ====
section
/-! DEFINITION. The registers of BAR0 and the State Space window of BAR4 (19 R474 to R486; the register tables of 02 R62, 04 R128, 06 R172, 07 R191, 11 R289, 12 R344, 13 R374, 14 R395, 15 R418, 17 R452, 18 R466). -/

namespace Sys2Proof.Machine

/-! ### What each register shows -/

def sumBits (l : List (Bool × Nat)) : Nat := l.foldl (fun n e => if e.1 then n + 2 ^ e.2 else n) 0

/-- MGMT_WIN_STATUS.OPEN (19 R484). -/
def windowOpen (s : State) : Bool := s.mgmt.winEnable && (!s.sec.bound || s.sec.debug)

/-- Flags of a group are set (19 R481). -/
def groupAny (s : State) (g : Nat) : Bool := FMap.any (fun k f => f.on && flagGroup (k / 64) == some g) s.flags

def flagCounts (s : State) : Nat :=
  if (flagGroup s.mgmt.selOff).isSome then
    let f := getFlag s s.mgmt.selOff s.mgmt.selBit
    f.sets + f.collisions * 2 ^ 32
  else 0

def mgmtReg (s : State) (off : Nat) : Nat :=
  match off with
  | 0x00 => 0x1FA7 + 0x0048 * 2 ^ 16 + 2 ^ 32
  | 0x08 => s.mgmt.fwVersion
  | 0x10 => s.svc.phase + 8 * boolNat s.host.retained + 16 * s.host.clientMode + 2 ^ 8 * (ringIds s).length
      + 2 ^ 16 * s.comp.index + 2 ^ 28 * boolNat s.comp.inComp + 2 ^ 32 * s.comp.epoch
  | 0x18 => sumBits ((List.range 9).map (fun g => (groupAny s g, g)))
  | 0x20 => s.mgmt.mask
  | 0x28 => flagWord s offMgmtEvents
  | 0x38 => s.mgmt.selOff + 2 ^ 24 * s.mgmt.selBit
  | 0x40 => flagCounts s
  | 0x48 => 2 ^ 36 * s.mgmt.winBase
  | 0x50 => boolNat s.mgmt.winEnable
  | 0x58 => boolNat (windowOpen s) + 2 * boolNat (s.mgmt.winEnable && s.sec.bound && !s.sec.debug)
  | 0x60 => s.mgmt.winReads
  | _ => 0

def cadReg (s : State) (off : Nat) : Nat :=
  let c := s.cad
  match off with
  | 0x00 => c.period + 8 * c.mode + 32 * boolNat (c.numSource == 32) + 64 * (if c.numSource = 32 then 0 else c.numSource)
  | 0x08 => cadCode c.st + 8 * boolNat c.xrefLost + 16 * boolNat c.peerDisc + 32 * c.discLink + 2 ^ 16 * signedField 16 c.phaseErr
  | 0x10 => c.beat
  | 0x18 => c.phase
  | 0x20 => flagWord s offCadEvents
  | 0x28 => c.mismatchCnt
  | 0x30 => c.holdBeats
  | 0x38 => c.staggerPhase + 2 ^ 16 * c.staggerBeats + 2 ^ 24 * c.rampBeats
  | _ => 0

def supCode : SupState → Nat
  | .normal => 0 | .warn => 1 | .reduced => 2 | .stopping => 3

def supReg (s : State) (off : Nat) : Nat :=
  let u := s.sup
  match off with
  | 0x00 => supCode u.st + 8 * devRank u.dev + 32 * boolNat u.devTarget.isSome + 64 * u.profile
      + 256 * boolNat u.profilePending.isSome + 512 * boolNat u.baseRetain
  | 0x08 => flagWord s offSupEvents
  | 0x10 => u.vin + 2 ^ 32 * u.vinMin
  | 0x18 => u.iin + 2 ^ 32 * u.iinMax
  | 0x20 => u.pinMean + 2 ^ 32 * u.pinMax
  | 0x28 => u.energy
  | 0x30 => sumBits (((List.range 8).map (fun r => [((railAt s r).pending, 2 * r), ((railAt s r).failed, 2 * r + 1)])).flatten)
  | 0x38 => u.stopRuns + 2 ^ 32 * u.stopLost
  | 0x40 => u.reducedCnt
  | _ => 0

/-- Clients that hold a current, unsuspended payload key, as 256 bits. -/
def payloadBits (s : State) : Nat := sumBits (s.sec.payloadKeys.map (fun e => (!e.2.suspended, e.1)))

def secReg (s : State) (off : Nat) : Nat :=
  let k := s.sec
  if 0x40 ≤ off ∧ off < 0x60 then bitsOf (payloadBits s) (8 * (off - 0x40)) 64
  else if 0x80 ≤ off ∧ off < 0xC0 then bitsOf (tenantDigest s).toNat (8 * (off - 0x80)) 64
  else match off with
    | 0x00 => secStatus s
    | 0x08 => flagWord s offSecEvents
    | 0x10 => k.rollback + 2 ^ 32 * k.fwRollback
    | 0x18 => k.chainEpoch + 2 ^ 32 * (k.akSerial % 2 ^ 32)
    | 0x20 => k.bootCount
    | 0x28 => k.authFailCnt
    | 0x30 => sumBits (k.weightKeys.map (fun e => (true, e.1)))
    | _ => 0

/-- EVR registers (17 R452); FREE_CELLS keeps its reset value until firmware has restored the store (18 R456; log entry 36). -/
def evrReg (s : State) (off : Nat) : Nat :=
  let e := s.evr
  if 0x40 ≤ off ∧ off < 0x80 then FMap.getD e.drop ((off - 0x40) / 8) 0
  else match off with
    | 0x00 => (if s.svc.phase ≤ 1 then 0 else min 0xFFFFF (storeCells - usedCells e.records)) + 2 ^ 20 * boolNat e.snapshot.isSome + 2 ^ 22 * boolNat e.mirrorBehind + 2 ^ 24 * e.floor
    | 0x08 => flagWord s offEvrEvents
    | 0x10 => e.nextSeq - 1
    | 0x18 => match e.records with | r :: _ => r.seq | [] => 0
    | 0x20 => e.mirrorSeq
    | 0x28 => e.suppressed
    | 0x30 => e.filtered
    | _ => 0

def cliReg (s : State) (n off : Nat) : Nat :=
  let c := clientOf s n
  match off with
  | 0x00 => boolNat c.run + 2 * boolNat (ringOk c) + 4 * boolNat c.aware + 8 * boolNat (c.held || c.blockedBy.isSome) + 2 ^ 16 * c.inflight
  | 0x08 => c.base
  | 0x10 => min 8 c.size + 2 ^ 12 * c.pasid
  | 0x18 => c.ack
  | 0x20 => c.shadow
  | 0x28 => c.scan + 2 ^ 32 * c.seq
  | 0x30 => c.replyAt + 2 ^ 32 * c.replyCount
  | 0x38 => flagWord s (offCliEvents n)
  | _ => 0

/-- An object that an evacuation has no room for (15 R406). -/
def evacuationStuck (s : State) : Bool :=
  FMap.any (fun c d => d.state == 2
    && FMap.any (fun _ f => f.tier == 2 && f.channel == c && decide (freeElsewhere s c < f.length) && (lenderFor s f.length).isNone) s.tier.frames) s.tier.ddr

/-- T3_FULL: in a composition no lender has room for a capsule of the largest page, or an evacuation ran out of room (04 R128, 15 R406; log entry 36). -/
def t3Full (s : State) : Bool :=
  let most := s.cont.partitions.foldl (fun n e => max n (capsuleSize e.2 0 64)) 0
  (s.comp.inComp && !FMap.any (fun _ a => decide (most ≤ a.freeMiB * 2 ^ 20)) s.tier.adverts) || evacuationStuck s

/-- T2_LOW, from READY on: until the memories are trained the register keeps its reset value (04 R128; log entry 36). -/
def t2Low (s : State) : Bool := s.svc.phase == 4 && decide (t2Free s < reserveBytes s)

def tierReg (s : State) (off : Nat) : Nat :=
  let t := s.tier
  let set := t.set
  if 0x80 ≤ off ∧ off < 0xE0 then
    let d := ddrAt s ((off - 0x80) / 8)
    d.state + 8 * boolNat d.pwrEn + 16 * boolNat d.failing + 256 * d.sizeGiB + 2 ^ 32 * d.uncorr
  else match off with
    | 0x00 => (if set.journalSize = 0 then 0 else Nat.log2 set.journalSize - 20) + 2 ^ 8 * set.commonsShare + 2 ^ 16 * set.t2Reserve
        + 2 ^ 25 * set.prefetchFloor + 2 ^ 32 * set.prefetchLead
    | 0x08 => boolNat (t2Low s) + 2 * boolNat (t3Full s) + 4 * boolNat (anyLag s) + 8 * boolNat s.comp.inComp
    | 0x10 => flagWord s offTierEvents
    | 0x18 => set.journalBase
    | 0x20 => set.journalHead
    | 0x28 => set.journalAck
    | 0x30 => t1Free s / widestGranule s
    | 0x38 => t2Free s / 2 ^ 20
    | 0x40 => t3Held s / 2 ^ 20
    | 0x48 => t3Lent s / 2 ^ 20
    | 0x50 => t.moverLast
    | 0x58 => s.counters.parks
    | 0x60 => s.counters.revives
    | 0xE0 => sumBits (t.hbm.map (fun e => (e.2.used != 0, e.1))) + sumBits (t.hbm.map (fun e => (e.2.copying.isSome, 8 + e.1)))
        + sumBits (t.hbm.map (fun e => (!e.2.lost.isEmpty, 16 + e.1)))
    | 0xE8 => set.recallHead
    | 0xF0 => set.recallTail
    | _ => 0

/-- LNK registers (12 R344). DESIGN CHOICE (log entry 85): a slack outside the 16-bit signed field of LNK_SLACK_MIN, a frame 8 beats early or more, shows modulo 2^16. -/
def lnkReg (s : State) (l off : Nat) : Nat :=
  let x := linkAt s l
  let f := flowAt s l
  let pair := if x.st = .half then (if x.lanes % 4 = 3 then 1 else 2) else 0
  match off with
  | 0x00 => linkCode x.st + 16 * x.lanes + 2 ^ 8 * pair + 2 ^ 16 * x.peer + 2 ^ 32 * x.peerLink + 2 ^ 37 * boolNat x.mapOk
  | 0x08 => flagWord s (offLnkEvents l)
  | 0x10 => x.late
  | 0x18 => signedField 16 x.slack + 2 ^ 16 * x.slackTransfer + 2 ^ 32 * s.links.slackStep
  | 0x20 => x.retry
  | 0x28 => x.fecCorrected + 2 ^ 32 * x.fecUncorrectable
  | 0x30 => f.ctrlCredit + 2 ^ 8 * f.migrCredit + 2 ^ 16 * f.bulkCredit
  | 0x38 => f.schedBytes
  | 0x40 => f.migrBytes
  | 0x48 => f.ctrlBytes
  | 0x50 => f.bulkBytes
  | _ => 0

def powerCode (k : District) : Nat :=
  if k.running then 0 else match k.power with | .top => 1 | .heart => 2 | .base => 3

/-- FAB_CORE_MAP_b as 256 bits. -/
def coreMap (b : Block) : Nat :=
  (b.map.zipIdx.foldl (fun n e => n + (e.1 + 32 * boolNat (b.pendingFence.any (fun f => f.1 == e.1))) * 2 ^ (8 * e.2)) 0) + b.spares.length * 2 ^ 240

def fencedWord (b : Block) : Nat := sumBits (b.fenced.map (fun c => (true, c)))

def fabReg (s : State) (d off : Nat) : Nat :=
  let k := FMap.getD s.fab.districts d {}
  if 0x400 ≤ off ∧ off < 0x600 then bitsOf (coreMap (blockAt s d ((off - 0x400) / 0x20))) (8 * (off % 0x20)) 64
  else if 0x600 ≤ off ∧ off < 0x640 then
    fencedWord (blockAt s d ((off - 0x600) / 4)) + 2 ^ 32 * fencedWord (blockAt s d ((off - 0x600) / 4 + 1))
  else match off with
    | 0x000 => powerCode k + 4 * boolNat s.sched.active.isSome
        + sumBits ((List.range 16).map (fun b => ((blockAt s d b).wholeFenced || (blockAt s d b).resetting, 4 + b)))
        + 2 ^ 20 * (List.range 16).foldl (fun n b => n + (blockAt s d b).spares.length) 0
    | 0x008 => k.util + 2 ^ 16 * k.killsLast
    | 0x010 => flagWord s (offDstEvents d)
    | 0x200 => k.exactLost
    | 0x208 => k.residueMm
    | 0x210 => k.satOut
    | 0x218 => k.nanOut
    | 0x220 => flagWord s (offArithEvents d)
    | 0x228 => k.residueLast
    | _ => 0

def calReg (s : State) (off : Nat) : Nat :=
  if off = 0xF000 then
    s.cal.status % 4 + 4 * s.cal.copyInUse + 8 * (s.cal.status / 8 % 2) + 2 ^ 16 * s.cal.user.length + 2 ^ 32 * (s.cal.writeCount % 2 ^ 32)
  else if off < 0x8000 then (if factoryItem (off / 8) then signedField 64 (calFactory s (off / 8)) else 0)
  else
    let w := (off - 0x8000) / 8
    if (userBounds (0x10000 + w)).isSome then signedField 64 (calUser s (0x10000 + w)) else 0

/-- The 8-byte register at an 8-byte aligned BAR0 offset; an offset that holds none reads as zero (19 R476, R479, R480). -/
def register (s : State) (off : Nat) : Nat :=
  if off < 0x10000 then mgmtReg s off
  else if off < 0x20000 then cadReg s (off - 0x10000)
  else if off < 0x30000 then supReg s (off - 0x20000)
  else if off < 0x40000 then secReg s (off - 0x30000)
  else if off < 0x50000 then evrReg s (off - 0x40000)
  else if off < 0x54000 then cliReg s ((off - 0x50000) / 0x40) (off % 0x40)
  else if off < 0x60000 then 0
  else if off < 0x70000 then tierReg s (off - 0x60000)
  else if off < 0x78000 then lnkReg s ((off - 0x70000) / 0x400) (off % 0x400)
  else if off < 0x80000 then 0
  else if off < 0x90000 then fabReg s ((off - 0x80000) / 0x1000) (off % 0x1000)
  else if 0x100000 ≤ off ∧ off < 0x110000 then calReg s (off - 0x100000)
  else 0

/-- A byte that the management target gives from phase 1 on (20 R495); no row of the table reads it. Bytes 0x20 to 0x8F are sensor temperatures, free values here (log entry 81). -/
def mgmtTargetByte (s : State) (off : Nat) : Byte :=
  let word := match off / 8 with
    | 0 => mgmtReg s 0x10
    | 1 => supReg s 0x00
    | 2 => supReg s 0x10
    | 3 => supReg s 0x18
    | 0x12 => secReg s 0x00
    | n => if n < 0x12 then Config.free (s.freeCtr + n) else 0
  BitVec.ofNat 8 (word / 2 ^ (8 * (off % 8)))

/-! ### Reads -/

def answerRead (b : Bytes) (s : State) : State := { s with out := { s.out with reads := s.out.reads ++ [b] } }

/-- MGMT_FLAG_CNT for the selection in force. -/
def execMgmtFlagCntRead (s : State) : Host.Outcome State Fault Refusal :=
  .next (answerRead (leBytes 8 (register s 0x40)) s)

/-- A 4-byte read (19 R476; 02 R62): bytes 0–3 of CAD_BEAT latch bytes 4–7, which the next 4-byte read of them gives. -/
def read4 (off : Nat) (s : State) : Nat × State :=
  let v := register s (off / 8 * 8)
  if off = 0x10010 then (v % 2 ^ 32, { s with cad := { s.cad with beatLatch := v / 2 ^ 32, latched := true } })
  else if off = 0x10014 ∧ s.cad.latched then (s.cad.beatLatch, { s with cad := { s.cad with latched := false } })
  else (v / 2 ^ (8 * (off % 8)) % 2 ^ 32, s)

/-- Bytes 0–3 of CAD_BEAT. -/
def execCadBeatLowRead (s : State) : Host.Outcome State Fault Refusal :=
  let r := read4 0x10010 s
  .next (answerRead (leBytes 4 r.1) r.2)

/-- A BAR0 access of 1 or 2 bytes, or not naturally aligned. -/
def execBadAccess (offset size : Nat) (write : Bool) (s : State) : Host.Outcome State Fault Refusal :=
  .next (if (size = 4 ∨ size = 8) ∧ offset % size = 0 then s
    else
      let s := setFlag offMgmtEvents 0 s
      if write then s else answerRead (List.replicate size 0) s)

/-! ### Writes -/

def refuseWrite (s : State) : State := setFlag offMgmtEvents 1 s

/-- CLI_REPLY_BASE or CLI_REPLY_CFG (11 R286): refused while a recognised packet waits for its final reply, and for clients 1 to 255 while they run. -/
def execReplyRingWrite (n : Nat) (cfg : Bool) (v : Word64) (s : State) : Host.Outcome State Fault Refusal :=
  let c := clientOf s n
  .next (if 255 < n then s
    else if c.inflight ≠ 0 ∨ (n ≠ 0 ∧ c.run) then refuseWrite s
    else
      let c := if cfg then { c with size := min 8 (v.toNat % 16), pasid := bitsOf v.toNat 12 20 } else { c with base := v.toNat }
      let c := { c with scan := 0, seq := 1, replyAt := 0, replyCount := 0, ack := 0, previous := .none, held := false }
      let s := putClient n c s
      { s with host := { s.host with ringEverSet := s.host.ringEverSet || c.base != 0 } })

/-- CLI_REPLY_ACK: slots are freed, and a scan held for want of two resumes (11 R288). -/
def execReplyAckWrite (n : Nat) (v : Word64) (s : State) : Host.Outcome State Fault Refusal :=
  .next (if 255 < n then s
    else
      let s := modClient n (fun c => { c with ack := v.toNat % 2 ^ 32 }) s
      modClient n (fun c => { c with held := c.held && decide (freeReplySlots s n < 2) }) s)

/-- TIER_JOURNAL_ACK: a write that lowers ACK or exceeds HEAD is refused (04 R128). -/
def execJournalAckWrite (v : Word64) (s : State) : Host.Outcome State Fault Refusal :=
  .next (if !journalOn s ∨ v.toNat < s.tier.set.journalAck ∨ s.tier.set.journalHead < v.toNat then refuseWrite s
    else { s with tier := { s.tier with set := { s.tier.set with journalAck := v.toNat } } })

/-- RW registers with no behaviour of their own (19 R475); any other offset ignores the write. -/
def writeRegister (off : Nat) (v : Nat) (s : State) : State :=
  if off = 0x20 then { s with mgmt := { s.mgmt with mask := v % 512 } }
  else if off = 0x38 then { s with mgmt := { s.mgmt with selOff := v % 2 ^ 22 / 8 * 8, selBit := bitsOf v 24 6 } }
  else if off = 0x48 then { s with mgmt := { s.mgmt with winBase := bitsOf v 36 16 } }
  else if off = 0x50 then { s with mgmt := { s.mgmt with winEnable := bitOf v 0 } }
  else if 0x50000 ≤ off ∧ off < 0x54000 ∧ off % 0x40 = 0x20 then
    (if v % 8 = 0 then modClient ((off - 0x50000) / 0x40) (fun c => { c with shadow := v }) s else refuseWrite s)
  else s

def execRegisterWrite (w : RegWrite) (s : State) : Host.Outcome State Fault Refusal := .next (writeRegister w.offset w.value.toNat s)

/-! ### Flags (19 R477, R481) -/

/-- Flags a W1C register has; its bits above are reserved. -/
def flagBits (off : Nat) : Nat :=
  if off = offCadEvents then 10
  else if off = offSupEvents then 8
  else if off = offSecEvents then 7
  else if off = offEvrEvents then 5
  else if off = offTierEvents then 7
  else if off = offMgmtEvents then 5
  else match flagGroup off with
    | some 5 => 4
    | some 6 => 10
    | some 7 => 6
    | _ => 0

/-- A W1C write: a flag that hardware sets in the same cycle stays set. -/
def execFlagClearW1c (offset : Nat) (mask hwSets : Word32) (s : State) : Host.Outcome State Fault Refusal :=
  .next ((List.range (flagBits offset)).foldl (fun s b =>
    if bitOf mask.toNat b then clearFlag offset b (bitOf hwSets.toNat b) s else s) s)

/-- MGMT_FLAG_CLEAR: every flag of the selected groups. -/
def execMgmtFlagClear (groups : Nat) (hwSets : List (Nat × Nat)) (s : State) : Host.Outcome State Fault Refusal :=
  let picked (off bit : Nat) : Bool := (flagGroup off).any (fun g => bitOf groups g) && decide (bit < flagBits off)
  let set := (s.flags.map (fun e => (e.1 / 64, e.1 % 64))) ++ hwSets
  .next (((set.filter (fun e => picked e.1 e.2)).eraseDups).foldl (fun s e => clearFlag e.1 e.2 (hwSets.contains e) s) s)

/-! ### The State Space window (19 R484, R485) -/

def byteOf (b : Bytes) (i : Nat) : Byte := b.getD i 0

/-- One byte of a page frame: tiles of a T1 frame to the page size, the capsule of a T2 frame, else zero. -/
def frameByte (s : State) (addr : Nat) : Byte :=
  match frameOver s addr with
  | none => 0
  | some a =>
    match frameAt s a with
    | none => 0
    | some f =>
      let i := addr - a
      if f.tier ≤ 1 then
        (match partitionAt s f.partition with
          | some q => if i < pageBytes q then Memory.read s.mem addr else 0
          | none => 0)
      else if f.tier = 2 then byteOf f.capsule i
      else 0

/-- One byte of a ledger segment as stored: the Zstandard frame of its runs (03 R73). -/
def segmentByte (s : State) (off : Nat) : Byte :=
  let k := off / 65536
  match (s.slots.table.find? (fun e => e.2.segments.contains k)).bind (fun e => (segmentsOf e.2.body)[e.2.segments.idxOf k]?) with
  | some g => byteOf (Config.zstdFrame ((g.map runImage).flatten)) (off % 65536)
  | none => 0

/-- One byte of State Space. -/
def spaceByte (s : State) (addr : Nat) : Byte :=
  let off := addr % 2 ^ 48
  match addr / 2 ^ 48 with
  | 1 => frameByte s addr
  | 2 => segmentByte s off
  | 3 => let x := sessionAt s (off / 2 ^ 24); byteOf ((x.pages[off % 2 ^ 24 / 16]?).elim [] (listEntry x)) (off % 16)
  | 4 => let x := sessionAt s (off / 2 ^ 16); if x.d.state = 0 then 0 else byteOf (countsBytes x) (off % 2 ^ 16)
  | 5 => let x := sessionAt s (off / 128); if x.d.state = 0 then 0 else byteOf (constraintBytes x) (off % 128)
  | _ => 0

/-- A byte falls on a frame that a lender holds. -/
def onT3 (s : State) (addr : Nat) : Bool :=
  addr / 2 ^ 48 == 1 && ((frameOver s addr).bind (fun a => frameAt s a)).any (fun f => f.tier == 3)

/-- A BAR4 read of up to 4 KiB. -/
def execWindowRead (offset len : Nat) (s : State) : Host.Outcome State Fault Refusal :=
  let n := min len 4096
  let base := s.mgmt.winBase * 2 ^ 36 + offset % 2 ^ 36
  let s1 := { s with mgmt := { s.mgmt with winReads := satAdd (2 ^ 64 - 1) s.mgmt.winReads 1 } }
  .next (if !windowOpen s then setFlag offMgmtEvents 4 (answerRead (List.replicate n 0) s1)
    else
      let addrs := (List.range n).map (fun i => base + i)
      let s2 := answerRead (addrs.map (spaceByte s)) s1
      if addrs.any (onT3 s) then setFlag offMgmtEvents 2 s2 else s2)

/-- A BAR4 write is discarded. -/
def execWindowWrite (_ : Nat) (s : State) : Host.Outcome State Fault Refusal := .next (setFlag offMgmtEvents 0 s)

end Sys2Proof.Machine
end

