-- ==== Sys2Proof/Machine/Relay.lean ====
section
/-! DEFINITION. What ring members and homes send one another: forwarded commands and their data, candidates and seals, cancels and withdrawals, capsule parts, departures (12 R338, R341; 03 R92; 09 R227, R232; 04 R109; 16 R433). -/

namespace Sys2Proof.Machine

/-! ### Forwarded commands (12 R338) -/

/-- The body of a session command that another device forwarded, with the host data it names. -/
def forwardedBody (p : Packet) (buf : Bytes) (cap : Option SessionCapsule) : Option (Nat → Packet → State → State) :=
  match opcodeOf p with
  | 0x21 => some forkBody
  | 0x22 => some (appendBodyCmd buf)
  | 0x23 => some (if isTrain p then trainBody else generateBody)
  | 0x24 => some parkBody
  | 0x25 => some reviveBody
  | 0x26 => some cancelBody
  | 0x27 => some closeBody
  | 0x28 => some queryBody
  | 0x29 => some constrainBody
  | 0x2A => some exportBody
  | 0x2B => cap.map importBody
  | 0x30 => some handoverOutBody
  | _ => none

/-- Whether the command reads a host buffer at the device that received it. -/
def awaitsData (p : Packet) : Bool := opcodeOf p == 0x2B || (opcodeOf p == 0x22 && bitOf (argOf p 21 1) 1)

/-- What the command waits for besides its data (03 R91). -/
def forwardedWaits (p : Packet) (s : State) : Bool :=
  if opcodeOf p = 0x24 ∨ opcodeOf p = 0x2A ∨ opcodeOf p = 0x30 then behindRevive p s
  else if opcodeOf p = 0x26 then false
  else behindAppend p s

def dropRelayed (e : Nat × Packet) (s : State) : State := { s with comp := { s.comp with relayed := s.comp.relayed.erase e } }

/-- Checks 7 to 9 on a forwarded command, then its own body; a REMOTE record sends it on, one hop. -/
def serveForwarded (sender : Nat) (p : Packet) (buf : Bytes) (cap : Option SessionCapsule) (s : State) : State :=
  match checkHandle p 0 s with
  | .wait => s
  | .refuse s a => dropRelayed (sender, p) (reply p a s)
  | .forward dest s => dropRelayed (sender, p) (forwardTo dest p buf (await (.forwarded (tagOf p)) (originOf p s) s))
  | .run colour s =>
    if forwardedWaits p s then s
    else match forwardedBody p buf cap with
      | some body => dropRelayed (sender, p) (body colour p s)
      | none => dropRelayed (sender, p) (reply p (bad 0x0008) s)

/-- A FORWARD message; a command that reads a host buffer waits for its HOSTDATA. -/
def execForward (sender : Nat) (p : Packet) (s : State) : Host.Outcome State Fault Refusal :=
  let s := if s.comp.relayed.contains (sender, p) then s else { s with comp := { s.comp with relayed := s.comp.relayed ++ [(sender, p)] } }
  .next (if awaitsData p then s else serveForwarded sender p [] none s)

/-- The command this device forwarded under a client's tag. -/
def forwardedCommand (s : State) (client : Option Nat) (tag : Nat) : Option Command :=
  s.commands.find? (fun c => (match c.work with | .forwarded t => t == tag | _ => false) && client.all (fun n => n == c.origin.client))

/-- KIND of a command's output envelopes (13 R358). -/
def outputKind (opcode : Nat) : Nat := if opcode = 0x23 then 2 else if opcode = 0x2A then 4 else 5

/-- HOSTDATA: the input of a command forwarded here, or output of one forwarded from here. -/
def execHostdata (source tag addr : Nat) (data : Bytes) (cap : Option SessionCapsule) (s : State) : Host.Outcome State Fault Refusal :=
  .next (match s.comp.relayed.find? (fun e => e.1 == source && tagOf e.2 == tag && awaitsData e.2) with
    | some e => serveForwarded e.1 e.2 data cap s
    | none =>
      match forwardedCommand s none tag with
      | some c => hostOut c.origin addr (outputKind c.origin.opcode) data s
      | none => s)

/-- The home's reply goes into the issuing client's ring, with the home's BEAT; every status but ACCEPTED is final. -/
def execForwardReply (client tag status detail handle beat count0 count1 : Nat) (s : State) : Host.Outcome State Fault Refusal :=
  .next (match forwardedCommand s (some client) tag with
    | none => s
    | some c =>
      let final := status != stACCEPTED
      let s := if final then { s with commands := s.commands.erase c } else s
      landReply c.origin final ⟨client, 0, tag, status, detail, handle, beat, count0, count1⟩ s)

/-! ### Candidates and seals (09 R227; 12 R341) -/

/-- CANDIDATE at ring position 0: its view of each session named. -/
def execCandidate (partition step : Nat) (entries : List Candidate) (s : State) : Host.Outcome State Fault Refusal :=
  let sealer : Bool := match partitionAt s partition with | some q => q.position == 0 | none => false
  .next (if !sealer ∨ step < s.sched.step then s
    else
      let take (l : List (Nat × Candidate)) (c : Candidate) : List (Nat × Candidate) :=
        l.filter (fun e => e.2.handle != c.handle) ++ (if c.candidate then [(partition, c)] else [])
      { s with sched := { s.sched with candidates := entries.foldl take s.sched.candidates } })

/-- A place as a SEAL names it. -/
def placeOfEntry (e : SealEntry) : Place := ⟨e.handle, e.piece, e.pieces, e.drafts, e.kept, e.chunk, e.replay, e.qpos, false⟩

/-- SEAL at a ring member: the microbatch's membership for the next step. -/
def execSealMessage (m : SealMsg) (s : State) : Host.Outcome State Fault Refusal :=
  let member : Bool := match partitionAt s m.partition with | some q => q.position != 0 | none => false
  .next (if !member ∨ m.step ≠ s.sched.step + 1 then s
    else
      let rest := s.sched.sealNext.filter (fun x => !(x.partition == m.partition && x.microbatch == m.microbatch))
      let handles := m.entries.map (fun e => e.handle)
      { s with sched := { s.sched with
          sealNext := rest ++ [⟨m.partition, m.microbatch, m.step, m.entries.map placeOfEntry⟩]
          kept := s.sched.kept.filter (fun k => !(k.2.partition == m.partition && k.2.microbatch == m.microbatch
            && k.2.places.all (fun p => handles.contains p.handle))) } })

/-! ### Notices about sessions (03 R92; 09 R232) -/

/-- A session's places are empty from here on. -/
def emptyPlaces (h : Nat) (s : State) : State :=
  let mark (m : SealedMb) : SealedMb := { m with places := m.places.map (fun p => { p with withdrawn := p.withdrawn || p.handle == h }) }
  { s with sched := { s.sched with
      sealPrev := s.sched.sealPrev.map mark, sealNow := s.sched.sealNow.map mark, sealNext := s.sched.sealNext.map mark
      candidates := s.sched.candidates.filter (fun e => e.2.handle != h) } }

/-- A cancel notice: later outputs are discarded, and the frames go at the next step boundary. -/
def execCancelNotice (n : SessionNotice) (s : State) : Host.Outcome State Fault Refusal :=
  if handleHome n.handle = ownIndex s then .next s
  else
    let g := guestAt s n.handle
    let s := framesDue (g.pages.map (fun p => p.frame)) (emptyPlaces n.handle s)
    .next { s with slots := { s.slots with guests := FMap.del s.slots.guests n.handle } }

/-- A withdrawal: a place whose first slot has not run stays empty, one in flight is discarded at later commit points. -/
def execWithdrawal (n : SessionNotice) (s : State) : Host.Outcome State Fault Refusal :=
  .next (if handleHome n.handle = ownIndex s then s else emptyPlaces n.handle s)

/-! ### Capsule parts (04 R109) -/

/-- A PART reaches the session's home, which writes the capsule, or a ring position that stores its own part. -/
def execPart (handle position : Nat) (body : Bytes) (s : State) : Host.Outcome State Fault Refusal :=
  let put (l : List (Nat × Bytes)) : List (Nat × Bytes) := l.filter (fun e => e.1 != position) ++ [(position, body)]
  .next (match liveSlot s handle with
    | some slot => modSession slot (fun x => { x with parts := put x.parts }) s
    | none =>
      if handleHome handle = ownIndex s then s
      else
        let g := guestAt s handle
        putGuest handle { g with parts := put g.parts } s)

/-! ### Losing a ring member (16 R433) -/

/-- A member's departure boundary: of several, the earliest applies. -/
def nameDeparture (member boundary : Nat) (rings : List Nat) (s : State) : State :=
  match s.sched.departures.find? (fun e => e.1 == member) with
  | none => { s with sched := { s.sched with departures := s.sched.departures ++ [(member, boundary, rings)] } }
  | some _ => { s with sched := { s.sched with departures := s.sched.departures.map (fun e =>
      if e.1 = member then (member, min e.2.1 boundary, (e.2.2 ++ rings).eraseDups) else e) } }

/-- A DEPARTURE about rings this device belongs to. -/
def execDeparture (member boundary : Nat) (rings : List Nat) (s : State) : Host.Outcome State Fault Refusal :=
  .next (if rings.any (fun r => (ringIds s).contains r) then nameDeparture member boundary rings s else s)

/-- A ring member gives no CADENCE_MARK for 64 beats, or every link to it is LOST: this device tells the ring on its behalf. -/
def execMemberLost (member : Nat) (s : State) : Host.Outcome State Fault Refusal :=
  match s.sched.active with
  | none => .next s
  | some img =>
    let rings := (img.rings.filter (fun r => r.members.contains member)).map (fun r => r.ringId)
    if member = ownIndex s ∨ rings.isEmpty then .next s
    else
      let b := boundaryAfter img img.fallbackLead s
      .next (send (.departureOf member b rings) (nameDeparture member b rings s))

end Sys2Proof.Machine
end

