-- ==== Sys2Proof/Machine/Boundary.lean ====
section
/-! DEFINITION. The step boundary: what falls due there in the order of 01 R30, and what a step begins with. Also the recorder's mirror pass and TIME record (17 R448, R450). -/

namespace Sys2Proof.Machine

/-! ### Departures at their boundary (16 R433 to R436, 02 R49) -/

/-- Departures whose boundary has come. -/
def dueDepartures (s : State) : List (Nat × Nat × List Nat) := s.sched.departures.filter (fun e => decide (e.2.1 ≤ s.cad.beat))

/-- The rings of the active image that a departure names. -/
def departedRings (rings : List Nat) (s : State) : List RingSection :=
  match s.sched.active with | some img => img.rings.filter (fun r => rings.contains r.ringId) | none => []

/-- The plan armed for a ring, and the role this device takes at the loss of a member. -/
def roleAt (r : RingSection) (member : Nat) (s : State) : Option Image :=
  match s.sched.plans.find? (fun q => q.armed && q.img.ringId == r.ringId), r.members.findIdx? (fun m => m == member) with
  | some q, some i => (q.img.roleFor[i]?).bind (fun k => q.img.roles[k]?)
  | _, _ => none

/-- Drops the frames of a session at once. -/
def dropPages (slot : Nat) (s : State) : State :=
  let s := ((sessionAt s slot).pages.map (fun p => p.frame)).foldl (fun s a => dropFrame a s) s
  modSession slot (fun x => { x with pages := [] }) s

/-- Live home sessions of a partition. -/
def homeSlots (s : State) (part : Nat) : List Nat :=
  (s.slots.table.filter (fun e => e.2.d.partition == part && (e.2.d.state == 1 || e.2.d.state == 2 || e.2.d.state == 3 || e.2.d.state == 4 || e.2.d.state == 7))).map (fun e => e.1)

/-- Order 1 of R434: the partition's passes are killed, its deferrals end, every frame of its sessions is released, its checkpoint is abandoned. -/
def clearPartition (part : Nat) (s : State) : State :=
  let s := abandonCheckpoint part s
  let out (m : SealedMb) : Bool := m.partition != part
  let s := { s with sched := { s.sched with
    sealPrev := s.sched.sealPrev.filter out, sealNow := s.sched.sealNow.filter out, sealNext := s.sched.sealNext.filter out
    kept := s.sched.kept.filter (fun k => k.2.partition != part) } }
  let guests := (s.slots.guests.filter (fun e => e.2.d.partition == part)).map (fun e => e.1)
  let s := guests.foldl (fun s h => dropGuest h (((guestAt s h).pages.map (fun p => p.frame)).foldl (fun s a => dropFrame a s) s)) s
  (homeSlots s part).foldl (fun s slot => dropPages slot s) s

/-- A home session of a ring that has lost a member replays from its ledger (16 R435). -/
def rebuildHome (slot : Nat) (s : State) : State :=
  let x := sessionAt s slot
  let s := if x.d.state = 4 then (match x.handover with | some h => if h.source then revertOpen slot true s else freeTarget slot s | none => s) else s
  let x := sessionAt s slot
  if x.d.state = 7 then
    modSession slot (fun x => { x with rebuild := x.rebuild.map (fun r => { r with next := 0, stop := replayStop x }) }) (dropPages slot s)
  else enterRebuilding slot (dropPages slot s)

/-- Order 1 for one departure: a ring with an armed plan, or this device's own departure, clears the partition. -/
def departOrder1 (e : Nat × Nat × List Nat) (s : State) : State :=
  (departedRings e.2.2 s).foldl (fun s r =>
    if e.1 = ownIndex s ∨ (roleAt r e.1 s).isSome then clearPartition r.partition s else s) s

/-- A staged image that names a lost member's ring is discarded (16 R434). -/
def discardStaged (r : RingSection) (member : Nat) (s : State) : State :=
  match s.sched.staged with
  | some g =>
    if g.img.rings.any (fun x => x.ringId == r.ringId && x.members.contains member) then
      finish .schedule { status := stSHAPE_MISMATCH, detail := (r.members.findIdx? (fun m => m == member)).getD 0 } { s with sched := { s.sched with staged := none } }
    else s
  | none => s

/-! ### Activation (08 R202 to R204, R220) -/

/-- The microprogram stores an image fills: of every core of a Block its MPROG sections name that serves a logical core they name (08 R503), in ascending order of cores. -/
def imageStores (s : State) (img : Image) : FMap Mprog :=
  let used (m : Mprog) (b : Nat) : List Nat :=
    (List.range 32).filter (fun c => ((blockAt s m.district b).map.zipIdx).any (fun (e : Nat × Nat) => e.1 == c && bitOf m.cores e.2))
  let block (m : Mprog) (b : Nat) : FMap Mprog := (used m b).map (fun c => (m.district * 512 + b * 32 + c, m))
  ((img.mprogs.map (fun (m : Mprog) => (((List.range 16).filter (bitOf m.blocks)).map (block m)).flatten)).flatten)

/-- Firmware keeps each District's microprograms in HBM and loads the cores' stores from them (07 R180). -/
def loadImage (img : Image) (s : State) : State :=
  let copy : FMap Mprog := img.mprogs.map (fun (m : Mprog) => (m.district, m))
  let stores := imageStores s img
  let s := { s with fab := { s.fab with copy := copy, stores := stores } }
  (s.fab.blocks.map (fun e => e.1)).foldl (fun s k => loadStores (k / 16) (k % 16) (blockAt s (k / 16) (k % 16)).spareTop s) s

/-- Puts an image in force at a boundary; plans of another base are disarmed, the Districts stand idle until a slot starts (14 R388), only regions of passes in flight keep what they hold (07 R186, 01 R31), its microprograms are loaded and its adapters declared, and each ring has its record. -/
def putImage (img : Image) (at_ : Nat) (s : State) : State :=
  let s := { s with
    fab := { s.fab with store := match s.sched.active with | some old => carryImage old img s.fab.store | none => [] }
    sched := { s.sched with
      active := some img, base := some img, applied := [], step := (at_ - img.anchor) / max 1 img.stepBeats
      plans := s.sched.plans.map (fun q => if q.img.base = img.facts.trailer then q else { q with armed := false }) } }
  let s := (List.range 16).foldl (fun s d => modDistrict d (fun k => { k with running := false }) s) (declareAdapters img (loadImage img s))
  img.rings.foldl (fun s r => report 0x404 (leBytes 8 r.ringId ++ digestHead 16 img.facts.trailer) s) s

/-- The lowest ring position of an image whose member has sent no matching IMAGE_READY. -/
def readyShort (g : StagedImage) (s : State) : Option Nat :=
  let missing := (g.img.rings.map (fun r => (r.members.zipIdx).filterMap (fun e =>
    if e.1 = ownIndex s ∨ s.sched.readies.contains ⟨e.1, r.ringId, r.ringDigest, g.activateAt⟩ then none else some e.2))).flatten
  missing.foldl (fun m i => match m with | none => some i | some j => some (min i j)) none

/-- The check one step before ACTIVATE_AT, and the activation at it. -/
def stagedDue (s : State) : State :=
  match s.sched.staged with
  | none => s
  | some g =>
    let len := match s.sched.active with | some img => img.stepBeats | none => g.img.stepBeats
    let s := if !g.checked ∧ g.activateAt ≤ s.cad.beat + len then
        (match readyShort g s with
        | some i => finish .schedule { status := stSHAPE_MISMATCH, detail := i } { s with sched := { s.sched with staged := none } }
        | none => { s with sched := { s.sched with staged := some { g with checked := true } } })
      else s
    match s.sched.staged with
    | some g =>
      if g.activateAt ≤ s.cad.beat then
        finish .schedule ok (putImage g.img g.activateAt { s with sched := { s.sched with staged := none, halted := [], fallbacks := [] } })
      else s
    | none => s

/-! ### Fallback plans (08 R216) -/

/-- The image in force: the base with every applied plan. -/
def withPlans (base : Image) (ids : List Nat) : Image :=
  ids.foldl (fun img i => match base.fallbacks.find? (fun f => f.planId == i) with | some f => withPlan img f | none => img) base

/-- Partitions that a plan changes. -/
def planParts (base : Image) (f : FallbackPlan) : List Nat :=
  (f.slots.map (fun x => x.partition) ++ f.transfers.filterMap (fun t => (slotById base t.slotId).map (fun x => x.partition))).eraseDups

/-- A FALLBACK lands: a device that holds the plan applies or reverts it. -/
def applyFallback (d : DueFallback) (s : State) : State :=
  match s.sched.base with
  | none => s
  | some img =>
    match img.fallbacks.find? (fun f => f.planId == d.planId) with
    | none => s
    | some f =>
      if s.sched.applied.contains d.planId != d.revert then s
      else
        let ids := if d.revert then s.sched.applied.filter (fun i => i != d.planId) else s.sched.applied ++ [d.planId]
        let s := { s with sched := { s.sched with applied := ids, active := some (withPlans img ids) } }
        (planParts img f).foldl (fun s p => countPart p (fun c => { c with fallbacks := c.fallbacks + 1 }) s) s

def fallbacksDue (s : State) : State :=
  let now := s.sched.fallbacks.filter (fun d => decide (d.at_ ≤ s.cad.beat))
  now.foldl (fun s d => applyFallback d s) { s with sched := { s.sched with fallbacks := s.sched.fallbacks.filter (fun d => !decide (d.at_ ≤ s.cad.beat)) } }

/-- Blocks and links that come back at this boundary. -/
def unitsBack (s : State) : State :=
  let blocks := (s.fab.blocks.filter (fun e => match e.2.rejoinAt with | some b => decide (b ≤ s.cad.beat) | none => false)).map (fun e => e.1)
  let links := (s.links.port.filter (fun e => match e.2.widenAt with | some b => decide (b ≤ s.cad.beat) | none => false)).map (fun e => e.1)
  let s := blocks.foldl (fun s k => rejoinBlock (k / 16) (k % 16) s) s
  links.foldl (fun s l =>
    let s := modLink l (fun x => { x with widenAt := none }) s
    if (linkAt s l).st = .half then widenLink l s else s) s

/-- The rings of an own departure leave the image. -/
def withoutRings (rings : List Nat) (img : Image) : Image := { img with rings := img.rings.filter (fun r => !rings.contains r.ringId) }

/-- Order 3 for one departure: the role image, or the halt of the ring, or this device without the ring; then R435. -/
def departOrder3 (e : Nat × Nat × List Nat) (s : State) : State :=
  (departedRings e.2.2 s).foldl (fun s r =>
    let s := discardStaged r e.1 s
    let s := if e.1 = ownIndex s then
        { s with sched := { s.sched with
          active := s.sched.active.map (withoutRings [r.ringId]), base := s.sched.base.map (withoutRings [r.ringId]) } }
      else match roleAt r e.1 s with
        | some role =>
          let s := { s with sched := { s.sched with halted := s.sched.halted.filter (fun p => p != r.partition) } }
          withRole (putImage role s.cad.beat s) role
        | none => { s with sched := { s.sched with halted := if s.sched.halted.contains r.partition then s.sched.halted else s.sched.halted ++ [r.partition] } }
    (homeSlots s r.partition).foldl (fun s slot => rebuildHome slot s) s) s

/-- The departures this boundary lands: those named, and this device's own from its rings (02 R49). -/
def landing_ (s : State) : List (Nat × Nat × List Nat) :=
  let own := match s.cad.departAt with | some b => if b ≤ s.cad.beat then [(ownIndex s, b, ringIds s)] else [] | none => []
  own ++ dueDepartures s

/-- What is left to do once every departure has landed: a LEAVING device is in no ring and runs no image any more. -/
def departed (s : State) : State :=
  let own : Bool := match s.cad.departAt with | some b => decide (b ≤ s.cad.beat) | none => false
  let s := { s with sched := { s.sched with departures := s.sched.departures.filter (fun e => !decide (e.2.1 ≤ s.cad.beat)) } }
  if !own then s
  else
    let s := { s with cad := { s.cad with departAt := none } }
    let s := s.tier.due.foldl (fun s a => dropFrame a s) { s with tier := { s.tier with due := [] } }
    if s.cad.st = .leaving then reacquire { s with sched := { s.sched with active := none, base := none, applied := [], fallbacks := [], sealPrev := [], sealNow := [], sealNext := [], kept := [] } } else s

/-! ### The orders of R30 -/

/-- Order 1: frees, and the snapshots of checkpoints whose instant this is. -/
def order1 (img : Image) (s : State) : State :=
  let s := s.tier.due.foldl (fun s a => dropFrame a s) { s with tier := { s.tier with due := [], releasing := 0 } }
  let closing := (s.slots.table.filter (fun e => e.2.d.state == 8)).map (fun e => e.1)
  let s := closing.foldl (fun s slot => freeClosing slot s) s
  let s := releaseHolds s
  let s := (landing_ s).foldl (fun s e => departOrder1 e s) s
  dueSnapshots img s

/-- Order 2: swaps of fenced cores unless a firmware activation runs (07 R188), remaps of spared channels, spared rows. -/
def order2 (s : State) : State :=
  let s := if s.svc.takenOver then s else (s.fab.blocks.map (fun e => e.1)).foldl (fun s k => swapBlock (k / 16) (k % 16) s) s
  let s := (s.tier.hbm.map (fun e => e.1)).foldl (fun s k => remapHbm k s) s
  { s with tier := { s.tier with rowsSpared := s.tier.rowsSpared ++ s.tier.rowsDue, rowsDue := [] } }

/-- Order 3: activation, fallback plans, shrink plans. -/
def order3 (s : State) : State :=
  let lands := landing_ s
  departed (lands.foldl (fun s e => departOrder3 e s) (unitsBack (fallbacksDue (stagedDue s))))

/-- Order 4: settings, the profile, cable trims. -/
def order4 (s : State) : State :=
  let isDue (b : Nat) : Bool := decide (b ≤ s.cad.beat) || s.sched.active.isNone
  let now := s.host.due.filter (fun d => isDue d.1)
  let s := now.foldl (fun s d => applyDue d.2.1 d.2.2 s) { s with host := { s.host with due := s.host.due.filter (fun d => !isDue d.1) } }
  let s := boundaryProfile s
  let trims := (s.cal.trimAt.filter (fun e => isDue e.2)).map (fun e => e.1)
  { s with cal := { s.cal with
    pendingTrims := trims.foldl (fun m i => FMap.del m i) s.cal.pendingTrims
    trimAt := trims.foldl (fun m i => FMap.del m i) s.cal.trimAt } }

/-- Order 5: a composition map whose EFFECTIVE this is; the digest of the map in force goes out on every link (12 R336). -/
def order5 (s : State) : State :=
  let s := match s.comp.staged with
    | some e => if e.2 ≤ s.cad.beat then applyMap e.1 e.2 s else s
    | none => s
  pullLeaving (sendDigests s)

/-- Sessions whose revive for a TOOL run waits, in the order of the runs' arrival (04 R119). -/
def waitingTools (s : State) : List Nat :=
  let l := (s.slots.table.filter (fun e => e.2.toolQueued != 0 && e.2.d.state == 3 && e.2.d.revivePending)).map (fun e => (e.1, e.2.toolQueued))
  (l.mergeSort (fun a b => decide (a.2 ≤ b.2))).map (fun e => e.1)

/-- Order 6: the Mover's new step: its counters start again, pending work is tried, evacuated channels are switched off, lenders advertise (04 R116, R118, R119; 15 R406). -/
def order6 (s : State) : State :=
  let s := { s with tier := { s.tier with moveUsed := 0, codecUsed := 0, opsDone := 0 } }
  let s := demoteLow s
  let s := (waitingTools s).foldl (fun s slot => if (opOf s slot isRevive).isSome then s else tryRevive slot s) s
  let evac := (s.tier.ddr.filter (fun e => e.2.state == 2)).map (fun e => e.1)
  let s := evac.foldl (fun s c => completeEvacuation c (queueEvacuation c s)) s
  if s.comp.inComp ∧ !(leavingMembers s).contains (ownIndex s) then send (.lenderAdvert (lendRoom s / 2 ^ 20)) s else s

/-! ### The end of a step and the start of the next -/

/-- SLACK of one link as it stood in the step (02 R58, 12 R344). -/
def latchSlack (x : Link) : Link :=
  match x.slackNow with
  | some (v, id) => { x with slack := v, slackTransfer := id, slackNow := none }
  | none => { x with slack := 0x7FFF, slackTransfer := 0 }

/-- The record of a slowdown period (09 R247). -/
def slowRatio (w : Slow) : Nat := if w.solo = 0 then 256 else min 0xFFFF (256 * w.observed / w.solo)

def slowBytes (step : Nat) (w : Slow) : Bytes :=
  leBytes 8 w.observed ++ leBytes 8 w.solo ++ leBytes 4 w.commands ++ leBytes 2 (slowRatio w) ++ leBytes 2 w.worst ++ leBytes 4 (step % 2 ^ 32) ++ leBytes 4 0

/-- The last boundary of a slowdown period: every client's record is latched, its sums start again, and a ratio at the threshold is recorded (09 R248). -/
def slowPeriodEnd (step : Nat) (s : State) : State :=
  if step + 1 < s.host.slowStart + s.host.slowPeriod then s
  else
    let s := s.clients.foldl (fun s e =>
      if s.host.slowThreshold ≠ 0 ∧ s.host.slowThreshold ≤ slowRatio e.2.slow then
        report 0x600 (unitField 6 e.1 ++ leBytes 2 (slowRatio e.2.slow) ++ leBytes 2 e.2.slow.worst ++ leBytes 4 e.2.slow.commands) s
      else s) s
    { s with
      clients := FMap.mapVals (fun _ c => { c with slow := { latched := slowBytes step c.slow } }) s.clients
      host := { s.host with slowStart := step + 1 } }

/-- Counters of the step that ends, and their values as STATS_READ gives them from now on (11 R314). -/
def countStep (img : Image) (s : State) : State :=
  let named (part : Nat) : Bool := img.rings.any (fun r => r.partition == part)
  let lim := 2 ^ 64 - 1
  { s with
    counters := { s.counters with steps := satAdd lim s.counters.steps 1 }
    tier := { s.tier with moverLast := moverUse s img }
    cont := { s.cont with partitions := FMap.mapVals (fun k (q : Partition) =>
      { q with counters := if named k then { q.counters with steps := satAdd lim q.counters.steps 1 } else q.counters, slip := 0 }) s.cont.partitions } }

def latchCounters (s : State) : State :=
  { s with
    latched := s.counters
    cont := { s.cont with partitions := FMap.mapVals (fun _ (q : Partition) => { q with latched := q.counters }) s.cont.partitions } }

/-- What the supply block measured in the step that ends: the manual gives these no rule, so each is free (log entry 14). -/
def measureSupply (s : State) : State :=
  let f (i : Nat) : Nat := Config.free (s.freeCtr + i) % 2 ^ 32
  { s with
    freeCtr := s.freeCtr + 7
    sup := { s.sup with
      vin := f 0, vinMin := f 1, iin := f 2, iinMax := f 3, pinMean := f 4, pinMax := f 5
      energy := satAdd (2 ^ 64 - 1) s.sup.energy (f 6) } }

/-- Measured values of a step: a District's utilisation, the ramp time, the supply's readings. -/
def measureStep (s : State) : State :=
  let s := (s.fab.districts.map (fun e => e.1)).foldl (fun s d =>
    let f := freeValue s
    modDistrict d (fun k => { k with util := f.1 % 2 ^ 16, killsLast := k.kills, kills := 0 }) f.2) s
  let r := freeValue s
  measureSupply { r.2 with cad := { r.2.cad with rampBeats := r.1 % 2 ^ 8 } }

/-- A new constraint set of a session (03 R86): it holds from the first pass that enters after this boundary. -/
def nextSets (s : State) : State :=
  let due := (s.slots.table.filter (fun e => e.2.d.state != 0 && e.2.nextSet.isSome)).map (fun e => e.1)
  due.foldl (fun s slot =>
    let h := sessionHandle s slot
    if s.sched.sealPrev.any (fun m => m.places.any (fun p => p.handle == h && !p.withdrawn)) then modSession slot (fun x => { x with nextSetDue := true }) s
    else match (sessionAt s slot).nextSet with | some set => applySet slot set s | none => s) s

/-- The next step begins: sealed memberships move on; what was kept of the step that ended goes. -/
def rollStep (s : State) : State :=
  { s with
    sched := { s.sched with
      sealPrev := s.sched.sealNow.filter (fun m => !m.places.isEmpty), sealNow := s.sched.sealNext, sealNext := []
      notices := [], noticesLast := s.sched.notices, slipDue := [], deferDue := [], killed := [], imagePrev := s.sched.active
      commits := [], partly := [], runs := [], done := [] }
    fab := { s.fab with reread := [], store := (match s.sched.active with | some (img : Image) => carryOver img s.fab.store | none => []), blocks := FMap.mapVals (fun _ b => { b with mprogErrors := [] }) s.fab.blocks }
    links := { s.links with port := FMap.mapVals (fun _ x => latchSlack x) s.links.port, slackStep := (s.sched.step - 1) % 2 ^ 32 } }

/-- The beat of the next boundary; while no image is active, the instants that 08 R203 and 12 R335 name. -/
def boundaryBeat (s : State) : Nat :=
  match s.sched.active with
  | some img => stepStart img (s.sched.step + 1)
  | none =>
    let a := match s.sched.staged with | some g => [if g.checked then g.activateAt else g.activateAt - g.img.stepBeats] | none => []
    let b := match s.comp.staged with | some e => [e.2] | none => []
    match a ++ b with
    | [] => s.cad.beat
    | x :: rest => rest.foldl min x

/-- STEP_BOUNDARY: the beat is the boundary's, the step that ends is counted, and the changes of R30 follow in their order. -/
def execStepBoundary (s : State) : Host.Outcome State Fault Refusal :=
  let s := passBeats (boundaryBeat s - s.cad.beat) s
  .next (match s.sched.active with
    | none => order5 (order3 s)
    | some img =>
      let k := s.sched.step
      let s := slowPeriodEnd k (countStep img (settleDefers s))
      let s := order1 img { s with sched := { s.sched with step := k + 1 } }
      let s := nextSets (turnAdapters (rollStep (order2 s)))
      measureStep (latchCounters (order6 (order5 (order4 (order3 s))))))

/-! ### The recorder's mirror and the TIME record (17 R448, R450) -/

/-- Records above EVR_MIRROR_SEQ that one pass copies, in SEQ order: up to 512 KiB. -/
def passRecords : Nat → List Record → List Record
  | _, [] => []
  | room, r :: rest => if 16 * recordCells r ≤ room then r :: passRecords (room - 16 * recordCells r) rest else []

/-- Records that the mirror does not hold. -/
def unmirrored (s : State) : List Record := s.evr.records.filter (fun r => decide (s.evr.mirrorSeq < r.seq))

/-- A pass: the mirror takes the store's changes and the pending counts and commits by EVR_MIRROR_SEQ; a failed MRAM write leaves its record. -/
def execMirrorPass (written : Bool) (s : State) : Host.Outcome State Fault Refusal :=
  let todo := unmirrored s
  if !written then
    let n := (todo.map (fun r => 16 * recordCells r)).foldl (· + ·) 0
    .next (report 0x006 (leBytes 8 n) (setFlag offEvrEvents 2 s))
  else
    let took := passRecords 524288 todo
    let top := took.foldl (fun n r => max n r.seq) s.evr.mirrorSeq
    .next { s with evr := { s.evr with
      mirrorSeq := top
      mirrored := s.evr.records.filter (fun r => decide (r.seq ≤ top))
      mirrorCodes := s.evr.codes
      mirrorBehind := decide (took.length < todo.length) } }

/-- Beat bits [63:38] change. -/
def execTimeRecord (s : State) : Host.Outcome State Fault Refusal := .next (report 0x001 (leBytes 8 (stamp s)) s)

end Sys2Proof.Machine
end

