-- ==== Sys2Proof/Machine/Dispatch.lean ====
section
/-! DEFINITION. What each command does: one arm per constructor of Instr. -/

namespace Sys2Proof.Machine

def exec (i : Instr) (s : State) : Host.Outcome State Fault Refusal :=
  match i with
  | .packetRecognise p => Sys2Proof.Machine.execPacketRecognise p s
  | .pad p => Sys2Proof.Machine.execPad p s
  | .ping p => Sys2Proof.Machine.execPing p s
  | .queryDevice p => Sys2Proof.Machine.execQueryDevice p s
  | .setParam p => Sys2Proof.Machine.execSetParam p s
  | .cliRunPreempt n => Sys2Proof.Machine.execCliRunPreempt n s
  | .preemptionComplete n => Sys2Proof.Machine.execPreemptionComplete n s
  | .cliRunResume n => Sys2Proof.Machine.execCliRunResume n s
  | .queueStateWrite n scan seq replyAt replyCount => Sys2Proof.Machine.execQueueStateWrite n scan seq replyAt replyCount s
  | .cadPeriodChange code => Sys2Proof.Machine.execCadPeriodChange code s
  | .cadModeChange mode => Sys2Proof.Machine.execCadModeChange mode s
  | .deviceStateRequest state => Sys2Proof.Machine.execDeviceStateRequest state s
  | .getParam p => Sys2Proof.Machine.execGetParam p s
  | .modelStage p piece => Sys2Proof.Machine.execModelStage p piece s
  | .modelUnload p => Sys2Proof.Machine.execModelUnload p s
  | .partitionDefine p => Sys2Proof.Machine.execPartitionDefine p s
  | .scheduleLoad p obj => Sys2Proof.Machine.execScheduleLoad p obj s
  | .vocabLoad p obj => Sys2Proof.Machine.execVocabLoad p obj s
  | .sessionOpen p => Sys2Proof.Machine.execSessionOpen p s
  | .sessionFork p => Sys2Proof.Machine.execSessionFork p s
  | .sessionAppend p buf => Sys2Proof.Machine.execSessionAppend p buf s
  | .tokenizeEnd slot => Sys2Proof.Machine.execTokenizeEnd slot s
  | .sessionGenerate p => Sys2Proof.Machine.execSessionGenerate p s
  | .trainingGenerate p => Sys2Proof.Machine.execTrainingGenerate p s
  | .sessionPark p => Sys2Proof.Machine.execSessionPark p s
  | .sessionRevive p => Sys2Proof.Machine.execSessionRevive p s
  | .sessionCancel p => Sys2Proof.Machine.execSessionCancel p s
  | .sessionClose p => Sys2Proof.Machine.execSessionClose p s
  | .sessionQuery p => Sys2Proof.Machine.execSessionQuery p s
  | .sessionConstrain p => Sys2Proof.Machine.execSessionConstrain p s
  | .sessionExport p => Sys2Proof.Machine.execSessionExport p s
  | .sessionImport p cap => Sys2Proof.Machine.execSessionImport p cap s
  | .handoverOut p => Sys2Proof.Machine.execHandoverOut p s
  | .handoverIn p => Sys2Proof.Machine.execHandoverIn p s
  | .compositionSet p buf => Sys2Proof.Machine.execCompositionSet p buf s
  | .checkpointBegin p => Sys2Proof.Machine.execCheckpointBegin p s
  | .checkpointShard p => Sys2Proof.Machine.execCheckpointShard p s
  | .restore p manifests report shards => Sys2Proof.Machine.execRestore p manifests report shards s
  | .shrinkArm p => Sys2Proof.Machine.execShrinkArm p s
  | .attestQuote p => Sys2Proof.Machine.execAttestQuote p s
  | .quoteSigned quoteDigest => Sys2Proof.Machine.execQuoteSigned quoteDigest s
  | .keyAccept p msg => Sys2Proof.Machine.execKeyAccept p msg s
  | .tenantBind p buf => Sys2Proof.Machine.execTenantBind p buf s
  | .tenantRelease p => Sys2Proof.Machine.execTenantRelease p s
  | .tenantReleaseRun => Sys2Proof.Machine.execTenantReleaseRun s
  | .fwStage p obj => Sys2Proof.Machine.execFwStage p obj s
  | .fwActivate p => Sys2Proof.Machine.execFwActivate p s
  | .fwTakeover => Sys2Proof.Machine.execFwTakeover s
  | .fwResume => Sys2Proof.Machine.execFwResume s
  | .fwActivateTimeout => Sys2Proof.Machine.execFwActivateTimeout s
  | .calUserWrite p verifies => Sys2Proof.Machine.execCalUserWrite p verifies s
  | .calRead p => Sys2Proof.Machine.execCalRead p s
  | .custodialRollback p => Sys2Proof.Machine.execCustodialRollback p s
  | .custodialDebug p => Sys2Proof.Machine.execCustodialDebug p s
  | .identityReset p => Sys2Proof.Machine.execIdentityReset p s
  | .factoryReturn p => Sys2Proof.Machine.execFactoryReturn p s
  | .sealOverride p => Sys2Proof.Machine.execSealOverride p s
  | .presencePolicy p => Sys2Proof.Machine.execPresencePolicy p s
  | .eventSnapshot p => Sys2Proof.Machine.execEventSnapshot p s
  | .statsRead p => Sys2Proof.Machine.execStatsRead p s
  | .unitFence p => Sys2Proof.Machine.execUnitFence p s
  | .dimmEvacuate p => Sys2Proof.Machine.execDimmEvacuate p s
  | .dimmAdmit p => Sys2Proof.Machine.execDimmAdmit p s
  | .dimmSpdRead channel sizeGiB ok => Sys2Proof.Machine.execDimmSpdRead channel sizeGiB ok s
  | .dimmTrainDone channel ok => Sys2Proof.Machine.execDimmTrainDone channel ok s
  | .dimmScrubDone channel => Sys2Proof.Machine.execDimmScrubDone channel s
  | .profileSet p => Sys2Proof.Machine.execProfileSet p s
  | .replyRingWrite n cfg v => Sys2Proof.Machine.execReplyRingWrite n cfg v s
  | .replyAckWrite n v => Sys2Proof.Machine.execReplyAckWrite n v s
  | .journalAckWrite v => Sys2Proof.Machine.execJournalAckWrite v s
  | .recallTailWrite v found => Sys2Proof.Machine.execRecallTailWrite v found s
  | .flagClearW1c offset mask hwSets => Sys2Proof.Machine.execFlagClearW1c offset mask hwSets s
  | .mgmtFlagClear groups hwSets => Sys2Proof.Machine.execMgmtFlagClear groups hwSets s
  | .mgmtFlagCntRead => Sys2Proof.Machine.execMgmtFlagCntRead s
  | .cadBeatLowRead => Sys2Proof.Machine.execCadBeatLowRead s
  | .registerWrite w => Sys2Proof.Machine.execRegisterWrite w s
  | .badAccess offset size write => Sys2Proof.Machine.execBadAccess offset size write s
  | .windowRead offset len => Sys2Proof.Machine.execWindowRead offset len s
  | .windowWrite offset => Sys2Proof.Machine.execWindowWrite offset s
  | .stepBoundary => Sys2Proof.Machine.execStepBoundary s
  | .slotStart slotId => Sys2Proof.Machine.execSlotStart slotId s
  | .commitPoint c => Sys2Proof.Machine.execCommitPoint c s
  | .samplingCommit c => Sys2Proof.Machine.execSamplingCommit c s
  | .lateArrival link slotId transfer lateness => Sys2Proof.Machine.execLateArrival link slotId transfer lateness s
  | .plazaLane => Sys2Proof.Machine.execPlazaLane s
  | .mirrorPass written => Sys2Proof.Machine.execMirrorPass written s
  | .moverSlotEnd results => Sys2Proof.Machine.execMoverSlotEnd results s
  | .prefetchPull slot => Sys2Proof.Machine.execPrefetchPull slot s
  | .prefetchRevive slot => Sys2Proof.Machine.execPrefetchRevive slot s
  | .beatMark spacingOk phaseErr => Sys2Proof.Machine.execBeatMark spacingOk phaseErr s
  | .beatNumber source bytes => Sys2Proof.Machine.execBeatNumber source bytes s
  | .numLost => Sys2Proof.Machine.execNumLost s
  | .marksAbsent => Sys2Proof.Machine.execMarksAbsent s
  | .acqFail => Sys2Proof.Machine.execAcqFail s
  | .holdLimit => Sys2Proof.Machine.execHoldLimit s
  | .beatNumberSend => Sys2Proof.Machine.execBeatNumberSend s
  | .cadenceMarkSend => Sys2Proof.Machine.execCadenceMarkSend s
  | .cadenceMark link beat phase => Sys2Proof.Machine.execCadenceMark link beat phase s
  | .xrefLost => Sys2Proof.Machine.execXrefLost s
  | .xrefReturn => Sys2Proof.Machine.execXrefReturn s
  | .departure member boundary rings => Sys2Proof.Machine.execDeparture member boundary rings s
  | .memberLost member => Sys2Proof.Machine.execMemberLost member s
  | .slipNotice n => Sys2Proof.Machine.execSlipNotice n s
  | .slipApply partition => Sys2Proof.Machine.execSlipApply partition s
  | .abortNotice n => Sys2Proof.Machine.execAbortNotice n s
  | .deferNotice n => Sys2Proof.Machine.execDeferNotice n s
  | .fallbackNotice n => Sys2Proof.Machine.execFallbackNotice n s
  | .imageReady member ringId ringDigest activateAt => Sys2Proof.Machine.execImageReady member ringId ringDigest activateAt s
  | .mapDigest link epoch digest => Sys2Proof.Machine.execMapDigest link epoch digest s
  | .lenderAdvert member freeMiB hops => Sys2Proof.Machine.execLenderAdvert member freeMiB hops s
  | .candidate partition step entries => Sys2Proof.Machine.execCandidate partition step entries s
  | .sealMessage m => Sys2Proof.Machine.execSealMessage m s
  | .cancelNotice n => Sys2Proof.Machine.execCancelNotice n s
  | .withdrawal n => Sys2Proof.Machine.execWithdrawal n s
  | .copyNotice n => Sys2Proof.Machine.execCopyNotice n s
  | .capsuleLostNotice n => Sys2Proof.Machine.execCapsuleLostNotice n s
  | .freeTargetSlot n => Sys2Proof.Machine.execFreeTargetSlot n s
  | .forward sender p => Sys2Proof.Machine.execForward sender p s
  | .forwardReply client tag status detail handle beat count0 count1 => Sys2Proof.Machine.execForwardReply client tag status detail handle beat count0 count1 s
  | .hoRequest r => Sys2Proof.Machine.execHoRequest r s
  | .hoAnswer handle status newHandle => Sys2Proof.Machine.execHoAnswer handle status newHandle s
  | .hoConfirm handle newHandle epoch => Sys2Proof.Machine.execHoConfirm handle newHandle epoch s
  | .hoAbort handle newHandle status => Sys2Proof.Machine.execHoAbort handle newHandle status s
  | .hoTimeout slot => Sys2Proof.Machine.execHoTimeout slot s
  | .hoTargetGrace slot => Sys2Proof.Machine.execHoTargetGrace slot s
  | .tiles newHandle pageNo tile bytes => Sys2Proof.Machine.execTiles newHandle pageNo tile bytes s
  | .hoFinal newHandle img => Sys2Proof.Machine.execHoFinal newHandle img s
  | .hoOwnership newHandle img => Sys2Proof.Machine.execHoOwnership newHandle img s
  | .capsulePut borrower ref body => Sys2Proof.Machine.execCapsulePut borrower ref body s
  | .capsuleGet borrower ref => Sys2Proof.Machine.execCapsuleGet borrower ref s
  | .capsuleData ref body lender => Sys2Proof.Machine.execCapsuleData ref body lender s
  | .capsuleFree borrower ref => Sys2Proof.Machine.execCapsuleFree borrower ref s
  | .part handle position body => Sys2Proof.Machine.execPart handle position body s
  | .hostdata source tag addr data cap => Sys2Proof.Machine.execHostdata source tag addr data cap s
  | .shardDigest m => Sys2Proof.Machine.execShardDigest m s
  | .shardReport m => Sys2Proof.Machine.execShardReport m s
  | .shardCommit m => Sys2Proof.Machine.execShardCommit m s
  | .shardDone m => Sys2Proof.Machine.execShardDone m s
  | .shardAllDone m => Sys2Proof.Machine.execShardAllDone m s
  | .restoreTimeout partition => Sys2Proof.Machine.execRestoreTimeout partition s
  | .ckptHoldExpiry partition => Sys2Proof.Machine.execCkptHoldExpiry partition s
  | .frameReceive link bytes consumeSlack corrected uncorrectable => Sys2Proof.Machine.execFrameReceive link bytes consumeSlack corrected uncorrectable s
  | .frameTransmit link phase queued => Sys2Proof.Machine.execFrameTransmit link phase queued s
  | .controlWord link w worstLane => Sys2Proof.Machine.execControlWord link w worstLane s
  | .linkSignalDetect link => Sys2Proof.Machine.execLinkSignalDetect link s
  | .trainingComplete link r => Sys2Proof.Machine.execTrainingComplete link r s
  | .trainFail link => Sys2Proof.Machine.execTrainFail link s
  | .laneFail link lane => Sys2Proof.Machine.execLaneFail link lane s
  | .retrainDone link => Sys2Proof.Machine.execRetrainDone link s
  | .retrainTimeout link => Sys2Proof.Machine.execRetrainTimeout link s
  | .halfRetrain link => Sys2Proof.Machine.execHalfRetrain link s
  | .linkPortReset link => Sys2Proof.Machine.execLinkPortReset link s
  | .graceEnd => Sys2Proof.Machine.execGraceEnd s
  | .remoteGraceEnd slot => Sys2Proof.Machine.execRemoteGraceEnd slot s
  | .uncorrectableError place => Sys2Proof.Machine.execUncorrectableError place s
  | .mprogError district block core slotId => Sys2Proof.Machine.execMprogError district block core slotId s
  | .weightTagFail model chunk slotId => Sys2Proof.Machine.execWeightTagFail model chunk slotId s
  | .correctableError memory row => Sys2Proof.Machine.execCorrectableError memory row s
  | .hbmSpareStart stack channel => Sys2Proof.Machine.execHbmSpareStart stack channel s
  | .hbmSpareCopyDone stack => Sys2Proof.Machine.execHbmSpareCopyDone stack s
  | .recallTimeout slot => Sys2Proof.Machine.execRecallTimeout slot s
  | .supplyWarn mV => Sys2Proof.Machine.execSupplyWarn mV s
  | .supplyNormal mV => Sys2Proof.Machine.execSupplyNormal mV s
  | .reducedEntry mV mA => Sys2Proof.Machine.execReducedEntry mV mA s
  | .overcurrent mV mA => Sys2Proof.Machine.execOvercurrent mV mA s
  | .reducedExit mV => Sys2Proof.Machine.execReducedExit mV s
  | .rideLimit mV => Sys2Proof.Machine.execRideLimit mV s
  | .supplyStop mV => Sys2Proof.Machine.execSupplyStop mV s
  | .overvolt mV => Sys2Proof.Machine.execOvervolt mV s
  | .stopRecordClose => Sys2Proof.Machine.execStopRecordClose s
  | .stopRailsOff => Sys2Proof.Machine.execStopRailsOff s
  | .stopComplete => Sys2Proof.Machine.execStopComplete s
  | .avsAck rail => Sys2Proof.Machine.execAvsAck rail s
  | .avsTimeout rail => Sys2Proof.Machine.execAvsTimeout rail s
  | .unitEntryPoint => Sys2Proof.Machine.execUnitEntryPoint s
  | .unitWakeLock => Sys2Proof.Machine.execUnitWakeLock s
  | .deviceStateDone => Sys2Proof.Machine.execDeviceStateDone s
  | .presence => Sys2Proof.Machine.execPresence s
  | .presenceWindowEnd => Sys2Proof.Machine.execPresenceWindowEnd s
  | .sealOpen => Sys2Proof.Machine.execSealOpen s
  | .decapKeyExpiry quoteDigest => Sys2Proof.Machine.execDecapKeyExpiry quoteDigest s
  | .akCertified => Sys2Proof.Machine.execAkCertified s
  | .hostLoss cause => Sys2Proof.Machine.execHostLoss cause s
  | .hostHoldExpiry => Sys2Proof.Machine.execHostHoldExpiry s
  | .vfFlr n => Sys2Proof.Machine.execVfFlr n s
  | .hostPortReset => Sys2Proof.Machine.execHostPortReset s
  | .deviceReset slotAOk slotBOk factoryOk => Sys2Proof.Machine.execDeviceReset slotAOk slotBOk factoryOk s
  | .watchdogExpiry takeoverOk => Sys2Proof.Machine.execWatchdogExpiry takeoverOk s
  | .blockPartialReset district block => Sys2Proof.Machine.execBlockPartialReset district block s
  | .ddrControllerReset channel => Sys2Proof.Machine.execDdrControllerReset channel s
  | .ddrControllerRestartEnd channel inTime => Sys2Proof.Machine.execDdrControllerRestartEnd channel inTime s
  | .ddrPresenceChange channel present => Sys2Proof.Machine.execDdrPresenceChange channel present s
  | .ddrPgRelease channel => Sys2Proof.Machine.execDdrPgRelease channel s
  | .powerOnQualified sealClosed slotAOk slotBOk factoryOk senseOpen => Sys2Proof.Machine.execPowerOnQualified sealClosed slotAOk slotBOk factoryOk senseOpen s
  | .firmwareStart calValid failingUnits => Sys2Proof.Machine.execFirmwareStart calValid failingUnits s
  | .trainingDone t1MiB t2MiB ddrGiB failing => Sys2Proof.Machine.execTrainingDone t1MiB t2MiB ddrGiB failing s
  | .thermtrip sensor => Sys2Proof.Machine.execThermtrip sensor s
  | .moverSlotStart slotId => Sys2Proof.Machine.execMoverSlotStart slotId s
  | .hostReadCompletion op => Sys2Proof.Machine.execHostReadCompletion op s
  | .sealLoopClose => Sys2Proof.Machine.execSealLoopClose s
  | .vfEnable on => Sys2Proof.Machine.execVfEnable on s
  | .blockSelfTestDone district block pass => Sys2Proof.Machine.execBlockSelfTestDone district block pass s
  | .restoreStagingDone partition value => Sys2Proof.Machine.execRestoreStagingDone partition value s
  | .eventSnapshotDone => Sys2Proof.Machine.execEventSnapshotDone s
  | .laneRepairDone link => Sys2Proof.Machine.execLaneRepairDone link s
  | .linkTrainRetry link => Sys2Proof.Machine.execLinkTrainRetry link s
  | .timeRecord => Sys2Proof.Machine.execTimeRecord s

end Sys2Proof.Machine
end

