-- ==== Sys2Proof/Safety.lean ====
section
/-! DEFINITION. The terms claims use: a safe run, a packet whose checks pass, and a packet answered. -/

namespace Sys2Proof

/-- A run of k steps that neither faults nor is refused. -/
def SafeRun (k : Nat) (s : Machine.State) : Prop :=
  match k with
  | 0 => True
  | k + 1 =>
    match Machine.step s with
    | .next t => SafeRun k t
    | .fault _ => False
    | .refused _ => False

namespace Machine

/-- The state a packet's own work starts from: the packet stands recognised, checks 1 to 7 of 11 R315 pass with the packet green or unmetered, nothing makes it wait, and the envelopes it brings open. None otherwise. -/
def passes (waits : Packet → State → Bool) (p : Packet) (s : State) : Option State :=
  match priorOf p s with
  | none => none
  | some prior =>
    match gate p prior s with
    | .run 0 s1 =>
      if waits p s1 then none
      else
        match (if readsEnveloped p s1 then openEnvelopes p.client (inputKind p) (if isSealed p then p.envs.drop 1 else p.envs) s1 else .ok s1) with
        | .error _ => none
        | .ok s2 => some s2
    | _ => none

/-- The state after a packet's only reply: the reply is written, and the packet is no longer waiting to be served. -/
def answered (p : Packet) (a : Ans) (s : State) : State := dropRecognised p (reply p a s)

/-- The state after ACCEPTED, with the final reply owed by a piece of work. -/
def accepted (p : Packet) (w : Work) (s : State) : State := dropRecognised p (accept p w s)

end Machine

end Sys2Proof
end

