-- ==== Sys2Proof/Certificates/Slice0/Obligations.lean ====
section
/-! DEFINITION. The statements for the provers. -/

open Sys2Proof Sys2Proof.Machine

/-! ### The step and the queue -/

/-- A step with a command at the front of the queue is that command's meaning on the state with the queue's rest. -/
def Obligations.StepRunsFrontCommand : Prop :=
  ∀ (c : Instr) (rest : List Instr) (s : State),
    step { s with pending := c :: rest } = exec c { s with pending := rest }

/-- With no command waiting a step is one beat (log entry 2: the model's choice). The beat number rises by one modulo 2^63 and the phase is 0; a beat of HOLDOVER is counted, and its discipline source is the model's choice among the peers (log entry 18); an offset still to be slewed comes one unit nearer 0 where the new beat number is a multiple of 8; a MASTER drives a mark for the new beat. Every touched client passes the beat: with no meter setting waiting, each bucket gains its rate up to its size and nothing else of the client changes; waiting settings are taken. A beat-phase trim slews. Nothing else changes. -/
def Obligations.EmptyQueueIsOneBeat : Prop :=
  ∀ s : State, s.pending = [] →
    ∃ t, step s = .next t
      ∧ t.cad = { s.cad with
          beat := (s.cad.beat + 1) % 2 ^ 63
          phase := 0
          holdBeats := if s.cad.st = .holdover then s.cad.holdBeats + 1 else s.cad.holdBeats
          slew := if (s.cad.beat + 1) % 8 ≠ 0 ∨ s.cad.slew = 0 then s.cad.slew else if s.cad.slew < 0 then s.cad.slew + 1 else s.cad.slew - 1
          markOut := if s.cad.st = .master then some ((s.cad.beat + 1) % 2 ^ 63) else s.cad.markOut
          peerDisc := if s.cad.st = .holdover then (disciplineSource t).isSome else s.cad.peerDisc
          discLink := if s.cad.st = .holdover then ((disciplineSource t).map (fun m => m.link)).getD s.cad.discLink else s.cad.discLink }
      ∧ t.cal = slewPhase 1 s
      ∧ (∀ n, FMap.get? s.clients n = none → FMap.get? t.clients n = none)
      ∧ (∀ n c, FMap.get? s.clients n = some c →
          ∃ d, FMap.get? t.clients n = some d ∧ d.pendingMeters = []
            ∧ (c.pendingMeters = [] → d = { c with cmd := refill 1 c.cmd, byt := refill 1 c.byt }))
      ∧ t = { s with cad := t.cad, cal := t.cal, clients := t.clients }

/-- No step stops the block, so no run of any length does. -/
def Obligations.EveryRunIsSafe : Prop :=
  ∀ (k : Nat) (s : State), SafeRun k s

/-- No command changes the queue of the commands behind it. -/
def Obligations.CommandsLeaveQueue : Prop :=
  ∀ (c : Instr) (s t : State), exec c s = .next t → t.pending = s.pending

/-- Every step keeps the memory of State Space frames in its canonical form. -/
def Obligations.StepKeepsMemoryCanonical : Prop :=
  ∀ s t : State, Memory.wf s.mem = true → step s = .next t → Memory.wf t.mem = true

/-- The state after reset has the memory's canonical form, with nothing listed, and an empty queue. -/
def Obligations.ResetMemoryCanonical : Prop :=
  Memory.wf State.reset.mem = true ∧ State.reset.mem = [] ∧ State.reset.pending = []

/-! ### Recognition -/

/-- After reset client 0 runs and no other client does; a window is scanned only while its client runs and its reply ring is valid. -/
def Obligations.OnlyRunningClientsScanned : Prop :=
  (clientOf State.reset 0).run = true ∧ (∀ n, n ≠ 0 → (clientOf State.reset n).run = false)
    ∧ (∀ (p : Packet) (s : State), (clientOf s p.client).run = false ∨ ringOk (clientOf s p.client) = false →
        exec (.packetRecognise p) s = .next s)
    ∧ (∀ s : State, s.svc.phase ≠ 0 → s.sup.tripped = false → s.sup.railsOff = false → s.sup.st ≠ .stopping →
        ∃ t, exec (.deviceReset true true true) s = .next t ∧ ∀ n, (clientOf t n).run = (n == 0))
    ∧ (∀ (n : Nat) (s : State), n ≠ 0 → (clientOf s n).run = false →
        ∃ t, exec (.cliRunResume n) s = .next t ∧ clientOf t n = { clientOf s n with run := true }
          ∧ (∀ m, m ≠ n → clientOf t m = clientOf s m) ∧ t = { s with clients := t.clients })

/-- What a write of a reply ring does: CLI_REPLY_BASE takes the value written, CLI_REPLY_CFG its SIZE (at most 8) and PASID fields, and with either SCAN, REPLY_AT, REPLY_COUNT and REPLY_ACK become 0 and SEQ becomes 1, RUN and every other client staying as they are; the write is refused, and only WRITE_REFUSED is set, while the client has a recognised packet without its final reply, and for clients 1 to 255 while they run. A write of CLI_REPLY_ACK takes the low 32 bits and touches no other client. -/
def Obligations.ReplyRingWriteResetsPointers : Prop :=
  (∀ (n : Nat) (cfg : Bool) (v : Word64) (s : State), n < 256 → (clientOf s n).inflight = 0 → (n = 0 ∨ (clientOf s n).run = false) →
    ∃ t, exec (.replyRingWrite n cfg v) s = .next t
      ∧ (clientOf t n).scan = 0 ∧ (clientOf t n).seq = 1 ∧ (clientOf t n).replyAt = 0 ∧ (clientOf t n).replyCount = 0 ∧ (clientOf t n).ack = 0
      ∧ (cfg = false → (clientOf t n).base = v.toNat)
      ∧ (cfg = true → (clientOf t n).size = min 8 (v.toNat % 16) ∧ (clientOf t n).pasid = v.toNat / 2 ^ 12 % 2 ^ 20)
      ∧ (clientOf t n).run = (clientOf s n).run
      ∧ (∀ m, m ≠ n → clientOf t m = clientOf s m) ∧ t = { s with clients := t.clients, host := t.host })
  ∧ (∀ (n : Nat) (cfg : Bool) (v : Word64) (s : State), n < 256 → ((clientOf s n).inflight ≠ 0 ∨ (n ≠ 0 ∧ (clientOf s n).run = true)) →
      exec (.replyRingWrite n cfg v) s = .next (refuseWrite s))
  ∧ (∀ (n : Nat) (v : Word64) (s : State), n < 256 →
      ∃ t, exec (.replyAckWrite n v) s = .next t ∧ (clientOf t n).ack = v.toNat % 2 ^ 32
        ∧ (∀ m, m ≠ n → clientOf t m = clientOf s m) ∧ t = { s with clients := t.clients })

/-- A packet whose trailer matches, of a scanning client with room, is recognised: SCAN moves past it, SEQ rises by 1 and is 1 after 0xFFFF_FFFF, and it stands waiting with the status CHAIN will look back at; only its client, the counter of recognised packets and the beat's tally change. A PAD only moves SCAN and SEQ. -/
def Obligations.RecognitionAdvancesWindow : Prop :=
  ∀ (p : Packet) (s : State), scanning s p.client = true → (clientOf s p.client).blockedBy = none →
    lengthFits (clientOf s p.client) p = true → p.trailerSeq = (clientOf s p.client).seq → p.trailerLen = lengthOf p →
    2 ≤ freeReplySlots s p.client → beatHasRoom s (clientOf s p.client) = true →
    (opcodeOf p ≠ 0 → knownOpcode (opcodeOf p) = true → ∃ t, exec (.packetRecognise p) s = .next t
      ∧ clientOf t p.client = { clientOf s p.client with
          held := false
          scan := advanceScan (clientOf s p.client).scan (16 * lengthOf p)
          seq := if (clientOf s p.client).seq = 0xFFFFFFFF then 1 else (clientOf s p.client).seq + 1
          inflight := (clientOf s p.client).inflight + 1
          previous := .waiting (clientOf s p.client).seq
          blockedBy := if isAsync p then none else some (clientOf s p.client).seq
          recognised := (clientOf s p.client).recognised ++
            [⟨p, (clientOf s p.client).previous, (clientOf s p.client).scan, (clientOf s p.client).seq, s.cad.beat, s.cad.phase⟩]
          tally := (s.cad.beat, tallied s (clientOf s p.client).tally + 1) }
      ∧ (∀ n, n ≠ p.client → clientOf t n = clientOf s n)
      ∧ t = { s with clients := t.clients, host := t.host, counters := { s.counters with recognised := satAdd (2 ^ 64 - 1) s.counters.recognised 1 } })
    ∧ (opcodeOf p = 0 → ∃ t, exec (.pad p) s = .next t
      ∧ clientOf t p.client = { clientOf s p.client with
          held := false
          scan := advanceScan (clientOf s p.client).scan (16 * lengthOf p)
          seq := if (clientOf s p.client).seq = 0xFFFFFFFF then 1 else (clientOf s p.client).seq + 1
          tally := (s.cad.beat, tallied s (clientOf s p.client).tally + 1) }
      ∧ (∀ n, n ≠ p.client → clientOf t n = clientOf s n)
      ∧ t = { s with clients := t.clients, host := t.host })

/-- Client 0 is the administrative client: SET_PARAM and the opcodes kept to it are refused from every other client with BAD_OPCODE, detail 0x0001, before any later check. While a tenant is bound and no release runs, the commands that carry secrets inline are refused with AUTH_FAIL, detail 0x0001, when SEALED is clear and no earlier check refuses them. -/
def Obligations.ChecksKeepClientsApart : Prop :=
  (∀ (p : Packet) (prior : Previous) (s : State), p.client ≠ 0 →
    (opcodeOf p = 0x03 ∨ (0x10 ≤ opcodeOf p ∧ opcodeOf p ≤ 0x14) ∨ opcodeOf p = 0x32 ∨ (0x40 ≤ opcodeOf p ∧ opcodeOf p ≤ 0x43)
      ∨ (0x51 ≤ opcodeOf p ∧ opcodeOf p ≤ 0x53) ∨ (0x60 ≤ opcodeOf p ∧ opcodeOf p ≤ 0x64) ∨ (0x72 ≤ opcodeOf p ∧ opcodeOf p ≤ 0x74)) →
    gate p prior s = .refuse s { status := 0x0010, detail := 0x0001 })
  ∧ (∀ (p : Packet) (s : State), s.sec.bound = true → s.sec.releasing = false → isSealed p = false → keygens s p.client ≠ [] →
    (opcodeOf p = 0x20 ∨ (opcodeOf p = 0x21 ∧ paramOf p 0x20 8 ≠ 0) ∨ (opcodeOf p = 0x22 ∧ bitOf (argOf p 21 1) 1 = false)
      ∨ opcodeOf p = 0x29 ∨ opcodeOf p = 0x62) →
    checkTenancy p s = some { status := 0x0062, detail := 0x0001 })

/-- In Idle and Dormant the listed opcodes are served and every other command is answered BUSY directly after the check of opcode and permission: the detail is 0xFFFF unless a change to Run is in progress. -/
def Obligations.IdleServesQuietOpcodes : Prop :=
  ∀ (p : Packet) (prior : Previous) (s : State), s.svc.phase = 4 → s.sup.dev ≠ .run → (p.client = 0 ∨ adminOpcode (opcodeOf p) = false) →
    (((1 ≤ opcodeOf p ∧ opcodeOf p ≤ 4) ∨ (0x50 ≤ opcodeOf p ∧ opcodeOf p ≤ 0x53) ∨ (0x60 ≤ opcodeOf p ∧ opcodeOf p ≤ 0x63)
      ∨ (0x70 ≤ opcodeOf p ∧ opcodeOf p ≤ 0x74)) → checkOpcode p s = none)
    ∧ (¬ ((1 ≤ opcodeOf p ∧ opcodeOf p ≤ 4) ∨ (0x50 ≤ opcodeOf p ∧ opcodeOf p ≤ 0x53) ∨ (0x60 ≤ opcodeOf p ∧ opcodeOf p ≤ 0x63)
      ∨ (0x70 ≤ opcodeOf p ∧ opcodeOf p ≤ 0x74)) → s.sup.devTarget ≠ some .run →
        gate p prior s = .refuse s { status := 0x0022, detail := 0xFFFF })

/-- A red packet is refused with THROTTLED: past the checks of opcode, reserved fields, tenancy and sealing, a metered packet that some meter of its client finds red, by a RED pre-mark in colour-aware mode or for want of peak tokens, is refused, and the detail is the larger, over the meters that found it red, of ceil((size − peak tokens) ÷ PIR) beats, saturating at 0xFFFE; only the flag of the client is set. -/
def Obligations.RedPacketThrottled : Prop :=
  ∀ (p : Packet) (prior : Previous) (s s1 : State) (redCmd redByt : Bool) (d : Nat),
    checkOpcode p s = none → checkReserved p s = none → checkTenancy p s = none →
    (if isSealed p then openEnvelopes p.client 0 (p.envs.take 1) s else .ok s) = .ok s1 → unmetered p = false →
    (redCmd = true ↔ (clientOf s1 p.client).cmd.pir ≠ 0 ∧ (((clientOf s1 p.client).aware = true ∧ bitOf (flagsOf p) 2 = true) ∨ (clientOf s1 p.client).cmd.tp < 256)) →
    (redByt = true ↔ (clientOf s1 p.client).byt.pir ≠ 0 ∧ (((clientOf s1 p.client).aware = true ∧ bitOf (flagsOf p) 2 = true) ∨ (clientOf s1 p.client).byt.tp < packetBytes p)) →
    (redCmd = true ∨ redByt = true) →
    d = max
      (if redCmd then min 0xFFFE ((256 - (clientOf s1 p.client).cmd.tp + (clientOf s1 p.client).cmd.pir - 1) / (clientOf s1 p.client).cmd.pir) else 0)
      (if redByt then min 0xFFFE ((packetBytes p - (clientOf s1 p.client).byt.tp + (clientOf s1 p.client).byt.pir - 1) / (clientOf s1 p.client).byt.pir) else 0) →
    gate p prior s = .refuse (setFlag (offCliEvents p.client) 0 s1) { status := 0x0021, detail := d }

/-! ### Flags and records -/

/-- Setting any W1C flag of an unmasked group raises MSI-X vector 256 of the physical function, at most once a beat, also where the flag was already set; a masked group raises none. -/
def Obligations.UnmaskedFlagRaisesVector : Prop :=
  ∀ (off bit g : Nat) (s : State), flagGroup off = some g →
    ((setFlag off bit s).flags = FMap.put s.flags (flagKey off bit) { getFlag s off bit with on := true, sets := satAdd 0xFFFFFFFF (getFlag s off bit).sets 1 })
    ∧ (bitOf s.mgmt.mask g = true → (setFlag off bit s).out = s.out)
    ∧ (bitOf s.mgmt.mask g = false → s.mgmt.vectorAt ≠ some (stamp s) →
        (setFlag off bit s).out.msix = s.out.msix ++ [(0, 256)]
          ∧ ∀ off' bit' g', flagGroup off' = some g' → (setFlag off' bit' (setFlag off bit s)).out = (setFlag off bit s).out)

/-- Events below EVR.FLOOR are discarded without a record and counted in EVR_FILTERED; the floor is 1 after reset, so DEBUG events are not recorded. -/
def Obligations.EventsBelowFloorFiltered : Prop :=
  State.reset.evr.floor = 1
  ∧ (∀ (sev code : Nat) (body : Bytes) (s : State), sev < s.evr.floor →
      reportAt sev code body s = { s with evr := { s.evr with filtered := satAdd (2 ^ 64 - 1) s.evr.filtered 1 } })
  ∧ (∀ (sev code : Nat) (body : Bytes) (s : State), s.evr.floor ≤ sev → codeLimit (rollWindow s) code = none → s.evr.records = [] → s.evr.snapshot = none →
      body.length ≤ 240 → (FMap.getD s.evr.codes code {}).pending = 0 →
      (reportAt sev code body s).evr.records = [⟨s.evr.nextSeq, stamp s, sev, code, false, false, body⟩])

/-! ### Commands of every client that read -/

/-- What the reading commands do once the checks before their own have passed. PING answers OK with the client and its commands in flight. QUERY_DEVICE answers OK and writes, as 16-byte items, the device items from FIRST on, as many as exist, MAX asks for and the buffer holds; COUNT0 is how many, COUNT1 the key of the first one not written, or 0. GET_PARAM answers the low and high 32 bits of the 64-bit word asked for of the value in force; an unknown ID is BAD_PARAM at 0x14, a word above 1 BAD_PARAM at 0x18. STATS_READ writes the object of its KIND and INDEX; one that does not exist is BAD_PARAM at the object's own offset, a buffer too short for it BAD_LENGTH with the bytes needed; KIND 3 INDEX 1 discards the stop record, writing nothing. -/
def Obligations.ReadingCommandsAnswer : Prop :=
  (∀ (p : Packet) (s t : State), opcodeOf p = 0x01 → passes never p s = some t →
    exec (.ping p) s = .next (answered p { status := stOK, count0 := p.client, count1 := (clientOf t p.client).inflight } t))
  ∧ (∀ (p : Packet) (s t : State) (items : List (Nat × Nat × Nat)) (n : Nat), opcodeOf p = 0x02 → passes never p s = some t →
      items = (deviceItems t).filter (fun e => decide (argOf p 20 4 ≤ e.1)) → n = min items.length (min (argOf p 24 4) (roomBytes t (bufLen p 0x20) / 16)) →
    exec (.queryDevice p) s = .next (answered p { status := stOK, count0 := n, count1 := ((items[n]?).map (fun e => e.1)).getD 0 }
      (if n = 0 then t else hostWrite p.client (bufAddr p 0x20) 5 ((items.take n).map (fun e => leBytes 4 e.1 ++ leBytes 4 e.2.1 ++ leBytes 8 e.2.2)).flatten t)))
  ∧ (∀ (p : Packet) (s t : State), opcodeOf p = 0x04 → passes never p s = some t →
    (∀ v, getSetting (argOf p 20 4) t = some v → argOf p 24 1 ≤ 1 →
      exec (.getParam p) s = .next (answered p
        { status := stOK, count0 := v / 2 ^ (64 * argOf p 24 1) % 2 ^ 32, count1 := v / 2 ^ (64 * argOf p 24 1 + 32) % 2 ^ 32 } t))
    ∧ (getSetting (argOf p 20 4) t = none → exec (.getParam p) s = .next (answered p (bad 0x14) t))
    ∧ (getSetting (argOf p 20 4) t ≠ none → 1 < argOf p 24 1 → exec (.getParam p) s = .next (answered p (bad 0x18) t)))
  ∧ (∀ (p : Packet) (s t : State), opcodeOf p = 0x71 → passes never p s = some t →
    (∀ b, statsObject (argOf p 20 1) (argOf p 21 1) t = .ok b → ¬ (argOf p 20 1 = 3 ∧ argOf p 21 1 = 1) → writtenBytes t b.length ≤ bufLen p 0x20 →
      exec (.statsRead p) s = .next (answered p { status := stOK, count0 := writtenBytes t b.length } (hostWrite p.client (bufAddr p 0x20) 5 b t)))
    ∧ (∀ b, statsObject (argOf p 20 1) (argOf p 21 1) t = .ok b → ¬ (argOf p 20 1 = 3 ∧ argOf p 21 1 = 1) → bufLen p 0x20 < writtenBytes t b.length →
      exec (.statsRead p) s = .next (answered p { status := stBAD_LENGTH, detail := writtenBytes t b.length } t))
    ∧ (∀ off, statsObject (argOf p 20 1) (argOf p 21 1) t = .error off → exec (.statsRead p) s = .next (answered p (bad off) t))
    ∧ (argOf p 20 1 = 3 → argOf p 21 1 = 1 → t.sec.bound = false →
      exec (.statsRead p) s = .next (answered p ok { t with svc := { t.svc with stopRecord := [], stopDiscarded := true } })))

/-- EVENT_SNAPSHOT with room for the header takes the stored records from the asked SEQ to the highest written and owes its one reply; while another snapshot runs it is BUSY (with an estimate of the device's), and with a shorter buffer BAD_LENGTH. Its end writes the header and the whole entries that fit, in order, and gives the reply: OK with how many entries and how many bytes. The recorder's mirror pass copies records in SEQ order and commits by MIRROR_SEQ; a failed write keeps what the mirror held and sets its flag. The TIME record carries the beat stamp. -/
def Obligations.SnapshotsMirrorAndTime : Prop :=
  (∀ (p : Packet) (s t : State), opcodeOf p = 0x70 → passes never p s = some t →
    (writtenBytes t 64 ≤ bufLen p 0x30 → t.evr.snapshot = none →
      ∃ u, exec (.eventSnapshot p) s = .next u ∧ u.out = t.out ∧ u.mem = t.mem
        ∧ u.commands = t.commands ++ [⟨.snapshot, originOf p t⟩]
        ∧ ∃ n, u.evr = { t.evr with snapshot := some n } ∧ n.client = p.client ∧ n.addr = bufAddr p 0x30 ∧ n.len = bufLen p 0x30
            ∧ n.fromSeq = paramOf p 0x20 8 ∧ n.toSeq = t.evr.nextSeq - 1
            ∧ n.records = t.evr.records.filter (fun r => decide (paramOf p 0x20 8 ≤ r.seq ∧ r.seq ≤ t.evr.nextSeq - 1)))
    ∧ (writtenBytes t 64 ≤ bufLen p 0x30 → t.evr.snapshot ≠ none → exec (.eventSnapshot p) s = .next (answered p (busy (Config.estimate t.cad.beat % 2 ^ 16)) t))
    ∧ (bufLen p 0x30 < writtenBytes t 64 → exec (.eventSnapshot p) s = .next (answered p { status := stBAD_LENGTH, detail := writtenBytes t 64 } t)))
  ∧ (∀ (s : State) (n : Snapshot) (o : Origin) (k : Nat) (entries : List Bytes) (b : Bytes), s.evr.snapshot = some n → s.commands = [⟨.snapshot, o⟩] →
      entries = (n.records.take k).map (fun r => leBytes 8 r.stamp ++ recordImage r) → k ≤ n.records.length →
      entries.flatten.length ≤ roomBytes s n.len - 64 →
      (∀ r, n.records[k]? = some r → roomBytes s n.len - 64 < entries.flatten.length + (leBytes 8 r.stamp ++ recordImage r).length) →
      b = leBytes 4 0x4C4C4953 ++ leBytes 2 1 ++ leBytes 2 0 ++ leBytes 8 n.fromSeq ++ leBytes 8 n.toSeq
        ++ leBytes 8 (((n.records[k]?).map (fun r => r.seq)).getD (n.toSeq + 1)) ++ leBytes 8 n.now ++ leBytes 4 k ++ leBytes 4 n.sideLost
        ++ leBytes 4 n.pendingCodes ++ leBytes 4 n.pendingTotal ++ leBytes 8 n.oldest ++ entries.flatten →
    exec .eventSnapshotDone s = .next (replyTo o true { status := stOK, count0 := k, count1 := writtenBytes s b.length }
        (hostWrite n.client n.addr 5 b { s with evr := { s.evr with snapshot := none }, commands := [] })))
  ∧ (∀ s : State, s.evr.snapshot = none → exec .eventSnapshotDone s = .next s)
  ∧ (∀ s : State, ∃ t, exec (.mirrorPass true) s = .next t ∧ s.evr.mirrorSeq ≤ t.evr.mirrorSeq ∧ t.evr.mirrored = s.evr.records.filter (fun r => decide (r.seq ≤ t.evr.mirrorSeq))
      ∧ t.evr.mirrorCodes = s.evr.codes ∧ t.evr.records = s.evr.records ∧ t = { s with evr := t.evr })
  ∧ (∀ s : State, ∃ t, exec (.mirrorPass false) s = .next t ∧ t.evr.mirrorSeq = s.evr.mirrorSeq ∧ t.evr.mirrored = s.evr.mirrored
      ∧ t.evr.mirrorCodes = s.evr.mirrorCodes ∧ (getFlag t offEvrEvents 2).on = true ∧ t.slots = s.slots ∧ t.mem = s.mem)
  ∧ (∀ s : State, exec .timeRecord s = .next (reportAt 1 0x001 (leBytes 8 (stamp s)) s))

/-- A command that reads changes no memory, tier, schedule, object or cadence, whatever it answers. -/
def Obligations.ReadingCommandsFrame : Prop :=
  ∀ (p : Packet) (s t : State), (exec (.ping p) s = .next t ∨ exec (.queryDevice p) s = .next t ∨ exec (.getParam p) s = .next t ∨ exec (.eventSnapshot p) s = .next t
      ∨ exec (.sessionQuery p) s = .next t ∨ exec (.calRead p) s = .next t) →
    (∀ a, Memory.read t.mem a = Memory.read s.mem a) ∧ t.tier = s.tier ∧ t.sched = s.sched ∧ t.cont = s.cont ∧ t.cad = s.cad ∧ t.sup = s.sup
      ∧ t.fab = s.fab ∧ t.links = s.links ∧ t.comp = s.comp ∧ t.cal = s.cal ∧ t.svc = s.svc

/-! ### Settings -/

/-- SET_PARAM applies its entries in order: one entry in range lands and the reply counts it; the first refused entry alone replies BAD_PARAM with its offset; a refusal after others were applied replies PARTIAL with the count, its status and its offset. What single settings do at once: the recorder floor, the slowdown threshold, the host hold time, the yellow limits and the number source take a value in their range and refuse one outside it, changing nothing else. -/
def Obligations.SettingsLandInOrder : Prop :=
  (∀ (p : Packet) (s t u : State), opcodeOf p = 0x03 → passes never p s = some t → argOf p 20 2 = 1 → 64 ≤ 16 * lengthOf p →
      setEntry (paramOf p 0x20 4) (paramOf p 0x28 16) t = .done u →
    exec (.setParam p) s = .next (dropRecognised p (replyTo (originOf p t) true { status := stOK, detail := 1 } u)))
  ∧ (∀ (p : Packet) (s t : State) (d : Nat), opcodeOf p = 0x03 → passes never p s = some t → 1 ≤ argOf p 20 2 → argOf p 20 2 ≤ 255 →
      40 + 24 * argOf p 20 2 ≤ 16 * lengthOf p → setEntry (paramOf p 0x20 4) (paramOf p 0x28 16) t = .refused (bad d) →
    exec (.setParam p) s = .next (answered p (bad 0x20) t))
  ∧ (∀ (p : Packet) (s t u : State) (d : Nat), opcodeOf p = 0x03 → passes never p s = some t → 2 ≤ argOf p 20 2 → argOf p 20 2 ≤ 255 →
      40 + 24 * argOf p 20 2 ≤ 16 * lengthOf p → setEntry (paramOf p 0x20 4) (paramOf p 0x28 16) t = .done u →
      setEntry (paramOf p 0x38 4) (paramOf p 0x40 16) u = .refused (bad d) →
    exec (.setParam p) s = .next (dropRecognised p (replyTo (originOf p t) true { status := stPARTIAL, detail := 1, count0 := stBAD_PARAM, count1 := 0x38 } u)))
  ∧ (∀ (v : Nat) (s : State), v < 2 ^ 64 →
    setEntry 0x08000001 v s = (if v ≤ 7 then .done { s with evr := { s.evr with floor := v } } else .refused (bad 0))
    ∧ setEntry 0x03000002 v s = (if v ≤ 0xFFFF then .done { s with host := { s.host with slowThreshold := v } } else .refused (bad 0))
    ∧ setEntry 0x05000002 v s = (if v ≤ 0xFFFFFFFF then .done { s with host := { s.host with holdBeats := v } } else .refused (bad 0))
    ∧ setEntry 0x06000001 v s = (if v ≤ 100 then .done { s with host := { s.host with yellowFloor := v } } else .refused (bad 0))
    ∧ setEntry 0x06000002 v s = (if v ≤ 100 then .done { s with host := { s.host with yellowMover := v } } else .refused (bad 0))
    ∧ setEntry 0x01000004 v s = (if v ≤ 32 then .done { s with cad := { s.cad with numSource := v } } else .refused (bad 0)))

/-- Pre-empting an idle client sets its PREEMPTED flag, clears RUN and leaves its queue pointers, every other client, the sessions and the memory as they are. A client whose commands in flight run to their own end keeps RUN, marked as being pre-empted; its pre-emption completes, and RUN is 0, once none is in flight, and not before. A park of the client ends with it. RUN set to the value it has changes nothing, and RUN never changes for client 0. QUEUE_STATE takes the four pointers while RUN is 0, SCAN and REPLY_AT are 16-byte aligned and inside the window and the ring, and is otherwise unchanged. -/
def Obligations.PreemptionStopsClient : Prop :=
  (∀ (n : Nat) (s : State), n ≠ 0 → (clientOf s n).run = true → (clientOf s n).inflight = 0 → (clientOf s n).recognised = [] →
      (∀ c ∈ s.commands, c.origin.client ≠ n) →
    ∃ t, exec (.cliRunPreempt n) s = .next t ∧ (clientOf t n).run = false ∧ (clientOf t n).preempting = false
      ∧ (getFlag t (offCliEvents n) 3).on = true
      ∧ (clientOf t n).scan = (clientOf s n).scan ∧ (clientOf t n).seq = (clientOf s n).seq
      ∧ (clientOf t n).replyAt = (clientOf s n).replyAt ∧ (clientOf t n).replyCount = (clientOf s n).replyCount
      ∧ (∀ m, m ≠ n → clientOf t m = clientOf s m) ∧ t.slots = s.slots ∧ t.mem = s.mem ∧ t.out.replies = s.out.replies)
  ∧ (∀ (n : Nat) (s : State), n ≠ 0 → (clientOf s n).run = true → (clientOf s n).inflight ≠ 0 → (clientOf s n).recognised = [] →
      (∀ c ∈ s.commands, c.origin.client ≠ n) →
    ∃ t, exec (.cliRunPreempt n) s = .next t ∧ clientOf t n = { clientOf s n with preempting := true }
      ∧ (getFlag t (offCliEvents n) 3).on = true ∧ (∀ m, m ≠ n → clientOf t m = clientOf s m) ∧ t.slots = s.slots ∧ t.mem = s.mem ∧ t.out.replies = s.out.replies)
  ∧ (∀ (n slot : Nat) (o : Origin) (s : State), n ≠ 0 → (clientOf s n).run = true → (clientOf s n).recognised = [] →
      s.commands = [⟨.park slot, o⟩] → o.client = n → o.sender = none →
    ∃ t, exec (.cliRunPreempt n) s = .next t ∧ commandOf t (.park slot) = none ∧ (sessionAt t slot).d.parkPending = false)
  ∧ (∀ (n : Nat) (s : State), (clientOf s n).preempting = true → (clientOf s n).inflight = 0 → (∀ r ∈ s.host.rests, r.target ≠ n) →
    ∃ t, exec (.preemptionComplete n) s = .next t ∧ (clientOf t n).run = false ∧ (clientOf t n).preempting = false
      ∧ (∀ m, m ≠ n → clientOf t m = clientOf s m) ∧ t.out = s.out ∧ t.slots = s.slots ∧ t.mem = s.mem)
  ∧ (∀ (n : Nat) (s : State), ((clientOf s n).preempting = false ∨ (clientOf s n).inflight ≠ 0) → exec (.preemptionComplete n) s = .next s)
  ∧ (∀ (n : Nat) (s : State), ((clientOf s n).run = true → exec (.cliRunResume n) s = .next s) ∧ ((clientOf s n).run = false → exec (.cliRunPreempt n) s = .next s))
  ∧ (∀ (s : State), exec (.cliRunPreempt 0) s = .next s ∧ exec (.cliRunResume 0) s = .next s)
  ∧ (∀ (n scan seq replyAt replyCount : Nat) (s : State), (clientOf s n).run = false → scan % 16 = 0 → scan < 65536 → replyAt % 16 = 0 →
      replyAt < ringBytes (clientOf s n) →
    exec (.queueStateWrite n scan seq replyAt replyCount) s
      = .next (putClient n { clientOf s n with scan := scan, seq := seq, replyAt := replyAt, replyCount := replyCount } s))
  ∧ (∀ (n scan seq replyAt replyCount : Nat) (s : State),
      ((clientOf s n).run = true ∨ scan % 16 ≠ 0 ∨ 65536 ≤ scan ∨ replyAt % 16 ≠ 0 ∨ ringBytes (clientOf s n) ≤ replyAt) →
    exec (.queueStateWrite n scan seq replyAt replyCount) s = .next s)

/-- CAD.PERIOD (codes 0 to 4) and CAD.MODE (0 to 2) change only while the device belongs to no ring; other values, and the mode in force, change nothing. A follower that takes a new period is UNLOCKED with its local count at 0; a MASTER stays MASTER with its count unbroken. A follower made master counts from CAD.BEAT_INIT. The model's choices (log entry 83): a master made follower is UNLOCKED at once, and a MASTER that changes between modes 1 and 2 keeps its count. A MASTER takes no mark. In UNLOCKED the eighth sound mark in a row enters ACQUIRING with the local count at 0, an unsound one starts the run again. In ACQUIRING the 64th mark in a row within 0x004 enters LOCKED with the announced number, once its beat has come. In LOCKED a sound mark begins its beat at phase 0; the first unsound one is counted, the second in a row, or marks absent, enters HOLDOVER with REF_LOST set and the count unbroken. In HOLDOVER a mark within 0x080 counts towards the return, another starts that count again and sets REF_MISMATCH. ACQUIRING without a lock in 4,096 beats goes back to UNLOCKED with ACQ_FAIL. The holdover limit of 10 s in beats takes HOLDOVER with HOLD_LIMIT to LEAVING, departure announced for the first boundary a whole step away, or, in no ring, at once to ACQUIRING or UNLOCKED by whether marks are present; before it, without a discipline source, nothing happens. -/
def Obligations.CadenceStates : Prop :=
  (∀ (code mode : Nat) (s : State), inRing s = true → exec (.cadPeriodChange code) s = .next s ∧ exec (.cadModeChange mode) s = .next s)
  ∧ (∀ (code mode : Nat) (s : State), (4 < code → exec (.cadPeriodChange code) s = .next s) ∧ ((2 < mode ∨ mode = s.cad.mode) → exec (.cadModeChange mode) s = .next s))
  ∧ (∀ (code : Nat) (s : State), inRing s = false → code ≤ 4 → code ≠ s.cad.period → s.cad.st ≠ .master →
    ∃ t, exec (.cadPeriodChange code) s = .next t ∧ t.cad.period = code ∧ t.cad.st = .unlocked ∧ t.cad.beat = 0 ∧ t.out.replies = s.out.replies ∧ t.slots = s.slots ∧ t.mem = s.mem)
  ∧ (∀ (code : Nat) (s : State), inRing s = false → code ≤ 4 → s.cad.st = .master →
    exec (.cadPeriodChange code) s = .next { s with cad := { s.cad with period := code } })
  ∧ (∀ (mode : Nat) (s : State), inRing s = false → (mode = 1 ∨ mode = 2) → mode ≠ s.cad.mode → s.cad.st ≠ .master →
    ∃ t, exec (.cadModeChange mode) s = .next t ∧ t.cad.mode = mode ∧ t.cad.st = .master ∧ t.cad.beat = s.cad.beatInit ∧ t.cad.phase = 0 ∧ t.slots = s.slots ∧ t.mem = s.mem)
  ∧ (∀ (mode : Nat) (s : State), inRing s = false → (mode = 1 ∨ mode = 2) → s.cad.mode ≠ mode → s.cad.st = .master →
    exec (.cadModeChange mode) s = .next { s with cad := { s.cad with mode := mode, xrefLost := false } })
  ∧ (∀ (s : State), inRing s = false → s.cad.mode ≠ 0 → s.cad.st = .master →
    ∃ t, exec (.cadModeChange 0) s = .next t ∧ t.cad.mode = 0 ∧ t.cad.st = .unlocked ∧ t.cad.beat = 0 ∧ t.slots = s.slots ∧ t.mem = s.mem)
  ∧ (∀ (ok : Bool) (e : Int) (s : State), s.cad.st = .master → exec (.beatMark ok e) s = .next s)
  ∧ (∀ (e : Int) (s : State), s.cad.st = .unlocked → 7 ≤ s.cad.goodMarks →
    ∃ t, exec (.beatMark true e) s = .next t ∧ t.cad.st = .acquiring ∧ t.cad.beat = 0 ∧ t.cad.phase = 0 ∧ t.slots = s.slots ∧ t.mem = s.mem ∧ t.sched = s.sched)
  ∧ (∀ (ok : Bool) (e : Int) (s : State), s.cad.st = .unlocked → (ok = false ∨ s.cad.goodMarks + 1 < 8) →
    ∃ t, exec (.beatMark ok e) s = .next t ∧ t.cad.st = .unlocked ∧ t.cad.goodMarks = (if ok then s.cad.goodMarks + 1 else 0) ∧ t.cad.marks = true ∧ t.slots = s.slots ∧ t.mem = s.mem)
  ∧ (∀ (ok : Bool) (e : Int) (n at_ : Nat) (s : State), s.cad.st = .acquiring → (e + refOffset s).natAbs ≤ 0x004 → 63 ≤ s.cad.goodMarks → s.cad.loadAt = some (n, at_) → at_ ≤ s.cad.beat →
      s.cad.markBeat ≠ some s.cad.beat → s.cad.phase < 0x800 →
    ∃ t, exec (.beatMark ok e) s = .next t ∧ t.cad.st = .locked ∧ t.cad.beat = n + (s.cad.beat - at_) ∧ t.cad.phase = 0 ∧ t.slots = s.slots ∧ t.mem = s.mem)
  ∧ (∀ (e : Int) (s : State), s.cad.st = .locked → (e + refOffset s - s.cad.slew).natAbs ≤ 0x010 →
    ∃ t, exec (.beatMark true e) s = .next t ∧ t.cad.st = .locked ∧ t.cad.phase = 0 ∧ t.cad.badMarks = 0 ∧ t.cad.phaseErr = e + refOffset s
      ∧ t.cad.beat = (if s.cad.markBeat = some s.cad.beat ∨ 0x800 ≤ s.cad.phase then (s.cad.beat + 1) % 2 ^ 63 else s.cad.beat)
      ∧ t.cad.markBeat = some t.cad.beat ∧ t.slots = s.slots ∧ t.mem = s.mem)
  ∧ (∀ (e : Int) (s : State), s.cad.st = .locked → s.cad.badMarks = 0 →
    ∃ t, exec (.beatMark false e) s = .next t ∧ t.cad = { s.cad with marks := true, phaseErr := e + refOffset s, badMarks := 1 } ∧ t = { s with cad := t.cad })
  ∧ (∀ (e : Int) (s : State), s.cad.st = .locked → s.cad.badMarks = 1 →
    ∃ t, exec (.beatMark false e) s = .next t ∧ t.cad.st = .holdover ∧ t.cad.beat = s.cad.beat ∧ t.cad.holdBeats = 0 ∧ (getFlag t offCadEvents 0).on = true ∧ t.slots = s.slots)
  ∧ (∀ (ok : Bool) (e : Int) (s : State), s.cad.st = .holdover →
    ((e + refOffset s).natAbs ≤ 0x080 → ∃ t, exec (.beatMark ok e) s = .next t ∧ t.cad = { s.cad with marks := true, phaseErr := e + refOffset s, goodMarks := s.cad.goodMarks + 1 } ∧ t = { s with cad := t.cad })
    ∧ (0x080 < (e + refOffset s).natAbs → ∃ t, exec (.beatMark ok e) s = .next t ∧ t.cad = { s.cad with marks := true, phaseErr := e + refOffset s, goodMarks := 0 } ∧ (getFlag t offCadEvents 5).on = true ∧ t.slots = s.slots))
  ∧ (∀ s : State, s.cad.st = .locked →
    ∃ t, exec .marksAbsent s = .next t ∧ t.cad.st = .holdover ∧ t.cad.beat = s.cad.beat ∧ t.cad.marks = false ∧ (getFlag t offCadEvents 0).on = true ∧ t.slots = s.slots ∧ t.mem = s.mem)
  ∧ (∀ s : State, s.cad.st ≠ .locked → exec .marksAbsent s = .next { s with cad := { s.cad with marks := false, goodMarks := 0 } })
  ∧ (∀ s : State, s.cad.st = .acquiring → 4096 ≤ s.cad.beat →
    ∃ t, exec .acqFail s = .next t ∧ t.cad.st = .unlocked ∧ t.cad.beat = 0 ∧ (getFlag t offCadEvents 1).on = true ∧ t.slots = s.slots ∧ t.mem = s.mem)
  ∧ (∀ s : State, (s.cad.st ≠ .acquiring ∨ s.cad.beat < 4096) → exec .acqFail s = .next s)
  ∧ (∀ s : State, s.cad.st = .holdover → 10000000 / 2 ^ s.cad.period ≤ s.cad.holdBeats →
    (inRing s = false →
      ∃ t, exec .holdLimit s = .next t ∧ t.cad.st = (if s.cad.marks then .acquiring else .unlocked) ∧ (getFlag t offCadEvents 4).on = true ∧ t.slots = s.slots ∧ t.mem = s.mem)
    ∧ (∀ img, s.sched.active = some img → img.rings ≠ [] →
      ∃ t, exec .holdLimit s = .next t ∧ t.cad.st = .leaving ∧ t.cad.departAt = some (departureBoundary img s) ∧ (getFlag t offCadEvents 4).on = true
        ∧ t.out.msgs = s.out.msgs ++ [.departure (departureBoundary img s) (img.rings.map (fun r => r.ringId))] ∧ t.slots = s.slots ∧ t.mem = s.mem))
  ∧ (∀ s : State, (s.cad.st ≠ .holdover ∨ (s.cad.holdBeats < 10000000 / 2 ^ s.cad.period ∧ s.cad.peerDisc = false)) → exec .holdLimit s = .next s)

/-! ### Models, partitions, schedules, vocabularies -/

/-- A PIECE that starts its object (OFFSET 0, in place of what was staged) or goes on from the bytes staged, with the same TOTAL, is kept while bytes are missing, and the reply gives the bytes staged so far; the piece that completes the object is its last, and the staging ends; one that goes past TOTAL is refused BAD_PARAM at its LEN. A piece that does not go on from the bytes staged is refused at its OFFSET, one of another TOTAL at its TOTAL. Every refusal discards the staging. MODEL_STAGE of a model no partition names: a piece that is not the last answers the bytes staged; a last sound piece, under the model's key and with room for two copies, makes the model resident with its measurement in place of what its index held; a bad header is BAD_PARAM 0, a wrong digest DIGEST_FAIL, want of room NO_RESOURCE 0x0007, and a chunk whose tag fails AUTH_FAIL with its index. MODEL_UNLOAD removes a model no partition names. Both are BUSY for a model that a partition names. -/
def Obligations.PiecesAndModels : Prop :=
  (∀ (key base n : Nat) (p : Packet) (s : State), n = paramOf p base 8 + pieceBytes p base s →
    ((paramOf p base 8 = 0 ∨ FMap.get? s.cont.staging key = some ⟨paramOf p base 8, paramOf p (base + 8) 8⟩) →
      (n < paramOf p (base + 8) 8 →
        takePiece key base p s = .kept { status := stOK, count0 := n % 2 ^ 32, count1 := n / 2 ^ 32 }
          { s with cont := { s.cont with staging := FMap.put s.cont.staging key ⟨n, paramOf p (base + 8) 8⟩ } })
      ∧ (n = paramOf p (base + 8) 8 → takePiece key base p s = .last { s with cont := { s.cont with staging := FMap.del s.cont.staging key } })
      ∧ (paramOf p (base + 8) 8 < n → takePiece key base p s = .refused (bad (base + 24)) { s with cont := { s.cont with staging := FMap.del s.cont.staging key } }))
    ∧ (paramOf p base 8 ≠ 0 → (FMap.get? s.cont.staging key = none ∨ ∃ c, FMap.get? s.cont.staging key = some c ∧ c.staged ≠ paramOf p base 8) →
      takePiece key base p s = .refused (bad base) { s with cont := { s.cont with staging := FMap.del s.cont.staging key } })
    ∧ (∀ c, FMap.get? s.cont.staging key = some c → paramOf p base 8 ≠ 0 → c.staged = paramOf p base 8 → c.total ≠ paramOf p (base + 8) 8 →
      takePiece key base p s = .refused (bad (base + 8)) { s with cont := { s.cont with staging := FMap.del s.cont.staging key } }))
  ∧ (∀ (p : Packet) (piece : ModelPiece) (s t : State), opcodeOf p = 0x10 → passes never p s = some t → argOf p 20 1 ≤ 15 → modelNamed t (argOf p 20 1) = false →
    (∀ a u, takePiece (modelKey (argOf p 20 1)) 0x20 p t = .kept a u → piece.badChunk = none → exec (.modelStage p piece) s = .next (answered p a u))
    ∧ (∀ u i, takePiece (modelKey (argOf p 20 1)) 0x20 p t = .last u → piece.badChunk = some i →
      exec (.modelStage p piece) s = .next (answered p { status := stAUTH_FAIL, detail := i % 2 ^ 16 } u))
    ∧ (∀ u, takePiece (modelKey (argOf p 20 1)) 0x20 p t = .last u → piece.badChunk = none →
      (piece.magic ≠ 0x4C444F4D ∨ piece.version ≠ 1 ∨ piece.headerZero = false → exec (.modelStage p piece) s = .next (answered p (bad 0) u))
      ∧ (piece.magic = 0x4C444F4D → piece.version = 1 → piece.headerZero = true → FMap.get? u.sec.weightKeys (argOf p 20 1) = some piece.keyId →
        (piece.facts.digest ≠ piece.facts.trailer → exec (.modelStage p piece) s = .next (answered p { status := stDIGEST_FAIL } u))
        ∧ (piece.facts.digest = piece.facts.trailer →
            weightRoom { u with cont := { u.cont with models := FMap.del u.cont.models (argOf p 20 1) } } < 2 * piece.dieBytes.foldl (· + ·) 0 →
          exec (.modelStage p piece) s = .next (answered p (noResource 0x0007) u))
        ∧ (piece.facts.digest = piece.facts.trailer →
            2 * piece.dieBytes.foldl (· + ·) 0 ≤ weightRoom { u with cont := { u.cont with models := FMap.del u.cont.models (argOf p 20 1) } } →
          exec (.modelStage p piece) s = .next (answered p ok { u with cont := { u.cont with
            models := FMap.put u.cont.models (argOf p 20 1) ⟨piece.facts.trailer, piece.dieBytes.foldl (· + ·) 0, piece.outputRow⟩ } })))))
  ∧ (∀ (p : Packet) (s t : State), opcodeOf p = 0x11 → passes never p s = some t → argOf p 20 1 ≤ 15 → modelNamed t (argOf p 20 1) = false →
    exec (.modelUnload p) s = .next (answered p ok { t with cont := { t.cont with
      models := FMap.del t.cont.models (argOf p 20 1), staging := FMap.del t.cont.staging (modelKey (argOf p 20 1)) } }))
  ∧ (∀ (p : Packet) (piece : ModelPiece) (s t : State), passes never p s = some t → argOf p 20 1 ≤ 15 → modelNamed t (argOf p 20 1) = true →
    (opcodeOf p = 0x10 → exec (.modelStage p piece) s = .next (answered p (busy 0xFFFF) t))
    ∧ (opcodeOf p = 0x11 → exec (.modelUnload p) s = .next (answered p (busy 0xFFFF) t)))

/-- PARTITION_DEFINE of a partition that holds no session defines it as the parameters say, with every counter 0, if its attributes are in range and places are left: an attribute out of range is BAD_PARAM at its offset, more than 4,096 places in all NO_RESOURCE 0x0009. Removing takes the partition away. While the partition holds a session of any home both are BUSY. VOCAB_LOAD of an index that no session uses: a piece that is not the last answers the bytes staged; with the last one the vocabulary the bytes hold is checked, its first fault is the answer, want of the unit's store is NO_RESOURCE 0x0006, and otherwise it is resident at its index with its digest. While a session uses the index the command is BUSY. -/
def Obligations.PartitionsAndVocabularies : Prop :=
  (∀ (p : Packet) (s t : State), opcodeOf p = 0x12 → passes never p s = some t → argOf p 20 1 ≤ 15 → argOf p 21 1 = 0 → partitionHeld t (argOf p 20 1) = false →
    (partitionRefusal (definedBy p) t = none → placesBut t (argOf p 20 1) + (definedBy p).mb * (definedBy p).places ≤ 4096 →
      exec (.partitionDefine p) s = .next (answered p ok { t with cont := { t.cont with partitions := FMap.put t.cont.partitions (argOf p 20 1) (definedBy p) } }))
    ∧ (partitionRefusal (definedBy p) t = none → 4096 < placesBut t (argOf p 20 1) + (definedBy p).mb * (definedBy p).places →
      exec (.partitionDefine p) s = .next (answered p (noResource 0x0009) t))
    ∧ (∀ d, partitionRefusal (definedBy p) t = some d → exec (.partitionDefine p) s = .next (answered p (bad d) t)))
  ∧ (∀ (p : Packet) (s t : State), opcodeOf p = 0x12 → passes never p s = some t → argOf p 20 1 ≤ 15 → argOf p 21 1 = 1 → partitionHeld t (argOf p 20 1) = false →
    exec (.partitionDefine p) s = .next (answered p ok { t with cont := { t.cont with partitions := FMap.del t.cont.partitions (argOf p 20 1) } }))
  ∧ (∀ (p : Packet) (s t : State), opcodeOf p = 0x12 → passes never p s = some t → argOf p 20 1 ≤ 15 → argOf p 21 1 ≤ 1 → partitionHeld t (argOf p 20 1) = true →
    exec (.partitionDefine p) s = .next (answered p (busy 0xFFFF) t))
  ∧ (∀ p : Packet, (definedBy p).counters = {} ∧ (definedBy p).model = paramOf p 0x20 1 ∧ (definedBy p).kvFormat = paramOf p 0x21 1 ∧ (definedBy p).mb = paramOf p 0x2C 1
      ∧ (definedBy p).places = paramOf p 0x2E 2 ∧ (definedBy p).chunk = paramOf p 0x30 2)
  ∧ (∀ (p : Packet) (obj : Bytes) (s t : State), opcodeOf p = 0x14 → passes never p s = some t → argOf p 20 1 ≤ 7 → vocabHeld t (argOf p 20 1) = false →
    (∀ a u, takePiece (0x1400 + argOf p 20 1) 0x20 p t = .kept a u → exec (.vocabLoad p obj) s = .next (answered p a u))
    ∧ (∀ u, takePiece (0x1400 + argOf p 20 1) 0x20 p t = .last u →
      (∀ a, vocabFault (readVocab obj) = some a → exec (.vocabLoad p obj) s = .next (answered p a u))
      ∧ (vocabFault (readVocab obj) = none → unitStore < unitUsed u (some (argOf p 20 1)) + vocabBytes (readVocab obj).list →
        exec (.vocabLoad p obj) s = .next (answered p (noResource 0x0006) u))
      ∧ (vocabFault (readVocab obj) = none → unitUsed u (some (argOf p 20 1)) + vocabBytes (readVocab obj).list ≤ unitStore →
        exec (.vocabLoad p obj) s = .next (answered p ok { u with cont := { u.cont with
          vocabs := FMap.put u.cont.vocabs (argOf p 20 1) ⟨(readVocab obj).list, (readVocab obj).facts.trailer⟩ } }))))
  ∧ (∀ (p : Packet) (obj : Bytes) (s t : State), opcodeOf p = 0x14 → passes never p s = some t → argOf p 20 1 ≤ 7 → vocabHeld t (argOf p 20 1) = true →
    exec (.vocabLoad p obj) s = .next (answered p (busy 0xFFFF) t))

/-- SCHEDULE_LOAD while no image is staged: a piece that is not the last answers the bytes staged; with the last one the bytes are checked, and their first fault is the answer. A sound schedule image is staged for its ACTIVATE_AT, ACCEPTED with the final reply owed, and every other member of its rings is sent IMAGE_READY; a sound plan image is kept unarmed beside the armed ones and answered OK. While an image is staged every SCHEDULE_LOAD is BUSY with the beats to its ACTIVATE_AT. SHRINK_ARM arms the staged plan of the ring named, in place of one armed before, where its BASE is the active image's measurement, its roles name the old members less one and their contents pass the checks in their place; a role that does not is SHAPE_MISMATCH with its index; no staged plan of the ring, no active image or another BASE is SHAPE_MISMATCH with a detail the manual does not state. IMAGE_READY of another member is kept, whether or not an image is staged here, in place of one of the same member and ring; those whose activation has passed go. -/
def Obligations.SchedulesAndPlansStaged : Prop :=
  (∀ (p : Packet) (obj : Bytes) (s t : State), opcodeOf p = 0x13 → passes never p s = some t → argOf p 20 1 ≤ 1 → t.sched.staged = none →
    (∀ a u, takePiece (0x1300 + argOf p 20 1) 0x30 p t = .kept a u → exec (.scheduleLoad p obj) s = .next (answered p a u))
    ∧ (∀ u a, takePiece 0x1300 0x30 p t = .last u → argOf p 20 1 = 0 → imageFault u (readImage obj) (paramOf p 0x20 8) = some a →
      exec (.scheduleLoad p obj) s = .next (answered p a u))
    ∧ (∀ u, takePiece 0x1300 0x30 p t = .last u → argOf p 20 1 = 0 → imageFault u (readImage obj) (paramOf p 0x20 8) = none →
      ∃ v, exec (.scheduleLoad p obj) s = .next v
        ∧ v.sched = { u.sched with staged := some ⟨readImage obj, paramOf p 0x20 8, false⟩ }
        ∧ commandOf v .schedule ≠ none ∧ v.mem = u.mem ∧ v.tier = u.tier ∧ v.cont = u.cont
        ∧ (∀ r ∈ (readImage obj).rings, ∀ m ∈ r.members, m ≠ ownIndex u → .imageReady m r.ringId r.ringDigest (paramOf p 0x20 8) ∈ v.out.msgs))
    ∧ (∀ u a, takePiece 0x1301 0x30 p t = .last u → argOf p 20 1 = 1 → planFault u (readPlan obj) = some a →
      exec (.scheduleLoad p obj) s = .next (answered p a u))
    ∧ (∀ u, takePiece 0x1301 0x30 p t = .last u → argOf p 20 1 = 1 → planFault u (readPlan obj) = none →
      exec (.scheduleLoad p obj) s = .next (answered p ok { u with sched := { u.sched with
        plans := u.sched.plans.filter (fun q => q.armed || q.img.ringId != (readPlan obj).ringId) ++ [⟨readPlan obj, false⟩] } })))
  ∧ (∀ (p : Packet) (obj : Bytes) (g : StagedImage) (s t : State), opcodeOf p = 0x13 → passes never p s = some t → argOf p 20 1 ≤ 1 → t.sched.staged = some g →
    exec (.scheduleLoad p obj) s = .next (answered p { status := 0x0022, detail := min 0xFFFE (g.activateAt - t.cad.beat) } t))
  ∧ (∀ (p : Packet) (q : StagedPlan) (img : Image) (s t : State), opcodeOf p = 0x43 → passes never p s = some t → t.sched.plans.find? (fun q => !q.armed && q.img.ringId == paramOf p 0x20 8) = some q →
      t.sched.active = some img → q.img.base = img.facts.trailer →
    (rolesFit t q.img = true → (∀ r ∈ q.img.roles, contentFault (withRole t r) r = none) → exec (.shrinkArm p) s = .next (answered p ok { t with sched := { t.sched with
        plans := t.sched.plans.filter (fun x => x.img.ringId != paramOf p 0x20 8) ++ [{ q with armed := true }] } }))
    ∧ (∀ i r, q.img.roles[i]? = some r → (contentFault (withRole t r) r).isSome = true → rolesFit t q.img = true → (∀ j x, j < i → q.img.roles[j]? = some x → contentFault (withRole t x) x = none) →
      exec (.shrinkArm p) s = .next (answered p { status := stSHAPE_MISMATCH, detail := i } t))
    ∧ (rolesFit t q.img = false → q.img.roles ≠ [] → exec (.shrinkArm p) s = .next (answered p { status := stSHAPE_MISMATCH, detail := 0 } t)))
  ∧ (∀ (p : Packet) (s t : State), opcodeOf p = 0x43 → passes never p s = some t →
      (t.sched.active = none ∨ (∀ q ∈ t.sched.plans, q.armed = true ∨ q.img.ringId ≠ paramOf p 0x20 8)
        ∨ ∃ q img, t.sched.plans.find? (fun q => !q.armed && q.img.ringId == paramOf p 0x20 8) = some q ∧ t.sched.active = some img ∧ q.img.base ≠ img.facts.trailer) →
    ∃ detail, exec (.shrinkArm p) s = .next (answered p { status := stSHAPE_MISMATCH, detail := detail } { t with freeCtr := t.freeCtr + 1 }))
  ∧ (∀ (member ringId ringDigest activateAt : Nat) (s : State),
    exec (.imageReady member ringId ringDigest activateAt) s = .next { s with sched := { s.sched with
      readies := s.sched.readies.filter (fun x => decide (s.cad.beat < x.activateAt) && !(x.member == member && x.ringId == ringId)) ++ [⟨member, ringId, ringDigest, activateAt⟩] } })

/-! ### Sessions -/

/-- SESSION_OPEN on a defined partition with parameters its checks pass makes a RESIDENT session in the next free slot, with the slot's generation, and answers OK with its handle: no element, no page, no job, the client's own, with the given generation key, or for 0 one drawn from the device's random source, and the given MAX_LEN. Every other session and the memory stay as they are. The first parameter at fault is the answer; a LEAVING device answers NO_RESOURCE 0x000B, one without a free slot NO_RESOURCE 0x0008, an undefined partition BAD_PARAM. SESSION_FORK of a RESIDENT or PARKED session that no background copy reads, with no frame shared 65,535 times, gives the next free slot a session in the parent's state with the parent's pages, marked shared in both, its committed count and its repetition counts; its ledger is the parent's with a FORK run at the end that names the parent and its position; the reply is OK with the new handle. The parent's descriptor and ledger stay; no other session and no memory changes. Without a free slot the answer is NO_RESOURCE 0x0008, during a copy BUSY. -/
def Obligations.SessionsOpenAndFork : Prop :=
  (∀ (p : Packet) (s t : State), opcodeOf p = 0x20 → passes never p s = some t → partitionAt t (argOf p 20 1) = none →
    exec (.sessionOpen p) s = .next (answered p (bad 0x14) t))
  ∧ (∀ (p : Packet) (q : Partition) (s t : State), opcodeOf p = 0x20 → passes never p s = some t → partitionAt t (argOf p 20 1) = some q →
    (∀ a, openRefusal p q t = some a → exec (.sessionOpen p) s = .next (answered p a t))
    ∧ (openRefusal p q t = none → isLeaving t = true → exec (.sessionOpen p) s = .next (answered p (noResource 0x000B) t))
    ∧ (openRefusal p q t = none → isLeaving t = false → nextSlot t = none → exec (.sessionOpen p) s = .next (answered p (noResource 0x0008) t))
    ∧ (∀ slot, openRefusal p q t = none → isLeaving t = false → nextSlot t = some slot →
      ∃ u, exec (.sessionOpen p) s = .next (answered p { status := stOK, handle := some (sessionHandle u slot) } u)
        ∧ (sessionAt u slot).d.state = 1 ∧ (sessionAt u slot).d.partition = argOf p 20 1 ∧ (sessionAt u slot).d.committed = 0 ∧ (sessionAt u slot).d.ledgerPos = 0
        ∧ (sessionAt u slot).d.genKey = (if paramOf p 0x30 8 = 0 then (draw t).1 else paramOf p 0x30 8) ∧ (sessionAt u slot).d.maxLen = paramOf p 0x28 4
        ∧ (sessionAt u slot).d.client = p.client ∧ (sessionAt u slot).pages = [] ∧ (sessionAt u slot).job = none ∧ (sessionAt u slot).gen = (sessionAt t slot).gen
        ∧ (∀ n, n ≠ slot → sessionAt u n = sessionAt t n)
        ∧ u.counters.opened = satAdd (2 ^ 64 - 1) t.counters.opened 1 ∧ u.mem = t.mem))
  ∧ (∀ (p : Packet) (s t : State), opcodeOf p = 0x21 → passes behindAppend p s = some t → ((sessionAt t (slotOf p t)).d.state = 1 ∨ (sessionAt t (slotOf p t)).d.state = 3) →
    ((sessionAt t (slotOf p t)).d.copying = true → exec (.sessionFork p) s = .next (answered p (busy 0xFFFF) t))
    ∧ ((sessionAt t (slotOf p t)).d.copying = false → (∀ g ∈ (sessionAt t (slotOf p t)).pages, ∀ f, frameAt t g.frame = some f → f.count < 0xFFFF) → nextSlot t = none →
      exec (.sessionFork p) s = .next (answered p (noResource 0x0008) t)))
  ∧ (∀ (p : Packet) (child : Nat) (s t : State), opcodeOf p = 0x21 → passes behindAppend p s = some t → (sessionAt t (slotOf p t)).d.copying = false →
    ((sessionAt t (slotOf p t)).d.state = 1 ∨ (sessionAt t (slotOf p t)).d.state = 3) →
    (∀ g ∈ (sessionAt t (slotOf p t)).pages, ∀ f, frameAt t g.frame = some f → f.count < 0xFFFF) → nextSlot t = some child → child ≠ slotOf p t →
    ∃ u r, exec (.sessionFork p) s = .next (answered p { status := stOK, handle := some (sessionHandle u child) } u)
      ∧ (sessionAt u child).pages = (sessionAt t (slotOf p t)).pages.map (fun g => { g with shared := true })
      ∧ (sessionAt u (slotOf p t)).pages = (sessionAt t (slotOf p t)).pages.map (fun g => { g with shared := true })
      ∧ (sessionAt u child).d.state = (sessionAt t (slotOf p t)).d.state
      ∧ (sessionAt u child).d.committed = (sessionAt t (slotOf p t)).d.committed
      ∧ (sessionAt u child).counts = (sessionAt t (slotOf p t)).counts
      ∧ (sessionAt u child).body = (sessionAt t (slotOf p t)).body ++ (sessionAt t (slotOf p t)).tail ++ [r]
      ∧ r.kind = 7 ∧ r.parent = (sessionHandle t (slotOf p t), (sessionAt t (slotOf p t)).d.ledgerPos)
      ∧ (sessionAt u (slotOf p t)).d = (sessionAt t (slotOf p t)).d ∧ (sessionAt u (slotOf p t)).body = (sessionAt t (slotOf p t)).body
      ∧ (sessionAt u (slotOf p t)).tail = (sessionAt t (slotOf p t)).tail
      ∧ (∀ n, n ≠ child → n ≠ slotOf p t → sessionAt u n = sessionAt t n) ∧ u.mem = t.mem)

/-- SESSION_APPEND of inline bytes, kind INPUT or TOOL, to a RESIDENT, PARKED or REBUILDING byte session appends them as elements; to a vocabulary session they wait for the tokenizer, whose end, for the oldest one waiting, appends the tokens and counts the bytes; inline tokens inside the vocabulary are appended as they stand. Appending up to 4,096 elements that fit below 2^32 to a session that is not PARKED, or as INPUT, puts one run of the kind with the step's number at the end of the ledger, leaves the committed count, memory and output, and replies OK with the first position and the count. -/
def Obligations.AppendReachesLedger : Prop :=
  (∀ (p : Packet) (buf : Bytes) (kind : Nat) (s t : State), opcodeOf p = 0x22 → passes behindAppend p s = some t →
      (sessionAt t (slotOf p t)).d.state ∈ [1, 3, 7] → argOf p 20 1 = kind → (kind = 1 ∨ kind = 2) → argOf p 21 1 = 0 →
      (sessionAt t (slotOf p t)).d.vocab = true → argOf p 24 4 ≤ p.params.length →
    ∃ u, exec (.sessionAppend p buf) s = .next u ∧ u.out = t.out ∧ u.mem = t.mem
      ∧ (sessionAt u (slotOf p t)).tokenizing = some (kind, p.params.take (argOf p 24 4))
      ∧ u.commands = t.commands ++ [⟨.tokenize (slotOf p t), originOf p t⟩])
  ∧ (∀ (p : Packet) (buf : Bytes) (kind : Nat) (s t : State), opcodeOf p = 0x22 → passes behindAppend p s = some t →
      (sessionAt t (slotOf p t)).d.state ∈ [1, 3, 7] → argOf p 20 1 = kind → (kind = 1 ∨ kind = 2) → argOf p 21 1 = 0 →
      (sessionAt t (slotOf p t)).d.vocab = false → argOf p 24 4 ≤ p.params.length →
    exec (.sessionAppend p buf) s = .next (dropRecognised p
      (appendElems (originOf p t) (slotOf p t) kind ((p.params.take (argOf p 24 4)).map (fun b => b.toNat)) t)))
  ∧ (∀ (p : Packet) (buf : Bytes) (kind : Nat) (v : Vocabulary) (s t : State), opcodeOf p = 0x22 → passes behindAppend p s = some t →
      (sessionAt t (slotOf p t)).d.state ∈ [1, 3, 7] → argOf p 20 1 = kind → (kind = 1 ∨ kind = 2) → argOf p 21 1 = 1 →
      (sessionAt t (slotOf p t)).d.vocab = true → vocabOf t (sessionAt t (slotOf p t)) = some v → 4 * argOf p 24 4 ≤ p.params.length →
      (∀ i, i < argOf p 24 4 → fieldAt p.params (4 * i) 4 < v.entries.length) →
    exec (.sessionAppend p buf) s = .next (dropRecognised p
      (appendElems (originOf p t) (slotOf p t) kind ((List.range (argOf p 24 4)).map (fun i => fieldAt p.params (4 * i) 4)) t)))
  ∧ (∀ (slot kind : Nat) (bytes : Bytes) (o : Origin) (v : Vocabulary) (s : State), s.commands = [⟨.tokenize slot, o⟩] →
      (sessionAt s slot).tokenizing = some (kind, bytes) → vocabOf s (sessionAt s slot) = some v →
    exec (.tokenizeEnd slot) s = .next (appendElems o slot kind (tokenize v.entries bytes)
      (countPart (sessionAt s slot).d.partition (fun k => { k with tokenized := satAdd (2 ^ 64 - 1) k.tokenized bytes.length })
        (modSession slot (fun x => { x with tokenizing := none }) { s with commands := [] }))))
  ∧ (∀ (o : Origin) (slot kind : Nat) (elems : List Nat) (s : State), (kind = 2 → (sessionAt s slot).d.state ≠ 3 ∧ (sessionAt s slot).d.parkPending = false) → elems.length ≤ 4096 →
      (sessionAt s slot).d.ledgerPos + elems.length < 2 ^ 32 → kind ≠ 7 →
    ∃ u, appendElems o slot kind elems s = replyTo o true { status := stOK, count0 := (sessionAt s slot).d.ledgerPos, count1 := elems.length } u
      ∧ (sessionAt u slot).body = (sessionAt s slot).body ++ (sessionAt s slot).tail ++ [⟨kind, (sessionAt s slot).d.vocab, s.sched.step, elems, (0, 0)⟩]
      ∧ (sessionAt u slot).tail = [] ∧ (sessionAt u slot).d.ledgerPos = (sessionAt s slot).d.ledgerPos + elems.length
      ∧ (sessionAt u slot).d.committed = (sessionAt s slot).d.committed ∧ u.mem = s.mem ∧ u.out = s.out)

/-- SESSION_CANCEL of a LOST session frees it, answered OK; of any other it ends the session at once: its slot is FREE with the next generation, no command of it waits any more, and the reply gives the delivered bytes and committed positions. SESSION_CLOSE of a RESIDENT session, while an image is active, ends it in CLOSING with no job, its sealed places withdrawn and, where a journal runs, its CLOSED mark queued after what waits; a LOST one is freed. SESSION_QUERY of a session that is neither moving nor lost writes the descriptor, the counts header and the constraint state, 272 bytes; a shorter buffer is BAD_LENGTH. SESSION_CONSTRAIN of a RESIDENT, ACTIVE or PARKED session installs the set its parameters give, or none: for an ACTIVE session as its next set, otherwise at once; a malformed set is BAD_PARAM at its offset, one that does not compile NO_RESOURCE 0x0006. -/
def Obligations.SessionCommandsAtRecognition : Prop :=
  (∀ (p : Packet) (s t : State), opcodeOf p = 0x26 → passes never p s = some t →
    ((sessionAt t (slotOf p t)).d.state = 6 → exec (.sessionCancel p) s = .next (answered p ok (freeLost (slotOf p t) t)))
    ∧ ((sessionAt t (slotOf p t)).d.state ≠ 6 →
      exec (.sessionCancel p) s = .next (answered p { status := stOK, count0 := (cancelSession (slotOf p t) t).1.1, count1 := (cancelSession (slotOf p t) t).1.2 }
        (cancelSession (slotOf p t) t).2)))
  ∧ (∀ (slot : Nat) (s : State), sessionAt (cancelSession slot s).2 slot = { gen := nextGen (sessionAt s slot).gen } ∧ sessionAt (freeLost slot s) slot = { gen := nextGen (sessionAt s slot).gen }
      ∧ (∀ j, (sessionAt s slot).job = some j → (cancelSession slot s).1 = (j.delivered, j.positions))
      ∧ (∀ w ∈ [Work.generate slot, .park slot, .revive slot, .capsuleOut slot, .capsuleIn slot, .handover slot, .tokenize slot], commandOf (cancelSession slot s).2 w = none))
  ∧ (∀ (p : Packet) (s t : State), opcodeOf p = 0x27 → passes behindAppend p s = some t → (sessionAt t (slotOf p t)).d.state = 6 →
    exec (.sessionClose p) s = .next (answered p ok (freeLost (slotOf p t) t)))
  ∧ (∀ (p : Packet) (s t : State), opcodeOf p = 0x27 → passes behindAppend p s = some t → (sessionAt t (slotOf p t)).d.state = 1 →
      (sessionAt t (slotOf p t)).handover = none → commandOf t (.capsuleIn (slotOf p t)) = none → t.sched.active ≠ none →
    ∃ u, exec (.sessionClose p) s = .next u ∧ (sessionAt u (slotOf p t)).d.state = 8 ∧ (sessionAt u (slotOf p t)).job = none
      ∧ (∀ m ∈ u.sched.sealPrev ++ u.sched.sealNow ++ u.sched.sealNext, ∀ q ∈ m.places, q.handle = sessionHandle t (slotOf p t) → q.withdrawn = true)
      ∧ (journalOn t = true → u.tier.set.waiting = t.tier.set.waiting ++ [⟨sessionHandle t (slotOf p t), t.sched.step, (sessionAt t (slotOf p t)).d.ledgerPos, 0, 8, 0, 0, []⟩]))
  ∧ (∀ (p : Packet) (s t : State), opcodeOf p = 0x28 → passes behindAppend p s = some t → (sessionAt t (slotOf p t)).d.state ∈ [1, 2, 3, 7] →
    (writtenBytes t 272 ≤ bufLen p 0x20 →
      exec (.sessionQuery p) s = .next (answered p { status := stOK, count0 := 272 } (hostOut (originOf p t) (bufAddr p 0x20) 5
        (descriptorBytes t (slotOf p t) ++ countsHeader (sessionAt t (slotOf p t)) ++ constraintBytes (sessionAt t (slotOf p t))) t)))
    ∧ (bufLen p 0x20 < writtenBytes t 272 → exec (.sessionQuery p) s = .next (answered p { status := stBAD_LENGTH, detail := writtenBytes t 272 } t)))
  ∧ (∀ (p : Packet) (s t : State), opcodeOf p = 0x29 → passes behindAppend p s = some t → (sessionAt t (slotOf p t)).d.state ∈ [1, 2, 3] →
    (readSet p.params = .ok none → exec (.sessionConstrain p) s = .next (answered p ok (installSet (slotOf p t) none t)))
    ∧ (∀ off, readSet p.params = .error off → exec (.sessionConstrain p) s = .next (answered p (bad ((0x20 + off) % 2 ^ 16)) t))
    ∧ (∀ c, readSet p.params = .ok (some c) → compileSet c (sessionAt t (slotOf p t)) t = none → exec (.sessionConstrain p) s = .next (answered p (noResource 0x0006) t))
    ∧ (∀ c i u, readSet p.params = .ok (some c) → compileSet c (sessionAt t (slotOf p t)) t = some (i, u) →
      exec (.sessionConstrain p) s = .next (answered p ok (installSet (slotOf p t) (some i) u))))
  ∧ (∀ (slot : Nat) (set : Option Nat) (s : State),
    ((sessionAt s slot).d.state = 2 → (sessionAt (installSet slot set s) slot).nextSet = some set)
    ∧ ((sessionAt s slot).d.state ≠ 2 → (sessionAt s slot).job = none → (sessionAt (installSet slot none s) slot).con = seedCon none none (sessionAt s slot).con
      ∧ (sessionAt (installSet slot none s) slot).nextSet = none))

/-! ### Generations, parks, revives, exports, imports -/

/-- SESSION_GENERATE, serving, of a RESIDENT session with all its pages in T1, or of a PARKED one whose capsules this device holds, that no Mover operation touches, with sound parameters and an element to continue: admitted when frames, CTRL slots and, for a PARKED session, Mover capacity for its revive are free: the session is ACTIVE with the command's sampling block, byte count (0: what the buffer holds), buffer and park flag, ACCEPTED with a reply owed, its committed count and the memory unchanged, and a PARKED one's revive is scheduled. Without frames the answer is NO_RESOURCE 0x0001, without CTRL slots 0x000A; a REBUILDING session answers REBUILDING. The training variant on a RESIDENT session within the lengths makes it ACTIVE with its loss start, takes a scratch frame for each of its pages, and is ACCEPTED with a reply owed. -/
def Obligations.GenerationAdmitted : Prop :=
  (∀ (p : Packet) (n : Nat) (s t : State), isServe p = true → argOf p 20 1 = 0 → passes behindAppend p s = some t →
      ((sessionAt t (slotOf p t)).d.state = 1 ∨ (sessionAt t (slotOf p t)).d.state = 3) → slotsReady t = true → (ringOf t (sessionAt t (slotOf p t)).d.partition).isSome = true →
      samplingRefusal (samplingOf p) = none → 48 * max (argOf p 24 4) 1 ≤ bufLen p 0x48 → (sessionAt t (slotOf p t)).d.ledgerPos ≠ 0 →
      (sessionAt t (slotOf p t)).con.absent = false → (sessionAt t (slotOf p t)).exported = false → (∀ o ∈ t.tier.ops, o.slot ≠ slotOf p t) → tailShared t (sessionAt t (slotOf p t)) = false →
      n = (if argOf p 24 4 = 0 then bufLen p 0x48 / 48 else argOf p 24 4) →
    (t1FreeFor t (slotOf p t) < (steadyFrames t (sessionAt t (slotOf p t)) n - t1Pages (sessionAt t (slotOf p t))) * granuleOf t (sessionAt t (slotOf p t)).d.partition →
      exec (.sessionGenerate p) s = .next (answered p (noResource 0x0001) t))
    ∧ ((steadyFrames t (sessionAt t (slotOf p t)) n - t1Pages (sessionAt t (slotOf p t))) * granuleOf t (sessionAt t (slotOf p t)).d.partition ≤ t1FreeFor t (slotOf p t) → 4096 < ctrlHeld t + ringSizeOf t (sessionAt t (slotOf p t)).d.partition →
      exec (.sessionGenerate p) s = .next (answered p (noResource 0x000A) t))
    ∧ ((steadyFrames t (sessionAt t (slotOf p t)) n - t1Pages (sessionAt t (slotOf p t))) * granuleOf t (sessionAt t (slotOf p t)).d.partition ≤ t1FreeFor t (slotOf p t) → ctrlHeld t + ringSizeOf t (sessionAt t (slotOf p t)).d.partition ≤ 4096 →
      ((∀ g ∈ parkPages (sessionAt t (slotOf p t)), g.tier = 1) ∨ moverFits (tileBytesOf t (sessionAt t (slotOf p t))) (reviveCodec t (sessionAt t (slotOf p t))) t = true) →
      ∃ u, exec (.sessionGenerate p) s = .next u ∧ (sessionAt u (slotOf p t)).d.state = 2
        ∧ (∃ j, (sessionAt u (slotOf p t)).job = some j ∧ j.train = false ∧ j.block = samplingOf p ∧ j.byteCount = n ∧ j.outAddr = bufAddr p 0x48
            ∧ j.parkOnEnd = bitOf (argOf p 21 1) 0 ∧ j.delivered = 0 ∧ j.positions = 0)
        ∧ ((∃ g ∈ parkPages (sessionAt t (slotOf p t)), g.tier ≠ 1) → ∃ o ∈ u.tier.ops, o.slot = slotOf p t ∧ o.kind = .reviveTaken)
        ∧ commandOf u (.generate (slotOf p t)) ≠ none ∧ (sessionAt u (slotOf p t)).d.committed = (sessionAt t (slotOf p t)).d.committed ∧ u.mem = t.mem))
  ∧ (∀ (p : Packet) (s t : State), isServe p = true → passes behindAppend p s = some t → (sessionAt t (slotOf p t)).d.state = 7 →
    exec (.sessionGenerate p) s = .next (answered p (rebuilding t (sessionAt t (slotOf p t))) t))
  ∧ (∀ (p : Packet) (tr : Train) (s t : State), isTrain p = true → passes behindAppend p s = some t →
      (sessionAt t (slotOf p t)).d.state = 1 → slotsReady t = true → (sessionAt t (slotOf p t)).d.copying = false → (∀ o ∈ t.tier.ops, o.slot ≠ slotOf p t) →
      trainOf t (sessionAt t (slotOf p t)).d.partition = some tr → (sessionAt t (slotOf p t)).d.ledgerPos ≤ min tr.trainLen 16384 →
      paramOf p 0x20 8 + 1 < (sessionAt t (slotOf p t)).d.ledgerPos →
      trainFrames t (sessionAt t (slotOf p t)) * granuleOf t (sessionAt t (slotOf p t)).d.partition ≤ t1Free t →
      ctrlHeld t + ringSizeOf t (sessionAt t (slotOf p t)).d.partition ≤ 4096 →
    ∃ u, exec (.trainingGenerate p) s = .next u ∧ (sessionAt u (slotOf p t)).d.state = 2
      ∧ (∃ j, (sessionAt u (slotOf p t)).job = some j ∧ j.train = true ∧ j.lossFrom = paramOf p 0x20 8)
      ∧ (∀ i, FMap.get? (sessionAt u (slotOf p t)).scratch i ≠ none ↔ 64 * i < (sessionAt t (slotOf p t)).d.ledgerPos)
      ∧ commandOf u (.generate (slotOf p t)) ≠ none ∧ (sessionAt u (slotOf p t)).pages = (sessionAt t (slotOf p t)).pages ∧ u.mem = t.mem)

/-- SESSION_PARK of a RESIDENT session that no copy or Mover operation touches: with a place for its worst-case capsules and Mover capacity its park is scheduled for that place with the command's wake, PARK_PENDING is set, and the command is ACCEPTED with its final reply owed; without a place it is NO_RESOURCE 0x0002 with its flag set, without capacity BUSY with the beats to the boundary. SESSION_REVIVE of a PARKED session that no operation touches, whose capsules were not exported: with T1 frames and Mover capacity its revive is scheduled, REVIVE_PENDING is set, and it is ACCEPTED; without frames it is NO_RESOURCE 0x0001, without capacity BUSY; one of an exported session is NO_RESOURCE 0x0004; a second revive joins the one pending. -/
def Obligations.ParkAndReviveScheduled : Prop :=
  (∀ (p : Packet) (wake codec : Nat) (s t : State), opcodeOf p = 0x24 → passes behindRevive p s = some t → (sessionAt t (slotOf p t)).d.state = 1 → slotsReady t = true →
      (sessionAt t (slotOf p t)).d.copying = false → (sessionAt t (slotOf p t)).d.parkPending = false → (∀ o ∈ t.tier.ops, o.slot ≠ slotOf p t) →
      wake = (if paramOf p 0x20 8 = 0 then 0 else t.cad.beat + paramOf p 0x20 8) →
      codec = (if parkGrade t (sessionAt t (slotOf p t)) = 0 then tileBytesOf t (sessionAt t (slotOf p t)) else parkBytes t (sessionAt t (slotOf p t)) (parkGrade t (sessionAt t (slotOf p t)))) →
    (placePark (slotOf p t) (parkSpace t (sessionAt t (slotOf p t))) wake t = none → exec (.sessionPark p) s = .next (answered p (noResource 0x0002) (setFlag offTierEvents 0 t)))
    ∧ (∀ dest t1, placePark (slotOf p t) (parkSpace t (sessionAt t (slotOf p t))) wake t = some (dest, t1) → moverFits (parkBytes t (sessionAt t (slotOf p t)) (parkGrade t (sessionAt t (slotOf p t)))) codec t1 = false →
      exec (.sessionPark p) s = .next (answered p (busy (beatsToBoundary t)) t))
    ∧ (∀ dest t1, placePark (slotOf p t) (parkSpace t (sessionAt t (slotOf p t))) wake t = some (dest, t1) → moverFits (parkBytes t (sessionAt t (slotOf p t)) (parkGrade t (sessionAt t (slotOf p t)))) codec t1 = true →
      ∃ u, exec (.sessionPark p) s = .next (accepted p (.park (slotOf p t)) u) ∧ (sessionAt u (slotOf p t)) = { (sessionAt t (slotOf p t)) with parkWake := paramOf p 0x20 8, d := { (sessionAt t (slotOf p t)).d with parkPending := true } }
        ∧ (∃ o ∈ u.tier.ops, o.slot = slotOf p t ∧ o.kind = .park ∧ o.dest = dest ∧ o.grade = parkGrade t (sessionAt t (slotOf p t)))
        ∧ (∀ n, n ≠ slotOf p t → sessionAt u n = sessionAt t n) ∧ u.mem = t.mem))
  ∧ (∀ (p : Packet) (s t : State), opcodeOf p = 0x25 → passes behindAppend p s = some t → (sessionAt t (slotOf p t)).d.state = 3 → slotsReady t = true →
      (sessionAt t (slotOf p t)).exported = false → (∀ o ∈ t.tier.ops, o.slot ≠ slotOf p t) →
    (t1Free t < reviveNeed t (sessionAt t (slotOf p t)) → exec (.sessionRevive p) s = .next (answered p (noResource 0x0001) t))
    ∧ (reviveNeed t (sessionAt t (slotOf p t)) ≤ t1Free t → moverFits (tileBytesOf t (sessionAt t (slotOf p t))) (reviveCodec t (sessionAt t (slotOf p t))) t = false →
      exec (.sessionRevive p) s = .next (answered p (busy (beatsToBoundary t)) t))
    ∧ (reviveNeed t (sessionAt t (slotOf p t)) ≤ t1Free t → moverFits (tileBytesOf t (sessionAt t (slotOf p t))) (reviveCodec t (sessionAt t (slotOf p t))) t = true →
      ∃ u, exec (.sessionRevive p) s = .next (accepted p (.revive (slotOf p t)) u) ∧ (sessionAt u (slotOf p t)).d = { (sessionAt t (slotOf p t)).d with revivePending := true } ∧ (sessionAt u (slotOf p t)).pages = (sessionAt t (slotOf p t)).pages
        ∧ (∃ o ∈ u.tier.ops, o.slot = slotOf p t ∧ o.kind = .revive) ∧ (∀ n, n ≠ slotOf p t → sessionAt u n = sessionAt t n) ∧ u.mem = t.mem))
  ∧ (∀ (p : Packet) (s t : State), opcodeOf p = 0x25 → passes behindAppend p s = some t → (sessionAt t (slotOf p t)).d.state = 3 → slotsReady t = true → (sessionAt t (slotOf p t)).exported = true →
    exec (.sessionRevive p) s = .next (answered p (noResource 0x0004) t))
  ∧ (∀ (p : Packet) (s t : State), opcodeOf p = 0x25 → passes behindAppend p s = some t → (sessionAt t (slotOf p t)).d.state = 3 → slotsReady t = true →
      (sessionAt t (slotOf p t)).exported = false → opOf t (slotOf p t) (fun o => o.kind == .sessionOut) = none → (opOf t (slotOf p t) isRevive).isSome = true →
    exec (.sessionRevive p) s = .next (accepted p (.revive (slotOf p t)) t))

/-- SESSION_EXPORT of a RESIDENT or PARKED session that is not exported and that neither a handover nor a Mover operation touches, with a buffer for the worst case and Mover capacity, is ACCEPTED with its operation scheduled to the buffer, its final reply owed, and its pages as they were; without capacity it is BUSY. SESSION_IMPORT: with no session of the named handle here, a capsule that passes the checks, with room for its bytes, takes the next free slot as a session of the partition with the capsule's counts, holding the capsule, and is ACCEPTED with its operation scheduled; for an exported PARKED session the capsule is held by that session; the first check that fails is the answer. -/
def Obligations.ExportAndImportScheduled : Prop :=
  (∀ (p : Packet) (bytes codec : Nat) (s t : State), opcodeOf p = 0x2A → passes behindShift p s = some t →
      ((sessionAt t (slotOf p t)).d.state = 1 ∨ (sessionAt t (slotOf p t)).d.state = 3) → slotsReady t = true → (sessionAt t (slotOf p t)).exported = false → (sessionAt t (slotOf p t)).handover = none →
      (∀ o ∈ t.tier.ops, o.slot ≠ slotOf p t) → writtenBytes t (worstCapsule t (sessionAt t (slotOf p t))) ≤ bufLen p 0x20 →
      bytes = (if (sessionAt t (slotOf p t)).d.state = 1 then parkBytes t (sessionAt t (slotOf p t)) (parkGrade t (sessionAt t (slotOf p t))) else storedBytes t (sessionAt t (slotOf p t))) →
      codec = (if (sessionAt t (slotOf p t)).d.state = 1 then (if parkGrade t (sessionAt t (slotOf p t)) = 0 then tileBytesOf t (sessionAt t (slotOf p t)) else bytes) else 0) →
    (moverFits bytes codec t = false → exec (.sessionExport p) s = .next (answered p (busy (beatsToBoundary t)) t))
    ∧ (moverFits bytes codec t = true →
      ∃ u, exec (.sessionExport p) s = .next (accepted p (.capsuleOut (slotOf p t)) u)
        ∧ (∃ o ∈ u.tier.ops, o.slot = slotOf p t ∧ o.kind = .sessionOut ∧ o.buffer = bufAddr p 0x20 ∧ o.client = p.client)
        ∧ u.slots = t.slots ∧ u.mem = t.mem))
  ∧ (∀ (p : Packet) (cap : SessionCapsule) (q : Partition) (slot : Nat) (s t : State), opcodeOf p = 0x2B → passes behindAppend p s = some t → partitionAt t (argOf p 20 1) = some q →
      liveSlot t (handleOf p) = none → slotsReady t = true → isLeaving t = false → nextSlot t = some slot →
    (∀ a, importRefusal p (argOf p 20 1) q cap (placePark slot (incomingBytes cap.body) cap.body.wake t).isSome t = some a →
      exec (.sessionImport p cap) s = .next (answered p a t))
    ∧ (importRefusal p (argOf p 20 1) q cap (placePark slot (incomingBytes cap.body) cap.body.wake t).isSome t = none → moverFits (incomingBytes cap.body) 0 t = true →
      ∃ u, exec (.sessionImport p cap) s = .next (accepted p (.capsuleIn slot) u) ∧ (sessionAt u slot).incoming = some cap.body ∧ (sessionAt u slot).d.partition = argOf p 20 1
        ∧ (sessionAt u slot).d.committed = cap.body.committed ∧ (sessionAt u slot).counts = cap.body.counts ∧ (sessionAt u slot).gen = (sessionAt t slot).gen
        ∧ (∃ o ∈ u.tier.ops, o.slot = slot ∧ o.kind = .sessionIn) ∧ (∀ n, n ≠ slot → sessionAt u n = sessionAt t n) ∧ u.mem = t.mem))
  ∧ (∀ (p : Packet) (cap : SessionCapsule) (q : Partition) (slot : Nat) (s t : State), opcodeOf p = 0x2B → passes behindAppend p s = some t → partitionAt t (argOf p 20 1) = some q →
      liveSlot t (handleOf p) = some slot → (sessionAt t slot).d.state = 3 → (sessionAt t slot).exported = true → opOf t slot (fun o => o.kind == .sessionIn) = none → slotsReady t = true →
      importRefusal p (argOf p 20 1) q cap (placePark slot (incomingBytes cap.body) (sessionAt t slot).d.wake t).isSome t = none → moverFits (incomingBytes cap.body) 0 t = true →
    ∃ u, exec (.sessionImport p cap) s = .next (accepted p (.capsuleIn slot) u) ∧ sessionAt u slot = { sessionAt t slot with incoming := some cap.body }
      ∧ (∃ o ∈ u.tier.ops, o.slot = slot ∧ o.kind = .sessionIn) ∧ (∀ n, n ≠ slot → sessionAt u n = sessionAt t n) ∧ u.mem = t.mem)

/-! ### Handovers -/

/-- HANDOVER_OUT of a RESIDENT, ACTIVE or PARKED session in no handover and with no Mover operation, to another member, with stream slots and, unless PARKED, Mover capacity: the target is asked with HO_REQUEST, and the session is marked COPYING or, where it was PARKED, MOVING; no reply is given before the target's answer (log entry 30). A target that is no other member is BAD_PARAM, a session in a handover BUSY, want of stream slots NO_RESOURCE 0x000A, want of Mover capacity BUSY. HANDOVER_IN sets the grant of its partition and source, 0 removing it, and answers the sum of the open grants; an undefined partition or a source out of range is BAD_PARAM. What the source does with the target's messages. A refusal reverts the handover: no copy, no handover, no command waits for it. An acceptance keeps the new handle and, for a session that was not PARKED, begins the copy with its final pass reserved; for a PARKED one it sends the ownership transfer. A confirmation that names the new handle after the final pass, under the present or the previous epoch, makes the session REMOTE at its new handle without pages, and no command waits; one for a handover that is over is answered with an abort. 1,024 beats without a confirmation revert an accepted handover, telling the target NO_RESOURCE; an abort from the target reverts it too. -/
def Obligations.HandoversAtSource : Prop :=
  (∀ (p : Packet) (s t : State), opcodeOf p = 0x30 → passes behindShift p s = some t → (sessionAt t (slotOf p t)).d.state ∈ [1, 2, 3] →
    (isMember t (argOf p 20 2) = false → exec (.handoverOut p) s = .next (answered p (bad 0x14) t))
    ∧ (isMember t (argOf p 20 2) = true → (sessionAt t (slotOf p t)).handover ≠ none → exec (.handoverOut p) s = .next (answered p (busy 0xFFFF) t))
    ∧ (isMember t (argOf p 20 2) = true → slotsReady t = true → (sessionAt t (slotOf p t)).handover = none → (∀ o ∈ t.tier.ops, o.slot ≠ slotOf p t) →
      (256 < migrHeld t + 4 → exec (.handoverOut p) s = .next (answered p (noResource 0x000A) t))
      ∧ (migrHeld t + 4 ≤ 256 → (sessionAt t (slotOf p t)).d.state ≠ 3 → moverFits (2 * tileBytesOf t (sessionAt t (slotOf p t))) 0 t = false → exec (.handoverOut p) s = .next (answered p (busy (beatsToBoundary t)) t))
      ∧ (migrHeld t + 4 ≤ 256 → ((sessionAt t (slotOf p t)).d.state = 3 ∨ moverFits (2 * tileBytesOf t (sessionAt t (slotOf p t))) 0 t = true) →
        ∃ u, exec (.handoverOut p) s = .next u ∧ u.out = { t.out with msgs := t.out.msgs ++ [.hoRequest (argOf p 20 2) (requestOf t (slotOf p t))] }
          ∧ (sessionAt u (slotOf p t)).d.state = (if (sessionAt t (slotOf p t)).d.state = 3 then 4 else (sessionAt t (slotOf p t)).d.state)
          ∧ (sessionAt u (slotOf p t)).d.copying = decide ((sessionAt t (slotOf p t)).d.state ≠ 3) ∧ (sessionAt u (slotOf p t)).d.peer = argOf p 20 2
          ∧ (∃ ho, (sessionAt u (slotOf p t)).handover = some ho ∧ ho.source = true ∧ ho.peer = argOf p 20 2)
          ∧ u.commands = t.commands ++ [⟨.handover (slotOf p t), originOf p t⟩] ∧ u.mem = t.mem)))
  ∧ (∀ (p : Packet) (grants : List (Nat × Nat × Nat)) (s t : State), opcodeOf p = 0x31 → passes never p s = some t →
    (partitionAt t (argOf p 20 1) = none → exec (.handoverIn p) s = .next (answered p (bad 0x14) t))
    ∧ (partitionAt t (argOf p 20 1) ≠ none → 4095 < argOf p 22 2 → argOf p 22 2 ≠ 0xFFFF → exec (.handoverIn p) s = .next (answered p (bad 0x16) t))
    ∧ (partitionAt t (argOf p 20 1) ≠ none → (argOf p 22 2 ≤ 4095 ∨ argOf p 22 2 = 0xFFFF) → slotsServed t = true →
      grants = t.comp.grants.filter (fun g => !(g.1 == argOf p 20 1 && g.2.1 == argOf p 22 2))
          ++ (if argOf p 24 4 = 0 then [] else [(argOf p 20 1, argOf p 22 2, argOf p 24 4)]) →
      exec (.handoverIn p) s = .next (answered p { status := stOK, count0 := (grants.foldl (fun n g => n + g.2.2) 0) % 2 ^ 32 }
        { t with comp := { t.comp with grants := grants } })))
  ∧ (∀ (handle status newHandle slot : Nat) (ho : Handover) (s : State), liveSlot s handle = some slot → (sessionAt s slot).handover = some ho → ho.source = true → ho.newHandle = 0 → status ≠ stOK →
    ∃ u, exec (.hoAnswer handle status newHandle) s = .next u ∧ (sessionAt u slot).handover = none ∧ (sessionAt u slot).d.copying = false
      ∧ commandOf u (.handover slot) = none ∧ u.mem = s.mem)
  ∧ (∀ (handle newHandle slot : Nat) (ho : Handover) (s : State), liveSlot s handle = some slot → (sessionAt s slot).handover = some ho → ho.source = true → ho.newHandle = 0 → ho.prior ≠ 3 →
    ∃ u, exec (.hoAnswer handle stOK newHandle) s = .next u ∧ (sessionAt u slot).handover = some { ho with newHandle := newHandle }
      ∧ (∃ o ∈ u.tier.ops, o.slot = slot ∧ o.kind = .copyPass) ∧ (∃ o ∈ u.tier.ops, o.slot = slot ∧ o.kind = .finalPass) ∧ u.mem = s.mem)
  ∧ (∀ (handle newHandle slot : Nat) (ho : Handover) (s : State), liveSlot s handle = some slot → (sessionAt s slot).handover = some ho → ho.source = true → ho.newHandle = 0 → ho.prior = 3 →
    ∃ u img, exec (.hoAnswer handle stOK newHandle) s = .next u ∧ (sessionAt u slot).handover = some { ho with newHandle := newHandle, finalSent := true }
      ∧ .hoOwnership ho.peer newHandle img ∈ u.out.msgs ∧ img.committed = (sessionAt s slot).d.committed ∧ img.ledger = (sessionAt s slot).body ++ (sessionAt s slot).tail ∧ u.mem = s.mem)
  ∧ (∀ (handle newHandle slot epoch : Nat) (ho : Handover) (s : State), liveSlot s handle = some slot → (sessionAt s slot).handover = some ho → ho.source = true → ho.newHandle = newHandle → ho.finalSent = true →
      (epoch = s.comp.epoch ∨ epoch = s.comp.previous) →
    ∃ u, exec (.hoConfirm handle newHandle epoch) s = .next u ∧ (sessionAt u slot).d.state = 5 ∧ (sessionAt u slot).d.newHome = newHandle
      ∧ (sessionAt u slot).pages = [] ∧ (sessionAt u slot).handover = none ∧ commandOf u (.handover slot) = none
      ∧ u.counters.handoversOut = satAdd (2 ^ 64 - 1) s.counters.handoversOut 1)
  ∧ (∀ (handle newHandle epoch : Nat) (s : State), liveSlot s handle = none →
    exec (.hoConfirm handle newHandle epoch) s = .next (send (.hoAbort (handleHome newHandle) handle newHandle stCANCELLED) s))
  ∧ (∀ (slot : Nat) (ho : Handover) (s : State), (sessionAt s slot).handover = some ho → ho.source = true → ho.newHandle ≠ 0 →
    ∃ u, exec (.hoTimeout slot) s = .next u ∧ (sessionAt u slot).handover = none ∧ commandOf u (.handover slot) = none ∧ u.mem = s.mem
      ∧ .hoAbort ho.peer (sessionHandle s slot) ho.newHandle stNO_RESOURCE ∈ u.out.msgs)
  ∧ (∀ (handle newHandle slot status : Nat) (ho : Handover) (s : State), targetSlot s newHandle = none → liveSlot s handle = some slot → (sessionAt s slot).handover = some ho → ho.source = true →
      ho.newHandle = newHandle → status ≠ stOK →
    ∃ u, exec (.hoAbort handle newHandle status) s = .next u ∧ (sessionAt u slot).handover = none ∧ commandOf u (.handover slot) = none ∧ u.mem = s.mem)

/-- What the target does: the image of the final pass, or of an ownership transfer, makes the slot the session itself, RESIDENT or PARKED as at the source, with the image's committed count and ledger, and HO_CONFIRM goes out; an abort, the notice of a dead source and the end of the grace time free the slot, whose generation advances, and so does the end of the grace time of a REMOTE record. HO_REQUEST that passes the target's checks takes the next free slot, MOVING in the named partition under the slot's generation, uses one of the open grant, and is answered OK with the new handle; one that fails a check is answered with that status, NO_RESOURCE where no grant is open, and changes nothing else. -/
def Obligations.HandoversAtTarget : Prop :=
  (∀ (newHandle slot : Nat) (img : SessionImage) (ho : Handover) (s : State), targetSlot s newHandle = some slot → (sessionAt s slot).handover = some ho → ho.prior ≠ 3 →
    ∃ u, exec (.hoFinal newHandle img) s = .next u ∧ (sessionAt u slot).d.state = 1 ∧ (sessionAt u slot).d.committed = img.committed ∧ (sessionAt u slot).body = img.ledger
      ∧ (sessionAt u slot).counts = img.counts ∧ (sessionAt u slot).handover = none ∧ u.counters.handoversIn = satAdd (2 ^ 64 - 1) s.counters.handoversIn 1
      ∧ .hoConfirm ho.peer ho.oldHandle (sessionHandle u slot) s.comp.epoch ∈ u.out.msgs)
  ∧ (∀ (newHandle slot : Nat) (img : SessionImage) (ho : Handover) (s : State), targetSlot s newHandle = some slot → (sessionAt s slot).handover = some ho → ho.prior = 3 →
    ∃ u, exec (.hoOwnership newHandle img) s = .next u ∧ (sessionAt u slot).d.state = 3 ∧ (sessionAt u slot).d.committed = img.committed ∧ (sessionAt u slot).body = img.ledger
      ∧ (sessionAt u slot).handover = none ∧ .hoConfirm ho.peer ho.oldHandle (sessionHandle u slot) s.comp.epoch ∈ u.out.msgs)
  ∧ (∀ (handle newHandle slot status : Nat) (s : State), targetSlot s newHandle = some slot →
    ∃ u, exec (.hoAbort handle newHandle status) s = .next u ∧ (sessionAt u slot).d.state = 0 ∧ (sessionAt u slot).gen = nextGen (sessionAt s slot).gen)
  ∧ (∀ (n : SessionNotice) (slot : Nat) (s : State), targetSlot s n.handle = some slot →
    ∃ u, exec (.freeTargetSlot n) s = .next u ∧ (sessionAt u slot).d.state = 0 ∧ (sessionAt u slot).gen = nextGen (sessionAt s slot).gen)
  ∧ (∀ (slot : Nat) (ho : Handover) (s : State), (sessionAt s slot).d.state = 4 → (sessionAt s slot).handover = some ho → ho.source = false →
    ∃ u, exec (.hoTargetGrace slot) s = .next u ∧ (sessionAt u slot).d.state = 0 ∧ (sessionAt u slot).gen = nextGen (sessionAt s slot).gen)
  ∧ (∀ (slot : Nat) (s : State), (sessionAt s slot).d.state = 5 →
    ∃ u, exec (.remoteGraceEnd slot) s = .next u ∧ (sessionAt u slot).d.state = 0 ∧ (sessionAt u slot).gen = nextGen (sessionAt s slot).gen ∧ u.slots.freed = s.slots.freed ++ [slot])
  ∧ (∀ (r : HoRequest) (slot : Nat) (g : Nat × Nat × Nat) (s : State), hoStatus r s = stOK → nextSlot s = some slot → grantOpen s r.partition r.source = some g →
    ∃ u, exec (.hoRequest r) s = .next u ∧ (sessionAt u slot).d.state = 4 ∧ (sessionAt u slot).d.partition = r.partition ∧ (sessionAt u slot).gen = (sessionAt s slot).gen
      ∧ u.comp.grants = (s.comp.grants.map (fun x => if x = g then (x.1, x.2.1, x.2.2 - 1) else x)).filter (fun x => decide (0 < x.2.2))
      ∧ (∀ n, n ≠ slot → sessionAt u n = sessionAt s n)
      ∧ u.out = { s.out with msgs := s.out.msgs ++ [.hoAnswer r.source r.handle stOK (sessionHandle u slot)] } ∧ u.mem = s.mem ∧ u.tier = s.tier)
  ∧ (∀ (r : HoRequest) (s : State), hoStatus r s ≠ stOK → exec (.hoRequest r) s = .next (send (.hoAnswer r.source r.handle (hoStatus r s) 0) s))
  ∧ (∀ (r : HoRequest) (s : State), grantOpen s r.partition r.source = none → hoStatus r s = stNO_RESOURCE)

/-- A tile of a copy pass is stored at its place of the page: of the target's session, or of a session of another home that this ring position holds. A page that is not there yet gets a frame. The bytes of the tile read as sent, and every other byte of memory reads as before. -/
def Obligations.TileStored : Prop :=
  (∀ (newHandle pageNo tile slot : Nat) (ho : Handover) (q : Partition) (bytes : Bytes) (s : State),
    liveSlot s newHandle = some slot → (sessionAt s slot).d.state = 4 → (sessionAt s slot).handover = some ho → ho.source = false →
    partitionAt s (sessionAt s slot).d.partition = some q → (pageFrame (sessionAt s slot) pageNo ≠ none ∨ ∀ g ∈ (sessionAt s slot).pages, g.no ≠ pageNo) →
    tile < tilesPerPage q → bytes.length = tileBytes q → Memory.wf s.mem = true →
    ∃ u f, exec (.tiles newHandle pageNo tile bytes) s = .next u ∧ pageFrame (sessionAt u slot) pageNo = some f
      ∧ (∀ f', pageFrame (sessionAt s slot) pageNo = some f' → f = f')
      ∧ (∀ i, i < bytes.length → Memory.read u.mem (f + tile * tileBytes q + i) = bytes.getD i 0)
      ∧ (∀ a, (a < f + tile * tileBytes q ∨ f + tile * tileBytes q + tileBytes q ≤ a) → Memory.read u.mem a = Memory.read s.mem a))
  ∧ (∀ (newHandle pageNo tile : Nat) (q : Partition) (bytes : Bytes) (s : State),
    liveSlot s newHandle = none → handleHome newHandle ≠ ownIndex s → partitionAt s (handlePart newHandle) = some q →
    (pageFrame (guestAt s newHandle) pageNo ≠ none ∨ ∀ g ∈ (guestAt s newHandle).pages, g.no ≠ pageNo) →
    tile < tilesPerPage q → bytes.length = tileBytes q → Memory.wf s.mem = true →
    ∃ u f, exec (.tiles newHandle pageNo tile bytes) s = .next u ∧ pageFrame (guestAt u newHandle) pageNo = some f
      ∧ (∀ f', pageFrame (guestAt s newHandle) pageNo = some f' → f = f')
      ∧ (∀ i, i < bytes.length → Memory.read u.mem (f + tile * tileBytes q + i) = bytes.getD i 0)
      ∧ (∀ a, (a < f + tile * tileBytes q ∨ f + tile * tileBytes q + tileBytes q ≤ a) → Memory.read u.mem a = Memory.read s.mem a))

/-! ### Forwarded commands -/

/-- FORWARD: the packet is kept among those relayed here (t); one that reads a host buffer waits for its HOSTDATA; of any other, checks 7 to 9 decide: a refusal is replied to the device it came from, a REMOTE record sends it on with its reply owed, what waits stays, and what passes and waits for nothing runs its own body. HOSTDATA of a relayed packet does the same with the bytes it brings; HOSTDATA of a command forwarded from here is the output of that command and goes to its client's buffer or on to the device it came from; of no command it does nothing. FORWARDREPLY lands in the ring of the client that issued the command, which ends with every status but ACCEPTED; for no command it does nothing. CANDIDATE at ring position 0, of no past step: every session it names leaves the candidates, those it names as candidates come in with this partition, and the others stay. A SEAL at another position for the next step replaces that microbatch's membership and ends the deferral of places it names. A CANDIDATE at another position or of a past step, and a SEAL at position 0 or not for the next step, change nothing. -/
def Obligations.MessagesBetweenMembers : Prop :=
  (∀ (sender : Nat) (p : Packet) (s t : State), t = (if s.comp.relayed.contains (sender, p) then s else { s with comp := { s.comp with relayed := s.comp.relayed ++ [(sender, p)] } }) →
    (awaitsData p = true → exec (.forward sender p) s = .next t)
    ∧ (∀ u a, awaitsData p = false → checkHandle p 0 t = .refuse u a → exec (.forward sender p) s = .next (dropRelayed (sender, p) (reply p a u)))
    ∧ (∀ dest u, awaitsData p = false → checkHandle p 0 t = .forward dest u →
      exec (.forward sender p) s = .next (dropRelayed (sender, p) (send (.forward dest p) (await (.forwarded (tagOf p)) (originOf p u) u))))
    ∧ (∀ c u, awaitsData p = false → checkHandle p 0 t = .run c u → forwardedWaits p u = true → exec (.forward sender p) s = .next u)
    ∧ (∀ c u body, awaitsData p = false → checkHandle p 0 t = .run c u → forwardedWaits p u = false → forwardedBody p [] none = some body →
      exec (.forward sender p) s = .next (dropRelayed (sender, p) (body c p u))))
  ∧ (∀ (source tag addr sender : Nat) (data : Bytes) (cap : Option SessionCapsule) (p : Packet) (s : State),
      s.comp.relayed.find? (fun e => e.1 == source && tagOf e.2 == tag && awaitsData e.2) = some (sender, p) →
    (∀ u a, checkHandle p 0 s = .refuse u a → exec (.hostdata source tag addr data cap) s = .next (dropRelayed (sender, p) (reply p a u)))
    ∧ (∀ dest u, checkHandle p 0 s = .forward dest u →
      exec (.hostdata source tag addr data cap) s = .next (dropRelayed (sender, p) (forwardTo dest p data (await (.forwarded (tagOf p)) (originOf p u) u))))
    ∧ (∀ c u, checkHandle p 0 s = .run c u → forwardedWaits p u = true → exec (.hostdata source tag addr data cap) s = .next u)
    ∧ (∀ c u body, checkHandle p 0 s = .run c u → forwardedWaits p u = false → forwardedBody p data cap = some body →
      exec (.hostdata source tag addr data cap) s = .next (dropRelayed (sender, p) (body c p u))))
  ∧ (∀ (source tag addr : Nat) (data : Bytes) (cap : Option SessionCapsule) (s : State),
      s.comp.relayed.find? (fun e => e.1 == source && tagOf e.2 == tag && awaitsData e.2) = none →
    (forwardedCommand s none tag = none → exec (.hostdata source tag addr data cap) s = .next s)
    ∧ (∀ c d, forwardedCommand s none tag = some c → c.origin.sender = some d → exec (.hostdata source tag addr data cap) s = .next (send (.hostdata d c.origin.tag addr data) s))
    ∧ (∀ c, forwardedCommand s none tag = some c → c.origin.sender = none → s.sec.bound = false →
      exec (.hostdata source tag addr data cap) s = .next { s with out := { s.out with host := s.out.host ++ [⟨c.origin.client, addr, none, data, 0⟩] } }))
  ∧ (∀ (client tag status detail handle beat count0 count1 : Nat) (s : State),
    (forwardedCommand s (some client) tag = none → exec (.forwardReply client tag status detail handle beat count0 count1) s = .next s)
    ∧ (∀ c, forwardedCommand s (some client) tag = some c → c.origin.sender = none → c.origin.client = client → ringOk (clientOf s client) = true → s.host.lost = false →
      ∃ u, exec (.forwardReply client tag status detail handle beat count0 count1) s = .next u
        ∧ u.commands = (if status = stACCEPTED then s.commands else s.commands.erase c)
        ∧ u.out.replies = s.out.replies ++ [⟨client, (clientOf s client).replyAt, tag, status, detail, handle, beat, count0, count1⟩]
        ∧ (clientOf u client).replyCount = ((clientOf s client).replyCount + 1) % 2 ^ 32
        ∧ (clientOf u client).inflight = (if status = stACCEPTED then (clientOf s client).inflight else (clientOf s client).inflight - 1)))
  ∧ (∀ (part step : Nat) (cs : List Candidate) (q : Partition) (s : State), partitionAt s part = some q → q.position = 0 → s.sched.step ≤ step →
    ∃ l, exec (.candidate part step cs) s = .next { s with sched := { s.sched with candidates := l } }
      ∧ (∀ e, (∀ c ∈ cs, c.handle ≠ e.2.handle) → (e ∈ l ↔ e ∈ s.sched.candidates))
      ∧ (∀ e ∈ l, (∃ c ∈ cs, c.handle = e.2.handle) → e.1 = part ∧ e.2 ∈ cs ∧ e.2.candidate = true)
      ∧ ((cs.map (fun c => c.handle)).Nodup → ∀ c ∈ cs, c.candidate = true → (part, c) ∈ l))
  ∧ (∀ (part step : Nat) (cs : List Candidate) (q : Partition) (s : State), partitionAt s part = some q → (q.position ≠ 0 ∨ step < s.sched.step) → exec (.candidate part step cs) s = .next s)
  ∧ (∀ (m : SealMsg) (q : Partition) (s : State), partitionAt s m.partition = some q → q.position ≠ 0 → m.step = s.sched.step + 1 →
    ∃ u, exec (.sealMessage m) s = .next u
      ∧ u.sched.sealNext = s.sched.sealNext.filter (fun x => !(x.partition == m.partition && x.microbatch == m.microbatch))
          ++ [⟨m.partition, m.microbatch, m.step, m.entries.map (fun e => ⟨e.handle, e.piece, e.pieces, e.drafts, e.kept, e.chunk, e.replay, e.qpos, false⟩)⟩]
      ∧ (∀ k ∈ u.sched.kept, k ∈ s.sched.kept ∧ ¬ (k.2.partition = m.partition ∧ k.2.microbatch = m.microbatch ∧ ∀ p ∈ k.2.places, p.handle ∈ m.entries.map (fun e => e.handle)))
      ∧ u = { s with sched := { s.sched with sealNext := u.sched.sealNext, kept := u.sched.kept } })
  ∧ (∀ (m : SealMsg) (q : Partition) (s : State), partitionAt s m.partition = some q → (q.position = 0 ∨ m.step ≠ s.sched.step + 1) → exec (.sealMessage m) s = .next s)

/-! ### Membership messages -/

/-- At a device that is not the session's home: a cancel notice empties the session's places of all three steps, drops its candidacy and its pages here, whose frames fall due at the step boundary under an active image; a withdrawal only empties places and drops the candidacy; a copy notice about pages held here that no copy holds yet starts their copy: every tile is dirty, a copy pass and the final pass are queued. At the home all three change nothing. A PART is kept under its position for the capsule that the home, or a position that stores its own part, works on, in place of an earlier one. A departure notice about a ring of this device names the member's boundary, and for a member named before the earlier boundary holds and the rings are joined; about rings of others it changes nothing. A member that gives no sign, which a ring of the active image has and which is not this device, is named at the first step boundary at least FALLBACK_LEAD beats away, and the ring is told; this device itself, or a member no ring has, is not. -/
def Obligations.SessionAndDepartureNotices : Prop :=
  (∀ (n : SessionNotice) (s : State), handleHome n.handle ≠ ownIndex s →
    ∃ u, exec (.cancelNotice n) s = .next u ∧ FMap.get? u.slots.guests n.handle = none
      ∧ (∀ m ∈ u.sched.sealPrev ++ u.sched.sealNow ++ u.sched.sealNext, ∀ p ∈ m.places, p.handle = n.handle → p.withdrawn = true)
      ∧ (∀ e ∈ u.sched.candidates, e.2.handle ≠ n.handle) ∧ u.slots.table = s.slots.table
      ∧ (s.sched.active ≠ none → u.tier.due = s.tier.due ++ ((guestAt s n.handle).pages.map (fun p => p.frame)).filter (fun a => a != 0))
      ∧ u.slots.guests = FMap.del s.slots.guests n.handle)
  ∧ (∀ (n : SessionNotice) (s : State), handleHome n.handle ≠ ownIndex s →
    ∃ u, exec (.withdrawal n) s = .next u
      ∧ (∀ m ∈ u.sched.sealPrev ++ u.sched.sealNow ++ u.sched.sealNext, ∀ p ∈ m.places, p.handle = n.handle → p.withdrawn = true)
      ∧ u.sched.candidates = s.sched.candidates.filter (fun e => e.2.handle != n.handle)
      ∧ u.slots = s.slots ∧ u.mem = s.mem ∧ u.tier = s.tier ∧ u.out = s.out)
  ∧ (∀ (n : SessionNotice) (s : State), (guestAt s n.handle).pages ≠ [] → handleHome n.handle ≠ ownIndex s → (guestAt s n.handle).d.copying = false → 2 ^ 24 ≤ n.handle →
    ∃ u, exec (.copyNotice n) s = .next u ∧ (guestAt u n.handle).d.copying = true ∧ (guestAt u n.handle).dirty = allTiles s (guestAt s n.handle)
      ∧ (guestAt u n.handle).pages = (guestAt s n.handle).pages
      ∧ (∃ o ∈ u.tier.ops, o.slot = n.handle ∧ o.kind = .copyPass) ∧ (∃ o ∈ u.tier.ops, o.slot = n.handle ∧ o.kind = .finalPass) ∧ u.mem = s.mem ∧ u.out = s.out)
  ∧ (∀ (n : SessionNotice) (s : State), handleHome n.handle = ownIndex s →
    exec (.cancelNotice n) s = .next s ∧ exec (.withdrawal n) s = .next s ∧ exec (.copyNotice n) s = .next s)
  ∧ (∀ (handle position slot : Nat) (body : Bytes) (s : State), liveSlot s handle = some slot →
    ∃ u, exec (.part handle position body) s = .next u ∧ (position, body) ∈ (sessionAt u slot).parts
      ∧ (∀ e ∈ (sessionAt u slot).parts, e.1 = position → e.2 = body) ∧ u = { s with slots := u.slots } ∧ (∀ n, n ≠ slot → sessionAt u n = sessionAt s n))
  ∧ (∀ (handle position : Nat) (body : Bytes) (s : State), liveSlot s handle = none → handleHome handle ≠ ownIndex s →
    ∃ u, exec (.part handle position body) s = .next u ∧ (position, body) ∈ (guestAt u handle).parts
      ∧ (∀ e ∈ (guestAt u handle).parts, e.1 = position → e.2 = body) ∧ (guestAt u handle).pages = (guestAt s handle).pages
      ∧ u = { s with slots := { s.slots with guests := u.slots.guests } } ∧ (∀ h, h ≠ handle → guestAt u h = guestAt s h))
  ∧ (∀ (member boundary : Nat) (rings : List Nat) (s : State), (∃ r ∈ rings, r ∈ ringIds s) →
    ((∀ e ∈ s.sched.departures, e.1 ≠ member) →
      exec (.departure member boundary rings) s = .next { s with sched := { s.sched with departures := s.sched.departures ++ [(member, boundary, rings)] } })
    ∧ ((∃ e ∈ s.sched.departures, e.1 = member) → exec (.departure member boundary rings) s = .next { s with sched := { s.sched with
        departures := s.sched.departures.map (fun e => if e.1 = member then (member, min e.2.1 boundary, (e.2.2 ++ rings).eraseDups) else e) } }))
  ∧ (∀ (member : Nat) (rings : List Nat) (boundary : Nat) (s : State), (∀ r ∈ rings, r ∉ ringIds s) → exec (.departure member boundary rings) s = .next s)
  ∧ (∀ (member b : Nat) (img : Image) (rings : List Nat) (s : State), s.sched.active = some img → rings = (img.rings.filter (fun r => r.members.contains member)).map (fun r => r.ringId) →
      b = img.anchor + ceilDiv (s.cad.beat + img.fallbackLead - img.anchor) (max 1 img.stepBeats) * img.stepBeats →
    (member = ownIndex s ∨ rings = [] → exec (.memberLost member) s = .next s)
    ∧ (member ≠ ownIndex s → rings ≠ [] → (∀ e ∈ s.sched.departures, e.1 ≠ member) →
      exec (.memberLost member) s = .next { s with
        sched := { s.sched with departures := s.sched.departures ++ [(member, b, rings)] }
        out := { s.out with msgs := s.out.msgs ++ [.departureOf member b rings] } }))
  ∧ (∀ (member : Nat) (s : State), s.sched.active = none → exec (.memberLost member) s = .next s)

/-! ### The Commons -/

/-- Capsules lent: an advertisement of a member is remembered, of another device not; a capsule of a member under a new reference is kept while the share has room, and else not; asked for, the bytes lent under the borrower and reference go back; freed, they are gone; a reference that names nothing changes nothing. A capsule that a lender returns sound stands in the frame that names that lender and the reference; one that is not sound sets the flag of a failed capsule and sends the session with that frame, RESIDENT, ACTIVE or PARKED with a position to replay and alone in the table, to REBUILDING; a lost-capsule notice of such a session here, alone or not, does so too: its pages go and its replay starts at position 0. -/
def Obligations.CommonsKeepsCapsules : Prop :=
  (∀ (member freeMiB hops : Nat) (s : State),
    (isMember s member = true → exec (.lenderAdvert member freeMiB hops) s = .next { s with tier := { s.tier with adverts := FMap.put s.tier.adverts member ⟨freeMiB, hops⟩ } })
    ∧ (isMember s member = false → exec (.lenderAdvert member freeMiB hops) s = .next s))
  ∧ (∀ (borrower ref : Nat) (body : Bytes) (s : State),
    (isMember s borrower = true → body.length ≤ lendRoom s → (∀ l ∈ s.tier.lent, ¬ (l.borrower = borrower ∧ l.ref = ref)) →
      exec (.capsulePut borrower ref body) s = .next { s with tier := { s.tier with lent := s.tier.lent ++ [⟨borrower, ref, body, placeChannel s ref⟩] } })
    ∧ ((isMember s borrower = false ∨ lendRoom s < body.length ∨ ∃ l ∈ s.tier.lent, l.borrower = borrower ∧ l.ref = ref) → exec (.capsulePut borrower ref body) s = .next s))
  ∧ (∀ (l : Lent) (s : State), l ∈ s.tier.lent → (∀ m ∈ s.tier.lent, m.borrower = l.borrower → m.ref = l.ref → m = l) →
    exec (.capsuleGet l.borrower l.ref) s = .next { s with out := { s.out with msgs := s.out.msgs ++ [.capsuleData l.borrower l.ref l.body] } }
    ∧ exec (.capsuleFree l.borrower l.ref) s = .next { s with tier := { s.tier with lent := s.tier.lent.filter (fun m => !decide (m = l)) } })
  ∧ (∀ (borrower ref : Nat) (s : State), (∀ l ∈ s.tier.lent, l.ref ≠ ref) → exec (.capsuleGet borrower ref) s = .next s ∧ exec (.capsuleFree borrower ref) s = .next s)
  ∧ (∀ (ref lender addr : Nat) (f : Frame) (q : Partition) (body : Bytes) (s : State),
      s.tier.frames.find? (fun e => e.2.tier == 3 && e.2.lref == ref && e.2.lender == lender) = some (addr, f) → partitionAt s f.partition = some q →
    (capsuleOk q body = true → exec (.capsuleData ref body lender) s = .next (putFrame addr { f with length := body.length, capsule := body } s))
    ∧ (capsuleOk q body = false → ∃ u, exec (.capsuleData ref body lender) s = .next u ∧ (getFlag u offTierEvents 3).on = true
      ∧ (∀ slot x, s.slots.table = [(slot, x)] → (x.d.state = 1 ∨ x.d.state = 2 ∨ x.d.state = 3) → 0 < replayStop x → addr ≠ 0 → (∃ p ∈ x.pages, p.frame = addr) → (sessionAt u slot).d.state = 7)))
  ∧ (∀ (ref lender : Nat) (body : Bytes) (s : State), s.tier.frames.find? (fun e => e.2.tier == 3 && e.2.lref == ref && e.2.lender == lender) = none →
      exec (.capsuleData ref body lender) s = .next s)
  ∧ (∀ (n : SessionNotice) (slot : Nat) (s : State), liveSlot s n.handle = some slot → ((sessionAt s slot).d.state = 1 ∨ (sessionAt s slot).d.state = 2 ∨ (sessionAt s slot).d.state = 3) →
      0 < replayStop (sessionAt s slot) →
    ∃ u, exec (.capsuleLostNotice n) s = .next u ∧ (sessionAt u slot).d.state = 7 ∧ (sessionAt u slot).pages = []
      ∧ (sessionAt u slot).rebuild = some ⟨0, replayStop (sessionAt s slot)⟩)

/-! ### The Mover -/

/-- A slot of the Mover lane begins the first operation in the order of 04 R113 that nothing holds, and changes the list of operations in no other way than by beginning some; another slot, or a step without an image, begins none. At its end, of a session that no copy touches: a revive whose bytes moved, with sound capsules that have all come, commits: the session is RESIDENT with its pages in T1, the commands that wait for it are answered, and what it moved is added to the step's use; an operation without a result that had not moved stays as it is; an export whose bytes moved waits for the host read. Outside a slot the end changes nothing. The completion of that read is noted at the operation that needs it. Wake-driven prefetch. Four leads before its wake, the capsules that a PARKED session has in T3 (b bytes) are pulled to T2 where T2 keeps its reserve and no shift of the session is queued. One lead before, a PARKED session that was not exported and has no revive queued is to be revived: where T1 stays above its floor and the Mover has capacity, its revive is scheduled and REVIVE_PENDING set, without capacity it only becomes pending, and where T1 would fall to the floor PREFETCH_LATE is set. A session that is not PARKED, that has no wake, or whose wake is farther away, is left alone by both. -/
def Obligations.MoverSlotsAndPrefetch : Prop :=
  (∀ (slotId : Nat) (img : Image) (x : SlotEntry) (s : State), s.sched.active = some img → activeSlot s slotId = some x →
    (x.lane ≠ 2 → exec (.moverSlotStart slotId) s = .next s)
    ∧ (x.lane = 2 → ∃ u, exec (.moverSlotStart slotId) s = .next u ∧ u.tier.inSlot = true ∧ u.mem = s.mem
      ∧ u.tier.ops.map (fun o => { o with begun := false }) = s.tier.ops.map (fun o => { o with begun := false })
      ∧ (∀ o rest, moverOrder s = o :: rest → held { s with tier := { s.tier with inSlot := true } } o = false →
          0 < moveBudget s img / max 1 (moverSlots img).length → 0 < codecBudget s img / max 1 (moverSlots img).length →
          ∃ r ∈ u.tier.ops, r.id = o.id ∧ r.begun = true)))
  ∧ (∀ (slotId : Nat) (s : State), s.sched.active = none → exec (.moverSlotStart slotId) s = .next s)
  ∧ (∀ (o : MoverOp) (x : Session) (s : State), s.tier.inSlot = true → s.tier.ops = [o] → o.kind = .revive → o.needRead = false → held { s with tier := { s.tier with inSlot := false } } o = false →
      sessionAt s o.slot = x → x.d.state = 3 → x.job = none → awaitsLender s o = false → unsound s o = none → (∀ e ∈ s.slots.table ++ s.slots.guests, e.2.d.copying = false) →
      (partitionAt s x.d.partition).isSome = true → (∀ p ∈ x.pages, p.frame = 0 ∨ (frameAt s p.frame).isSome = true) → ((x.pages.map (fun p => p.frame)).filter (fun a => a != 0)).Nodup →
    ∃ u, exec (.moverSlotEnd [⟨o.id, true, 0, 0⟩]) s = .next u ∧ u.tier.inSlot = false ∧ u.tier.ops = [] ∧ (sessionAt u o.slot).d.state = 1
      ∧ (∀ p ∈ (sessionAt u o.slot).pages, p.tier = 1) ∧ (sessionAt u o.slot).d.committed = x.d.committed ∧ commandOf u (.revive o.slot) = none
      ∧ u.tier.moveUsed = s.tier.moveUsed + o.moveBytes ∧ u.tier.codecUsed = s.tier.codecUsed + o.codecBytes ∧ u.tier.opsDone = s.tier.opsDone + 1
      ∧ u.counters.revives = satAdd (2 ^ 64 - 1) s.counters.revives 1)
  ∧ (∀ (o : MoverOp) (s : State), s.tier.inSlot = true → s.tier.ops = [o] → o.bytesDone = false → (∀ e ∈ s.slots.table ++ s.slots.guests, e.2.d.copying = false) →
    exec (.moverSlotEnd []) s = .next { s with tier := { s.tier with inSlot := false } })
  ∧ (∀ (o : MoverOp) (s : State), s.tier.inSlot = true → s.tier.ops = [o] → o.kind = .sessionOut → o.needRead = true → o.readDone = false →
      held { s with tier := { s.tier with inSlot := false } } o = false → awaitsLender s o = false → (∀ e ∈ s.slots.table ++ s.slots.guests, e.2.d.copying = false) →
    exec (.moverSlotEnd [⟨o.id, true, 0, 0⟩]) s = .next { s with tier := { s.tier with inSlot := false, ops := [{ o with begun := true, bytesDone := true }] } })
  ∧ (∀ (results : List MoverResult) (s : State), s.tier.inSlot = false → exec (.moverSlotEnd results) s = .next s)
  ∧ (∀ (op : Nat) (s : State),
    exec (.hostReadCompletion op) s = .next { s with tier := { s.tier with ops := s.tier.ops.map (fun o => if o.id = op ∧ o.needRead = true then { o with readDone := true } else o) } })
  ∧ (∀ (slot : Nat) (s : State) (b : Nat), (sessionAt s slot).d.state = 3 → (sessionAt s slot).d.wake ≠ 0 → (sessionAt s slot).d.wake ≤ s.cad.beat + 4 * s.tier.set.prefetchLead →
      b = (sessionAt s slot).pages.foldl (fun n p => match frameAt s p.frame with | some f => if f.tier = 3 then n + f.length else n | none => n) 0 → b ≠ 0 →
      b + reserveBytes s ≤ t2Free s → opOf s slot (fun o => shifts o.kind) = none →
    exec (.prefetchPull slot) s = .next (addOp .pull slot b 0 0 0 0 2 s))
  ∧ (∀ (slot : Nat) (s : State), (sessionAt s slot).d.state = 3 → (sessionAt s slot).exported = false → (sessionAt s slot).d.wake ≠ 0 →
      (sessionAt s slot).d.wake ≤ s.cad.beat + s.tier.set.prefetchLead → opOf s slot isRevive = none →
    (s.tier.set.prefetchFloor * (s.tier.t1Total * 2 ^ 20) < 100 * (t1Free s - reviveNeed s (sessionAt s slot)) → reviveNeed s (sessionAt s slot) ≤ t1Free s →
      ∃ u, exec (.prefetchRevive slot) s = .next u ∧ (sessionAt u slot).d.revivePending = true ∧ (sessionAt u slot).d.state = 3 ∧ u.out = s.out ∧ u.mem = s.mem
        ∧ (moverFits (tileBytesOf s (sessionAt s slot)) (reviveCodec s (sessionAt s slot)) s = true → ∃ o ∈ u.tier.ops, o.slot = slot ∧ o.kind = .revive)
        ∧ (moverFits (tileBytesOf s (sessionAt s slot)) (reviveCodec s (sessionAt s slot)) s = false → u.tier = s.tier))
    ∧ (100 * (t1Free s - reviveNeed s (sessionAt s slot)) ≤ s.tier.set.prefetchFloor * (s.tier.t1Total * 2 ^ 20) ∨ t1Free s < reviveNeed s (sessionAt s slot) →
      exec (.prefetchRevive slot) s = .next (setFlag offTierEvents 5 s)))
  ∧ (∀ (slot : Nat) (s : State), ((sessionAt s slot).d.state ≠ 3 ∨ (sessionAt s slot).d.wake = 0 ∨ s.cad.beat + 4 * s.tier.set.prefetchLead < (sessionAt s slot).d.wake) →
    exec (.prefetchPull slot) s = .next s ∧ exec (.prefetchRevive slot) s = .next s)

/-! ### Compositions -/

/-- COMPOSITION_SET, whose bytes give the map m, in the order of its checks: a wrong length is BAD_LENGTH and a bad field BAD_PARAM, each with a detail the manual does not state; a wrong digest DIGEST_FAIL; an EPOCH other than the parameter's or not above the present one STALE_EPOCH with the present epoch; a map already staged BUSY with the beats to its EFFECTIVE; a map without an entry of this device BAD_PARAM; a link whose neighbour the entry does not name SHAPE_MISMATCH with the link, a ring member that is gone or leaving SHAPE_MISMATCH 0xFFFF; a bad EFFECTIVE BAD_PARAM 0x28; another index while a session is open BUSY 0xFFFF. A map that passes is staged for its EFFECTIVE beat and the command is ACCEPTED. MAP_DIGEST: with the digest and epoch of the map in force of a device in a composition, the link carries all traffic where its peer is trusted; any other restricts the link and sets MAP_MISMATCH. The end of the grace time changes nothing while none runs or before its beat. At it a LEAVING device leaves: no map, epoch 0, nothing lent, its REMOTE records end, and it keeps its index. At any other device the grace is over, and what members that leave borrowed or advertised is gone. -/
def Obligations.CompositionMaps : Prop :=
  (∀ (p : Packet) (buf : Bytes) (m : CompMap) (s t : State), opcodeOf p = 0x32 → passes never p s = some t → m = readMap buf →
    (m.facts.delivered ≠ 128 + 128 * m.count →
      ∃ detail, exec (.compositionSet p buf) s = .next (answered p { status := stBAD_LENGTH, detail := detail } { t with freeCtr := t.freeCtr + 1 }))
    ∧ (m.facts.delivered = 128 + 128 * m.count → mapFieldsOk m = false →
      ∃ detail, exec (.compositionSet p buf) s = .next (answered p { status := stBAD_PARAM, detail := detail } { t with freeCtr := t.freeCtr + 1 }))
    ∧ (m.facts.delivered = 128 + 128 * m.count → mapFieldsOk m = true →
      (m.facts.digest ≠ m.facts.trailer → exec (.compositionSet p buf) s = .next (answered p { status := stDIGEST_FAIL } t))
      ∧ (m.facts.digest = m.facts.trailer → (m.epoch ≠ paramOf p 0x20 4 ∨ m.epoch ≤ t.comp.epoch) →
        exec (.compositionSet p buf) s = .next (answered p { status := stSTALE_EPOCH, count0 := t.comp.epoch } t))
      ∧ (m.facts.digest = m.facts.trailer → m.epoch = paramOf p 0x20 4 → t.comp.epoch < m.epoch →
        (∀ g, t.comp.staged = some g → exec (.compositionSet p buf) s = .next (answered p (busy (min 0xFFFE (g.2 - t.cad.beat))) t))
        ∧ (t.comp.staged = none → ownEntry t m = none →
          ∃ detail, exec (.compositionSet p buf) s = .next (answered p { status := stBAD_PARAM, detail := detail } { t with freeCtr := t.freeCtr + 1 }))
        ∧ (∀ d, t.comp.staged = none → ownEntry t m = some d →
          (∀ l, linkDisagrees t d = some l → exec (.compositionSet p buf) s = .next (answered p { status := stSHAPE_MISMATCH, detail := l } t))
          ∧ (linkDisagrees t d = none → ringsStay t m = false → exec (.compositionSet p buf) s = .next (answered p { status := stSHAPE_MISMATCH, detail := 0xFFFF } t))
          ∧ (linkDisagrees t d = none → ringsStay t m = true → effectiveOk t (paramOf p 0x28 8) = false → exec (.compositionSet p buf) s = .next (answered p (bad 0x28) t))
          ∧ (linkDisagrees t d = none → ringsStay t m = true → effectiveOk t (paramOf p 0x28 8) = true →
            (d.index ≠ ownIndex t → anySession (fun _ => true) t = true → exec (.compositionSet p buf) s = .next (answered p (busy 0xFFFF) t))
            ∧ ((d.index = ownIndex t ∨ anySession (fun _ => true) t = false) →
              exec (.compositionSet p buf) s = .next (accepted p .composition { t with comp := { t.comp with staged := some (m, paramOf p 0x28 8) } })))))))
  ∧ (∀ (link : Nat) (s : State) (digest : Digest), s.comp.inComp = true → digest = mapDigestOf s →
    exec (.mapDigest link s.comp.epoch digest) s = .next (putLink link { linkAt s link with mapOk := (linkAt s link).peerOk } s))
  ∧ (∀ (link epoch : Nat) (s : State) (digest : Digest), (s.comp.inComp = false ∨ epoch ≠ s.comp.epoch ∨ digest ≠ mapDigestOf s) →
    ∃ u, exec (.mapDigest link epoch digest) s = .next u ∧ (linkAt u link).mapOk = false ∧ (getFlag u (offLnkEvents link) 7).on = true ∧ u.mem = s.mem ∧ u.slots = s.slots)
  ∧ (∀ (g : Nat) (s : State), s.comp.inComp = true → s.comp.graceUntil = some g → g ≤ s.cad.beat → ownIndex s ∈ leavingMembers s →
    ∃ u, exec .graceEnd s = .next u ∧ u.comp.inComp = false ∧ u.comp.epoch = 0 ∧ u.comp.map = none ∧ u.comp.graceUntil = none ∧ ownIndex u = ownIndex s
      ∧ u.tier.lent = [] ∧ u.tier.adverts = [] ∧ (∀ e ∈ s.slots.table, e.2.d.state = 5 → (sessionAt u e.1).d.state = 0))
  ∧ (∀ (g : Nat) (s : State), s.comp.graceUntil = some g → g ≤ s.cad.beat → ownIndex s ∉ leavingMembers s →
    ∃ u, exec .graceEnd s = .next u ∧ u.comp = { s.comp with graceUntil := none } ∧ u.tier.lent = s.tier.lent.filter (fun l => !(leavingMembers s).contains l.borrower)
      ∧ (∀ i ∈ leavingMembers s, FMap.get? u.tier.adverts i = none) ∧ (leavingMembers s = [] → u = { s with comp := { s.comp with graceUntil := none } }))
  ∧ (∀ (s : State), (∀ g, s.comp.graceUntil = some g → s.cad.beat < g) → exec .graceEnd s = .next s)

/-! ### Checkpoints -/

/-- CHECKPOINT_BEGIN: a partition that no ring of the active image runs is BAD_PARAM 0x14, a grade other than 0xFF and 2 is BAD_PARAM 0x15, a step that ends less than two steps away BAD_PARAM 0x20, a checkpoint of the partition in progress or slots not served BUSY; else the checkpoint stands for its snapshot and the command is ACCEPTED. CHECKPOINT_SHARD of no snapshot of that step is BAD_PARAM 0x20, with a buffer below SHARD_MAX BAD_LENGTH, with slots not ready or a shard asked for already BUSY; else the writing of the shard is queued and the reply owed. The end of the hold time of a snapshot abandons it: no command waits for it and no operation writes it; without one it changes nothing. A DIGEST of the checkpoint's step from a position that has none is kept until the shard is written and every position's has come; the last one at position 0 answers the command; any other changes nothing. -/
def Obligations.CheckpointBegunAndWritten : Prop :=
  (∀ (p : Packet) (part : Nat) (s t : State), opcodeOf p = 0x40 → passes never p s = some t → part = argOf p 20 1 →
    ((t.sched.active = none ∨ ringOf t part = none) → exec (.checkpointBegin p) s = .next (answered p (bad 0x14) t))
    ∧ (∀ img, t.sched.active = some img → (ringOf t part).isSome = true →
      (argOf p 21 1 ≠ 0xFF → argOf p 21 1 ≠ 2 → exec (.checkpointBegin p) s = .next (answered p (bad 0x15) t))
      ∧ ((argOf p 21 1 = 0xFF ∨ argOf p 21 1 = 2) →
        (img.anchor + (paramOf p 0x20 8 + 1) * img.stepBeats < t.cad.beat + 2 * img.stepBeats → exec (.checkpointBegin p) s = .next (answered p (bad 0x20) t))
        ∧ (t.cad.beat + 2 * img.stepBeats ≤ img.anchor + (paramOf p 0x20 8 + 1) * img.stepBeats →
          ((checkpointOf t part).isSome = true ∨ slotsServed t = false → exec (.checkpointBegin p) s = .next (answered p (busy 0xFFFF) t))
          ∧ (checkpointOf t part = none → slotsServed t = true → exec (.checkpointBegin p) s = .next (accepted p (.checkpoint part) { t with saves := { t.saves with
              checkpoints := t.saves.checkpoints ++ [{ partition := part, step := paramOf p 0x20 8, grade := argOf p 21 1, client := p.client }] } }))))))
  ∧ (∀ (p : Packet) (part : Nat) (s t : State), opcodeOf p = 0x41 → passes never p s = some t → part = argOf p 20 1 →
    (t.saves.checkpoints.find? (fun c => c.partition == part && c.snapped && !c.ending && c.step == paramOf p 0x20 8) = none →
      exec (.checkpointShard p) s = .next (answered p (bad 0x20) t))
    ∧ (∀ c, t.saves.checkpoints.find? (fun c => c.partition == part && c.snapped && !c.ending && c.step == paramOf p 0x20 8) = some c →
      (bufLen p 0x30 < c.shardMax → exec (.checkpointShard p) s = .next (answered p { status := stBAD_LENGTH, detail := 0 } t))
      ∧ (c.shardMax ≤ bufLen p 0x30 → (slotsReady t = false ∨ (commandOf t (.shardOut part)).isSome = true) → exec (.checkpointShard p) s = .next (answered p (busy 0xFFFF) t))
      ∧ (c.shardMax ≤ bufLen p 0x30 → slotsReady t = true → commandOf t (.shardOut part) = none →
        ∃ u, exec (.checkpointShard p) s = .next u ∧ (∃ o ∈ u.tier.ops, o.kind = .shard ∧ o.slot = shardKey part ∧ o.moveBytes = c.body.length ∧ o.buffer = bufAddr p 0x30)
          ∧ commandOf u (.shardOut part) ≠ none ∧ u.out = t.out ∧ u.mem = t.mem)))
  ∧ (∀ (part : Nat) (s : State),
    (∀ c, checkpointOf s part = some c → c.snapped = true →
      ∃ u, exec (.ckptHoldExpiry part) s = .next u ∧ checkpointOf u part = none ∧ commandOf u (.shardOut part) = none ∧ commandOf u (.checkpoint part) = none
        ∧ (∀ o ∈ u.tier.ops, o.slot ≠ shardKey part) ∧ (s.sched.active ≠ none → u.mem = s.mem))
    ∧ ((∀ c, checkpointOf s part = some c → c.snapped = false) → exec (.ckptHoldExpiry part) s = .next s))
  ∧ (∀ (m : ShardMsg) (s : State),
    ((∀ c, checkpointOf s m.partition = some c → c.step ≠ m.step ∨ ∃ e ∈ c.collected, e.1 = m.position) → exec (.shardDigest m) s = .next s)
    ∧ (∀ c, checkpointOf s m.partition = some c → c.step = m.step → (∀ e ∈ c.collected, e.1 ≠ m.position) →
      ((c.written = false ∨ commandOf s (.shardOut m.partition) = none) →
        exec (.shardDigest m) s = .next (modCheckpoint m.partition (fun c => { c with collected := c.collected ++ [(m.position, m.value, m.digest)] }) s))
      ∧ (∀ q r, c.written = true → commandOf s (.shardOut m.partition) ≠ none → partitionAt s m.partition = some q → ringOf s m.partition = some r → r.position = 0 →
          (∀ i, i < r.members.length → i ≠ 0 → i = m.position ∨ ∃ e ∈ c.collected, e.1 = i) →
        ∃ u, exec (.shardDigest m) s = .next u ∧ checkpointOf u m.partition = none ∧ commandOf u (.shardOut m.partition) = none)))

/-! ### Restores and shrink plans -/

/-- RESTORE of one sound manifest, signed under the policy's tenant, of the ring's shape, whose vocabularies are here, for a partition without sessions, checkpoint or restore: ACCEPTED, the restore stands. Staging ends with VALUE 2 (no shard listed), 1 (digest), 3 (resources) or its own: position 0 keeps it, another sends it there. A REPORT of the step is kept at position 0 while another misses; when it is the last and all say 0, COMMIT 1 goes to every other member. COMMIT 1 elsewhere commits the restore and sends DONE; 2 ends it with NO_RESOURCE; any other value gives way to the next step, or ends it. A DONE is kept at position 0 while another misses. ALL_DONE of a committed restore answers OK with the number of handles; the time limit of one not committed answers SHAPE_MISMATCH, at position 0 with the lowest position missing. Without a restore of the partition the six change nothing. -/
def Obligations.RestoreRuns : Prop :=
  (∀ (p : Packet) (m : Manifest) (q : Partition) (report : Nat) (shards : List Shard) (s t : State), opcodeOf p = 0x42 → passes never p s = some t → partitionAt t (argOf p 20 1) = some q →
      m.lengthOk = true → manifestFault m = none → m.signed = true → (t.sec.policy = none → m.tenantDigest = 0) → (∀ y, t.sec.policy = some y → m.tenantDigest = y.digest) →
      shapeFault t (argOf p 20 1) q m = none → vocabShort t m = none →
      partitionHeld t (argOf p 20 1) = false → checkpointOf t (argOf p 20 1) = none → (∀ r ∈ t.saves.restores, r.partition ≠ argOf p 20 1) → slotsServed t = true →
    exec (.restore p [m] report shards) s = .next (accepted p (.restoring (argOf p 20 1)) { t with saves := { t.saves with
      restores := t.saves.restores ++ [{ partition := argOf p 20 1, cands := [(m.step, m.shardDigests)], shards := shards, client := p.client, reportAt := report }] } }))
  ∧ (∀ (part value v : Nat) (r : Restoring) (c : Nat × List Digest) (s : State), restoreOf s part = some r → r.cands.head? = some c →
      v = (match listedShard s r c.1 with | none => 2 | some x => if c.2[ownPosition s part]? ≠ some x.digest ∨ value = 1 then 1 else if (stagingShort s x).isSome then 3 else value) →
    (ownPosition s part ≠ 0 → exec (.restoreStagingDone part value) s = .next (send (.shard (((ringOf s part).map (fun g => g.members.headD 0)).getD 0) 2 ⟨part, ownPosition s part, c.1, v, 0⟩)
      (modRestore part (fun x => { x with short := (listedShard s r c.1).bind (fun y => stagingShort s y) }) s)))
    ∧ (ownPosition s part = 0 → r.committed = false → (∀ e ∈ r.reports, e.1 ≠ 0) → (∃ i, i < ringSizeOf s part ∧ i ≠ 0 ∧ ∀ e ∈ r.reports, e.1 ≠ i) →
      exec (.restoreStagingDone part value) s = .next (modRestore part (fun x => { x with short := (listedShard s r c.1).bind (fun y => stagingShort s y), reports := x.reports ++ [(0, v)] }) s)))
  ∧ (∀ (m : ShardMsg) (r : Restoring) (c : Nat × List Digest) (s : State), restoreOf s m.partition = some r → r.cands.head? = some c → c.1 = m.step → r.committed = false →
      ownPosition s m.partition = 0 → (∀ e ∈ r.reports, e.1 ≠ m.position) →
    ((∃ i, i < ringSizeOf s m.partition ∧ i ≠ m.position ∧ ∀ e ∈ r.reports, e.1 ≠ i) →
      exec (.shardReport m) s = .next (modRestore m.partition (fun x => { x with reports := x.reports ++ [(m.position, m.value)] }) s))
    ∧ ((∀ i, i < ringSizeOf s m.partition → i = m.position ∨ ∃ e ∈ r.reports, e.1 = i) → m.value = 0 → (∀ e ∈ r.reports, e.2 = 0) →
      ∃ u, exec (.shardReport m) s = .next u ∧ ∀ k ∈ ringPeers s m.partition, .shard k 3 ⟨m.partition, 0, m.step, 1, 0⟩ ∈ u.out.msgs))
  ∧ (∀ (m : ShardMsg) (r : Restoring) (c : Nat × List Digest) (rest : List (Nat × List Digest)) (s : State), restoreOf s m.partition = some r → r.cands = c :: rest → c.1 = m.step → r.committed = false →
      ownPosition s m.partition ≠ 0 →
    (m.value = 1 → ∃ u r', exec (.shardCommit m) s = .next u ∧ restoreOf u m.partition = some r' ∧ r'.committed = true
      ∧ .shard (((ringOf s m.partition).map (fun g => g.members.headD 0)).getD 0) 4 ⟨m.partition, ownPosition s m.partition, c.1, 0, 0⟩ ∈ u.out.msgs)
    ∧ (∀ d, m.value = 2 → r.short = some d → exec (.shardCommit m) s = .next (finish (.restoring m.partition) (noResource d)
        { s with saves := { s.saves with restores := s.saves.restores.filter (fun x => x.partition != m.partition) } }))
    ∧ (m.value = 2 → r.short = none → ∃ d, exec (.shardCommit m) s = .next (finish (.restoring m.partition) (noResource d)
        { s with saves := { s.saves with restores := s.saves.restores.filter (fun x => x.partition != m.partition) }, freeCtr := s.freeCtr + 1 }))
    ∧ (m.value ≠ 1 → m.value ≠ 2 → rest ≠ [] → ∃ n, exec (.shardCommit m) s = .next { modRestore m.partition (fun x =>
        { x with cands := rest, tried := r.tried ++ [(c.1, n, c.2.length)], reports := [], short := none }) s with freeCtr := s.freeCtr + 1 })
    ∧ (m.value ≠ 1 → m.value ≠ 2 → rest = [] → ∃ u, exec (.shardCommit m) s = .next u ∧ restoreOf u m.partition = none ∧ commandOf u (.restoring m.partition) = none))
  ∧ (∀ (m : ShardMsg) (r : Restoring) (s : State), restoreOf s m.partition = some r → ownPosition s m.partition = 0 → m.position ∉ r.dones →
      (∃ i, i < ringSizeOf s m.partition ∧ i ≠ m.position ∧ i ∉ r.dones) →
    exec (.shardDone m) s = .next (modRestore m.partition (fun x => { x with dones := x.dones ++ [m.position] }) s))
  ∧ (∀ (m : ShardMsg) (r : Restoring) (s : State), restoreOf s m.partition = some r →
    (r.committed = true → ∃ u, exec (.shardAllDone m) s = .next u ∧ restoreOf u m.partition = none ∧ commandOf u (.restoring m.partition) = none)
    ∧ (r.committed = true → (r.homes = [] ∨ commandOf s (.restoring m.partition) = none) → exec (.shardAllDone m) s = .next (finish (.restoring m.partition) { status := stOK, count0 := r.homes.length }
        { s with saves := { s.saves with restores := s.saves.restores.filter (fun x => x.partition != m.partition) } }))
    ∧ (r.committed = false → exec (.shardAllDone m) s = .next s))
  ∧ (∀ (part : Nat) (r : Restoring) (s : State), restoreOf s part = some r → r.committed = false →
    (ownPosition s part = 0 → exec (.restoreTimeout part) s = .next (finish (.restoring part)
        { status := stSHAPE_MISMATCH, detail := ((List.range (ringSizeOf s part)).find? (fun i => !r.reports.any (fun e => e.1 == i))).getD 0 }
        { s with saves := { s.saves with restores := s.saves.restores.filter (fun x => x.partition != part) } }))
    ∧ (ownPosition s part ≠ 0 → ∃ d, exec (.restoreTimeout part) s = .next (finish (.restoring part) { status := stSHAPE_MISMATCH, detail := d }
        { s with saves := { s.saves with restores := s.saves.restores.filter (fun x => x.partition != part) }, freeCtr := s.freeCtr + 1 })))
  ∧ (∀ (m : ShardMsg) (value : Nat) (s : State), restoreOf s m.partition = none →
    exec (.restoreStagingDone m.partition value) s = .next s ∧ exec (.shardReport m) s = .next s ∧ exec (.shardCommit m) s = .next s
    ∧ exec (.shardDone m) s = .next s ∧ exec (.shardAllDone m) s = .next s ∧ exec (.restoreTimeout m.partition) s = .next s)

/-! ### Tenancy, quotes and keys -/

/-- ATTEST_QUOTE answers MEASURING while the device measures itself, and BAD_LENGTH with the quote's length for a buffer too short; else the quote waits its turn with its command and nothing is written yet. Signing takes the oldest quote: with room in its buffer its bytes are written plain there, the decapsulation key of its digest is held beside at most three earlier ones, and its command is answered OK, or DEGRADED with the number of fenced units; in a buffer that has become too short it is BAD_LENGTH; with no quote, or while measuring, nothing happens. The expiry of a decapsulation key drops it. The certificate of a new attestation key ends the measuring of a device in phase 2 to 4 that no new firmware is taking over, and counts the key; else it changes nothing. -/
def Obligations.QuotesSignedInOrder : Prop :=
  (∀ (p : Packet) (s t : State), opcodeOf p = 0x50 → passes never p s = some t →
    (t.sec.measuring = true → ∃ detail, exec (.attestQuote p) s = .next (answered p { status := stMEASURING, detail := detail } { t with freeCtr := t.freeCtr + 1 }))
    ∧ (t.sec.measuring = false → bufLen p 0x40 < quoteLength t → exec (.attestQuote p) s = .next (answered p { status := stBAD_LENGTH, detail := quoteLength t } t))
    ∧ (t.sec.measuring = false → quoteLength t ≤ bufLen p 0x40 →
      ∃ u, exec (.attestQuote p) s = .next u ∧ u.secw.quotes = t.secw.quotes ++ [⟨t.secw.quoteSerial + 1, p.params.take 32, p.client, bufAddr p 0x40, bufLen p 0x40⟩]
        ∧ u.commands = t.commands ++ [⟨.quote (t.secw.quoteSerial + 1), originOf p t⟩] ∧ u.out = t.out))
  ∧ (∀ (j : QuoteJob) (rest : List QuoteJob) (digest : Digest) (s : State), s.secw.quotes = j :: rest → s.sec.measuring = false →
    (j.len < quoteLength s → exec (.quoteSigned digest) s = .next (finish (.quote j.serial) { status := stBAD_LENGTH, detail := quoteLength s }
      { s with secw := { s.secw with quotes := rest } }))
    ∧ (∀ keys, quoteLength s ≤ j.len → keys = s.secw.decap ++ [⟨digest, tenantDigest s, s.sec.hostHold && !s.host.lost⟩] →
      exec (.quoteSigned digest) s = .next (finish (.quote j.serial)
        { status := if (fencedUnits s).length = 0 then stOK else stDEGRADED, detail := (fencedUnits s).length, count0 := quoteLength s }
        { s with
          secw := { s.secw with quotes := rest, decap := keys.drop (keys.length - 4) }
          out := { s.out with host := s.out.host ++ [⟨j.client, j.addr, none, quoteBytes j s, 0⟩] } })))
  ∧ (∀ (digest : Digest) (s : State), (s.secw.quotes = [] ∨ s.sec.measuring = true) → exec (.quoteSigned digest) s = .next s)
  ∧ (∀ (digest : Digest) (s : State), exec (.decapKeyExpiry digest) s
      = .next { s with secw := { s.secw with decap := s.secw.decap.filter (fun k => !decide (k.digest = digest)) } })
  ∧ (∀ (s : State), s.sec.measuring = true → 2 ≤ s.svc.phase → s.svc.phase ≤ 4 → s.svc.takenOver = false →
    exec .akCertified s = .next { s with sec := { s.sec with measuring := false, akSerial := s.sec.akSerial + 1 } })
  ∧ (∀ (s : State), (s.sec.measuring = false ∨ s.svc.phase < 2 ∨ 4 < s.svc.phase ∨ s.svc.takenOver = true) → exec .akCertified s = .next s)

/-- TENANT_BIND, whose bytes give the policy q: PRESENCE_REQUIRED once the seal has tripped, BUSY 0xFFFF on a bound device, BAD_PARAM at 0x8000 plus the offset of the first bad field (an allow list without the running firmware's measurement is one); else OK: the device is bound under q, new memory keys are drawn, and the memory reads as before. KEY_ACCEPT, in the order of its checks: NOT_ATTESTED on an unbound device or under a key of another tenancy; BAD_LENGTH with the length its ENTRIES give; BAD_PARAM at 0x8000 plus a bad field's offset; AUTH_FAIL 0x0020 under no held key; from here the key is used up: AUTH_FAIL 0x0021 where the message does not open, BAD_PARAM at the first bad entry, BUSY where a weight key in use would change, BAD_PARAM at the first payload entry that reuses a KEYGEN for another key. A message that passes installs every entry: a weight key under its model, a payload key under its client, and a client that had none starts its counters; models and clients without an entry keep theirs, and PURGED ends. -/
def Obligations.TenantsAndKeys : Prop :=
  (∀ (p : Packet) (buf : Bytes) (q : TenantPolicy) (s t : State), opcodeOf p = 0x52 → passes never p s = some t → q = readPolicy buf →
    (t.sec.sealTripped = true → exec (.tenantBind p buf) s = .next (answered p { status := stPRESENCE_REQUIRED } t))
    ∧ (t.sec.sealTripped = false → t.sec.bound = true → exec (.tenantBind p buf) s = .next (answered p (busy 0xFFFF) t))
    ∧ (∀ off, t.sec.sealTripped = false → t.sec.bound = false → policyFault q t = some off → exec (.tenantBind p buf) s = .next (answered p (bad (0x8000 + off)) t))
    ∧ (t.sec.sealTripped = false → t.sec.bound = false → policyFault q t = none →
      ∃ u, exec (.tenantBind p buf) s = .next (answered p ok u) ∧ u.sec.bound = true ∧ u.sec.policy = some q ∧ u.secw.memKeyGen = t.secw.memKeyGen + 1
        ∧ u.sec.weightKeys = t.sec.weightKeys ∧ u.sec.payloadKeys = t.sec.payloadKeys ∧ u.slots = t.slots ∧ u.mem = t.mem))
  ∧ (∀ (p : Packet) (m : KeyMessage) (s t : State), opcodeOf p = 0x51 → passes never p s = some t →
    ((t.sec.bound = false ∨ ∃ k, t.secw.decap.find? (fun k => decide (k.digest = m.quoteDigest)) = some k ∧ k.tenant ≠ tenantDigest t) →
      exec (.keyAccept p m) s = .next (answered p { status := stNOT_ATTESTED } t))
    ∧ (t.sec.bound = true → (∀ k, t.secw.decap.find? (fun k => decide (k.digest = m.quoteDigest)) = some k → k.tenant = tenantDigest t) →
      (m.length ≠ 1672 + 48 * m.entriesField → exec (.keyAccept p m) s = .next (answered p { status := stBAD_LENGTH, detail := 1672 + 48 * m.entriesField } t))
      ∧ (∀ off, m.length = 1672 + 48 * m.entriesField → messageFault m = some off → exec (.keyAccept p m) s = .next (answered p (bad (0x8000 + off)) t))
      ∧ (m.length = 1672 + 48 * m.entriesField → messageFault m = none → t.secw.decap.find? (fun k => decide (k.digest = m.quoteDigest)) = none →
        exec (.keyAccept p m) s = .next (answered p { status := stAUTH_FAIL, detail := 0x0020 } t))))
  ∧ (∀ (p : Packet) (m : KeyMessage) (k : DecapKey) (s t u : State), opcodeOf p = 0x51 → passes never p s = some t → t.sec.bound = true →
      t.secw.decap.find? (fun k => decide (k.digest = m.quoteDigest)) = some k → k.tenant = tenantDigest t → m.length = 1672 + 48 * m.entriesField → messageFault m = none →
      u = { t with secw := { t.secw with decap := t.secw.decap.filter (fun d => !decide (d.digest = m.quoteDigest)) } } →
    (m.opens = false → exec (.keyAccept p m) s = .next (answered p { status := stAUTH_FAIL, detail := 0x0021 } u))
    ∧ (∀ i e, m.opens = true → m.entries[i]? = some e → entryBad m.entries i e = true → (∀ j d, j < i → m.entries[j]? = some d → entryBad m.entries j d = false) →
      exec (.keyAccept p m) s = .next (answered p (bad (0x8000 + 48 * i)) u))
    ∧ (m.opens = true → (∀ i e, m.entries[i]? = some e → entryBad m.entries i e = false) →
      ((∃ e ∈ m.entries, weightBusy t e = true) → exec (.keyAccept p m) s = .next (answered p (busy 0xFFFF) u))
      ∧ (∀ i, (∀ e ∈ m.entries, weightBusy t e = false) → m.entries.findIdx? (keygenTaken t) = some i → exec (.keyAccept p m) s = .next (answered p (bad (0x8000 + 48 * i)) u))
      ∧ ((∀ e ∈ m.entries, weightBusy t e = false ∧ keygenTaken t e = false) →
        ∃ v, exec (.keyAccept p m) s = .next (answered p ok v) ∧ v.secw.decap = u.secw.decap ∧ v.sec.purged = false ∧ v.mem = t.mem
          ∧ (∀ e ∈ m.entries, e.kind = 1 → FMap.get? v.sec.weightKeys e.index = some e.keyId ∧ FMap.get? v.sec.weightSecrets e.index = some e.key)
          ∧ (∀ e ∈ m.entries, e.kind = 2 → ∃ x, FMap.get? v.sec.payloadKeys e.index = some x ∧ x.keyId = e.keyId ∧ x.key = e.key
            ∧ (FMap.get? t.sec.payloadKeys e.index = none → x.outSeq = 0 ∧ x.inTop = 0 ∧ x.inSeen = []))
          ∧ (∀ i, (∀ e ∈ m.entries, e.kind = 1 → e.index ≠ i) → FMap.get? v.sec.weightKeys i = FMap.get? t.sec.weightKeys i)
          ∧ (∀ i, (∀ e ∈ m.entries, e.kind ≠ 1 → e.index ≠ i) → FMap.get? v.sec.payloadKeys i = FMap.get? t.sec.payloadKeys i))))

/-- TENANT_RELEASE answers MEASURING while a firmware activation is going on and BUSY during a DIMM service; else it is ACCEPTED and the release begins: a device of no ring waits for nothing, one of a ring departs and waits for the departure boundary. The release runs once that boundary is past: every session is FREE, every key is destroyed, memory, contents and schedule are empty, the composition is left and the device unbound; before it, or with no release begun, it changes nothing. The end of the hold time, without a key re-release and with the hold in force, begins a release as well; before it, it changes nothing. -/
def Obligations.TenantReleased : Prop :=
  (∀ (p : Packet) (s t : State), opcodeOf p = 0x53 → passes never p s = some t →
    (activating t = true → ∃ detail, exec (.tenantRelease p) s = .next (answered p { status := stMEASURING, detail := detail } { t with freeCtr := t.freeCtr + 1 }))
    ∧ (activating t = false → dimmBusy t = true → exec (.tenantRelease p) s = .next (answered p (busy 0xFFFF) t))
    ∧ (activating t = false → dimmBusy t = false → t.sec.releasing = false →
      ∃ u, exec (.tenantRelease p) s = .next u ∧ u.sec.releasing = true ∧ commandOf u .release ≠ none ∧ u.mem = t.mem ∧ u.cont = t.cont
        ∧ (inRing t = false → u.sec.releaseAt = none)
        ∧ (∀ img, inRing t = true → t.sched.active = some img → u.sec.releaseAt = some (departureBoundary img t) ∧ .departure (departureBoundary img t) (ringIds t) ∈ u.out.msgs)))
  ∧ (∀ (s : State), s.sec.releasing = true → (s.sec.releaseAt = none ∨ ∃ b, s.sec.releaseAt = some b ∧ b ≤ s.cad.beat) →
    ∃ u, exec .tenantReleaseRun s = .next u ∧ u.sec.bound = false ∧ u.sec.policy = none ∧ u.sec.releasing = false ∧ u.sec.weightKeys = [] ∧ u.sec.payloadKeys = [] ∧ u.secw.decap = []
      ∧ u.mem = [] ∧ u.tier.frames = [] ∧ u.sched.active = none ∧ u.cont.models = [] ∧ u.cont.partitions = [] ∧ u.cont.vocabs = [] ∧ u.comp.inComp = false
      ∧ (∀ slot, (sessionAt u slot).d.state = 0))
  ∧ (∀ (s : State), (s.sec.releasing = false ∨ ∃ b, s.sec.releaseAt = some b ∧ s.cad.beat < b) → exec .tenantReleaseRun s = .next s)
  ∧ (∀ (s : State), s.sec.suspended = true → s.host.holdBeats ≠ 0 → s.host.lostAt + s.host.holdBeats ≤ s.cad.beat → s.sec.releasing = false →
    (inRing s = false → exec .hostHoldExpiry s = .next { s with sec := { s.sec with releasing := true, releaseAt := none } })
    ∧ (∀ img, inRing s = true → s.sched.active = some img → ∃ u, exec .hostHoldExpiry s = .next u ∧ u.sec.releasing = true ∧ u.sec.releaseAt = some (departureBoundary img s)
      ∧ u.out.msgs = s.out.msgs ++ [.departure (departureBoundary img s) (ringIds s)] ∧ u.mem = s.mem ∧ u.slots = s.slots))
  ∧ (∀ (s : State), (s.sec.suspended = false ∨ s.host.holdBeats = 0 ∨ s.cad.beat < s.host.lostAt + s.host.holdBeats ∨ s.sec.releasing = true) → exec .hostHoldExpiry s = .next s)

/-! ### Presence, the seal, custodial commands -/

/-- PRESENCE_N held low opens a presence window of 30 s and sets its flag while the seal loop is closed, and changes nothing while it is open; the window's end closes it; closing the loop makes SEAL_OK, and a seal that had tripped stays tripped; opening it trips the seal, closes the window, unbinds the device, frees every session, and empties keys, contents, frames and memory. Custodial subcommands: without presence (no open window, a tripped seal for any but the fifth, or on a bound device under presence policy 1) each is PRESENCE_REQUIRED, and the fifth also with the loop open; a VALUE above its limit is BAD_PARAM 0x20, a subcommand outside 1 to 6 BAD_PARAM 0x14. With presence and a VALUE in range each has its effect and its OK closes the window: the rollback minimum, debug on or off, a new identity chain, a factory return, the end of a tripped seal, the presence policy. Debug on, the identity reset and the factory return of a bound device first begin a tenant release and wait for it. -/
def Obligations.PresenceSealCustody : Prop :=
  (∀ (s : State), s.sec.sealOk = true → exec .presence s = .next (setFlag offSecEvents 1 { s with sec := { s.sec with presenceOpen := true, windowS := 30 } }))
  ∧ (∀ (s : State), s.sec.sealOk = false → exec .presence s = .next s)
  ∧ (∀ (s : State), exec .presenceWindowEnd s = .next { s with sec := { s.sec with presenceOpen := false, windowS := 0 } })
  ∧ (∀ (s : State), exec .sealLoopClose s = .next { s with sec := { s.sec with sealOk := true } })
  ∧ (∀ (s : State), ∃ u, exec .sealOpen s = .next u ∧ u.sec.sealOk = false ∧ u.sec.sealTripped = true ∧ u.sec.presenceOpen = false ∧ u.sec.bound = false ∧ u.sec.weightKeys = [] ∧ u.sec.payloadKeys = []
      ∧ u.mem = [] ∧ u.tier.frames = [] ∧ u.cont.models = [] ∧ (∀ slot, (sessionAt u slot).d.state = 0))
  ∧ (∀ (p : Packet) (s t : State), opcodeOf p = 0x64 → passes never p s = some t →
    (argOf p 20 1 = 1 → presenceShort 1 t = true → exec (.custodialRollback p) s = .next (answered p { status := stPRESENCE_REQUIRED } t))
    ∧ (argOf p 20 1 = 2 → presenceShort 2 t = true → exec (.custodialDebug p) s = .next (answered p { status := stPRESENCE_REQUIRED } t))
    ∧ (argOf p 20 1 = 3 → presenceShort 3 t = true → exec (.identityReset p) s = .next (answered p { status := stPRESENCE_REQUIRED } t))
    ∧ (argOf p 20 1 = 4 → presenceShort 4 t = true → exec (.factoryReturn p) s = .next (answered p { status := stPRESENCE_REQUIRED } t))
    ∧ (argOf p 20 1 = 5 → (presenceShort 5 t = true ∨ t.sec.sealOk = false) → exec (.sealOverride p) s = .next (answered p { status := stPRESENCE_REQUIRED } t))
    ∧ (argOf p 20 1 = 6 → presenceShort 6 t = true → exec (.presencePolicy p) s = .next (answered p { status := stPRESENCE_REQUIRED } t))
    ∧ ((argOf p 20 1 = 0 ∨ 7 ≤ argOf p 20 1) → exec (.custodialRollback p) s = .next (answered p (bad 0x14) t)))
  ∧ (∀ (p : Packet) (v : Nat) (s t : State), opcodeOf p = 0x64 → passes never p s = some t → v = paramOf p 0x20 8 →
    (argOf p 20 1 = 1 → presenceShort 1 t = false → 0xFFFFFFFF < v → exec (.custodialRollback p) s = .next (answered p (bad 0x20) t))
    ∧ (argOf p 20 1 = 2 → presenceShort 2 t = false → 1 < v → exec (.custodialDebug p) s = .next (answered p (bad 0x20) t))
    ∧ (argOf p 20 1 = 3 → presenceShort 3 t = false → 0 < v → exec (.identityReset p) s = .next (answered p (bad 0x20) t))
    ∧ (argOf p 20 1 = 4 → presenceShort 4 t = false → 0 < v → exec (.factoryReturn p) s = .next (answered p (bad 0x20) t))
    ∧ (argOf p 20 1 = 5 → t.sec.sealOk = true → presenceShort 5 t = false → 0 < v → exec (.sealOverride p) s = .next (answered p (bad 0x20) t))
    ∧ (argOf p 20 1 = 6 → presenceShort 6 t = false → 1 < v → exec (.presencePolicy p) s = .next (answered p (bad 0x20) t)))
  ∧ (∀ (p : Packet) (v : Nat) (s t : State), opcodeOf p = 0x64 → passes never p s = some t → v = paramOf p 0x20 8 →
    (argOf p 20 1 = 1 → presenceShort 1 t = false → v ≤ 0xFFFFFFFF →
      ∃ u, exec (.custodialRollback p) s = .next (answered p ok u) ∧ u.sec = { t.sec with rollback := v, presenceOpen := false, windowS := 0 } ∧ u.mem = t.mem)
    ∧ (argOf p 20 1 = 2 → presenceShort 2 t = false → v ≤ 1 → (v = 0 ∨ t.sec.bound = false) →
      ∃ u, exec (.custodialDebug p) s = .next (answered p ok u) ∧ u.sec = { t.sec with debug := v == 1, presenceOpen := false, windowS := 0 } ∧ u.mem = t.mem)
    ∧ (argOf p 20 1 = 3 → presenceShort 3 t = false → v = 0 → t.sec.bound = false →
      ∃ u, exec (.identityReset p) s = .next (answered p ok u) ∧ u.sec = { t.sec with chainEpoch := t.sec.chainEpoch + 1, akSerial := t.sec.akSerial + 1, presenceOpen := false, windowS := 0 }
        ∧ u.secw.decap = [] ∧ u.mem = t.mem)
    ∧ (argOf p 20 1 = 4 → presenceShort 4 t = false → v = 0 → t.sec.bound = false →
      ∃ u, exec (.factoryReturn p) s = .next (answered p ok u) ∧ u.cal.user = [] ∧ u.svc.stopRecord = [] ∧ u.svc.stopDiscarded = true
        ∧ u.sec = { t.sec with presencePolicy := 0, rollback := 0, debug := false, presenceOpen := false, windowS := 0 } ∧ u.mem = t.mem)
    ∧ (argOf p 20 1 = 5 → presenceShort 5 t = false → t.sec.sealOk = true → v = 0 →
      ∃ u, exec (.sealOverride p) s = .next (answered p ok u) ∧ u.sec = { t.sec with sealTripped := false, presenceOpen := false, windowS := 0 } ∧ u.mem = t.mem)
    ∧ (argOf p 20 1 = 6 → presenceShort 6 t = false → v ≤ 1 →
      ∃ u, exec (.presencePolicy p) s = .next (answered p ok u) ∧ u.sec = { t.sec with presencePolicy := v, presenceOpen := false, windowS := 0 } ∧ u.mem = t.mem))
  ∧ (∀ (p : Packet) (s t : State), opcodeOf p = 0x64 → passes never p s = some t → t.sec.bound = true →
    (argOf p 20 1 = 2 → presenceShort 2 t = false → paramOf p 0x20 8 = 1 → ∃ u, exec (.custodialDebug p) s = .next u ∧ u.sec.releasing = true ∧ u.sec.debug = t.sec.debug ∧ commandOf u (.custodial 2 1) ≠ none)
    ∧ (argOf p 20 1 = 3 → presenceShort 3 t = false → paramOf p 0x20 8 = 0 → ∃ u, exec (.identityReset p) s = .next u ∧ u.sec.releasing = true ∧ u.sec.chainEpoch = t.sec.chainEpoch ∧ commandOf u (.custodial 3 0) ≠ none)
    ∧ (argOf p 20 1 = 4 → presenceShort 4 t = false → paramOf p 0x20 8 = 0 → ∃ u, exec (.factoryReturn p) s = .next u ∧ u.sec.releasing = true ∧ u.cal.user = t.cal.user ∧ commandOf u (.custodial 4 0) ≠ none))

/-! ### Firmware and calibration -/

/-- FW_STAGE: a TOTAL above 16 MiB is BAD_LENGTH; a piece that is not the last is kept or refused as its staging says. Of the object that the last piece completes: a wrong length is BAD_LENGTH, a bad header BAD_PARAM (both with a detail the manual does not state), a wrong digest DIGEST_FAIL, a signature that fails AUTH_FAIL 0x0010, a rollback number below the minimum AUTH_FAIL 0x0011; a sound image is staged. FW_ACTIVATE outside recovery: with nothing staged BAD_PARAM 0x20, during a DIMM service or another activation BUSY, with an AT that is no step boundary a full step away BAD_PARAM 0x20; else ACCEPTED for its beat, and firmware the tenant's policy does not allow also holds the sessions. At that beat recognition stops and quotes answer MEASURING. Firmware that resumes within 150 beats runs from the other slot with its measurement in force and answers the command; where the policy does not allow it, the tenancy's keys are purged. Firmware that does not resume by 150 beats is replaced by the previous one, which keeps its measurement and the keys, drops the staged image and answers the command. Take-over, resuming and the time limit change nothing where no activation stands, before its beat, out of their turn, or on their side of the 150 beats. -/
def Obligations.FirmwareStagedAndActivated : Prop :=
  (∀ (p : Packet) (obj : FirmwareObject) (img : FirmwareImage) (s t : State), opcodeOf p = 0x60 → passes never p s = some t → img = readFirmware obj →
    (16777216 < paramOf p 0x28 8 → ∃ detail, exec (.fwStage p obj) s = .next (answered p { status := stBAD_LENGTH, detail := detail } { t with freeCtr := t.freeCtr + 1 }))
    ∧ (∀ a u, paramOf p 0x28 8 ≤ 16777216 → (takePiece fwKey 0x20 p t = .kept a u ∨ takePiece fwKey 0x20 p t = .refused a u) → exec (.fwStage p obj) s = .next (answered p a u))
    ∧ (∀ u, paramOf p 0x28 8 ≤ 16777216 → takePiece fwKey 0x20 p t = .last u →
      ((img.facts.delivered ≠ img.totalBytes ∨ img.totalBytes ≠ paramOf p 0x28 8) →
        ∃ detail, exec (.fwStage p obj) s = .next (answered p { status := stBAD_LENGTH, detail := detail } { u with freeCtr := u.freeCtr + 1 }))
      ∧ (img.facts.delivered = img.totalBytes → img.totalBytes = paramOf p 0x28 8 → (img.magic ≠ 0x57464E46 ∨ img.version ≠ 1 ∨ img.zeroOk = false) →
        ∃ detail, exec (.fwStage p obj) s = .next (answered p { status := stBAD_PARAM, detail := detail } { u with freeCtr := u.freeCtr + 1 }))
      ∧ (img.facts.delivered = img.totalBytes → img.totalBytes = paramOf p 0x28 8 → img.magic = 0x57464E46 → img.version = 1 → img.zeroOk = true →
        (img.facts.digest ≠ img.facts.trailer → exec (.fwStage p obj) s = .next (answered p { status := stDIGEST_FAIL } u))
        ∧ (img.facts.digest = img.facts.trailer → img.signatureOk = false → exec (.fwStage p obj) s = .next (answered p { status := stAUTH_FAIL, detail := 0x0010 } u))
        ∧ (img.facts.digest = img.facts.trailer → img.signatureOk = true → img.rollback < u.sec.rollback → exec (.fwStage p obj) s = .next (answered p { status := stAUTH_FAIL, detail := 0x0011 } u))
        ∧ (img.facts.digest = img.facts.trailer → img.signatureOk = true → u.sec.rollback ≤ img.rollback →
          exec (.fwStage p obj) s = .next (answered p ok { u with svc := { u.svc with staged := some img } })))))
  ∧ (∀ (p : Packet) (s t : State), opcodeOf p = 0x61 → passes never p s = some t → t.svc.phase ≠ 5 →
    (t.svc.staged = none → exec (.fwActivate p) s = .next (answered p (bad 0x20) t))
    ∧ (∀ img, t.svc.staged = some img → (activating t = true ∨ dimmBusy t = true) → exec (.fwActivate p) s = .next (answered p (busy 0xFFFF) t))
    ∧ (∀ img, t.svc.staged = some img → activating t = false → dimmBusy t = false → activateBeat (paramOf p 0x20 8) t = none → exec (.fwActivate p) s = .next (answered p (bad 0x20) t))
    ∧ (∀ img at_, t.svc.staged = some img → activating t = false → dimmBusy t = false → activateBeat (paramOf p 0x20 8) t = some at_ →
      (disallowed img t = false → exec (.fwActivate p) s = .next (accepted p .activate { t with svc := { t.svc with activateAt := some at_ } }))
      ∧ (disallowed img t = true → ∃ u, exec (.fwActivate p) s = .next u ∧ u.svc.activateAt = some at_ ∧ u.host.held = true ∧ commandOf u .activate ≠ none)))
  ∧ (∀ (at_ : Nat) (img : FirmwareImage) (s : State), s.svc.activateAt = some at_ → s.svc.staged = some img →
    (s.svc.takenOver = false → at_ ≤ s.cad.beat →
      exec .fwTakeover s = .next { s with sec := { s.sec with measuring := true }, host := { s.host with stopped := true }, svc := { s.svc with takenOver := true } })
    ∧ (s.svc.takenOver = true ∨ s.cad.beat < at_ → exec .fwTakeover s = .next s)
    ∧ (s.svc.takenOver = true → s.cad.beat ≤ at_ + 150 →
      ∃ u, exec .fwResume s = .next u ∧ u.svc.running = 1 - s.svc.running ∧ u.secw.fwMeasurement = img.facts.trailer ∧ u.mgmt.fwVersion = img.fwVersion ∧ u.svc.staged = none
        ∧ u.svc.activateAt = none ∧ u.svc.takenOver = false ∧ u.host.stopped = s.host.lost ∧ commandOf u .activate = none
        ∧ (disallowed img s = true → u.sec.weightKeys = [] ∧ u.sec.payloadKeys = [] ∧ u.sec.purged = true)
        ∧ (disallowed img s = false → u.sec.weightKeys = s.sec.weightKeys ∧ u.sec.payloadKeys = s.sec.payloadKeys))
    ∧ (s.svc.takenOver = false ∨ at_ + 150 < s.cad.beat → exec .fwResume s = .next s)
    ∧ (s.svc.takenOver = true → at_ + 150 ≤ s.cad.beat →
      ∃ u, exec .fwActivateTimeout s = .next u ∧ u.svc.running = s.svc.running ∧ u.secw.fwMeasurement = s.secw.fwMeasurement ∧ u.svc.staged = none ∧ u.svc.activateAt = none
        ∧ u.svc.takenOver = false ∧ commandOf u .activate = none ∧ u.sec.weightKeys = s.sec.weightKeys)
    ∧ (s.svc.takenOver = false ∨ s.cad.beat < at_ + 150 → exec .fwActivateTimeout s = .next s))
  ∧ (∀ (s : State), (s.svc.activateAt = none ∨ s.svc.staged = none) → exec .fwTakeover s = .next s ∧ exec .fwResume s = .next s ∧ exec .fwActivateTimeout s = .next s)

/-- CAL_USER_WRITE: BUSY while a factory return waits; of no user item BAD_PARAM 0x14; of a value out of its bounds, and of a cable trim that would take a link's delay past what an image declares, BAD_PARAM with the item's detail; of a write that does not verify NO_RESOURCE 0x000E; else the value is stored, the write counted and the copy in use changed, and the other items and the factory store stay. CAL_READ answers the 64 bits of an item's value, and of no item BAD_PARAM 0x14. -/
def Obligations.CalibrationWrittenAndRead : Prop :=
  (∀ (p : Packet) (verifies : Bool) (i : Nat) (v : Int) (s t : State), opcodeOf p = 0x62 → passes never p s = some t → i = argOf p 20 4 → v = signedOf 64 (paramOf p 0x20 8) →
    ((∃ x, ∃ c ∈ t.commands, c.work = .custodial 4 x) → exec (.calUserWrite p verifies) s = .next (answered p (busy 0xFFFF) t))
    ∧ ((∀ x, ∀ c ∈ t.commands, c.work ≠ .custodial 4 x) →
      (userBounds i = none → exec (.calUserWrite p verifies) s = .next (answered p (bad 0x14) t))
      ∧ (∀ b, userBounds i = some b →
        ((v < b.1 ∨ b.2 < v) → exec (.calUserWrite p verifies) s = .next (answered p (bad (boundDetail i)) t))
        ∧ (b.1 ≤ v → v ≤ b.2 → trimTooLong i v t = true → exec (.calUserWrite p verifies) s = .next (answered p (bad (i - 0x10100)) t))
        ∧ (b.1 ≤ v → v ≤ b.2 → trimTooLong i v t = false → verifies = false → exec (.calUserWrite p verifies) s = .next (answered p (noResource 0x000E) t))
        ∧ (b.1 ≤ v → v ≤ b.2 → trimTooLong i v t = false → verifies = true →
          ∃ u, exec (.calUserWrite p verifies) s = .next (answered p ok u) ∧ calUser u i = v ∧ u.cal.writeCount = t.cal.writeCount + 1
            ∧ u.cal.copyInUse = 1 - t.cal.copyInUse ∧ (∀ j, j ≠ i → FMap.get? u.cal.user j = FMap.get? t.cal.user j) ∧ u.cal.factory = t.cal.factory ∧ u.mem = t.mem))))
  ∧ (∀ (p : Packet) (s t : State), opcodeOf p = 0x63 → passes never p s = some t →
    (calValue t (argOf p 20 4) = none → exec (.calRead p) s = .next (answered p (bad 0x14) t))
    ∧ (∀ v, calValue t (argOf p 20 4) = some v →
      exec (.calRead p) s = .next (answered p { status := stOK, count0 := signedField 64 v % 2 ^ 32, count1 := signedField 64 v / 2 ^ 32 } t)))

/-! ### Supply, rails, profiles, device states -/

/-- The supply states: WARN from NORMAL sets its flag, and the exit of WARN leads back; elsewhere both only take the reading. REDUCED is entered from either, counted and flagged; an overcurrent sets its flag and enters it too; in other states they take the readings. REDUCED ends in WARN below 42,000 mV and else in NORMAL, or by the ride limit in STOPPING; outside REDUCED both do nothing. A stop, and an overvoltage with its flag, enter STOPPING from every other state: recognition stops, stage 1; in STOPPING they take the reading. There the record closes and the stop flag is set, the rails go off with the volatile memory, the stop completes, each in its stage and in no other. -/
def Obligations.SupplyStates : Prop :=
  (∀ (mV : Nat) (s : State),
    (s.sup.st = .normal → ∃ t, exec (.supplyWarn mV) s = .next t ∧ t.sup = { s.sup with st := .warn, vin := mV } ∧ (getFlag t offSupEvents 0).on = true ∧ t.slots = s.slots ∧ t.mem = s.mem ∧ t.sched = s.sched)
    ∧ (s.sup.st ≠ .normal → exec (.supplyWarn mV) s = .next { s with sup := { s.sup with vin := mV } })
    ∧ exec (.supplyNormal mV) s = .next { s with sup := { s.sup with st := if s.sup.st = .warn then .normal else s.sup.st, vin := mV } })
  ∧ (∀ (mV mA : Nat) (s : State),
    ((s.sup.st = .normal ∨ s.sup.st = .warn) →
      (∃ t, exec (.reducedEntry mV mA) s = .next t
        ∧ t.sup = { s.sup with st := .reduced, vin := mV, iin := mA, reducedCnt := satAdd (2 ^ 64 - 1) s.sup.reducedCnt 1 }
        ∧ (getFlag t offSupEvents 1).on = true ∧ t.slots = s.slots ∧ t.mem = s.mem)
      ∧ (∃ t, exec (.overcurrent mV mA) s = .next t ∧ t.sup.st = .reduced ∧ t.sup.vin = mV ∧ t.sup.iin = mA
        ∧ (getFlag t offSupEvents 3).on = true ∧ t.slots = s.slots ∧ t.mem = s.mem))
    ∧ (s.sup.st ≠ .normal → s.sup.st ≠ .warn →
      exec (.reducedEntry mV mA) s = .next { s with sup := { s.sup with vin := mV } }
      ∧ (∃ t, exec (.overcurrent mV mA) s = .next t ∧ t.sup = { s.sup with vin := mV, iin := mA } ∧ (getFlag t offSupEvents 3).on = true ∧ t.slots = s.slots ∧ t.mem = s.mem)))
  ∧ (∀ (mV : Nat) (s : State),
    (s.sup.st = .reduced →
      exec (.reducedExit mV) s = .next { s with sup := { s.sup with st := if mV < 42000 then .warn else .normal, vin := mV } }
      ∧ (∃ t, exec (.rideLimit mV) s = .next t ∧ t.sup.st = .stopping ∧ t.sup.stopStage = 1 ∧ t.host.stopped = true ∧ (getFlag t offSupEvents 6).on = true ∧ t.mem = s.mem ∧ t.slots = s.slots))
    ∧ (s.sup.st ≠ .reduced → exec (.reducedExit mV) s = .next s ∧ exec (.rideLimit mV) s = .next s))
  ∧ (∀ (mV : Nat) (s : State),
    (s.sup.st ≠ .stopping →
      (∃ t, exec (.supplyStop mV) s = .next t ∧ t.sup.st = .stopping ∧ t.sup.stopStage = 1 ∧ t.host.stopped = true ∧ t.mem = s.mem ∧ t.slots = s.slots)
      ∧ (∃ t, exec (.overvolt mV) s = .next t ∧ t.sup.st = .stopping ∧ t.sup.stopStage = 1 ∧ t.host.stopped = true ∧ (getFlag t offSupEvents 4).on = true ∧ t.mem = s.mem))
    ∧ (s.sup.st = .stopping →
      exec (.supplyStop mV) s = .next { s with sup := { s.sup with vin := mV } } ∧ exec (.overvolt mV) s = .next { s with sup := { s.sup with vin := mV } }))
  ∧ (∀ s : State,
    (s.sup.st = .stopping → s.sup.stopStage = 1 → ∃ t, exec .stopRecordClose s = .next t ∧ t.sup.stopStage = 2 ∧ t.svc.stopFlag = true ∧ t.svc.stopDiscarded = false ∧ t.mem = s.mem)
    ∧ (s.sup.st = .stopping → s.sup.stopStage = 2 → ∃ t, exec .stopRailsOff s = .next t ∧ t.sup.stopStage = 3 ∧ t.sup.railsOff = true ∧ t.mem = [] ∧ t.svc.stopRecord = s.svc.stopRecord)
    ∧ (s.sup.st = .stopping → s.sup.stopStage = 3 → exec .stopComplete s = .next { s with sup := { s.sup with stopStage := 4 } })
    ∧ ((s.sup.st ≠ .stopping ∨ s.sup.stopStage ≠ 1) → exec .stopRecordClose s = .next s)
    ∧ ((s.sup.st ≠ .stopping ∨ s.sup.stopStage ≠ 2) → exec .stopRailsOff s = .next s)
    ∧ ((s.sup.st ≠ .stopping ∨ s.sup.stopStage ≠ 3) → exec .stopComplete s = .next s))

/-- PROFILE_SET of a profile above 3, or one the active image does not allow, is BAD_PARAM 0x14; a second one is BUSY with the beats left; under an active image it waits for the boundary where settings land; without one the core rails that rise are requested at once, and it lands and is answered unless one of them still waits. A rail's answer ends its request, and the last one a profile without an image waits for lands it; without a request it changes nothing. After 100 us without an answer a first request is repeated; after the repeat the rail goes back to its previous target with RAIL_FAIL, and the device-state change, or else the rise of a profile, that needed it is given up; that request too is repeated once and then ends. -/
def Obligations.ProfilesAndRails : Prop :=
  (∀ (p : Packet) (v : Nat) (s t : State), opcodeOf p = 0x74 → passes never p s = some t → v = argOf p 20 1 →
    ((3 < v ∨ ∃ img, t.sched.active = some img ∧ bitOf img.profiles v = false) → exec (.profileSet p) s = .next (answered p (bad 0x14) t))
    ∧ (v ≤ 3 → (∀ img, t.sched.active = some img → bitOf img.profiles v = true) →
      (∀ g, t.sup.profilePending = some g → exec (.profileSet p) s = .next (answered p (busy (min 0xFFFE (g.2 - t.cad.beat))) t))
      ∧ (∀ at_, t.sup.profilePending = none → landing t = some at_ →
        ∃ u, exec (.profileSet p) s = .next u ∧ u.sup = { t.sup with profilePending := some (v, at_) }
          ∧ u.commands = t.commands ++ [⟨.profile, originOf p t⟩] ∧ u.out = t.out ∧ u.slots = t.slots ∧ u.mem = t.mem)
      ∧ (t.sup.profilePending = none → landing t = none → raisePending v (raiseRails (profileMv v) t) = true →
        ∃ u, exec (.profileSet p) s = .next u ∧ u.sup.profilePending = some (v, t.cad.beat) ∧ u.commands = t.commands ++ [⟨.profile, originOf p t⟩] ∧ u.out = t.out ∧ u.mem = t.mem)
      ∧ (t.sup.profilePending = none → landing t = none → raisePending v (raiseRails (profileMv v) t) = false →
        ∃ u, exec (.profileSet p) s = .next u ∧ u.sup.profile = v ∧ u.sup.profilePending = none ∧ commandOf u .profile = none ∧ u.mem = t.mem)))
  ∧ (∀ (r : Nat) (s : State), (railAt s r).pending = false → exec (.avsAck r) s = .next s ∧ exec (.avsTimeout r) s = .next s)
  ∧ (∀ (r : Nat) (s u : State), (railAt s r).pending = true →
      u = putRail r { railAt s r with pending := false, tries := 0, failed := (railAt s r).failed && decide (3 ≤ (railAt s r).tries) } s →
    ((s.sched.active ≠ none ∨ s.sup.profilePending = none ∨ ∃ g, s.sup.profilePending = some g ∧ raisePending g.1 u = true) → exec (.avsAck r) s = .next u)
    ∧ (∀ g, s.sched.active = none → s.sup.profilePending = some g → raisePending g.1 u = false →
      ∃ t, exec (.avsAck r) s = .next t ∧ t.sup.profile = g.1 ∧ t.sup.profilePending = none ∧ commandOf t .profile = none ∧ t.mem = s.mem))
  ∧ (∀ (r : Nat) (s : State), (railAt s r).pending = true →
    (((railAt s r).tries = 1 ∨ (railAt s r).tries = 3) → exec (.avsTimeout r) s = .next (putRail r { railAt s r with tries := (railAt s r).tries + 1 } s))
    ∧ (4 ≤ (railAt s r).tries → exec (.avsTimeout r) s = .next (putRail r { railAt s r with pending := false } s))
    ∧ ((railAt s r).tries = 2 →
      ∃ t, exec (.avsTimeout r) s = .next t ∧ (railAt t r).target = (railAt s r).previous ∧ (railAt t r).failed = true ∧ (railAt t r).pending = true ∧ (railAt t r).tries = 3
        ∧ (getFlag t offSupEvents 5).on = true ∧ t.mem = s.mem ∧ t.sup.devTarget = none
        ∧ (s.sup.devTarget = none → s.sup.profilePending ≠ none → (railAt s r).previous < (railAt s r).target → t.sup.profilePending = none ∧ commandOf t .profile = none)
        ∧ ((s.sup.devTarget ≠ none ∨ (railAt s r).target ≤ (railAt s r).previous) → t.sup.profilePending = s.sup.profilePending ∧ t.commands = s.commands)))

/-- Run to Idle asked of a device in no ring begins the entry, with no effect on anything but the supply block; asked of a device in a ring it is refused; asking for the present state changes nothing. Entry points follow one another; a wake asked for meanwhile ends the entry there; a waking unit runs again; the change completes once no rail waits. -/
def Obligations.DeviceStatesFollow : Prop :=
  (∀ (s : State), inRing s = false → s.sup.dev = .run → s.sup.devTarget = none →
    exec (.deviceStateRequest 1) s = .next { s with sup := { s.sup with devTarget := some .idle, devNext := none, entryPoint := 0 } })
  ∧ (∀ (v : Nat) (s : State), inRing s = true → v ≠ 0 → exec (.deviceStateRequest v) s = .next s)
  ∧ (∀ (s : State), s.sup.dev = .run → s.sup.devTarget = none → exec (.deviceStateRequest 0) s = .next s)
  ∧ (∀ s : State, s.sup.dev = .run → s.sup.devTarget = some .idle → s.sup.entryPoint < 3 → s.sup.devNext = none →
    exec .unitEntryPoint s = .next { s with sup := { s.sup with entryPoint := s.sup.entryPoint + 1 } })
  ∧ (∀ s : State, s.sup.dev = .run → s.sup.devTarget = some .idle → s.sup.entryPoint < 3 → s.sup.devNext = some .run →
    ∃ t, exec .unitEntryPoint s = .next t ∧ t.sup = { s.sup with devTarget := none, devNext := none, entryPoint := 0 } ∧ (getFlag t offSupEvents 7).on = true
      ∧ t.fab = s.fab ∧ t.slots = s.slots)
  ∧ (∀ s : State, s.sup.dev = .idle → s.sup.devTarget = some .run →
    ∃ t, exec .unitWakeLock s = .next t ∧ (∀ d, d < 16 → (FMap.getD t.fab.districts d {}).power = .top) ∧ t = { s with fab := t.fab })
  ∧ (∀ (d : DevState) (s : State), s.sup.devTarget = some d → railsPending s = false → s.sup.devNext = none →
    ∃ t, exec .deviceStateDone s = .next t ∧ t.sup = { s.sup with dev := d, devTarget := none, devNext := none, entryPoint := 0 } ∧ t.slots = s.slots ∧ t.mem = s.mem)

/-! ### The beat clock -/

/-- Beat-number messages: a MASTER takes none, and a sound one sets its flag; a follower ignores one of another source than the configured one and one that is unsound, of another period or misnumbered. A LOCKED device that finds the number it expects keeps it; a first disagreement is counted with NUM_MISMATCH, a second in a row takes it with BEAT_SLIP to LEAVING, or, in no ring, to ACQUIRING or UNLOCKED by whether marks are present. In ACQUIRING two numbers in succession set the beat at which the count is taken up. Two frames without a message set NUM_LOST on a follower. During beat N − 512 a LOCKED or MASTER device sends the message once, on every up link and, as MASTER, on CAD_SOUT; at other times nothing leaves. A LOCKED or HOLDOVER device sends cadence marks with its beat and phase on every up link, at least 16 beats apart. A mark received outside HOLDOVER is remembered for its member, beat and link (whether that member is LOCKED is a free value, log entry 18). The reference of a mode-2 master is lost and comes back. -/
def Obligations.BeatNumbersAgree : Prop :=
  (∀ (source : Nat) (b : Bytes) (s : State), s.cad.st = .master → exec (.beatNumber source b) s = .next (if numSound b then setFlag offCadEvents 9 s else s))
  ∧ (∀ (source : Nat) (b : Bytes) (s : State), s.cad.st ≠ .master → (source ≠ s.cad.numSource ∨ numSound b = false ∨ fieldAt b 1 1 ≠ s.cad.period ∨ fieldAt b 4 8 % 1024 ≠ 0) →
    exec (.beatNumber source b) s = .next s)
  ∧ (∀ (b : Bytes) (s : State), s.cad.st = .locked → numSound b = true → fieldAt b 1 1 = s.cad.period → fieldAt b 4 8 = expectedNum s →
    exec (.beatNumber s.cad.numSource b) s = .next { s with cad := { s.cad with masterIndex := fieldAt b 12 2 % 4096, mismatchRun := 0, lastNum := some (fieldAt b 4 8) } })
  ∧ (∀ (b : Bytes) (s : State), s.cad.st = .locked → numSound b = true → fieldAt b 1 1 = s.cad.period → fieldAt b 4 8 % 1024 = 0 → fieldAt b 4 8 ≠ expectedNum s →
      s.cad.mismatchRun = 0 →
    ∃ t, exec (.beatNumber s.cad.numSource b) s = .next t ∧ t.cad.st = .locked ∧ t.cad.beat = s.cad.beat ∧ t.cad.mismatchCnt = satAdd 0xFFFFFFFF s.cad.mismatchCnt 1
      ∧ t.cad.mismatchRun = 1 ∧ (getFlag t offCadEvents 2).on = true)
  ∧ (∀ (b : Bytes) (s : State), s.cad.st = .locked → numSound b = true → fieldAt b 1 1 = s.cad.period → fieldAt b 4 8 % 1024 = 0 → fieldAt b 4 8 ≠ expectedNum s →
      s.cad.mismatchRun ≠ 0 →
    ∃ t, exec (.beatNumber s.cad.numSource b) s = .next t ∧ t.cad.st = (if inRing s then .leaving else if s.cad.marks then .acquiring else .unlocked)
      ∧ (getFlag t offCadEvents 3).on = true ∧ t.slots = s.slots ∧ t.mem = s.mem)
  ∧ (∀ (b : Bytes) (n : Nat) (s : State), s.cad.st = .acquiring → numSound b = true → fieldAt b 1 1 = s.cad.period → fieldAt b 4 8 = n → n % 1024 = 0 →
    exec (.beatNumber s.cad.numSource b) s = .next { s with cad := { s.cad with
      masterIndex := fieldAt b 12 2 % 4096
      lastNum := some n
      loadAt := if 1024 ≤ n ∧ s.cad.lastNum = some (n - 1024) then some (n, s.cad.beat + 512) else none } })
  ∧ (∀ s : State, exec .numLost s = .next (if s.cad.st = .master then s else setFlag offCadEvents 6 s))
  ∧ (∀ s : State, (s.cad.st = .locked ∨ s.cad.st = .master) → s.cad.beat % 1024 = 512 → s.cad.numSent ≠ some (expectedNum s) →
    exec .beatNumberSend s = .next { s with
      cad := { s.cad with numSent := some (expectedNum s) }
      out := { s.out with msgs := s.out.msgs ++ (if s.cad.st = .master then [.beatSerial (numBytes s)] else []) ++ (upLinks s).map (fun l => .beatNumber l (numBytes s)) } })
  ∧ (∀ s : State, ((s.cad.st ≠ .locked ∧ s.cad.st ≠ .master) ∨ s.cad.beat % 1024 ≠ 512 ∨ s.cad.numSent = some (expectedNum s)) → exec .beatNumberSend s = .next s)
  ∧ (∀ s : State, (s.cad.st = .locked ∨ s.cad.st = .holdover) → (∀ b, s.cad.markSent = some b → b + 16 ≤ s.cad.beat ∨ s.cad.beat < b) →
    exec .cadenceMarkSend s = .next { s with
      cad := { s.cad with markSent := some s.cad.beat }
      out := { s.out with msgs := s.out.msgs ++ (upLinks s).map (fun l => .cadenceMark l s.cad.beat s.cad.phase) } })
  ∧ (∀ (b : Nat) (s : State), ((s.cad.st ≠ .locked ∧ s.cad.st ≠ .holdover) ∨ (s.cad.markSent = some b ∧ b ≤ s.cad.beat ∧ s.cad.beat < b + 16)) → exec .cadenceMarkSend s = .next s)
  ∧ (∀ (l beat phase : Nat) (s : State), s.cad.st ≠ .holdover →
    ∃ m : PeerMark, m.peer = (linkAt s l).peer ∧ m.link = l ∧ m.beat = s.cad.beat
      ∧ exec (.cadenceMark l beat phase) s = .next { s with
          cad := { s.cad with lastMarks := (s.cad.lastMarks.filter (fun x => x.peer != (linkAt s l).peer)) ++ [m] }
          freeCtr := s.freeCtr + 1 })
  ∧ (∀ s : State, (s.cad.st = .master → s.cad.mode = 2 →
      exec .xrefLost s = .next { s with cad := { s.cad with xrefLost := true } } ∧ exec .xrefReturn s = .next { s with cad := { s.cad with xrefLost := false } })
    ∧ ((s.cad.st ≠ .master ∨ s.cad.mode ≠ 2) → exec .xrefLost s = .next s ∧ exec .xrefReturn s = .next s))

/-! ### Steps and slots -/

/-- A step boundary with no active image: a checked staged image with nothing else due (no map, departure or fallback) activates at its ACTIVATE_AT, with the step number its schedule gives. With an active image the counters that STATS_READ gives are the ones that stand at the end of the step, and the Districts' kills start again. The Plaza lane moves every ledger tail into its body; without an image it does nothing. A slot of a served lane that has not run starts at its beat, later by its slips, once deferrals due are settled (u): it is marked, its Districts run it, regions of the Block store outside their lifetime are dead from there, and unless it is the first of its microbatch nothing else changes. A slot the device has not, one that ran, one of another lane, and every slot in REDUCED and STOPPING, does not start. -/
def Obligations.StepsAndSlots : Prop :=
  (∀ (g : StagedImage) (s : State), s.sched.active = none → s.sched.staged = some g → g.checked = true → s.comp.staged = none →
      s.sched.departures = [] → s.cad.departAt = none → s.sched.fallbacks = [] → s.cad.beat ≤ g.activateAt → g.activateAt < 2 ^ 63 →
    ∃ t, exec .stepBoundary s = .next t ∧ t.sched.active = some g.img ∧ t.sched.base = some g.img ∧ t.sched.staged = none
      ∧ t.sched.step = (g.activateAt - g.img.anchor) / max 1 g.img.stepBeats ∧ t.cad.beat = g.activateAt ∧ t.mem = s.mem)
  ∧ (∀ (img : Image) (s : State), s.sched.active = some img →
    ∃ t, exec .stepBoundary s = .next t ∧ t.latched = t.counters
      ∧ (∀ k q, FMap.get? t.cont.partitions k = some q → q.latched = q.counters)
      ∧ (∀ d k, FMap.get? t.fab.districts d = some k → k.kills = 0))
  ∧ (∀ s : State, s.sched.active = none → exec .plazaLane s = .next s)
  ∧ (∀ (img : Image) (s : State), s.sched.active = some img →
    ∃ t, exec .plazaLane s = .next t ∧ (∀ n, (sessionAt t n).tail = []) ∧ (∀ n, (sessionAt t n).body = (sessionAt s n).body ++ (sessionAt s n).tail) ∧ t.mem = s.mem)
  ∧ (∀ (id : Nat) (img : Image) (x : SlotEntry) (s u : State), slotImage s id = some img → activeSlot s id = some x → id ∉ s.sched.done → x.lane ≤ 1 →
      s.sup.st ≠ .reduced → s.sup.st ≠ .stopping → u = settleDefers (passBeats (slotBeat s img x - s.cad.beat) s) → needsLost u img id = false →
    ∃ t, exec (.slotStart id) s = .next t ∧ t.sched.done = u.sched.done ++ [id]
      ∧ (∀ d, d < 16 → bitOf x.districts d = true → (FMap.getD t.fab.districts d {}).running = true ∧ (FMap.getD t.fab.districts d {}).slot = id)
      ∧ (∀ d, (16 ≤ d ∨ bitOf x.districts d = false) → FMap.getD t.fab.districts d {} = FMap.getD u.fab.districts d {})
      ∧ (∀ i, storeAt t i = aliveAt img (x.start * 4096) i (storeAt u i))
      ∧ (isEntry img x = false → t = { u with sched := { u.sched with done := u.sched.done ++ [id] }, fab := t.fab }))
  ∧ (∀ (id : Nat) (s : State), (s.sup.st = .reduced ∨ s.sup.st = .stopping ∨ id ∈ s.sched.done ∨ activeSlot s id = none ∨ ∃ x, activeSlot s id = some x ∧ 1 < x.lane) →
    exec (.slotStart id) s = .next s)

/-- The commit point of a layer command, with deferrals due settled first (u). Nothing is released of a slot the device has not, of a run that does not stand, of a core that does not serve its logical number, or of a microbatch deferred since. Steps that end in a residue mismatch set RESIDUE_MM and kill the command; a received accumulator that fails its check sets REDUCE_MM and kills it; memory stays. Else the command is committed and its District stops running: without tile writes, STATS_SAVE steps and a training update, memory stays; a configured operation's results stand in the STAGE region it names and nowhere else in the store; a tile write puts the bytes of its STAGE region in the page's frame and changes no other byte of memory; activations handed over stand in the ACT region of the slot and in its mirror. The sampling commit of a killed run, of a slot that has committed, or of a microbatch with nothing sealed, does nothing (deferrals due are settled first). Of a microbatch whose one place is the last piece of a live ACTIVE session with a generation that takes prompt rows only, and whose page list has room for them, it commits those rows and ends the place; the ledger, memory under an active image, replies and every other session stay. -/
def Obligations.CommitPointsRelease : Prop :=
  (∀ (c : LayerCommit) (s u : State), u = settleDefers s →
      (activeSlot u c.slotId = none ∨ runStands u c = false ∨ servesLogical u c.core c.logical = false ∨ ∃ x, activeSlot u c.slotId = some x ∧ deferred u x = true) →
    exec (.commitPoint c) s = .next u)
  ∧ (∀ (c : LayerCommit) (img : Image) (x : SlotEntry) (s u : State), u = settleDefers s → slotImage u c.slotId = some img → activeSlot u c.slotId = some x → runStands u c = true →
      servesLogical u c.core c.logical = true → deferred u x = false →
    ((runSteps (cmdEnv img x) c.steps u).residue = true →
      ∃ t, exec (.commitPoint c) s = .next t ∧ t.mem = u.mem ∧ (getFlag t (offArithEvents (c.core / 512 % 16)) 1).on = true)
    ∧ (∀ l, (runSteps (cmdEnv img x) c.steps u).residue = false → (runSteps (cmdEnv img x) c.steps u).reduce = some l →
      ∃ t, exec (.commitPoint c) s = .next t ∧ t.mem = u.mem ∧ (getFlag t (offArithEvents (c.core / 512 % 16)) 3).on = true)
    ∧ ((runSteps (cmdEnv img x) c.steps u).residue = false → (runSteps (cmdEnv img x) c.steps u).reduce = none → isUpdate u x = false →
      ∃ t, exec (.commitPoint c) s = .next t ∧ (c.slotId, c.core) ∈ t.sched.commits ∧ (FMap.getD t.fab.districts (c.core / 512 % 16) {}).running = false
        ∧ (c.writes = [] → (∀ reads j, .vec reads j ∈ c.steps → j.code ≠ 0x2C) → t.mem = u.mem)))
  ∧ (∀ (c : LayerCommit) (j : OpJob) (l : List Nat) (img : Image) (x : SlotEntry) (i off : Nat) (g : Region) (b : Bytes) (s u : State), u = settleDefers s → slotImage u c.slotId = some img →
      activeSlot u c.slotId = some x → runStands u c = true → servesLogical u c.core c.logical = true → deferred u x = false → isUpdate u x = false →
      c.steps = [.vec [] j] → c.writes = [] → c.hands = [] → j.code ∉ [0x08, 0x29, 0x2C, 0x2D, 0x3E] → runOp j = some l → j.dest = .region i off → b = (l.map (leBytes (opWidth j))).flatten →
      regionAt u i = some g → g.kind = 0 → g.firstSlot = x.id → off + b.length ≤ g.length → Memory.wf (storeAt u i).now = true → Memory.wf (storeAt u i).before = true →
    ∃ t, exec (.commitPoint c) s = .next t ∧ t.mem = u.mem ∧ regionBytes (storeAt t i) off b.length = b
      ∧ (∀ a, (a < off ∨ off + b.length ≤ a) → regionByte (storeAt t i) a = regionByte (storeAt u i) a)
      ∧ (∀ k, k ≠ i → (∀ r, regionAt u k = some r → r.kind ≠ 5) → storeAt t k = storeAt u k))
  ∧ (∀ (c : LayerCommit) (w : TileWrite) (img : Image) (x : SlotEntry) (q : Partition) (slot f : Nat) (g : Region) (s u : State), u = settleDefers s → slotImage u c.slotId = some img →
      activeSlot u c.slotId = some x → runStands u c = true → servesLogical u c.core c.logical = true → deferred u x = false → isUpdate u x = false →
      c.steps = [] → c.writes = [w] → c.hands = [] → partitionAt u x.partition = some q → liveSlot u w.handle = some slot → mayWrite u x.partition x.microbatch w.handle w.pageNo = true →
      w.len ≠ 0 → w.offset + w.len ≤ pageBytes q → regionAt u w.region = some g → g.kind = 0 → passFrame u x.partition w.handle w.pageNo = some f → Memory.wf u.mem = true →
    ∃ t, exec (.commitPoint c) s = .next t
      ∧ Memory.readBytes t.mem (f + w.offset) w.len = readRegion img ((x.start + x.commitBeat) * 4096 + x.commitPhase - 1) w.region w.at_ w.len u
      ∧ (∀ a, (a < f + w.offset ∨ f + w.offset + w.len ≤ a) → Memory.read t.mem a = Memory.read u.mem a))
  ∧ (∀ (c : LayerCommit) (h : HandOver) (img : Image) (x : SlotEntry) (b : Bytes) (g a m : Region) (s u : State), u = settleDefers s → slotImage u c.slotId = some img →
      activeSlot u c.slotId = some x → runStands u c = true → servesLogical u c.core c.logical = true → deferred u x = false → isUpdate u x = false →
      c.steps = [] → c.writes = [] → c.hands = [h] → regionAt u h.region = some g → g.kind = 0 → regionAt u h.act = some a → a.kind = 1 → bitOf a.flags 1 = false → a.firstSlot = x.id →
      a.mirror ≠ h.act → regionAt u a.mirror = some m → m.kind ≠ 5 → m.length = a.length → b = readRegion img ((x.start + x.commitBeat) * 4096 + x.commitPhase - 1) h.region h.at_ h.len u →
      h.actAt + h.len ≤ a.length → (∀ k, Memory.wf (storeAt u k).now = true ∧ Memory.wf (storeAt u k).before = true) →
    ∃ t, exec (.commitPoint c) s = .next t ∧ t.mem = u.mem ∧ regionBytes (storeAt t h.act) h.actAt h.len = b ∧ regionBytes (storeAt t a.mirror) h.actAt h.len = b)
  ∧ (∀ (c : SamplingCommit) (s u : State), u = settleDefers s → (passOf u c.partition c.microbatch = none ∨ c.run ≠ runOf u c.slotId ∨ slotCommitted c.slotId u = true) → exec (.samplingCommit c) s = .next u)
  ∧ (∀ (c : SamplingCommit) (m : SealedMb) (p : Place) (slot n : Nat) (j : Generation) (s : State), s.sched.deferDue = [] → s.sched.sealPrev = [] → s.sched.sealNow = [m] → c.run = runOf s c.slotId →
      slotCommitted c.slotId s = false → m.partition = c.partition → m.microbatch = c.microbatch → m.places = [p] → p.piece + 1 = p.pieces → p.withdrawn = false → liveSlot s p.handle = some slot →
      (sessionAt s slot).d.state = 2 → (sessionAt s slot).rebuild = none → (sessionAt s slot).job = some j → j.endWith = none → (sessionAt s slot).nextSetDue = false →
      samplesNow (sessionAt s slot) p.qpos = false →
      n = ((sealedRows (sessionAt s slot) p.qpos).filter (fun r => decide ((sessionAt s slot).d.committed ≤ r))).length → listFull (sessionAt s slot) ((sessionAt s slot).d.committed + n - 1) = false →
    ∃ t, exec (.samplingCommit c) s = .next t ∧ (sessionAt t slot).d.committed = (sessionAt s slot).d.committed + n
      ∧ (sessionAt t slot).d.state = 2 ∧ (sessionAt t slot).body = (sessionAt s slot).body ∧ (sessionAt t slot).tail = (sessionAt s slot).tail ∧ t.sched.sealNow = []
      ∧ (∀ k, k ≠ slot → sessionAt t k = sessionAt s k) ∧ (s.sched.active ≠ none → t.mem = s.mem) ∧ t.out.replies = s.out.replies)

/-! ### Schedule notices and the faults that cause them -/

/-- A schedule notice is applied once, whichever member sent it, and a message of another kind not at all. A SLIP waits for its instant. An ABORT is counted by its partition, and its slip waits where it fits the rerun window. A DEFER whose E has come takes the microbatch's members out of every place at once; before E it waits, with the places as they are. A FALLBACK waits for its boundary. At the instant of a partition's earliest slip noticed (the first in the list of those due) its later slots move by DELTA: the partition's slip grows by it, and so does the largest slip; with none due nothing happens. A frame that has not landed sets its flags and is counted by its link; a microprogram error is counted and flagged; a weight chunk that fails is noted, and its model counts as damaged from the second failure on; none of them touches the memory of frames. Each kills the run of the slot it names, so that the slot's next run count begins, where the slot belongs to the image it runs under, is not collective, has not committed, waits for no rerun, and its rerun fits the window; a late frame that has an ALT route, of a slot already killed, on a link that is not up, kills nothing more. -/
def Obligations.NoticesAndFaults : Prop :=
  (∀ (n : Notice) (s : State), noticed n s = true →
    exec (.slipNotice n) s = .next s ∧ exec (.abortNotice n) s = .next s ∧ exec (.deferNotice n) s = .next s ∧ exec (.fallbackNotice n) s = .next s)
  ∧ (∀ (n : Notice) (s : State), (n.kind ≠ 1 → exec (.slipNotice n) s = .next s) ∧ (n.kind ≠ 2 → exec (.abortNotice n) s = .next s)
    ∧ (n.kind ≠ 3 → exec (.deferNotice n) s = .next s) ∧ (n.kind ≠ 4 → exec (.fallbackNotice n) s = .next s))
  ∧ (∀ (n : Notice) (s : State), noticed n s = false → n.kind = 1 →
    exec (.slipNotice n) s = .next { s with sched := { s.sched with notices := s.sched.notices ++ [n], slipDue := s.sched.slipDue ++ [n] } })
  ∧ (∀ (n : Notice) (s : State), noticed n s = false → n.kind = 2 →
    ∃ t, exec (.abortNotice n) s = .next t ∧ t.sched.notices = s.sched.notices ++ [n]
      ∧ (slipFits n.partition n.delta s = true → t.sched.slipDue = s.sched.slipDue ++ [n]) ∧ (slipFits n.partition n.delta s = false → t.sched.slipDue = s.sched.slipDue)
      ∧ (∀ q, partitionAt s n.partition = some q → ∃ r, partitionAt t n.partition = some r ∧ r.counters.aborts = q.counters.aborts + 1) ∧ t.slots = s.slots ∧ t.mem = s.mem)
  ∧ (∀ (n : Notice) (m : SealedMb) (s : State), noticed n s = false → n.kind = 3 → s.sched.deferDue = [] →
    (n.e ≤ s.cad.beat → passOf s n.partition n.microbatch = some m →
      ∃ t, exec (.deferNotice n) s = .next t
        ∧ (∀ x ∈ t.sched.sealPrev ++ t.sched.sealNow ++ t.sched.sealNext, ∀ q ∈ x.places,
            (∃ r ∈ m.places, r.withdrawn = false ∧ r.handle = q.handle) → q.withdrawn = true)
        ∧ t.slots = s.slots ∧ t.mem = s.mem)
    ∧ (s.cad.beat < n.e →
      ∃ t, exec (.deferNotice n) s = .next t ∧ t.sched.deferDue = [n] ∧ t.sched.sealPrev = s.sched.sealPrev ∧ t.sched.sealNow = s.sched.sealNow ∧ t.sched.sealNext = s.sched.sealNext
        ∧ t.slots = s.slots ∧ t.mem = s.mem))
  ∧ (∀ (n : Notice) (s : State), noticed n s = false → n.kind = 4 →
    ∃ t, exec (.fallbackNotice n) s = .next t ∧ t.sched.fallbacks = s.sched.fallbacks ++ [⟨n.planId, n.e, n.run == 1⟩] ∧ t.slots = s.slots ∧ t.mem = s.mem)
  ∧ (∀ (part : Nat) (s : State),
    (∀ n q, s.sched.slipDue.find? (fun n => n.partition == part && decide (n.e ≤ s.cad.beat)) = some n → partitionAt s part = some q →
      ∃ t u, exec (.slipApply part) s = .next t ∧ partitionAt t part = some u ∧ u.slip = q.slip + n.delta ∧ u.counters.maxSlip = max q.counters.maxSlip (q.slip + n.delta)
        ∧ t.sched.slipDue = s.sched.slipDue.erase n ∧ t.slots = s.slots ∧ t.mem = s.mem)
    ∧ (s.sched.slipDue.find? (fun n => n.partition == part && decide (n.e ≤ s.cad.beat)) = none → exec (.slipApply part) s = .next s))
  ∧ (∀ (link slotId transfer late : Nat) (s : State), ∃ t, exec (.lateArrival link slotId transfer late) s = .next t
      ∧ (linkAt t link).late = satAdd 0xFFFFFFFF (linkAt s link).late 1 ∧ (getFlag t offCadEvents 7).on = true ∧ (getFlag t (offLnkEvents link) 4).on = true ∧ t.mem = s.mem)
  ∧ (∀ (d b c slotId : Nat) (s : State), ∃ t, exec (.mprogError d b c slotId) s = .next t
      ∧ FMap.getD (blockAt t d b).mprogErrors c 0 = FMap.getD (blockAt s d b).mprogErrors c 0 + 1 ∧ (getFlag t (offDstEvents d) 2).on = true ∧ t.mem = s.mem)
  ∧ (∀ (m chunk slotId : Nat) (s : State), ∃ t, exec (.weightTagFail m chunk slotId) s = .next t
      ∧ (m, chunk) ∈ t.fab.reread ∧ ((m, chunk) ∈ s.fab.reread → m ∈ t.fab.damaged) ∧ ((m, chunk) ∉ s.fab.reread → t.fab.damaged = s.fab.damaged) ∧ t.mem = s.mem)
  ∧ (∀ (slotId : Nat) (img : Image) (x : SlotEntry) (s : State), s.sched.active = some img → activeSlot s slotId = some x → bitOf x.flags 1 = false → slotCommitted slotId s = false →
      (∀ n ∈ s.sched.slipDue, n.slotId ≠ slotId) → slipFits x.partition x.rerunBeats s = true →
    (∀ link transfer late, (runOf s slotId = 0 ∨ (linkAt s link).st = .up ∨ ∀ t ∈ img.transfers, t.id = transfer → t.alt = 0xFFFF) →
      ∃ t, exec (.lateArrival link slotId transfer late) s = .next t ∧ runOf t slotId = runOf s slotId + 1)
    ∧ (∀ d b c, FMap.getD (blockAt s d b).mprogErrors c 0 = 0 → ∃ t, exec (.mprogError d b c slotId) s = .next t ∧ runOf t slotId = runOf s slotId + 1)
    ∧ (∀ m chunk, ∃ t, exec (.weightTagFail m chunk slotId) s = .next t ∧ runOf t slotId = runOf s slotId + 1))
  ∧ (∀ (link slotId transfer late : Nat) (img : Image) (s : State), s.sched.active = some img → runOf s slotId ≠ 0 → (linkAt s link).st ≠ .up →
      (∃ t ∈ img.transfers, t.id = transfer ∧ t.alt ≠ 0xFFFF) →
    ∃ t, exec (.lateArrival link slotId transfer late) s = .next t ∧ t.sched = s.sched)

/-! ### Links -/

/-- The states of a link, and nothing happens in any other state than those named. A signal takes a DOWN or LOST link to TRAINING, the retry a DOWN one; a failed training ends DOWN with its flag. Training that ends with four lanes makes the link UP, with one pair HALF, with fresh sequence numbers, full credits and an empty replay buffer; a map or peer that disagrees is MAP_MISMATCH; with no pair nothing changes. A failed lane is told to the peer: UP retrains without it, HALF on that pair is LOST, else the lane is out. A retraining that ends on a pair is HALF with its replay buffer resent; one that does not end is LOST. A background retraining changes nothing. A mended HALF link with no fenced lane widens at once while no base image is loaded, else at its FALLBACK boundary; a silent one is DOWN. -/
def Obligations.LinkStates : Prop :=
  (∀ (l : Nat) (s : State),
    (((linkAt s l).st = .down ∨ (linkAt s l).st = .lost) →
      ∃ t, exec (.linkSignalDetect l) s = .next t ∧ (linkAt t l).st = .training ∧ (linkAt t l).lanes = 0 ∧ (∀ m, m ≠ l → linkAt t m = linkAt s m) ∧ t.slots = s.slots ∧ t.mem = s.mem)
    ∧ ((linkAt s l).st ≠ .down → (linkAt s l).st ≠ .lost → exec (.linkSignalDetect l) s = .next s))
  ∧ (∀ (l : Nat) (s : State),
    ((linkAt s l).st = .down → ∃ t, exec (.linkTrainRetry l) s = .next t ∧ (linkAt t l).st = .training ∧ (∀ m, m ≠ l → linkAt t m = linkAt s m) ∧ t.slots = s.slots ∧ t.mem = s.mem)
    ∧ ((linkAt s l).st ≠ .down → exec (.linkTrainRetry l) s = .next s))
  ∧ (∀ (l : Nat) (s : State),
    ((linkAt s l).st = .training →
      ∃ t, exec (.trainFail l) s = .next t ∧ (linkAt t l).st = .down ∧ (getFlag t (offLnkEvents l) 2).on = true ∧ (∀ m, m ≠ l → linkAt t m = linkAt s m) ∧ t.slots = s.slots ∧ t.mem = s.mem)
    ∧ ((linkAt s l).st ≠ .training → exec (.trainFail l) s = .next s))
  ∧ (∀ (l : Nat) (r : TrainResult) (s : State),
    ((linkAt s l).st = .training → (r.lanes % 16 = 15 ∨ lanePair r.lanes ≠ 0) →
      ∃ t, exec (.trainingComplete l r) s = .next t
        ∧ (linkAt t l).st = (if r.lanes % 16 = 15 then .up else .half) ∧ (linkAt t l).lanes = (if r.lanes % 16 = 15 then 15 else lanePair r.lanes)
        ∧ (linkAt t l).peer = r.peer ∧ (linkAt t l).expected = 0 ∧ (linkAt t l).nextSeq = 0 ∧ (linkAt t l).replay = []
        ∧ (linkAt t l).mapOk = (r.mapDigestAgrees && r.peerTrusted) ∧ ((linkAt t l).mapOk = false → (getFlag t (offLnkEvents l) 7).on = true)
        ∧ (flowAt t l).ctrlCredit = 64 ∧ (flowAt t l).migrCredit = 192 ∧ (flowAt t l).bulkCredit = 128 ∧ t.slots = s.slots ∧ t.mem = s.mem)
    ∧ (((linkAt s l).st ≠ .training ∨ (r.lanes % 16 ≠ 15 ∧ lanePair r.lanes = 0)) → exec (.trainingComplete l r) s = .next s))
  ∧ (∀ (l lane : Nat) (s : State),
    ((linkAt s l).st = .up →
      ∃ t, exec (.laneFail l lane) s = .next t ∧ (linkAt t l).st = .retrain ∧ (linkAt t l).lanes = withoutLane (linkAt s l).lanes lane
        ∧ (getFlag t (offLnkEvents l) 0).on = true ∧ (flowAt t l).words = (flowAt s l).words ++ [.laneFailed lane] ∧ t.slots = s.slots ∧ t.mem = s.mem)
    ∧ ((linkAt s l).st = .half → bitOf (linkAt s l).lanes lane = true →
      ∃ t, exec (.laneFail l lane) s = .next t ∧ (linkAt t l).st = .lost ∧ (linkAt t l).lanes = 0 ∧ (getFlag t (offLnkEvents l) 0).on = true
        ∧ (getFlag t (offLnkEvents l) 1).on = true ∧ t.slots = s.slots ∧ t.mem = s.mem)
    ∧ (((linkAt s l).st = .half ∧ bitOf (linkAt s l).lanes lane = false ∨ (linkAt s l).st = .retrain) →
      ∃ t, exec (.laneFail l lane) s = .next t ∧ linkAt t l = { linkAt s l with widenAt := none, lanes := withoutLane (linkAt s l).lanes lane }
        ∧ (getFlag t (offLnkEvents l) 0).on = true ∧ (flowAt t l).words = (flowAt s l).words ++ [.laneFailed lane] ∧ t.slots = s.slots ∧ t.mem = s.mem)
    ∧ ((linkAt s l).st ≠ .up → (linkAt s l).st ≠ .half → (linkAt s l).st ≠ .retrain → exec (.laneFail l lane) s = .next s))
  ∧ (∀ (l : Nat) (s : State),
    ((linkAt s l).st = .retrain → lanePair (linkAt s l).lanes ≠ 0 →
      ∃ t, exec (.retrainDone l) s = .next t ∧ (linkAt t l).st = .half ∧ (linkAt t l).lanes = lanePair (linkAt s l).lanes ∧ (flowAt t l).resend = (linkAt s l).replay
        ∧ t.slots = s.slots ∧ t.mem = s.mem)
    ∧ (((linkAt s l).st ≠ .retrain ∨ lanePair (linkAt s l).lanes = 0) → exec (.retrainDone l) s = .next s))
  ∧ (∀ (l : Nat) (s : State),
    ((linkAt s l).st = .retrain →
      ∃ t, exec (.retrainTimeout l) s = .next t ∧ (linkAt t l).st = .lost ∧ (linkAt t l).lanes = 0 ∧ (getFlag t (offLnkEvents l) 1).on = true ∧ t.slots = s.slots ∧ t.mem = s.mem)
    ∧ ((linkAt s l).st ≠ .retrain → exec (.retrainTimeout l) s = .next s))
  ∧ (∀ (l : Nat) (s : State), exec (.halfRetrain l) s = .next s)
  ∧ (∀ (l : Nat) (s : State),
    ((linkAt s l).st = .half → (linkAt s l).fencedLanes = [] → (linkAt s l).widenAt = none →
      (s.sched.base = none → ∃ t, exec (.laneRepairDone l) s = .next t ∧ (linkAt t l).st = .up ∧ (linkAt t l).lanes = 15 ∧ (getFlag t (offLnkEvents l) 9).on = true ∧ t.slots = s.slots ∧ t.mem = s.mem)
      ∧ (∀ img, s.sched.base = some img →
        ∃ t, exec (.laneRepairDone l) s = .next t ∧ linkAt t l = { linkAt s l with widenAt := some (boundaryAfter img img.fallbackLead s) } ∧ t.slots = s.slots ∧ t.mem = s.mem))
    ∧ (((linkAt s l).st ≠ .half ∨ (linkAt s l).fencedLanes ≠ [] ∨ (linkAt s l).widenAt ≠ none) → exec (.laneRepairDone l) s = .next s))
  ∧ (∀ (l : Nat) (s : State),
    (linkUp s l = true → ∃ t, exec (.linkPortReset l) s = .next t ∧ (linkAt t l).st = .down ∧ (linkAt t l).lanes = 0 ∧ flowAt t l = flowAt s l ∧ t.slots = s.slots ∧ t.mem = s.mem)
    ∧ (linkUp s l = false → exec (.linkPortReset l) s = .next s))

/-- A frame whose fields fit reads back from its bytes, with both CRCs holding. On an up link a sound frame in sequence is acknowledged and the next one expected; the payload of a SCHED frame for this device, of this step and a run that stands, lands in the region of its transfer and nowhere else in any region. A header whose CRC fails, or a payload whose CRC fails in sequence, is answered with a NAK of the frame expected; a later frame too, once; an earlier one is dropped. Credits come back up to their full counts; an ACK ends a run of NAKs; a NAK but the eighth in a row has the replay buffer resent from its frame; a failed lane the peer tells of makes an UP link retrain. At a frame boundary, unless the link is busy, pending control words leave first, then a frame to be resent, then, with no image active and no frame of another class waiting, the first BULK frame whose credit and room allow it, with the link's next sequence number. A link that is not up receives nothing and sends nothing. -/
def Obligations.FramesInSequence : Prop :=
  (∀ f : LinkFrame, f.cls < 256 → f.type < 256 → f.len < 65536 → f.linkSeq < 2 ^ 32 → f.step < 2 ^ 32 → f.id < 65536 → f.frame < 65536 → f.run < 256 → f.flags < 256 →
      f.src < 4096 → f.dst < 4096 → f.epoch < 2 ^ 32 → f.payload.length = f.len →
    readFrame (frameBytes f) = { f with hcrcOk := true, pcrcOk := true })
  ∧ (∀ (l : Nat) (b : Bytes) (f : LinkFrame) (slack : Int) (c u : Nat) (s : State), readFrame b = f → linkUp s l = true → f.hcrcOk = true → f.pcrcOk = true → f.linkSeq = (linkAt s l).expected →
    ∃ t, exec (.frameReceive l b slack c u) s = .next t ∧ (linkAt t l).expected = ((linkAt s l).expected + 1) % 2 ^ 32 ∧ (linkAt t l).nakOut = false
      ∧ .ack f.linkSeq ∈ (flowAt t l).words ∧ (linkAt t l).fecCorrected = c ∧ t.slots = s.slots ∧ t.mem = s.mem)
  ∧ (∀ (l : Nat) (b : Bytes) (f : LinkFrame) (slack : Int) (c u : Nat) (img : Image) (tr : Transfer) (g : Region) (s : State), readFrame b = f → linkUp s l = true → f.hcrcOk = true → f.pcrcOk = true →
      f.linkSeq = (linkAt s l).expected → f.dst = ownIndex s → f.cls = 0 → killedRun s f = false → transferImage s f.id = some img →
      img.transfers.find? (fun t => t.id == f.id && t.dir == 1) = some tr → f.step = s.sched.step % 2 ^ 32 → regionAt s tr.region = some g →
      4096 * f.frame + f.payload.length ≤ g.length → Memory.wf (storeAt s tr.region).now = true → Memory.wf (storeAt s tr.region).before = true →
    ∃ t, exec (.frameReceive l b slack c u) s = .next t ∧ regionBytes (storeAt t tr.region) (4096 * f.frame) f.payload.length = f.payload
      ∧ (∀ k a, k ≠ tr.region ∨ a < 4096 * f.frame ∨ 4096 * f.frame + f.payload.length ≤ a → regionByte (storeAt t k) a = regionByte (storeAt s k) a))
  ∧ (∀ (l : Nat) (b : Bytes) (f : LinkFrame) (slack : Int) (c u : Nat) (s : State), readFrame b = f → linkUp s l = true →
      (f.hcrcOk = false ∨ (f.linkSeq = (linkAt s l).expected ∧ f.pcrcOk = false)
        ∨ (f.linkSeq ≠ (linkAt s l).expected ∧ (f.linkSeq + 2 ^ 32 - (linkAt s l).expected) % 2 ^ 32 < 2 ^ 31 ∧ (linkAt s l).nakOut = false)) →
    ∃ t, exec (.frameReceive l b slack c u) s = .next t ∧ (linkAt t l).expected = (linkAt s l).expected ∧ (linkAt t l).nakOut = true
      ∧ (flowAt t l).words = (flowAt s l).words ++ [.nak (linkAt s l).expected] ∧ t = { s with links := t.links })
  ∧ (∀ (l : Nat) (b : Bytes) (f : LinkFrame) (slack : Int) (c u : Nat) (s : State), readFrame b = f → linkUp s l = true → f.hcrcOk = true → f.linkSeq ≠ (linkAt s l).expected →
      (2 ^ 31 ≤ (f.linkSeq + 2 ^ 32 - (linkAt s l).expected) % 2 ^ 32 ∨ (linkAt s l).nakOut = true) →
    ∃ t, exec (.frameReceive l b slack c u) s = .next t ∧ (linkAt t l).expected = (linkAt s l).expected ∧ flowAt t l = flowAt s l ∧ t = { s with links := t.links })
  ∧ (∀ (l : Nat) (b : Bytes) (slack : Int) (c u phase worst : Nat) (w : ControlWord) (s : State), linkUp s l = false →
    exec (.frameReceive l b slack c u) s = .next s ∧ exec (.controlWord l w worst) s = .next s ∧ exec (.frameTransmit l phase []) s = .next s)
  ∧ (∀ (l c m b w : Nat) (s : State), linkUp s l = true →
    ∃ t, exec (.controlWord l (.credit c m b) w) s = .next t
      ∧ flowAt t l = { flowAt s l with ctrlCredit := min 64 ((flowAt s l).ctrlCredit + c), migrCredit := min 192 ((flowAt s l).migrCredit + m), bulkCredit := min 128 ((flowAt s l).bulkCredit + b) }
      ∧ t = { s with links := t.links })
  ∧ (∀ (l seq w : Nat) (s : State), linkUp s l = true →
    (∃ t, exec (.controlWord l (.ack seq) w) s = .next t
      ∧ flowAt t l = { flowAt s l with nakRun := if (flowAt s l).nakSeq = seq then 0 else (flowAt s l).nakRun } ∧ t = { s with links := t.links })
    ∧ (¬ ((flowAt s l).nakSeq = seq ∧ (flowAt s l).nakRun = 7) →
      ∃ t, exec (.controlWord l (.nak seq) w) s = .next t
        ∧ (flowAt t l).resend = (linkAt s l).replay.filter (fun g => decide ((g.linkSeq + 2 ^ 32 - seq) % 2 ^ 32 < 2 ^ 31))
        ∧ (flowAt t l).nakSeq = seq ∧ t = { s with links := t.links })
    ∧ ((linkAt s l).st = .up → ∃ t, exec (.controlWord l (.laneFailed seq) w) s = .next t ∧ (linkAt t l).st = .retrain
        ∧ (linkAt t l).lanes = withoutLane (linkAt s l).lanes seq ∧ (getFlag t (offLnkEvents l) 0).on = true))
  ∧ (∀ (l phase : Nat) (queued : List LinkFrame) (s : State), linkUp s l = true → s.cad.beat * 4096 + phase % 4096 < (flowAt s l).busyUntil →
    ∃ t, exec (.frameTransmit l phase queued) s = .next t ∧ t = { s with links := t.links })
  ∧ (∀ (l phase : Nat) (queued : List LinkFrame) (s : State), linkUp s l = true → (flowAt s l).words ≠ [] → (flowAt s l).busyUntil ≤ s.cad.beat * 4096 + phase % 4096 →
    ∃ t, exec (.frameTransmit l phase queued) s = .next t ∧ t.out.msgs = s.out.msgs ++ (flowAt s l).words.map (fun w => .control l w) ∧ (flowAt t l).words = []
      ∧ t = { s with links := t.links, out := t.out })
  ∧ (∀ (l phase : Nat) (queued : List LinkFrame) (g : LinkFrame) (rest : List LinkFrame) (s : State), linkUp s l = true → (flowAt s l).words = [] → (flowAt s l).resend = g :: rest →
      (flowAt s l).busyUntil ≤ s.cad.beat * 4096 + phase % 4096 →
    ∃ t, exec (.frameTransmit l phase queued) s = .next t ∧ t.out.msgs = s.out.msgs ++ [.frame l (frameBytes g)] ∧ (flowAt t l).resend = rest
      ∧ (linkAt t l).retry = satAdd (2 ^ 64 - 1) (linkAt s l).retry 1 ∧ (getFlag t (offLnkEvents l) 3).on = true ∧ t.slots = s.slots ∧ t.mem = s.mem)
  ∧ (∀ (l phase : Nat) (q : Queued) (rest : List Queued) (s : State), linkUp s l = true → s.sched.active = none → (flowAt s l).words = [] → (flowAt s l).resend = [] →
      (flowAt s l).busyUntil ≤ s.cad.beat * 4096 + phase % 4096 → (flowAt s l).sched = [] → (flowAt s l).ctrl = [] → (flowAt s l).migr = [] → (flowAt s l).bulk = q :: rest →
      0 < (flowAt s l).bulkCredit → q.via = none → linkCarries s l q.frame = true → s.cad.beat * 4096 + phase % 4096 + occupancy s l q.frame.len < 2 ^ 80 →
    ∃ t, exec (.frameTransmit l phase []) s = .next t ∧ t.out.msgs = s.out.msgs ++ [.frame l (frameBytes { q.frame with linkSeq := (linkAt s l).nextSeq })]
      ∧ (flowAt t l).bulk = rest ∧ (flowAt t l).bulkCredit = (flowAt s l).bulkCredit - 1 ∧ (linkAt t l).nextSeq = ((linkAt s l).nextSeq + 1) % 2 ^ 32
      ∧ t = { s with links := t.links, out := t.out })

/-! ### Power-on, resets, the host -/

/-- The boot. A qualified power-on before power, after a trip or a finished stop: with a good firmware slot and factory data it counts a boot and stands in phase 1 on a good slot; with no good slot in phase 5, with bad factory data in phase 6; at any other time it is ignored. Firmware starts in phase 1 only: it goes to phase 3, and the beat count of a device in UNLOCKED or ACQUIRING restarts. The end of training, in phase 3 only, zeroes memory and makes the device READY, T1 at most the HBM beside the descriptor table, T2 at most the DIMMs. A device reset is ignored before power-on, after a trip, with the rails off or in STOPPING, else it starts from phase 1, keeping the stop record. The watchdog, in phases 2 to 4 with the rails on and no stop, leaves the work standing where the slot takes over, else resets; at other times nothing. THERMTRIP turns every rail off. -/
def Obligations.BootAndResets : Prop :=
  (∀ (closed a b factory o : Bool) (s : State),
    ((s.svc.phase = 0 ∨ s.sup.tripped = true ∨ s.sup.stopStage = 4) →
      ∃ t, exec (.powerOnQualified closed a b factory o) s = .next t ∧ t.mem = [] ∧ t.slots = {} ∧ t.pending = s.pending ∧ t.sec.bootCount = s.sec.bootCount + 1 ∧ t.svc.resetKind = 1
        ∧ t.svc.phase = (if factory = false then 6 else if a = false ∧ b = false then 5 else 1)
        ∧ (t.svc.phase = 1 → (if t.svc.running = 0 then a else b) = true))
    ∧ (s.svc.phase ≠ 0 → s.sup.tripped = false → s.sup.stopStage ≠ 4 → exec (.powerOnQualified closed a b factory o) s = .next s))
  ∧ (∀ (cal : Bool) (units : List (Nat × Nat)) (s : State),
    (s.svc.phase = 1 → ∃ t, exec (.firmwareStart cal units) s = .next t ∧ t.svc.phase = 3 ∧ t.svc.stopFlag = false ∧ t.host.stopped = false ∧ t.mem = s.mem ∧ t.slots = s.slots
      ∧ ((s.cad.st = .unlocked ∨ s.cad.st = .acquiring) → t.cad.beat = 0))
    ∧ (s.svc.phase ≠ 1 → exec (.firmwareStart cal units) s = .next s))
  ∧ (∀ (t1 t2 : Nat) (ddr failing : List (Nat × Nat)) (s : State),
    (s.svc.phase = 3 → ∃ t, exec (.trainingDone t1 t2 ddr failing) s = .next t ∧ t.svc.phase = 4
      ∧ (failing = [] → t.mem = [] ∧ t.tier.t1Total = min t1 (382 * 1024) ∧ t.tier.t2Total = min t2 (t.tier.ddr.foldl (fun n e => n + e.2.sizeGiB * 1024) 0)
        ∧ t = { s with svc := t.svc, mem := [], tier := t.tier }))
    ∧ (s.svc.phase ≠ 3 → exec (.trainingDone t1 t2 ddr failing) s = .next s))
  ∧ (∀ (a b f : Bool) (s : State),
    ((s.svc.phase = 0 ∨ s.sup.tripped = true ∨ s.sup.railsOff = true ∨ s.sup.st = .stopping) → exec (.deviceReset a b f) s = .next s)
    ∧ (s.svc.phase ≠ 0 → s.sup.tripped = false → s.sup.railsOff = false → s.sup.st ≠ .stopping →
      ∃ t, exec (.deviceReset a b f) s = .next t ∧ t.svc.phase = (if f = false then 6 else if a = false ∧ b = false then 5 else 1) ∧ t.mem = [] ∧ t.slots = {} ∧ t.commands = []
        ∧ t.sec.bound = false ∧ t.sec.bootCount = s.sec.bootCount + 1 ∧ t.svc.stopRecord = s.svc.stopRecord ∧ t.pending = s.pending))
  ∧ (∀ (ok_ : Bool) (s : State),
    (2 ≤ s.svc.phase → s.svc.phase ≤ 4 → s.sup.railsOff = false → s.sup.st ≠ .stopping →
      ∃ t, exec (.watchdogExpiry ok_) s = .next t
        ∧ (ok_ = true → t.sec.measuring = true ∧ t.slots = s.slots ∧ t.mem = s.mem ∧ t.sched = s.sched ∧ t.commands = s.commands)
        ∧ (ok_ = false → t.svc.phase = 1 ∧ t.mem = [] ∧ t.slots = {} ∧ t.commands = []))
    ∧ ((s.svc.phase < 2 ∨ 4 < s.svc.phase ∨ s.sup.railsOff = true ∨ s.sup.st = .stopping) → exec (.watchdogExpiry ok_) s = .next s))
  ∧ (∀ (v : Nat) (s : State), ∃ t, exec (.thermtrip v) s = .next t ∧ t.svc.phase = 0 ∧ t.sup.tripped = true ∧ t.sup.railsOff = true ∧ t.mem = [] ∧ t.host.stopped = true ∧ t.evr = s.evr)

/-- The loss of the host in phases 2 to 4, once a reply ring has been set and while it is not lost already, stops recognition, holds sessions, and suspends payload keys while a tenant is bound; at any other time nothing happens. Re-enumeration from phase 2 on clears every ring and leaves only client 0 running; before it does nothing. A reset of virtual function 1 to 255 makes its client's ring invalid, and stops at once a client with no command; of function 0, or a number above 255, it does nothing. VF Enable is what the host writes. -/
def Obligations.HostComesAndGoes : Prop :=
  (∀ (cause : Nat) (s : State),
    (s.host.ringEverSet = true → s.host.lost = false → 2 ≤ s.svc.phase → s.svc.phase ≤ 4 →
      ∃ t, exec (.hostLoss cause) s = .next t ∧ t.host.lost = true ∧ t.host.stopped = true ∧ t.host.held = true ∧ (s.sec.bound = true → t.sec.suspended = true) ∧ t.out.replies = s.out.replies)
    ∧ ((s.host.ringEverSet = false ∨ s.host.lost = true ∨ s.svc.phase < 2 ∨ 4 < s.svc.phase) → exec (.hostLoss cause) s = .next s))
  ∧ (∀ s : State,
    (2 ≤ s.svc.phase → ∃ t, exec .hostPortReset s = .next t ∧ t.host.lost = false ∧ t.host.vfEnable = false
      ∧ (∀ n c, FMap.get? t.clients n = some c → c.run = (n == 0) ∧ c.base = 0 ∧ c.scan = 0 ∧ c.inflight = 0 ∧ c.recognised = []))
    ∧ (s.svc.phase < 2 → exec .hostPortReset s = .next s))
  ∧ (∀ (n : Nat) (s : State), (n = 0 ∨ 255 < n) → exec (.vfFlr n) s = .next s)
  ∧ (∀ (n : Nat) (s : State), n ≠ 0 → n ≤ 255 → (clientOf s n).inflight = 0 → (clientOf s n).recognised = [] → (∀ c ∈ s.commands, c.origin.client ≠ n) →
    ∃ t, exec (.vfFlr n) s = .next t ∧ (clientOf t n).run = false ∧ (clientOf t n).base = 0 ∧ (∀ m, m ≠ n → clientOf t m = clientOf s m) ∧ t.slots = s.slots)
  ∧ (∀ (on : Bool) (s : State), exec (.vfEnable on) s = .next { s with host := { s.host with vfEnable := on } })

/-! ### Errors, fencing and repair in service -/

/-- UNIT_FENCE refuses an unknown unit kind, a restore of anything but a link lane, and an identity out of range; of a core that is fenced already it is OK, else the core is on the fenced list or its Block fenced whole; of a Block already fenced it is OK, else the fence is planned or done; a link lane joins the fenced lanes and a restore takes it off; a channel is in copy, due, spared or lost. A channel's failure starts the copy into a free reserve, and a number out of range is ignored; the copy's end waits for the boundary while an image is active. A Block is reset when a sequencer misses, not one already reset or fenced; a failed self-test fences it whole; a passed one has it back at once with no base image, else at the boundary of its plan; a Block that is not in reset ignores it. -/
def Obligations.UnitsFencedAndSpared : Prop :=
  (∀ (p : Packet) (s t : State), opcodeOf p = 0x72 → passes never p s = some t →
    ((argOf p 20 1 = 0 ∨ 4 < argOf p 20 1) → exec (.unitFence p) s = .next (answered p (bad 0x14) t))
    ∧ (1 ≤ argOf p 20 1 → argOf p 20 1 ≤ 4 → argOf p 20 1 ≠ 3 → bitOf (argOf p 21 1) 1 = true → exec (.unitFence p) s = .next (answered p (bad 0x15) t))
    ∧ ((argOf p 20 1 = 1 ∨ argOf p 20 1 = 2) → bitOf (argOf p 21 1) 1 = false → 16 ≤ argOf p 24 4 / 512 → exec (.unitFence p) s = .next (answered p (bad 0x18) t))
    ∧ (argOf p 20 1 = 3 → (0x400 ≤ argOf p 24 4 ∨ argOf p 24 4 / 32 % 8 ≠ 0) → exec (.unitFence p) s = .next (answered p (bad 0x18) t))
    ∧ (argOf p 20 1 = 4 → bitOf (argOf p 21 1) 1 = false → 256 ≤ argOf p 24 4 → exec (.unitFence p) s = .next (answered p (bad 0x18) t)))
  ∧ (∀ (p : Packet) (d b c : Nat) (s t : State), opcodeOf p = 0x72 → passes never p s = some t → argOf p 20 1 = 1 → bitOf (argOf p 21 1) 1 = false →
      argOf p 24 4 = d * 512 + b * 32 + c → d < 16 → b < 16 → c < 32 →
    (((blockAt t d b).wholeFenced = true ∨ (c ∈ (blockAt t d b).fenced ∧ ∀ f ∈ (blockAt t d b).pendingFence, f.1 ≠ c)) → exec (.unitFence p) s = .next (answered p ok t))
    ∧ ∃ u, exec (.unitFence p) s = .next u ∧ ((blockAt u d b).wholeFenced = true ∨ c ∈ (blockAt u d b).fenced) ∧ u.mem = t.mem)
  ∧ (∀ (p : Packet) (d b : Nat) (s t : State), opcodeOf p = 0x72 → passes never p s = some t → argOf p 20 1 = 2 → bitOf (argOf p 21 1) 1 = false →
      argOf p 24 4 / 512 = d → argOf p 24 4 / 32 % 16 = b → d < 16 →
    ((blockAt t d b).wholeFenced = true → exec (.unitFence p) s = .next (answered p ok t))
    ∧ ∃ u, exec (.unitFence p) s = .next u ∧ ((blockAt u d b).wholeFenced = true ∨ (blockAt u d b).fenceDue ≠ none) ∧ u.mem = t.mem)
  ∧ (∀ (p : Packet) (s t : State), opcodeOf p = 0x72 → passes never p s = some t → argOf p 20 1 = 3 → argOf p 24 4 < 0x400 → argOf p 24 4 / 32 % 8 = 0 →
    ∃ u, exec (.unitFence p) s = .next u ∧ u.mem = t.mem
      ∧ (argOf p 24 4 / 256 ∈ (linkAt u (argOf p 24 4 % 32)).fencedLanes ↔ bitOf (argOf p 21 1) 1 = false))
  ∧ (∀ (p : Packet) (k c : Nat) (s t : State), opcodeOf p = 0x72 → passes never p s = some t → argOf p 20 1 = 4 → bitOf (argOf p 21 1) 1 = false → argOf p 24 4 = k * 32 + c → k < 8 → c < 32 →
    ∃ u, exec (.unitFence p) s = .next u ∧ ((hbmOf u k).copying = some c ∨ (hbmOf u k).due = some c ∨ (hbmOf u k).used = c + 1 ∨ c ∈ (hbmOf u k).lost))
  ∧ (∀ (k c : Nat) (s : State),
    (k < 8 → c < 32 → (hbmOf s k).used = 0 → (hbmOf s k).copying = none → (hbmOf s k).due = none → c ∉ (hbmOf s k).lost →
      exec (.hbmSpareStart k c) s = .next (modHbm k (fun h => { h with copying := some c }) s))
    ∧ ((hbmOf s k).used = c + 1 ∨ (hbmOf s k).copying = some c ∨ (hbmOf s k).due = some c ∨ c ∈ (hbmOf s k).lost ∨ 8 ≤ k ∨ 32 ≤ c → exec (.hbmSpareStart k c) s = .next s))
  ∧ (∀ (k c : Nat) (s : State),
    ((hbmOf s k).copying = some c → s.sched.active ≠ none → exec (.hbmSpareCopyDone k) s = .next (modHbm k (fun h => { h with copying := none, due := some c }) s))
    ∧ ((hbmOf s k).copying = some c → s.sched.active = none → ∃ t, exec (.hbmSpareCopyDone k) s = .next t ∧ (hbmOf t k).used = c + 1 ∧ (hbmOf t k).due = none)
    ∧ ((hbmOf s k).copying = none → exec (.hbmSpareCopyDone k) s = .next s))
  ∧ (∀ (d b : Nat) (s : State),
    ((blockAt s d b).resetting = false → (blockAt s d b).wholeFenced = false →
      ∃ t, exec (.blockPartialReset d b) s = .next t ∧ (blockAt t d b).resetting = true ∧ (blockAt t d b).rejoinAt = none ∧ t.mem = s.mem)
    ∧ (((blockAt s d b).resetting = true ∨ (blockAt s d b).wholeFenced = true) → exec (.blockPartialReset d b) s = .next s))
  ∧ (∀ (d b : Nat) (s : State),
    ((blockAt s d b).resetting = true → (blockAt s d b).wholeFenced = false →
      ∃ t, exec (.blockSelfTestDone d b false) s = .next t ∧ (blockAt t d b).wholeFenced = true ∧ (blockAt t d b).resetting = false ∧ (getFlag t (offDstEvents d) 4).on = true)
    ∧ ((blockAt s d b).resetting = true → s.sched.base = none → exec (.blockSelfTestDone d b true) s = .next (modBlock d b (fun k => { k with resetting := false, rejoinAt := none }) s))
    ∧ (∀ img, (blockAt s d b).resetting = true → s.sched.base = some img →
      ∃ t, exec (.blockSelfTestDone d b true) s = .next t ∧ blockAt t d b = { blockAt s d b with rejoinAt := some (boundaryAfter img img.fallbackLead s) })
    ∧ (∀ ok_, (blockAt s d b).resetting = false → exec (.blockSelfTestDone d b ok_) s = .next s))

/-- The service of a DIMM. EVACUATE and ADMIT refuse a channel above 11, EVACUATE an unknown action; both are busy while a channel is in service or this one is in another state. EVACUATE of an ACTIVE channel is accepted and, while an image is active, the channel empties in its own time; ADMIT of an OFF channel is accepted and powers it. Then the detection, the training and the scrub follow one another, each ignored in another stage: a size of 1 to 256 GiB goes on to training; training done, to the scrub, with a key for the channel while a tenant is bound; the scrub ends with the room joined to T2 and the command answered. A detection or training that fails leaves the channel OFF. A DIMM or its power that goes leaves the channel OFF too; a reset controller is back when it answers in time, OFF when not; a new DIMM in a channel never used is OFF. Other events of a channel change nothing. -/
def Obligations.DimmsServed : Prop :=
  (∀ (p : Packet) (s t : State), opcodeOf p = 0x73 → argOf p 21 1 ≠ 2 → passes never p s = some t →
    (11 < argOf p 20 1 → exec (.dimmEvacuate p) s = .next (answered p (bad 0x14) t))
    ∧ (argOf p 20 1 ≤ 11 → argOf p 21 1 ≠ 1 → exec (.dimmEvacuate p) s = .next (answered p (bad 0x15) t))
    ∧ (argOf p 20 1 ≤ 11 → argOf p 21 1 = 1 → (dimmBusy t = true ∨ (ddrAt t (argOf p 20 1)).state ≠ 1) → exec (.dimmEvacuate p) s = .next (answered p (busy 0xFFFF) t))
    ∧ (argOf p 20 1 ≤ 11 → argOf p 21 1 = 1 → dimmBusy t = false → (ddrAt t (argOf p 20 1)).state = 1 → t.sched.active ≠ none →
      ∃ u, exec (.dimmEvacuate p) s = .next u ∧ (ddrAt u (argOf p 20 1)).state = 2 ∧ commandOf u (.dimm (argOf p 20 1)) ≠ none ∧ u.mem = t.mem))
  ∧ (∀ (p : Packet) (c : Nat) (s t : State), opcodeOf p = 0x73 → argOf p 21 1 = 2 → passes never p s = some t → argOf p 20 1 = c →
    (11 < c → exec (.dimmAdmit p) s = .next (answered p (bad 0x14) t))
    ∧ (c ≤ 11 → (dimmBusy t = true ∨ (ddrAt t c).state ≠ 3) → exec (.dimmAdmit p) s = .next (answered p (busy 0xFFFF) t))
    ∧ (c ≤ 11 → dimmBusy t = false → (ddrAt t c).state = 3 →
      ∃ u, exec (.dimmAdmit p) s = .next u ∧ ddrAt u c = { ddrAt t c with state := 4, pwrEn := true, stage := 1 } ∧ commandOf u (.dimm c) ≠ none ∧ u.mem = t.mem))
  ∧ (∀ (c n : Nat) (good : Bool) (s : State),
    ((ddrAt s c).state = 4 → (ddrAt s c).stage = 1 → 0 < n → n ≤ 256 → exec (.dimmSpdRead c n true) s = .next (modDdr c (fun d => { d with stage := 2, sizeGiB := n }) s))
    ∧ ((ddrAt s c).state = 4 → (ddrAt s c).stage = 1 → (good = false ∨ n = 0 ∨ 256 < n) →
      ∃ t, exec (.dimmSpdRead c n good) s = .next t ∧ (ddrAt t c).state = 3 ∧ (ddrAt t c).pwrEn = false ∧ commandOf t (.dimm c) = none)
    ∧ (((ddrAt s c).state ≠ 4 ∨ (ddrAt s c).stage ≠ 1) → exec (.dimmSpdRead c n good) s = .next s))
  ∧ (∀ (c : Nat) (good : Bool) (s : State),
    ((ddrAt s c).state = 4 → (ddrAt s c).stage = 2 → s.sec.bound = false → exec (.dimmTrainDone c true) s = .next (modDdr c (fun d => { d with stage := 3 }) s))
    ∧ ((ddrAt s c).state = 4 → (ddrAt s c).stage = 2 → s.sec.bound = true →
      ∃ t, exec (.dimmTrainDone c true) s = .next t ∧ ddrAt t c = { ddrAt s c with stage := 3 } ∧ FMap.get? t.secw.channelKeys c ≠ none ∧ t.mem = s.mem ∧ t.slots = s.slots)
    ∧ ((ddrAt s c).state = 4 → (ddrAt s c).stage = 2 →
      ∃ t, exec (.dimmTrainDone c false) s = .next t ∧ (ddrAt t c).state = 3 ∧ (ddrAt t c).pwrEn = false ∧ commandOf t (.dimm c) = none)
    ∧ (((ddrAt s c).state ≠ 4 ∨ (ddrAt s c).stage ≠ 2) → exec (.dimmTrainDone c good) s = .next s))
  ∧ (∀ (c : Nat) (s : State),
    ((ddrAt s c).state = 4 → (ddrAt s c).stage = 3 →
      ∃ t, exec (.dimmScrubDone c) s = .next t ∧ (ddrAt t c).state = 1 ∧ t.tier.t2Total = s.tier.t2Total + (ddrAt s c).sizeGiB * 1024 ∧ commandOf t (.dimm c) = none)
    ∧ (((ddrAt s c).state ≠ 4 ∨ (ddrAt s c).stage ≠ 3) → exec (.dimmScrubDone c) s = .next s))
  ∧ (∀ (c : Nat) (s : State),
    (((ddrAt s c).state = 1 ∨ (ddrAt s c).state = 2) → ∃ t, exec (.ddrControllerReset c) s = .next t ∧ (ddrAt t c).restarting = true ∧ t.slots = s.slots ∧ t.mem = s.mem)
    ∧ ((ddrAt s c).state ≠ 1 → (ddrAt s c).state ≠ 2 → exec (.ddrControllerReset c) s = .next s))
  ∧ (∀ (c : Nat) (ok_ : Bool) (s : State),
    ((ddrAt s c).restarting = true → exec (.ddrControllerRestartEnd c true) s = .next (modDdr c (fun d => { d with restarting := false }) s))
    ∧ ((ddrAt s c).restarting = true → ∃ t, exec (.ddrControllerRestartEnd c false) s = .next t ∧ (ddrAt t c).state = 3 ∧ (ddrAt t c).pwrEn = false)
    ∧ ((ddrAt s c).restarting = false → exec (.ddrControllerRestartEnd c ok_) s = .next s))
  ∧ (∀ (c : Nat) (here : Bool) (s : State),
    (c ≤ 11 → (ddrAt s c).state = 0 → exec (.ddrPresenceChange c here) s = .next (modDdr c (fun d => { d with state := 3 }) s))
    ∧ (c ≤ 11 → ((ddrAt s c).state = 1 ∨ (ddrAt s c).state = 2 ∨ (ddrAt s c).state = 4) →
      ∃ t, exec (.ddrPresenceChange c false) s = .next t ∧ (ddrAt t c).state = 3 ∧ (ddrAt t c).pwrEn = false)
    ∧ ((11 < c ∨ (ddrAt s c).state = 3) → exec (.ddrPresenceChange c here) s = .next s)
    ∧ ((ddrAt s c).state ≠ 0 → exec (.ddrPresenceChange c true) s = .next s))
  ∧ (∀ (c : Nat) (s : State),
    ((ddrAt s c).pwrEn = true → ∃ t, exec (.ddrPgRelease c) s = .next t ∧ (ddrAt t c).state = 3 ∧ (ddrAt t c).pwrEn = false)
    ∧ ((ddrAt s c).pwrEn = false → exec (.ddrPgRelease c) s = .next s))

/-- Errors of memory. A first correctable error of a row of memories 0 to 5, or one more than 1,000,000 beats after the last, is remembered; a second one within them spares the row: of memories 0 to 3 at once while no image is active, else at the next boundary, of the others at the next device reset; another memory changes nothing. An uncorrectable error of a T1 frame retires it; of a descriptor rebuilds a live session with something to replay; of a capsule or a BAR read sets its flag; of one copy of a ledger segment has that copy written anew and only that; of counts, constraint state or the Unit store changes no session, frame or memory. A recall tail outside its window is refused, one inside moves the ring; a recall that times out loses the session, which no recall waits for any more. -/
def Obligations.MemoryErrorsHandled : Prop :=
  (∀ (memory row : Nat) (s : State),
    (memory ≤ 5 → (∀ b, FMap.get? s.tier.rows (memory * 2 ^ 32 + row) = some b → b + 1000000 < s.cad.beat) →
      exec (.correctableError memory row) s = .next { s with tier := { s.tier with rows := FMap.put s.tier.rows (memory * 2 ^ 32 + row) s.cad.beat } })
    ∧ (∀ b, memory ≤ 5 → FMap.get? s.tier.rows (memory * 2 ^ 32 + row) = some b → s.cad.beat ≤ b + 1000000 →
      ∃ t, exec (.correctableError memory row) s = .next t ∧ t.tier.rows = FMap.del s.tier.rows (memory * 2 ^ 32 + row) ∧ t = { s with tier := t.tier, svc := t.svc }
        ∧ (memory ≤ 3 → s.sched.active = none → t.tier.rowsSpared = s.tier.rowsSpared ++ [(memory, row)])
        ∧ (memory ≤ 3 → s.sched.active ≠ none → t.tier.rowsDue = s.tier.rowsDue ++ [(memory, row)] ∧ t.tier.rowsSpared = s.tier.rowsSpared)
        ∧ (3 < memory → (memory, row) ∈ t.svc.repairs ∧ t.tier.rowsSpared = s.tier.rowsSpared))
    ∧ (5 < memory → exec (.correctableError memory row) s = .next s))
  ∧ (∀ (a : Nat) (s : State), ∃ t, exec (.uncorrectableError (.frame a)) s = .next t ∧ a ∈ t.tier.retired ∧ (s.sched.active ≠ none → t.mem = s.mem))
  ∧ (∀ (n copy : Nat) (g : Segment) (s : State), FMap.get? s.slots.segments n = some g →
    ∃ t, exec (.uncorrectableError (.segmentOne n copy)) s = .next t ∧ (getFlag t offTierEvents 6).on = true ∧ t.slots.table = s.slots.table ∧ t.mem = s.mem ∧ t.tier = s.tier
      ∧ ∃ h, FMap.get? t.slots.segments n = some h ∧ (if copy = 1 then h.first = g.first else h.second = g.second))
  ∧ (∀ (slot : Nat) (s : State), ((sessionAt s slot).d.state = 1 ∨ (sessionAt s slot).d.state = 2 ∨ (sessionAt s slot).d.state = 3) →
      0 < replayStop (sessionAt (restoreHeader slot s) slot) →
    ∃ t, exec (.uncorrectableError (.descriptor slot)) s = .next t ∧ (sessionAt t slot).d.state = 7 ∧ (sessionAt t slot).pages = [])
  ∧ (∀ (a : Nat) (s : State),
    (∃ t, exec (.uncorrectableError (.capsule a)) s = .next t ∧ (getFlag t offTierEvents 3).on = true)
    ∧ (∃ t, exec (.uncorrectableError (.barRead a)) s = .next t ∧ (getFlag t offMgmtEvents 3).on = true))
  ∧ (∀ (slot : Nat) (e : ErrorPlace) (s : State), (e = .counts slot ∨ e = .constraint slot ∨ e = .unitStore) →
    ∃ t, exec (.uncorrectableError e) s = .next t ∧ t.slots = s.slots ∧ t.tier = s.tier ∧ t.fab = s.fab ∧ t.sched = s.sched ∧ t.mem = s.mem)
  ∧ (∀ (v : Word64) (found : List (Nat × Nat × Run × Bool)) (s : State), (v.toNat < s.tier.set.recallTail ∨ s.tier.set.recallHead + s.tier.set.recallSize < v.toNat) →
    exec (.recallTailWrite v found) s = .next (setFlag offMgmtEvents 1 s))
  ∧ (∀ (v : Word64) (found : List (Nat × Nat × Run × Bool)) (s : State), s.tier.set.recallTail ≤ v.toNat → v.toNat ≤ s.tier.set.recallHead + s.tier.set.recallSize →
    ∃ t, exec (.recallTailWrite v found) s = .next t ∧ t.tier.set.recallTail = v.toNat ∧ t.tier.set.recallHead = v.toNat
      ∧ (found = [] → t = { s with tier := { s.tier with set := { s.tier.set with recallTail := v.toNat, recallHead := v.toNat } } }))
  ∧ (∀ (slot : Nat) (s : State),
    (∀ l, FMap.get? s.tier.set.recalls slot = some l → (sessionAt s slot).d.state = 7 →
      ∃ t, exec (.recallTimeout slot) s = .next t ∧ (sessionAt t slot).d.state = 6 ∧ t.tier.set.recalls = FMap.del s.tier.set.recalls slot ∧ (s.sched.active ≠ none → t.mem = s.mem))
    ∧ (FMap.get? s.tier.set.recalls slot = none → exec (.recallTimeout slot) s = .next s))

/-! ### Registers -/

/-- A flag cleared by W1C or by its group reads 0 unless hardware sets it in the same cycle, and then it stays set and a W1C write counts the collision; every other flag stays. MGMT_FLAG_CNT is read for its selection. A read of the low half of CAD_BEAT latches the high half, which the next 4-byte read of it gives. The mask, the window enable and a client's aligned reply shadow take what is written; a shadow not aligned is refused. A BAR0 access of 1 or 2 bytes, or one not aligned, sets its flag, a read of it gives zeros; an aligned one of 4 or 8 is no bad access. A journal ACK moves between the old one and HEAD, else the write is refused. The closed window reads zeros and sets its flag, the open one reads State Space; a write to it sets a flag and nothing else. -/
def Obligations.RegistersReadAndWritten : Prop :=
  (∀ (off b : Nat) (mask hw : Word32) (s : State), b < flagBits off →
    ∃ t, exec (.flagClearW1c off mask hw) s = .next t
      ∧ (bitOf mask.toNat b = true → bitOf hw.toNat b = false → getFlag t off b = { getFlag s off b with on := false })
      ∧ (bitOf mask.toNat b = true → bitOf hw.toNat b = true → getFlag t off b =
          { on := true, sets := satAdd 0xFFFFFFFF (getFlag s off b).sets 1, collisions := satAdd 0xFFFFFFFF (getFlag s off b).collisions 1 })
      ∧ (bitOf mask.toNat b = false → getFlag t off b = getFlag s off b)
      ∧ (∀ off' b', off' ≠ off → b' < 64 → getFlag t off' b' = getFlag s off' b') ∧ t = { s with flags := t.flags, mgmt := t.mgmt, out := t.out })
  ∧ (∀ (groups : Nat) (hw : List (Nat × Nat)) (s : State), ∃ t, exec (.mgmtFlagClear groups hw) s = .next t
      ∧ (∀ off b g, flagGroup off = some g → b < flagBits off → bitOf groups g = true → (getFlag t off b).on = decide ((off, b) ∈ hw))
      ∧ (∀ off b g, flagGroup off = some g → b < 64 → bitOf groups g = false → getFlag t off b = getFlag s off b)
      ∧ t = { s with flags := t.flags, mgmt := t.mgmt, out := t.out } ∧ (hw = [] → t = { s with flags := t.flags }))
  ∧ (∀ s : State, exec .mgmtFlagCntRead s = .next { s with out := { s.out with reads := s.out.reads ++ [leBytes 8 (flagCounts s)] } })
  ∧ (∀ s : State, ∃ t, exec .cadBeatLowRead s = .next t ∧ t = { s with
      cad := { s.cad with beatLatch := s.cad.beat / 2 ^ 32, latched := true }, out := { s.out with reads := s.out.reads ++ [leBytes 4 (s.cad.beat % 2 ^ 32)] } }
      ∧ (read4 0x10014 t).1 = s.cad.beat / 2 ^ 32)
  ∧ (∀ (v : Word64) (s : State), exec (.registerWrite ⟨0x20, v⟩) s = .next { s with mgmt := { s.mgmt with mask := v.toNat % 512 } })
  ∧ (∀ (v : Word64) (s : State), exec (.registerWrite ⟨0x50, v⟩) s = .next { s with mgmt := { s.mgmt with winEnable := bitOf v.toNat 0 } })
  ∧ (∀ (n : Nat) (v : Word64) (s : State), n < 256 → exec (.registerWrite ⟨0x50020 + n * 0x40, v⟩) s =
      .next (if v.toNat % 8 = 0 then modClient n (fun c => { c with shadow := v.toNat }) s else setFlag offMgmtEvents 1 s))
  ∧ (∀ (off n : Nat) (w : Bool) (s : State),
      ((n = 4 ∨ n = 8) → off % n = 0 → exec (.badAccess off n w) s = .next s)
      ∧ (((n ≠ 4 ∧ n ≠ 8) ∨ off % n ≠ 0) →
        exec (.badAccess off n true) s = .next (setFlag offMgmtEvents 0 s)
        ∧ ∃ t, exec (.badAccess off n false) s = .next t ∧ t.out.reads = s.out.reads ++ [List.replicate n 0] ∧ (getFlag t offMgmtEvents 0).on = true))
  ∧ (∀ (v : Word64) (s : State), journalOn s = true → s.tier.set.journalAck ≤ v.toNat → v.toNat ≤ s.tier.set.journalHead →
      exec (.journalAckWrite v) s = .next { s with tier := { s.tier with set := { s.tier.set with journalAck := v.toNat } } })
  ∧ (∀ (v : Word64) (s : State), (journalOn s = false ∨ v.toNat < s.tier.set.journalAck ∨ s.tier.set.journalHead < v.toNat) → exec (.journalAckWrite v) s = .next (setFlag offMgmtEvents 1 s))
  ∧ (∀ (off n : Nat) (s : State), windowOpen s = false →
    ∃ t, exec (.windowRead off n) s = .next t ∧ t.out.reads = s.out.reads ++ [List.replicate (min n 4096) 0] ∧ (getFlag t offMgmtEvents 4).on = true ∧ t.mem = s.mem ∧ t.slots = s.slots)
  ∧ (∀ (off n : Nat) (s : State), windowOpen s = true →
    ∃ t, exec (.windowRead off n) s = .next t
      ∧ t.out.reads = s.out.reads ++ [(List.range (min n 4096)).map (fun i => spaceByte s (s.mgmt.winBase * 2 ^ 36 + off % 2 ^ 36 + i))] ∧ t.mem = s.mem ∧ t.slots = s.slots)
  ∧ (∀ (off : Nat) (s : State), exec (.windowWrite off) s = .next (setFlag offMgmtEvents 0 s))
end

