-- ==== Sys2Proof/Laws/Memory.lean ====
section
/-! SUPPORT. The memory of State Space frames: every operation keeps the canonical form (addresses strictly rising, no listed zero), a byte read after a write is the byte written, every other byte reads as before, and a cleared span reads zero (05 R132). -/

namespace Sys2Proof.Machine

/-- Every address of a list lies above a bound. -/
def Memory.above (m : List (Nat × Byte)) (n : Nat) : Prop := ∀ e ∈ m, n < e.1

theorem Memory.wf_nil : Memory.wf [] = true := rfl

/-- The canonical form of a nonempty memory: its first byte is not zero, the rest lies above it and is canonical. -/
theorem Memory.wf_cons (a : Nat) (b : Byte) (m : List (Nat × Byte)) :
    Memory.wf ((a, b) :: m) = true ↔ b ≠ 0 ∧ Memory.above m a ∧ Memory.wf m = true := by
  induction m generalizing a b with
  | nil => simp [Memory.wf, Memory.above]
  | cons e rest ih =>
    obtain ⟨c, d⟩ := e
    have step : Memory.wf ((a, b) :: (c, d) :: rest) = true ↔ b ≠ 0 ∧ a < c ∧ Memory.wf ((c, d) :: rest) = true := by
      simp [Memory.wf, and_assoc]
    rw [step]
    constructor
    · rintro ⟨hb, hac, hr⟩
      refine ⟨hb, ?_, hr⟩
      intro x hx
      rcases List.mem_cons.1 hx with rfl | hx
      · exact hac
      · exact Nat.lt_trans hac (((ih c d).1 hr).2.1 x hx)
    · rintro ⟨hb, ha, hr⟩
      exact ⟨hb, ha (c, d) List.mem_cons_self, hr⟩

theorem Memory.above_mono {m : List (Nat × Byte)} {n k : Nat} (h : Memory.above m n) (hk : k ≤ n) : Memory.above m k :=
  fun e he => Nat.lt_of_le_of_lt hk (h e he)

/-- A byte below every listed address reads zero. -/
theorem Memory.read_above {m : List (Nat × Byte)} {n a : Nat} (h : Memory.above m n) (ha : a ≤ n) : Memory.read m a = 0 := by
  induction m with
  | nil => rfl
  | cons e rest ih =>
    obtain ⟨c, d⟩ := e
    have hc : n < c := h (c, d) List.mem_cons_self
    have hne : c ≠ a := by omega
    simp only [Memory.read, if_neg hne]
    exact ih (fun x hx => h x (List.mem_cons_of_mem _ hx))

theorem Memory.write_above {m : List (Nat × Byte)} {n a : Nat} {v : Byte} (h : Memory.above m n) (ha : n < a) :
    Memory.above (Memory.write m a v) n := by
  induction m with
  | nil =>
    intro e he
    simp only [Memory.write] at he
    split at he
    · cases he
    · rcases List.mem_singleton.1 he with rfl
      exact ha
  | cons x rest ih =>
    obtain ⟨c, d⟩ := x
    have hc : n < c := h (c, d) List.mem_cons_self
    have hr : Memory.above rest n := fun y hy => h y (List.mem_cons_of_mem _ hy)
    intro e he
    simp only [Memory.write] at he
    split at he
    · split at he
      · exact h e he
      · rcases List.mem_cons.1 he with rfl | he
        · exact ha
        · exact h e he
    · split at he
      · split at he
        · exact hr e he
        · rcases List.mem_cons.1 he with rfl | he
          · exact hc
          · exact hr e he
      · rcases List.mem_cons.1 he with rfl | he
        · exact hc
        · exact ih hr e he

/-- Writing a byte keeps the canonical form. -/
theorem Memory.write_wf {m : List (Nat × Byte)} {a : Nat} {v : Byte} (h : Memory.wf m = true) : Memory.wf (Memory.write m a v) = true := by
  induction m with
  | nil =>
    simp only [Memory.write]
    split
    · rfl
    · rename_i hv
      exact (Memory.wf_cons _ _ _).2 ⟨hv, fun _ hx => absurd hx List.not_mem_nil, rfl⟩
  | cons e rest ih =>
    obtain ⟨c, d⟩ := e
    obtain ⟨hd, hab, hr⟩ := (Memory.wf_cons c d rest).1 h
    simp only [Memory.write]
    split
    · split
      · exact h
      · rename_i hlt hv
        refine (Memory.wf_cons _ _ _).2 ⟨hv, ?_, h⟩
        intro x hx
        rcases List.mem_cons.1 hx with rfl | hx
        · exact hlt
        · exact Nat.lt_trans hlt (hab x hx)
    · split
      · split
        · exact hr
        · rename_i hv
          exact (Memory.wf_cons _ _ _).2 ⟨hv, hab, hr⟩
      · exact (Memory.wf_cons _ _ _).2 ⟨hd, Memory.write_above hab (by omega), ih hr⟩

/-- A byte read after it was written is the byte written. -/
theorem Memory.read_write_same {m : List (Nat × Byte)} {a : Nat} {v : Byte} (h : Memory.wf m = true) :
    Memory.read (Memory.write m a v) a = v := by
  induction m with
  | nil =>
    simp only [Memory.write]
    split
    · simp [Memory.read, *]
    · simp [Memory.read]
  | cons e rest ih =>
    obtain ⟨c, d⟩ := e
    obtain ⟨_, hab, hr⟩ := (Memory.wf_cons c d rest).1 h
    simp only [Memory.write]
    split
    · rename_i hlt
      split
      · rename_i hv
        have hne : c ≠ a := by omega
        simp only [Memory.read, if_neg hne, hv]
        exact Memory.read_above hab (by omega)
      · simp [Memory.read]
    · split
      · rename_i hca
        subst hca
        split
        · rename_i hv
          rw [hv]
          exact Memory.read_above hab (Nat.le_refl _)
        · simp [Memory.read]
      · rename_i hca
        simp only [Memory.read, if_neg hca]
        exact ih hr

/-- A write leaves every other byte as it reads. -/
theorem Memory.read_write_other {m : List (Nat × Byte)} {a b : Nat} {v : Byte} (hb : b ≠ a) :
    Memory.read (Memory.write m a v) b = Memory.read m b := by
  have hab : a ≠ b := fun h => hb h.symm
  induction m with
  | nil =>
    simp only [Memory.write]
    split
    · rfl
    · simp [Memory.read, hab]
  | cons e rest ih =>
    obtain ⟨c, d⟩ := e
    simp only [Memory.write]
    split
    · split
      · rfl
      · simp [Memory.read, hab]
    · split
      · rename_i hca
        subst hca
        split
        · simp [Memory.read, hab]
        · simp [Memory.read, hab]
      · simp only [Memory.read, ih]

/-- Writing bytes keeps the canonical form. -/
theorem Memory.writeBytes_wf {m : List (Nat × Byte)} {a : Nat} {b : Bytes} (h : Memory.wf m = true) : Memory.wf (Memory.writeBytes m a b) = true := by
  induction b generalizing m a with
  | nil => exact h
  | cons x rest ih => exact ih (Memory.write_wf h)

/-- Bytes outside a written span read as before. -/
theorem Memory.read_writeBytes_other {m : List (Nat × Byte)} {a x : Nat} {b : Bytes} (hx : x < a ∨ a + b.length ≤ x) :
    Memory.read (Memory.writeBytes m a b) x = Memory.read m x := by
  induction b generalizing m a with
  | nil => rfl
  | cons v rest ih =>
    simp only [List.length_cons] at hx
    simp only [Memory.writeBytes]
    rw [ih (by omega), Memory.read_write_other (by omega)]

/-- Bytes of a written span read as written. -/
theorem Memory.read_writeBytes_same {m : List (Nat × Byte)} {a i : Nat} {b : Bytes} (h : Memory.wf m = true) (hi : i < b.length) :
    Memory.read (Memory.writeBytes m a b) (a + i) = b.getD i 0 := by
  induction b generalizing m a i with
  | nil => cases hi
  | cons v rest ih =>
    simp only [Memory.writeBytes]
    cases i with
    | zero =>
      rw [Memory.read_writeBytes_other (by omega), Nat.add_zero, Memory.read_write_same h]
      rfl
    | succ k =>
      have hk : k < rest.length := by simpa using hi
      have := ih (m := Memory.write m a v) (a := a + 1) (i := k) (Memory.write_wf h) hk
      rw [show a + (k + 1) = a + 1 + k by omega, this]
      rfl

/-- Taking entries out of a canonical memory leaves a canonical memory. -/
theorem Memory.filter_wf {m : List (Nat × Byte)} (p : Nat × Byte → Bool) (h : Memory.wf m = true) : Memory.wf (m.filter p) = true := by
  induction m with
  | nil => rfl
  | cons e rest ih =>
    obtain ⟨c, d⟩ := e
    obtain ⟨hd, hab, hr⟩ := (Memory.wf_cons c d rest).1 h
    rw [List.filter_cons]
    split
    · exact (Memory.wf_cons _ _ _).2 ⟨hd, fun x hx => hab x (List.mem_of_mem_filter hx), ih hr⟩
    · exact ih hr

/-- Clearing a span keeps the canonical form. -/
theorem Memory.clear_wf {m : List (Nat × Byte)} {a n : Nat} (h : Memory.wf m = true) : Memory.wf (Memory.clear m a n) = true :=
  Memory.filter_wf _ h

/-- A byte of a cleared span reads zero, and every other byte reads as before. -/
theorem Memory.read_clear (m : List (Nat × Byte)) (a n x : Nat) :
    Memory.read (Memory.clear m a n) x = if a ≤ x ∧ x < a + n then 0 else Memory.read m x := by
  induction m with
  | nil => simp [Memory.clear, Memory.read]
  | cons e rest ih =>
    obtain ⟨c, d⟩ := e
    simp only [Memory.clear] at ih ⊢
    rw [List.filter_cons]
    split
    · rename_i hc
      simp only [Memory.read]
      split
      · rename_i hcx
        subst hcx
        have hno : ¬ (a ≤ c ∧ c < a + n) := by
          rintro ⟨h1, h2⟩
          simp [h1, h2] at hc
        rw [if_neg hno]
      · exact ih
    · rename_i hc
      have hin : a ≤ c ∧ c < a + n := by simpa using hc
      rw [ih]
      by_cases hx : a ≤ x ∧ x < a + n
      · rw [if_pos hx, if_pos hx]
      · have hcx : c ≠ x := fun h => hx (h ▸ hin)
        rw [if_neg hx, if_neg hx, Memory.read, if_neg hcx]

/-- The named write of the state's memory keeps the canonical form. -/
theorem writeMem_wf {addr : Nat} {b : Bytes} {s : State} (h : Memory.wf s.mem = true) : Memory.wf (writeMem addr b s).mem = true :=
  Memory.writeBytes_wf h

/-- The state after reset lists no byte. -/
theorem reset_mem : State.reset.mem = [] := rfl

end Sys2Proof.Machine
end

