-- ==== Sys2Proof/Laws/State.lean ====
section
/-! SUPPORT. Tables and the small updates of State: what a read gives after a write, and one lemma for each field of each named update, so that no later proof unfolds a record update. -/

namespace Sys2Proof.Machine

/-! ### Tables -/

@[simp] theorem FMap.get?_put_same {α : Type} (m : FMap α) (k : Nat) (v : α) : FMap.get? (FMap.put m k v) k = some v := by
  induction m with
  | nil => simp [FMap.put, FMap.get?]
  | cons e rest ih =>
    obtain ⟨a, w⟩ := e
    simp only [FMap.put]
    split
    · simp [FMap.get?]
    · split
      · simp [FMap.get?]
      · next h _ => simpa [FMap.get?, h] using ih

theorem FMap.get?_put_other {α : Type} (m : FMap α) {k j : Nat} (v : α) (h : j ≠ k) : FMap.get? (FMap.put m k v) j = FMap.get? m j := by
  have hk : ¬ k = j := fun e => h e.symm
  induction m with
  | nil => simp [FMap.put, FMap.get?, hk]
  | cons e rest ih =>
    obtain ⟨a, w⟩ := e
    simp only [FMap.put]
    split
    · next ha => subst ha; simp [FMap.get?, hk]
    · split
      · simp [FMap.get?, hk]
      · simp [FMap.get?, ih]

@[simp] theorem FMap.getD_put_same {α : Type} (m : FMap α) (k : Nat) (v d : α) : FMap.getD (FMap.put m k v) k d = v := by
  simp [FMap.getD]

theorem FMap.getD_put_other {α : Type} (m : FMap α) {k j : Nat} (v d : α) (h : j ≠ k) :
    FMap.getD (FMap.put m k v) j d = FMap.getD m j d := by
  simp [FMap.getD, FMap.get?_put_other m v h]

@[simp] theorem FMap.get?_del_same {α : Type} (m : FMap α) (k : Nat) : FMap.get? (FMap.del m k) k = none := by
  induction m with
  | nil => rfl
  | cons e rest ih =>
    obtain ⟨a, w⟩ := e
    simp only [FMap.del]
    split
    · exact ih
    · next h => simpa [FMap.get?, h] using ih

theorem FMap.get?_del_other {α : Type} (m : FMap α) {k j : Nat} (h : j ≠ k) : FMap.get? (FMap.del m k) j = FMap.get? m j := by
  induction m with
  | nil => rfl
  | cons e rest ih =>
    obtain ⟨a, w⟩ := e
    simp only [FMap.del]
    split
    · next ha => subst ha; simp [FMap.get?, ih, Ne.symm h]
    · simp [FMap.get?, ih]

/-! ### Fields of the small updates -/

@[simp] theorem putClient_pending (n : Nat) (c : Client) (s : State) : (putClient n c s).pending = s.pending := rfl
@[simp] theorem putClient_freeCtr (n : Nat) (c : Client) (s : State) : (putClient n c s).freeCtr = s.freeCtr := rfl
@[simp] theorem putClient_out (n : Nat) (c : Client) (s : State) : (putClient n c s).out = s.out := rfl
@[simp] theorem putClient_host (n : Nat) (c : Client) (s : State) : (putClient n c s).host = s.host := rfl
@[simp] theorem putClient_mgmt (n : Nat) (c : Client) (s : State) : (putClient n c s).mgmt = s.mgmt := rfl
@[simp] theorem putClient_flags (n : Nat) (c : Client) (s : State) : (putClient n c s).flags = s.flags := rfl
@[simp] theorem putClient_clients (n : Nat) (c : Client) (s : State) : (putClient n c s).clients = FMap.put s.clients n c := rfl
@[simp] theorem putClient_commands (n : Nat) (c : Client) (s : State) : (putClient n c s).commands = s.commands := rfl
@[simp] theorem putClient_counters (n : Nat) (c : Client) (s : State) : (putClient n c s).counters = s.counters := rfl
@[simp] theorem putClient_latched (n : Nat) (c : Client) (s : State) : (putClient n c s).latched = s.latched := rfl
@[simp] theorem putClient_cad (n : Nat) (c : Client) (s : State) : (putClient n c s).cad = s.cad := rfl
@[simp] theorem putClient_sup (n : Nat) (c : Client) (s : State) : (putClient n c s).sup = s.sup := rfl
@[simp] theorem putClient_sec (n : Nat) (c : Client) (s : State) : (putClient n c s).sec = s.sec := rfl
@[simp] theorem putClient_secw (n : Nat) (c : Client) (s : State) : (putClient n c s).secw = s.secw := rfl
@[simp] theorem putClient_evr (n : Nat) (c : Client) (s : State) : (putClient n c s).evr = s.evr := rfl
@[simp] theorem putClient_slots (n : Nat) (c : Client) (s : State) : (putClient n c s).slots = s.slots := rfl
@[simp] theorem putClient_tier (n : Nat) (c : Client) (s : State) : (putClient n c s).tier = s.tier := rfl
@[simp] theorem putClient_mem (n : Nat) (c : Client) (s : State) : (putClient n c s).mem = s.mem := rfl
@[simp] theorem putClient_fab (n : Nat) (c : Client) (s : State) : (putClient n c s).fab = s.fab := rfl
@[simp] theorem putClient_cont (n : Nat) (c : Client) (s : State) : (putClient n c s).cont = s.cont := rfl
@[simp] theorem putClient_sched (n : Nat) (c : Client) (s : State) : (putClient n c s).sched = s.sched := rfl
@[simp] theorem putClient_comp (n : Nat) (c : Client) (s : State) : (putClient n c s).comp = s.comp := rfl
@[simp] theorem putClient_links (n : Nat) (c : Client) (s : State) : (putClient n c s).links = s.links := rfl
@[simp] theorem putClient_saves (n : Nat) (c : Client) (s : State) : (putClient n c s).saves = s.saves := rfl
@[simp] theorem putClient_svc (n : Nat) (c : Client) (s : State) : (putClient n c s).svc = s.svc := rfl
@[simp] theorem putClient_cal (n : Nat) (c : Client) (s : State) : (putClient n c s).cal = s.cal := rfl

@[simp] theorem modClient_pending (n : Nat) (f : Client → Client) (s : State) : (modClient n f s).pending = s.pending := rfl
@[simp] theorem modClient_freeCtr (n : Nat) (f : Client → Client) (s : State) : (modClient n f s).freeCtr = s.freeCtr := rfl
@[simp] theorem modClient_out (n : Nat) (f : Client → Client) (s : State) : (modClient n f s).out = s.out := rfl
@[simp] theorem modClient_host (n : Nat) (f : Client → Client) (s : State) : (modClient n f s).host = s.host := rfl
@[simp] theorem modClient_mgmt (n : Nat) (f : Client → Client) (s : State) : (modClient n f s).mgmt = s.mgmt := rfl
@[simp] theorem modClient_flags (n : Nat) (f : Client → Client) (s : State) : (modClient n f s).flags = s.flags := rfl
@[simp] theorem modClient_clients (n : Nat) (f : Client → Client) (s : State) : (modClient n f s).clients = FMap.put s.clients n (f (clientOf s n)) := rfl
@[simp] theorem modClient_commands (n : Nat) (f : Client → Client) (s : State) : (modClient n f s).commands = s.commands := rfl
@[simp] theorem modClient_counters (n : Nat) (f : Client → Client) (s : State) : (modClient n f s).counters = s.counters := rfl
@[simp] theorem modClient_latched (n : Nat) (f : Client → Client) (s : State) : (modClient n f s).latched = s.latched := rfl
@[simp] theorem modClient_cad (n : Nat) (f : Client → Client) (s : State) : (modClient n f s).cad = s.cad := rfl
@[simp] theorem modClient_sup (n : Nat) (f : Client → Client) (s : State) : (modClient n f s).sup = s.sup := rfl
@[simp] theorem modClient_sec (n : Nat) (f : Client → Client) (s : State) : (modClient n f s).sec = s.sec := rfl
@[simp] theorem modClient_secw (n : Nat) (f : Client → Client) (s : State) : (modClient n f s).secw = s.secw := rfl
@[simp] theorem modClient_evr (n : Nat) (f : Client → Client) (s : State) : (modClient n f s).evr = s.evr := rfl
@[simp] theorem modClient_slots (n : Nat) (f : Client → Client) (s : State) : (modClient n f s).slots = s.slots := rfl
@[simp] theorem modClient_tier (n : Nat) (f : Client → Client) (s : State) : (modClient n f s).tier = s.tier := rfl
@[simp] theorem modClient_mem (n : Nat) (f : Client → Client) (s : State) : (modClient n f s).mem = s.mem := rfl
@[simp] theorem modClient_fab (n : Nat) (f : Client → Client) (s : State) : (modClient n f s).fab = s.fab := rfl
@[simp] theorem modClient_cont (n : Nat) (f : Client → Client) (s : State) : (modClient n f s).cont = s.cont := rfl
@[simp] theorem modClient_sched (n : Nat) (f : Client → Client) (s : State) : (modClient n f s).sched = s.sched := rfl
@[simp] theorem modClient_comp (n : Nat) (f : Client → Client) (s : State) : (modClient n f s).comp = s.comp := rfl
@[simp] theorem modClient_links (n : Nat) (f : Client → Client) (s : State) : (modClient n f s).links = s.links := rfl
@[simp] theorem modClient_saves (n : Nat) (f : Client → Client) (s : State) : (modClient n f s).saves = s.saves := rfl
@[simp] theorem modClient_svc (n : Nat) (f : Client → Client) (s : State) : (modClient n f s).svc = s.svc := rfl
@[simp] theorem modClient_cal (n : Nat) (f : Client → Client) (s : State) : (modClient n f s).cal = s.cal := rfl

@[simp] theorem putSession_pending (i : Nat) (x : Session) (s : State) : (putSession i x s).pending = s.pending := rfl
@[simp] theorem putSession_freeCtr (i : Nat) (x : Session) (s : State) : (putSession i x s).freeCtr = s.freeCtr := rfl
@[simp] theorem putSession_out (i : Nat) (x : Session) (s : State) : (putSession i x s).out = s.out := rfl
@[simp] theorem putSession_host (i : Nat) (x : Session) (s : State) : (putSession i x s).host = s.host := rfl
@[simp] theorem putSession_mgmt (i : Nat) (x : Session) (s : State) : (putSession i x s).mgmt = s.mgmt := rfl
@[simp] theorem putSession_flags (i : Nat) (x : Session) (s : State) : (putSession i x s).flags = s.flags := rfl
@[simp] theorem putSession_clients (i : Nat) (x : Session) (s : State) : (putSession i x s).clients = s.clients := rfl
@[simp] theorem putSession_commands (i : Nat) (x : Session) (s : State) : (putSession i x s).commands = s.commands := rfl
@[simp] theorem putSession_counters (i : Nat) (x : Session) (s : State) : (putSession i x s).counters = s.counters := rfl
@[simp] theorem putSession_latched (i : Nat) (x : Session) (s : State) : (putSession i x s).latched = s.latched := rfl
@[simp] theorem putSession_cad (i : Nat) (x : Session) (s : State) : (putSession i x s).cad = s.cad := rfl
@[simp] theorem putSession_sup (i : Nat) (x : Session) (s : State) : (putSession i x s).sup = s.sup := rfl
@[simp] theorem putSession_sec (i : Nat) (x : Session) (s : State) : (putSession i x s).sec = s.sec := rfl
@[simp] theorem putSession_secw (i : Nat) (x : Session) (s : State) : (putSession i x s).secw = s.secw := rfl
@[simp] theorem putSession_evr (i : Nat) (x : Session) (s : State) : (putSession i x s).evr = s.evr := rfl
@[simp] theorem putSession_slots (i : Nat) (x : Session) (s : State) : (putSession i x s).slots = { s.slots with table := FMap.put s.slots.table i x } := rfl
@[simp] theorem putSession_tier (i : Nat) (x : Session) (s : State) : (putSession i x s).tier = s.tier := rfl
@[simp] theorem putSession_mem (i : Nat) (x : Session) (s : State) : (putSession i x s).mem = s.mem := rfl
@[simp] theorem putSession_fab (i : Nat) (x : Session) (s : State) : (putSession i x s).fab = s.fab := rfl
@[simp] theorem putSession_cont (i : Nat) (x : Session) (s : State) : (putSession i x s).cont = s.cont := rfl
@[simp] theorem putSession_sched (i : Nat) (x : Session) (s : State) : (putSession i x s).sched = s.sched := rfl
@[simp] theorem putSession_comp (i : Nat) (x : Session) (s : State) : (putSession i x s).comp = s.comp := rfl
@[simp] theorem putSession_links (i : Nat) (x : Session) (s : State) : (putSession i x s).links = s.links := rfl
@[simp] theorem putSession_saves (i : Nat) (x : Session) (s : State) : (putSession i x s).saves = s.saves := rfl
@[simp] theorem putSession_svc (i : Nat) (x : Session) (s : State) : (putSession i x s).svc = s.svc := rfl
@[simp] theorem putSession_cal (i : Nat) (x : Session) (s : State) : (putSession i x s).cal = s.cal := rfl

@[simp] theorem modSession_pending (i : Nat) (f : Session → Session) (s : State) : (modSession i f s).pending = s.pending := rfl
@[simp] theorem modSession_freeCtr (i : Nat) (f : Session → Session) (s : State) : (modSession i f s).freeCtr = s.freeCtr := rfl
@[simp] theorem modSession_out (i : Nat) (f : Session → Session) (s : State) : (modSession i f s).out = s.out := rfl
@[simp] theorem modSession_host (i : Nat) (f : Session → Session) (s : State) : (modSession i f s).host = s.host := rfl
@[simp] theorem modSession_mgmt (i : Nat) (f : Session → Session) (s : State) : (modSession i f s).mgmt = s.mgmt := rfl
@[simp] theorem modSession_flags (i : Nat) (f : Session → Session) (s : State) : (modSession i f s).flags = s.flags := rfl
@[simp] theorem modSession_clients (i : Nat) (f : Session → Session) (s : State) : (modSession i f s).clients = s.clients := rfl
@[simp] theorem modSession_commands (i : Nat) (f : Session → Session) (s : State) : (modSession i f s).commands = s.commands := rfl
@[simp] theorem modSession_counters (i : Nat) (f : Session → Session) (s : State) : (modSession i f s).counters = s.counters := rfl
@[simp] theorem modSession_latched (i : Nat) (f : Session → Session) (s : State) : (modSession i f s).latched = s.latched := rfl
@[simp] theorem modSession_cad (i : Nat) (f : Session → Session) (s : State) : (modSession i f s).cad = s.cad := rfl
@[simp] theorem modSession_sup (i : Nat) (f : Session → Session) (s : State) : (modSession i f s).sup = s.sup := rfl
@[simp] theorem modSession_sec (i : Nat) (f : Session → Session) (s : State) : (modSession i f s).sec = s.sec := rfl
@[simp] theorem modSession_secw (i : Nat) (f : Session → Session) (s : State) : (modSession i f s).secw = s.secw := rfl
@[simp] theorem modSession_evr (i : Nat) (f : Session → Session) (s : State) : (modSession i f s).evr = s.evr := rfl
@[simp] theorem modSession_slots (i : Nat) (f : Session → Session) (s : State) : (modSession i f s).slots = { s.slots with table := FMap.put s.slots.table i (f (sessionAt s i)) } := rfl
@[simp] theorem modSession_tier (i : Nat) (f : Session → Session) (s : State) : (modSession i f s).tier = s.tier := rfl
@[simp] theorem modSession_mem (i : Nat) (f : Session → Session) (s : State) : (modSession i f s).mem = s.mem := rfl
@[simp] theorem modSession_fab (i : Nat) (f : Session → Session) (s : State) : (modSession i f s).fab = s.fab := rfl
@[simp] theorem modSession_cont (i : Nat) (f : Session → Session) (s : State) : (modSession i f s).cont = s.cont := rfl
@[simp] theorem modSession_sched (i : Nat) (f : Session → Session) (s : State) : (modSession i f s).sched = s.sched := rfl
@[simp] theorem modSession_comp (i : Nat) (f : Session → Session) (s : State) : (modSession i f s).comp = s.comp := rfl
@[simp] theorem modSession_links (i : Nat) (f : Session → Session) (s : State) : (modSession i f s).links = s.links := rfl
@[simp] theorem modSession_saves (i : Nat) (f : Session → Session) (s : State) : (modSession i f s).saves = s.saves := rfl
@[simp] theorem modSession_svc (i : Nat) (f : Session → Session) (s : State) : (modSession i f s).svc = s.svc := rfl
@[simp] theorem modSession_cal (i : Nat) (f : Session → Session) (s : State) : (modSession i f s).cal = s.cal := rfl

@[simp] theorem send_pending (m : Msg) (s : State) : (send m s).pending = s.pending := rfl
@[simp] theorem send_freeCtr (m : Msg) (s : State) : (send m s).freeCtr = s.freeCtr := rfl
@[simp] theorem send_out (m : Msg) (s : State) : (send m s).out = { s.out with msgs := s.out.msgs ++ [m] } := rfl
@[simp] theorem send_host (m : Msg) (s : State) : (send m s).host = s.host := rfl
@[simp] theorem send_mgmt (m : Msg) (s : State) : (send m s).mgmt = s.mgmt := rfl
@[simp] theorem send_flags (m : Msg) (s : State) : (send m s).flags = s.flags := rfl
@[simp] theorem send_clients (m : Msg) (s : State) : (send m s).clients = s.clients := rfl
@[simp] theorem send_commands (m : Msg) (s : State) : (send m s).commands = s.commands := rfl
@[simp] theorem send_counters (m : Msg) (s : State) : (send m s).counters = s.counters := rfl
@[simp] theorem send_latched (m : Msg) (s : State) : (send m s).latched = s.latched := rfl
@[simp] theorem send_cad (m : Msg) (s : State) : (send m s).cad = s.cad := rfl
@[simp] theorem send_sup (m : Msg) (s : State) : (send m s).sup = s.sup := rfl
@[simp] theorem send_sec (m : Msg) (s : State) : (send m s).sec = s.sec := rfl
@[simp] theorem send_secw (m : Msg) (s : State) : (send m s).secw = s.secw := rfl
@[simp] theorem send_evr (m : Msg) (s : State) : (send m s).evr = s.evr := rfl
@[simp] theorem send_slots (m : Msg) (s : State) : (send m s).slots = s.slots := rfl
@[simp] theorem send_tier (m : Msg) (s : State) : (send m s).tier = s.tier := rfl
@[simp] theorem send_mem (m : Msg) (s : State) : (send m s).mem = s.mem := rfl
@[simp] theorem send_fab (m : Msg) (s : State) : (send m s).fab = s.fab := rfl
@[simp] theorem send_cont (m : Msg) (s : State) : (send m s).cont = s.cont := rfl
@[simp] theorem send_sched (m : Msg) (s : State) : (send m s).sched = s.sched := rfl
@[simp] theorem send_comp (m : Msg) (s : State) : (send m s).comp = s.comp := rfl
@[simp] theorem send_links (m : Msg) (s : State) : (send m s).links = s.links := rfl
@[simp] theorem send_saves (m : Msg) (s : State) : (send m s).saves = s.saves := rfl
@[simp] theorem send_svc (m : Msg) (s : State) : (send m s).svc = s.svc := rfl
@[simp] theorem send_cal (m : Msg) (s : State) : (send m s).cal = s.cal := rfl

@[simp] theorem hostWritePlain_pending (n a : Nat) (b : Bytes) (s : State) : (hostWritePlain n a b s).pending = s.pending := rfl
@[simp] theorem hostWritePlain_freeCtr (n a : Nat) (b : Bytes) (s : State) : (hostWritePlain n a b s).freeCtr = s.freeCtr := rfl
@[simp] theorem hostWritePlain_out (n a : Nat) (b : Bytes) (s : State) : (hostWritePlain n a b s).out = { s.out with host := s.out.host ++ [⟨n, a, none, b, 0⟩] } := rfl
@[simp] theorem hostWritePlain_host (n a : Nat) (b : Bytes) (s : State) : (hostWritePlain n a b s).host = s.host := rfl
@[simp] theorem hostWritePlain_mgmt (n a : Nat) (b : Bytes) (s : State) : (hostWritePlain n a b s).mgmt = s.mgmt := rfl
@[simp] theorem hostWritePlain_flags (n a : Nat) (b : Bytes) (s : State) : (hostWritePlain n a b s).flags = s.flags := rfl
@[simp] theorem hostWritePlain_clients (n a : Nat) (b : Bytes) (s : State) : (hostWritePlain n a b s).clients = s.clients := rfl
@[simp] theorem hostWritePlain_commands (n a : Nat) (b : Bytes) (s : State) : (hostWritePlain n a b s).commands = s.commands := rfl
@[simp] theorem hostWritePlain_counters (n a : Nat) (b : Bytes) (s : State) : (hostWritePlain n a b s).counters = s.counters := rfl
@[simp] theorem hostWritePlain_latched (n a : Nat) (b : Bytes) (s : State) : (hostWritePlain n a b s).latched = s.latched := rfl
@[simp] theorem hostWritePlain_cad (n a : Nat) (b : Bytes) (s : State) : (hostWritePlain n a b s).cad = s.cad := rfl
@[simp] theorem hostWritePlain_sup (n a : Nat) (b : Bytes) (s : State) : (hostWritePlain n a b s).sup = s.sup := rfl
@[simp] theorem hostWritePlain_sec (n a : Nat) (b : Bytes) (s : State) : (hostWritePlain n a b s).sec = s.sec := rfl
@[simp] theorem hostWritePlain_secw (n a : Nat) (b : Bytes) (s : State) : (hostWritePlain n a b s).secw = s.secw := rfl
@[simp] theorem hostWritePlain_evr (n a : Nat) (b : Bytes) (s : State) : (hostWritePlain n a b s).evr = s.evr := rfl
@[simp] theorem hostWritePlain_slots (n a : Nat) (b : Bytes) (s : State) : (hostWritePlain n a b s).slots = s.slots := rfl
@[simp] theorem hostWritePlain_tier (n a : Nat) (b : Bytes) (s : State) : (hostWritePlain n a b s).tier = s.tier := rfl
@[simp] theorem hostWritePlain_mem (n a : Nat) (b : Bytes) (s : State) : (hostWritePlain n a b s).mem = s.mem := rfl
@[simp] theorem hostWritePlain_fab (n a : Nat) (b : Bytes) (s : State) : (hostWritePlain n a b s).fab = s.fab := rfl
@[simp] theorem hostWritePlain_cont (n a : Nat) (b : Bytes) (s : State) : (hostWritePlain n a b s).cont = s.cont := rfl
@[simp] theorem hostWritePlain_sched (n a : Nat) (b : Bytes) (s : State) : (hostWritePlain n a b s).sched = s.sched := rfl
@[simp] theorem hostWritePlain_comp (n a : Nat) (b : Bytes) (s : State) : (hostWritePlain n a b s).comp = s.comp := rfl
@[simp] theorem hostWritePlain_links (n a : Nat) (b : Bytes) (s : State) : (hostWritePlain n a b s).links = s.links := rfl
@[simp] theorem hostWritePlain_saves (n a : Nat) (b : Bytes) (s : State) : (hostWritePlain n a b s).saves = s.saves := rfl
@[simp] theorem hostWritePlain_svc (n a : Nat) (b : Bytes) (s : State) : (hostWritePlain n a b s).svc = s.svc := rfl
@[simp] theorem hostWritePlain_cal (n a : Nat) (b : Bytes) (s : State) : (hostWritePlain n a b s).cal = s.cal := rfl

@[simp] theorem await_pending (w : Work) (o : Origin) (s : State) : (await w o s).pending = s.pending := rfl
@[simp] theorem await_freeCtr (w : Work) (o : Origin) (s : State) : (await w o s).freeCtr = s.freeCtr := rfl
@[simp] theorem await_out (w : Work) (o : Origin) (s : State) : (await w o s).out = s.out := rfl
@[simp] theorem await_host (w : Work) (o : Origin) (s : State) : (await w o s).host = s.host := rfl
@[simp] theorem await_mgmt (w : Work) (o : Origin) (s : State) : (await w o s).mgmt = s.mgmt := rfl
@[simp] theorem await_flags (w : Work) (o : Origin) (s : State) : (await w o s).flags = s.flags := rfl
@[simp] theorem await_clients (w : Work) (o : Origin) (s : State) : (await w o s).clients = s.clients := rfl
@[simp] theorem await_commands (w : Work) (o : Origin) (s : State) : (await w o s).commands = s.commands ++ [⟨w, o⟩] := rfl
@[simp] theorem await_counters (w : Work) (o : Origin) (s : State) : (await w o s).counters = s.counters := rfl
@[simp] theorem await_latched (w : Work) (o : Origin) (s : State) : (await w o s).latched = s.latched := rfl
@[simp] theorem await_cad (w : Work) (o : Origin) (s : State) : (await w o s).cad = s.cad := rfl
@[simp] theorem await_sup (w : Work) (o : Origin) (s : State) : (await w o s).sup = s.sup := rfl
@[simp] theorem await_sec (w : Work) (o : Origin) (s : State) : (await w o s).sec = s.sec := rfl
@[simp] theorem await_secw (w : Work) (o : Origin) (s : State) : (await w o s).secw = s.secw := rfl
@[simp] theorem await_evr (w : Work) (o : Origin) (s : State) : (await w o s).evr = s.evr := rfl
@[simp] theorem await_slots (w : Work) (o : Origin) (s : State) : (await w o s).slots = s.slots := rfl
@[simp] theorem await_tier (w : Work) (o : Origin) (s : State) : (await w o s).tier = s.tier := rfl
@[simp] theorem await_mem (w : Work) (o : Origin) (s : State) : (await w o s).mem = s.mem := rfl
@[simp] theorem await_fab (w : Work) (o : Origin) (s : State) : (await w o s).fab = s.fab := rfl
@[simp] theorem await_cont (w : Work) (o : Origin) (s : State) : (await w o s).cont = s.cont := rfl
@[simp] theorem await_sched (w : Work) (o : Origin) (s : State) : (await w o s).sched = s.sched := rfl
@[simp] theorem await_comp (w : Work) (o : Origin) (s : State) : (await w o s).comp = s.comp := rfl
@[simp] theorem await_links (w : Work) (o : Origin) (s : State) : (await w o s).links = s.links := rfl
@[simp] theorem await_saves (w : Work) (o : Origin) (s : State) : (await w o s).saves = s.saves := rfl
@[simp] theorem await_svc (w : Work) (o : Origin) (s : State) : (await w o s).svc = s.svc := rfl
@[simp] theorem await_cal (w : Work) (o : Origin) (s : State) : (await w o s).cal = s.cal := rfl

@[simp] theorem writeMem_pending (a : Nat) (b : Bytes) (s : State) : (writeMem a b s).pending = s.pending := rfl
@[simp] theorem writeMem_freeCtr (a : Nat) (b : Bytes) (s : State) : (writeMem a b s).freeCtr = s.freeCtr := rfl
@[simp] theorem writeMem_out (a : Nat) (b : Bytes) (s : State) : (writeMem a b s).out = s.out := rfl
@[simp] theorem writeMem_host (a : Nat) (b : Bytes) (s : State) : (writeMem a b s).host = s.host := rfl
@[simp] theorem writeMem_mgmt (a : Nat) (b : Bytes) (s : State) : (writeMem a b s).mgmt = s.mgmt := rfl
@[simp] theorem writeMem_flags (a : Nat) (b : Bytes) (s : State) : (writeMem a b s).flags = s.flags := rfl
@[simp] theorem writeMem_clients (a : Nat) (b : Bytes) (s : State) : (writeMem a b s).clients = s.clients := rfl
@[simp] theorem writeMem_commands (a : Nat) (b : Bytes) (s : State) : (writeMem a b s).commands = s.commands := rfl
@[simp] theorem writeMem_counters (a : Nat) (b : Bytes) (s : State) : (writeMem a b s).counters = s.counters := rfl
@[simp] theorem writeMem_latched (a : Nat) (b : Bytes) (s : State) : (writeMem a b s).latched = s.latched := rfl
@[simp] theorem writeMem_cad (a : Nat) (b : Bytes) (s : State) : (writeMem a b s).cad = s.cad := rfl
@[simp] theorem writeMem_sup (a : Nat) (b : Bytes) (s : State) : (writeMem a b s).sup = s.sup := rfl
@[simp] theorem writeMem_sec (a : Nat) (b : Bytes) (s : State) : (writeMem a b s).sec = s.sec := rfl
@[simp] theorem writeMem_secw (a : Nat) (b : Bytes) (s : State) : (writeMem a b s).secw = s.secw := rfl
@[simp] theorem writeMem_evr (a : Nat) (b : Bytes) (s : State) : (writeMem a b s).evr = s.evr := rfl
@[simp] theorem writeMem_slots (a : Nat) (b : Bytes) (s : State) : (writeMem a b s).slots = s.slots := rfl
@[simp] theorem writeMem_tier (a : Nat) (b : Bytes) (s : State) : (writeMem a b s).tier = s.tier := rfl
@[simp] theorem writeMem_mem (a : Nat) (b : Bytes) (s : State) : (writeMem a b s).mem = Memory.writeBytes s.mem a b := rfl
@[simp] theorem writeMem_fab (a : Nat) (b : Bytes) (s : State) : (writeMem a b s).fab = s.fab := rfl
@[simp] theorem writeMem_cont (a : Nat) (b : Bytes) (s : State) : (writeMem a b s).cont = s.cont := rfl
@[simp] theorem writeMem_sched (a : Nat) (b : Bytes) (s : State) : (writeMem a b s).sched = s.sched := rfl
@[simp] theorem writeMem_comp (a : Nat) (b : Bytes) (s : State) : (writeMem a b s).comp = s.comp := rfl
@[simp] theorem writeMem_links (a : Nat) (b : Bytes) (s : State) : (writeMem a b s).links = s.links := rfl
@[simp] theorem writeMem_saves (a : Nat) (b : Bytes) (s : State) : (writeMem a b s).saves = s.saves := rfl
@[simp] theorem writeMem_svc (a : Nat) (b : Bytes) (s : State) : (writeMem a b s).svc = s.svc := rfl
@[simp] theorem writeMem_cal (a : Nat) (b : Bytes) (s : State) : (writeMem a b s).cal = s.cal := rfl

@[simp] theorem dropRecognised_pending (p : Packet) (s : State) : (dropRecognised p s).pending = s.pending := rfl
@[simp] theorem dropRecognised_freeCtr (p : Packet) (s : State) : (dropRecognised p s).freeCtr = s.freeCtr := rfl
@[simp] theorem dropRecognised_out (p : Packet) (s : State) : (dropRecognised p s).out = s.out := rfl
@[simp] theorem dropRecognised_host (p : Packet) (s : State) : (dropRecognised p s).host = s.host := rfl
@[simp] theorem dropRecognised_mgmt (p : Packet) (s : State) : (dropRecognised p s).mgmt = s.mgmt := rfl
@[simp] theorem dropRecognised_flags (p : Packet) (s : State) : (dropRecognised p s).flags = s.flags := rfl
@[simp] theorem dropRecognised_commands (p : Packet) (s : State) : (dropRecognised p s).commands = s.commands := rfl
@[simp] theorem dropRecognised_counters (p : Packet) (s : State) : (dropRecognised p s).counters = s.counters := rfl
@[simp] theorem dropRecognised_latched (p : Packet) (s : State) : (dropRecognised p s).latched = s.latched := rfl
@[simp] theorem dropRecognised_cad (p : Packet) (s : State) : (dropRecognised p s).cad = s.cad := rfl
@[simp] theorem dropRecognised_sup (p : Packet) (s : State) : (dropRecognised p s).sup = s.sup := rfl
@[simp] theorem dropRecognised_sec (p : Packet) (s : State) : (dropRecognised p s).sec = s.sec := rfl
@[simp] theorem dropRecognised_secw (p : Packet) (s : State) : (dropRecognised p s).secw = s.secw := rfl
@[simp] theorem dropRecognised_evr (p : Packet) (s : State) : (dropRecognised p s).evr = s.evr := rfl
@[simp] theorem dropRecognised_slots (p : Packet) (s : State) : (dropRecognised p s).slots = s.slots := rfl
@[simp] theorem dropRecognised_tier (p : Packet) (s : State) : (dropRecognised p s).tier = s.tier := rfl
@[simp] theorem dropRecognised_mem (p : Packet) (s : State) : (dropRecognised p s).mem = s.mem := rfl
@[simp] theorem dropRecognised_fab (p : Packet) (s : State) : (dropRecognised p s).fab = s.fab := rfl
@[simp] theorem dropRecognised_cont (p : Packet) (s : State) : (dropRecognised p s).cont = s.cont := rfl
@[simp] theorem dropRecognised_sched (p : Packet) (s : State) : (dropRecognised p s).sched = s.sched := rfl
@[simp] theorem dropRecognised_comp (p : Packet) (s : State) : (dropRecognised p s).comp = s.comp := rfl
@[simp] theorem dropRecognised_links (p : Packet) (s : State) : (dropRecognised p s).links = s.links := rfl
@[simp] theorem dropRecognised_saves (p : Packet) (s : State) : (dropRecognised p s).saves = s.saves := rfl
@[simp] theorem dropRecognised_svc (p : Packet) (s : State) : (dropRecognised p s).svc = s.svc := rfl
@[simp] theorem dropRecognised_cal (p : Packet) (s : State) : (dropRecognised p s).cal = s.cal := rfl

@[simp] theorem freeValue_pending (s : State) : (freeValue s).2.pending = s.pending := rfl
@[simp] theorem freeValue_freeCtr (s : State) : (freeValue s).2.freeCtr = s.freeCtr + 1 := rfl
@[simp] theorem freeValue_out (s : State) : (freeValue s).2.out = s.out := rfl
@[simp] theorem freeValue_host (s : State) : (freeValue s).2.host = s.host := rfl
@[simp] theorem freeValue_mgmt (s : State) : (freeValue s).2.mgmt = s.mgmt := rfl
@[simp] theorem freeValue_flags (s : State) : (freeValue s).2.flags = s.flags := rfl
@[simp] theorem freeValue_clients (s : State) : (freeValue s).2.clients = s.clients := rfl
@[simp] theorem freeValue_commands (s : State) : (freeValue s).2.commands = s.commands := rfl
@[simp] theorem freeValue_counters (s : State) : (freeValue s).2.counters = s.counters := rfl
@[simp] theorem freeValue_latched (s : State) : (freeValue s).2.latched = s.latched := rfl
@[simp] theorem freeValue_cad (s : State) : (freeValue s).2.cad = s.cad := rfl
@[simp] theorem freeValue_sup (s : State) : (freeValue s).2.sup = s.sup := rfl
@[simp] theorem freeValue_sec (s : State) : (freeValue s).2.sec = s.sec := rfl
@[simp] theorem freeValue_secw (s : State) : (freeValue s).2.secw = s.secw := rfl
@[simp] theorem freeValue_evr (s : State) : (freeValue s).2.evr = s.evr := rfl
@[simp] theorem freeValue_slots (s : State) : (freeValue s).2.slots = s.slots := rfl
@[simp] theorem freeValue_tier (s : State) : (freeValue s).2.tier = s.tier := rfl
@[simp] theorem freeValue_mem (s : State) : (freeValue s).2.mem = s.mem := rfl
@[simp] theorem freeValue_fab (s : State) : (freeValue s).2.fab = s.fab := rfl
@[simp] theorem freeValue_cont (s : State) : (freeValue s).2.cont = s.cont := rfl
@[simp] theorem freeValue_sched (s : State) : (freeValue s).2.sched = s.sched := rfl
@[simp] theorem freeValue_comp (s : State) : (freeValue s).2.comp = s.comp := rfl
@[simp] theorem freeValue_links (s : State) : (freeValue s).2.links = s.links := rfl
@[simp] theorem freeValue_saves (s : State) : (freeValue s).2.saves = s.saves := rfl
@[simp] theorem freeValue_svc (s : State) : (freeValue s).2.svc = s.svc := rfl
@[simp] theorem freeValue_cal (s : State) : (freeValue s).2.cal = s.cal := rfl

@[simp] theorem draw_pending (s : State) : (draw s).2.pending = s.pending := rfl
@[simp] theorem draw_freeCtr (s : State) : (draw s).2.freeCtr = s.freeCtr + 1 := rfl
@[simp] theorem draw_out (s : State) : (draw s).2.out = s.out := rfl
@[simp] theorem draw_host (s : State) : (draw s).2.host = s.host := rfl
@[simp] theorem draw_mgmt (s : State) : (draw s).2.mgmt = s.mgmt := rfl
@[simp] theorem draw_flags (s : State) : (draw s).2.flags = s.flags := rfl
@[simp] theorem draw_clients (s : State) : (draw s).2.clients = s.clients := rfl
@[simp] theorem draw_commands (s : State) : (draw s).2.commands = s.commands := rfl
@[simp] theorem draw_counters (s : State) : (draw s).2.counters = s.counters := rfl
@[simp] theorem draw_latched (s : State) : (draw s).2.latched = s.latched := rfl
@[simp] theorem draw_cad (s : State) : (draw s).2.cad = s.cad := rfl
@[simp] theorem draw_sup (s : State) : (draw s).2.sup = s.sup := rfl
@[simp] theorem draw_sec (s : State) : (draw s).2.sec = s.sec := rfl
@[simp] theorem draw_secw (s : State) : (draw s).2.secw = s.secw := rfl
@[simp] theorem draw_evr (s : State) : (draw s).2.evr = s.evr := rfl
@[simp] theorem draw_slots (s : State) : (draw s).2.slots = s.slots := rfl
@[simp] theorem draw_tier (s : State) : (draw s).2.tier = s.tier := rfl
@[simp] theorem draw_mem (s : State) : (draw s).2.mem = s.mem := rfl
@[simp] theorem draw_fab (s : State) : (draw s).2.fab = s.fab := rfl
@[simp] theorem draw_cont (s : State) : (draw s).2.cont = s.cont := rfl
@[simp] theorem draw_sched (s : State) : (draw s).2.sched = s.sched := rfl
@[simp] theorem draw_comp (s : State) : (draw s).2.comp = s.comp := rfl
@[simp] theorem draw_links (s : State) : (draw s).2.links = s.links := rfl
@[simp] theorem draw_saves (s : State) : (draw s).2.saves = s.saves := rfl
@[simp] theorem draw_svc (s : State) : (draw s).2.svc = s.svc := rfl
@[simp] theorem draw_cal (s : State) : (draw s).2.cal = s.cal := rfl

/-! ### Clients, sessions, flags -/

@[simp] theorem clientOf_putClient_same (n : Nat) (c : Client) (s : State) : clientOf (putClient n c s) n = c := by
  simp [clientOf]

theorem clientOf_putClient_other {n m : Nat} (c : Client) (s : State) (h : m ≠ n) : clientOf (putClient n c s) m = clientOf s m := by
  simp [clientOf, FMap.getD_put_other _ _ _ h]

@[simp] theorem clientOf_modClient_same (n : Nat) (f : Client → Client) (s : State) : clientOf (modClient n f s) n = f (clientOf s n) := by
  simp [modClient]

theorem clientOf_modClient_other {n m : Nat} (f : Client → Client) (s : State) (h : m ≠ n) : clientOf (modClient n f s) m = clientOf s m :=
  clientOf_putClient_other _ s h

@[simp] theorem sessionAt_putSession_same (i : Nat) (x : Session) (s : State) : sessionAt (putSession i x s) i = x := by
  simp [sessionAt]

theorem sessionAt_putSession_other {i j : Nat} (x : Session) (s : State) (h : j ≠ i) : sessionAt (putSession i x s) j = sessionAt s j := by
  simp [sessionAt, FMap.getD_put_other _ _ _ h]

@[simp] theorem sessionAt_modSession_same (i : Nat) (f : Session → Session) (s : State) : sessionAt (modSession i f s) i = f (sessionAt s i) := by
  simp [modSession]

theorem sessionAt_modSession_other {i j : Nat} (f : Session → Session) (s : State) (h : j ≠ i) : sessionAt (modSession i f s) j = sessionAt s j :=
  sessionAt_putSession_other _ s h

end Sys2Proof.Machine
end

