-- ==== Sys2Proof/Laws/Shared.lean ====
section
/-! SUPPORT. What the shared operations can change: for each, the fields it may touch, and with it a lemma for every other field; then what a flag, a reply and a served packet leave. -/

namespace Sys2Proof.Machine

/-! ### Which fields an operation may change -/

theorem raiseEvent_changes (off : Nat) (s : State) :
    raiseEvent off s = { s with
      mgmt := (raiseEvent off s).mgmt,
      out := (raiseEvent off s).out } := by
  unfold raiseEvent
  split
  · rfl
  · split <;> rfl

@[simp] theorem raiseEvent_pending (off : Nat) (s : State) : (raiseEvent off s).pending = s.pending := by rw [raiseEvent_changes]
@[simp] theorem raiseEvent_freeCtr (off : Nat) (s : State) : (raiseEvent off s).freeCtr = s.freeCtr := by rw [raiseEvent_changes]
@[simp] theorem raiseEvent_host (off : Nat) (s : State) : (raiseEvent off s).host = s.host := by rw [raiseEvent_changes]
@[simp] theorem raiseEvent_flags (off : Nat) (s : State) : (raiseEvent off s).flags = s.flags := by rw [raiseEvent_changes]
@[simp] theorem raiseEvent_clients (off : Nat) (s : State) : (raiseEvent off s).clients = s.clients := by rw [raiseEvent_changes]
@[simp] theorem raiseEvent_commands (off : Nat) (s : State) : (raiseEvent off s).commands = s.commands := by rw [raiseEvent_changes]
@[simp] theorem raiseEvent_counters (off : Nat) (s : State) : (raiseEvent off s).counters = s.counters := by rw [raiseEvent_changes]
@[simp] theorem raiseEvent_latched (off : Nat) (s : State) : (raiseEvent off s).latched = s.latched := by rw [raiseEvent_changes]
@[simp] theorem raiseEvent_cad (off : Nat) (s : State) : (raiseEvent off s).cad = s.cad := by rw [raiseEvent_changes]
@[simp] theorem raiseEvent_sup (off : Nat) (s : State) : (raiseEvent off s).sup = s.sup := by rw [raiseEvent_changes]
@[simp] theorem raiseEvent_sec (off : Nat) (s : State) : (raiseEvent off s).sec = s.sec := by rw [raiseEvent_changes]
@[simp] theorem raiseEvent_secw (off : Nat) (s : State) : (raiseEvent off s).secw = s.secw := by rw [raiseEvent_changes]
@[simp] theorem raiseEvent_evr (off : Nat) (s : State) : (raiseEvent off s).evr = s.evr := by rw [raiseEvent_changes]
@[simp] theorem raiseEvent_slots (off : Nat) (s : State) : (raiseEvent off s).slots = s.slots := by rw [raiseEvent_changes]
@[simp] theorem raiseEvent_tier (off : Nat) (s : State) : (raiseEvent off s).tier = s.tier := by rw [raiseEvent_changes]
@[simp] theorem raiseEvent_mem (off : Nat) (s : State) : (raiseEvent off s).mem = s.mem := by rw [raiseEvent_changes]
@[simp] theorem raiseEvent_fab (off : Nat) (s : State) : (raiseEvent off s).fab = s.fab := by rw [raiseEvent_changes]
@[simp] theorem raiseEvent_cont (off : Nat) (s : State) : (raiseEvent off s).cont = s.cont := by rw [raiseEvent_changes]
@[simp] theorem raiseEvent_sched (off : Nat) (s : State) : (raiseEvent off s).sched = s.sched := by rw [raiseEvent_changes]
@[simp] theorem raiseEvent_comp (off : Nat) (s : State) : (raiseEvent off s).comp = s.comp := by rw [raiseEvent_changes]
@[simp] theorem raiseEvent_links (off : Nat) (s : State) : (raiseEvent off s).links = s.links := by rw [raiseEvent_changes]
@[simp] theorem raiseEvent_saves (off : Nat) (s : State) : (raiseEvent off s).saves = s.saves := by rw [raiseEvent_changes]
@[simp] theorem raiseEvent_svc (off : Nat) (s : State) : (raiseEvent off s).svc = s.svc := by rw [raiseEvent_changes]
@[simp] theorem raiseEvent_cal (off : Nat) (s : State) : (raiseEvent off s).cal = s.cal := by rw [raiseEvent_changes]

theorem setFlag_changes (off bit : Nat) (s : State) :
    setFlag off bit s = { s with
      flags := (setFlag off bit s).flags,
      mgmt := (setFlag off bit s).mgmt,
      out := (setFlag off bit s).out } := by
  unfold setFlag
  dsimp only
  rw [raiseEvent_changes]

@[simp] theorem setFlag_pending (off bit : Nat) (s : State) : (setFlag off bit s).pending = s.pending := by rw [setFlag_changes]
@[simp] theorem setFlag_freeCtr (off bit : Nat) (s : State) : (setFlag off bit s).freeCtr = s.freeCtr := by rw [setFlag_changes]
@[simp] theorem setFlag_host (off bit : Nat) (s : State) : (setFlag off bit s).host = s.host := by rw [setFlag_changes]
@[simp] theorem setFlag_clients (off bit : Nat) (s : State) : (setFlag off bit s).clients = s.clients := by rw [setFlag_changes]
@[simp] theorem setFlag_commands (off bit : Nat) (s : State) : (setFlag off bit s).commands = s.commands := by rw [setFlag_changes]
@[simp] theorem setFlag_counters (off bit : Nat) (s : State) : (setFlag off bit s).counters = s.counters := by rw [setFlag_changes]
@[simp] theorem setFlag_latched (off bit : Nat) (s : State) : (setFlag off bit s).latched = s.latched := by rw [setFlag_changes]
@[simp] theorem setFlag_cad (off bit : Nat) (s : State) : (setFlag off bit s).cad = s.cad := by rw [setFlag_changes]
@[simp] theorem setFlag_sup (off bit : Nat) (s : State) : (setFlag off bit s).sup = s.sup := by rw [setFlag_changes]
@[simp] theorem setFlag_sec (off bit : Nat) (s : State) : (setFlag off bit s).sec = s.sec := by rw [setFlag_changes]
@[simp] theorem setFlag_secw (off bit : Nat) (s : State) : (setFlag off bit s).secw = s.secw := by rw [setFlag_changes]
@[simp] theorem setFlag_evr (off bit : Nat) (s : State) : (setFlag off bit s).evr = s.evr := by rw [setFlag_changes]
@[simp] theorem setFlag_slots (off bit : Nat) (s : State) : (setFlag off bit s).slots = s.slots := by rw [setFlag_changes]
@[simp] theorem setFlag_tier (off bit : Nat) (s : State) : (setFlag off bit s).tier = s.tier := by rw [setFlag_changes]
@[simp] theorem setFlag_mem (off bit : Nat) (s : State) : (setFlag off bit s).mem = s.mem := by rw [setFlag_changes]
@[simp] theorem setFlag_fab (off bit : Nat) (s : State) : (setFlag off bit s).fab = s.fab := by rw [setFlag_changes]
@[simp] theorem setFlag_cont (off bit : Nat) (s : State) : (setFlag off bit s).cont = s.cont := by rw [setFlag_changes]
@[simp] theorem setFlag_sched (off bit : Nat) (s : State) : (setFlag off bit s).sched = s.sched := by rw [setFlag_changes]
@[simp] theorem setFlag_comp (off bit : Nat) (s : State) : (setFlag off bit s).comp = s.comp := by rw [setFlag_changes]
@[simp] theorem setFlag_links (off bit : Nat) (s : State) : (setFlag off bit s).links = s.links := by rw [setFlag_changes]
@[simp] theorem setFlag_saves (off bit : Nat) (s : State) : (setFlag off bit s).saves = s.saves := by rw [setFlag_changes]
@[simp] theorem setFlag_svc (off bit : Nat) (s : State) : (setFlag off bit s).svc = s.svc := by rw [setFlag_changes]
@[simp] theorem setFlag_cal (off bit : Nat) (s : State) : (setFlag off bit s).cal = s.cal := by rw [setFlag_changes]

theorem clearFlag_changes (off bit : Nat) (hw : Bool) (s : State) :
    clearFlag off bit hw s = { s with
      flags := (clearFlag off bit hw s).flags,
      mgmt := (clearFlag off bit hw s).mgmt,
      out := (clearFlag off bit hw s).out } := by
  unfold clearFlag
  dsimp only
  split
  · rw [raiseEvent_changes]
  · rfl

@[simp] theorem clearFlag_pending (off bit : Nat) (hw : Bool) (s : State) : (clearFlag off bit hw s).pending = s.pending := by rw [clearFlag_changes]
@[simp] theorem clearFlag_freeCtr (off bit : Nat) (hw : Bool) (s : State) : (clearFlag off bit hw s).freeCtr = s.freeCtr := by rw [clearFlag_changes]
@[simp] theorem clearFlag_host (off bit : Nat) (hw : Bool) (s : State) : (clearFlag off bit hw s).host = s.host := by rw [clearFlag_changes]
@[simp] theorem clearFlag_clients (off bit : Nat) (hw : Bool) (s : State) : (clearFlag off bit hw s).clients = s.clients := by rw [clearFlag_changes]
@[simp] theorem clearFlag_commands (off bit : Nat) (hw : Bool) (s : State) : (clearFlag off bit hw s).commands = s.commands := by rw [clearFlag_changes]
@[simp] theorem clearFlag_counters (off bit : Nat) (hw : Bool) (s : State) : (clearFlag off bit hw s).counters = s.counters := by rw [clearFlag_changes]
@[simp] theorem clearFlag_latched (off bit : Nat) (hw : Bool) (s : State) : (clearFlag off bit hw s).latched = s.latched := by rw [clearFlag_changes]
@[simp] theorem clearFlag_cad (off bit : Nat) (hw : Bool) (s : State) : (clearFlag off bit hw s).cad = s.cad := by rw [clearFlag_changes]
@[simp] theorem clearFlag_sup (off bit : Nat) (hw : Bool) (s : State) : (clearFlag off bit hw s).sup = s.sup := by rw [clearFlag_changes]
@[simp] theorem clearFlag_sec (off bit : Nat) (hw : Bool) (s : State) : (clearFlag off bit hw s).sec = s.sec := by rw [clearFlag_changes]
@[simp] theorem clearFlag_secw (off bit : Nat) (hw : Bool) (s : State) : (clearFlag off bit hw s).secw = s.secw := by rw [clearFlag_changes]
@[simp] theorem clearFlag_evr (off bit : Nat) (hw : Bool) (s : State) : (clearFlag off bit hw s).evr = s.evr := by rw [clearFlag_changes]
@[simp] theorem clearFlag_slots (off bit : Nat) (hw : Bool) (s : State) : (clearFlag off bit hw s).slots = s.slots := by rw [clearFlag_changes]
@[simp] theorem clearFlag_tier (off bit : Nat) (hw : Bool) (s : State) : (clearFlag off bit hw s).tier = s.tier := by rw [clearFlag_changes]
@[simp] theorem clearFlag_mem (off bit : Nat) (hw : Bool) (s : State) : (clearFlag off bit hw s).mem = s.mem := by rw [clearFlag_changes]
@[simp] theorem clearFlag_fab (off bit : Nat) (hw : Bool) (s : State) : (clearFlag off bit hw s).fab = s.fab := by rw [clearFlag_changes]
@[simp] theorem clearFlag_cont (off bit : Nat) (hw : Bool) (s : State) : (clearFlag off bit hw s).cont = s.cont := by rw [clearFlag_changes]
@[simp] theorem clearFlag_sched (off bit : Nat) (hw : Bool) (s : State) : (clearFlag off bit hw s).sched = s.sched := by rw [clearFlag_changes]
@[simp] theorem clearFlag_comp (off bit : Nat) (hw : Bool) (s : State) : (clearFlag off bit hw s).comp = s.comp := by rw [clearFlag_changes]
@[simp] theorem clearFlag_links (off bit : Nat) (hw : Bool) (s : State) : (clearFlag off bit hw s).links = s.links := by rw [clearFlag_changes]
@[simp] theorem clearFlag_saves (off bit : Nat) (hw : Bool) (s : State) : (clearFlag off bit hw s).saves = s.saves := by rw [clearFlag_changes]
@[simp] theorem clearFlag_svc (off bit : Nat) (hw : Bool) (s : State) : (clearFlag off bit hw s).svc = s.svc := by rw [clearFlag_changes]
@[simp] theorem clearFlag_cal (off bit : Nat) (hw : Bool) (s : State) : (clearFlag off bit hw s).cal = s.cal := by rw [clearFlag_changes]

theorem snapshotVictim_changes (v : Record) (s : State) :
    snapshotVictim v s = { s with
      evr := (snapshotVictim v s).evr,
      flags := (snapshotVictim v s).flags,
      mgmt := (snapshotVictim v s).mgmt,
      out := (snapshotVictim v s).out } := by
  unfold snapshotVictim
  split
  · rfl
  · split
    · dsimp only
      split
      · rfl
      · rw [setFlag_changes]
    · rfl

@[simp] theorem snapshotVictim_pending (v : Record) (s : State) : (snapshotVictim v s).pending = s.pending := by rw [snapshotVictim_changes]
@[simp] theorem snapshotVictim_freeCtr (v : Record) (s : State) : (snapshotVictim v s).freeCtr = s.freeCtr := by rw [snapshotVictim_changes]
@[simp] theorem snapshotVictim_host (v : Record) (s : State) : (snapshotVictim v s).host = s.host := by rw [snapshotVictim_changes]
@[simp] theorem snapshotVictim_clients (v : Record) (s : State) : (snapshotVictim v s).clients = s.clients := by rw [snapshotVictim_changes]
@[simp] theorem snapshotVictim_commands (v : Record) (s : State) : (snapshotVictim v s).commands = s.commands := by rw [snapshotVictim_changes]
@[simp] theorem snapshotVictim_counters (v : Record) (s : State) : (snapshotVictim v s).counters = s.counters := by rw [snapshotVictim_changes]
@[simp] theorem snapshotVictim_latched (v : Record) (s : State) : (snapshotVictim v s).latched = s.latched := by rw [snapshotVictim_changes]
@[simp] theorem snapshotVictim_cad (v : Record) (s : State) : (snapshotVictim v s).cad = s.cad := by rw [snapshotVictim_changes]
@[simp] theorem snapshotVictim_sup (v : Record) (s : State) : (snapshotVictim v s).sup = s.sup := by rw [snapshotVictim_changes]
@[simp] theorem snapshotVictim_sec (v : Record) (s : State) : (snapshotVictim v s).sec = s.sec := by rw [snapshotVictim_changes]
@[simp] theorem snapshotVictim_secw (v : Record) (s : State) : (snapshotVictim v s).secw = s.secw := by rw [snapshotVictim_changes]
@[simp] theorem snapshotVictim_slots (v : Record) (s : State) : (snapshotVictim v s).slots = s.slots := by rw [snapshotVictim_changes]
@[simp] theorem snapshotVictim_tier (v : Record) (s : State) : (snapshotVictim v s).tier = s.tier := by rw [snapshotVictim_changes]
@[simp] theorem snapshotVictim_mem (v : Record) (s : State) : (snapshotVictim v s).mem = s.mem := by rw [snapshotVictim_changes]
@[simp] theorem snapshotVictim_fab (v : Record) (s : State) : (snapshotVictim v s).fab = s.fab := by rw [snapshotVictim_changes]
@[simp] theorem snapshotVictim_cont (v : Record) (s : State) : (snapshotVictim v s).cont = s.cont := by rw [snapshotVictim_changes]
@[simp] theorem snapshotVictim_sched (v : Record) (s : State) : (snapshotVictim v s).sched = s.sched := by rw [snapshotVictim_changes]
@[simp] theorem snapshotVictim_comp (v : Record) (s : State) : (snapshotVictim v s).comp = s.comp := by rw [snapshotVictim_changes]
@[simp] theorem snapshotVictim_links (v : Record) (s : State) : (snapshotVictim v s).links = s.links := by rw [snapshotVictim_changes]
@[simp] theorem snapshotVictim_saves (v : Record) (s : State) : (snapshotVictim v s).saves = s.saves := by rw [snapshotVictim_changes]
@[simp] theorem snapshotVictim_svc (v : Record) (s : State) : (snapshotVictim v s).svc = s.svc := by rw [snapshotVictim_changes]
@[simp] theorem snapshotVictim_cal (v : Record) (s : State) : (snapshotVictim v s).cal = s.cal := by rw [snapshotVictim_changes]

theorem rollWindow_changes  (s : State) :
    rollWindow  s = { s with
      evr := (rollWindow  s).evr } := by
  unfold rollWindow
  dsimp only
  split <;> rfl

@[simp] theorem rollWindow_pending  (s : State) : (rollWindow  s).pending = s.pending := by rw [rollWindow_changes]
@[simp] theorem rollWindow_freeCtr  (s : State) : (rollWindow  s).freeCtr = s.freeCtr := by rw [rollWindow_changes]
@[simp] theorem rollWindow_out  (s : State) : (rollWindow  s).out = s.out := by rw [rollWindow_changes]
@[simp] theorem rollWindow_host  (s : State) : (rollWindow  s).host = s.host := by rw [rollWindow_changes]
@[simp] theorem rollWindow_mgmt  (s : State) : (rollWindow  s).mgmt = s.mgmt := by rw [rollWindow_changes]
@[simp] theorem rollWindow_flags  (s : State) : (rollWindow  s).flags = s.flags := by rw [rollWindow_changes]
@[simp] theorem rollWindow_clients  (s : State) : (rollWindow  s).clients = s.clients := by rw [rollWindow_changes]
@[simp] theorem rollWindow_commands  (s : State) : (rollWindow  s).commands = s.commands := by rw [rollWindow_changes]
@[simp] theorem rollWindow_counters  (s : State) : (rollWindow  s).counters = s.counters := by rw [rollWindow_changes]
@[simp] theorem rollWindow_latched  (s : State) : (rollWindow  s).latched = s.latched := by rw [rollWindow_changes]
@[simp] theorem rollWindow_cad  (s : State) : (rollWindow  s).cad = s.cad := by rw [rollWindow_changes]
@[simp] theorem rollWindow_sup  (s : State) : (rollWindow  s).sup = s.sup := by rw [rollWindow_changes]
@[simp] theorem rollWindow_sec  (s : State) : (rollWindow  s).sec = s.sec := by rw [rollWindow_changes]
@[simp] theorem rollWindow_secw  (s : State) : (rollWindow  s).secw = s.secw := by rw [rollWindow_changes]
@[simp] theorem rollWindow_slots  (s : State) : (rollWindow  s).slots = s.slots := by rw [rollWindow_changes]
@[simp] theorem rollWindow_tier  (s : State) : (rollWindow  s).tier = s.tier := by rw [rollWindow_changes]
@[simp] theorem rollWindow_mem  (s : State) : (rollWindow  s).mem = s.mem := by rw [rollWindow_changes]
@[simp] theorem rollWindow_fab  (s : State) : (rollWindow  s).fab = s.fab := by rw [rollWindow_changes]
@[simp] theorem rollWindow_cont  (s : State) : (rollWindow  s).cont = s.cont := by rw [rollWindow_changes]
@[simp] theorem rollWindow_sched  (s : State) : (rollWindow  s).sched = s.sched := by rw [rollWindow_changes]
@[simp] theorem rollWindow_comp  (s : State) : (rollWindow  s).comp = s.comp := by rw [rollWindow_changes]
@[simp] theorem rollWindow_links  (s : State) : (rollWindow  s).links = s.links := by rw [rollWindow_changes]
@[simp] theorem rollWindow_saves  (s : State) : (rollWindow  s).saves = s.saves := by rw [rollWindow_changes]
@[simp] theorem rollWindow_svc  (s : State) : (rollWindow  s).svc = s.svc := by rw [rollWindow_changes]
@[simp] theorem rollWindow_cal  (s : State) : (rollWindow  s).cal = s.cal := by rw [rollWindow_changes]

theorem snapshotVictims_change (l : List Record) (s : State) :
    l.foldl (fun s v => snapshotVictim v s) s = { s with
      evr := (l.foldl (fun s v => snapshotVictim v s) s).evr, flags := (l.foldl (fun s v => snapshotVictim v s) s).flags,
      mgmt := (l.foldl (fun s v => snapshotVictim v s) s).mgmt, out := (l.foldl (fun s v => snapshotVictim v s) s).out } := by
  induction l generalizing s with
  | nil => rfl
  | cons v rest ih =>
    rw [List.foldl_cons, ih, snapshotVictim_changes]

theorem storeRecord_changes (sev code : Nat) (body : Bytes) (s : State) :
    storeRecord sev code body s = { s with
      evr := (storeRecord sev code body s).evr,
      flags := (storeRecord sev code body s).flags,
      mgmt := (storeRecord sev code body s).mgmt,
      out := (storeRecord sev code body s).out } := by
  unfold storeRecord
  dsimp only
  split
  · rw [setFlag_changes]
  · rw [snapshotVictims_change]

@[simp] theorem storeRecord_pending (sev code : Nat) (body : Bytes) (s : State) : (storeRecord sev code body s).pending = s.pending := by rw [storeRecord_changes]
@[simp] theorem storeRecord_freeCtr (sev code : Nat) (body : Bytes) (s : State) : (storeRecord sev code body s).freeCtr = s.freeCtr := by rw [storeRecord_changes]
@[simp] theorem storeRecord_host (sev code : Nat) (body : Bytes) (s : State) : (storeRecord sev code body s).host = s.host := by rw [storeRecord_changes]
@[simp] theorem storeRecord_clients (sev code : Nat) (body : Bytes) (s : State) : (storeRecord sev code body s).clients = s.clients := by rw [storeRecord_changes]
@[simp] theorem storeRecord_commands (sev code : Nat) (body : Bytes) (s : State) : (storeRecord sev code body s).commands = s.commands := by rw [storeRecord_changes]
@[simp] theorem storeRecord_counters (sev code : Nat) (body : Bytes) (s : State) : (storeRecord sev code body s).counters = s.counters := by rw [storeRecord_changes]
@[simp] theorem storeRecord_latched (sev code : Nat) (body : Bytes) (s : State) : (storeRecord sev code body s).latched = s.latched := by rw [storeRecord_changes]
@[simp] theorem storeRecord_cad (sev code : Nat) (body : Bytes) (s : State) : (storeRecord sev code body s).cad = s.cad := by rw [storeRecord_changes]
@[simp] theorem storeRecord_sup (sev code : Nat) (body : Bytes) (s : State) : (storeRecord sev code body s).sup = s.sup := by rw [storeRecord_changes]
@[simp] theorem storeRecord_sec (sev code : Nat) (body : Bytes) (s : State) : (storeRecord sev code body s).sec = s.sec := by rw [storeRecord_changes]
@[simp] theorem storeRecord_secw (sev code : Nat) (body : Bytes) (s : State) : (storeRecord sev code body s).secw = s.secw := by rw [storeRecord_changes]
@[simp] theorem storeRecord_slots (sev code : Nat) (body : Bytes) (s : State) : (storeRecord sev code body s).slots = s.slots := by rw [storeRecord_changes]
@[simp] theorem storeRecord_tier (sev code : Nat) (body : Bytes) (s : State) : (storeRecord sev code body s).tier = s.tier := by rw [storeRecord_changes]
@[simp] theorem storeRecord_mem (sev code : Nat) (body : Bytes) (s : State) : (storeRecord sev code body s).mem = s.mem := by rw [storeRecord_changes]
@[simp] theorem storeRecord_fab (sev code : Nat) (body : Bytes) (s : State) : (storeRecord sev code body s).fab = s.fab := by rw [storeRecord_changes]
@[simp] theorem storeRecord_cont (sev code : Nat) (body : Bytes) (s : State) : (storeRecord sev code body s).cont = s.cont := by rw [storeRecord_changes]
@[simp] theorem storeRecord_sched (sev code : Nat) (body : Bytes) (s : State) : (storeRecord sev code body s).sched = s.sched := by rw [storeRecord_changes]
@[simp] theorem storeRecord_comp (sev code : Nat) (body : Bytes) (s : State) : (storeRecord sev code body s).comp = s.comp := by rw [storeRecord_changes]
@[simp] theorem storeRecord_links (sev code : Nat) (body : Bytes) (s : State) : (storeRecord sev code body s).links = s.links := by rw [storeRecord_changes]
@[simp] theorem storeRecord_saves (sev code : Nat) (body : Bytes) (s : State) : (storeRecord sev code body s).saves = s.saves := by rw [storeRecord_changes]
@[simp] theorem storeRecord_svc (sev code : Nat) (body : Bytes) (s : State) : (storeRecord sev code body s).svc = s.svc := by rw [storeRecord_changes]
@[simp] theorem storeRecord_cal (sev code : Nat) (body : Bytes) (s : State) : (storeRecord sev code body s).cal = s.cal := by rw [storeRecord_changes]

theorem reportAt_changes (sev code : Nat) (body : Bytes) (s : State) :
    reportAt sev code body s = { s with
      evr := (reportAt sev code body s).evr,
      flags := (reportAt sev code body s).flags,
      mgmt := (reportAt sev code body s).mgmt,
      out := (reportAt sev code body s).out } := by
  unfold reportAt
  split
  · rfl
  · dsimp only
    split
    · split
      · rw [setFlag_changes, rollWindow_changes]
      · rw [storeRecord_changes, rollWindow_changes]
    · rw [storeRecord_changes, rollWindow_changes]

@[simp] theorem reportAt_pending (sev code : Nat) (body : Bytes) (s : State) : (reportAt sev code body s).pending = s.pending := by rw [reportAt_changes]
@[simp] theorem reportAt_freeCtr (sev code : Nat) (body : Bytes) (s : State) : (reportAt sev code body s).freeCtr = s.freeCtr := by rw [reportAt_changes]
@[simp] theorem reportAt_host (sev code : Nat) (body : Bytes) (s : State) : (reportAt sev code body s).host = s.host := by rw [reportAt_changes]
@[simp] theorem reportAt_clients (sev code : Nat) (body : Bytes) (s : State) : (reportAt sev code body s).clients = s.clients := by rw [reportAt_changes]
@[simp] theorem reportAt_commands (sev code : Nat) (body : Bytes) (s : State) : (reportAt sev code body s).commands = s.commands := by rw [reportAt_changes]
@[simp] theorem reportAt_counters (sev code : Nat) (body : Bytes) (s : State) : (reportAt sev code body s).counters = s.counters := by rw [reportAt_changes]
@[simp] theorem reportAt_latched (sev code : Nat) (body : Bytes) (s : State) : (reportAt sev code body s).latched = s.latched := by rw [reportAt_changes]
@[simp] theorem reportAt_cad (sev code : Nat) (body : Bytes) (s : State) : (reportAt sev code body s).cad = s.cad := by rw [reportAt_changes]
@[simp] theorem reportAt_sup (sev code : Nat) (body : Bytes) (s : State) : (reportAt sev code body s).sup = s.sup := by rw [reportAt_changes]
@[simp] theorem reportAt_sec (sev code : Nat) (body : Bytes) (s : State) : (reportAt sev code body s).sec = s.sec := by rw [reportAt_changes]
@[simp] theorem reportAt_secw (sev code : Nat) (body : Bytes) (s : State) : (reportAt sev code body s).secw = s.secw := by rw [reportAt_changes]
@[simp] theorem reportAt_slots (sev code : Nat) (body : Bytes) (s : State) : (reportAt sev code body s).slots = s.slots := by rw [reportAt_changes]
@[simp] theorem reportAt_tier (sev code : Nat) (body : Bytes) (s : State) : (reportAt sev code body s).tier = s.tier := by rw [reportAt_changes]
@[simp] theorem reportAt_mem (sev code : Nat) (body : Bytes) (s : State) : (reportAt sev code body s).mem = s.mem := by rw [reportAt_changes]
@[simp] theorem reportAt_fab (sev code : Nat) (body : Bytes) (s : State) : (reportAt sev code body s).fab = s.fab := by rw [reportAt_changes]
@[simp] theorem reportAt_cont (sev code : Nat) (body : Bytes) (s : State) : (reportAt sev code body s).cont = s.cont := by rw [reportAt_changes]
@[simp] theorem reportAt_sched (sev code : Nat) (body : Bytes) (s : State) : (reportAt sev code body s).sched = s.sched := by rw [reportAt_changes]
@[simp] theorem reportAt_comp (sev code : Nat) (body : Bytes) (s : State) : (reportAt sev code body s).comp = s.comp := by rw [reportAt_changes]
@[simp] theorem reportAt_links (sev code : Nat) (body : Bytes) (s : State) : (reportAt sev code body s).links = s.links := by rw [reportAt_changes]
@[simp] theorem reportAt_saves (sev code : Nat) (body : Bytes) (s : State) : (reportAt sev code body s).saves = s.saves := by rw [reportAt_changes]
@[simp] theorem reportAt_svc (sev code : Nat) (body : Bytes) (s : State) : (reportAt sev code body s).svc = s.svc := by rw [reportAt_changes]
@[simp] theorem reportAt_cal (sev code : Nat) (body : Bytes) (s : State) : (reportAt sev code body s).cal = s.cal := by rw [reportAt_changes]

theorem report_changes (code : Nat) (body : Bytes) (s : State) :
    report code body s = { s with
      evr := (report code body s).evr,
      flags := (report code body s).flags,
      mgmt := (report code body s).mgmt,
      out := (report code body s).out } := by
  exact reportAt_changes _ _ _ s

@[simp] theorem report_pending (code : Nat) (body : Bytes) (s : State) : (report code body s).pending = s.pending := by rw [report_changes]
@[simp] theorem report_freeCtr (code : Nat) (body : Bytes) (s : State) : (report code body s).freeCtr = s.freeCtr := by rw [report_changes]
@[simp] theorem report_host (code : Nat) (body : Bytes) (s : State) : (report code body s).host = s.host := by rw [report_changes]
@[simp] theorem report_clients (code : Nat) (body : Bytes) (s : State) : (report code body s).clients = s.clients := by rw [report_changes]
@[simp] theorem report_commands (code : Nat) (body : Bytes) (s : State) : (report code body s).commands = s.commands := by rw [report_changes]
@[simp] theorem report_counters (code : Nat) (body : Bytes) (s : State) : (report code body s).counters = s.counters := by rw [report_changes]
@[simp] theorem report_latched (code : Nat) (body : Bytes) (s : State) : (report code body s).latched = s.latched := by rw [report_changes]
@[simp] theorem report_cad (code : Nat) (body : Bytes) (s : State) : (report code body s).cad = s.cad := by rw [report_changes]
@[simp] theorem report_sup (code : Nat) (body : Bytes) (s : State) : (report code body s).sup = s.sup := by rw [report_changes]
@[simp] theorem report_sec (code : Nat) (body : Bytes) (s : State) : (report code body s).sec = s.sec := by rw [report_changes]
@[simp] theorem report_secw (code : Nat) (body : Bytes) (s : State) : (report code body s).secw = s.secw := by rw [report_changes]
@[simp] theorem report_slots (code : Nat) (body : Bytes) (s : State) : (report code body s).slots = s.slots := by rw [report_changes]
@[simp] theorem report_tier (code : Nat) (body : Bytes) (s : State) : (report code body s).tier = s.tier := by rw [report_changes]
@[simp] theorem report_mem (code : Nat) (body : Bytes) (s : State) : (report code body s).mem = s.mem := by rw [report_changes]
@[simp] theorem report_fab (code : Nat) (body : Bytes) (s : State) : (report code body s).fab = s.fab := by rw [report_changes]
@[simp] theorem report_cont (code : Nat) (body : Bytes) (s : State) : (report code body s).cont = s.cont := by rw [report_changes]
@[simp] theorem report_sched (code : Nat) (body : Bytes) (s : State) : (report code body s).sched = s.sched := by rw [report_changes]
@[simp] theorem report_comp (code : Nat) (body : Bytes) (s : State) : (report code body s).comp = s.comp := by rw [report_changes]
@[simp] theorem report_links (code : Nat) (body : Bytes) (s : State) : (report code body s).links = s.links := by rw [report_changes]
@[simp] theorem report_saves (code : Nat) (body : Bytes) (s : State) : (report code body s).saves = s.saves := by rw [report_changes]
@[simp] theorem report_svc (code : Nat) (body : Bytes) (s : State) : (report code body s).svc = s.svc := by rw [report_changes]
@[simp] theorem report_cal (code : Nat) (body : Bytes) (s : State) : (report code body s).cal = s.cal := by rw [report_changes]

theorem raiseReplyVector_changes (n : Nat) (s : State) :
    raiseReplyVector n s = { s with
      clients := (raiseReplyVector n s).clients,
      out := (raiseReplyVector n s).out } := by
  unfold raiseReplyVector
  dsimp only
  split <;> rfl

@[simp] theorem raiseReplyVector_pending (n : Nat) (s : State) : (raiseReplyVector n s).pending = s.pending := by rw [raiseReplyVector_changes]
@[simp] theorem raiseReplyVector_freeCtr (n : Nat) (s : State) : (raiseReplyVector n s).freeCtr = s.freeCtr := by rw [raiseReplyVector_changes]
@[simp] theorem raiseReplyVector_host (n : Nat) (s : State) : (raiseReplyVector n s).host = s.host := by rw [raiseReplyVector_changes]
@[simp] theorem raiseReplyVector_mgmt (n : Nat) (s : State) : (raiseReplyVector n s).mgmt = s.mgmt := by rw [raiseReplyVector_changes]
@[simp] theorem raiseReplyVector_flags (n : Nat) (s : State) : (raiseReplyVector n s).flags = s.flags := by rw [raiseReplyVector_changes]
@[simp] theorem raiseReplyVector_commands (n : Nat) (s : State) : (raiseReplyVector n s).commands = s.commands := by rw [raiseReplyVector_changes]
@[simp] theorem raiseReplyVector_counters (n : Nat) (s : State) : (raiseReplyVector n s).counters = s.counters := by rw [raiseReplyVector_changes]
@[simp] theorem raiseReplyVector_latched (n : Nat) (s : State) : (raiseReplyVector n s).latched = s.latched := by rw [raiseReplyVector_changes]
@[simp] theorem raiseReplyVector_cad (n : Nat) (s : State) : (raiseReplyVector n s).cad = s.cad := by rw [raiseReplyVector_changes]
@[simp] theorem raiseReplyVector_sup (n : Nat) (s : State) : (raiseReplyVector n s).sup = s.sup := by rw [raiseReplyVector_changes]
@[simp] theorem raiseReplyVector_sec (n : Nat) (s : State) : (raiseReplyVector n s).sec = s.sec := by rw [raiseReplyVector_changes]
@[simp] theorem raiseReplyVector_secw (n : Nat) (s : State) : (raiseReplyVector n s).secw = s.secw := by rw [raiseReplyVector_changes]
@[simp] theorem raiseReplyVector_evr (n : Nat) (s : State) : (raiseReplyVector n s).evr = s.evr := by rw [raiseReplyVector_changes]
@[simp] theorem raiseReplyVector_slots (n : Nat) (s : State) : (raiseReplyVector n s).slots = s.slots := by rw [raiseReplyVector_changes]
@[simp] theorem raiseReplyVector_tier (n : Nat) (s : State) : (raiseReplyVector n s).tier = s.tier := by rw [raiseReplyVector_changes]
@[simp] theorem raiseReplyVector_mem (n : Nat) (s : State) : (raiseReplyVector n s).mem = s.mem := by rw [raiseReplyVector_changes]
@[simp] theorem raiseReplyVector_fab (n : Nat) (s : State) : (raiseReplyVector n s).fab = s.fab := by rw [raiseReplyVector_changes]
@[simp] theorem raiseReplyVector_cont (n : Nat) (s : State) : (raiseReplyVector n s).cont = s.cont := by rw [raiseReplyVector_changes]
@[simp] theorem raiseReplyVector_sched (n : Nat) (s : State) : (raiseReplyVector n s).sched = s.sched := by rw [raiseReplyVector_changes]
@[simp] theorem raiseReplyVector_comp (n : Nat) (s : State) : (raiseReplyVector n s).comp = s.comp := by rw [raiseReplyVector_changes]
@[simp] theorem raiseReplyVector_links (n : Nat) (s : State) : (raiseReplyVector n s).links = s.links := by rw [raiseReplyVector_changes]
@[simp] theorem raiseReplyVector_saves (n : Nat) (s : State) : (raiseReplyVector n s).saves = s.saves := by rw [raiseReplyVector_changes]
@[simp] theorem raiseReplyVector_svc (n : Nat) (s : State) : (raiseReplyVector n s).svc = s.svc := by rw [raiseReplyVector_changes]
@[simp] theorem raiseReplyVector_cal (n : Nat) (s : State) : (raiseReplyVector n s).cal = s.cal := by rw [raiseReplyVector_changes]

theorem writeReply_changes (r : Reply) (s : State) :
    writeReply r s = { s with
      clients := (writeReply r s).clients,
      out := (writeReply r s).out } := by
  unfold writeReply
  split
  · rfl
  · dsimp only
    rw [raiseReplyVector_changes]
    rfl

@[simp] theorem writeReply_pending (r : Reply) (s : State) : (writeReply r s).pending = s.pending := by rw [writeReply_changes]
@[simp] theorem writeReply_freeCtr (r : Reply) (s : State) : (writeReply r s).freeCtr = s.freeCtr := by rw [writeReply_changes]
@[simp] theorem writeReply_host (r : Reply) (s : State) : (writeReply r s).host = s.host := by rw [writeReply_changes]
@[simp] theorem writeReply_mgmt (r : Reply) (s : State) : (writeReply r s).mgmt = s.mgmt := by rw [writeReply_changes]
@[simp] theorem writeReply_flags (r : Reply) (s : State) : (writeReply r s).flags = s.flags := by rw [writeReply_changes]
@[simp] theorem writeReply_commands (r : Reply) (s : State) : (writeReply r s).commands = s.commands := by rw [writeReply_changes]
@[simp] theorem writeReply_counters (r : Reply) (s : State) : (writeReply r s).counters = s.counters := by rw [writeReply_changes]
@[simp] theorem writeReply_latched (r : Reply) (s : State) : (writeReply r s).latched = s.latched := by rw [writeReply_changes]
@[simp] theorem writeReply_cad (r : Reply) (s : State) : (writeReply r s).cad = s.cad := by rw [writeReply_changes]
@[simp] theorem writeReply_sup (r : Reply) (s : State) : (writeReply r s).sup = s.sup := by rw [writeReply_changes]
@[simp] theorem writeReply_sec (r : Reply) (s : State) : (writeReply r s).sec = s.sec := by rw [writeReply_changes]
@[simp] theorem writeReply_secw (r : Reply) (s : State) : (writeReply r s).secw = s.secw := by rw [writeReply_changes]
@[simp] theorem writeReply_evr (r : Reply) (s : State) : (writeReply r s).evr = s.evr := by rw [writeReply_changes]
@[simp] theorem writeReply_slots (r : Reply) (s : State) : (writeReply r s).slots = s.slots := by rw [writeReply_changes]
@[simp] theorem writeReply_tier (r : Reply) (s : State) : (writeReply r s).tier = s.tier := by rw [writeReply_changes]
@[simp] theorem writeReply_mem (r : Reply) (s : State) : (writeReply r s).mem = s.mem := by rw [writeReply_changes]
@[simp] theorem writeReply_fab (r : Reply) (s : State) : (writeReply r s).fab = s.fab := by rw [writeReply_changes]
@[simp] theorem writeReply_cont (r : Reply) (s : State) : (writeReply r s).cont = s.cont := by rw [writeReply_changes]
@[simp] theorem writeReply_sched (r : Reply) (s : State) : (writeReply r s).sched = s.sched := by rw [writeReply_changes]
@[simp] theorem writeReply_comp (r : Reply) (s : State) : (writeReply r s).comp = s.comp := by rw [writeReply_changes]
@[simp] theorem writeReply_links (r : Reply) (s : State) : (writeReply r s).links = s.links := by rw [writeReply_changes]
@[simp] theorem writeReply_saves (r : Reply) (s : State) : (writeReply r s).saves = s.saves := by rw [writeReply_changes]
@[simp] theorem writeReply_svc (r : Reply) (s : State) : (writeReply r s).svc = s.svc := by rw [writeReply_changes]
@[simp] theorem writeReply_cal (r : Reply) (s : State) : (writeReply r s).cal = s.cal := by rw [writeReply_changes]

theorem landReply_changes (o : Origin) (final : Bool) (r : Reply) (s : State) :
    landReply o final r s = { s with
      clients := (landReply o final r s).clients,
      out := (landReply o final r s).out } := by
  unfold landReply
  split
  · rfl
  · dsimp only
    rw [writeReply_changes]
    rfl

@[simp] theorem landReply_pending (o : Origin) (final : Bool) (r : Reply) (s : State) : (landReply o final r s).pending = s.pending := by rw [landReply_changes]
@[simp] theorem landReply_freeCtr (o : Origin) (final : Bool) (r : Reply) (s : State) : (landReply o final r s).freeCtr = s.freeCtr := by rw [landReply_changes]
@[simp] theorem landReply_host (o : Origin) (final : Bool) (r : Reply) (s : State) : (landReply o final r s).host = s.host := by rw [landReply_changes]
@[simp] theorem landReply_mgmt (o : Origin) (final : Bool) (r : Reply) (s : State) : (landReply o final r s).mgmt = s.mgmt := by rw [landReply_changes]
@[simp] theorem landReply_flags (o : Origin) (final : Bool) (r : Reply) (s : State) : (landReply o final r s).flags = s.flags := by rw [landReply_changes]
@[simp] theorem landReply_commands (o : Origin) (final : Bool) (r : Reply) (s : State) : (landReply o final r s).commands = s.commands := by rw [landReply_changes]
@[simp] theorem landReply_counters (o : Origin) (final : Bool) (r : Reply) (s : State) : (landReply o final r s).counters = s.counters := by rw [landReply_changes]
@[simp] theorem landReply_latched (o : Origin) (final : Bool) (r : Reply) (s : State) : (landReply o final r s).latched = s.latched := by rw [landReply_changes]
@[simp] theorem landReply_cad (o : Origin) (final : Bool) (r : Reply) (s : State) : (landReply o final r s).cad = s.cad := by rw [landReply_changes]
@[simp] theorem landReply_sup (o : Origin) (final : Bool) (r : Reply) (s : State) : (landReply o final r s).sup = s.sup := by rw [landReply_changes]
@[simp] theorem landReply_sec (o : Origin) (final : Bool) (r : Reply) (s : State) : (landReply o final r s).sec = s.sec := by rw [landReply_changes]
@[simp] theorem landReply_secw (o : Origin) (final : Bool) (r : Reply) (s : State) : (landReply o final r s).secw = s.secw := by rw [landReply_changes]
@[simp] theorem landReply_evr (o : Origin) (final : Bool) (r : Reply) (s : State) : (landReply o final r s).evr = s.evr := by rw [landReply_changes]
@[simp] theorem landReply_slots (o : Origin) (final : Bool) (r : Reply) (s : State) : (landReply o final r s).slots = s.slots := by rw [landReply_changes]
@[simp] theorem landReply_tier (o : Origin) (final : Bool) (r : Reply) (s : State) : (landReply o final r s).tier = s.tier := by rw [landReply_changes]
@[simp] theorem landReply_mem (o : Origin) (final : Bool) (r : Reply) (s : State) : (landReply o final r s).mem = s.mem := by rw [landReply_changes]
@[simp] theorem landReply_fab (o : Origin) (final : Bool) (r : Reply) (s : State) : (landReply o final r s).fab = s.fab := by rw [landReply_changes]
@[simp] theorem landReply_cont (o : Origin) (final : Bool) (r : Reply) (s : State) : (landReply o final r s).cont = s.cont := by rw [landReply_changes]
@[simp] theorem landReply_sched (o : Origin) (final : Bool) (r : Reply) (s : State) : (landReply o final r s).sched = s.sched := by rw [landReply_changes]
@[simp] theorem landReply_comp (o : Origin) (final : Bool) (r : Reply) (s : State) : (landReply o final r s).comp = s.comp := by rw [landReply_changes]
@[simp] theorem landReply_links (o : Origin) (final : Bool) (r : Reply) (s : State) : (landReply o final r s).links = s.links := by rw [landReply_changes]
@[simp] theorem landReply_saves (o : Origin) (final : Bool) (r : Reply) (s : State) : (landReply o final r s).saves = s.saves := by rw [landReply_changes]
@[simp] theorem landReply_svc (o : Origin) (final : Bool) (r : Reply) (s : State) : (landReply o final r s).svc = s.svc := by rw [landReply_changes]
@[simp] theorem landReply_cal (o : Origin) (final : Bool) (r : Reply) (s : State) : (landReply o final r s).cal = s.cal := by rw [landReply_changes]

theorem countStatus_changes (o : Origin) (a : Ans) (s : State) :
    countStatus o a s = { s with
      counters := (countStatus o a s).counters,
      sec := (countStatus o a s).sec,
      evr := (countStatus o a s).evr,
      flags := (countStatus o a s).flags,
      mgmt := (countStatus o a s).mgmt,
      out := (countStatus o a s).out } := by
  unfold countStatus
  split
  · rfl
  · split
    · rfl
    · split
      · rfl
      · split
        · rw [report_changes, setFlag_changes]
        · rfl

@[simp] theorem countStatus_pending (o : Origin) (a : Ans) (s : State) : (countStatus o a s).pending = s.pending := by rw [countStatus_changes]
@[simp] theorem countStatus_freeCtr (o : Origin) (a : Ans) (s : State) : (countStatus o a s).freeCtr = s.freeCtr := by rw [countStatus_changes]
@[simp] theorem countStatus_host (o : Origin) (a : Ans) (s : State) : (countStatus o a s).host = s.host := by rw [countStatus_changes]
@[simp] theorem countStatus_clients (o : Origin) (a : Ans) (s : State) : (countStatus o a s).clients = s.clients := by rw [countStatus_changes]
@[simp] theorem countStatus_commands (o : Origin) (a : Ans) (s : State) : (countStatus o a s).commands = s.commands := by rw [countStatus_changes]
@[simp] theorem countStatus_latched (o : Origin) (a : Ans) (s : State) : (countStatus o a s).latched = s.latched := by rw [countStatus_changes]
@[simp] theorem countStatus_cad (o : Origin) (a : Ans) (s : State) : (countStatus o a s).cad = s.cad := by rw [countStatus_changes]
@[simp] theorem countStatus_sup (o : Origin) (a : Ans) (s : State) : (countStatus o a s).sup = s.sup := by rw [countStatus_changes]
@[simp] theorem countStatus_secw (o : Origin) (a : Ans) (s : State) : (countStatus o a s).secw = s.secw := by rw [countStatus_changes]
@[simp] theorem countStatus_slots (o : Origin) (a : Ans) (s : State) : (countStatus o a s).slots = s.slots := by rw [countStatus_changes]
@[simp] theorem countStatus_tier (o : Origin) (a : Ans) (s : State) : (countStatus o a s).tier = s.tier := by rw [countStatus_changes]
@[simp] theorem countStatus_mem (o : Origin) (a : Ans) (s : State) : (countStatus o a s).mem = s.mem := by rw [countStatus_changes]
@[simp] theorem countStatus_fab (o : Origin) (a : Ans) (s : State) : (countStatus o a s).fab = s.fab := by rw [countStatus_changes]
@[simp] theorem countStatus_cont (o : Origin) (a : Ans) (s : State) : (countStatus o a s).cont = s.cont := by rw [countStatus_changes]
@[simp] theorem countStatus_sched (o : Origin) (a : Ans) (s : State) : (countStatus o a s).sched = s.sched := by rw [countStatus_changes]
@[simp] theorem countStatus_comp (o : Origin) (a : Ans) (s : State) : (countStatus o a s).comp = s.comp := by rw [countStatus_changes]
@[simp] theorem countStatus_links (o : Origin) (a : Ans) (s : State) : (countStatus o a s).links = s.links := by rw [countStatus_changes]
@[simp] theorem countStatus_saves (o : Origin) (a : Ans) (s : State) : (countStatus o a s).saves = s.saves := by rw [countStatus_changes]
@[simp] theorem countStatus_svc (o : Origin) (a : Ans) (s : State) : (countStatus o a s).svc = s.svc := by rw [countStatus_changes]
@[simp] theorem countStatus_cal (o : Origin) (a : Ans) (s : State) : (countStatus o a s).cal = s.cal := by rw [countStatus_changes]

theorem replyTo_changes (o : Origin) (final : Bool) (a : Ans) (s : State) :
    replyTo o final a s = { s with
      clients := (replyTo o final a s).clients,
      slots := (replyTo o final a s).slots,
      counters := (replyTo o final a s).counters,
      sec := (replyTo o final a s).sec,
      evr := (replyTo o final a s).evr,
      flags := (replyTo o final a s).flags,
      mgmt := (replyTo o final a s).mgmt,
      out := (replyTo o final a s).out } := by
  unfold replyTo
  dsimp only
  rw [landReply_changes, countStatus_changes]
  split <;> rfl

@[simp] theorem replyTo_pending (o : Origin) (final : Bool) (a : Ans) (s : State) : (replyTo o final a s).pending = s.pending := by rw [replyTo_changes]
@[simp] theorem replyTo_freeCtr (o : Origin) (final : Bool) (a : Ans) (s : State) : (replyTo o final a s).freeCtr = s.freeCtr := by rw [replyTo_changes]
@[simp] theorem replyTo_host (o : Origin) (final : Bool) (a : Ans) (s : State) : (replyTo o final a s).host = s.host := by rw [replyTo_changes]
@[simp] theorem replyTo_commands (o : Origin) (final : Bool) (a : Ans) (s : State) : (replyTo o final a s).commands = s.commands := by rw [replyTo_changes]
@[simp] theorem replyTo_latched (o : Origin) (final : Bool) (a : Ans) (s : State) : (replyTo o final a s).latched = s.latched := by rw [replyTo_changes]
@[simp] theorem replyTo_cad (o : Origin) (final : Bool) (a : Ans) (s : State) : (replyTo o final a s).cad = s.cad := by rw [replyTo_changes]
@[simp] theorem replyTo_sup (o : Origin) (final : Bool) (a : Ans) (s : State) : (replyTo o final a s).sup = s.sup := by rw [replyTo_changes]
@[simp] theorem replyTo_secw (o : Origin) (final : Bool) (a : Ans) (s : State) : (replyTo o final a s).secw = s.secw := by rw [replyTo_changes]
@[simp] theorem replyTo_tier (o : Origin) (final : Bool) (a : Ans) (s : State) : (replyTo o final a s).tier = s.tier := by rw [replyTo_changes]
@[simp] theorem replyTo_mem (o : Origin) (final : Bool) (a : Ans) (s : State) : (replyTo o final a s).mem = s.mem := by rw [replyTo_changes]
@[simp] theorem replyTo_fab (o : Origin) (final : Bool) (a : Ans) (s : State) : (replyTo o final a s).fab = s.fab := by rw [replyTo_changes]
@[simp] theorem replyTo_cont (o : Origin) (final : Bool) (a : Ans) (s : State) : (replyTo o final a s).cont = s.cont := by rw [replyTo_changes]
@[simp] theorem replyTo_sched (o : Origin) (final : Bool) (a : Ans) (s : State) : (replyTo o final a s).sched = s.sched := by rw [replyTo_changes]
@[simp] theorem replyTo_comp (o : Origin) (final : Bool) (a : Ans) (s : State) : (replyTo o final a s).comp = s.comp := by rw [replyTo_changes]
@[simp] theorem replyTo_links (o : Origin) (final : Bool) (a : Ans) (s : State) : (replyTo o final a s).links = s.links := by rw [replyTo_changes]
@[simp] theorem replyTo_saves (o : Origin) (final : Bool) (a : Ans) (s : State) : (replyTo o final a s).saves = s.saves := by rw [replyTo_changes]
@[simp] theorem replyTo_svc (o : Origin) (final : Bool) (a : Ans) (s : State) : (replyTo o final a s).svc = s.svc := by rw [replyTo_changes]
@[simp] theorem replyTo_cal (o : Origin) (final : Bool) (a : Ans) (s : State) : (replyTo o final a s).cal = s.cal := by rw [replyTo_changes]

theorem reply_changes (p : Packet) (a : Ans) (s : State) :
    reply p a s = { s with
      clients := (reply p a s).clients,
      slots := (reply p a s).slots,
      counters := (reply p a s).counters,
      sec := (reply p a s).sec,
      evr := (reply p a s).evr,
      flags := (reply p a s).flags,
      mgmt := (reply p a s).mgmt,
      out := (reply p a s).out } := by
  exact replyTo_changes _ _ _ s

@[simp] theorem reply_pending (p : Packet) (a : Ans) (s : State) : (reply p a s).pending = s.pending := by rw [reply_changes]
@[simp] theorem reply_freeCtr (p : Packet) (a : Ans) (s : State) : (reply p a s).freeCtr = s.freeCtr := by rw [reply_changes]
@[simp] theorem reply_host (p : Packet) (a : Ans) (s : State) : (reply p a s).host = s.host := by rw [reply_changes]
@[simp] theorem reply_commands (p : Packet) (a : Ans) (s : State) : (reply p a s).commands = s.commands := by rw [reply_changes]
@[simp] theorem reply_latched (p : Packet) (a : Ans) (s : State) : (reply p a s).latched = s.latched := by rw [reply_changes]
@[simp] theorem reply_cad (p : Packet) (a : Ans) (s : State) : (reply p a s).cad = s.cad := by rw [reply_changes]
@[simp] theorem reply_sup (p : Packet) (a : Ans) (s : State) : (reply p a s).sup = s.sup := by rw [reply_changes]
@[simp] theorem reply_secw (p : Packet) (a : Ans) (s : State) : (reply p a s).secw = s.secw := by rw [reply_changes]
@[simp] theorem reply_tier (p : Packet) (a : Ans) (s : State) : (reply p a s).tier = s.tier := by rw [reply_changes]
@[simp] theorem reply_mem (p : Packet) (a : Ans) (s : State) : (reply p a s).mem = s.mem := by rw [reply_changes]
@[simp] theorem reply_fab (p : Packet) (a : Ans) (s : State) : (reply p a s).fab = s.fab := by rw [reply_changes]
@[simp] theorem reply_cont (p : Packet) (a : Ans) (s : State) : (reply p a s).cont = s.cont := by rw [reply_changes]
@[simp] theorem reply_sched (p : Packet) (a : Ans) (s : State) : (reply p a s).sched = s.sched := by rw [reply_changes]
@[simp] theorem reply_comp (p : Packet) (a : Ans) (s : State) : (reply p a s).comp = s.comp := by rw [reply_changes]
@[simp] theorem reply_links (p : Packet) (a : Ans) (s : State) : (reply p a s).links = s.links := by rw [reply_changes]
@[simp] theorem reply_saves (p : Packet) (a : Ans) (s : State) : (reply p a s).saves = s.saves := by rw [reply_changes]
@[simp] theorem reply_svc (p : Packet) (a : Ans) (s : State) : (reply p a s).svc = s.svc := by rw [reply_changes]
@[simp] theorem reply_cal (p : Packet) (a : Ans) (s : State) : (reply p a s).cal = s.cal := by rw [reply_changes]

theorem accept_changes (p : Packet) (w : Work) (s : State) :
    accept p w s = { s with
      commands := (accept p w s).commands,
      clients := (accept p w s).clients,
      slots := (accept p w s).slots,
      counters := (accept p w s).counters,
      sec := (accept p w s).sec,
      evr := (accept p w s).evr,
      flags := (accept p w s).flags,
      mgmt := (accept p w s).mgmt,
      out := (accept p w s).out } := by
  unfold accept
  dsimp only [await]
  rw [replyTo_changes]

@[simp] theorem accept_pending (p : Packet) (w : Work) (s : State) : (accept p w s).pending = s.pending := by rw [accept_changes]
@[simp] theorem accept_freeCtr (p : Packet) (w : Work) (s : State) : (accept p w s).freeCtr = s.freeCtr := by rw [accept_changes]
@[simp] theorem accept_host (p : Packet) (w : Work) (s : State) : (accept p w s).host = s.host := by rw [accept_changes]
@[simp] theorem accept_latched (p : Packet) (w : Work) (s : State) : (accept p w s).latched = s.latched := by rw [accept_changes]
@[simp] theorem accept_cad (p : Packet) (w : Work) (s : State) : (accept p w s).cad = s.cad := by rw [accept_changes]
@[simp] theorem accept_sup (p : Packet) (w : Work) (s : State) : (accept p w s).sup = s.sup := by rw [accept_changes]
@[simp] theorem accept_secw (p : Packet) (w : Work) (s : State) : (accept p w s).secw = s.secw := by rw [accept_changes]
@[simp] theorem accept_tier (p : Packet) (w : Work) (s : State) : (accept p w s).tier = s.tier := by rw [accept_changes]
@[simp] theorem accept_mem (p : Packet) (w : Work) (s : State) : (accept p w s).mem = s.mem := by rw [accept_changes]
@[simp] theorem accept_fab (p : Packet) (w : Work) (s : State) : (accept p w s).fab = s.fab := by rw [accept_changes]
@[simp] theorem accept_cont (p : Packet) (w : Work) (s : State) : (accept p w s).cont = s.cont := by rw [accept_changes]
@[simp] theorem accept_sched (p : Packet) (w : Work) (s : State) : (accept p w s).sched = s.sched := by rw [accept_changes]
@[simp] theorem accept_comp (p : Packet) (w : Work) (s : State) : (accept p w s).comp = s.comp := by rw [accept_changes]
@[simp] theorem accept_links (p : Packet) (w : Work) (s : State) : (accept p w s).links = s.links := by rw [accept_changes]
@[simp] theorem accept_saves (p : Packet) (w : Work) (s : State) : (accept p w s).saves = s.saves := by rw [accept_changes]
@[simp] theorem accept_svc (p : Packet) (w : Work) (s : State) : (accept p w s).svc = s.svc := by rw [accept_changes]
@[simp] theorem accept_cal (p : Packet) (w : Work) (s : State) : (accept p w s).cal = s.cal := by rw [accept_changes]

theorem replies_change (l : List Command) (a : Ans) (s : State) :
    l.foldl (fun s c => replyTo c.origin true a s) s = { s with
      clients := (l.foldl (fun s c => replyTo c.origin true a s) s).clients,
      slots := (l.foldl (fun s c => replyTo c.origin true a s) s).slots,
      counters := (l.foldl (fun s c => replyTo c.origin true a s) s).counters,
      sec := (l.foldl (fun s c => replyTo c.origin true a s) s).sec,
      evr := (l.foldl (fun s c => replyTo c.origin true a s) s).evr,
      flags := (l.foldl (fun s c => replyTo c.origin true a s) s).flags,
      mgmt := (l.foldl (fun s c => replyTo c.origin true a s) s).mgmt,
      out := (l.foldl (fun s c => replyTo c.origin true a s) s).out } := by
  induction l generalizing s with
  | nil => rfl
  | cons c rest ih =>
    rw [List.foldl_cons, ih, replyTo_changes]

theorem finish_changes (w : Work) (a : Ans) (s : State) :
    finish w a s = { s with
      commands := (finish w a s).commands,
      clients := (finish w a s).clients,
      slots := (finish w a s).slots,
      counters := (finish w a s).counters,
      sec := (finish w a s).sec,
      evr := (finish w a s).evr,
      flags := (finish w a s).flags,
      mgmt := (finish w a s).mgmt,
      out := (finish w a s).out } := by
  unfold finish
  rw [replies_change]

@[simp] theorem finish_pending (w : Work) (a : Ans) (s : State) : (finish w a s).pending = s.pending := by rw [finish_changes]
@[simp] theorem finish_freeCtr (w : Work) (a : Ans) (s : State) : (finish w a s).freeCtr = s.freeCtr := by rw [finish_changes]
@[simp] theorem finish_host (w : Work) (a : Ans) (s : State) : (finish w a s).host = s.host := by rw [finish_changes]
@[simp] theorem finish_latched (w : Work) (a : Ans) (s : State) : (finish w a s).latched = s.latched := by rw [finish_changes]
@[simp] theorem finish_cad (w : Work) (a : Ans) (s : State) : (finish w a s).cad = s.cad := by rw [finish_changes]
@[simp] theorem finish_sup (w : Work) (a : Ans) (s : State) : (finish w a s).sup = s.sup := by rw [finish_changes]
@[simp] theorem finish_secw (w : Work) (a : Ans) (s : State) : (finish w a s).secw = s.secw := by rw [finish_changes]
@[simp] theorem finish_tier (w : Work) (a : Ans) (s : State) : (finish w a s).tier = s.tier := by rw [finish_changes]
@[simp] theorem finish_mem (w : Work) (a : Ans) (s : State) : (finish w a s).mem = s.mem := by rw [finish_changes]
@[simp] theorem finish_fab (w : Work) (a : Ans) (s : State) : (finish w a s).fab = s.fab := by rw [finish_changes]
@[simp] theorem finish_cont (w : Work) (a : Ans) (s : State) : (finish w a s).cont = s.cont := by rw [finish_changes]
@[simp] theorem finish_sched (w : Work) (a : Ans) (s : State) : (finish w a s).sched = s.sched := by rw [finish_changes]
@[simp] theorem finish_comp (w : Work) (a : Ans) (s : State) : (finish w a s).comp = s.comp := by rw [finish_changes]
@[simp] theorem finish_links (w : Work) (a : Ans) (s : State) : (finish w a s).links = s.links := by rw [finish_changes]
@[simp] theorem finish_saves (w : Work) (a : Ans) (s : State) : (finish w a s).saves = s.saves := by rw [finish_changes]
@[simp] theorem finish_svc (w : Work) (a : Ans) (s : State) : (finish w a s).svc = s.svc := by rw [finish_changes]
@[simp] theorem finish_cal (w : Work) (a : Ans) (s : State) : (finish w a s).cal = s.cal := by rw [finish_changes]

theorem hostWrite_changes (n addr kind : Nat) (b : Bytes) (s : State) :
    hostWrite n addr kind b s = { s with
      sec := (hostWrite n addr kind b s).sec,
      out := (hostWrite n addr kind b s).out } := by
  unfold hostWrite takeSeq
  split
  · dsimp only
    split <;> rfl
  · rfl

@[simp] theorem hostWrite_pending (n addr kind : Nat) (b : Bytes) (s : State) : (hostWrite n addr kind b s).pending = s.pending := by rw [hostWrite_changes]
@[simp] theorem hostWrite_freeCtr (n addr kind : Nat) (b : Bytes) (s : State) : (hostWrite n addr kind b s).freeCtr = s.freeCtr := by rw [hostWrite_changes]
@[simp] theorem hostWrite_host (n addr kind : Nat) (b : Bytes) (s : State) : (hostWrite n addr kind b s).host = s.host := by rw [hostWrite_changes]
@[simp] theorem hostWrite_mgmt (n addr kind : Nat) (b : Bytes) (s : State) : (hostWrite n addr kind b s).mgmt = s.mgmt := by rw [hostWrite_changes]
@[simp] theorem hostWrite_flags (n addr kind : Nat) (b : Bytes) (s : State) : (hostWrite n addr kind b s).flags = s.flags := by rw [hostWrite_changes]
@[simp] theorem hostWrite_clients (n addr kind : Nat) (b : Bytes) (s : State) : (hostWrite n addr kind b s).clients = s.clients := by rw [hostWrite_changes]
@[simp] theorem hostWrite_commands (n addr kind : Nat) (b : Bytes) (s : State) : (hostWrite n addr kind b s).commands = s.commands := by rw [hostWrite_changes]
@[simp] theorem hostWrite_counters (n addr kind : Nat) (b : Bytes) (s : State) : (hostWrite n addr kind b s).counters = s.counters := by rw [hostWrite_changes]
@[simp] theorem hostWrite_latched (n addr kind : Nat) (b : Bytes) (s : State) : (hostWrite n addr kind b s).latched = s.latched := by rw [hostWrite_changes]
@[simp] theorem hostWrite_cad (n addr kind : Nat) (b : Bytes) (s : State) : (hostWrite n addr kind b s).cad = s.cad := by rw [hostWrite_changes]
@[simp] theorem hostWrite_sup (n addr kind : Nat) (b : Bytes) (s : State) : (hostWrite n addr kind b s).sup = s.sup := by rw [hostWrite_changes]
@[simp] theorem hostWrite_secw (n addr kind : Nat) (b : Bytes) (s : State) : (hostWrite n addr kind b s).secw = s.secw := by rw [hostWrite_changes]
@[simp] theorem hostWrite_evr (n addr kind : Nat) (b : Bytes) (s : State) : (hostWrite n addr kind b s).evr = s.evr := by rw [hostWrite_changes]
@[simp] theorem hostWrite_slots (n addr kind : Nat) (b : Bytes) (s : State) : (hostWrite n addr kind b s).slots = s.slots := by rw [hostWrite_changes]
@[simp] theorem hostWrite_tier (n addr kind : Nat) (b : Bytes) (s : State) : (hostWrite n addr kind b s).tier = s.tier := by rw [hostWrite_changes]
@[simp] theorem hostWrite_mem (n addr kind : Nat) (b : Bytes) (s : State) : (hostWrite n addr kind b s).mem = s.mem := by rw [hostWrite_changes]
@[simp] theorem hostWrite_fab (n addr kind : Nat) (b : Bytes) (s : State) : (hostWrite n addr kind b s).fab = s.fab := by rw [hostWrite_changes]
@[simp] theorem hostWrite_cont (n addr kind : Nat) (b : Bytes) (s : State) : (hostWrite n addr kind b s).cont = s.cont := by rw [hostWrite_changes]
@[simp] theorem hostWrite_sched (n addr kind : Nat) (b : Bytes) (s : State) : (hostWrite n addr kind b s).sched = s.sched := by rw [hostWrite_changes]
@[simp] theorem hostWrite_comp (n addr kind : Nat) (b : Bytes) (s : State) : (hostWrite n addr kind b s).comp = s.comp := by rw [hostWrite_changes]
@[simp] theorem hostWrite_links (n addr kind : Nat) (b : Bytes) (s : State) : (hostWrite n addr kind b s).links = s.links := by rw [hostWrite_changes]
@[simp] theorem hostWrite_saves (n addr kind : Nat) (b : Bytes) (s : State) : (hostWrite n addr kind b s).saves = s.saves := by rw [hostWrite_changes]
@[simp] theorem hostWrite_svc (n addr kind : Nat) (b : Bytes) (s : State) : (hostWrite n addr kind b s).svc = s.svc := by rw [hostWrite_changes]
@[simp] theorem hostWrite_cal (n addr kind : Nat) (b : Bytes) (s : State) : (hostWrite n addr kind b s).cal = s.cal := by rw [hostWrite_changes]

theorem hostOut_changes (o : Origin) (addr kind : Nat) (b : Bytes) (s : State) :
    hostOut o addr kind b s = { s with
      sec := (hostOut o addr kind b s).sec,
      out := (hostOut o addr kind b s).out } := by
  unfold hostOut
  split
  · rfl
  · rw [hostWrite_changes]

@[simp] theorem hostOut_pending (o : Origin) (addr kind : Nat) (b : Bytes) (s : State) : (hostOut o addr kind b s).pending = s.pending := by rw [hostOut_changes]
@[simp] theorem hostOut_freeCtr (o : Origin) (addr kind : Nat) (b : Bytes) (s : State) : (hostOut o addr kind b s).freeCtr = s.freeCtr := by rw [hostOut_changes]
@[simp] theorem hostOut_host (o : Origin) (addr kind : Nat) (b : Bytes) (s : State) : (hostOut o addr kind b s).host = s.host := by rw [hostOut_changes]
@[simp] theorem hostOut_mgmt (o : Origin) (addr kind : Nat) (b : Bytes) (s : State) : (hostOut o addr kind b s).mgmt = s.mgmt := by rw [hostOut_changes]
@[simp] theorem hostOut_flags (o : Origin) (addr kind : Nat) (b : Bytes) (s : State) : (hostOut o addr kind b s).flags = s.flags := by rw [hostOut_changes]
@[simp] theorem hostOut_clients (o : Origin) (addr kind : Nat) (b : Bytes) (s : State) : (hostOut o addr kind b s).clients = s.clients := by rw [hostOut_changes]
@[simp] theorem hostOut_commands (o : Origin) (addr kind : Nat) (b : Bytes) (s : State) : (hostOut o addr kind b s).commands = s.commands := by rw [hostOut_changes]
@[simp] theorem hostOut_counters (o : Origin) (addr kind : Nat) (b : Bytes) (s : State) : (hostOut o addr kind b s).counters = s.counters := by rw [hostOut_changes]
@[simp] theorem hostOut_latched (o : Origin) (addr kind : Nat) (b : Bytes) (s : State) : (hostOut o addr kind b s).latched = s.latched := by rw [hostOut_changes]
@[simp] theorem hostOut_cad (o : Origin) (addr kind : Nat) (b : Bytes) (s : State) : (hostOut o addr kind b s).cad = s.cad := by rw [hostOut_changes]
@[simp] theorem hostOut_sup (o : Origin) (addr kind : Nat) (b : Bytes) (s : State) : (hostOut o addr kind b s).sup = s.sup := by rw [hostOut_changes]
@[simp] theorem hostOut_secw (o : Origin) (addr kind : Nat) (b : Bytes) (s : State) : (hostOut o addr kind b s).secw = s.secw := by rw [hostOut_changes]
@[simp] theorem hostOut_evr (o : Origin) (addr kind : Nat) (b : Bytes) (s : State) : (hostOut o addr kind b s).evr = s.evr := by rw [hostOut_changes]
@[simp] theorem hostOut_slots (o : Origin) (addr kind : Nat) (b : Bytes) (s : State) : (hostOut o addr kind b s).slots = s.slots := by rw [hostOut_changes]
@[simp] theorem hostOut_tier (o : Origin) (addr kind : Nat) (b : Bytes) (s : State) : (hostOut o addr kind b s).tier = s.tier := by rw [hostOut_changes]
@[simp] theorem hostOut_mem (o : Origin) (addr kind : Nat) (b : Bytes) (s : State) : (hostOut o addr kind b s).mem = s.mem := by rw [hostOut_changes]
@[simp] theorem hostOut_fab (o : Origin) (addr kind : Nat) (b : Bytes) (s : State) : (hostOut o addr kind b s).fab = s.fab := by rw [hostOut_changes]
@[simp] theorem hostOut_cont (o : Origin) (addr kind : Nat) (b : Bytes) (s : State) : (hostOut o addr kind b s).cont = s.cont := by rw [hostOut_changes]
@[simp] theorem hostOut_sched (o : Origin) (addr kind : Nat) (b : Bytes) (s : State) : (hostOut o addr kind b s).sched = s.sched := by rw [hostOut_changes]
@[simp] theorem hostOut_comp (o : Origin) (addr kind : Nat) (b : Bytes) (s : State) : (hostOut o addr kind b s).comp = s.comp := by rw [hostOut_changes]
@[simp] theorem hostOut_links (o : Origin) (addr kind : Nat) (b : Bytes) (s : State) : (hostOut o addr kind b s).links = s.links := by rw [hostOut_changes]
@[simp] theorem hostOut_saves (o : Origin) (addr kind : Nat) (b : Bytes) (s : State) : (hostOut o addr kind b s).saves = s.saves := by rw [hostOut_changes]
@[simp] theorem hostOut_svc (o : Origin) (addr kind : Nat) (b : Bytes) (s : State) : (hostOut o addr kind b s).svc = s.svc := by rw [hostOut_changes]
@[simp] theorem hostOut_cal (o : Origin) (addr kind : Nat) (b : Bytes) (s : State) : (hostOut o addr kind b s).cal = s.cal := by rw [hostOut_changes]

/-! ### Serving a packet -/

@[simp] theorem admitted_green (p : Packet) (s t : State) : admitted 0 p s t = t := by simp [admitted]

theorem passes_prior {waits : Packet → State → Bool} {p : Packet} {s t : State} (h : passes waits p s = some t) :
    (priorOf p s).isSome = true := by
  unfold passes at h
  split at h
  · cases h
  · next e => simp [e]

/-- A packet of the row whose checks pass runs its body, and is then no longer waiting to be served (11 R315). -/
theorem serveHost_passes {data : Bytes} {is : Packet → Bool} {waits : Packet → State → Bool} {body : Nat → Packet → State → State}
    {p : Packet} {s t : State} (hi : is p = true) (h : passes waits p s = some t) :
    serveHost data is waits body p s = dropRecognised p (body 0 p t) := by
  have hp := passes_prior h
  obtain ⟨prior, e⟩ := Option.isSome_iff_exists.mp hp
  unfold passes at h
  unfold serveHost
  rw [if_neg (by simp [hi])]
  dsimp only
  rw [if_pos hp]
  rw [e] at h ⊢
  dsimp only at h ⊢
  generalize gate p prior s = g at h ⊢
  cases g with
  | run colour s1 =>
    by_cases hc : colour = 0
    · subst hc
      replace h : (if waits p s1 = true then none
          else match (if readsEnveloped p s1 = true then openEnvelopes p.client (inputKind p) (if isSealed p = true then p.envs.drop 1 else p.envs) s1 else Except.ok s1) with
            | .error _ => none
            | .ok s2 => some s2) = some t := h
      dsimp only
      by_cases hw : waits p s1 = true
      · rw [if_pos hw] at h
        cases h
      · rw [if_neg hw] at h ⊢
        generalize (if readsEnveloped p s1 = true then openEnvelopes p.client (inputKind p) (if isSealed p = true then p.envs.drop 1 else p.envs) s1 else Except.ok s1) = o at h ⊢
        cases o with
        | error d => cases h
        | ok s2 =>
          cases h
          dsimp only
          rw [admitted_green]
    · split at h
      · next heq => cases heq; exact absurd rfl hc
      · cases h
  | _ => cases h

/-- A packet of another row changes nothing. -/
theorem serveHost_other {data : Bytes} {is : Packet → Bool} {waits : Packet → State → Bool} {body : Nat → Packet → State → State}
    {p : Packet} {s : State} (hi : is p = false) : serveHost data is waits body p s = s := by
  simp [serveHost, hi]

/-- `serve_passes` for packets that bring no host data. -/
theorem serve_passes {is : Packet → Bool} {waits : Packet → State → Bool} {body : Nat → Packet → State → State}
    {p : Packet} {s t : State} (hi : is p = true) (h : passes waits p s = some t) :
    serve is waits body p s = dropRecognised p (body 0 p t) := serveHost_passes hi h

theorem serve_other {is : Packet → Bool} {waits : Packet → State → Bool} {body : Nat → Packet → State → State}
    {p : Packet} {s : State} (hi : is p = false) : serve is waits body p s = s := serveHost_other hi

/-! ### Flags -/

/-- Setting a flag leaves it set, one set counted (19 R477). -/
theorem getFlag_setFlag_same (off bit : Nat) (s : State) :
    getFlag (setFlag off bit s) off bit = { getFlag s off bit with on := true, sets := satAdd 0xFFFFFFFF (getFlag s off bit).sets 1 } := by
  have h : (setFlag off bit s).flags = FMap.put s.flags (flagKey off bit)
      { getFlag s off bit with on := true, sets := satAdd 0xFFFFFFFF (getFlag s off bit).sets 1 } := by
    unfold setFlag
    dsimp only
    rw [raiseEvent_flags]
  simp [getFlag, h]

theorem getFlag_setFlag_other {off bit off' bit' : Nat} (s : State) (h : flagKey off' bit' ≠ flagKey off bit) :
    getFlag (setFlag off bit s) off' bit' = getFlag s off' bit' := by
  have e : (setFlag off bit s).flags = FMap.put s.flags (flagKey off bit)
      { getFlag s off bit with on := true, sets := satAdd 0xFFFFFFFF (getFlag s off bit).sets 1 } := by
    unfold setFlag
    dsimp only
    rw [raiseEvent_flags]
  simp [getFlag, e, FMap.getD_put_other _ _ _ h]

/-- Software's clear leaves a flag clear unless hardware sets it in the same cycle (19 R477). -/
theorem getFlag_clearFlag (off bit : Nat) (hw : Bool) (s : State) : (getFlag (clearFlag off bit hw s) off bit).on = hw := by
  cases hw
  · simp [clearFlag, getFlag]
  · have h : (clearFlag off bit true s).flags = FMap.put s.flags (flagKey off bit)
        { on := true, sets := satAdd 0xFFFFFFFF (getFlag s off bit).sets 1, collisions := satAdd 0xFFFFFFFF (getFlag s off bit).collisions 1 } := by
      unfold clearFlag
      dsimp only
      rw [if_pos rfl, raiseEvent_flags]
    simp [getFlag, h]

end Sys2Proof.Machine
end

