-- ==== Sys2Proof/Laws/Store.lean ====
section
/-! SUPPORT. The Block store: the operations over it change nothing else, keep its regions canonical, and a region read after a write gives the bytes written. -/

namespace Sys2Proof.Machine

/-- Both generations of every region are canonical memories. -/
def storeWf (m : FMap RegionStore) : Prop := ∀ i, Memory.wf (FMap.getD m i {}).now = true ∧ Memory.wf (FMap.getD m i {}).before = true

theorem storeWf_nil : storeWf [] := fun _ => ⟨rfl, rfl⟩

theorem storeAt_modStore_same (i : Nat) (f : RegionStore → RegionStore) (s : State) : storeAt (modStore i f s) i = f (storeAt s i) := by
  simp [storeAt, modStore]

theorem storeAt_modStore_other {i k : Nat} (f : RegionStore → RegionStore) (s : State) (h : k ≠ i) : storeAt (modStore i f s) k = storeAt s k := by
  simp [storeAt, modStore, FMap.getD_put_other _ _ _ h]

theorem writeRegion_changes (late : Bool) (i o : Nat) (b : Bytes) (s : State) :
    ∃ m, writeRegion late i o b s = { s with fab := { s.fab with store := m } } := by
  unfold writeRegion
  split
  · exact ⟨s.fab.store, rfl⟩
  · split
    · exact ⟨s.fab.store, rfl⟩
    · split <;> exact ⟨_, rfl⟩

theorem commitRegion_changes (id i o : Nat) (b : Bytes) (s : State) :
    ∃ m, commitRegion id i o b s = { s with fab := { s.fab with store := m } } := by
  unfold commitRegion
  split
  · exact ⟨s.fab.store, rfl⟩
  · split
    · obtain ⟨m, hm⟩ := writeRegion_changes false i o b s
      obtain ⟨n, hn⟩ := writeRegion_changes false (Region.mirror ‹Region›) o b (writeRegion false i o b s)
      exact ⟨n, by rw [hn, hm]⟩
    · exact ⟨s.fab.store, rfl⟩

/-- A step of a command writes one region of its slot at the most. -/
theorem stepRegion_changes (ks : List Nat) (id i o : Nat) (b : Bytes) (s : State) :
    ∃ m, stepRegion ks id i o b s = { s with fab := { s.fab with store := m } } := by
  unfold stepRegion
  split
  · split
    · exact writeRegion_changes false i o b s
    · exact ⟨s.fab.store, rfl⟩
  · exact ⟨s.fab.store, rfl⟩

theorem storeWf_modStore {i : Nat} {f : RegionStore → RegionStore} {s : State} (h : storeWf s.fab.store)
    (hf : Memory.wf (f (storeAt s i)).now = true ∧ Memory.wf (f (storeAt s i)).before = true) : storeWf (modStore i f s).fab.store := by
  intro k
  by_cases hk : k = i
  · subst hk
    have := storeAt_modStore_same k f s
    unfold storeAt at this
    rw [this]; exact hf
  · have := storeAt_modStore_other f s hk
    unfold storeAt at this
    rw [this]; exact h k

/-- Writing a region keeps the canonical form. -/
theorem writeRegion_wf {late : Bool} {i o : Nat} {b : Bytes} {s : State} (h : storeWf s.fab.store) : storeWf (writeRegion late i o b s).fab.store := by
  unfold writeRegion
  split
  · exact h
  · split
    · exact h
    · split
      · exact storeWf_modStore h ⟨(h i).1, Memory.writeBytes_wf (h i).2⟩
      · exact storeWf_modStore h ⟨Memory.writeBytes_wf (h i).1, Memory.clear_wf (h i).2⟩

theorem commitRegion_wf {id i o : Nat} {b : Bytes} {s : State} (h : storeWf s.fab.store) : storeWf (commitRegion id i o b s).fab.store := by
  unfold commitRegion
  split
  · exact h
  · split
    · exact writeRegion_wf (writeRegion_wf h)
    · exact h

theorem stepRegion_wf {ks : List Nat} {id i o : Nat} {b : Bytes} {s : State} (h : storeWf s.fab.store) :
    storeWf (stepRegion ks id i o b s).fab.store := by
  unfold stepRegion
  split
  · split
    · exact writeRegion_wf h
    · exact h
  · exact h

theorem FMap.getD_filter {α : Type} (p : Nat → Bool) (m : FMap α) (k : Nat) (d : α) :
    FMap.getD (m.filter (fun e => p e.1)) k d = if p k then FMap.getD m k d else d := by
  induction m with
  | nil => simp [FMap.getD, FMap.get?]
  | cons e rest ih =>
    obtain ⟨a, v⟩ := e
    simp only [FMap.getD, FMap.get?] at ih ⊢
    by_cases hk : a = k
    · subst hk
      cases hp : p a
      · simpa [List.filter_cons, hp] using ih
      · simp [hp, FMap.get?]
    · cases hp : p a
      · simpa [List.filter_cons, hp, hk] using ih
      · simpa [List.filter_cons, hp, hk, FMap.get?] using ih

/-- Dropping the regions of one kind of a slot leaves every other region as it is. -/
theorem storeAt_dropKind (kind id i : Nat) (s : State) :
    storeAt (dropKind kind id s) i = if (regionAt s i).any (fun r => r.kind == kind && r.firstSlot == id) then {} else storeAt s i := by
  have h := FMap.getD_filter (fun j => !(regionAt s j).any (fun r => r.kind == kind && r.firstSlot == id)) s.fab.store i {}
  unfold storeAt dropKind
  dsimp only
  rw [h]
  cases (regionAt s i).any (fun r => r.kind == kind && r.firstSlot == id) <;> rfl

theorem dropKind_wf {kind id : Nat} {s : State} (h : storeWf s.fab.store) : storeWf (dropKind kind id s).fab.store := by
  intro i
  have := storeAt_dropKind kind id i s
  unfold storeAt at this
  rw [this]
  split
  · exact ⟨rfl, rfl⟩
  · exact h i

theorem FMap.getD_mapVals {α : Type} (f : Nat → α → α) (m : FMap α) (k : Nat) (d : α) (hd : f k d = d) :
    FMap.getD (FMap.mapVals f m) k d = f k (FMap.getD m k d) := by
  induction m with
  | nil => simp [FMap.getD, FMap.get?, FMap.mapVals, hd]
  | cons e rest ih =>
    obtain ⟨a, v⟩ := e
    simp only [FMap.getD, FMap.mapVals, FMap.get?] at ih ⊢
    by_cases hk : a = k
    · simp [hk]
    · simpa [hk] using ih

theorem aliveAt_empty (img : Image) (t i : Nat) : aliveAt img t i {} = {} := by simp [aliveAt]

/-- What stands in a region after the dead ones are dropped. -/
theorem storeAt_dropDead (img : Image) (t i : Nat) (s : State) : storeAt (dropDead img t s) i = aliveAt img t i (storeAt s i) :=
  FMap.getD_mapVals _ _ _ _ (aliveAt_empty img t i)

theorem wf_or_nothing {m : List (Nat × Byte)} (c : Bool) (h : Memory.wf m = true) : Memory.wf (if c then m else []) = true := by
  cases c
  · rfl
  · exact h

theorem dropDead_wf {img : Image} {t : Nat} {s : State} (h : storeWf s.fab.store) : storeWf (dropDead img t s).fab.store := by
  intro i
  have := storeAt_dropDead img t i s
  unfold storeAt at this
  rw [this]
  exact ⟨wf_or_nothing _ (h i).1, wf_or_nothing _ (h i).2⟩

theorem carryOver_wf {img : Image} {m : FMap RegionStore} (h : storeWf m) : storeWf (carryOver img m) := by
  intro i
  rw [carryOver, FMap.getD_mapVals _ _ _ _ (by simp)]
  exact ⟨rfl, wf_or_nothing _ (h i).1⟩

/-- A byte outside a write of this step. -/
theorem regionByte_write {x : RegionStore} {o a : Nat} {b : Bytes} (h : a < o ∨ o + b.length ≤ a) :
    regionByte { now := Memory.writeBytes x.now o b, before := Memory.clear x.before o b.length } a = regionByte x a := by
  have hc : ¬ (o ≤ a ∧ a < o + b.length) := by omega
  simp [regionByte, Memory.read_writeBytes_other h, Memory.read_clear, hc]

/-- A byte of a write of this step. -/
theorem regionByte_written {x : RegionStore} {o i : Nat} {b : Bytes} (hw : Memory.wf x.now = true) (h : i < b.length) :
    regionByte { now := Memory.writeBytes x.now o b, before := Memory.clear x.before o b.length } (o + i) = b.getD i 0 := by
  simp only [regionByte, Memory.read_writeBytes_same hw h, Memory.read_clear]
  split
  · next h0 => rw [if_pos ⟨by omega, by omega⟩, h0]
  · rfl

/-- A region read over some bytes gives those bytes, if it holds each of them. -/
theorem regionBytes_eq {x : RegionStore} {o : Nat} {b : Bytes} (h : ∀ i, i < b.length → regionByte x (o + i) = b.getD i 0) : regionBytes x o b.length = b := by
  induction b generalizing o with
  | nil => rfl
  | cons v rest ih =>
    simp only [List.length_cons, regionBytes]
    have h0 := h 0 (by simp)
    rw [Nat.add_zero] at h0
    rw [h0, ih (o := o + 1) (fun i hi => by
      have := h (i + 1) (by simpa using hi)
      rw [show o + 1 + i = o + (i + 1) by omega, this]
      rfl)]
    rfl

end Sys2Proof.Machine
end

