-- ==== Sys2Proof/Laws/Units.lean ====
section
/-! SUPPORT. The updates of one unit (a link, a rail, a District, a Block, a stack, a channel, the supply, the security unit): one lemma for each field of State, and what the unit reads after. -/

namespace Sys2Proof.Machine

@[simp] theorem modSec_pending (f : Security → Security) (s : State) : (modSec f s).pending = s.pending := rfl
@[simp] theorem modSec_freeCtr (f : Security → Security) (s : State) : (modSec f s).freeCtr = s.freeCtr := rfl
@[simp] theorem modSec_out (f : Security → Security) (s : State) : (modSec f s).out = s.out := rfl
@[simp] theorem modSec_host (f : Security → Security) (s : State) : (modSec f s).host = s.host := rfl
@[simp] theorem modSec_mgmt (f : Security → Security) (s : State) : (modSec f s).mgmt = s.mgmt := rfl
@[simp] theorem modSec_flags (f : Security → Security) (s : State) : (modSec f s).flags = s.flags := rfl
@[simp] theorem modSec_clients (f : Security → Security) (s : State) : (modSec f s).clients = s.clients := rfl
@[simp] theorem modSec_commands (f : Security → Security) (s : State) : (modSec f s).commands = s.commands := rfl
@[simp] theorem modSec_counters (f : Security → Security) (s : State) : (modSec f s).counters = s.counters := rfl
@[simp] theorem modSec_latched (f : Security → Security) (s : State) : (modSec f s).latched = s.latched := rfl
@[simp] theorem modSec_cad (f : Security → Security) (s : State) : (modSec f s).cad = s.cad := rfl
@[simp] theorem modSec_sup (f : Security → Security) (s : State) : (modSec f s).sup = s.sup := rfl
@[simp] theorem modSec_sec (f : Security → Security) (s : State) : (modSec f s).sec = f s.sec := rfl
@[simp] theorem modSec_secw (f : Security → Security) (s : State) : (modSec f s).secw = s.secw := rfl
@[simp] theorem modSec_evr (f : Security → Security) (s : State) : (modSec f s).evr = s.evr := rfl
@[simp] theorem modSec_slots (f : Security → Security) (s : State) : (modSec f s).slots = s.slots := rfl
@[simp] theorem modSec_tier (f : Security → Security) (s : State) : (modSec f s).tier = s.tier := rfl
@[simp] theorem modSec_mem (f : Security → Security) (s : State) : (modSec f s).mem = s.mem := rfl
@[simp] theorem modSec_fab (f : Security → Security) (s : State) : (modSec f s).fab = s.fab := rfl
@[simp] theorem modSec_cont (f : Security → Security) (s : State) : (modSec f s).cont = s.cont := rfl
@[simp] theorem modSec_sched (f : Security → Security) (s : State) : (modSec f s).sched = s.sched := rfl
@[simp] theorem modSec_comp (f : Security → Security) (s : State) : (modSec f s).comp = s.comp := rfl
@[simp] theorem modSec_links (f : Security → Security) (s : State) : (modSec f s).links = s.links := rfl
@[simp] theorem modSec_saves (f : Security → Security) (s : State) : (modSec f s).saves = s.saves := rfl
@[simp] theorem modSec_svc (f : Security → Security) (s : State) : (modSec f s).svc = s.svc := rfl
@[simp] theorem modSec_cal (f : Security → Security) (s : State) : (modSec f s).cal = s.cal := rfl

@[simp] theorem setSup_pending (f : Supply → Supply) (s : State) : (setSup f s).pending = s.pending := rfl
@[simp] theorem setSup_freeCtr (f : Supply → Supply) (s : State) : (setSup f s).freeCtr = s.freeCtr := rfl
@[simp] theorem setSup_out (f : Supply → Supply) (s : State) : (setSup f s).out = s.out := rfl
@[simp] theorem setSup_host (f : Supply → Supply) (s : State) : (setSup f s).host = s.host := rfl
@[simp] theorem setSup_mgmt (f : Supply → Supply) (s : State) : (setSup f s).mgmt = s.mgmt := rfl
@[simp] theorem setSup_flags (f : Supply → Supply) (s : State) : (setSup f s).flags = s.flags := rfl
@[simp] theorem setSup_clients (f : Supply → Supply) (s : State) : (setSup f s).clients = s.clients := rfl
@[simp] theorem setSup_commands (f : Supply → Supply) (s : State) : (setSup f s).commands = s.commands := rfl
@[simp] theorem setSup_counters (f : Supply → Supply) (s : State) : (setSup f s).counters = s.counters := rfl
@[simp] theorem setSup_latched (f : Supply → Supply) (s : State) : (setSup f s).latched = s.latched := rfl
@[simp] theorem setSup_cad (f : Supply → Supply) (s : State) : (setSup f s).cad = s.cad := rfl
@[simp] theorem setSup_sup (f : Supply → Supply) (s : State) : (setSup f s).sup = f s.sup := rfl
@[simp] theorem setSup_sec (f : Supply → Supply) (s : State) : (setSup f s).sec = s.sec := rfl
@[simp] theorem setSup_secw (f : Supply → Supply) (s : State) : (setSup f s).secw = s.secw := rfl
@[simp] theorem setSup_evr (f : Supply → Supply) (s : State) : (setSup f s).evr = s.evr := rfl
@[simp] theorem setSup_slots (f : Supply → Supply) (s : State) : (setSup f s).slots = s.slots := rfl
@[simp] theorem setSup_tier (f : Supply → Supply) (s : State) : (setSup f s).tier = s.tier := rfl
@[simp] theorem setSup_mem (f : Supply → Supply) (s : State) : (setSup f s).mem = s.mem := rfl
@[simp] theorem setSup_fab (f : Supply → Supply) (s : State) : (setSup f s).fab = s.fab := rfl
@[simp] theorem setSup_cont (f : Supply → Supply) (s : State) : (setSup f s).cont = s.cont := rfl
@[simp] theorem setSup_sched (f : Supply → Supply) (s : State) : (setSup f s).sched = s.sched := rfl
@[simp] theorem setSup_comp (f : Supply → Supply) (s : State) : (setSup f s).comp = s.comp := rfl
@[simp] theorem setSup_links (f : Supply → Supply) (s : State) : (setSup f s).links = s.links := rfl
@[simp] theorem setSup_saves (f : Supply → Supply) (s : State) : (setSup f s).saves = s.saves := rfl
@[simp] theorem setSup_svc (f : Supply → Supply) (s : State) : (setSup f s).svc = s.svc := rfl
@[simp] theorem setSup_cal (f : Supply → Supply) (s : State) : (setSup f s).cal = s.cal := rfl

@[simp] theorem putRail_pending (r : Nat) (x : Rail) (s : State) : (putRail r x s).pending = s.pending := rfl
@[simp] theorem putRail_freeCtr (r : Nat) (x : Rail) (s : State) : (putRail r x s).freeCtr = s.freeCtr := rfl
@[simp] theorem putRail_out (r : Nat) (x : Rail) (s : State) : (putRail r x s).out = s.out := rfl
@[simp] theorem putRail_host (r : Nat) (x : Rail) (s : State) : (putRail r x s).host = s.host := rfl
@[simp] theorem putRail_mgmt (r : Nat) (x : Rail) (s : State) : (putRail r x s).mgmt = s.mgmt := rfl
@[simp] theorem putRail_flags (r : Nat) (x : Rail) (s : State) : (putRail r x s).flags = s.flags := rfl
@[simp] theorem putRail_clients (r : Nat) (x : Rail) (s : State) : (putRail r x s).clients = s.clients := rfl
@[simp] theorem putRail_commands (r : Nat) (x : Rail) (s : State) : (putRail r x s).commands = s.commands := rfl
@[simp] theorem putRail_counters (r : Nat) (x : Rail) (s : State) : (putRail r x s).counters = s.counters := rfl
@[simp] theorem putRail_latched (r : Nat) (x : Rail) (s : State) : (putRail r x s).latched = s.latched := rfl
@[simp] theorem putRail_cad (r : Nat) (x : Rail) (s : State) : (putRail r x s).cad = s.cad := rfl
@[simp] theorem putRail_sup (r : Nat) (x : Rail) (s : State) : (putRail r x s).sup = { s.sup with rails := FMap.put s.sup.rails r x } := rfl
@[simp] theorem putRail_sec (r : Nat) (x : Rail) (s : State) : (putRail r x s).sec = s.sec := rfl
@[simp] theorem putRail_secw (r : Nat) (x : Rail) (s : State) : (putRail r x s).secw = s.secw := rfl
@[simp] theorem putRail_evr (r : Nat) (x : Rail) (s : State) : (putRail r x s).evr = s.evr := rfl
@[simp] theorem putRail_slots (r : Nat) (x : Rail) (s : State) : (putRail r x s).slots = s.slots := rfl
@[simp] theorem putRail_tier (r : Nat) (x : Rail) (s : State) : (putRail r x s).tier = s.tier := rfl
@[simp] theorem putRail_mem (r : Nat) (x : Rail) (s : State) : (putRail r x s).mem = s.mem := rfl
@[simp] theorem putRail_fab (r : Nat) (x : Rail) (s : State) : (putRail r x s).fab = s.fab := rfl
@[simp] theorem putRail_cont (r : Nat) (x : Rail) (s : State) : (putRail r x s).cont = s.cont := rfl
@[simp] theorem putRail_sched (r : Nat) (x : Rail) (s : State) : (putRail r x s).sched = s.sched := rfl
@[simp] theorem putRail_comp (r : Nat) (x : Rail) (s : State) : (putRail r x s).comp = s.comp := rfl
@[simp] theorem putRail_links (r : Nat) (x : Rail) (s : State) : (putRail r x s).links = s.links := rfl
@[simp] theorem putRail_saves (r : Nat) (x : Rail) (s : State) : (putRail r x s).saves = s.saves := rfl
@[simp] theorem putRail_svc (r : Nat) (x : Rail) (s : State) : (putRail r x s).svc = s.svc := rfl
@[simp] theorem putRail_cal (r : Nat) (x : Rail) (s : State) : (putRail r x s).cal = s.cal := rfl

@[simp] theorem putLink_pending (l : Nat) (x : Link) (s : State) : (putLink l x s).pending = s.pending := rfl
@[simp] theorem putLink_freeCtr (l : Nat) (x : Link) (s : State) : (putLink l x s).freeCtr = s.freeCtr := rfl
@[simp] theorem putLink_out (l : Nat) (x : Link) (s : State) : (putLink l x s).out = s.out := rfl
@[simp] theorem putLink_host (l : Nat) (x : Link) (s : State) : (putLink l x s).host = s.host := rfl
@[simp] theorem putLink_mgmt (l : Nat) (x : Link) (s : State) : (putLink l x s).mgmt = s.mgmt := rfl
@[simp] theorem putLink_flags (l : Nat) (x : Link) (s : State) : (putLink l x s).flags = s.flags := rfl
@[simp] theorem putLink_clients (l : Nat) (x : Link) (s : State) : (putLink l x s).clients = s.clients := rfl
@[simp] theorem putLink_commands (l : Nat) (x : Link) (s : State) : (putLink l x s).commands = s.commands := rfl
@[simp] theorem putLink_counters (l : Nat) (x : Link) (s : State) : (putLink l x s).counters = s.counters := rfl
@[simp] theorem putLink_latched (l : Nat) (x : Link) (s : State) : (putLink l x s).latched = s.latched := rfl
@[simp] theorem putLink_cad (l : Nat) (x : Link) (s : State) : (putLink l x s).cad = s.cad := rfl
@[simp] theorem putLink_sup (l : Nat) (x : Link) (s : State) : (putLink l x s).sup = s.sup := rfl
@[simp] theorem putLink_sec (l : Nat) (x : Link) (s : State) : (putLink l x s).sec = s.sec := rfl
@[simp] theorem putLink_secw (l : Nat) (x : Link) (s : State) : (putLink l x s).secw = s.secw := rfl
@[simp] theorem putLink_evr (l : Nat) (x : Link) (s : State) : (putLink l x s).evr = s.evr := rfl
@[simp] theorem putLink_slots (l : Nat) (x : Link) (s : State) : (putLink l x s).slots = s.slots := rfl
@[simp] theorem putLink_tier (l : Nat) (x : Link) (s : State) : (putLink l x s).tier = s.tier := rfl
@[simp] theorem putLink_mem (l : Nat) (x : Link) (s : State) : (putLink l x s).mem = s.mem := rfl
@[simp] theorem putLink_fab (l : Nat) (x : Link) (s : State) : (putLink l x s).fab = s.fab := rfl
@[simp] theorem putLink_cont (l : Nat) (x : Link) (s : State) : (putLink l x s).cont = s.cont := rfl
@[simp] theorem putLink_sched (l : Nat) (x : Link) (s : State) : (putLink l x s).sched = s.sched := rfl
@[simp] theorem putLink_comp (l : Nat) (x : Link) (s : State) : (putLink l x s).comp = s.comp := rfl
@[simp] theorem putLink_links (l : Nat) (x : Link) (s : State) : (putLink l x s).links = { s.links with port := FMap.put s.links.port l x } := rfl
@[simp] theorem putLink_saves (l : Nat) (x : Link) (s : State) : (putLink l x s).saves = s.saves := rfl
@[simp] theorem putLink_svc (l : Nat) (x : Link) (s : State) : (putLink l x s).svc = s.svc := rfl
@[simp] theorem putLink_cal (l : Nat) (x : Link) (s : State) : (putLink l x s).cal = s.cal := rfl

@[simp] theorem putFlow_pending (l : Nat) (x : LinkFlow) (s : State) : (putFlow l x s).pending = s.pending := rfl
@[simp] theorem putFlow_freeCtr (l : Nat) (x : LinkFlow) (s : State) : (putFlow l x s).freeCtr = s.freeCtr := rfl
@[simp] theorem putFlow_out (l : Nat) (x : LinkFlow) (s : State) : (putFlow l x s).out = s.out := rfl
@[simp] theorem putFlow_host (l : Nat) (x : LinkFlow) (s : State) : (putFlow l x s).host = s.host := rfl
@[simp] theorem putFlow_mgmt (l : Nat) (x : LinkFlow) (s : State) : (putFlow l x s).mgmt = s.mgmt := rfl
@[simp] theorem putFlow_flags (l : Nat) (x : LinkFlow) (s : State) : (putFlow l x s).flags = s.flags := rfl
@[simp] theorem putFlow_clients (l : Nat) (x : LinkFlow) (s : State) : (putFlow l x s).clients = s.clients := rfl
@[simp] theorem putFlow_commands (l : Nat) (x : LinkFlow) (s : State) : (putFlow l x s).commands = s.commands := rfl
@[simp] theorem putFlow_counters (l : Nat) (x : LinkFlow) (s : State) : (putFlow l x s).counters = s.counters := rfl
@[simp] theorem putFlow_latched (l : Nat) (x : LinkFlow) (s : State) : (putFlow l x s).latched = s.latched := rfl
@[simp] theorem putFlow_cad (l : Nat) (x : LinkFlow) (s : State) : (putFlow l x s).cad = s.cad := rfl
@[simp] theorem putFlow_sup (l : Nat) (x : LinkFlow) (s : State) : (putFlow l x s).sup = s.sup := rfl
@[simp] theorem putFlow_sec (l : Nat) (x : LinkFlow) (s : State) : (putFlow l x s).sec = s.sec := rfl
@[simp] theorem putFlow_secw (l : Nat) (x : LinkFlow) (s : State) : (putFlow l x s).secw = s.secw := rfl
@[simp] theorem putFlow_evr (l : Nat) (x : LinkFlow) (s : State) : (putFlow l x s).evr = s.evr := rfl
@[simp] theorem putFlow_slots (l : Nat) (x : LinkFlow) (s : State) : (putFlow l x s).slots = s.slots := rfl
@[simp] theorem putFlow_tier (l : Nat) (x : LinkFlow) (s : State) : (putFlow l x s).tier = s.tier := rfl
@[simp] theorem putFlow_mem (l : Nat) (x : LinkFlow) (s : State) : (putFlow l x s).mem = s.mem := rfl
@[simp] theorem putFlow_fab (l : Nat) (x : LinkFlow) (s : State) : (putFlow l x s).fab = s.fab := rfl
@[simp] theorem putFlow_cont (l : Nat) (x : LinkFlow) (s : State) : (putFlow l x s).cont = s.cont := rfl
@[simp] theorem putFlow_sched (l : Nat) (x : LinkFlow) (s : State) : (putFlow l x s).sched = s.sched := rfl
@[simp] theorem putFlow_comp (l : Nat) (x : LinkFlow) (s : State) : (putFlow l x s).comp = s.comp := rfl
@[simp] theorem putFlow_links (l : Nat) (x : LinkFlow) (s : State) : (putFlow l x s).links = { s.links with flow := FMap.put s.links.flow l x } := rfl
@[simp] theorem putFlow_saves (l : Nat) (x : LinkFlow) (s : State) : (putFlow l x s).saves = s.saves := rfl
@[simp] theorem putFlow_svc (l : Nat) (x : LinkFlow) (s : State) : (putFlow l x s).svc = s.svc := rfl
@[simp] theorem putFlow_cal (l : Nat) (x : LinkFlow) (s : State) : (putFlow l x s).cal = s.cal := rfl

@[simp] theorem putGuest_pending (h : Nat) (x : Session) (s : State) : (putGuest h x s).pending = s.pending := rfl
@[simp] theorem putGuest_freeCtr (h : Nat) (x : Session) (s : State) : (putGuest h x s).freeCtr = s.freeCtr := rfl
@[simp] theorem putGuest_out (h : Nat) (x : Session) (s : State) : (putGuest h x s).out = s.out := rfl
@[simp] theorem putGuest_host (h : Nat) (x : Session) (s : State) : (putGuest h x s).host = s.host := rfl
@[simp] theorem putGuest_mgmt (h : Nat) (x : Session) (s : State) : (putGuest h x s).mgmt = s.mgmt := rfl
@[simp] theorem putGuest_flags (h : Nat) (x : Session) (s : State) : (putGuest h x s).flags = s.flags := rfl
@[simp] theorem putGuest_clients (h : Nat) (x : Session) (s : State) : (putGuest h x s).clients = s.clients := rfl
@[simp] theorem putGuest_commands (h : Nat) (x : Session) (s : State) : (putGuest h x s).commands = s.commands := rfl
@[simp] theorem putGuest_counters (h : Nat) (x : Session) (s : State) : (putGuest h x s).counters = s.counters := rfl
@[simp] theorem putGuest_latched (h : Nat) (x : Session) (s : State) : (putGuest h x s).latched = s.latched := rfl
@[simp] theorem putGuest_cad (h : Nat) (x : Session) (s : State) : (putGuest h x s).cad = s.cad := rfl
@[simp] theorem putGuest_sup (h : Nat) (x : Session) (s : State) : (putGuest h x s).sup = s.sup := rfl
@[simp] theorem putGuest_sec (h : Nat) (x : Session) (s : State) : (putGuest h x s).sec = s.sec := rfl
@[simp] theorem putGuest_secw (h : Nat) (x : Session) (s : State) : (putGuest h x s).secw = s.secw := rfl
@[simp] theorem putGuest_evr (h : Nat) (x : Session) (s : State) : (putGuest h x s).evr = s.evr := rfl
@[simp] theorem putGuest_slots (h : Nat) (x : Session) (s : State) : (putGuest h x s).slots = { s.slots with guests := FMap.put s.slots.guests h x } := rfl
@[simp] theorem putGuest_tier (h : Nat) (x : Session) (s : State) : (putGuest h x s).tier = s.tier := rfl
@[simp] theorem putGuest_mem (h : Nat) (x : Session) (s : State) : (putGuest h x s).mem = s.mem := rfl
@[simp] theorem putGuest_fab (h : Nat) (x : Session) (s : State) : (putGuest h x s).fab = s.fab := rfl
@[simp] theorem putGuest_cont (h : Nat) (x : Session) (s : State) : (putGuest h x s).cont = s.cont := rfl
@[simp] theorem putGuest_sched (h : Nat) (x : Session) (s : State) : (putGuest h x s).sched = s.sched := rfl
@[simp] theorem putGuest_comp (h : Nat) (x : Session) (s : State) : (putGuest h x s).comp = s.comp := rfl
@[simp] theorem putGuest_links (h : Nat) (x : Session) (s : State) : (putGuest h x s).links = s.links := rfl
@[simp] theorem putGuest_saves (h : Nat) (x : Session) (s : State) : (putGuest h x s).saves = s.saves := rfl
@[simp] theorem putGuest_svc (h : Nat) (x : Session) (s : State) : (putGuest h x s).svc = s.svc := rfl
@[simp] theorem putGuest_cal (h : Nat) (x : Session) (s : State) : (putGuest h x s).cal = s.cal := rfl

@[simp] theorem modDistrict_pending (d : Nat) (f : District → District) (s : State) : (modDistrict d f s).pending = s.pending := rfl
@[simp] theorem modDistrict_freeCtr (d : Nat) (f : District → District) (s : State) : (modDistrict d f s).freeCtr = s.freeCtr := rfl
@[simp] theorem modDistrict_out (d : Nat) (f : District → District) (s : State) : (modDistrict d f s).out = s.out := rfl
@[simp] theorem modDistrict_host (d : Nat) (f : District → District) (s : State) : (modDistrict d f s).host = s.host := rfl
@[simp] theorem modDistrict_mgmt (d : Nat) (f : District → District) (s : State) : (modDistrict d f s).mgmt = s.mgmt := rfl
@[simp] theorem modDistrict_flags (d : Nat) (f : District → District) (s : State) : (modDistrict d f s).flags = s.flags := rfl
@[simp] theorem modDistrict_clients (d : Nat) (f : District → District) (s : State) : (modDistrict d f s).clients = s.clients := rfl
@[simp] theorem modDistrict_commands (d : Nat) (f : District → District) (s : State) : (modDistrict d f s).commands = s.commands := rfl
@[simp] theorem modDistrict_counters (d : Nat) (f : District → District) (s : State) : (modDistrict d f s).counters = s.counters := rfl
@[simp] theorem modDistrict_latched (d : Nat) (f : District → District) (s : State) : (modDistrict d f s).latched = s.latched := rfl
@[simp] theorem modDistrict_cad (d : Nat) (f : District → District) (s : State) : (modDistrict d f s).cad = s.cad := rfl
@[simp] theorem modDistrict_sup (d : Nat) (f : District → District) (s : State) : (modDistrict d f s).sup = s.sup := rfl
@[simp] theorem modDistrict_sec (d : Nat) (f : District → District) (s : State) : (modDistrict d f s).sec = s.sec := rfl
@[simp] theorem modDistrict_secw (d : Nat) (f : District → District) (s : State) : (modDistrict d f s).secw = s.secw := rfl
@[simp] theorem modDistrict_evr (d : Nat) (f : District → District) (s : State) : (modDistrict d f s).evr = s.evr := rfl
@[simp] theorem modDistrict_slots (d : Nat) (f : District → District) (s : State) : (modDistrict d f s).slots = s.slots := rfl
@[simp] theorem modDistrict_tier (d : Nat) (f : District → District) (s : State) : (modDistrict d f s).tier = s.tier := rfl
@[simp] theorem modDistrict_mem (d : Nat) (f : District → District) (s : State) : (modDistrict d f s).mem = s.mem := rfl
@[simp] theorem modDistrict_cont (d : Nat) (f : District → District) (s : State) : (modDistrict d f s).cont = s.cont := rfl
@[simp] theorem modDistrict_sched (d : Nat) (f : District → District) (s : State) : (modDistrict d f s).sched = s.sched := rfl
@[simp] theorem modDistrict_comp (d : Nat) (f : District → District) (s : State) : (modDistrict d f s).comp = s.comp := rfl
@[simp] theorem modDistrict_links (d : Nat) (f : District → District) (s : State) : (modDistrict d f s).links = s.links := rfl
@[simp] theorem modDistrict_saves (d : Nat) (f : District → District) (s : State) : (modDistrict d f s).saves = s.saves := rfl
@[simp] theorem modDistrict_svc (d : Nat) (f : District → District) (s : State) : (modDistrict d f s).svc = s.svc := rfl
@[simp] theorem modDistrict_cal (d : Nat) (f : District → District) (s : State) : (modDistrict d f s).cal = s.cal := rfl

@[simp] theorem modBlock_pending (d b : Nat) (f : Block → Block) (s : State) : (modBlock d b f s).pending = s.pending := rfl
@[simp] theorem modBlock_freeCtr (d b : Nat) (f : Block → Block) (s : State) : (modBlock d b f s).freeCtr = s.freeCtr := rfl
@[simp] theorem modBlock_out (d b : Nat) (f : Block → Block) (s : State) : (modBlock d b f s).out = s.out := rfl
@[simp] theorem modBlock_host (d b : Nat) (f : Block → Block) (s : State) : (modBlock d b f s).host = s.host := rfl
@[simp] theorem modBlock_mgmt (d b : Nat) (f : Block → Block) (s : State) : (modBlock d b f s).mgmt = s.mgmt := rfl
@[simp] theorem modBlock_flags (d b : Nat) (f : Block → Block) (s : State) : (modBlock d b f s).flags = s.flags := rfl
@[simp] theorem modBlock_clients (d b : Nat) (f : Block → Block) (s : State) : (modBlock d b f s).clients = s.clients := rfl
@[simp] theorem modBlock_commands (d b : Nat) (f : Block → Block) (s : State) : (modBlock d b f s).commands = s.commands := rfl
@[simp] theorem modBlock_counters (d b : Nat) (f : Block → Block) (s : State) : (modBlock d b f s).counters = s.counters := rfl
@[simp] theorem modBlock_latched (d b : Nat) (f : Block → Block) (s : State) : (modBlock d b f s).latched = s.latched := rfl
@[simp] theorem modBlock_cad (d b : Nat) (f : Block → Block) (s : State) : (modBlock d b f s).cad = s.cad := rfl
@[simp] theorem modBlock_sup (d b : Nat) (f : Block → Block) (s : State) : (modBlock d b f s).sup = s.sup := rfl
@[simp] theorem modBlock_sec (d b : Nat) (f : Block → Block) (s : State) : (modBlock d b f s).sec = s.sec := rfl
@[simp] theorem modBlock_secw (d b : Nat) (f : Block → Block) (s : State) : (modBlock d b f s).secw = s.secw := rfl
@[simp] theorem modBlock_evr (d b : Nat) (f : Block → Block) (s : State) : (modBlock d b f s).evr = s.evr := rfl
@[simp] theorem modBlock_slots (d b : Nat) (f : Block → Block) (s : State) : (modBlock d b f s).slots = s.slots := rfl
@[simp] theorem modBlock_tier (d b : Nat) (f : Block → Block) (s : State) : (modBlock d b f s).tier = s.tier := rfl
@[simp] theorem modBlock_mem (d b : Nat) (f : Block → Block) (s : State) : (modBlock d b f s).mem = s.mem := rfl
@[simp] theorem modBlock_cont (d b : Nat) (f : Block → Block) (s : State) : (modBlock d b f s).cont = s.cont := rfl
@[simp] theorem modBlock_sched (d b : Nat) (f : Block → Block) (s : State) : (modBlock d b f s).sched = s.sched := rfl
@[simp] theorem modBlock_comp (d b : Nat) (f : Block → Block) (s : State) : (modBlock d b f s).comp = s.comp := rfl
@[simp] theorem modBlock_links (d b : Nat) (f : Block → Block) (s : State) : (modBlock d b f s).links = s.links := rfl
@[simp] theorem modBlock_saves (d b : Nat) (f : Block → Block) (s : State) : (modBlock d b f s).saves = s.saves := rfl
@[simp] theorem modBlock_svc (d b : Nat) (f : Block → Block) (s : State) : (modBlock d b f s).svc = s.svc := rfl
@[simp] theorem modBlock_cal (d b : Nat) (f : Block → Block) (s : State) : (modBlock d b f s).cal = s.cal := rfl

@[simp] theorem modHbm_pending (k : Nat) (f : Hbm → Hbm) (s : State) : (modHbm k f s).pending = s.pending := rfl
@[simp] theorem modHbm_freeCtr (k : Nat) (f : Hbm → Hbm) (s : State) : (modHbm k f s).freeCtr = s.freeCtr := rfl
@[simp] theorem modHbm_out (k : Nat) (f : Hbm → Hbm) (s : State) : (modHbm k f s).out = s.out := rfl
@[simp] theorem modHbm_host (k : Nat) (f : Hbm → Hbm) (s : State) : (modHbm k f s).host = s.host := rfl
@[simp] theorem modHbm_mgmt (k : Nat) (f : Hbm → Hbm) (s : State) : (modHbm k f s).mgmt = s.mgmt := rfl
@[simp] theorem modHbm_flags (k : Nat) (f : Hbm → Hbm) (s : State) : (modHbm k f s).flags = s.flags := rfl
@[simp] theorem modHbm_clients (k : Nat) (f : Hbm → Hbm) (s : State) : (modHbm k f s).clients = s.clients := rfl
@[simp] theorem modHbm_commands (k : Nat) (f : Hbm → Hbm) (s : State) : (modHbm k f s).commands = s.commands := rfl
@[simp] theorem modHbm_counters (k : Nat) (f : Hbm → Hbm) (s : State) : (modHbm k f s).counters = s.counters := rfl
@[simp] theorem modHbm_latched (k : Nat) (f : Hbm → Hbm) (s : State) : (modHbm k f s).latched = s.latched := rfl
@[simp] theorem modHbm_cad (k : Nat) (f : Hbm → Hbm) (s : State) : (modHbm k f s).cad = s.cad := rfl
@[simp] theorem modHbm_sup (k : Nat) (f : Hbm → Hbm) (s : State) : (modHbm k f s).sup = s.sup := rfl
@[simp] theorem modHbm_sec (k : Nat) (f : Hbm → Hbm) (s : State) : (modHbm k f s).sec = s.sec := rfl
@[simp] theorem modHbm_secw (k : Nat) (f : Hbm → Hbm) (s : State) : (modHbm k f s).secw = s.secw := rfl
@[simp] theorem modHbm_evr (k : Nat) (f : Hbm → Hbm) (s : State) : (modHbm k f s).evr = s.evr := rfl
@[simp] theorem modHbm_slots (k : Nat) (f : Hbm → Hbm) (s : State) : (modHbm k f s).slots = s.slots := rfl
@[simp] theorem modHbm_mem (k : Nat) (f : Hbm → Hbm) (s : State) : (modHbm k f s).mem = s.mem := rfl
@[simp] theorem modHbm_fab (k : Nat) (f : Hbm → Hbm) (s : State) : (modHbm k f s).fab = s.fab := rfl
@[simp] theorem modHbm_cont (k : Nat) (f : Hbm → Hbm) (s : State) : (modHbm k f s).cont = s.cont := rfl
@[simp] theorem modHbm_sched (k : Nat) (f : Hbm → Hbm) (s : State) : (modHbm k f s).sched = s.sched := rfl
@[simp] theorem modHbm_comp (k : Nat) (f : Hbm → Hbm) (s : State) : (modHbm k f s).comp = s.comp := rfl
@[simp] theorem modHbm_links (k : Nat) (f : Hbm → Hbm) (s : State) : (modHbm k f s).links = s.links := rfl
@[simp] theorem modHbm_saves (k : Nat) (f : Hbm → Hbm) (s : State) : (modHbm k f s).saves = s.saves := rfl
@[simp] theorem modHbm_svc (k : Nat) (f : Hbm → Hbm) (s : State) : (modHbm k f s).svc = s.svc := rfl
@[simp] theorem modHbm_cal (k : Nat) (f : Hbm → Hbm) (s : State) : (modHbm k f s).cal = s.cal := rfl

@[simp] theorem modDdr_pending (c : Nat) (f : Ddr → Ddr) (s : State) : (modDdr c f s).pending = s.pending := rfl
@[simp] theorem modDdr_freeCtr (c : Nat) (f : Ddr → Ddr) (s : State) : (modDdr c f s).freeCtr = s.freeCtr := rfl
@[simp] theorem modDdr_out (c : Nat) (f : Ddr → Ddr) (s : State) : (modDdr c f s).out = s.out := rfl
@[simp] theorem modDdr_host (c : Nat) (f : Ddr → Ddr) (s : State) : (modDdr c f s).host = s.host := rfl
@[simp] theorem modDdr_mgmt (c : Nat) (f : Ddr → Ddr) (s : State) : (modDdr c f s).mgmt = s.mgmt := rfl
@[simp] theorem modDdr_flags (c : Nat) (f : Ddr → Ddr) (s : State) : (modDdr c f s).flags = s.flags := rfl
@[simp] theorem modDdr_clients (c : Nat) (f : Ddr → Ddr) (s : State) : (modDdr c f s).clients = s.clients := rfl
@[simp] theorem modDdr_commands (c : Nat) (f : Ddr → Ddr) (s : State) : (modDdr c f s).commands = s.commands := rfl
@[simp] theorem modDdr_counters (c : Nat) (f : Ddr → Ddr) (s : State) : (modDdr c f s).counters = s.counters := rfl
@[simp] theorem modDdr_latched (c : Nat) (f : Ddr → Ddr) (s : State) : (modDdr c f s).latched = s.latched := rfl
@[simp] theorem modDdr_cad (c : Nat) (f : Ddr → Ddr) (s : State) : (modDdr c f s).cad = s.cad := rfl
@[simp] theorem modDdr_sup (c : Nat) (f : Ddr → Ddr) (s : State) : (modDdr c f s).sup = s.sup := rfl
@[simp] theorem modDdr_sec (c : Nat) (f : Ddr → Ddr) (s : State) : (modDdr c f s).sec = s.sec := rfl
@[simp] theorem modDdr_secw (c : Nat) (f : Ddr → Ddr) (s : State) : (modDdr c f s).secw = s.secw := rfl
@[simp] theorem modDdr_evr (c : Nat) (f : Ddr → Ddr) (s : State) : (modDdr c f s).evr = s.evr := rfl
@[simp] theorem modDdr_slots (c : Nat) (f : Ddr → Ddr) (s : State) : (modDdr c f s).slots = s.slots := rfl
@[simp] theorem modDdr_mem (c : Nat) (f : Ddr → Ddr) (s : State) : (modDdr c f s).mem = s.mem := rfl
@[simp] theorem modDdr_fab (c : Nat) (f : Ddr → Ddr) (s : State) : (modDdr c f s).fab = s.fab := rfl
@[simp] theorem modDdr_cont (c : Nat) (f : Ddr → Ddr) (s : State) : (modDdr c f s).cont = s.cont := rfl
@[simp] theorem modDdr_sched (c : Nat) (f : Ddr → Ddr) (s : State) : (modDdr c f s).sched = s.sched := rfl
@[simp] theorem modDdr_comp (c : Nat) (f : Ddr → Ddr) (s : State) : (modDdr c f s).comp = s.comp := rfl
@[simp] theorem modDdr_links (c : Nat) (f : Ddr → Ddr) (s : State) : (modDdr c f s).links = s.links := rfl
@[simp] theorem modDdr_saves (c : Nat) (f : Ddr → Ddr) (s : State) : (modDdr c f s).saves = s.saves := rfl
@[simp] theorem modDdr_svc (c : Nat) (f : Ddr → Ddr) (s : State) : (modDdr c f s).svc = s.svc := rfl
@[simp] theorem modDdr_cal (c : Nat) (f : Ddr → Ddr) (s : State) : (modDdr c f s).cal = s.cal := rfl

/-! ### What the unit reads after -/

@[simp] theorem linkAt_putLink_same (l : Nat) (x : Link) (s : State) : linkAt (putLink l x s) l = x := by
  simp [linkAt]

theorem linkAt_putLink_other {l k : Nat} (x : Link) (s : State) (h : k ≠ l) : linkAt (putLink l x s) k = linkAt s k := by
  simp [linkAt, FMap.getD_put_other _ _ _ h]

@[simp] theorem flowAt_putFlow_same (l : Nat) (x : LinkFlow) (s : State) : flowAt (putFlow l x s) l = x := by
  simp [flowAt]

theorem flowAt_putFlow_other {l k : Nat} (x : LinkFlow) (s : State) (h : k ≠ l) : flowAt (putFlow l x s) k = flowAt s k := by
  simp [flowAt, FMap.getD_put_other _ _ _ h]

@[simp] theorem railAt_putRail_same (r : Nat) (x : Rail) (s : State) : railAt (putRail r x s) r = x := by
  simp [railAt]

theorem railAt_putRail_other {r k : Nat} (x : Rail) (s : State) (h : k ≠ r) : railAt (putRail r x s) k = railAt s k := by
  simp [railAt, FMap.getD_put_other _ _ _ h]

@[simp] theorem blockAt_modBlock_same (d b : Nat) (f : Block → Block) (s : State) : blockAt (modBlock d b f s) d b = f (blockAt s d b) := by
  simp [blockAt, modBlock]

@[simp] theorem hbmOf_modHbm_same (k : Nat) (f : Hbm → Hbm) (s : State) : hbmOf (modHbm k f s) k = f (hbmOf s k) := by
  simp [hbmOf, modHbm]

@[simp] theorem ddrAt_modDdr_same (c : Nat) (f : Ddr → Ddr) (s : State) : ddrAt (modDdr c f s) c = f (ddrAt s c) := by
  simp [ddrAt, modDdr]

/-! ### Defers that wait (08 R210) -/

/-- With no defer waiting, nothing is due. -/
@[simp] theorem settleDefers_none {s : State} (h : s.sched.deferDue = []) : settleDefers s = s := by
  unfold settleDefers
  rw [h]
  simp only [List.filter_nil, List.foldl_nil]
  conv => rhs; rw [show s = { s with sched := { s.sched with deferDue := [] } } by rw [← h]]

end Sys2Proof.Machine
end

