-- ==== Sys2Proof/WellFormed.lean ====
section
/-! DEFINITION. Which commands are well formed: every number of a unit within the count the manual gives (00 R13; 11 R278, R281, R290; 12 R317, R321, R340), every byte string of the length its layout has. -/

namespace Sys2Proof

/-- A packet as 11 R281 and R290 lay it out: a header of 32 bytes, the parameters, a trailer of 8, in a window of 64 KiB. -/
def Packet.wf (p : Packet) : Bool :=
  decide (p.client < 256) && p.header.length == 32 && decide (p.params.length + 40 ≤ 65536)
    && decide (p.trailerSeq < 2 ^ 32 ∧ p.shortSeq < 2 ^ 32)

def clientOk (n : Nat) : Bool := decide (n < 256)
def linkOk (l : Nat) : Bool := decide (l < 32)
def laneOk (l : Nat) : Bool := decide (l < 4)
def slotOk (i : Nat) : Bool := decide (i < 2 ^ 24)
def partOk (q : Nat) : Bool := decide (q < 16)
def memberOk (m : Nat) : Bool := decide (m < 4096)
def ddrOk (c : Nat) : Bool := decide (c < 12)
def phaseOk (p : Nat) : Bool := decide (p < 4096)
def word32Ok (v : Nat) : Bool := decide (v < 2 ^ 32)
def word64Ok (v : Nat) : Bool := decide (v < 2 ^ 64)
def coreOk (d b c : Nat) : Bool := decide (d < 16 ∧ b < 16 ∧ c < 32)
def blockOk (d b : Nat) : Bool := decide (d < 16 ∧ b < 16)
def slotIdOk (i : Nat) : Bool := decide (i < 2 ^ 16)

/-- A schedule notice names a KIND of 1 to 4, a partition, a slot and a source (08 R209). -/
def Notice.wf (n : Notice) : Bool :=
  decide (1 ≤ n.kind ∧ n.kind ≤ 4) && slotIdOk n.slotId && memberOk n.source && decide (n.run < 256) && word32Ok n.delta

/-- A session notice names a handle and an instant (12 R340). -/
def SessionNotice.wf (n : SessionNotice) : Bool := word64Ok n.handle && phaseOk n.atPhase

/-- A link frame of 12 R321: one of four classes, at most 4 KiB, a sequence number of 32 bits. -/
def LinkFrame.wf (f : LinkFrame) : Bool :=
  decide (f.cls < 4 ∧ f.len ≤ 4096 ∧ f.payload.length ≤ f.len ∧ f.linkSeq < 2 ^ 32 ∧ f.type < 256) && memberOk f.src && memberOk f.dst

def ShardMsg.wf (m : ShardMsg) : Bool := partOk m.partition && decide (m.position < 1024)

/-- Where an uncorrectable error can lie. -/
def ErrorPlace.wf : ErrorPlace → Bool
  | .scratch d b c slot => coreOk d b c && slotIdOk slot
  | .region d b _ slot _ => blockOk d b && slotIdOk slot
  | .weight _ _ slot _ => slotIdOk slot
  | .frame a => word64Ok a
  | .capsule a => word64Ok a
  | .descriptor i => slotOk i
  | .counts i => slotOk i
  | .constraint i => slotOk i
  | .segmentOne _ copy => decide (copy < 2)
  | .segmentBoth _ => true
  | .tail i _ => slotOk i
  | .unitStore => true
  | .barRead a => word64Ok a

/-- A command is well formed. -/
def Instr.wf : Instr → Bool
  | .packetRecognise p | .pad p | .ping p | .queryDevice p | .setParam p | .getParam p | .modelUnload p | .partitionDefine p
  | .sessionOpen p | .sessionFork p | .sessionGenerate p | .trainingGenerate p | .sessionPark p | .sessionRevive p | .sessionCancel p
  | .sessionClose p | .sessionQuery p | .sessionConstrain p | .sessionExport p | .handoverOut p | .handoverIn p
  | .checkpointBegin p | .checkpointShard p | .shrinkArm p | .attestQuote p | .tenantRelease p | .fwActivate p | .calRead p
  | .custodialRollback p | .custodialDebug p | .identityReset p | .factoryReturn p | .sealOverride p | .presencePolicy p
  | .eventSnapshot p | .statsRead p | .unitFence p | .dimmEvacuate p | .dimmAdmit p | .profileSet p => p.wf
  | .modelStage p _ => p.wf
  | .scheduleLoad p _ => p.wf
  | .vocabLoad p _ => p.wf
  | .sessionAppend p _ => p.wf
  | .sessionImport p _ => p.wf
  | .compositionSet p _ => p.wf
  | .restore p _ _ _ => p.wf
  | .keyAccept p _ => p.wf
  | .tenantBind p _ => p.wf
  | .fwStage p _ => p.wf
  | .calUserWrite p _ => p.wf
  | .forward m p => memberOk m && p.wf
  | .cliRunPreempt n | .preemptionComplete n | .cliRunResume n | .vfFlr n => clientOk n
  | .queueStateWrite n scan seq replyAt replyCount =>
    clientOk n && decide (scan < 65536) && word32Ok seq && word32Ok replyAt && word32Ok replyCount
  | .cadPeriodChange c => decide (c ≤ 4)
  | .cadModeChange m => decide (m ≤ 2)
  | .deviceStateRequest d => decide (d ≤ 2)
  | .tokenizeEnd i | .prefetchPull i | .prefetchRevive i | .hoTimeout i | .hoTargetGrace i | .remoteGraceEnd i | .recallTimeout i => slotOk i
  | .quoteSigned _ | .decapKeyExpiry _ => true
  | .dimmSpdRead c gib _ => ddrOk c && decide (gib ≤ 1024)
  | .dimmTrainDone c _ | .ddrControllerRestartEnd c _ | .ddrPresenceChange c _ => ddrOk c
  | .dimmScrubDone c | .ddrControllerReset c | .ddrPgRelease c => ddrOk c
  | .replyRingWrite n _ _ | .replyAckWrite n _ => clientOk n
  | .journalAckWrite _ => true
  | .recallTailWrite _ found => found.all (fun e => slotOk e.1)
  | .flagClearW1c off _ _ => decide (off < 2 ^ 20)
  | .mgmtFlagClear g hw => decide (g < 512) && hw.all (fun e => decide (e.2 < 64))
  | .registerWrite w => decide (w.offset < 2 ^ 20)
  | .badAccess off size _ => decide (off < 2 ^ 20 ∧ size ≤ 64)
  | .windowRead off len => decide (off < 2 ^ 30 ∧ len ≤ 4096)
  | .windowWrite off => decide (off < 2 ^ 30)
  | .slotStart i | .moverSlotStart i => slotIdOk i
  | .commitPoint c => slotIdOk c.slotId && decide (c.core < 8192 ∧ c.logical < 32)
  | .samplingCommit c => slotIdOk c.slotId && partOk c.partition && decide (c.microbatch < 16)
  | .lateArrival l slot t _ => linkOk l && slotIdOk slot && slotIdOk t
  | .moverSlotEnd rs => rs.all (fun r => decide (r.failure ≤ 3))
  | .beatMark _ e => decide (-2048 ≤ e ∧ e < 2048)
  | .beatNumber src b => decide (src ≤ 32) && b.length == 16
  | .cadenceMark l beat phase => linkOk l && word64Ok beat && phaseOk phase
  | .departure m _ _ | .memberLost m => memberOk m
  | .slipNotice n | .abortNotice n | .deferNotice n | .fallbackNotice n => n.wf
  | .slipApply q | .restoreTimeout q | .ckptHoldExpiry q => partOk q
  | .imageReady m ring dig _ => memberOk m && word64Ok ring && decide (dig < 2 ^ 256)
  | .mapDigest l e _ => linkOk l && word32Ok e
  | .lenderAdvert m free hops => memberOk m && word32Ok free && decide (hops < 4096)
  | .candidate q _ es => partOk q && es.all (fun c => word64Ok c.handle)
  | .sealMessage m => partOk m.partition && decide (m.microbatch < 16)
  | .cancelNotice n | .withdrawal n | .copyNotice n | .capsuleLostNotice n | .freeTargetSlot n => n.wf
  | .forwardReply c tag status detail _ _ _ _ => clientOk c && word64Ok tag && decide (status < 65536 ∧ detail < 65536)
  | .hoRequest r => memberOk r.source && word64Ok r.handle && partOk r.partition
  | .hoAnswer h st n => word64Ok h && decide (st < 65536) && word64Ok n
  | .hoConfirm h n e => word64Ok h && word64Ok n && word32Ok e
  | .hoAbort h n st => word64Ok h && word64Ok n && decide (st < 65536)
  | .tiles h _ _ _ => word64Ok h
  | .hoFinal h _ | .hoOwnership h _ => word64Ok h
  | .capsulePut b _ _ => memberOk b
  | .capsuleGet b _ | .capsuleFree b _ => memberOk b
  | .capsuleData ref _ lender => word64Ok ref && memberOk lender
  | .part h pos _ => word64Ok h && decide (pos < 1024)
  | .hostdata src tag addr _ _ => memberOk src && word64Ok tag && word64Ok addr
  | .shardDigest m | .shardReport m | .shardCommit m | .shardDone m | .shardAllDone m => m.wf
  | .restoreStagingDone q _ => partOk q
  | .frameReceive l b _ _ _ => linkOk l && decide (36 ≤ b.length ∧ b.length ≤ 4136)
  | .frameTransmit l phase fs => linkOk l && phaseOk phase && fs.all LinkFrame.wf
  | .controlWord l _ lane => linkOk l && laneOk lane
  | .linkSignalDetect l | .trainFail l | .retrainDone l | .retrainTimeout l | .halfRetrain l | .linkPortReset l
  | .laneRepairDone l | .linkTrainRetry l => linkOk l
  | .trainingComplete l r => linkOk l && decide (r.lanes < 16) && memberOk r.peer
  | .laneFail l lane => linkOk l && laneOk lane
  | .uncorrectableError e => e.wf
  | .mprogError d b c slot => coreOk d b c && slotIdOk slot
  | .weightTagFail m _ slot => decide (m < 16) && slotIdOk slot
  | .correctableError m row => decide (m < 16) && word32Ok row
  | .hbmSpareStart s c => decide (s < 8 ∧ c < 32)
  | .hbmSpareCopyDone s => decide (s < 8)
  | .supplyWarn v | .supplyNormal v | .reducedExit v | .rideLimit v | .supplyStop v | .overvolt v => word32Ok v
  | .reducedEntry v a | .overcurrent v a => word32Ok v && word32Ok a
  | .avsAck r | .avsTimeout r => decide (r < 8)
  | .hostLoss c => decide (c < 256)
  | .blockPartialReset d b => blockOk d b
  | .blockSelfTestDone d b _ => blockOk d b
  | .firmwareStart _ us => us.all (fun u => word32Ok u.1 && word32Ok u.2)
  | .trainingDone _ _ gib bad => gib.all (fun e => ddrOk e.1 && decide (e.2 ≤ 256)) && bad.all (fun u => word32Ok u.1 && word32Ok u.2)
  | .thermtrip n => decide (n < 256)
  | .hostReadCompletion n => word64Ok n
  | .tenantReleaseRun | .fwTakeover | .fwResume | .fwActivateTimeout | .mgmtFlagCntRead | .cadBeatLowRead | .stepBoundary | .plazaLane
  | .numLost | .marksAbsent | .acqFail | .holdLimit | .beatNumberSend | .cadenceMarkSend | .xrefLost | .xrefReturn | .graceEnd
  | .stopRecordClose | .stopRailsOff | .stopComplete | .unitEntryPoint | .unitWakeLock | .deviceStateDone | .presence
  | .presenceWindowEnd | .sealOpen | .akCertified | .hostHoldExpiry | .hostPortReset | .sealLoopClose | .eventSnapshotDone | .timeRecord => true
  | .mirrorPass _ | .deviceReset _ _ _ | .watchdogExpiry _ | .vfEnable _ | .powerOnQualified _ _ _ _ _ => true

end Sys2Proof
end

