-- ==== Sys2Proof/Tests/Slice0.lean ====
section
/-! SUPPORT. Tests: the shape of operands that WellFormed refuses, a worked example of the manual, and for every obligation with hypotheses a state and operands that meet them. -/

open Sys2Proof Sys2Proof.Machine

set_option Elab.async false

namespace Sys2Proof.Tests

/-! ### Packets -/

/-- A packet: opcode, header flags, handle, the 12 bytes of ARGS, parameters padded to whole units of 16 bytes, with the trailer of SEQ 1 (11 R290). -/
def packet (op flags handle : Nat) (args params : Bytes) (client : Nat := 0) : Packet :=
  let body := params ++ List.replicate ((16 - params.length % 16) % 16) 0
  let units := 3 + body.length / 16
  { client := client
    header := leBytes 1 op ++ leBytes 1 flags ++ leBytes 2 units ++ leBytes 4 7 ++ leBytes 8 handle ++ leBytes 4 0 ++ (args ++ List.replicate (12 - args.length) 0)
    params := body, trailerSeq := 1, trailerLen := units, trailerRes := 0, shortSeq := 0, envs := [] }

/-- A packet without a handle. -/
def plain (op : Nat) (args params : Bytes) : Packet := packet op 0 0 args params

/-- An envelope of client 0 under KEYGEN 1. -/
def envelope (kind seq : Nat) : Envelope := ⟨0, 0, kind, 1, 64, seq, true⟩

/-- A packet with sealed parameters and one envelope for each object it reads. -/
def sealedPacket (op handle : Nat) (args params : Bytes) (objects : List Envelope) : Packet :=
  { packet op 16 handle args params with envs := envelope 0 1 :: objects }

/-- A BUF parameter (11 R307). -/
def buf (addr len : Nat) : Bytes := leBytes 8 addr ++ leBytes 4 len ++ leBytes 4 0

/-- A PIECE parameter that brings a whole object of some bytes (11 R308). -/
def wholePiece (len : Nat) : Bytes := leBytes 8 0 ++ leBytes 8 len ++ buf 0x9000 len

/-- The state with a packet recognised and not yet served. -/
def served (p : Packet) (s : State) : State :=
  modClient p.client (fun c => { c with inflight := 1, recognised := [⟨p, .none, 0, 1, s.cad.beat, s.cad.phase⟩] }) s

/-- Where the packet's own work starts. -/
def after (waits : Packet → State → Bool) (p : Packet) (s : State) : State := (passes waits p s).getD s

/-! ### States -/

/-- A device in service with client 0's reply ring set and no tenant. -/
def up : State :=
  { State.reset with
    svc := { State.reset.svc with phase := 4, fellBack := false }
    host := { State.reset.host with stopped := false, ringEverSet := true }
    clients := [(0, { run := true, base := 0x1000 })]
    cad := { State.reset.cad with st := .locked, beat := 100, mode := 0 }
    sec := { State.reset.sec with measuring := false }
    mgmt := { State.reset.mgmt with mask := 0 }
    tier := { State.reset.tier with t1Total := 1024, t2Total := 131072 } }

/-- A partition of one layer with one KV head of 32. -/
def part0 : Partition := ⟨0, 0, 1, 32, 0, 0, 1, 1, 4, 64, 0, 0xFF, 0, {}, {}, 0⟩

/-- A vocabulary of the 256 single bytes. -/
def byteEntries : List VocabEntry := (List.range 256).map (fun b => ⟨b, b, 1, false, true, [BitVec.ofNat 8 b]⟩)

/-- A vocabulary image of them, without its trailer (10 R254). -/
def vocabHead : Bytes :=
  leBytes 4 0x42434F56 ++ leBytes 4 1 ++ leBytes 8 256 ++ leBytes 8 6272 ++ leBytes 40 0
    ++ ((List.range 256).map (fun b => leBytes 4 b ++ leBytes 4 b ++ leBytes 8 1 ++ leBytes 8 b)).flatten

/-- The image; its digest comes from another implementation of SHAKE256. -/
def vocabObject : Bytes := vocabHead ++ leBytes 64 0x988b56f6748e688bb91a95214f1da893f582ff2025b1e4e93227c1ffe70a40259e73fe05204bb02bc778b901edd62aa3b3700a232ceb9131c1514f52c3b765ab

/-- The device with a tenant bound, a payload key of client 0, a weight key, a model and a partition. -/
def bound : State :=
  { up with
    sec := { up.sec with
      bound := true, policy := some ⟨0x4E545046, 1, 1, true, true, [0], 96, 6⟩
      weightKeys := [(0, 1), (15, 1)], weightSecrets := [(0, 5), (15, 5)], payloadKeys := [(0, { keyId := 1, key := 2 })] }
    cont := { up.cont with models := [(0, ⟨5, 1000, 256⟩)], partitions := [(0, part0)], vocabs := [(0, ⟨byteEntries, 3⟩)] } }

def slot (id lane part start beats : Nat) : SlotEntry :=
  ⟨id, lane, part, start, beats, 0, (if lane ≤ 1 then beats - 1 else beats), 0, 0, (if lane ≤ 1 then 0 else 0xFF), 0, 0, 1, (if lane = 0 then 1 else 0), 0, 0⟩

def dirEntry (type part length : Nat) : DirEntry := ⟨type, part, 4096, length, true, true⟩

def ring0 : RingSection := ⟨0, 9, 0, 0, 1, 5, 3, 11, [0]⟩

/-- An image with one ring of one member: a layer slot, a sampling slot, a Mover slot. -/
def image : Image :=
  { magic := 0x53484146, version := 1, totalBytes := 8192, anchor := 0, stepBeats := 64, windowBeats := 4, plazaOffset := 0, plazaBeats := 2
    period := 1, profiles := 15, partitions := 1, kind := 0, slipLead := 1, fallbackLead := 16, zeroOk := true
    dir := [dirEntry 1 0 194, dirEntry 2 0xFF 144, dirEntry 3 0xFF 16] ++ List.replicate 16 (dirEntry 4 0xFF 64)
      ++ [dirEntry 5 0xFF 0, dirEntry 6 0xFF 0, dirEntry 7 0 192]
    rings := [ring0]
    slots := [slot 1 0 0 0 10, slot 2 1 0 10 5, slot 3 2 0xFF 20 10]
    regions := []
    mprogs := (List.range 16).map (fun d => ⟨d, 0, [], 0, 0, []⟩)
    transfers := [], links := []
    patterns := [⟨0, 0, 0, 0, 0, 1, [0], [], [], []⟩]
    trains := [], fallbacks := [], facts := ⟨8192, 21, 21⟩ }

/-- The image in force, in its second step. -/
def running (s : State) : State := { s with sched := { s.sched with active := some image, base := some image, step := 1 } }

/-- A resident session in slot 0 with one page of 40 committed bytes. -/
def session0 : Session :=
  { d := { state := 1, partition := 0, committed := 40, ledgerPos := 40, grade := 2 }
    pages := [⟨0, 1, false, true, false, false, false, 0xFF, 40, frameAddr 0 0 65536⟩]
    body := [⟨1, false, 0, List.replicate 40 65, (0, 0)⟩] }

def withSession (x : Session) (tier : Nat) (s : State) : State :=
  { s with
    slots := { s.slots with table := [(0, x)], fresh := 1 }
    tier := { s.tier with frames := [(frameAddr 0 0 65536, ({ partition := 0, tier := tier, grade := if tier = 1 then 0xFF else 2, length := if tier = 1 then 0 else 1000, count := 1, lender := 0, lref := 0, channel := 0 } : Frame))] } }

/-- The handle of slot 0, generation 1, partition 0, home 0. -/
def handle0 : Nat := makeHandle 0 1 0 0

def resident : State := running (withSession session0 1 bound)

/-- An ACT region of slot 1, its mirror, a LAND region, and the transfer that lands there. -/
def actHome : Region := ⟨0, 0, 1, 0, 0, 64, 1, 2, 1⟩
def actMirror : Region := ⟨0, 1, 1, 2, 0, 64, 1, 2, 0⟩
def landRegion : Region := ⟨0, 2, 2, 0, 0, 4096, 1, 2, 0xFFFFFFFF⟩
def landTransfer : Transfer := ⟨7, 0, 1, 1, 0, 5, 0, 1, 10, 0, 2, 2, 0xFFFF⟩
def storeImage : Image := { image with regions := [actHome, actMirror, landRegion], transfers := [landTransfer] }
def staged : State :=
  { resident with
    sched := { resident.sched with active := some storeImage, base := some storeImage }
    fab := { resident.fab with store := [(0, { now := [(3, 0x40)] })] } }

def parkedSession : Session := { session0 with d := { session0.d with state := 3 }, pages := session0.pages.map (fun p => { p with tier := 2, grade := 2 }) }

def parked : State := running (withSession parkedSession 2 bound)

/-- A session with a handover, in any state. -/
def handing (state newHandle prior : Nat) (source finalSent : Bool) (s : State) : State :=
  withSession { session0 with d := { session0.d with state := state }, handover := some ⟨source, 3, newHandle, 77, prior, false, finalSent, false, 0⟩ } 1 s

/-- A member of a composition of two, 0 and 3. -/
def compMap : CompMap := ⟨0x504D4F43, 1, 2, 1, 0, 0, true, [⟨0, false, 0, List.replicate 32 (0xFFFF, 0xFF)⟩, ⟨3, false, 99, []⟩], ⟨384, 4, 4⟩⟩

def member (s : State) : State := { s with comp := { s.comp with inComp := true, index := 0, last := some 0, epoch := 0, map := some compMap } }

def origin0 : Origin := ⟨0, 7, 1, 0, 0, none, 90, 0⟩

def waiting (w : Work) (s : State) : State := { s with commands := [⟨w, origin0⟩] }

/-- The device with the contents of `bound` and no tenant. -/
def bare : State := { bound with sec := up.sec }

/-- A plan image for ring 9 of the image, with one role for no position. -/
def plan : PlanImage := { head := image, ringId := 9, base := 21, ringSize := 1, roleFor := [0xFFFF], roleDir := [(0, 0)], roles := [image], facts := ⟨8192, 31, 31⟩ }

/-! ### Images as bytes (08 R192 to R198, R219, R502, R503) -/

def pad64 (b : Bytes) : Bytes := b ++ List.replicate ((64 - b.length % 64) % 64) 0

def headBytes (sections total kind : Nat) : Bytes :=
  leBytes 4 0x53484146 ++ leBytes 2 1 ++ leBytes 2 sections ++ leBytes 8 total ++ leBytes 8 0 ++ leBytes 4 64 ++ leBytes 4 4 ++ leBytes 4 0 ++ leBytes 4 2
    ++ leBytes 1 1 ++ leBytes 1 15 ++ leBytes 1 1 ++ leBytes 1 kind ++ leBytes 2 1 ++ leBytes 2 16 ++ leBytes 16 0

def dirBytes (type part off len : Nat) : Bytes := leBytes 2 type ++ leBytes 2 part ++ leBytes 4 off ++ leBytes 4 len ++ leBytes 4 0

def slotBytes (x : SlotEntry) : Bytes :=
  leBytes 2 x.id ++ leBytes 1 x.lane ++ leBytes 1 x.partition ++ leBytes 4 x.start ++ leBytes 2 x.beats ++ leBytes 2 x.rerunBeats ++ leBytes 2 x.commitBeat
    ++ leBytes 2 x.commitPhase ++ leBytes 1 x.flags ++ leBytes 1 x.microbatch ++ leBytes 2 x.layer ++ leBytes 2 x.abortLead ++ leBytes 2 x.districts
    ++ leBytes 4 x.qpos ++ leBytes 4 x.keys ++ leBytes 8 x.pairs ++ leBytes 8 0

def ringBytes0 : Bytes :=
  leBytes 8 9 ++ leBytes 2 1 ++ leBytes 2 0 ++ leBytes 2 0 ++ leBytes 2 1 ++ leBytes 16 0 ++ leBytes 64 5 ++ leBytes 32 3 ++ leBytes 32 11 ++ leBytes 32 0 ++ leBytes 2 0

/-- The image of one ring of one member, its sections in directory order, without its trailer. -/
def imageHead : Bytes :=
  headBytes 22 2240 0
    ++ (dirBytes 1 0 448 194 ++ dirBytes 2 0xFF 704 144 ++ dirBytes 3 0xFF 896 16 ++ ((List.range 16).map (fun d => dirBytes 4 0xFF (960 + 64 * d) 64)).flatten
      ++ dirBytes 5 0xFF 1984 0 ++ dirBytes 6 0xFF 1984 0 ++ dirBytes 7 0 1984 192) ++ leBytes 32 0
    ++ pad64 ringBytes0 ++ pad64 (slotBytes (slot 1 0 0 0 10) ++ slotBytes (slot 2 1 0 10 5) ++ slotBytes (slot 3 2 0xFF 20 10)) ++ leBytes 64 0
    ++ ((List.range 16).map (fun d => leBytes 64 d)).flatten ++ (leBytes 10 0 ++ leBytes 2 1 ++ leBytes 180 0)

def imageObject : Bytes := imageHead ++ leBytes 64 0xe6fca2093732233bfebdbe5667a0781bd19137f7dd6e1b682de2eab01d1cc6c6232aa6f1f83aa2fd505b9020890320966a0a24275eedbdd76943678d0d9338e

/-- A plan for ring 9 of another base, with that image as its one role, without its trailer. -/
def planHead : Bytes :=
  headBytes 1 2624 1 ++ dirBytes 10 0xFF 128 146 ++ leBytes 48 0
    ++ pad64 (leBytes 8 9 ++ leBytes 64 21 ++ leBytes 2 1 ++ leBytes 2 1 ++ leBytes 52 0 ++ leBytes 2 0xFFFF ++ leBytes 8 320 ++ leBytes 8 2240) ++ imageObject

def planObject : Bytes := planHead ++ leBytes 64 0x523b1cbcde62d9676cc369b4fb4a707a1e4896e6685f6800c9e2c643347d2a272a3013b02a7bae2b191c4f4aa3d0c2c5aef234089b3f8208ba166a9326fcf840

/-- A map as bytes, with its digest (12 R333). -/
def mapObject (m : CompMap) : Bytes :=
  let h := leBytes 4 m.magic ++ leBytes 2 m.version ++ leBytes 2 m.devices.length ++ leBytes 4 m.epoch ++ leBytes 4 m.graceBeats ++ leBytes 48 m.root
    ++ (m.devices.map (fun d => leBytes 2 d.index ++ leBytes 2 (boolNat d.leaving) ++ leBytes 16 d.identity ++ leBytes 12 0
      ++ (d.links.map (fun l => leBytes 2 l.1 ++ leBytes 1 l.2)).flatten ++ List.replicate (96 - 3 * d.links.length) 0)).flatten
  h ++ leBytes 64 (shake256 h).toNat

/-- A session of 40 committed bytes as an image, its pages elsewhere. -/
def image0 : SessionImage :=
  { handle := handle0, client := 0, vocab := false, stopInc := false, grade := 2, fromProfile := false, deadPolicy := 0, vocabIndex := 0, spec := 0
    committed := 40, ledgerPos := 40, retired := 0, genKey := 0, wake := 0, maxLen := 0, leadRow := false, pages := [], counts := ⟨[], 0, 0⟩
    con := ⟨none, false, [], [], [], none, 0, 0, []⟩, setSource := none, ledger := [⟨1, false, 0, List.replicate 40 65, (0, 0)⟩], capsules := [] }

def cap0 : SessionCapsule := { magic := 0x43534E46, version := 1, totalBytes := 1000, modelDigest := 5, parts := [⟨0, 0, 1, 1, 32, 0⟩], body := image0, facts := ⟨1000, 3, 3⟩ }

/-- A page capsule of one record of method 2 (04 R100). -/
def capsule0 : Bytes :=
  let h := leBytes 2 0xCA95 ++ leBytes 8 1 ++ leBytes 2 1 ++ leBytes 4 (tileBytes part0) ++ leBytes 8 0 ++ leBytes 4 8
  h ++ leBytes 4 (crc32c (h ++ leBytes 8 0x200000000)) ++ leBytes 8 0x200000000

def resultOf (o : Host.Outcome State Fault Refusal) : State := match o with | .next t => t | _ => up
def doneOf (o : SetOut) : State := match o with | .done t => t | _ => up
def lastOf (o : PieceOut) : State := match o with | .last t => t | _ => up
def keptOf (o : PieceOut) : Ans × State := match o with | .kept a t => (a, t) | _ => ({ status := 0 }, up)
def ansOf (o : Option Ans) : Ans := o.getD { status := 0 }

def withImage (img : Image) (s : State) : State := { s with sched := { s.sched with active := some img, base := some img, step := 1 } }
def granting (s : State) : State := { s with comp := { s.comp with grants := [(0, 3, 1)] } }
def atPosition (k : Nat) (s : State) : State := { s with cont := { s.cont with partitions := [(0, { part0 with position := k })] } }
def departing (l : List (Nat × Nat × List Nat)) (s : State) : State := { s with sched := { s.sched with departures := l } }
def waking (w tier : Nat) (s : State) : State :=
  withSession { parkedSession with d := { parkedSession.d with wake := w } } tier s
def graced (g : Nat) (m : CompMap) (s : State) : State :=
  { s with comp := { s.comp with inComp := true, last := some 0, epoch := 1, previous := 0, graceUntil := some g, map := some m } }
def saving (l : List Checkpoint) (s : State) : State := { s with saves := { s.saves with checkpoints := l } }
def restoring_ (l : List Restoring) (s : State) : State := { s with saves := { s.saves with restores := l } }
def atBeat (b : Nat) : State := { up with cad := { up.cad with beat := b } }

/-- An ACTIVE session with sealed places in the step now running. -/
def generating (_ : Nat) (l : List SealedMb) : State :=
  let s := running (withSession { session0 with d := { session0.d with state := 2, committed := 30 }, job := some { framesReserved := 2 } } 1 bound)
  { s with sched := { s.sched with sealNow := l } }

def noticing (l : List Notice) (s : State) : State := { s with sched := { s.sched with notices := l } }
def slipping (l : List Notice) (s : State) : State := { s with sched := { s.sched with slipDue := l } }
def linked (l : Link) (s : State) : State := { s with links := { s.links with port := [(0, l)] } }
def flowing (f : LinkFlow) (s : State) : State := { s with links := { s.links with flow := [(0, f)] } }

/-- A BEAT_NUMBER message with its check value (02 R42). -/
def beatBytes (n : Nat) : Bytes :=
  let x := [0xC5, 1, 0, 0] ++ leBytes 8 n ++ leBytes 2 0
  x ++ leBytes 2 (crc16 x)

def recalling (s : State) : State := { s with tier := { s.tier with set := { s.tier.set with recalls := [(0, [(0, 40)])] } } }

theorem none_case {α : Type} {f : Option α} {P : α → Prop} (h : f = none) : ∀ x, f = some x → P x := by
  intro x hx
  rw [h] at hx
  exact absurd hx (Option.some_ne_none x).symm

theorem some_case {α : Type} {f : Option α} {P : α → Prop} {a : α} (h : f = some a) (hp : P a) : ∀ x, f = some x → P x := by
  intro x hx
  rw [h] at hx
  exact Option.some.inj hx ▸ hp

theorem compile_full {c : ConSet} {x : Session} {s : State} (hs : sameSet s c (if x.d.vocab then some x.d.vocabIndex else none) = none)
    (hu : unitStore < unitUsed s none) : compileSet c x s = none := by
  unfold compileSet
  simp only [hs]
  exact if_pos (Nat.lt_of_lt_of_le hu (Nat.le_add_right _ _))

/-- A firmware image of 128 header bytes, 64 digest bytes and a signature (15 R410), and what its bytes say. -/
def fwHead (magic roll : Nat) : Bytes := leBytes 4 magic ++ leBytes 4 1 ++ leBytes 4 roll ++ leBytes 4 0 ++ leBytes 8 29984 ++ leBytes 104 0

def fwObject (roll : Nat) (ok : Bool) (magic : Nat := 0x57464E46) (digest : Nat := 0) : FirmwareObject :=
  ⟨fwHead magic roll ++ leBytes 64 ((shake256 (fwHead magic roll)).toNat + digest) ++ List.replicate 29792 0, 9, ok⟩

def fwImage (roll : Nat) (ok : Bool) (magic : Nat := 0x57464E46) (digest : Nat := 0) : FirmwareImage :=
  let signed := fwHead magic roll ++ leBytes 64 ((shake256 (fwHead magic roll)).toNat + digest)
  { magic := fieldAt signed 0 4, version := fieldAt signed 4 2, zeroOk := zeroSpan signed 6 2 && zeroSpan signed 12 4 && zeroSpan signed 24 104
    rollback := fieldAt signed 8 4, totalBytes := fieldAt signed 16 8, fwVersion := 9, signatureOk := ok, facts := { objectFacts signed with delivered := 29984 } }

theorem leBytes_len (n v : Nat) : (leBytes n v).length = n := by
  induction n generalizing v with
  | zero => rfl
  | succ n ih => simp only [leBytes, List.length_cons, ih]

theorem fieldAt_front {a b : Bytes} {off len : Nat} (h : off + len ≤ a.length) : fieldAt (a ++ b) off len = fieldAt a off len := by
  unfold fieldAt
  rw [List.drop_append_of_le_length (by omega), List.take_append_of_le_length (by rw [List.length_drop]; omega)]

theorem zeroSpan_front {a b : Bytes} {off len : Nat} (h : off + len ≤ a.length) : zeroSpan (a ++ b) off len = zeroSpan a off len := by
  unfold zeroSpan
  rw [List.drop_append_of_le_length (by omega), List.take_append_of_le_length (by rw [List.length_drop]; omega)]

theorem fw_read {roll : Nat} {ok : Bool} {magic digest : Nat} : fwImage roll ok magic digest = readFirmware (fwObject roll ok magic digest) := by
  have hs : (fwHead magic roll ++ leBytes 64 ((shake256 (fwHead magic roll)).toNat + digest)).length = 192 := by
    simp only [fwHead, List.length_append, leBytes_len]
  unfold readFirmware fwObject fwImage
  generalize fwHead magic roll ++ leBytes 64 ((shake256 (fwHead magic roll)).toNat + digest) = b at hs ⊢
  have hl : (b ++ List.replicate 29792 (0 : Byte)).length = 29984 := by rw [List.length_append, hs, List.length_replicate]
  have ht : (b ++ List.replicate 29792 (0 : Byte)).take (29984 - 29792) = b := List.take_left' hs
  simp only [hl, ht, fieldAt_front (show 0 + 4 ≤ b.length by omega), fieldAt_front (show 4 + 2 ≤ b.length by omega), fieldAt_front (show 8 + 4 ≤ b.length by omega),
    fieldAt_front (show 16 + 8 ≤ b.length by omega), zeroSpan_front (show 6 + 2 ≤ b.length by omega), zeroSpan_front (show 12 + 4 ≤ b.length by omega),
    zeroSpan_front (show 24 + 104 ≤ b.length by omega)]

theorem vocab_reads : vocabFault (readVocab vocabObject) = none := by decide +kernel

theorem vocab_takes : vocabBytes (readVocab vocabObject).list = 10240 := by decide +kernel

theorem index_case {α : Type} {l : List α} {P : Nat → α → Prop} (h : ∀ i : Fin l.length, P i l[i]) : ∀ i x, l[i]? = some x → P i x := by
  intro i x hx
  obtain ⟨hi, rfl⟩ := List.getElem?_eq_some_iff.mp hx
  exact h ⟨i, hi⟩

theorem no_custodial {s : State} (h : s.commands = []) : ∀ v, ∀ c ∈ s.commands, c.work ≠ .custodial 4 v := by
  intro v c hc
  rw [h] at hc
  exact absurd hc List.not_mem_nil


/-! ### Ill-formed commands, one for each check of WellFormed -/

theorem test_packet_shapes_checked :
    Packet.wf (plain 1 [] []) = true ∧ Packet.wf { plain 1 [] [] with client := 256 } = false
      ∧ Packet.wf { plain 1 [] [] with header := [] } = false ∧ Packet.wf { plain 1 [] [] with trailerSeq := 2 ^ 32 } = false
      ∧ Packet.wf { plain 1 [] [] with shortSeq := 2 ^ 32 } = false ∧ Instr.wf (.ping { plain 1 [] [] with client := 256 }) = false := by
  decide

theorem test_packet_window_checked (p : Packet) (h : p.params.length = 65497) : p.wf = false := by
  simp [Packet.wf, h]

theorem test_unit_numbers_checked :
    Instr.wf (.cliRunPreempt 256) = false ∧ Instr.wf (.retrainDone 32) = false ∧ Instr.wf (.laneFail 0 4) = false
      ∧ Instr.wf (.tokenizeEnd (2 ^ 24)) = false ∧ Instr.wf (.slipApply 16) = false ∧ Instr.wf (.memberLost 4096) = false
      ∧ Instr.wf (.dimmScrubDone 12) = false ∧ Instr.wf (.slotStart 65536) = false ∧ Instr.wf (.blockPartialReset 16 0) = false
      ∧ Instr.wf (.blockPartialReset 0 16) = false ∧ Instr.wf (.mprogError 0 0 32 0) = false ∧ Instr.wf (.weightTagFail 16 0 0) = false
      ∧ Instr.wf (.hbmSpareStart 8 0) = false ∧ Instr.wf (.hbmSpareStart 0 32) = false ∧ Instr.wf (.avsAck 8) = false := by
  decide

theorem test_value_ranges_checked :
    Instr.wf (.queueStateWrite 0 65536 0 0 0) = false ∧ Instr.wf (.queueStateWrite 0 0 (2 ^ 32) 0 0) = false
      ∧ Instr.wf (.cadPeriodChange 5) = false ∧ Instr.wf (.cadModeChange 3) = false ∧ Instr.wf (.deviceStateRequest 3) = false
      ∧ Instr.wf (.dimmSpdRead 0 1025 true) = false ∧ Instr.wf (.cadenceMark 0 (2 ^ 64) 0) = false
      ∧ Instr.wf (.beatMark true 2048) = false ∧ Instr.wf (.beatMark true (-2048)) = true ∧ Instr.wf (.beatNumber 33 (List.replicate 16 0)) = false
      ∧ Instr.wf (.beatNumber 0 []) = false ∧ Instr.wf (.forwardReply 0 0 65536 0 0 0 0 0) = false ∧ Instr.wf (.imageReady 0 0 (2 ^ 256) 0) = false
      ∧ Instr.wf (.supplyStop (2 ^ 32)) = false ∧ Instr.wf (.hostLoss 256) = false ∧ Instr.wf (.correctableError 16 0) = false
      ∧ Instr.wf (.moverSlotEnd [⟨0, false, 4, 0⟩]) = false ∧ Instr.wf (.trainingDone 0 0 [(11, 257)] []) = false := by
  decide

theorem test_register_places_checked :
    Instr.wf (.registerWrite ⟨2 ^ 20, 0⟩) = false ∧ Instr.wf (.flagClearW1c (2 ^ 20) 0 0) = false ∧ Instr.wf (.badAccess 0 65 false) = false
      ∧ Instr.wf (.mgmtFlagClear 512 []) = false ∧ Instr.wf (.mgmtFlagClear 0 [(0, 64)]) = false ∧ Instr.wf (.windowRead (2 ^ 30) 4) = false
      ∧ Instr.wf (.windowRead 0 4097) = false ∧ Instr.wf (.windowWrite (2 ^ 30)) = false := by
  decide

theorem test_message_shapes_checked :
    Instr.wf (.slipNotice ⟨0, 0, 0, 0, 0, 0, 0, 0, 0, 0⟩) = false ∧ Instr.wf (.slipNotice ⟨5, 0, 0, 0, 0, 0, 0, 0, 0, 0⟩) = false
      ∧ Instr.wf (.slipNotice ⟨1, 0, 0, 0, 0, 0, 0, 0, 0, 0⟩) = true ∧ Instr.wf (.deferNotice ⟨3, 0, 0, 0, 0, 0, 0, 256, 0, 0⟩) = false
      ∧ Instr.wf (.cancelNotice ⟨0, 0, 0, 0, 4096⟩) = false ∧ Instr.wf (.withdrawal ⟨2 ^ 64, 0, 0, 0, 0⟩) = false
      ∧ Instr.wf (.shardDone ⟨0, 1024, 0, 0, 0⟩) = false ∧ Instr.wf (.uncorrectableError (.frame (2 ^ 64))) = false
      ∧ Instr.wf (.uncorrectableError (.segmentOne 0 2)) = false ∧ Instr.wf (.frameTransmit 0 4096 []) = false
      ∧ Instr.wf (.frameReceive 0 (List.replicate 35 0) 0 0 0) = false ∧ Instr.wf (.frameReceive 32 (List.replicate 36 0) 0 0 0) = false
      ∧ Instr.wf (.trainingDone 0 0 [(12, 0)] []) = false ∧ Instr.wf (.firmwareStart true [(2 ^ 32, 0)]) = false := by
  decide

/-! ### A worked example of the manual -/

/-- The SET_PARAM packet of 11 R315: 112 bytes, LENGTH 7, TAG 1, SEQ 0x2C05. -/
def workedSettings : Packet :=
  { client := 0
    header := [3, 0, 7, 0, 1, 0, 0, 0] ++ List.replicate 12 0 ++ [3, 0, 0, 0] ++ List.replicate 8 0
    params := [0x11, 0, 0x11, 4, 0, 0, 0, 0, 0, 2, 0, 0, 0, 0, 0, 0, 0, 0, 0, 0, 0, 0, 0, 0,
      0x10, 0, 0x11, 4, 0, 0, 0, 0, 0, 1, 0, 0, 0, 0, 0, 0, 0, 0, 0, 0, 0, 0, 0, 0,
      2, 0, 0x11, 4, 0, 0, 0, 0, 0x40, 0, 0, 0, 1, 0, 0, 0, 0, 0, 0, 0, 0, 0, 0, 0]
    trailerSeq := 0x2C05, trailerLen := 7, trailerRes := 0, shortSeq := 0, envs := [] }

/-- Client 17 runs at CIR 64 and PIR 128; client 0's next packet is 0x2C05. -/
def workedState : State :=
  modClient 0 (fun c => { c with seq := 0x2C05 }) (modClient 17 (fun c => { c with run := true, cmd := { c.cmd with cir := 64, pir := 128 } }) up)

theorem test_worked_settings_reply :
    ((resultOf (execSetParam workedSettings workedState)).out.replies.map (fun r => (r.status, r.detail, r.count0, r.count1))) = [(stPARTIAL, 2, 0x11, 0x50)] := by
  decide +kernel

/-- The new rates hold from the next beat. -/
theorem test_worked_settings_meter :
    let t := resultOf (execSetParam workedSettings workedState)
    getSetting 0x04110010 t = some 64 ∧ getSetting 0x04110011 (resultOf (step t)) = some 512 ∧ getSetting 0x04110010 (resultOf (step t)) = some 256 := by
  decide +kernel


/-! ### The Block store (07 R175, R177, R178; 08 R502) -/

theorem test_act_region_and_mirror :
    (let t := commitRegion 1 0 8 [1, 0, 3] staged
     (regionBytes (storeAt t 0) 3 6, regionBytes (storeAt t 1) 8 3, regionBytes (storeAt t 2) 0 2)) = ([0x40, 0, 0, 0, 0, 1], [1, 0, 3], [0, 0]) := by decide +kernel

/-- Slot 2 starts at beat 10, its end is the end of the regions' lifetime; before the commit of slot 1, at beat 9, ACT is dead; LAND lives from beat 0. -/
theorem test_region_lifetimes :
    ([0, 9, 10, 14, 15].map (fun b => (aliveAt storeImage (b * 4096) 0 { now := [(3, 0x40)] }).now),
     [0, 15, 63].map (fun b => (aliveAt storeImage (b * 4096) 2 { now := [(3, 0x40)] }).now))
      = ([[], [(3, 0x40)], [(3, 0x40)], [(3, 0x40)], []], [[(3, 0x40)], [(3, 0x40)], [(3, 0x40)]]) := by decide +kernel

/-- MASK replaces the score of a key that its query does not see by minus infinity (07 R181). -/
theorem test_mask_row :
    maskRow (fun k => decide (k ≤ 5)) ⟨0x29, [1, 2, 3, 4], [4, 6, 5, 7], [], 0, false, 0, 0, 0, .scratch 0⟩ = [1, 0xFF800000, 3, 0xFF800000] := by decide +kernel

/-! ### SHAKE256 of the empty string and of "abc", from another implementation (13 R346) -/

theorem test_shake256 :
    shake256 [] = BitVec.ofNat 512 0xbec4b7b3ac2e294086b49a47491c82fcf692b5679d0105cb00f2c0d8ddc45dd72f76d56e64270cb5821bb862ea52cd3f24eb3e74eb3f3b23138da80b2bddb946
      ∧ shake256 [97, 98, 99] = BitVec.ofNat 512 0xe451e70188bd06eb4f2aa162e426879faa1f7e52c04457c786536a18ef5ba1d539578be737ea944feee1f1f83045b48d4d11c40c0863681c77a8601360663348 := by decide +kernel

/-! ### A link frame read back (12 R321), and one whose header is changed -/

theorem test_frame_bytes :
    let f : LinkFrame := ⟨0, 0, 2, 9, 1, 7, 0, 0, 0, 3, 0, 0, true, true, [5, 6]⟩
    readFrame (frameBytes f) = f ∧ (readFrame ((frameBytes f).set 4 8)).hcrcOk = false ∧ (readFrame ((frameBytes f).set 32 4)).pcrcOk = false := by decide +kernel

/-! ### A state and operands that meet the hypotheses of each obligation -/

theorem met_EmptyQueueIsOneBeat :
    (∃ (s : State), (s.pending = [])) :=
  ⟨up, by decide +kernel⟩

theorem met_CommandsLeaveQueue :
    (∃ (c : Instr) (s : State) (t : State), (exec c s = .next t)) :=
  ⟨(.vfEnable true), up, ({ up with host := { up.host with vfEnable := true } } : State), rfl⟩

theorem met_StepKeepsMemoryCanonical :
    (∃ (s : State) (t : State), (Memory.wf s.mem = true) ∧ (step s = .next t)) :=
  ⟨({ up with pending := [.vfEnable true] } : State), ({ up with host := { up.host with vfEnable := true } } : State), by decide +kernel, rfl⟩

theorem met_OnlyRunningClientsScanned :
    (∃ (n : _), (n ≠ 0))
    ∧ (∃ (p : Packet) (s : State), ((clientOf s p.client).run = false ∨ ringOk (clientOf s p.client) = false))
    ∧ (∃ (s : State), (s.svc.phase ≠ 0) ∧ (s.sup.tripped = false) ∧ (s.sup.railsOff = false) ∧ (s.sup.st ≠ .stopping))
    ∧ (∃ (n : Nat) (s : State), (n ≠ 0) ∧ ((clientOf s n).run = false)) :=
  ⟨⟨1, by decide +kernel⟩,
   ⟨(plain 1 [] []), State.reset, by decide +kernel⟩,
   ⟨up, by decide +kernel⟩,
   ⟨255, up, by decide +kernel⟩⟩

theorem met_ReplyRingWriteResetsPointers :
    (∃ (n : Nat) (s : State), (n < 256) ∧ ((clientOf s n).inflight = 0) ∧ ((n = 0 ∨ (clientOf s n).run = false)))
    ∧ (∃ (n : Nat) (s : State), (n < 256) ∧ (((clientOf s n).inflight ≠ 0 ∨ (n ≠ 0 ∧ (clientOf s n).run = true))))
    ∧ (∃ (n : Nat), (n < 256)) :=
  ⟨⟨255, up, by decide +kernel⟩,
   ⟨0, (served (plain 1 [] []) up), by decide +kernel⟩,
   ⟨255, by decide +kernel⟩⟩

theorem met_RecognitionAdvancesWindow :
    (∃ (p : Packet) (s : State), (scanning s p.client = true) ∧ ((clientOf s p.client).blockedBy = none) ∧ (lengthFits (clientOf s p.client) p = true) ∧ (p.trailerSeq = (clientOf s p.client).seq) ∧ (p.trailerLen = lengthOf p) ∧ (2 ≤ freeReplySlots s p.client) ∧ (beatHasRoom s (clientOf s p.client) = true) ∧ (opcodeOf p ≠ 0) ∧ (knownOpcode (opcodeOf p) = true))
    ∧ (∃ (p : Packet) (s : State), (scanning s p.client = true) ∧ ((clientOf s p.client).blockedBy = none) ∧ (lengthFits (clientOf s p.client) p = true) ∧ (p.trailerSeq = (clientOf s p.client).seq) ∧ (p.trailerLen = lengthOf p) ∧ (2 ≤ freeReplySlots s p.client) ∧ (beatHasRoom s (clientOf s p.client) = true) ∧ (opcodeOf p = 0)) :=
  ⟨⟨(plain 1 [] []), up, by decide +kernel⟩,
   ⟨(plain 0 [] []), up, by decide +kernel⟩⟩

theorem met_ChecksKeepClientsApart :
    (∃ (p : Packet), (p.client ≠ 0) ∧ ((opcodeOf p = 0x03 ∨ (0x10 ≤ opcodeOf p ∧ opcodeOf p ≤ 0x14) ∨ opcodeOf p = 0x32 ∨ (0x40 ≤ opcodeOf p ∧ opcodeOf p ≤ 0x43) ∨ (0x51 ≤ opcodeOf p ∧ opcodeOf p ≤ 0x53) ∨ (0x60 ≤ opcodeOf p ∧ opcodeOf p ≤ 0x64) ∨ (0x72 ≤ opcodeOf p ∧ opcodeOf p ≤ 0x74))))
    ∧ (∃ (p : Packet) (s : State), (s.sec.bound = true) ∧ (s.sec.releasing = false) ∧ (isSealed p = false) ∧ (keygens s p.client ≠ []) ∧ ((opcodeOf p = 0x20 ∨ (opcodeOf p = 0x21 ∧ paramOf p 0x20 8 ≠ 0) ∨ (opcodeOf p = 0x22 ∧ bitOf (argOf p 21 1) 1 = false) ∨ opcodeOf p = 0x29 ∨ opcodeOf p = 0x62))) :=
  ⟨⟨(packet 0x74 0 0 [] [] 255), by decide +kernel⟩,
   ⟨(plain 41 [] []), bound, by decide +kernel⟩⟩

theorem met_IdleServesQuietOpcodes :
    (∃ (p : Packet) (s : State), (s.svc.phase = 4) ∧ (s.sup.dev ≠ .run) ∧ ((p.client = 0 ∨ adminOpcode (opcodeOf p) = false)) ∧ (((1 ≤ opcodeOf p ∧ opcodeOf p ≤ 4) ∨ (0x50 ≤ opcodeOf p ∧ opcodeOf p ≤ 0x53) ∨ (0x60 ≤ opcodeOf p ∧ opcodeOf p ≤ 0x63) ∨ (0x70 ≤ opcodeOf p ∧ opcodeOf p ≤ 0x74))))
    ∧ (∃ (p : Packet) (s : State), (s.svc.phase = 4) ∧ (s.sup.dev ≠ .run) ∧ ((p.client = 0 ∨ adminOpcode (opcodeOf p) = false)) ∧ (¬ ((1 ≤ opcodeOf p ∧ opcodeOf p ≤ 4) ∨ (0x50 ≤ opcodeOf p ∧ opcodeOf p ≤ 0x53) ∨ (0x60 ≤ opcodeOf p ∧ opcodeOf p ≤ 0x63) ∨ (0x70 ≤ opcodeOf p ∧ opcodeOf p ≤ 0x74))) ∧ (s.sup.devTarget ≠ some .run)) :=
  ⟨⟨(plain 116 [] []), ({ up with sup := { up.sup with dev := .dormant } } : State), by decide +kernel⟩,
   ⟨(plain 100 [] []), ({ up with sup := { up.sup with dev := .dormant } } : State), by decide +kernel⟩⟩

theorem met_RedPacketThrottled :
    (∃ (p : Packet) (s : State) (s1 : State) (redCmd : Bool) (redByt : Bool) (d : Nat), (checkOpcode p s = none) ∧ (checkReserved p s = none) ∧ (checkTenancy p s = none) ∧ ((if isSealed p then openEnvelopes p.client 0 (p.envs.take 1) s else .ok s) = .ok s1) ∧ (unmetered p = false) ∧ ((redCmd = true ↔ (clientOf s1 p.client).cmd.pir ≠ 0 ∧ (((clientOf s1 p.client).aware = true ∧ bitOf (flagsOf p) 2 = true) ∨ (clientOf s1 p.client).cmd.tp < 256))) ∧ ((redByt = true ↔ (clientOf s1 p.client).byt.pir ≠ 0 ∧ (((clientOf s1 p.client).aware = true ∧ bitOf (flagsOf p) 2 = true) ∨ (clientOf s1 p.client).byt.tp < packetBytes p))) ∧ ((redCmd = true ∨ redByt = true)) ∧ (d = max (if redCmd then min 0xFFFE ((256 - (clientOf s1 p.client).cmd.tp + (clientOf s1 p.client).cmd.pir - 1) / (clientOf s1 p.client).cmd.pir) else 0) (if redByt then min 0xFFFE ((packetBytes p - (clientOf s1 p.client).byt.tp + (clientOf s1 p.client).byt.pir - 1) / (clientOf s1 p.client).byt.pir) else 0))) :=
  ⟨(plain 1 [] []), (modClient 0 (fun c => { c with cmd := { pir := 1, tp := 255 } }) up), (modClient 0 (fun c => { c with cmd := { pir := 1, tp := 255 } }) up), true, false, 1, by decide +kernel⟩

theorem met_UnmaskedFlagRaisesVector :
    (∃ (off : Nat) (g : Nat) (s : State), (flagGroup off = some g) ∧ (bitOf s.mgmt.mask g = true))
    ∧ (∃ (off : Nat) (g : Nat) (s : State) (off' : _) (g' : _), (flagGroup off = some g) ∧ (bitOf s.mgmt.mask g = false) ∧ (s.mgmt.vectorAt ≠ some (stamp s)) ∧ (flagGroup off' = some g')) :=
  ⟨⟨offCadEvents, 0, ({ up with mgmt := { up.mgmt with mask := 1 } } : State), by decide +kernel⟩,
   ⟨offCadEvents, 0, up, offSupEvents, 1, by decide +kernel⟩⟩

theorem met_EventsBelowFloorFiltered :
    (∃ (sev : Nat) (s : State), (sev < s.evr.floor))
    ∧ (∃ (sev : Nat) (code : Nat) (body : Bytes) (s : State), (s.evr.floor ≤ sev) ∧ (codeLimit (rollWindow s) code = none) ∧ (s.evr.records = []) ∧ (s.evr.snapshot = none) ∧ (body.length ≤ 240) ∧ ((FMap.getD s.evr.codes code {}).pending = 0)) :=
  ⟨⟨0, up, by decide +kernel⟩,
   ⟨6, 5, (List.replicate 240 0), up, by decide +kernel⟩⟩

theorem met_ReadingCommandsAnswer :
    (∃ (p : Packet) (s : State) (t : State), (opcodeOf p = 0x01) ∧ (passes never p s = some t))
    ∧ (∃ (p : Packet) (s : State) (t : State), (opcodeOf p = 0x02) ∧ (passes never p s = some t))
    ∧ (∃ (p : Packet) (s : State) (t : State) (v : _), (opcodeOf p = 0x04) ∧ (passes never p s = some t) ∧ (getSetting (argOf p 20 4) t = some v) ∧ (argOf p 24 1 ≤ 1))
    ∧ (∃ (p : Packet) (s : State) (t : State), (opcodeOf p = 0x04) ∧ (passes never p s = some t) ∧ (getSetting (argOf p 20 4) t = none))
    ∧ (∃ (p : Packet) (s : State) (t : State), (opcodeOf p = 0x04) ∧ (passes never p s = some t) ∧ (getSetting (argOf p 20 4) t ≠ none) ∧ (1 < argOf p 24 1))
    ∧ (∃ (p : Packet) (s : State) (t : State) (b : _), (opcodeOf p = 0x71) ∧ (passes never p s = some t) ∧ (statsObject (argOf p 20 1) (argOf p 21 1) t = .ok b) ∧ (¬ (argOf p 20 1 = 3 ∧ argOf p 21 1 = 1)) ∧ (writtenBytes t b.length ≤ bufLen p 0x20))
    ∧ (∃ (p : Packet) (s : State) (t : State) (b : _), (opcodeOf p = 0x71) ∧ (passes never p s = some t) ∧ (statsObject (argOf p 20 1) (argOf p 21 1) t = .ok b) ∧ (¬ (argOf p 20 1 = 3 ∧ argOf p 21 1 = 1)) ∧ (bufLen p 0x20 < writtenBytes t b.length))
    ∧ (∃ (p : Packet) (s : State) (t : State) (off : _), (opcodeOf p = 0x71) ∧ (passes never p s = some t) ∧ (statsObject (argOf p 20 1) (argOf p 21 1) t = .error off))
    ∧ (∃ (p : Packet) (s : State) (t : State), (opcodeOf p = 0x71) ∧ (passes never p s = some t) ∧ (argOf p 20 1 = 3) ∧ (argOf p 21 1 = 1) ∧ (t.sec.bound = false)) :=
  ⟨⟨(plain 1 [] []), (served (plain 1 [] []) up), (after never (plain 1 [] []) (served (plain 1 [] []) up)), by decide +kernel⟩,
   ⟨(plain 2 (leBytes 4 64 ++ leBytes 4 1) (buf 0x8000 16)), (served (plain 2 (leBytes 4 64 ++ leBytes 4 1) (buf 0x8000 16)) up), (after never (plain 2 (leBytes 4 64 ++ leBytes 4 1) (buf 0x8000 16)) (served (plain 2 (leBytes 4 64 ++ leBytes 4 1) (buf 0x8000 16)) up)), by decide +kernel⟩,
   ⟨(plain 4 (leBytes 4 0x01000001 ++ [1]) []), (served (plain 4 (leBytes 4 0x01000001 ++ [1]) []) up), (after never (plain 4 (leBytes 4 0x01000001 ++ [1]) []) (served (plain 4 (leBytes 4 0x01000001 ++ [1]) []) up)), 1, by decide +kernel⟩,
   ⟨(plain 4 (leBytes 4 0x0100FFFF ++ [1]) []), (served (plain 4 (leBytes 4 0x0100FFFF ++ [1]) []) up), (after never (plain 4 (leBytes 4 0x0100FFFF ++ [1]) []) (served (plain 4 (leBytes 4 0x0100FFFF ++ [1]) []) up)), by decide +kernel⟩,
   ⟨(plain 4 (leBytes 4 0x01000001 ++ [2]) []), (served (plain 4 (leBytes 4 0x01000001 ++ [2]) []) up), (after never (plain 4 (leBytes 4 0x01000001 ++ [2]) []) (served (plain 4 (leBytes 4 0x01000001 ++ [2]) []) up)), by decide +kernel⟩,
   ⟨(plain 113 [2, 0] (buf 0x8000 128)), (served (plain 113 [2, 0] (buf 0x8000 128)) up), (after never (plain 113 [2, 0] (buf 0x8000 128)) (served (plain 113 [2, 0] (buf 0x8000 128)) up)), (deviceCounterBytes up.counters), by decide +kernel⟩,
   ⟨(plain 113 [2, 0] (buf 0x8000 127)), (served (plain 113 [2, 0] (buf 0x8000 127)) up), (after never (plain 113 [2, 0] (buf 0x8000 127)) (served (plain 113 [2, 0] (buf 0x8000 127)) up)), (deviceCounterBytes up.counters), by decide +kernel⟩,
   ⟨(plain 113 [4, 0] (buf 0x8000 128)), (served (plain 113 [4, 0] (buf 0x8000 128)) up), (after never (plain 113 [4, 0] (buf 0x8000 128)) (served (plain 113 [4, 0] (buf 0x8000 128)) up)), 0x14, by decide +kernel⟩,
   ⟨(plain 113 [3, 1] (buf 0x8000 0)), (served (plain 113 [3, 1] (buf 0x8000 0)) up), (after never (plain 113 [3, 1] (buf 0x8000 0)) (served (plain 113 [3, 1] (buf 0x8000 0)) up)), by decide +kernel⟩⟩

theorem met_SnapshotsMirrorAndTime :
    (∃ (p : Packet) (s : State) (t : State), (opcodeOf p = 0x70) ∧ (passes never p s = some t) ∧ (writtenBytes t 64 ≤ bufLen p 0x30) ∧ (t.evr.snapshot = none))
    ∧ (∃ (p : Packet) (s : State) (t : State), (opcodeOf p = 0x70) ∧ (passes never p s = some t) ∧ (writtenBytes t 64 ≤ bufLen p 0x30) ∧ (t.evr.snapshot ≠ none))
    ∧ (∃ (p : Packet) (s : State) (t : State), (opcodeOf p = 0x70) ∧ (passes never p s = some t) ∧ (bufLen p 0x30 < writtenBytes t 64))
    ∧ (∃ (s : State) (n : Snapshot) (o : Origin) (k : Nat), ((s.evr.snapshot = some n) ∧ (s.commands = [⟨.snapshot, o⟩]) ∧ (k ≤ n.records.length) ∧ (((n.records.take k).map (fun r => leBytes 8 r.stamp ++ recordImage r)).flatten.length ≤ roomBytes s n.len - 64)) ∧ ((∀ r, n.records[k]? = some r → roomBytes s n.len - 64 < ((n.records.take k).map (fun r => leBytes 8 r.stamp ++ recordImage r)).flatten.length + (leBytes 8 r.stamp ++ recordImage r).length)))
    ∧ (∃ (s : State), (s.evr.snapshot = none)) :=
  ⟨⟨(plain 112 [] (leBytes 8 0 ++ leBytes 8 0 ++ buf 0x8000 64)), (served (plain 112 [] (leBytes 8 0 ++ leBytes 8 0 ++ buf 0x8000 64)) up), (after never (plain 112 [] (leBytes 8 0 ++ leBytes 8 0 ++ buf 0x8000 64)) (served (plain 112 [] (leBytes 8 0 ++ leBytes 8 0 ++ buf 0x8000 64)) up)), by decide +kernel⟩,
   ⟨(plain 112 [] (leBytes 8 0 ++ leBytes 8 0 ++ buf 0x8000 64)), (served (plain 112 [] (leBytes 8 0 ++ leBytes 8 0 ++ buf 0x8000 64)) ({ up with evr := { up.evr with snapshot := some ⟨0, 0x8000, 64, 0, 0, 0, 0, 0, 0, [], 0, 0⟩ } } : State)), (after never (plain 112 [] (leBytes 8 0 ++ leBytes 8 0 ++ buf 0x8000 64)) (served (plain 112 [] (leBytes 8 0 ++ leBytes 8 0 ++ buf 0x8000 64)) ({ up with evr := { up.evr with snapshot := some ⟨0, 0x8000, 64, 0, 0, 0, 0, 0, 0, [], 0, 0⟩ } } : State))), by decide +kernel⟩,
   ⟨(plain 112 [] (leBytes 8 0 ++ leBytes 8 0 ++ buf 0x8000 63)), (served (plain 112 [] (leBytes 8 0 ++ leBytes 8 0 ++ buf 0x8000 63)) up), (after never (plain 112 [] (leBytes 8 0 ++ leBytes 8 0 ++ buf 0x8000 63)) (served (plain 112 [] (leBytes 8 0 ++ leBytes 8 0 ++ buf 0x8000 63)) up)), by decide +kernel⟩,
   ⟨({ (waiting .snapshot up) with evr := { (waiting .snapshot up).evr with snapshot := some ⟨0, 0x8000, 64, 0, 0, 0, 0, 0, 0, [], 0, 0⟩ } } : State), (⟨0, 0x8000, 64, 0, 0, 0, 0, 0, 0, [], 0, 0⟩ : Snapshot), origin0, 0, by decide +kernel, by simp⟩,
   ⟨up, by decide +kernel⟩⟩

theorem met_ReadingCommandsFrame :
    (∃ (p : Packet) (s : State) (t : State), ((exec (.ping p) s = .next t ∨ exec (.queryDevice p) s = .next t ∨ exec (.getParam p) s = .next t ∨ exec (.eventSnapshot p) s = .next t ∨ exec (.sessionQuery p) s = .next t ∨ exec (.calRead p) s = .next t))) :=
  ⟨(plain 1 [] []), up, (resultOf (exec (.ping (plain 1 [] [])) up)), Or.inl rfl⟩

theorem met_SettingsLandInOrder :
    (∃ (p : Packet) (s : State) (t : State) (u : State), (opcodeOf p = 0x03) ∧ (passes never p s = some t) ∧ (argOf p 20 2 = 1) ∧ (64 ≤ 16 * lengthOf p) ∧ (setEntry (paramOf p 0x20 4) (paramOf p 0x28 16) t = .done u))
    ∧ (∃ (p : Packet) (s : State) (t : State) (d : Nat), (opcodeOf p = 0x03) ∧ (passes never p s = some t) ∧ (1 ≤ argOf p 20 2) ∧ (argOf p 20 2 ≤ 255) ∧ (40 + 24 * argOf p 20 2 ≤ 16 * lengthOf p) ∧ (setEntry (paramOf p 0x20 4) (paramOf p 0x28 16) t = .refused (bad d)))
    ∧ (∃ (p : Packet) (s : State) (t : State) (u : State) (d : Nat), (opcodeOf p = 0x03) ∧ (passes never p s = some t) ∧ (2 ≤ argOf p 20 2) ∧ (argOf p 20 2 ≤ 255) ∧ (40 + 24 * argOf p 20 2 ≤ 16 * lengthOf p) ∧ (setEntry (paramOf p 0x20 4) (paramOf p 0x28 16) t = .done u) ∧ (setEntry (paramOf p 0x38 4) (paramOf p 0x40 16) u = .refused (bad d)))
    ∧ (∃ (v : Nat), (v < 2 ^ 64)) :=
  ⟨⟨(plain 3 (leBytes 2 1) (leBytes 4 0x06000001 ++ leBytes 4 0 ++ leBytes 16 100)), (served (plain 3 (leBytes 2 1) (leBytes 4 0x06000001 ++ leBytes 4 0 ++ leBytes 16 100)) up), (after never (plain 3 (leBytes 2 1) (leBytes 4 0x06000001 ++ leBytes 4 0 ++ leBytes 16 100)) (served (plain 3 (leBytes 2 1) (leBytes 4 0x06000001 ++ leBytes 4 0 ++ leBytes 16 100)) up)), (doneOf (setEntry (paramOf (plain 3 (leBytes 2 1) (leBytes 4 0x06000001 ++ leBytes 4 0 ++ leBytes 16 100)) 0x20 4) (paramOf (plain 3 (leBytes 2 1) (leBytes 4 0x06000001 ++ leBytes 4 0 ++ leBytes 16 100)) 0x28 16) (after never (plain 3 (leBytes 2 1) (leBytes 4 0x06000001 ++ leBytes 4 0 ++ leBytes 16 100)) (served (plain 3 (leBytes 2 1) (leBytes 4 0x06000001 ++ leBytes 4 0 ++ leBytes 16 100)) up)))), by decide +kernel⟩,
   ⟨(plain 3 (leBytes 2 1) (leBytes 4 0x06000001 ++ leBytes 4 0 ++ leBytes 16 101)), (served (plain 3 (leBytes 2 1) (leBytes 4 0x06000001 ++ leBytes 4 0 ++ leBytes 16 101)) up), (after never (plain 3 (leBytes 2 1) (leBytes 4 0x06000001 ++ leBytes 4 0 ++ leBytes 16 101)) (served (plain 3 (leBytes 2 1) (leBytes 4 0x06000001 ++ leBytes 4 0 ++ leBytes 16 101)) up)), 0, by decide +kernel⟩,
   ⟨(plain 3 (leBytes 2 2) (leBytes 4 0x06000001 ++ leBytes 4 0 ++ leBytes 16 100 ++ leBytes 4 0x06000001 ++ leBytes 4 0 ++ leBytes 16 101)), (served (plain 3 (leBytes 2 2) (leBytes 4 0x06000001 ++ leBytes 4 0 ++ leBytes 16 100 ++ leBytes 4 0x06000001 ++ leBytes 4 0 ++ leBytes 16 101)) up), (after never (plain 3 (leBytes 2 2) (leBytes 4 0x06000001 ++ leBytes 4 0 ++ leBytes 16 100 ++ leBytes 4 0x06000001 ++ leBytes 4 0 ++ leBytes 16 101)) (served (plain 3 (leBytes 2 2) (leBytes 4 0x06000001 ++ leBytes 4 0 ++ leBytes 16 100 ++ leBytes 4 0x06000001 ++ leBytes 4 0 ++ leBytes 16 101)) up)), (doneOf (setEntry (paramOf (plain 3 (leBytes 2 2) (leBytes 4 0x06000001 ++ leBytes 4 0 ++ leBytes 16 100 ++ leBytes 4 0x06000001 ++ leBytes 4 0 ++ leBytes 16 101)) 0x20 4) (paramOf (plain 3 (leBytes 2 2) (leBytes 4 0x06000001 ++ leBytes 4 0 ++ leBytes 16 100 ++ leBytes 4 0x06000001 ++ leBytes 4 0 ++ leBytes 16 101)) 0x28 16) (after never (plain 3 (leBytes 2 2) (leBytes 4 0x06000001 ++ leBytes 4 0 ++ leBytes 16 100 ++ leBytes 4 0x06000001 ++ leBytes 4 0 ++ leBytes 16 101)) (served (plain 3 (leBytes 2 2) (leBytes 4 0x06000001 ++ leBytes 4 0 ++ leBytes 16 100 ++ leBytes 4 0x06000001 ++ leBytes 4 0 ++ leBytes 16 101)) up)))), 0, by decide +kernel⟩,
   ⟨(2 ^ 64 - 1), by decide +kernel⟩⟩

theorem met_PreemptionStopsClient :
    (∃ (n : Nat) (s : State), (n ≠ 0) ∧ ((clientOf s n).run = true) ∧ ((clientOf s n).inflight = 0) ∧ ((clientOf s n).recognised = []) ∧ ((∀ c ∈ s.commands, c.origin.client ≠ n)))
    ∧ (∃ (n : Nat) (s : State), (n ≠ 0) ∧ ((clientOf s n).run = true) ∧ ((clientOf s n).inflight ≠ 0) ∧ ((clientOf s n).recognised = []) ∧ ((∀ c ∈ s.commands, c.origin.client ≠ n)))
    ∧ (∃ (n : Nat) (slot : Nat) (o : Origin) (s : State), (n ≠ 0) ∧ ((clientOf s n).run = true) ∧ ((clientOf s n).recognised = []) ∧ (s.commands = [⟨.park slot, o⟩]) ∧ (o.client = n) ∧ (o.sender = none))
    ∧ (∃ (n : Nat) (s : State), ((clientOf s n).preempting = true) ∧ ((clientOf s n).inflight = 0) ∧ ((∀ r ∈ s.host.rests, r.target ≠ n)))
    ∧ (∃ (n : Nat) (s : State), (((clientOf s n).preempting = false ∨ (clientOf s n).inflight ≠ 0)))
    ∧ (∃ (n : Nat) (s : State), ((clientOf s n).run = true))
    ∧ (∃ (n : Nat) (s : State), ((clientOf s n).run = false))
    ∧ (∃ (n : Nat) (scan : Nat) (replyAt : Nat) (s : State), ((clientOf s n).run = false) ∧ (scan % 16 = 0) ∧ (scan < 65536) ∧ (replyAt % 16 = 0) ∧ (replyAt < ringBytes (clientOf s n)))
    ∧ (∃ (n : Nat) (scan : Nat) (replyAt : Nat) (s : State), (((clientOf s n).run = true ∨ scan % 16 ≠ 0 ∨ 65536 ≤ scan ∨ replyAt % 16 ≠ 0 ∨ ringBytes (clientOf s n) ≤ replyAt))) :=
  ⟨⟨255, (modClient 255 (fun c => { c with run := true }) up), by decide +kernel⟩,
   ⟨255, (modClient 255 (fun c => { c with run := true, inflight := 1 }) up), by decide +kernel⟩,
   ⟨255, 0, (⟨255, 7, 1, 0, 0, none, 90, 0⟩ : Origin), ({ (modClient 255 (fun c => { c with run := true, inflight := 1 }) up) with commands := [⟨.park 0, ⟨255, 7, 1, 0, 0, none, 90, 0⟩⟩] } : State), by decide +kernel⟩,
   ⟨255, (modClient 255 (fun c => { c with preempting := true }) up), by decide +kernel⟩,
   ⟨255, up, by decide +kernel⟩,
   ⟨255, (modClient 255 (fun c => { c with run := true }) up), by decide +kernel⟩,
   ⟨255, up, by decide +kernel⟩,
   ⟨255, 65520, 4080, up, by decide +kernel⟩,
   ⟨255, 65536, 0, up, by decide +kernel⟩⟩

theorem met_CadenceStates :
    (∃ (s : State), (inRing s = true))
    ∧ (∃ (code : Nat), (4 < code))
    ∧ (∃ (mode : Nat) (s : State), ((2 < mode ∨ mode = s.cad.mode)))
    ∧ (∃ (code : Nat) (s : State), (inRing s = false) ∧ (code ≤ 4) ∧ (code ≠ s.cad.period) ∧ (s.cad.st ≠ .master))
    ∧ (∃ (code : Nat) (s : State), (inRing s = false) ∧ (code ≤ 4) ∧ (s.cad.st = .master))
    ∧ (∃ (mode : Nat) (s : State), (inRing s = false) ∧ ((mode = 1 ∨ mode = 2)) ∧ (mode ≠ s.cad.mode) ∧ (s.cad.st ≠ .master))
    ∧ (∃ (mode : Nat) (s : State), (inRing s = false) ∧ ((mode = 1 ∨ mode = 2)) ∧ (s.cad.mode ≠ mode) ∧ (s.cad.st = .master))
    ∧ (∃ (s : State), (inRing s = false) ∧ (s.cad.mode ≠ 0) ∧ (s.cad.st = .master))
    ∧ (∃ (s : State), (s.cad.st = .master))
    ∧ (∃ (s : State), (s.cad.st = .unlocked) ∧ (7 ≤ s.cad.goodMarks))
    ∧ (∃ (ok : Bool) (s : State), (s.cad.st = .unlocked) ∧ ((ok = false ∨ s.cad.goodMarks + 1 < 8)))
    ∧ (∃ (e : Int) (n : Nat) (at_ : Nat) (s : State), (s.cad.st = .acquiring) ∧ ((e + refOffset s).natAbs ≤ 0x004) ∧ (63 ≤ s.cad.goodMarks) ∧ (s.cad.loadAt = some (n, at_)) ∧ (at_ ≤ s.cad.beat) ∧ (s.cad.markBeat ≠ some s.cad.beat) ∧ (s.cad.phase < 0x800))
    ∧ (∃ (e : Int) (s : State), (s.cad.st = .locked) ∧ ((e + refOffset s - s.cad.slew).natAbs ≤ 0x010))
    ∧ (∃ (s : State), (s.cad.st = .locked) ∧ (s.cad.badMarks = 0))
    ∧ (∃ (s : State), (s.cad.st = .locked) ∧ (s.cad.badMarks = 1))
    ∧ (∃ (e : Int) (s : State), (s.cad.st = .holdover) ∧ ((e + refOffset s).natAbs ≤ 0x080))
    ∧ (∃ (e : Int) (s : State), (s.cad.st = .holdover) ∧ (0x080 < (e + refOffset s).natAbs))
    ∧ (∃ (s : State), (s.cad.st = .locked))
    ∧ (∃ (s : State), (s.cad.st ≠ .locked))
    ∧ (∃ (s : State), (s.cad.st = .acquiring) ∧ (4096 ≤ s.cad.beat))
    ∧ (∃ (s : State), ((s.cad.st ≠ .acquiring ∨ s.cad.beat < 4096)))
    ∧ (∃ (s : State), (s.cad.st = .holdover) ∧ (10000000 / 2 ^ s.cad.period ≤ s.cad.holdBeats) ∧ (inRing s = false))
    ∧ (∃ (s : State) (img : _), (s.cad.st = .holdover) ∧ (10000000 / 2 ^ s.cad.period ≤ s.cad.holdBeats) ∧ (s.sched.active = some img) ∧ (img.rings ≠ []))
    ∧ (∃ (s : State), ((s.cad.st ≠ .holdover ∨ (s.cad.holdBeats < 10000000 / 2 ^ s.cad.period ∧ s.cad.peerDisc = false)))) :=
  ⟨⟨resident, by decide +kernel⟩,
   ⟨5, by decide +kernel⟩,
   ⟨3, up, by decide +kernel⟩,
   ⟨4, up, by decide +kernel⟩,
   ⟨4, ({ up with cad := { up.cad with st := .master, mode := 2 } } : State), by decide +kernel⟩,
   ⟨2, up, by decide +kernel⟩,
   ⟨1, ({ up with cad := { up.cad with st := .master, mode := 2 } } : State), by decide +kernel⟩,
   ⟨({ up with cad := { up.cad with st := .master, mode := 2 } } : State), by decide +kernel⟩,
   ⟨({ up with cad := { up.cad with st := .master, mode := 2 } } : State), by decide +kernel⟩,
   ⟨({ up with cad := { up.cad with st := .unlocked, goodMarks := 7 } } : State), by decide +kernel⟩,
   ⟨true, ({ up with cad := { up.cad with st := .unlocked, goodMarks := 6 } } : State), by decide +kernel⟩,
   ⟨(-4), 5, 100, ({ up with cad := { up.cad with st := .acquiring, goodMarks := 63, loadAt := some (5, 100), phase := 0x7FF } } : State), by decide +kernel⟩,
   ⟨16, up, by decide +kernel⟩,
   ⟨up, by decide +kernel⟩,
   ⟨({ up with cad := { up.cad with badMarks := 1 } } : State), by decide +kernel⟩,
   ⟨(-128), ({ up with cad := { up.cad with st := .holdover } } : State), by decide +kernel⟩,
   ⟨129, ({ up with cad := { up.cad with st := .holdover } } : State), by decide +kernel⟩,
   ⟨up, by decide +kernel⟩,
   ⟨({ up with cad := { up.cad with st := .acquiring } } : State), by decide +kernel⟩,
   ⟨({ up with cad := { up.cad with st := .acquiring, beat := 4096 } } : State), by decide +kernel⟩,
   ⟨({ up with cad := { up.cad with st := .acquiring, beat := 4095 } } : State), by decide +kernel⟩,
   ⟨({ up with cad := { up.cad with st := .holdover, holdBeats := 5000000 } } : State), by decide +kernel⟩,
   ⟨({ resident with cad := { resident.cad with st := .holdover, holdBeats := 5000000 } } : State), image, by decide +kernel⟩,
   ⟨({ up with cad := { up.cad with st := .holdover, holdBeats := 4999999 } } : State), by decide +kernel⟩⟩

theorem met_PiecesAndModels :
    (∃ (key : Nat) (base : Nat) (p : Packet) (s : State), ((paramOf p base 8 = 0 ∨ FMap.get? s.cont.staging key = some ⟨paramOf p base 8, paramOf p (base + 8) 8⟩)) ∧ ((paramOf p base 8 + pieceBytes p base s) < paramOf p (base + 8) 8))
    ∧ (∃ (key : Nat) (base : Nat) (p : Packet) (s : State), ((paramOf p base 8 = 0 ∨ FMap.get? s.cont.staging key = some ⟨paramOf p base 8, paramOf p (base + 8) 8⟩)) ∧ ((paramOf p base 8 + pieceBytes p base s) = paramOf p (base + 8) 8))
    ∧ (∃ (key : Nat) (base : Nat) (p : Packet) (s : State), ((paramOf p base 8 = 0 ∨ FMap.get? s.cont.staging key = some ⟨paramOf p base 8, paramOf p (base + 8) 8⟩)) ∧ (paramOf p (base + 8) 8 < (paramOf p base 8 + pieceBytes p base s)))
    ∧ (∃ (key : Nat) (base : Nat) (p : Packet) (s : State), (paramOf p base 8 ≠ 0) ∧ ((FMap.get? s.cont.staging key = none ∨ ∃ c, FMap.get? s.cont.staging key = some c ∧ c.staged ≠ paramOf p base 8)))
    ∧ (∃ (key : Nat) (base : Nat) (p : Packet) (s : State) (c : _), (FMap.get? s.cont.staging key = some c) ∧ (paramOf p base 8 ≠ 0) ∧ (c.staged = paramOf p base 8) ∧ (c.total ≠ paramOf p (base + 8) 8))
    ∧ (∃ (p : Packet) (piece : ModelPiece) (s : State) (t : State) (a : _) (u : _), (opcodeOf p = 0x10) ∧ (passes never p s = some t) ∧ (argOf p 20 1 ≤ 15) ∧ (modelNamed t (argOf p 20 1) = false) ∧ (takePiece (modelKey (argOf p 20 1)) 0x20 p t = .kept a u) ∧ (piece.badChunk = none))
    ∧ (∃ (p : Packet) (piece : ModelPiece) (s : State) (t : State) (u : _) (i : _), (opcodeOf p = 0x10) ∧ (passes never p s = some t) ∧ (argOf p 20 1 ≤ 15) ∧ (modelNamed t (argOf p 20 1) = false) ∧ (takePiece (modelKey (argOf p 20 1)) 0x20 p t = .last u) ∧ (piece.badChunk = some i))
    ∧ (∃ (p : Packet) (piece : ModelPiece) (s : State) (t : State) (u : _), (opcodeOf p = 0x10) ∧ (passes never p s = some t) ∧ (argOf p 20 1 ≤ 15) ∧ (modelNamed t (argOf p 20 1) = false) ∧ (takePiece (modelKey (argOf p 20 1)) 0x20 p t = .last u) ∧ (piece.badChunk = none) ∧ (piece.magic ≠ 0x4C444F4D ∨ piece.version ≠ 1 ∨ piece.headerZero = false))
    ∧ (∃ (p : Packet) (piece : ModelPiece) (s : State) (t : State) (u : _), (opcodeOf p = 0x10) ∧ (passes never p s = some t) ∧ (argOf p 20 1 ≤ 15) ∧ (modelNamed t (argOf p 20 1) = false) ∧ (takePiece (modelKey (argOf p 20 1)) 0x20 p t = .last u) ∧ (piece.badChunk = none) ∧ (piece.magic = 0x4C444F4D) ∧ (piece.version = 1) ∧ (piece.headerZero = true) ∧ (FMap.get? u.sec.weightKeys (argOf p 20 1) = some piece.keyId) ∧ (piece.facts.digest ≠ piece.facts.trailer))
    ∧ (∃ (p : Packet) (piece : ModelPiece) (s : State) (t : State) (u : _), (opcodeOf p = 0x10) ∧ (passes never p s = some t) ∧ (argOf p 20 1 ≤ 15) ∧ (modelNamed t (argOf p 20 1) = false) ∧ (takePiece (modelKey (argOf p 20 1)) 0x20 p t = .last u) ∧ (piece.badChunk = none) ∧ (piece.magic = 0x4C444F4D) ∧ (piece.version = 1) ∧ (piece.headerZero = true) ∧ (FMap.get? u.sec.weightKeys (argOf p 20 1) = some piece.keyId) ∧ (piece.facts.digest = piece.facts.trailer) ∧ (weightRoom { u with cont := { u.cont with models := FMap.del u.cont.models (argOf p 20 1) } } < 2 * piece.dieBytes.foldl (· + ·) 0))
    ∧ (∃ (p : Packet) (piece : ModelPiece) (s : State) (t : State) (u : _), (opcodeOf p = 0x10) ∧ (passes never p s = some t) ∧ (argOf p 20 1 ≤ 15) ∧ (modelNamed t (argOf p 20 1) = false) ∧ (takePiece (modelKey (argOf p 20 1)) 0x20 p t = .last u) ∧ (piece.badChunk = none) ∧ (piece.magic = 0x4C444F4D) ∧ (piece.version = 1) ∧ (piece.headerZero = true) ∧ (FMap.get? u.sec.weightKeys (argOf p 20 1) = some piece.keyId) ∧ (piece.facts.digest = piece.facts.trailer) ∧ (2 * piece.dieBytes.foldl (· + ·) 0 ≤ weightRoom { u with cont := { u.cont with models := FMap.del u.cont.models (argOf p 20 1) } }))
    ∧ (∃ (p : Packet) (s : State) (t : State), (opcodeOf p = 0x11) ∧ (passes never p s = some t) ∧ (argOf p 20 1 ≤ 15) ∧ (modelNamed t (argOf p 20 1) = false))
    ∧ (∃ (p : Packet) (s : State) (t : State), (passes never p s = some t) ∧ (argOf p 20 1 ≤ 15) ∧ (modelNamed t (argOf p 20 1) = true) ∧ (opcodeOf p = 0x10))
    ∧ (∃ (p : Packet) (s : State) (t : State), (passes never p s = some t) ∧ (argOf p 20 1 ≤ 15) ∧ (modelNamed t (argOf p 20 1) = true) ∧ (opcodeOf p = 0x11)) :=
  ⟨⟨0x1000, 0x20, (plain 16 [] (leBytes 8 0 ++ leBytes 8 64 ++ buf 0x9000 63)), up, by decide +kernel⟩,
   ⟨0x1000, 0x20, (plain 16 [] (leBytes 8 64 ++ leBytes 8 128 ++ buf 0x9000 64)), ({ up with cont := { up.cont with staging := [(0x1000, ⟨64, 128⟩)] } } : State), by decide +kernel⟩,
   ⟨0x1000, 0x20, (plain 16 [] (leBytes 8 0 ++ leBytes 8 64 ++ buf 0x9000 65)), up, by decide +kernel⟩,
   ⟨0x1000, 0x20, (plain 16 [] (leBytes 8 1 ++ leBytes 8 64 ++ buf 0x9000 1)), up, by decide +kernel, Or.inl (by decide +kernel)⟩,
   ⟨0x1000, 0x20, (plain 16 [] (leBytes 8 64 ++ leBytes 8 129 ++ buf 0x9000 1)), ({ up with cont := { up.cont with staging := [(0x1000, ⟨64, 128⟩)] } } : State), (⟨64, 128⟩ : Staging), by decide +kernel⟩,
   ⟨({ plain 0x10 [15] (leBytes 8 0 ++ leBytes 8 128 ++ buf 0x9000 64) with envs := [envelope 1 1] } : Packet), ({ keyId := 1, magic := 0x4C444F4D, version := 1, headerZero := true, dieBytes := [100], badChunk := none, facts := ⟨64, 3, 3⟩, outputRow := 256 } : ModelPiece), (served ({ plain 0x10 [15] (leBytes 8 0 ++ leBytes 8 128 ++ buf 0x9000 64) with envs := [envelope 1 1] } : Packet) bound), (after never ({ plain 0x10 [15] (leBytes 8 0 ++ leBytes 8 128 ++ buf 0x9000 64) with envs := [envelope 1 1] } : Packet) (served ({ plain 0x10 [15] (leBytes 8 0 ++ leBytes 8 128 ++ buf 0x9000 64) with envs := [envelope 1 1] } : Packet) bound)), (keptOf (takePiece (modelKey 15) 0x20 ({ plain 0x10 [15] (leBytes 8 0 ++ leBytes 8 128 ++ buf 0x9000 64) with envs := [envelope 1 1] } : Packet) (after never ({ plain 0x10 [15] (leBytes 8 0 ++ leBytes 8 128 ++ buf 0x9000 64) with envs := [envelope 1 1] } : Packet) (served ({ plain 0x10 [15] (leBytes 8 0 ++ leBytes 8 128 ++ buf 0x9000 64) with envs := [envelope 1 1] } : Packet) bound)))).1, (keptOf (takePiece (modelKey 15) 0x20 ({ plain 0x10 [15] (leBytes 8 0 ++ leBytes 8 128 ++ buf 0x9000 64) with envs := [envelope 1 1] } : Packet) (after never ({ plain 0x10 [15] (leBytes 8 0 ++ leBytes 8 128 ++ buf 0x9000 64) with envs := [envelope 1 1] } : Packet) (served ({ plain 0x10 [15] (leBytes 8 0 ++ leBytes 8 128 ++ buf 0x9000 64) with envs := [envelope 1 1] } : Packet) bound)))).2, by decide +kernel⟩,
   ⟨({ plain 0x10 [15] (leBytes 8 0 ++ leBytes 8 64 ++ buf 0x9000 64) with envs := [envelope 1 1] } : Packet), ({ ({ keyId := 1, magic := 0x4C444F4D, version := 1, headerZero := true, dieBytes := [100], badChunk := none, facts := ⟨64, 3, 3⟩, outputRow := 256 } : ModelPiece) with badChunk := some 7 } : ModelPiece), (served ({ plain 0x10 [15] (leBytes 8 0 ++ leBytes 8 64 ++ buf 0x9000 64) with envs := [envelope 1 1] } : Packet) bound), (after never ({ plain 0x10 [15] (leBytes 8 0 ++ leBytes 8 64 ++ buf 0x9000 64) with envs := [envelope 1 1] } : Packet) (served ({ plain 0x10 [15] (leBytes 8 0 ++ leBytes 8 64 ++ buf 0x9000 64) with envs := [envelope 1 1] } : Packet) bound)), (lastOf (takePiece (modelKey 15) 0x20 ({ plain 0x10 [15] (leBytes 8 0 ++ leBytes 8 64 ++ buf 0x9000 64) with envs := [envelope 1 1] } : Packet) (after never ({ plain 0x10 [15] (leBytes 8 0 ++ leBytes 8 64 ++ buf 0x9000 64) with envs := [envelope 1 1] } : Packet) (served ({ plain 0x10 [15] (leBytes 8 0 ++ leBytes 8 64 ++ buf 0x9000 64) with envs := [envelope 1 1] } : Packet) bound)))), 7, by decide +kernel⟩,
   ⟨({ plain 0x10 [15] (leBytes 8 0 ++ leBytes 8 64 ++ buf 0x9000 64) with envs := [envelope 1 1] } : Packet), ({ ({ keyId := 1, magic := 0x4C444F4D, version := 1, headerZero := true, dieBytes := [100], badChunk := none, facts := ⟨64, 3, 3⟩, outputRow := 256 } : ModelPiece) with version := 2 } : ModelPiece), (served ({ plain 0x10 [15] (leBytes 8 0 ++ leBytes 8 64 ++ buf 0x9000 64) with envs := [envelope 1 1] } : Packet) bound), (after never ({ plain 0x10 [15] (leBytes 8 0 ++ leBytes 8 64 ++ buf 0x9000 64) with envs := [envelope 1 1] } : Packet) (served ({ plain 0x10 [15] (leBytes 8 0 ++ leBytes 8 64 ++ buf 0x9000 64) with envs := [envelope 1 1] } : Packet) bound)), (lastOf (takePiece (modelKey 15) 0x20 ({ plain 0x10 [15] (leBytes 8 0 ++ leBytes 8 64 ++ buf 0x9000 64) with envs := [envelope 1 1] } : Packet) (after never ({ plain 0x10 [15] (leBytes 8 0 ++ leBytes 8 64 ++ buf 0x9000 64) with envs := [envelope 1 1] } : Packet) (served ({ plain 0x10 [15] (leBytes 8 0 ++ leBytes 8 64 ++ buf 0x9000 64) with envs := [envelope 1 1] } : Packet) bound)))), by decide +kernel⟩,
   ⟨({ plain 0x10 [15] (leBytes 8 0 ++ leBytes 8 64 ++ buf 0x9000 64) with envs := [envelope 1 1] } : Packet), ({ ({ keyId := 1, magic := 0x4C444F4D, version := 1, headerZero := true, dieBytes := [100], badChunk := none, facts := ⟨64, 3, 3⟩, outputRow := 256 } : ModelPiece) with facts := ⟨64, 3, 4⟩ } : ModelPiece), (served ({ plain 0x10 [15] (leBytes 8 0 ++ leBytes 8 64 ++ buf 0x9000 64) with envs := [envelope 1 1] } : Packet) bound), (after never ({ plain 0x10 [15] (leBytes 8 0 ++ leBytes 8 64 ++ buf 0x9000 64) with envs := [envelope 1 1] } : Packet) (served ({ plain 0x10 [15] (leBytes 8 0 ++ leBytes 8 64 ++ buf 0x9000 64) with envs := [envelope 1 1] } : Packet) bound)), (lastOf (takePiece (modelKey 15) 0x20 ({ plain 0x10 [15] (leBytes 8 0 ++ leBytes 8 64 ++ buf 0x9000 64) with envs := [envelope 1 1] } : Packet) (after never ({ plain 0x10 [15] (leBytes 8 0 ++ leBytes 8 64 ++ buf 0x9000 64) with envs := [envelope 1 1] } : Packet) (served ({ plain 0x10 [15] (leBytes 8 0 ++ leBytes 8 64 ++ buf 0x9000 64) with envs := [envelope 1 1] } : Packet) bound)))), by decide +kernel⟩,
   ⟨({ plain 0x10 [15] (leBytes 8 0 ++ leBytes 8 64 ++ buf 0x9000 64) with envs := [envelope 1 1] } : Packet), ({ ({ keyId := 1, magic := 0x4C444F4D, version := 1, headerZero := true, dieBytes := [100], badChunk := none, facts := ⟨64, 3, 3⟩, outputRow := 256 } : ModelPiece) with dieBytes := [2 ^ 40, 1] } : ModelPiece), (served ({ plain 0x10 [15] (leBytes 8 0 ++ leBytes 8 64 ++ buf 0x9000 64) with envs := [envelope 1 1] } : Packet) bound), (after never ({ plain 0x10 [15] (leBytes 8 0 ++ leBytes 8 64 ++ buf 0x9000 64) with envs := [envelope 1 1] } : Packet) (served ({ plain 0x10 [15] (leBytes 8 0 ++ leBytes 8 64 ++ buf 0x9000 64) with envs := [envelope 1 1] } : Packet) bound)), (lastOf (takePiece (modelKey 15) 0x20 ({ plain 0x10 [15] (leBytes 8 0 ++ leBytes 8 64 ++ buf 0x9000 64) with envs := [envelope 1 1] } : Packet) (after never ({ plain 0x10 [15] (leBytes 8 0 ++ leBytes 8 64 ++ buf 0x9000 64) with envs := [envelope 1 1] } : Packet) (served ({ plain 0x10 [15] (leBytes 8 0 ++ leBytes 8 64 ++ buf 0x9000 64) with envs := [envelope 1 1] } : Packet) bound)))), by decide +kernel⟩,
   ⟨({ plain 0x10 [15] (leBytes 8 0 ++ leBytes 8 64 ++ buf 0x9000 64) with envs := [envelope 1 1] } : Packet), ({ keyId := 1, magic := 0x4C444F4D, version := 1, headerZero := true, dieBytes := [100], badChunk := none, facts := ⟨64, 3, 3⟩, outputRow := 256 } : ModelPiece), (served ({ plain 0x10 [15] (leBytes 8 0 ++ leBytes 8 64 ++ buf 0x9000 64) with envs := [envelope 1 1] } : Packet) bound), (after never ({ plain 0x10 [15] (leBytes 8 0 ++ leBytes 8 64 ++ buf 0x9000 64) with envs := [envelope 1 1] } : Packet) (served ({ plain 0x10 [15] (leBytes 8 0 ++ leBytes 8 64 ++ buf 0x9000 64) with envs := [envelope 1 1] } : Packet) bound)), (lastOf (takePiece (modelKey 15) 0x20 ({ plain 0x10 [15] (leBytes 8 0 ++ leBytes 8 64 ++ buf 0x9000 64) with envs := [envelope 1 1] } : Packet) (after never ({ plain 0x10 [15] (leBytes 8 0 ++ leBytes 8 64 ++ buf 0x9000 64) with envs := [envelope 1 1] } : Packet) (served ({ plain 0x10 [15] (leBytes 8 0 ++ leBytes 8 64 ++ buf 0x9000 64) with envs := [envelope 1 1] } : Packet) bound)))), by decide +kernel⟩,
   ⟨(plain 17 [15] []), (served (plain 17 [15] []) bound), (after never (plain 17 [15] []) (served (plain 17 [15] []) bound)), by decide +kernel⟩,
   ⟨({ plain 0x10 [0] (leBytes 8 0 ++ leBytes 8 64 ++ buf 0x9000 64) with envs := [envelope 1 1] } : Packet), (served ({ plain 0x10 [0] (leBytes 8 0 ++ leBytes 8 64 ++ buf 0x9000 64) with envs := [envelope 1 1] } : Packet) bound), (after never ({ plain 0x10 [0] (leBytes 8 0 ++ leBytes 8 64 ++ buf 0x9000 64) with envs := [envelope 1 1] } : Packet) (served ({ plain 0x10 [0] (leBytes 8 0 ++ leBytes 8 64 ++ buf 0x9000 64) with envs := [envelope 1 1] } : Packet) bound)), by decide +kernel⟩,
   ⟨(plain 17 [0] []), (served (plain 17 [0] []) bound), (after never (plain 17 [0] []) (served (plain 17 [0] []) bound)), by decide +kernel⟩⟩

theorem met_PartitionsAndVocabularies :
    (∃ (p : Packet) (s : State) (t : State), (opcodeOf p = 0x12) ∧ (passes never p s = some t) ∧ (argOf p 20 1 ≤ 15) ∧ (argOf p 21 1 = 0) ∧ (partitionHeld t (argOf p 20 1) = false) ∧ (partitionRefusal (definedBy p) t = none) ∧ (placesBut t (argOf p 20 1) + (definedBy p).mb * (definedBy p).places ≤ 4096))
    ∧ (∃ (p : Packet) (s : State) (t : State), (opcodeOf p = 0x12) ∧ (passes never p s = some t) ∧ (argOf p 20 1 ≤ 15) ∧ (argOf p 21 1 = 0) ∧ (partitionHeld t (argOf p 20 1) = false) ∧ (partitionRefusal (definedBy p) t = none) ∧ (4096 < placesBut t (argOf p 20 1) + (definedBy p).mb * (definedBy p).places))
    ∧ (∃ (p : Packet) (s : State) (t : State) (d : _), (opcodeOf p = 0x12) ∧ (passes never p s = some t) ∧ (argOf p 20 1 ≤ 15) ∧ (argOf p 21 1 = 0) ∧ (partitionHeld t (argOf p 20 1) = false) ∧ (partitionRefusal (definedBy p) t = some d))
    ∧ (∃ (p : Packet) (s : State) (t : State), (opcodeOf p = 0x12) ∧ (passes never p s = some t) ∧ (argOf p 20 1 ≤ 15) ∧ (argOf p 21 1 = 1) ∧ (partitionHeld t (argOf p 20 1) = false))
    ∧ (∃ (p : Packet) (s : State) (t : State), (opcodeOf p = 0x12) ∧ (passes never p s = some t) ∧ (argOf p 20 1 ≤ 15) ∧ (argOf p 21 1 ≤ 1) ∧ (partitionHeld t (argOf p 20 1) = true))
    ∧ (∃ (p : Packet) (s : State) (t : State) (a : _) (u : _), (opcodeOf p = 0x14) ∧ (passes never p s = some t) ∧ (argOf p 20 1 ≤ 7) ∧ (vocabHeld t (argOf p 20 1) = false) ∧ (takePiece (0x1400 + argOf p 20 1) 0x20 p t = .kept a u))
    ∧ (∃ (p : Packet) (obj : Bytes) (s : State) (t : State) (u : _) (a : _), (opcodeOf p = 0x14) ∧ (passes never p s = some t) ∧ (argOf p 20 1 ≤ 7) ∧ (vocabHeld t (argOf p 20 1) = false) ∧ (takePiece (0x1400 + argOf p 20 1) 0x20 p t = .last u) ∧ (vocabFault (readVocab obj) = some a))
    ∧ (∃ (p : Packet) (obj : Bytes) (s : State) (t : State) (u : _), ((opcodeOf p = 0x14) ∧ (passes never p s = some t) ∧ (argOf p 20 1 ≤ 7) ∧ (vocabHeld t (argOf p 20 1) = false) ∧ (takePiece (0x1400 + argOf p 20 1) 0x20 p t = .last u)) ∧ (vocabFault (readVocab obj) = none) ∧ (unitStore < unitUsed u (some (argOf p 20 1)) + vocabBytes (readVocab obj).list))
    ∧ (∃ (p : Packet) (obj : Bytes) (s : State) (t : State) (u : _), ((opcodeOf p = 0x14) ∧ (passes never p s = some t) ∧ (argOf p 20 1 ≤ 7) ∧ (vocabHeld t (argOf p 20 1) = false) ∧ (takePiece (0x1400 + argOf p 20 1) 0x20 p t = .last u)) ∧ (vocabFault (readVocab obj) = none) ∧ (unitUsed u (some (argOf p 20 1)) + vocabBytes (readVocab obj).list ≤ unitStore))
    ∧ (∃ (p : Packet) (s : State) (t : State), (opcodeOf p = 0x14) ∧ (passes never p s = some t) ∧ (argOf p 20 1 ≤ 7) ∧ (vocabHeld t (argOf p 20 1) = true)) :=
  ⟨⟨(plain 18 [15, 0] ([0, 0, 1, 0] ++ leBytes 2 32 ++ leBytes 2 0 ++ leBytes 2 0 ++ leBytes 2 1 ++ [1, 0] ++ leBytes 2 4 ++ leBytes 2 64 ++ [0, 0xFF, 0] ++ leBytes 11 0)), (served (plain 18 [15, 0] ([0, 0, 1, 0] ++ leBytes 2 32 ++ leBytes 2 0 ++ leBytes 2 0 ++ leBytes 2 1 ++ [1, 0] ++ leBytes 2 4 ++ leBytes 2 64 ++ [0, 0xFF, 0] ++ leBytes 11 0)) bound), (after never (plain 18 [15, 0] ([0, 0, 1, 0] ++ leBytes 2 32 ++ leBytes 2 0 ++ leBytes 2 0 ++ leBytes 2 1 ++ [1, 0] ++ leBytes 2 4 ++ leBytes 2 64 ++ [0, 0xFF, 0] ++ leBytes 11 0)) (served (plain 18 [15, 0] ([0, 0, 1, 0] ++ leBytes 2 32 ++ leBytes 2 0 ++ leBytes 2 0 ++ leBytes 2 1 ++ [1, 0] ++ leBytes 2 4 ++ leBytes 2 64 ++ [0, 0xFF, 0] ++ leBytes 11 0)) bound)), by decide +kernel⟩,
   ⟨(plain 18 [15, 0] ([0, 0, 1, 0] ++ leBytes 2 32 ++ leBytes 2 0 ++ leBytes 2 0 ++ leBytes 2 1 ++ [1, 0] ++ leBytes 2 4 ++ leBytes 2 64 ++ [0, 0xFF, 0] ++ leBytes 11 0)), (served (plain 18 [15, 0] ([0, 0, 1, 0] ++ leBytes 2 32 ++ leBytes 2 0 ++ leBytes 2 0 ++ leBytes 2 1 ++ [1, 0] ++ leBytes 2 4 ++ leBytes 2 64 ++ [0, 0xFF, 0] ++ leBytes 11 0)) ({ bound with cont := { bound.cont with partitions := [(0, { part0 with mb := 16, places := 256 })] } } : State)), (after never (plain 18 [15, 0] ([0, 0, 1, 0] ++ leBytes 2 32 ++ leBytes 2 0 ++ leBytes 2 0 ++ leBytes 2 1 ++ [1, 0] ++ leBytes 2 4 ++ leBytes 2 64 ++ [0, 0xFF, 0] ++ leBytes 11 0)) (served (plain 18 [15, 0] ([0, 0, 1, 0] ++ leBytes 2 32 ++ leBytes 2 0 ++ leBytes 2 0 ++ leBytes 2 1 ++ [1, 0] ++ leBytes 2 4 ++ leBytes 2 64 ++ [0, 0xFF, 0] ++ leBytes 11 0)) ({ bound with cont := { bound.cont with partitions := [(0, { part0 with mb := 16, places := 256 })] } } : State))), by decide +kernel⟩,
   ⟨(plain 18 [15, 0] ([0, 0, 65, 0] ++ leBytes 2 32 ++ leBytes 2 0 ++ leBytes 2 0 ++ leBytes 2 1 ++ [1, 0] ++ leBytes 2 4 ++ leBytes 2 64 ++ [0, 0xFF, 0] ++ leBytes 11 0)), (served (plain 18 [15, 0] ([0, 0, 65, 0] ++ leBytes 2 32 ++ leBytes 2 0 ++ leBytes 2 0 ++ leBytes 2 1 ++ [1, 0] ++ leBytes 2 4 ++ leBytes 2 64 ++ [0, 0xFF, 0] ++ leBytes 11 0)) bound), (after never (plain 18 [15, 0] ([0, 0, 65, 0] ++ leBytes 2 32 ++ leBytes 2 0 ++ leBytes 2 0 ++ leBytes 2 1 ++ [1, 0] ++ leBytes 2 4 ++ leBytes 2 64 ++ [0, 0xFF, 0] ++ leBytes 11 0)) (served (plain 18 [15, 0] ([0, 0, 65, 0] ++ leBytes 2 32 ++ leBytes 2 0 ++ leBytes 2 0 ++ leBytes 2 1 ++ [1, 0] ++ leBytes 2 4 ++ leBytes 2 64 ++ [0, 0xFF, 0] ++ leBytes 11 0)) bound)), ((partitionRefusal (definedBy (plain 18 [15, 0] ([0, 0, 65, 0] ++ leBytes 2 32 ++ leBytes 2 0 ++ leBytes 2 0 ++ leBytes 2 1 ++ [1, 0] ++ leBytes 2 4 ++ leBytes 2 64 ++ [0, 0xFF, 0] ++ leBytes 11 0))) (after never (plain 18 [15, 0] ([0, 0, 65, 0] ++ leBytes 2 32 ++ leBytes 2 0 ++ leBytes 2 0 ++ leBytes 2 1 ++ [1, 0] ++ leBytes 2 4 ++ leBytes 2 64 ++ [0, 0xFF, 0] ++ leBytes 11 0)) (served (plain 18 [15, 0] ([0, 0, 65, 0] ++ leBytes 2 32 ++ leBytes 2 0 ++ leBytes 2 0 ++ leBytes 2 1 ++ [1, 0] ++ leBytes 2 4 ++ leBytes 2 64 ++ [0, 0xFF, 0] ++ leBytes 11 0)) bound))).getD 0), by decide +kernel⟩,
   ⟨(plain 18 [15, 1] ([0, 0, 1, 0] ++ leBytes 2 32 ++ leBytes 2 0 ++ leBytes 2 0 ++ leBytes 2 1 ++ [1, 0] ++ leBytes 2 4 ++ leBytes 2 64 ++ [0, 0xFF, 0] ++ leBytes 11 0)), (served (plain 18 [15, 1] ([0, 0, 1, 0] ++ leBytes 2 32 ++ leBytes 2 0 ++ leBytes 2 0 ++ leBytes 2 1 ++ [1, 0] ++ leBytes 2 4 ++ leBytes 2 64 ++ [0, 0xFF, 0] ++ leBytes 11 0)) bound), (after never (plain 18 [15, 1] ([0, 0, 1, 0] ++ leBytes 2 32 ++ leBytes 2 0 ++ leBytes 2 0 ++ leBytes 2 1 ++ [1, 0] ++ leBytes 2 4 ++ leBytes 2 64 ++ [0, 0xFF, 0] ++ leBytes 11 0)) (served (plain 18 [15, 1] ([0, 0, 1, 0] ++ leBytes 2 32 ++ leBytes 2 0 ++ leBytes 2 0 ++ leBytes 2 1 ++ [1, 0] ++ leBytes 2 4 ++ leBytes 2 64 ++ [0, 0xFF, 0] ++ leBytes 11 0)) bound)), by decide +kernel⟩,
   ⟨(plain 18 [0, 1] ([0, 0, 1, 0] ++ leBytes 2 32 ++ leBytes 2 0 ++ leBytes 2 0 ++ leBytes 2 1 ++ [1, 0] ++ leBytes 2 4 ++ leBytes 2 64 ++ [0, 0xFF, 0] ++ leBytes 11 0)), (served (plain 18 [0, 1] ([0, 0, 1, 0] ++ leBytes 2 32 ++ leBytes 2 0 ++ leBytes 2 0 ++ leBytes 2 1 ++ [1, 0] ++ leBytes 2 4 ++ leBytes 2 64 ++ [0, 0xFF, 0] ++ leBytes 11 0)) resident), (after never (plain 18 [0, 1] ([0, 0, 1, 0] ++ leBytes 2 32 ++ leBytes 2 0 ++ leBytes 2 0 ++ leBytes 2 1 ++ [1, 0] ++ leBytes 2 4 ++ leBytes 2 64 ++ [0, 0xFF, 0] ++ leBytes 11 0)) (served (plain 18 [0, 1] ([0, 0, 1, 0] ++ leBytes 2 32 ++ leBytes 2 0 ++ leBytes 2 0 ++ leBytes 2 1 ++ [1, 0] ++ leBytes 2 4 ++ leBytes 2 64 ++ [0, 0xFF, 0] ++ leBytes 11 0)) resident)), by decide +kernel⟩,
   ⟨({ plain 0x14 [7] (leBytes 8 0 ++ leBytes 8 128 ++ buf 0x9000 64) with envs := [envelope 1 1] } : Packet), (served ({ plain 0x14 [7] (leBytes 8 0 ++ leBytes 8 128 ++ buf 0x9000 64) with envs := [envelope 1 1] } : Packet) bound), (after never ({ plain 0x14 [7] (leBytes 8 0 ++ leBytes 8 128 ++ buf 0x9000 64) with envs := [envelope 1 1] } : Packet) (served ({ plain 0x14 [7] (leBytes 8 0 ++ leBytes 8 128 ++ buf 0x9000 64) with envs := [envelope 1 1] } : Packet) bound)), (keptOf (takePiece (0x1400 + 7) 0x20 ({ plain 0x14 [7] (leBytes 8 0 ++ leBytes 8 128 ++ buf 0x9000 64) with envs := [envelope 1 1] } : Packet) (after never ({ plain 0x14 [7] (leBytes 8 0 ++ leBytes 8 128 ++ buf 0x9000 64) with envs := [envelope 1 1] } : Packet) (served ({ plain 0x14 [7] (leBytes 8 0 ++ leBytes 8 128 ++ buf 0x9000 64) with envs := [envelope 1 1] } : Packet) bound)))).1, (keptOf (takePiece (0x1400 + 7) 0x20 ({ plain 0x14 [7] (leBytes 8 0 ++ leBytes 8 128 ++ buf 0x9000 64) with envs := [envelope 1 1] } : Packet) (after never ({ plain 0x14 [7] (leBytes 8 0 ++ leBytes 8 128 ++ buf 0x9000 64) with envs := [envelope 1 1] } : Packet) (served ({ plain 0x14 [7] (leBytes 8 0 ++ leBytes 8 128 ++ buf 0x9000 64) with envs := [envelope 1 1] } : Packet) bound)))).2, by decide +kernel⟩,
   ⟨({ plain 0x14 [7] (leBytes 8 0 ++ leBytes 8 64 ++ buf 0x9000 64) with envs := [envelope 1 1] } : Packet), [], (served ({ plain 0x14 [7] (leBytes 8 0 ++ leBytes 8 64 ++ buf 0x9000 64) with envs := [envelope 1 1] } : Packet) bound), (after never ({ plain 0x14 [7] (leBytes 8 0 ++ leBytes 8 64 ++ buf 0x9000 64) with envs := [envelope 1 1] } : Packet) (served ({ plain 0x14 [7] (leBytes 8 0 ++ leBytes 8 64 ++ buf 0x9000 64) with envs := [envelope 1 1] } : Packet) bound)), (lastOf (takePiece (0x1400 + 7) 0x20 ({ plain 0x14 [7] (leBytes 8 0 ++ leBytes 8 64 ++ buf 0x9000 64) with envs := [envelope 1 1] } : Packet) (after never ({ plain 0x14 [7] (leBytes 8 0 ++ leBytes 8 64 ++ buf 0x9000 64) with envs := [envelope 1 1] } : Packet) (served ({ plain 0x14 [7] (leBytes 8 0 ++ leBytes 8 64 ++ buf 0x9000 64) with envs := [envelope 1 1] } : Packet) bound)))), (ansOf (vocabFault (readVocab []))), by decide +kernel⟩,
   ⟨({ plain 0x14 [7] (leBytes 8 0 ++ leBytes 8 64 ++ buf 0x9000 64) with envs := [envelope 1 1] } : Packet), vocabObject, (served ({ plain 0x14 [7] (leBytes 8 0 ++ leBytes 8 64 ++ buf 0x9000 64) with envs := [envelope 1 1] } : Packet) ({ bound with cont := { bound.cont with sets := [(0, ⟨⟨[], [], []⟩, none, [], 2 ^ 25, 0⟩)] } } : State)), (after never ({ plain 0x14 [7] (leBytes 8 0 ++ leBytes 8 64 ++ buf 0x9000 64) with envs := [envelope 1 1] } : Packet) (served ({ plain 0x14 [7] (leBytes 8 0 ++ leBytes 8 64 ++ buf 0x9000 64) with envs := [envelope 1 1] } : Packet) ({ bound with cont := { bound.cont with sets := [(0, ⟨⟨[], [], []⟩, none, [], 2 ^ 25, 0⟩)] } } : State))), (lastOf (takePiece (0x1400 + 7) 0x20 ({ plain 0x14 [7] (leBytes 8 0 ++ leBytes 8 64 ++ buf 0x9000 64) with envs := [envelope 1 1] } : Packet) (after never ({ plain 0x14 [7] (leBytes 8 0 ++ leBytes 8 64 ++ buf 0x9000 64) with envs := [envelope 1 1] } : Packet) (served ({ plain 0x14 [7] (leBytes 8 0 ++ leBytes 8 64 ++ buf 0x9000 64) with envs := [envelope 1 1] } : Packet) ({ bound with cont := { bound.cont with sets := [(0, ⟨⟨[], [], []⟩, none, [], 2 ^ 25, 0⟩)] } } : State))))), by decide +kernel, vocab_reads, by rw [vocab_takes]; decide +kernel⟩,
   ⟨({ plain 0x14 [7] (leBytes 8 0 ++ leBytes 8 64 ++ buf 0x9000 64) with envs := [envelope 1 1] } : Packet), vocabObject, (served ({ plain 0x14 [7] (leBytes 8 0 ++ leBytes 8 64 ++ buf 0x9000 64) with envs := [envelope 1 1] } : Packet) bound), (after never ({ plain 0x14 [7] (leBytes 8 0 ++ leBytes 8 64 ++ buf 0x9000 64) with envs := [envelope 1 1] } : Packet) (served ({ plain 0x14 [7] (leBytes 8 0 ++ leBytes 8 64 ++ buf 0x9000 64) with envs := [envelope 1 1] } : Packet) bound)), (lastOf (takePiece (0x1400 + 7) 0x20 ({ plain 0x14 [7] (leBytes 8 0 ++ leBytes 8 64 ++ buf 0x9000 64) with envs := [envelope 1 1] } : Packet) (after never ({ plain 0x14 [7] (leBytes 8 0 ++ leBytes 8 64 ++ buf 0x9000 64) with envs := [envelope 1 1] } : Packet) (served ({ plain 0x14 [7] (leBytes 8 0 ++ leBytes 8 64 ++ buf 0x9000 64) with envs := [envelope 1 1] } : Packet) bound)))), by decide +kernel, vocab_reads, by rw [vocab_takes]; decide +kernel⟩,
   ⟨({ plain 0x14 [0] (wholePiece 64) with envs := [envelope 1 1] } : Packet), (served ({ plain 0x14 [0] (wholePiece 64) with envs := [envelope 1 1] } : Packet) (running (withSession { session0 with d := { session0.d with vocab := true } } 1 bound))), (after never ({ plain 0x14 [0] (wholePiece 64) with envs := [envelope 1 1] } : Packet) (served ({ plain 0x14 [0] (wholePiece 64) with envs := [envelope 1 1] } : Packet) (running (withSession { session0 with d := { session0.d with vocab := true } } 1 bound)))), by decide +kernel⟩⟩

theorem met_SchedulesAndPlansStaged :
    (∃ (p : Packet) (s : State) (t : State) (a : _) (u : _), (opcodeOf p = 0x13) ∧ (passes never p s = some t) ∧ (argOf p 20 1 ≤ 1) ∧ (t.sched.staged = none) ∧ (takePiece (0x1300 + argOf p 20 1) 0x30 p t = .kept a u))
    ∧ (∃ (p : Packet) (obj : Bytes) (s : State) (t : State) (u : _) (a : _), (opcodeOf p = 0x13) ∧ (passes never p s = some t) ∧ (argOf p 20 1 ≤ 1) ∧ (t.sched.staged = none) ∧ (takePiece 0x1300 0x30 p t = .last u) ∧ (argOf p 20 1 = 0) ∧ (imageFault u (readImage obj) (paramOf p 0x20 8) = some a))
    ∧ (∃ (p : Packet) (obj : Bytes) (s : State) (t : State) (u : _), (opcodeOf p = 0x13) ∧ (passes never p s = some t) ∧ (argOf p 20 1 ≤ 1) ∧ (t.sched.staged = none) ∧ (takePiece 0x1300 0x30 p t = .last u) ∧ (argOf p 20 1 = 0) ∧ (imageFault u (readImage obj) (paramOf p 0x20 8) = none))
    ∧ (∃ (p : Packet) (obj : Bytes) (s : State) (t : State) (u : _) (a : _), (opcodeOf p = 0x13) ∧ (passes never p s = some t) ∧ (argOf p 20 1 ≤ 1) ∧ (t.sched.staged = none) ∧ (takePiece 0x1301 0x30 p t = .last u) ∧ (argOf p 20 1 = 1) ∧ (planFault u (readPlan obj) = some a))
    ∧ (∃ (p : Packet) (obj : Bytes) (s : State) (t : State) (u : _), (opcodeOf p = 0x13) ∧ (passes never p s = some t) ∧ (argOf p 20 1 ≤ 1) ∧ (t.sched.staged = none) ∧ (takePiece 0x1301 0x30 p t = .last u) ∧ (argOf p 20 1 = 1) ∧ (planFault u (readPlan obj) = none))
    ∧ (∃ (p : Packet) (g : StagedImage) (s : State) (t : State), (opcodeOf p = 0x13) ∧ (passes never p s = some t) ∧ (argOf p 20 1 ≤ 1) ∧ (t.sched.staged = some g))
    ∧ (∃ (p : Packet) (q : StagedPlan) (img : Image) (s : State) (t : State), (opcodeOf p = 0x43) ∧ (passes never p s = some t) ∧ (t.sched.plans.find? (fun q => !q.armed && q.img.ringId == paramOf p 0x20 8) = some q) ∧ (t.sched.active = some img) ∧ (q.img.base = img.facts.trailer) ∧ (rolesFit t q.img = true) ∧ ((∀ r ∈ q.img.roles, contentFault (withRole t r) r = none)))
    ∧ (∃ (p : Packet) (q : StagedPlan) (img : Image) (s : State) (t : State) (i : Nat) (r : Image), ((opcodeOf p = 0x43) ∧ (passes never p s = some t) ∧ (t.sched.plans.find? (fun q => !q.armed && q.img.ringId == paramOf p 0x20 8) = some q) ∧ (t.sched.active = some img) ∧ (q.img.base = img.facts.trailer) ∧ (q.img.roles[i]? = some r) ∧ ((contentFault (withRole t r) r).isSome = true) ∧ (rolesFit t q.img = true)) ∧ ((∀ j x, j < i → q.img.roles[j]? = some x → contentFault (withRole t x) x = none)))
    ∧ (∃ (p : Packet) (q : StagedPlan) (img : Image) (s : State) (t : State), (opcodeOf p = 0x43) ∧ (passes never p s = some t) ∧ (t.sched.plans.find? (fun q => !q.armed && q.img.ringId == paramOf p 0x20 8) = some q) ∧ (t.sched.active = some img) ∧ (q.img.base = img.facts.trailer) ∧ (rolesFit t q.img = false) ∧ (q.img.roles ≠ []))
    ∧ (∃ (p : Packet) (s : State) (t : State), ((opcodeOf p = 0x43) ∧ (passes never p s = some t)) ∧ ((t.sched.active = none ∨ (∀ q ∈ t.sched.plans, q.armed = true ∨ q.img.ringId ≠ paramOf p 0x20 8) ∨ ∃ q img, t.sched.plans.find? (fun q => !q.armed && q.img.ringId == paramOf p 0x20 8) = some q ∧ t.sched.active = some img ∧ q.img.base ≠ img.facts.trailer))) :=
  ⟨⟨(plain 19 [0] (leBytes 8 256 ++ leBytes 8 0 ++ leBytes 8 0 ++ leBytes 8 8192 ++ buf 0x9000 4096)), (served (plain 19 [0] (leBytes 8 256 ++ leBytes 8 0 ++ leBytes 8 0 ++ leBytes 8 8192 ++ buf 0x9000 4096)) bare), (after never (plain 19 [0] (leBytes 8 256 ++ leBytes 8 0 ++ leBytes 8 0 ++ leBytes 8 8192 ++ buf 0x9000 4096)) (served (plain 19 [0] (leBytes 8 256 ++ leBytes 8 0 ++ leBytes 8 0 ++ leBytes 8 8192 ++ buf 0x9000 4096)) bare)), (keptOf (takePiece 4864 0x30 (plain 19 [0] (leBytes 8 256 ++ leBytes 8 0 ++ leBytes 8 0 ++ leBytes 8 8192 ++ buf 0x9000 4096)) (after never (plain 19 [0] (leBytes 8 256 ++ leBytes 8 0 ++ leBytes 8 0 ++ leBytes 8 8192 ++ buf 0x9000 4096)) (served (plain 19 [0] (leBytes 8 256 ++ leBytes 8 0 ++ leBytes 8 0 ++ leBytes 8 8192 ++ buf 0x9000 4096)) bare)))).1, (keptOf (takePiece 4864 0x30 (plain 19 [0] (leBytes 8 256 ++ leBytes 8 0 ++ leBytes 8 0 ++ leBytes 8 8192 ++ buf 0x9000 4096)) (after never (plain 19 [0] (leBytes 8 256 ++ leBytes 8 0 ++ leBytes 8 0 ++ leBytes 8 8192 ++ buf 0x9000 4096)) (served (plain 19 [0] (leBytes 8 256 ++ leBytes 8 0 ++ leBytes 8 0 ++ leBytes 8 8192 ++ buf 0x9000 4096)) bare)))).2, by decide +kernel⟩,
   ⟨(plain 19 [0] (leBytes 8 255 ++ leBytes 8 0 ++ leBytes 8 0 ++ leBytes 8 8192 ++ buf 0x9000 8192)), [], (served (plain 19 [0] (leBytes 8 255 ++ leBytes 8 0 ++ leBytes 8 0 ++ leBytes 8 8192 ++ buf 0x9000 8192)) bare), (after never (plain 19 [0] (leBytes 8 255 ++ leBytes 8 0 ++ leBytes 8 0 ++ leBytes 8 8192 ++ buf 0x9000 8192)) (served (plain 19 [0] (leBytes 8 255 ++ leBytes 8 0 ++ leBytes 8 0 ++ leBytes 8 8192 ++ buf 0x9000 8192)) bare)), (lastOf (takePiece 4864 0x30 (plain 19 [0] (leBytes 8 255 ++ leBytes 8 0 ++ leBytes 8 0 ++ leBytes 8 8192 ++ buf 0x9000 8192)) (after never (plain 19 [0] (leBytes 8 255 ++ leBytes 8 0 ++ leBytes 8 0 ++ leBytes 8 8192 ++ buf 0x9000 8192)) (served (plain 19 [0] (leBytes 8 255 ++ leBytes 8 0 ++ leBytes 8 0 ++ leBytes 8 8192 ++ buf 0x9000 8192)) bare)))), (ansOf (imageFault bare (readImage []) 0)), by decide +kernel⟩,
   ⟨(plain 19 [0] (leBytes 8 256 ++ leBytes 8 0 ++ leBytes 8 0 ++ leBytes 8 8192 ++ buf 0x9000 8192)), imageObject, (served (plain 19 [0] (leBytes 8 256 ++ leBytes 8 0 ++ leBytes 8 0 ++ leBytes 8 8192 ++ buf 0x9000 8192)) bare), (after never (plain 19 [0] (leBytes 8 256 ++ leBytes 8 0 ++ leBytes 8 0 ++ leBytes 8 8192 ++ buf 0x9000 8192)) (served (plain 19 [0] (leBytes 8 256 ++ leBytes 8 0 ++ leBytes 8 0 ++ leBytes 8 8192 ++ buf 0x9000 8192)) bare)), (lastOf (takePiece 4864 0x30 (plain 19 [0] (leBytes 8 256 ++ leBytes 8 0 ++ leBytes 8 0 ++ leBytes 8 8192 ++ buf 0x9000 8192)) (after never (plain 19 [0] (leBytes 8 256 ++ leBytes 8 0 ++ leBytes 8 0 ++ leBytes 8 8192 ++ buf 0x9000 8192)) (served (plain 19 [0] (leBytes 8 256 ++ leBytes 8 0 ++ leBytes 8 0 ++ leBytes 8 8192 ++ buf 0x9000 8192)) bare)))), by decide +kernel⟩,
   ⟨(plain 19 [1] (leBytes 8 256 ++ leBytes 8 0 ++ leBytes 8 0 ++ leBytes 8 8192 ++ buf 0x9000 8192)), [], (served (plain 19 [1] (leBytes 8 256 ++ leBytes 8 0 ++ leBytes 8 0 ++ leBytes 8 8192 ++ buf 0x9000 8192)) bare), (after never (plain 19 [1] (leBytes 8 256 ++ leBytes 8 0 ++ leBytes 8 0 ++ leBytes 8 8192 ++ buf 0x9000 8192)) (served (plain 19 [1] (leBytes 8 256 ++ leBytes 8 0 ++ leBytes 8 0 ++ leBytes 8 8192 ++ buf 0x9000 8192)) bare)), (lastOf (takePiece 4865 0x30 (plain 19 [1] (leBytes 8 256 ++ leBytes 8 0 ++ leBytes 8 0 ++ leBytes 8 8192 ++ buf 0x9000 8192)) (after never (plain 19 [1] (leBytes 8 256 ++ leBytes 8 0 ++ leBytes 8 0 ++ leBytes 8 8192 ++ buf 0x9000 8192)) (served (plain 19 [1] (leBytes 8 256 ++ leBytes 8 0 ++ leBytes 8 0 ++ leBytes 8 8192 ++ buf 0x9000 8192)) bare)))), (ansOf (planFault bare (readPlan []))), by decide +kernel⟩,
   ⟨(plain 19 [1] (leBytes 8 256 ++ leBytes 8 0 ++ leBytes 8 0 ++ leBytes 8 8192 ++ buf 0x9000 8192)), planObject, (served (plain 19 [1] (leBytes 8 256 ++ leBytes 8 0 ++ leBytes 8 0 ++ leBytes 8 8192 ++ buf 0x9000 8192)) bare), (after never (plain 19 [1] (leBytes 8 256 ++ leBytes 8 0 ++ leBytes 8 0 ++ leBytes 8 8192 ++ buf 0x9000 8192)) (served (plain 19 [1] (leBytes 8 256 ++ leBytes 8 0 ++ leBytes 8 0 ++ leBytes 8 8192 ++ buf 0x9000 8192)) bare)), (lastOf (takePiece 4865 0x30 (plain 19 [1] (leBytes 8 256 ++ leBytes 8 0 ++ leBytes 8 0 ++ leBytes 8 8192 ++ buf 0x9000 8192)) (after never (plain 19 [1] (leBytes 8 256 ++ leBytes 8 0 ++ leBytes 8 0 ++ leBytes 8 8192 ++ buf 0x9000 8192)) (served (plain 19 [1] (leBytes 8 256 ++ leBytes 8 0 ++ leBytes 8 0 ++ leBytes 8 8192 ++ buf 0x9000 8192)) bare)))), by decide +kernel⟩,
   ⟨(plain 19 [1] (leBytes 8 256 ++ leBytes 8 0 ++ leBytes 8 0 ++ leBytes 8 8192 ++ buf 0x9000 8192)), (⟨image, 256, false⟩ : StagedImage), (served (plain 19 [1] (leBytes 8 256 ++ leBytes 8 0 ++ leBytes 8 0 ++ leBytes 8 8192 ++ buf 0x9000 8192)) ({ bare with sched := { bare.sched with staged := some ⟨image, 256, false⟩ } } : State)), (after never (plain 19 [1] (leBytes 8 256 ++ leBytes 8 0 ++ leBytes 8 0 ++ leBytes 8 8192 ++ buf 0x9000 8192)) (served (plain 19 [1] (leBytes 8 256 ++ leBytes 8 0 ++ leBytes 8 0 ++ leBytes 8 8192 ++ buf 0x9000 8192)) ({ bare with sched := { bare.sched with staged := some ⟨image, 256, false⟩ } } : State))), by decide +kernel⟩,
   ⟨(plain 67 [] (leBytes 8 9 ++ leBytes 8 0)), (⟨plan, false⟩ : StagedPlan), image, (served (plain 67 [] (leBytes 8 9 ++ leBytes 8 0)) ({ (running bare) with sched := { (running bare).sched with plans := [⟨plan, false⟩] } } : State)), (after never (plain 67 [] (leBytes 8 9 ++ leBytes 8 0)) (served (plain 67 [] (leBytes 8 9 ++ leBytes 8 0)) ({ (running bare) with sched := { (running bare).sched with plans := [⟨plan, false⟩] } } : State))), by decide +kernel⟩,
   ⟨(plain 67 [] (leBytes 8 9 ++ leBytes 8 0)), (⟨({ plan with roles := [{ image with period := 2 }] } : PlanImage), false⟩ : StagedPlan), image, (served (plain 67 [] (leBytes 8 9 ++ leBytes 8 0)) ({ (running bare) with sched := { (running bare).sched with plans := [⟨({ plan with roles := [{ image with period := 2 }] } : PlanImage), false⟩] } } : State)), (after never (plain 67 [] (leBytes 8 9 ++ leBytes 8 0)) (served (plain 67 [] (leBytes 8 9 ++ leBytes 8 0)) ({ (running bare) with sched := { (running bare).sched with plans := [⟨({ plan with roles := [{ image with period := 2 }] } : PlanImage), false⟩] } } : State))), 0, ({ image with period := 2 } : Image), by decide +kernel, fun j x hj => absurd hj (Nat.not_lt_zero j)⟩,
   ⟨(plain 67 [] (leBytes 8 9 ++ leBytes 8 0)), (⟨({ plan with roleFor := [0] } : PlanImage), false⟩ : StagedPlan), image, (served (plain 67 [] (leBytes 8 9 ++ leBytes 8 0)) ({ (running bare) with sched := { (running bare).sched with plans := [⟨({ plan with roleFor := [0] } : PlanImage), false⟩] } } : State)), (after never (plain 67 [] (leBytes 8 9 ++ leBytes 8 0)) (served (plain 67 [] (leBytes 8 9 ++ leBytes 8 0)) ({ (running bare) with sched := { (running bare).sched with plans := [⟨({ plan with roleFor := [0] } : PlanImage), false⟩] } } : State))), by decide +kernel⟩,
   ⟨(plain 67 [] (leBytes 8 9 ++ leBytes 8 0)), (served (plain 67 [] (leBytes 8 9 ++ leBytes 8 0)) bare), (after never (plain 67 [] (leBytes 8 9 ++ leBytes 8 0)) (served (plain 67 [] (leBytes 8 9 ++ leBytes 8 0)) bare)), by decide +kernel, Or.inl (by decide +kernel)⟩⟩

theorem met_SessionsOpenAndFork :
    (∃ (p : Packet) (s : State) (t : State), (opcodeOf p = 0x20) ∧ (passes never p s = some t) ∧ (partitionAt t (argOf p 20 1) = none))
    ∧ (∃ (p : Packet) (q : Partition) (s : State) (t : State) (a : _), (opcodeOf p = 0x20) ∧ (passes never p s = some t) ∧ (partitionAt t (argOf p 20 1) = some q) ∧ (openRefusal p q t = some a))
    ∧ (∃ (p : Packet) (q : Partition) (s : State) (t : State), (opcodeOf p = 0x20) ∧ (passes never p s = some t) ∧ (partitionAt t (argOf p 20 1) = some q) ∧ (openRefusal p q t = none) ∧ (isLeaving t = true))
    ∧ (∃ (p : Packet) (q : Partition) (s : State) (t : State), (opcodeOf p = 0x20) ∧ (passes never p s = some t) ∧ (partitionAt t (argOf p 20 1) = some q) ∧ (openRefusal p q t = none) ∧ (isLeaving t = false) ∧ (nextSlot t = none))
    ∧ (∃ (p : Packet) (q : Partition) (s : State) (t : State) (slot : _), (opcodeOf p = 0x20) ∧ (passes never p s = some t) ∧ (partitionAt t (argOf p 20 1) = some q) ∧ (openRefusal p q t = none) ∧ (isLeaving t = false) ∧ (nextSlot t = some slot))
    ∧ (∃ (p : Packet) (s : State) (t : State), (opcodeOf p = 0x21) ∧ (passes behindAppend p s = some t) ∧ (((sessionAt t (slotOf p t)).d.state = 1 ∨ (sessionAt t (slotOf p t)).d.state = 3)) ∧ ((sessionAt t (slotOf p t)).d.copying = true))
    ∧ (∃ (p : Packet) (s : State) (t : State), (opcodeOf p = 0x21) ∧ (passes behindAppend p s = some t) ∧ (((sessionAt t (slotOf p t)).d.state = 1 ∨ (sessionAt t (slotOf p t)).d.state = 3)) ∧ ((sessionAt t (slotOf p t)).d.copying = false) ∧ ((∀ g ∈ (sessionAt t (slotOf p t)).pages, ∀ f, frameAt t g.frame = some f → f.count < 0xFFFF)) ∧ (nextSlot t = none))
    ∧ (∃ (p : Packet) (child : Nat) (s : State) (t : State), (opcodeOf p = 0x21) ∧ (passes behindAppend p s = some t) ∧ ((sessionAt t (slotOf p t)).d.copying = false) ∧ (((sessionAt t (slotOf p t)).d.state = 1 ∨ (sessionAt t (slotOf p t)).d.state = 3)) ∧ ((∀ g ∈ (sessionAt t (slotOf p t)).pages, ∀ f, frameAt t g.frame = some f → f.count < 0xFFFF)) ∧ (nextSlot t = some child) ∧ (child ≠ slotOf p t)) :=
  ⟨⟨(sealedPacket 32 0 [1] (leBytes 8 0 ++ leBytes 8 0 ++ leBytes 8 5 ++ leBytes 8 0) []), (served (sealedPacket 32 0 [1] (leBytes 8 0 ++ leBytes 8 0 ++ leBytes 8 5 ++ leBytes 8 0) []) bound), (after never (sealedPacket 32 0 [1] (leBytes 8 0 ++ leBytes 8 0 ++ leBytes 8 5 ++ leBytes 8 0) []) (served (sealedPacket 32 0 [1] (leBytes 8 0 ++ leBytes 8 0 ++ leBytes 8 5 ++ leBytes 8 0) []) bound)), by decide +kernel⟩,
   ⟨(sealedPacket 32 0 [0] (leBytes 8 0x30000 ++ leBytes 8 0 ++ leBytes 8 5 ++ leBytes 8 0) []), part0, (served (sealedPacket 32 0 [0] (leBytes 8 0x30000 ++ leBytes 8 0 ++ leBytes 8 5 ++ leBytes 8 0) []) bound), (after never (sealedPacket 32 0 [0] (leBytes 8 0x30000 ++ leBytes 8 0 ++ leBytes 8 5 ++ leBytes 8 0) []) (served (sealedPacket 32 0 [0] (leBytes 8 0x30000 ++ leBytes 8 0 ++ leBytes 8 5 ++ leBytes 8 0) []) bound)), (ansOf (openRefusal (sealedPacket 32 0 [0] (leBytes 8 0x30000 ++ leBytes 8 0 ++ leBytes 8 5 ++ leBytes 8 0) []) part0 (after never (sealedPacket 32 0 [0] (leBytes 8 0x30000 ++ leBytes 8 0 ++ leBytes 8 5 ++ leBytes 8 0) []) (served (sealedPacket 32 0 [0] (leBytes 8 0x30000 ++ leBytes 8 0 ++ leBytes 8 5 ++ leBytes 8 0) []) bound)))), by decide +kernel⟩,
   ⟨(sealedPacket 32 0 [0] (leBytes 8 0 ++ leBytes 8 0 ++ leBytes 8 5 ++ leBytes 8 0) []), part0, (served (sealedPacket 32 0 [0] (leBytes 8 0 ++ leBytes 8 0 ++ leBytes 8 5 ++ leBytes 8 0) []) ({ bound with comp := { bound.comp with inComp := true, map := some { compMap with devices := [⟨0, true, 0, []⟩] } } } : State)), (after never (sealedPacket 32 0 [0] (leBytes 8 0 ++ leBytes 8 0 ++ leBytes 8 5 ++ leBytes 8 0) []) (served (sealedPacket 32 0 [0] (leBytes 8 0 ++ leBytes 8 0 ++ leBytes 8 5 ++ leBytes 8 0) []) ({ bound with comp := { bound.comp with inComp := true, map := some { compMap with devices := [⟨0, true, 0, []⟩] } } } : State))), by decide +kernel⟩,
   ⟨(sealedPacket 32 0 [0] (leBytes 8 0 ++ leBytes 8 0 ++ leBytes 8 5 ++ leBytes 8 0) []), part0, (served (sealedPacket 32 0 [0] (leBytes 8 0 ++ leBytes 8 0 ++ leBytes 8 5 ++ leBytes 8 0) []) ({ bound with slots := { bound.slots with fresh := 16777216, freed := [] } } : State)), (after never (sealedPacket 32 0 [0] (leBytes 8 0 ++ leBytes 8 0 ++ leBytes 8 5 ++ leBytes 8 0) []) (served (sealedPacket 32 0 [0] (leBytes 8 0 ++ leBytes 8 0 ++ leBytes 8 5 ++ leBytes 8 0) []) ({ bound with slots := { bound.slots with fresh := 16777216, freed := [] } } : State))), by decide +kernel⟩,
   ⟨(sealedPacket 32 0 [0] (leBytes 8 0 ++ leBytes 8 0 ++ leBytes 8 5 ++ leBytes 8 0) []), part0, (served (sealedPacket 32 0 [0] (leBytes 8 0 ++ leBytes 8 0 ++ leBytes 8 5 ++ leBytes 8 0) []) bound), (after never (sealedPacket 32 0 [0] (leBytes 8 0 ++ leBytes 8 0 ++ leBytes 8 5 ++ leBytes 8 0) []) (served (sealedPacket 32 0 [0] (leBytes 8 0 ++ leBytes 8 0 ++ leBytes 8 5 ++ leBytes 8 0) []) bound)), 0, by decide +kernel⟩,
   ⟨(packet 33 0 handle0 [] (leBytes 8 0 ++ leBytes 8 0) 0), (served (packet 33 0 handle0 [] (leBytes 8 0 ++ leBytes 8 0) 0) (running (withSession { session0 with pages := [], d := { session0.d with copying := true } } 1 bound))), (after behindAppend (packet 33 0 handle0 [] (leBytes 8 0 ++ leBytes 8 0) 0) (served (packet 33 0 handle0 [] (leBytes 8 0 ++ leBytes 8 0) 0) (running (withSession { session0 with pages := [], d := { session0.d with copying := true } } 1 bound)))), by decide +kernel⟩,
   ⟨(packet 33 0 handle0 [] (leBytes 8 0 ++ leBytes 8 0) 0), (served (packet 33 0 handle0 [] (leBytes 8 0 ++ leBytes 8 0) 0) ({ (running (withSession { session0 with pages := [] } 1 bound)) with slots := { (running (withSession { session0 with pages := [] } 1 bound)).slots with fresh := 16777216, freed := [] } } : State)), (after behindAppend (packet 33 0 handle0 [] (leBytes 8 0 ++ leBytes 8 0) 0) (served (packet 33 0 handle0 [] (leBytes 8 0 ++ leBytes 8 0) 0) ({ (running (withSession { session0 with pages := [] } 1 bound)) with slots := { (running (withSession { session0 with pages := [] } 1 bound)).slots with fresh := 16777216, freed := [] } } : State))), by decide +kernel⟩,
   ⟨(packet 33 0 handle0 [] (leBytes 8 0 ++ leBytes 8 0) 0), 1, (served (packet 33 0 handle0 [] (leBytes 8 0 ++ leBytes 8 0) 0) (running (withSession { session0 with pages := [] } 1 bound))), (after behindAppend (packet 33 0 handle0 [] (leBytes 8 0 ++ leBytes 8 0) 0) (served (packet 33 0 handle0 [] (leBytes 8 0 ++ leBytes 8 0) 0) (running (withSession { session0 with pages := [] } 1 bound)))), by decide +kernel⟩⟩

theorem met_AppendReachesLedger :
    (∃ (p : Packet) (kind : Nat) (s : State) (t : State), (opcodeOf p = 0x22) ∧ (passes behindAppend p s = some t) ∧ ((sessionAt t (slotOf p t)).d.state ∈ [1, 3, 7]) ∧ (argOf p 20 1 = kind) ∧ ((kind = 1 ∨ kind = 2)) ∧ (argOf p 21 1 = 0) ∧ ((sessionAt t (slotOf p t)).d.vocab = true) ∧ (argOf p 24 4 ≤ p.params.length))
    ∧ (∃ (p : Packet) (kind : Nat) (s : State) (t : State), (opcodeOf p = 0x22) ∧ (passes behindAppend p s = some t) ∧ ((sessionAt t (slotOf p t)).d.state ∈ [1, 3, 7]) ∧ (argOf p 20 1 = kind) ∧ ((kind = 1 ∨ kind = 2)) ∧ (argOf p 21 1 = 0) ∧ ((sessionAt t (slotOf p t)).d.vocab = false) ∧ (argOf p 24 4 ≤ p.params.length))
    ∧ (∃ (p : Packet) (kind : Nat) (v : Vocabulary) (s : State) (t : State), (opcodeOf p = 0x22) ∧ (passes behindAppend p s = some t) ∧ ((sessionAt t (slotOf p t)).d.state ∈ [1, 3, 7]) ∧ (argOf p 20 1 = kind) ∧ ((kind = 1 ∨ kind = 2)) ∧ (argOf p 21 1 = 1) ∧ ((sessionAt t (slotOf p t)).d.vocab = true) ∧ (vocabOf t (sessionAt t (slotOf p t)) = some v) ∧ (4 * argOf p 24 4 ≤ p.params.length) ∧ ((∀ i, i < argOf p 24 4 → fieldAt p.params (4 * i) 4 < v.entries.length)))
    ∧ (∃ (slot : Nat) (kind : Nat) (bytes : Bytes) (o : Origin) (v : Vocabulary) (s : State), (s.commands = [⟨.tokenize slot, o⟩]) ∧ ((sessionAt s slot).tokenizing = some (kind, bytes)) ∧ (vocabOf s (sessionAt s slot) = some v))
    ∧ (∃ (slot : Nat) (kind : Nat) (elems : List Nat) (s : State), ((kind = 2 → (sessionAt s slot).d.state ≠ 3 ∧ (sessionAt s slot).d.parkPending = false)) ∧ (elems.length ≤ 4096) ∧ ((sessionAt s slot).d.ledgerPos + elems.length < 2 ^ 32) ∧ (kind ≠ 7)) :=
  ⟨⟨(sealedPacket 34 handle0 ([2, 0, 0, 0] ++ leBytes 4 16) (List.replicate 16 65) []), 2, (served (sealedPacket 34 handle0 ([2, 0, 0, 0] ++ leBytes 4 16) (List.replicate 16 65) []) (running (withSession { session0 with d := { session0.d with vocab := true } } 1 bound))), (after behindAppend (sealedPacket 34 handle0 ([2, 0, 0, 0] ++ leBytes 4 16) (List.replicate 16 65) []) (served (sealedPacket 34 handle0 ([2, 0, 0, 0] ++ leBytes 4 16) (List.replicate 16 65) []) (running (withSession { session0 with d := { session0.d with vocab := true } } 1 bound)))), by decide +kernel⟩,
   ⟨(sealedPacket 34 handle0 ([1, 0, 0, 0] ++ leBytes 4 16) (List.replicate 16 65) []), 1, (served (sealedPacket 34 handle0 ([1, 0, 0, 0] ++ leBytes 4 16) (List.replicate 16 65) []) resident), (after behindAppend (sealedPacket 34 handle0 ([1, 0, 0, 0] ++ leBytes 4 16) (List.replicate 16 65) []) (served (sealedPacket 34 handle0 ([1, 0, 0, 0] ++ leBytes 4 16) (List.replicate 16 65) []) resident)), by decide +kernel⟩,
   ⟨(sealedPacket 34 handle0 ([1, 1, 0, 0] ++ leBytes 4 4) ((List.replicate 4 (leBytes 4 255)).flatten) []), 1, (⟨byteEntries, 3⟩ : Vocabulary), (served (sealedPacket 34 handle0 ([1, 1, 0, 0] ++ leBytes 4 4) ((List.replicate 4 (leBytes 4 255)).flatten) []) (running (withSession { session0 with d := { session0.d with vocab := true } } 1 bound))), (after behindAppend (sealedPacket 34 handle0 ([1, 1, 0, 0] ++ leBytes 4 4) ((List.replicate 4 (leBytes 4 255)).flatten) []) (served (sealedPacket 34 handle0 ([1, 1, 0, 0] ++ leBytes 4 4) ((List.replicate 4 (leBytes 4 255)).flatten) []) (running (withSession { session0 with d := { session0.d with vocab := true } } 1 bound)))), by decide +kernel⟩,
   ⟨0, 1, [1], origin0, (⟨byteEntries, 3⟩ : Vocabulary), ({ (waiting (.tokenize 0) (running (withSession { session0 with d := { session0.d with vocab := true } } 1 bound))) with slots := { (waiting (.tokenize 0) (running (withSession { session0 with d := { session0.d with vocab := true } } 1 bound))).slots with table := [(0, { (sessionAt (running (withSession { session0 with d := { session0.d with vocab := true } } 1 bound)) 0) with tokenizing := some (1, [1]) })] } } : State), by decide +kernel⟩,
   ⟨0, 0, (List.replicate 4096 66), resident, by decide +kernel⟩⟩

theorem met_SessionCommandsAtRecognition :
    (∃ (p : Packet) (s : State) (t : State), (opcodeOf p = 0x26) ∧ (passes never p s = some t) ∧ ((sessionAt t (slotOf p t)).d.state = 6))
    ∧ (∃ (p : Packet) (s : State) (t : State), (opcodeOf p = 0x26) ∧ (passes never p s = some t) ∧ ((sessionAt t (slotOf p t)).d.state ≠ 6))
    ∧ (∃ (slot : Nat) (s : State) (j : _), ((sessionAt s slot).job = some j))
    ∧ (∃ (p : Packet) (s : State) (t : State), (opcodeOf p = 0x27) ∧ (passes behindAppend p s = some t) ∧ ((sessionAt t (slotOf p t)).d.state = 6))
    ∧ (∃ (p : Packet) (s : State) (t : State), (opcodeOf p = 0x27) ∧ (passes behindAppend p s = some t) ∧ ((sessionAt t (slotOf p t)).d.state = 1) ∧ ((sessionAt t (slotOf p t)).handover = none) ∧ (commandOf t (.capsuleIn (slotOf p t)) = none) ∧ (t.sched.active ≠ none))
    ∧ (∃ (p : Packet) (s : State) (t : State), (opcodeOf p = 0x28) ∧ (passes behindAppend p s = some t) ∧ ((sessionAt t (slotOf p t)).d.state ∈ [1, 2, 3, 7]) ∧ (writtenBytes t 272 ≤ bufLen p 0x20))
    ∧ (∃ (p : Packet) (s : State) (t : State), (opcodeOf p = 0x28) ∧ (passes behindAppend p s = some t) ∧ ((sessionAt t (slotOf p t)).d.state ∈ [1, 2, 3, 7]) ∧ (bufLen p 0x20 < writtenBytes t 272))
    ∧ (∃ (p : Packet) (s : State) (t : State), (opcodeOf p = 0x29) ∧ (passes behindAppend p s = some t) ∧ ((sessionAt t (slotOf p t)).d.state ∈ [1, 2, 3]) ∧ (readSet p.params = .ok none))
    ∧ (∃ (p : Packet) (s : State) (t : State) (off : _), (opcodeOf p = 0x29) ∧ (passes behindAppend p s = some t) ∧ ((sessionAt t (slotOf p t)).d.state ∈ [1, 2, 3]) ∧ (readSet p.params = .error off))
    ∧ (∃ (p : Packet) (s : State) (t : State) (c : _), ((opcodeOf p = 0x29) ∧ (passes behindAppend p s = some t) ∧ ((sessionAt t (slotOf p t)).d.state ∈ [1, 2, 3]) ∧ (readSet p.params = .ok (some c))) ∧ (compileSet c (sessionAt t (slotOf p t)) t = none))
    ∧ (∃ (p : Packet) (s : State) (t : State) (c : _) (i : _) (u : _), (opcodeOf p = 0x29) ∧ (passes behindAppend p s = some t) ∧ ((sessionAt t (slotOf p t)).d.state ∈ [1, 2, 3]) ∧ (readSet p.params = .ok (some c)) ∧ (compileSet c (sessionAt t (slotOf p t)) t = some (i, u)))
    ∧ (∃ (slot : Nat) (s : State), ((sessionAt s slot).d.state = 2))
    ∧ (∃ (slot : Nat) (s : State), ((sessionAt s slot).d.state ≠ 2) ∧ ((sessionAt s slot).job = none)) :=
  ⟨⟨(packet 38 0 handle0 [] [] 0), (served (packet 38 0 handle0 [] [] 0) (running (withSession { session0 with d := { session0.d with state := 6 }, pages := [] } 1 bound))), (after never (packet 38 0 handle0 [] [] 0) (served (packet 38 0 handle0 [] [] 0) (running (withSession { session0 with d := { session0.d with state := 6 }, pages := [] } 1 bound)))), by decide +kernel⟩,
   ⟨(packet 38 0 handle0 [] [] 0), (served (packet 38 0 handle0 [] [] 0) resident), (after never (packet 38 0 handle0 [] [] 0) (served (packet 38 0 handle0 [] [] 0) resident)), by decide +kernel⟩,
   ⟨0, (generating 0 []), ({ framesReserved := 2 } : Generation), by decide +kernel⟩,
   ⟨(packet 39 0 handle0 [] [] 0), (served (packet 39 0 handle0 [] [] 0) (running (withSession { session0 with d := { session0.d with state := 6 }, pages := [] } 1 bound))), (after behindAppend (packet 39 0 handle0 [] [] 0) (served (packet 39 0 handle0 [] [] 0) (running (withSession { session0 with d := { session0.d with state := 6 }, pages := [] } 1 bound)))), by decide +kernel⟩,
   ⟨(packet 39 0 handle0 [] [] 0), (served (packet 39 0 handle0 [] [] 0) resident), (after behindAppend (packet 39 0 handle0 [] [] 0) (served (packet 39 0 handle0 [] [] 0) resident)), by decide +kernel⟩,
   ⟨(packet 40 0 handle0 [] (buf 0x8000 304) 0), (served (packet 40 0 handle0 [] (buf 0x8000 304) 0) resident), (after behindAppend (packet 40 0 handle0 [] (buf 0x8000 304) 0) (served (packet 40 0 handle0 [] (buf 0x8000 304) 0) resident)), by decide +kernel⟩,
   ⟨(packet 40 0 handle0 [] (buf 0x8000 271) 0), (served (packet 40 0 handle0 [] (buf 0x8000 271) 0) resident), (after behindAppend (packet 40 0 handle0 [] (buf 0x8000 271) 0) (served (packet 40 0 handle0 [] (buf 0x8000 271) 0) resident)), by decide +kernel⟩,
   ⟨(sealedPacket 41 handle0 [] [0, 0, 0, 0, 0, 1] []), (served (sealedPacket 41 handle0 [] [0, 0, 0, 0, 0, 1] []) resident), (after behindAppend (sealedPacket 41 handle0 [] [0, 0, 0, 0, 0, 1] []) (served (sealedPacket 41 handle0 [] [0, 0, 0, 0, 0, 1] []) resident)), by decide +kernel⟩,
   ⟨(sealedPacket 41 handle0 [] [0, 0, 0, 0, 0, 2] []), (served (sealedPacket 41 handle0 [] [0, 0, 0, 0, 0, 2] []) resident), (after behindAppend (sealedPacket 41 handle0 [] [0, 0, 0, 0, 0, 2] []) (served (sealedPacket 41 handle0 [] [0, 0, 0, 0, 0, 2] []) resident)), 5, by decide +kernel⟩,
   ⟨(sealedPacket 41 handle0 [] (leBytes 2 1 ++ leBytes 14 0 ++ leBytes 4 1 ++ [65, 0, 0, 0]) []), (served (sealedPacket 41 handle0 [] (leBytes 2 1 ++ leBytes 14 0 ++ leBytes 4 1 ++ [65, 0, 0, 0]) []) ({ resident with cont := { resident.cont with sets := [(0, ⟨⟨[[66]], [], []⟩, none, [], (2 ^ 25 + 1), 1⟩)] } } : State)), (after behindAppend (sealedPacket 41 handle0 [] (leBytes 2 1 ++ leBytes 14 0 ++ leBytes 4 1 ++ [65, 0, 0, 0]) []) (served (sealedPacket 41 handle0 [] (leBytes 2 1 ++ leBytes 14 0 ++ leBytes 4 1 ++ [65, 0, 0, 0]) []) ({ resident with cont := { resident.cont with sets := [(0, ⟨⟨[[66]], [], []⟩, none, [], (2 ^ 25 + 1), 1⟩)] } } : State))), (⟨[[65]], [], []⟩ : ConSet), by decide +kernel, compile_full (by decide +kernel) (by decide +kernel)⟩,
   ⟨(sealedPacket 41 handle0 [] (leBytes 2 1 ++ leBytes 14 0 ++ leBytes 4 1 ++ [65, 0, 0, 0]) []), (served (sealedPacket 41 handle0 [] (leBytes 2 1 ++ leBytes 14 0 ++ leBytes 4 1 ++ [65, 0, 0, 0]) []) ({ resident with cont := { resident.cont with sets := [(0, ⟨⟨[[65]], [], []⟩, none, [], 10, 1⟩)] } } : State)), (after behindAppend (sealedPacket 41 handle0 [] (leBytes 2 1 ++ leBytes 14 0 ++ leBytes 4 1 ++ [65, 0, 0, 0]) []) (served (sealedPacket 41 handle0 [] (leBytes 2 1 ++ leBytes 14 0 ++ leBytes 4 1 ++ [65, 0, 0, 0]) []) ({ resident with cont := { resident.cont with sets := [(0, ⟨⟨[[65]], [], []⟩, none, [], 10, 1⟩)] } } : State))), (⟨[[65]], [], []⟩ : ConSet), 0, (holdSet (some 0) (after behindAppend (sealedPacket 41 handle0 [] (leBytes 2 1 ++ leBytes 14 0 ++ leBytes 4 1 ++ [65, 0, 0, 0]) []) (served (sealedPacket 41 handle0 [] (leBytes 2 1 ++ leBytes 14 0 ++ leBytes 4 1 ++ [65, 0, 0, 0]) []) ({ resident with cont := { resident.cont with sets := [(0, ⟨⟨[[65]], [], []⟩, none, [], 10, 1⟩)] } } : State)))), by decide +kernel⟩,
   ⟨0, (generating 0 []), by decide +kernel⟩,
   ⟨0, resident, by decide +kernel⟩⟩

theorem met_GenerationAdmitted :
    (∃ (p : Packet) (s : State) (t : State), (isServe p = true) ∧ (argOf p 20 1 = 0) ∧ (passes behindAppend p s = some t) ∧ (((sessionAt t (slotOf p t)).d.state = 1 ∨ (sessionAt t (slotOf p t)).d.state = 3)) ∧ (slotsReady t = true) ∧ ((ringOf t (sessionAt t (slotOf p t)).d.partition).isSome = true) ∧ (samplingRefusal (samplingOf p) = none) ∧ (48 * max (argOf p 24 4) 1 ≤ bufLen p 0x48) ∧ ((sessionAt t (slotOf p t)).d.ledgerPos ≠ 0) ∧ ((sessionAt t (slotOf p t)).con.absent = false) ∧ ((sessionAt t (slotOf p t)).exported = false) ∧ ((∀ o ∈ t.tier.ops, o.slot ≠ slotOf p t)) ∧ (tailShared t (sessionAt t (slotOf p t)) = false) ∧ (t1FreeFor t (slotOf p t) < (steadyFrames t (sessionAt t (slotOf p t)) ((if argOf p 24 4 = 0 then bufLen p 0x48 / 48 else argOf p 24 4)) - t1Pages (sessionAt t (slotOf p t))) * granuleOf t (sessionAt t (slotOf p t)).d.partition))
    ∧ (∃ (p : Packet) (s : State) (t : State), (isServe p = true) ∧ (argOf p 20 1 = 0) ∧ (passes behindAppend p s = some t) ∧ (((sessionAt t (slotOf p t)).d.state = 1 ∨ (sessionAt t (slotOf p t)).d.state = 3)) ∧ (slotsReady t = true) ∧ ((ringOf t (sessionAt t (slotOf p t)).d.partition).isSome = true) ∧ (samplingRefusal (samplingOf p) = none) ∧ (48 * max (argOf p 24 4) 1 ≤ bufLen p 0x48) ∧ ((sessionAt t (slotOf p t)).d.ledgerPos ≠ 0) ∧ ((sessionAt t (slotOf p t)).con.absent = false) ∧ ((sessionAt t (slotOf p t)).exported = false) ∧ ((∀ o ∈ t.tier.ops, o.slot ≠ slotOf p t)) ∧ (tailShared t (sessionAt t (slotOf p t)) = false) ∧ ((steadyFrames t (sessionAt t (slotOf p t)) ((if argOf p 24 4 = 0 then bufLen p 0x48 / 48 else argOf p 24 4)) - t1Pages (sessionAt t (slotOf p t))) * granuleOf t (sessionAt t (slotOf p t)).d.partition ≤ t1FreeFor t (slotOf p t)) ∧ (4096 < ctrlHeld t + ringSizeOf t (sessionAt t (slotOf p t)).d.partition))
    ∧ (∃ (p : Packet) (s : State) (t : State), (isServe p = true) ∧ (argOf p 20 1 = 0) ∧ (passes behindAppend p s = some t) ∧ (((sessionAt t (slotOf p t)).d.state = 1 ∨ (sessionAt t (slotOf p t)).d.state = 3)) ∧ (slotsReady t = true) ∧ ((ringOf t (sessionAt t (slotOf p t)).d.partition).isSome = true) ∧ (samplingRefusal (samplingOf p) = none) ∧ (48 * max (argOf p 24 4) 1 ≤ bufLen p 0x48) ∧ ((sessionAt t (slotOf p t)).d.ledgerPos ≠ 0) ∧ ((sessionAt t (slotOf p t)).con.absent = false) ∧ ((sessionAt t (slotOf p t)).exported = false) ∧ ((∀ o ∈ t.tier.ops, o.slot ≠ slotOf p t)) ∧ (tailShared t (sessionAt t (slotOf p t)) = false) ∧ ((steadyFrames t (sessionAt t (slotOf p t)) ((if argOf p 24 4 = 0 then bufLen p 0x48 / 48 else argOf p 24 4)) - t1Pages (sessionAt t (slotOf p t))) * granuleOf t (sessionAt t (slotOf p t)).d.partition ≤ t1FreeFor t (slotOf p t)) ∧ (ctrlHeld t + ringSizeOf t (sessionAt t (slotOf p t)).d.partition ≤ 4096) ∧ (((∀ g ∈ parkPages (sessionAt t (slotOf p t)), g.tier = 1) ∨ moverFits (tileBytesOf t (sessionAt t (slotOf p t))) (reviveCodec t (sessionAt t (slotOf p t))) t = true)))
    ∧ (∃ (p : Packet) (s : State) (t : State), (isServe p = true) ∧ (passes behindAppend p s = some t) ∧ ((sessionAt t (slotOf p t)).d.state = 7))
    ∧ (∃ (p : Packet) (tr : Train) (s : State) (t : State), (isTrain p = true) ∧ (passes behindAppend p s = some t) ∧ ((sessionAt t (slotOf p t)).d.state = 1) ∧ (slotsReady t = true) ∧ ((sessionAt t (slotOf p t)).d.copying = false) ∧ ((∀ o ∈ t.tier.ops, o.slot ≠ slotOf p t)) ∧ (trainOf t (sessionAt t (slotOf p t)).d.partition = some tr) ∧ ((sessionAt t (slotOf p t)).d.ledgerPos ≤ min tr.trainLen 16384) ∧ (paramOf p 0x20 8 + 1 < (sessionAt t (slotOf p t)).d.ledgerPos) ∧ (trainFrames t (sessionAt t (slotOf p t)) * granuleOf t (sessionAt t (slotOf p t)).d.partition ≤ t1Free t) ∧ (ctrlHeld t + ringSizeOf t (sessionAt t (slotOf p t)).d.partition ≤ 4096)) :=
  ⟨⟨(packet 35 0 handle0 ([0, 0, 0, 0] ++ leBytes 4 4) (leBytes 4 0 ++ leBytes 4 0x3F800000 ++ leBytes 12 0 ++ leBytes 4 0x3F800000 ++ leBytes 8 0 ++ leBytes 8 0 ++ buf 0x8000 192) 0), (served (packet 35 0 handle0 ([0, 0, 0, 0] ++ leBytes 4 4) (leBytes 4 0 ++ leBytes 4 0x3F800000 ++ leBytes 12 0 ++ leBytes 4 0x3F800000 ++ leBytes 8 0 ++ leBytes 8 0 ++ buf 0x8000 192) 0) ({ resident with tier := { resident.tier with t1Total := 0 } } : State)), (after behindAppend (packet 35 0 handle0 ([0, 0, 0, 0] ++ leBytes 4 4) (leBytes 4 0 ++ leBytes 4 0x3F800000 ++ leBytes 12 0 ++ leBytes 4 0x3F800000 ++ leBytes 8 0 ++ leBytes 8 0 ++ buf 0x8000 192) 0) (served (packet 35 0 handle0 ([0, 0, 0, 0] ++ leBytes 4 4) (leBytes 4 0 ++ leBytes 4 0x3F800000 ++ leBytes 12 0 ++ leBytes 4 0x3F800000 ++ leBytes 8 0 ++ leBytes 8 0 ++ buf 0x8000 192) 0) ({ resident with tier := { resident.tier with t1Total := 0 } } : State))), by decide +kernel⟩,
   ⟨(packet 35 0 handle0 ([0, 0, 0, 0] ++ leBytes 4 4) (leBytes 4 0 ++ leBytes 4 0x3F800000 ++ leBytes 12 0 ++ leBytes 4 0x3F800000 ++ leBytes 8 0 ++ leBytes 8 0 ++ buf 0x8000 192) 0), (served (packet 35 0 handle0 ([0, 0, 0, 0] ++ leBytes 4 4) (leBytes 4 0 ++ leBytes 4 0x3F800000 ++ leBytes 12 0 ++ leBytes 4 0x3F800000 ++ leBytes 8 0 ++ leBytes 8 0 ++ buf 0x8000 192) 0) ({ (withImage { image with rings := [{ ring0 with members := List.replicate 64 0 }] } resident) with slots := { (withImage { image with rings := [{ ring0 with members := List.replicate 64 0 }] } resident).slots with table := resident.slots.table ++ (List.range 64).map (fun i => (i + 1, { session0 with job := some { framesReserved := 2 } })) } } : State)), (after behindAppend (packet 35 0 handle0 ([0, 0, 0, 0] ++ leBytes 4 4) (leBytes 4 0 ++ leBytes 4 0x3F800000 ++ leBytes 12 0 ++ leBytes 4 0x3F800000 ++ leBytes 8 0 ++ leBytes 8 0 ++ buf 0x8000 192) 0) (served (packet 35 0 handle0 ([0, 0, 0, 0] ++ leBytes 4 4) (leBytes 4 0 ++ leBytes 4 0x3F800000 ++ leBytes 12 0 ++ leBytes 4 0x3F800000 ++ leBytes 8 0 ++ leBytes 8 0 ++ buf 0x8000 192) 0) ({ (withImage { image with rings := [{ ring0 with members := List.replicate 64 0 }] } resident) with slots := { (withImage { image with rings := [{ ring0 with members := List.replicate 64 0 }] } resident).slots with table := resident.slots.table ++ (List.range 64).map (fun i => (i + 1, { session0 with job := some { framesReserved := 2 } })) } } : State))), by decide +kernel⟩,
   ⟨(packet 35 0 handle0 ([0, 0, 0, 0] ++ leBytes 4 0) (leBytes 4 0 ++ leBytes 4 0x3F800000 ++ leBytes 12 0 ++ leBytes 4 0x3F800000 ++ leBytes 8 0 ++ leBytes 8 0 ++ buf 0x8000 192) 0), (served (packet 35 0 handle0 ([0, 0, 0, 0] ++ leBytes 4 0) (leBytes 4 0 ++ leBytes 4 0x3F800000 ++ leBytes 12 0 ++ leBytes 4 0x3F800000 ++ leBytes 8 0 ++ leBytes 8 0 ++ buf 0x8000 192) 0) resident), (after behindAppend (packet 35 0 handle0 ([0, 0, 0, 0] ++ leBytes 4 0) (leBytes 4 0 ++ leBytes 4 0x3F800000 ++ leBytes 12 0 ++ leBytes 4 0x3F800000 ++ leBytes 8 0 ++ leBytes 8 0 ++ buf 0x8000 192) 0) (served (packet 35 0 handle0 ([0, 0, 0, 0] ++ leBytes 4 0) (leBytes 4 0 ++ leBytes 4 0x3F800000 ++ leBytes 12 0 ++ leBytes 4 0x3F800000 ++ leBytes 8 0 ++ leBytes 8 0 ++ buf 0x8000 192) 0) resident)), by decide +kernel⟩,
   ⟨(packet 35 0 handle0 ([0, 0, 0, 0] ++ leBytes 4 4) (leBytes 4 0 ++ leBytes 4 0x3F800000 ++ leBytes 12 0 ++ leBytes 4 0x3F800000 ++ leBytes 8 0 ++ leBytes 8 0 ++ buf 0x8000 192) 0), (served (packet 35 0 handle0 ([0, 0, 0, 0] ++ leBytes 4 4) (leBytes 4 0 ++ leBytes 4 0x3F800000 ++ leBytes 12 0 ++ leBytes 4 0x3F800000 ++ leBytes 8 0 ++ leBytes 8 0 ++ buf 0x8000 192) 0) (running (withSession { session0 with d := { session0.d with state := 7 } } 1 bound))), (after behindAppend (packet 35 0 handle0 ([0, 0, 0, 0] ++ leBytes 4 4) (leBytes 4 0 ++ leBytes 4 0x3F800000 ++ leBytes 12 0 ++ leBytes 4 0x3F800000 ++ leBytes 8 0 ++ leBytes 8 0 ++ buf 0x8000 192) 0) (served (packet 35 0 handle0 ([0, 0, 0, 0] ++ leBytes 4 4) (leBytes 4 0 ++ leBytes 4 0x3F800000 ++ leBytes 12 0 ++ leBytes 4 0x3F800000 ++ leBytes 8 0 ++ leBytes 8 0 ++ buf 0x8000 192) 0) (running (withSession { session0 with d := { session0.d with state := 7 } } 1 bound)))), by decide +kernel⟩,
   ⟨(packet 35 0 handle0 [1] (leBytes 8 38 ++ leBytes 8 0) 0), ({ partition := 0, trainLen := 16384, adapters := [], optimizer := 1, rate := 0, beta1 := 0, beta2 := 0, eps := 0, decay := 0 } : Train), (served (packet 35 0 handle0 [1] (leBytes 8 38 ++ leBytes 8 0) 0) (withImage { image with trains := [({ partition := 0, trainLen := 16384, adapters := [], optimizer := 1, rate := 0, beta1 := 0, beta2 := 0, eps := 0, decay := 0 } : Train)] } resident)), (after behindAppend (packet 35 0 handle0 [1] (leBytes 8 38 ++ leBytes 8 0) 0) (served (packet 35 0 handle0 [1] (leBytes 8 38 ++ leBytes 8 0) 0) (withImage { image with trains := [({ partition := 0, trainLen := 16384, adapters := [], optimizer := 1, rate := 0, beta1 := 0, beta2 := 0, eps := 0, decay := 0 } : Train)] } resident))), by decide +kernel⟩⟩

theorem met_ParkAndReviveScheduled :
    (∃ (p : Packet) (s : State) (t : State), (opcodeOf p = 0x24) ∧ (passes behindRevive p s = some t) ∧ ((sessionAt t (slotOf p t)).d.state = 1) ∧ (slotsReady t = true) ∧ ((sessionAt t (slotOf p t)).d.copying = false) ∧ ((sessionAt t (slotOf p t)).d.parkPending = false) ∧ ((∀ o ∈ t.tier.ops, o.slot ≠ slotOf p t)) ∧ (placePark (slotOf p t) (parkSpace t (sessionAt t (slotOf p t))) ((if paramOf p 0x20 8 = 0 then 0 else t.cad.beat + paramOf p 0x20 8)) t = none))
    ∧ (∃ (p : Packet) (s : State) (t : State) (dest : _) (t1 : _), (opcodeOf p = 0x24) ∧ (passes behindRevive p s = some t) ∧ ((sessionAt t (slotOf p t)).d.state = 1) ∧ (slotsReady t = true) ∧ ((sessionAt t (slotOf p t)).d.copying = false) ∧ ((sessionAt t (slotOf p t)).d.parkPending = false) ∧ ((∀ o ∈ t.tier.ops, o.slot ≠ slotOf p t)) ∧ (placePark (slotOf p t) (parkSpace t (sessionAt t (slotOf p t))) ((if paramOf p 0x20 8 = 0 then 0 else t.cad.beat + paramOf p 0x20 8)) t = some (dest, t1)) ∧ (moverFits (parkBytes t (sessionAt t (slotOf p t)) (parkGrade t (sessionAt t (slotOf p t)))) ((if parkGrade t (sessionAt t (slotOf p t)) = 0 then tileBytesOf t (sessionAt t (slotOf p t)) else parkBytes t (sessionAt t (slotOf p t)) (parkGrade t (sessionAt t (slotOf p t))))) t1 = false))
    ∧ (∃ (p : Packet) (s : State) (t : State) (dest : _) (t1 : _), (opcodeOf p = 0x24) ∧ (passes behindRevive p s = some t) ∧ ((sessionAt t (slotOf p t)).d.state = 1) ∧ (slotsReady t = true) ∧ ((sessionAt t (slotOf p t)).d.copying = false) ∧ ((sessionAt t (slotOf p t)).d.parkPending = false) ∧ ((∀ o ∈ t.tier.ops, o.slot ≠ slotOf p t)) ∧ (placePark (slotOf p t) (parkSpace t (sessionAt t (slotOf p t))) ((if paramOf p 0x20 8 = 0 then 0 else t.cad.beat + paramOf p 0x20 8)) t = some (dest, t1)) ∧ (moverFits (parkBytes t (sessionAt t (slotOf p t)) (parkGrade t (sessionAt t (slotOf p t)))) ((if parkGrade t (sessionAt t (slotOf p t)) = 0 then tileBytesOf t (sessionAt t (slotOf p t)) else parkBytes t (sessionAt t (slotOf p t)) (parkGrade t (sessionAt t (slotOf p t))))) t1 = true))
    ∧ (∃ (p : Packet) (s : State) (t : State), (opcodeOf p = 0x25) ∧ (passes behindAppend p s = some t) ∧ ((sessionAt t (slotOf p t)).d.state = 3) ∧ (slotsReady t = true) ∧ ((sessionAt t (slotOf p t)).exported = false) ∧ ((∀ o ∈ t.tier.ops, o.slot ≠ slotOf p t)) ∧ (t1Free t < reviveNeed t (sessionAt t (slotOf p t))))
    ∧ (∃ (p : Packet) (s : State) (t : State), (opcodeOf p = 0x25) ∧ (passes behindAppend p s = some t) ∧ ((sessionAt t (slotOf p t)).d.state = 3) ∧ (slotsReady t = true) ∧ ((sessionAt t (slotOf p t)).exported = false) ∧ ((∀ o ∈ t.tier.ops, o.slot ≠ slotOf p t)) ∧ (reviveNeed t (sessionAt t (slotOf p t)) ≤ t1Free t) ∧ (moverFits (tileBytesOf t (sessionAt t (slotOf p t))) (reviveCodec t (sessionAt t (slotOf p t))) t = false))
    ∧ (∃ (p : Packet) (s : State) (t : State), (opcodeOf p = 0x25) ∧ (passes behindAppend p s = some t) ∧ ((sessionAt t (slotOf p t)).d.state = 3) ∧ (slotsReady t = true) ∧ ((sessionAt t (slotOf p t)).exported = false) ∧ ((∀ o ∈ t.tier.ops, o.slot ≠ slotOf p t)) ∧ (reviveNeed t (sessionAt t (slotOf p t)) ≤ t1Free t) ∧ (moverFits (tileBytesOf t (sessionAt t (slotOf p t))) (reviveCodec t (sessionAt t (slotOf p t))) t = true))
    ∧ (∃ (p : Packet) (s : State) (t : State), (opcodeOf p = 0x25) ∧ (passes behindAppend p s = some t) ∧ ((sessionAt t (slotOf p t)).d.state = 3) ∧ (slotsReady t = true) ∧ ((sessionAt t (slotOf p t)).exported = true))
    ∧ (∃ (p : Packet) (s : State) (t : State), (opcodeOf p = 0x25) ∧ (passes behindAppend p s = some t) ∧ ((sessionAt t (slotOf p t)).d.state = 3) ∧ (slotsReady t = true) ∧ ((sessionAt t (slotOf p t)).exported = false) ∧ (opOf t (slotOf p t) (fun o => o.kind == .sessionOut) = none) ∧ ((opOf t (slotOf p t) isRevive).isSome = true)) :=
  ⟨⟨(packet 36 0 handle0 [] (leBytes 8 0 ++ leBytes 8 0) 0), (served (packet 36 0 handle0 [] (leBytes 8 0 ++ leBytes 8 0) 0) ({ resident with tier := { resident.tier with t2Total := 0 } } : State)), (after behindRevive (packet 36 0 handle0 [] (leBytes 8 0 ++ leBytes 8 0) 0) (served (packet 36 0 handle0 [] (leBytes 8 0 ++ leBytes 8 0) 0) ({ resident with tier := { resident.tier with t2Total := 0 } } : State))), by decide +kernel⟩,
   ⟨(packet 36 0 handle0 [] (leBytes 8 0 ++ leBytes 8 0) 0), (served (packet 36 0 handle0 [] (leBytes 8 0 ++ leBytes 8 0) 0) (withImage { image with slots := image.slots.take 2 } resident)), (after behindRevive (packet 36 0 handle0 [] (leBytes 8 0 ++ leBytes 8 0) 0) (served (packet 36 0 handle0 [] (leBytes 8 0 ++ leBytes 8 0) 0) (withImage { image with slots := image.slots.take 2 } resident))), 2, (after behindRevive (packet 36 0 handle0 [] (leBytes 8 0 ++ leBytes 8 0) 0) (served (packet 36 0 handle0 [] (leBytes 8 0 ++ leBytes 8 0) 0) (withImage { image with slots := image.slots.take 2 } resident))), by decide +kernel⟩,
   ⟨(packet 36 0 handle0 [] (leBytes 8 5 ++ leBytes 8 0) 0), (served (packet 36 0 handle0 [] (leBytes 8 5 ++ leBytes 8 0) 0) resident), (after behindRevive (packet 36 0 handle0 [] (leBytes 8 5 ++ leBytes 8 0) 0) (served (packet 36 0 handle0 [] (leBytes 8 5 ++ leBytes 8 0) 0) resident)), 2, (after behindRevive (packet 36 0 handle0 [] (leBytes 8 5 ++ leBytes 8 0) 0) (served (packet 36 0 handle0 [] (leBytes 8 5 ++ leBytes 8 0) 0) resident)), by decide +kernel⟩,
   ⟨(packet 37 0 handle0 [] [] 0), (served (packet 37 0 handle0 [] [] 0) ({ parked with tier := { parked.tier with t1Total := 0 } } : State)), (after behindAppend (packet 37 0 handle0 [] [] 0) (served (packet 37 0 handle0 [] [] 0) ({ parked with tier := { parked.tier with t1Total := 0 } } : State))), by decide +kernel⟩,
   ⟨(packet 37 0 handle0 [] [] 0), (served (packet 37 0 handle0 [] [] 0) (withImage { image with slots := image.slots.take 2 } parked)), (after behindAppend (packet 37 0 handle0 [] [] 0) (served (packet 37 0 handle0 [] [] 0) (withImage { image with slots := image.slots.take 2 } parked))), by decide +kernel⟩,
   ⟨(packet 37 0 handle0 [] [] 0), (served (packet 37 0 handle0 [] [] 0) parked), (after behindAppend (packet 37 0 handle0 [] [] 0) (served (packet 37 0 handle0 [] [] 0) parked)), by decide +kernel⟩,
   ⟨(packet 37 0 handle0 [] [] 0), (served (packet 37 0 handle0 [] [] 0) (running (withSession { parkedSession with exported := true } 2 bound))), (after behindAppend (packet 37 0 handle0 [] [] 0) (served (packet 37 0 handle0 [] [] 0) (running (withSession { parkedSession with exported := true } 2 bound)))), by decide +kernel⟩,
   ⟨(packet 37 0 handle0 [] [] 0), (served (packet 37 0 handle0 [] [] 0) ({ parked with tier := { parked.tier with ops := [({ id := 0, kind := .revive, slot := 0, begun := false, moveBytes := 10, codecBytes := 10, grade := 0, buffer := 0, client := 0, needRead := false, readDone := false, bytesDone := false, dest := 1 } : MoverOp)] } } : State)), (after behindAppend (packet 37 0 handle0 [] [] 0) (served (packet 37 0 handle0 [] [] 0) ({ parked with tier := { parked.tier with ops := [({ id := 0, kind := .revive, slot := 0, begun := false, moveBytes := 10, codecBytes := 10, grade := 0, buffer := 0, client := 0, needRead := false, readDone := false, bytesDone := false, dest := 1 } : MoverOp)] } } : State))), by decide +kernel⟩⟩

theorem met_ExportAndImportScheduled :
    (∃ (p : Packet) (s : State) (t : State), (opcodeOf p = 0x2A) ∧ (passes behindShift p s = some t) ∧ (((sessionAt t (slotOf p t)).d.state = 1 ∨ (sessionAt t (slotOf p t)).d.state = 3)) ∧ (slotsReady t = true) ∧ ((sessionAt t (slotOf p t)).exported = false) ∧ ((sessionAt t (slotOf p t)).handover = none) ∧ ((∀ o ∈ t.tier.ops, o.slot ≠ slotOf p t)) ∧ (writtenBytes t (worstCapsule t (sessionAt t (slotOf p t))) ≤ bufLen p 0x20) ∧ (moverFits ((if (sessionAt t (slotOf p t)).d.state = 1 then parkBytes t (sessionAt t (slotOf p t)) (parkGrade t (sessionAt t (slotOf p t))) else storedBytes t (sessionAt t (slotOf p t)))) ((if (sessionAt t (slotOf p t)).d.state = 1 then (if parkGrade t (sessionAt t (slotOf p t)) = 0 then tileBytesOf t (sessionAt t (slotOf p t)) else ((if (sessionAt t (slotOf p t)).d.state = 1 then parkBytes t (sessionAt t (slotOf p t)) (parkGrade t (sessionAt t (slotOf p t))) else storedBytes t (sessionAt t (slotOf p t))))) else 0)) t = false))
    ∧ (∃ (p : Packet) (s : State) (t : State), (opcodeOf p = 0x2A) ∧ (passes behindShift p s = some t) ∧ (((sessionAt t (slotOf p t)).d.state = 1 ∨ (sessionAt t (slotOf p t)).d.state = 3)) ∧ (slotsReady t = true) ∧ ((sessionAt t (slotOf p t)).exported = false) ∧ ((sessionAt t (slotOf p t)).handover = none) ∧ ((∀ o ∈ t.tier.ops, o.slot ≠ slotOf p t)) ∧ (writtenBytes t (worstCapsule t (sessionAt t (slotOf p t))) ≤ bufLen p 0x20) ∧ (moverFits ((if (sessionAt t (slotOf p t)).d.state = 1 then parkBytes t (sessionAt t (slotOf p t)) (parkGrade t (sessionAt t (slotOf p t))) else storedBytes t (sessionAt t (slotOf p t)))) ((if (sessionAt t (slotOf p t)).d.state = 1 then (if parkGrade t (sessionAt t (slotOf p t)) = 0 then tileBytesOf t (sessionAt t (slotOf p t)) else ((if (sessionAt t (slotOf p t)).d.state = 1 then parkBytes t (sessionAt t (slotOf p t)) (parkGrade t (sessionAt t (slotOf p t))) else storedBytes t (sessionAt t (slotOf p t))))) else 0)) t = true))
    ∧ (∃ (p : Packet) (cap : SessionCapsule) (q : Partition) (slot : Nat) (s : State) (t : State) (a : _), (opcodeOf p = 0x2B) ∧ (passes behindAppend p s = some t) ∧ (partitionAt t (argOf p 20 1) = some q) ∧ (liveSlot t (handleOf p) = none) ∧ (slotsReady t = true) ∧ (isLeaving t = false) ∧ (nextSlot t = some slot) ∧ (importRefusal p (argOf p 20 1) q cap (placePark slot (incomingBytes cap.body) cap.body.wake t).isSome t = some a))
    ∧ (∃ (p : Packet) (cap : SessionCapsule) (q : Partition) (slot : Nat) (s : State) (t : State), (opcodeOf p = 0x2B) ∧ (passes behindAppend p s = some t) ∧ (partitionAt t (argOf p 20 1) = some q) ∧ (liveSlot t (handleOf p) = none) ∧ (slotsReady t = true) ∧ (isLeaving t = false) ∧ (nextSlot t = some slot) ∧ (importRefusal p (argOf p 20 1) q cap (placePark slot (incomingBytes cap.body) cap.body.wake t).isSome t = none) ∧ (moverFits (incomingBytes cap.body) 0 t = true))
    ∧ (∃ (p : Packet) (cap : SessionCapsule) (q : Partition) (slot : Nat) (s : State) (t : State), (opcodeOf p = 0x2B) ∧ (passes behindAppend p s = some t) ∧ (partitionAt t (argOf p 20 1) = some q) ∧ (liveSlot t (handleOf p) = some slot) ∧ ((sessionAt t slot).d.state = 3) ∧ ((sessionAt t slot).exported = true) ∧ (opOf t slot (fun o => o.kind == .sessionIn) = none) ∧ (slotsReady t = true) ∧ (importRefusal p (argOf p 20 1) q cap (placePark slot (incomingBytes cap.body) (sessionAt t slot).d.wake t).isSome t = none) ∧ (moverFits (incomingBytes cap.body) 0 t = true)) :=
  ⟨⟨(packet 42 0 handle0 [] (buf 0x8000 100000000) 0), (served (packet 42 0 handle0 [] (buf 0x8000 100000000) 0) (withImage { image with slots := image.slots.take 2 } resident)), (after behindShift (packet 42 0 handle0 [] (buf 0x8000 100000000) 0) (served (packet 42 0 handle0 [] (buf 0x8000 100000000) 0) (withImage { image with slots := image.slots.take 2 } resident))), by decide +kernel⟩,
   ⟨(packet 42 0 handle0 [] (buf 0x8000 100000000) 0), (served (packet 42 0 handle0 [] (buf 0x8000 100000000) 0) resident), (after behindShift (packet 42 0 handle0 [] (buf 0x8000 100000000) 0) (served (packet 42 0 handle0 [] (buf 0x8000 100000000) 0) resident)), by decide +kernel⟩,
   ⟨({ plain 0x2B [0] (buf 0x8000 1000) with envs := [envelope 4 1] } : Packet), ({ cap0 with magic := 0 } : SessionCapsule), part0, 0, (served ({ plain 0x2B [0] (buf 0x8000 1000) with envs := [envelope 4 1] } : Packet) (running bound)), (after behindAppend ({ plain 0x2B [0] (buf 0x8000 1000) with envs := [envelope 4 1] } : Packet) (served ({ plain 0x2B [0] (buf 0x8000 1000) with envs := [envelope 4 1] } : Packet) (running bound))), (bad 0x20), by decide +kernel⟩,
   ⟨({ plain 0x2B [0] (buf 0x8000 1000) with envs := [envelope 4 1] } : Packet), cap0, part0, 0, (served ({ plain 0x2B [0] (buf 0x8000 1000) with envs := [envelope 4 1] } : Packet) (running bound)), (after behindAppend ({ plain 0x2B [0] (buf 0x8000 1000) with envs := [envelope 4 1] } : Packet) (served ({ plain 0x2B [0] (buf 0x8000 1000) with envs := [envelope 4 1] } : Packet) (running bound))), by decide +kernel⟩,
   ⟨({ packet 0x2B 0 handle0 [0] (buf 0x8000 1000) with envs := [envelope 4 1] } : Packet), cap0, part0, 0, (served ({ packet 0x2B 0 handle0 [0] (buf 0x8000 1000) with envs := [envelope 4 1] } : Packet) (running (withSession { parkedSession with exported := true } 2 bound))), (after behindAppend ({ packet 0x2B 0 handle0 [0] (buf 0x8000 1000) with envs := [envelope 4 1] } : Packet) (served ({ packet 0x2B 0 handle0 [0] (buf 0x8000 1000) with envs := [envelope 4 1] } : Packet) (running (withSession { parkedSession with exported := true } 2 bound)))), by decide +kernel⟩⟩

theorem met_HandoversAtSource :
    (∃ (p : Packet) (s : State) (t : State), (opcodeOf p = 0x30) ∧ (passes behindShift p s = some t) ∧ ((sessionAt t (slotOf p t)).d.state ∈ [1, 2, 3]) ∧ (isMember t (argOf p 20 2) = false))
    ∧ (∃ (p : Packet) (s : State) (t : State), (opcodeOf p = 0x30) ∧ (passes behindShift p s = some t) ∧ ((sessionAt t (slotOf p t)).d.state ∈ [1, 2, 3]) ∧ (isMember t (argOf p 20 2) = true) ∧ ((sessionAt t (slotOf p t)).handover ≠ none))
    ∧ (∃ (p : Packet) (s : State) (t : State), (opcodeOf p = 0x30) ∧ (passes behindShift p s = some t) ∧ ((sessionAt t (slotOf p t)).d.state ∈ [1, 2, 3]) ∧ (isMember t (argOf p 20 2) = true) ∧ (slotsReady t = true) ∧ ((sessionAt t (slotOf p t)).handover = none) ∧ ((∀ o ∈ t.tier.ops, o.slot ≠ slotOf p t)) ∧ (256 < migrHeld t + 4))
    ∧ (∃ (p : Packet) (s : State) (t : State), (opcodeOf p = 0x30) ∧ (passes behindShift p s = some t) ∧ ((sessionAt t (slotOf p t)).d.state ∈ [1, 2, 3]) ∧ (isMember t (argOf p 20 2) = true) ∧ (slotsReady t = true) ∧ ((sessionAt t (slotOf p t)).handover = none) ∧ ((∀ o ∈ t.tier.ops, o.slot ≠ slotOf p t)) ∧ (migrHeld t + 4 ≤ 256) ∧ ((sessionAt t (slotOf p t)).d.state ≠ 3) ∧ (moverFits (2 * tileBytesOf t (sessionAt t (slotOf p t))) 0 t = false))
    ∧ (∃ (p : Packet) (s : State) (t : State), (opcodeOf p = 0x30) ∧ (passes behindShift p s = some t) ∧ ((sessionAt t (slotOf p t)).d.state ∈ [1, 2, 3]) ∧ (isMember t (argOf p 20 2) = true) ∧ (slotsReady t = true) ∧ ((sessionAt t (slotOf p t)).handover = none) ∧ ((∀ o ∈ t.tier.ops, o.slot ≠ slotOf p t)) ∧ (migrHeld t + 4 ≤ 256) ∧ (((sessionAt t (slotOf p t)).d.state = 3 ∨ moverFits (2 * tileBytesOf t (sessionAt t (slotOf p t))) 0 t = true)))
    ∧ (∃ (p : Packet) (s : State) (t : State), (opcodeOf p = 0x31) ∧ (passes never p s = some t) ∧ (partitionAt t (argOf p 20 1) = none))
    ∧ (∃ (p : Packet) (s : State) (t : State), (opcodeOf p = 0x31) ∧ (passes never p s = some t) ∧ (partitionAt t (argOf p 20 1) ≠ none) ∧ (4095 < argOf p 22 2) ∧ (argOf p 22 2 ≠ 0xFFFF))
    ∧ (∃ (p : Packet) (s : State) (t : State), (opcodeOf p = 0x31) ∧ (passes never p s = some t) ∧ (partitionAt t (argOf p 20 1) ≠ none) ∧ ((argOf p 22 2 ≤ 4095 ∨ argOf p 22 2 = 0xFFFF)) ∧ (slotsServed t = true))
    ∧ (∃ (handle : Nat) (status : Nat) (slot : Nat) (ho : Handover) (s : State), (liveSlot s handle = some slot) ∧ ((sessionAt s slot).handover = some ho) ∧ (ho.source = true) ∧ (ho.newHandle = 0) ∧ (status ≠ stOK))
    ∧ (∃ (handle : Nat) (slot : Nat) (ho : Handover) (s : State), (liveSlot s handle = some slot) ∧ ((sessionAt s slot).handover = some ho) ∧ (ho.source = true) ∧ (ho.newHandle = 0) ∧ (ho.prior ≠ 3))
    ∧ (∃ (handle : Nat) (slot : Nat) (ho : Handover) (s : State), (liveSlot s handle = some slot) ∧ ((sessionAt s slot).handover = some ho) ∧ (ho.source = true) ∧ (ho.newHandle = 0) ∧ (ho.prior = 3))
    ∧ (∃ (handle : Nat) (newHandle : Nat) (slot : Nat) (epoch : Nat) (ho : Handover) (s : State), (liveSlot s handle = some slot) ∧ ((sessionAt s slot).handover = some ho) ∧ (ho.source = true) ∧ (ho.newHandle = newHandle) ∧ (ho.finalSent = true) ∧ ((epoch = s.comp.epoch ∨ epoch = s.comp.previous)))
    ∧ (∃ (handle : Nat) (s : State), (liveSlot s handle = none))
    ∧ (∃ (slot : Nat) (ho : Handover) (s : State), ((sessionAt s slot).handover = some ho) ∧ (ho.source = true) ∧ (ho.newHandle ≠ 0))
    ∧ (∃ (handle : Nat) (newHandle : Nat) (slot : Nat) (status : Nat) (ho : Handover) (s : State), (targetSlot s newHandle = none) ∧ (liveSlot s handle = some slot) ∧ ((sessionAt s slot).handover = some ho) ∧ (ho.source = true) ∧ (ho.newHandle = newHandle) ∧ (status ≠ stOK)) :=
  ⟨⟨(packet 48 0 handle0 (leBytes 2 4) [] 0), (served (packet 48 0 handle0 (leBytes 2 4) [] 0) (member resident)), (after behindShift (packet 48 0 handle0 (leBytes 2 4) [] 0) (served (packet 48 0 handle0 (leBytes 2 4) [] 0) (member resident))), by decide +kernel⟩,
   ⟨(packet 48 0 handle0 (leBytes 2 3) [] 0), (served (packet 48 0 handle0 (leBytes 2 3) [] 0) (running (withSession { session0 with handover := some ⟨true, 3, 0, 77, 1, false, false, false, 0⟩ } 1 (member bound)))), (after behindShift (packet 48 0 handle0 (leBytes 2 3) [] 0) (served (packet 48 0 handle0 (leBytes 2 3) [] 0) (running (withSession { session0 with handover := some ⟨true, 3, 0, 77, 1, false, false, false, 0⟩ } 1 (member bound))))), by decide +kernel⟩,
   ⟨(packet 48 0 handle0 (leBytes 2 3) [] 0), (served (packet 48 0 handle0 (leBytes 2 3) [] 0) ({ (member resident) with slots := { (member resident).slots with table := (member resident).slots.table ++ (List.range 64).map (fun i => (i + 1, { session0 with handover := some ⟨true, 3, 0, 77, 1, false, false, false, 0⟩ })) } } : State)), (after behindShift (packet 48 0 handle0 (leBytes 2 3) [] 0) (served (packet 48 0 handle0 (leBytes 2 3) [] 0) ({ (member resident) with slots := { (member resident).slots with table := (member resident).slots.table ++ (List.range 64).map (fun i => (i + 1, { session0 with handover := some ⟨true, 3, 0, 77, 1, false, false, false, 0⟩ })) } } : State))), by decide +kernel⟩,
   ⟨(packet 48 0 handle0 (leBytes 2 3) [] 0), (served (packet 48 0 handle0 (leBytes 2 3) [] 0) (withImage { image with slots := image.slots.take 2 } (member resident))), (after behindShift (packet 48 0 handle0 (leBytes 2 3) [] 0) (served (packet 48 0 handle0 (leBytes 2 3) [] 0) (withImage { image with slots := image.slots.take 2 } (member resident)))), by decide +kernel⟩,
   ⟨(packet 48 0 handle0 (leBytes 2 3) [] 0), (served (packet 48 0 handle0 (leBytes 2 3) [] 0) (member resident)), (after behindShift (packet 48 0 handle0 (leBytes 2 3) [] 0) (served (packet 48 0 handle0 (leBytes 2 3) [] 0) (member resident))), by decide +kernel⟩,
   ⟨(plain 49 ([1, 0] ++ leBytes 2 3 ++ leBytes 4 5) []), (served (plain 49 ([1, 0] ++ leBytes 2 3 ++ leBytes 4 5) []) (member (running bound))), (after never (plain 49 ([1, 0] ++ leBytes 2 3 ++ leBytes 4 5) []) (served (plain 49 ([1, 0] ++ leBytes 2 3 ++ leBytes 4 5) []) (member (running bound)))), by decide +kernel⟩,
   ⟨(plain 49 ([0, 0] ++ leBytes 2 4096 ++ leBytes 4 5) []), (served (plain 49 ([0, 0] ++ leBytes 2 4096 ++ leBytes 4 5) []) (member (running bound))), (after never (plain 49 ([0, 0] ++ leBytes 2 4096 ++ leBytes 4 5) []) (served (plain 49 ([0, 0] ++ leBytes 2 4096 ++ leBytes 4 5) []) (member (running bound)))), by decide +kernel⟩,
   ⟨(plain 49 ([0, 0] ++ leBytes 2 0xFFFF ++ leBytes 4 5) []), (served (plain 49 ([0, 0] ++ leBytes 2 0xFFFF ++ leBytes 4 5) []) (member (running bound))), (after never (plain 49 ([0, 0] ++ leBytes 2 0xFFFF ++ leBytes 4 5) []) (served (plain 49 ([0, 0] ++ leBytes 2 0xFFFF ++ leBytes 4 5) []) (member (running bound)))), by decide +kernel⟩,
   ⟨handle0, 0x20, 0, (⟨true, 3, 0, 77, 2, false, false, false, 0⟩ : Handover), (handing 2 0 2 true false up), by decide +kernel⟩,
   ⟨handle0, 0, (⟨true, 3, 0, 77, 2, false, false, false, 0⟩ : Handover), (handing 2 0 2 true false up), by decide +kernel⟩,
   ⟨handle0, 0, (⟨true, 3, 0, 77, 3, false, false, false, 0⟩ : Handover), (handing 3 0 3 true false up), by decide +kernel⟩,
   ⟨handle0, 88, 0, 0, (⟨true, 3, 88, 77, 2, false, true, false, 0⟩ : Handover), (handing 2 88 2 true true up), by decide +kernel⟩,
   ⟨handle0, up, by decide +kernel⟩,
   ⟨0, (⟨true, 3, 88, 77, 2, false, true, false, 0⟩ : Handover), (handing 2 88 2 true true up), by decide +kernel⟩,
   ⟨handle0, 88, 0, 0x20, (⟨true, 3, 88, 77, 2, false, true, false, 0⟩ : Handover), (handing 2 88 2 true true up), by decide +kernel⟩⟩

theorem met_HandoversAtTarget :
    (∃ (newHandle : Nat) (slot : Nat) (ho : Handover) (s : State), (targetSlot s newHandle = some slot) ∧ ((sessionAt s slot).handover = some ho) ∧ (ho.prior ≠ 3))
    ∧ (∃ (newHandle : Nat) (slot : Nat) (ho : Handover) (s : State), (targetSlot s newHandle = some slot) ∧ ((sessionAt s slot).handover = some ho) ∧ (ho.prior = 3))
    ∧ (∃ (newHandle : Nat) (slot : Nat) (s : State), (targetSlot s newHandle = some slot))
    ∧ (∃ (n : SessionNotice) (slot : Nat) (s : State), (targetSlot s n.handle = some slot))
    ∧ (∃ (slot : Nat) (ho : Handover) (s : State), ((sessionAt s slot).d.state = 4) ∧ ((sessionAt s slot).handover = some ho) ∧ (ho.source = false))
    ∧ (∃ (slot : Nat) (s : State), ((sessionAt s slot).d.state = 5))
    ∧ (∃ (r : HoRequest) (slot : Nat) (g : Nat × Nat × Nat) (s : State), (hoStatus r s = stOK) ∧ (nextSlot s = some slot) ∧ (grantOpen s r.partition r.source = some g))
    ∧ (∃ (r : HoRequest) (s : State), (hoStatus r s ≠ stOK))
    ∧ (∃ (r : HoRequest) (s : State), (grantOpen s r.partition r.source = none)) :=
  ⟨⟨handle0, 0, (⟨false, 3, handle0, 77, 2, false, false, false, 0⟩ : Handover), (handing 4 handle0 2 false false bound), by decide +kernel⟩,
   ⟨handle0, 0, (⟨false, 3, handle0, 77, 3, false, false, false, 0⟩ : Handover), (handing 4 handle0 3 false false bound), by decide +kernel⟩,
   ⟨handle0, 0, (handing 4 handle0 2 false false bound), by decide +kernel⟩,
   ⟨(⟨handle0, 0x20, 0, 0, 0⟩ : SessionNotice), 0, (handing 4 handle0 2 false false bound), by decide +kernel⟩,
   ⟨0, (⟨false, 3, handle0, 77, 2, false, false, false, 0⟩ : Handover), (handing 4 handle0 2 false false bound), by decide +kernel⟩,
   ⟨0, (handing 5 88 2 true true bound), by decide +kernel⟩,
   ⟨(⟨3, 77, 0, 1, 1, 1, 40, 5, [(0, 1)]⟩ : HoRequest), 0, (0, 3, 1), (granting (running bound)), by decide +kernel⟩,
   ⟨(⟨3, 77, 0, 1, 1, 1, 40, 5, [(0, 1)]⟩ : HoRequest), up, by decide +kernel⟩,
   ⟨(⟨3, 77, 0, 1, 1, 1, 40, 5, [(0, 1)]⟩ : HoRequest), up, by decide +kernel⟩⟩

theorem met_TileStored :
    (∃ (newHandle : Nat) (pageNo : Nat) (tile : Nat) (slot : Nat) (ho : Handover) (q : Partition) (bytes : Bytes) (s : State), (liveSlot s newHandle = some slot) ∧ ((sessionAt s slot).d.state = 4) ∧ ((sessionAt s slot).handover = some ho) ∧ (ho.source = false) ∧ (partitionAt s (sessionAt s slot).d.partition = some q) ∧ ((pageFrame (sessionAt s slot) pageNo ≠ none ∨ ∀ g ∈ (sessionAt s slot).pages, g.no ≠ pageNo)) ∧ (tile < tilesPerPage q) ∧ (bytes.length = tileBytes q) ∧ (Memory.wf s.mem = true))
    ∧ (∃ (newHandle : Nat) (pageNo : Nat) (tile : Nat) (q : Partition) (bytes : Bytes) (s : State), (liveSlot s newHandle = none) ∧ (handleHome newHandle ≠ ownIndex s) ∧ (partitionAt s (handlePart newHandle) = some q) ∧ ((pageFrame (guestAt s newHandle) pageNo ≠ none ∨ ∀ g ∈ (guestAt s newHandle).pages, g.no ≠ pageNo)) ∧ (tile < tilesPerPage q) ∧ (bytes.length = tileBytes q) ∧ (Memory.wf s.mem = true)) :=
  ⟨⟨handle0, 0, (tilesPerPage part0 - 1), 0, (⟨false, 3, handle0, 77, 2, false, false, false, 0⟩ : Handover), part0, (List.replicate (tileBytes part0) 7), (handing 4 handle0 2 false false bound), by decide +kernel⟩,
   ⟨(makeHandle 0 1 0 3), 5, 0, part0, (List.replicate (tileBytes part0) 7), bound, by decide +kernel⟩⟩

theorem met_MessagesBetweenMembers :
    (∃ (p : Packet), (awaitsData p = true))
    ∧ (∃ (sender : Nat) (p : Packet) (s : State) (u : _) (a : _), (awaitsData p = false) ∧ (checkHandle p 0 ((if s.comp.relayed.contains (sender, p) then s else { s with comp := { s.comp with relayed := s.comp.relayed ++ [(sender, p)] } })) = .refuse u a))
    ∧ (∃ (sender : Nat) (p : Packet) (s : State) (dest : _) (u : _), (awaitsData p = false) ∧ (checkHandle p 0 ((if s.comp.relayed.contains (sender, p) then s else { s with comp := { s.comp with relayed := s.comp.relayed ++ [(sender, p)] } })) = .forward dest u))
    ∧ (∃ (sender : Nat) (p : Packet) (s : State) (c : _) (u : _), (awaitsData p = false) ∧ (checkHandle p 0 ((if s.comp.relayed.contains (sender, p) then s else { s with comp := { s.comp with relayed := s.comp.relayed ++ [(sender, p)] } })) = .run c u) ∧ (forwardedWaits p u = true))
    ∧ (∃ (sender : Nat) (p : Packet) (s : State) (c : _) (u : _) (body : _), ((awaitsData p = false) ∧ (checkHandle p 0 ((if s.comp.relayed.contains (sender, p) then s else { s with comp := { s.comp with relayed := s.comp.relayed ++ [(sender, p)] } })) = .run c u) ∧ (forwardedWaits p u = false)) ∧ (forwardedBody p [] none = some body))
    ∧ (∃ (source : Nat) (tag : Nat) (sender : Nat) (p : Packet) (s : State) (u : _) (a : _), (s.comp.relayed.find? (fun e => e.1 == source && tagOf e.2 == tag && awaitsData e.2) = some (sender, p)) ∧ (checkHandle p 0 s = .refuse u a))
    ∧ (∃ (source : Nat) (tag : Nat) (sender : Nat) (p : Packet) (s : State) (dest : _) (u : _), (s.comp.relayed.find? (fun e => e.1 == source && tagOf e.2 == tag && awaitsData e.2) = some (sender, p)) ∧ (checkHandle p 0 s = .forward dest u))
    ∧ (∃ (source : Nat) (tag : Nat) (sender : Nat) (p : Packet) (s : State) (c : _) (u : _), (s.comp.relayed.find? (fun e => e.1 == source && tagOf e.2 == tag && awaitsData e.2) = some (sender, p)) ∧ (checkHandle p 0 s = .run c u) ∧ (forwardedWaits p u = true))
    ∧ (∃ (source : Nat) (tag : Nat) (sender : Nat) (data : Bytes) (cap : Option SessionCapsule) (p : Packet) (s : State) (c : _) (u : _) (body : _), ((s.comp.relayed.find? (fun e => e.1 == source && tagOf e.2 == tag && awaitsData e.2) = some (sender, p)) ∧ (checkHandle p 0 s = .run c u) ∧ (forwardedWaits p u = false)) ∧ (forwardedBody p data cap = some body))
    ∧ (∃ (source : Nat) (tag : Nat) (s : State), (s.comp.relayed.find? (fun e => e.1 == source && tagOf e.2 == tag && awaitsData e.2) = none) ∧ (forwardedCommand s none tag = none))
    ∧ (∃ (source : Nat) (tag : Nat) (s : State) (c : _) (d : _), (s.comp.relayed.find? (fun e => e.1 == source && tagOf e.2 == tag && awaitsData e.2) = none) ∧ (forwardedCommand s none tag = some c) ∧ (c.origin.sender = some d))
    ∧ (∃ (source : Nat) (tag : Nat) (s : State) (c : _), (s.comp.relayed.find? (fun e => e.1 == source && tagOf e.2 == tag && awaitsData e.2) = none) ∧ (forwardedCommand s none tag = some c) ∧ (c.origin.sender = none) ∧ (s.sec.bound = false))
    ∧ (∃ (client : Nat) (tag : Nat) (s : State), (forwardedCommand s (some client) tag = none))
    ∧ (∃ (client : Nat) (tag : Nat) (s : State) (c : _), (forwardedCommand s (some client) tag = some c) ∧ (c.origin.sender = none) ∧ (c.origin.client = client) ∧ (ringOk (clientOf s client) = true) ∧ (s.host.lost = false))
    ∧ (∃ (part : Nat) (step : Nat) (q : Partition) (s : State), (partitionAt s part = some q) ∧ (q.position = 0) ∧ (s.sched.step ≤ step))
    ∧ (∃ (part : Nat) (step : Nat) (q : Partition) (s : State), (partitionAt s part = some q) ∧ ((q.position ≠ 0 ∨ step < s.sched.step)))
    ∧ (∃ (m : SealMsg) (q : Partition) (s : State), (partitionAt s m.partition = some q) ∧ (q.position ≠ 0) ∧ (m.step = s.sched.step + 1))
    ∧ (∃ (m : SealMsg) (q : Partition) (s : State), (partitionAt s m.partition = some q) ∧ ((q.position = 0 ∨ m.step ≠ s.sched.step + 1))) :=
  ⟨⟨(packet 43 0 handle0 [] [] 0), by decide +kernel⟩,
   ⟨3, (packet 38 0 0 [] [] 0), ({ (member resident) with comp := { (member resident).comp with relayed := [(3, (packet 38 0 0 [] [] 0))] } } : State), ({ (member resident) with comp := { (member resident).comp with relayed := [(3, (packet 38 0 0 [] [] 0))] } } : State), (bad 0x0008), by decide +kernel⟩,
   ⟨3, (packet 38 0 (makeHandle 0 1 0 3) [] [] 0), ({ (member resident) with comp := { (member resident).comp with relayed := [(3, (packet 38 0 (makeHandle 0 1 0 3) [] [] 0))] } } : State), 3, ({ (member resident) with comp := { (member resident).comp with relayed := [(3, (packet 38 0 (makeHandle 0 1 0 3) [] [] 0))] } } : State), by decide +kernel⟩,
   ⟨3, (packet 39 0 handle0 [] [] 0), ({ (running (withSession { session0 with tokenizing := some (1, [1]) } 1 (member bound))) with comp := { (running (withSession { session0 with tokenizing := some (1, [1]) } 1 (member bound))).comp with relayed := [(3, (packet 39 0 handle0 [] [] 0))] } } : State), 0, ({ (running (withSession { session0 with tokenizing := some (1, [1]) } 1 (member bound))) with comp := { (running (withSession { session0 with tokenizing := some (1, [1]) } 1 (member bound))).comp with relayed := [(3, (packet 39 0 handle0 [] [] 0))] } } : State), by decide +kernel⟩,
   ⟨3, (packet 38 0 handle0 [] [] 0), ({ (member resident) with comp := { (member resident).comp with relayed := [(3, (packet 38 0 handle0 [] [] 0))] } } : State), 0, ({ (member resident) with comp := { (member resident).comp with relayed := [(3, (packet 38 0 handle0 [] [] 0))] } } : State), cancelBody, by decide +kernel, rfl⟩,
   ⟨3, 7, 3, (packet 34 0 0 [1, 2] [] 0), ({ (member resident) with comp := { (member resident).comp with relayed := [(3, (packet 34 0 0 [1, 2] [] 0))] } } : State), ({ (member resident) with comp := { (member resident).comp with relayed := [(3, (packet 34 0 0 [1, 2] [] 0))] } } : State), (bad 0x0008), by decide +kernel⟩,
   ⟨3, 7, 3, (packet 34 0 (makeHandle 0 1 0 3) [1, 2] [] 0), ({ (member resident) with comp := { (member resident).comp with relayed := [(3, (packet 34 0 (makeHandle 0 1 0 3) [1, 2] [] 0))] } } : State), 3, ({ (member resident) with comp := { (member resident).comp with relayed := [(3, (packet 34 0 (makeHandle 0 1 0 3) [1, 2] [] 0))] } } : State), by decide +kernel⟩,
   ⟨3, 7, 3, (packet 34 0 handle0 [1, 2] [] 0), ({ (running (withSession { session0 with tokenizing := some (1, [1]) } 1 (member bound))) with comp := { (running (withSession { session0 with tokenizing := some (1, [1]) } 1 (member bound))).comp with relayed := [(3, (packet 34 0 handle0 [1, 2] [] 0))] } } : State), 0, ({ (running (withSession { session0 with tokenizing := some (1, [1]) } 1 (member bound))) with comp := { (running (withSession { session0 with tokenizing := some (1, [1]) } 1 (member bound))).comp with relayed := [(3, (packet 34 0 handle0 [1, 2] [] 0))] } } : State), by decide +kernel⟩,
   ⟨3, 7, 3, [1], none, (packet 34 0 handle0 [1, 2] [] 0), ({ (member resident) with comp := { (member resident).comp with relayed := [(3, (packet 34 0 handle0 [1, 2] [] 0))] } } : State), 0, ({ (member resident) with comp := { (member resident).comp with relayed := [(3, (packet 34 0 handle0 [1, 2] [] 0))] } } : State), (appendBodyCmd [1]), by decide +kernel, rfl⟩,
   ⟨3, 7, up, by decide +kernel⟩,
   ⟨3, 7, ({ up with commands := [⟨.forwarded 7, { origin0 with sender := (some 4) }⟩] } : State), (⟨.forwarded 7, { origin0 with sender := (some 4) }⟩ : Command), 4, by decide +kernel⟩,
   ⟨3, 7, ({ up with commands := [⟨.forwarded 7, { origin0 with sender := none }⟩] } : State), (⟨.forwarded 7, { origin0 with sender := none }⟩ : Command), by decide +kernel⟩,
   ⟨0, 7, up, by decide +kernel⟩,
   ⟨0, 7, ({ up with commands := [⟨.forwarded 7, { origin0 with sender := none }⟩] } : State), (⟨.forwarded 7, { origin0 with sender := none }⟩ : Command), by decide +kernel⟩,
   ⟨0, 1, part0, (running bound), by decide +kernel⟩,
   ⟨0, 0, part0, (running bound), by decide +kernel⟩,
   ⟨(⟨0, 0, 2, []⟩ : SealMsg), ({ part0 with position := 1 } : Partition), (atPosition 1 (running bound)), by decide +kernel⟩,
   ⟨(⟨0, 0, 1, []⟩ : SealMsg), ({ part0 with position := 1 } : Partition), (atPosition 1 (running bound)), by decide +kernel⟩⟩

theorem met_SessionAndDepartureNotices :
    (∃ (n : SessionNotice) (s : State), (handleHome n.handle ≠ ownIndex s))
    ∧ (∃ (n : SessionNotice) (s : State), (handleHome n.handle ≠ ownIndex s))
    ∧ (∃ (n : SessionNotice) (s : State), ((guestAt s n.handle).pages ≠ []) ∧ (handleHome n.handle ≠ ownIndex s) ∧ ((guestAt s n.handle).d.copying = false) ∧ (2 ^ 24 ≤ n.handle))
    ∧ (∃ (n : SessionNotice) (s : State), (handleHome n.handle = ownIndex s))
    ∧ (∃ (handle : Nat) (slot : Nat) (s : State), (liveSlot s handle = some slot))
    ∧ (∃ (handle : Nat) (s : State), (liveSlot s handle = none) ∧ (handleHome handle ≠ ownIndex s))
    ∧ (∃ (member : Nat) (rings : List Nat) (s : State), ((∃ r ∈ rings, r ∈ ringIds s)) ∧ ((∀ e ∈ s.sched.departures, e.1 ≠ member)))
    ∧ (∃ (member : Nat) (rings : List Nat) (s : State), ((∃ r ∈ rings, r ∈ ringIds s)) ∧ ((∃ e ∈ s.sched.departures, e.1 = member)))
    ∧ (∃ (rings : List Nat) (s : State), ((∀ r ∈ rings, r ∉ ringIds s)))
    ∧ (∃ (member : Nat) (img : Image) (s : State), (s.sched.active = some img) ∧ (member = ownIndex s ∨ ((img.rings.filter (fun r => r.members.contains member)).map (fun r => r.ringId)) = []))
    ∧ (∃ (member : Nat) (img : Image) (s : State), (s.sched.active = some img) ∧ (member ≠ ownIndex s) ∧ (((img.rings.filter (fun r => r.members.contains member)).map (fun r => r.ringId)) ≠ []) ∧ ((∀ e ∈ s.sched.departures, e.1 ≠ member)))
    ∧ (∃ (s : State), (s.sched.active = none)) :=
  ⟨⟨(⟨makeHandle 0 1 0 3, 0x20, 0, 0, 0⟩ : SessionNotice), up, by decide +kernel⟩,
   ⟨(⟨makeHandle 0 1 0 3, 0x20, 0, 0, 0⟩ : SessionNotice), up, by decide +kernel⟩,
   ⟨(⟨makeHandle 0 1 0 3, 0x20, 0, 0, 0⟩ : SessionNotice), ({ bound with slots := { bound.slots with guests := [(makeHandle 0 1 0 3, session0)] } } : State), by decide +kernel⟩,
   ⟨(⟨handle0, 0, 0, 0, 0⟩ : SessionNotice), resident, by decide +kernel⟩,
   ⟨handle0, 0, resident, by decide +kernel⟩,
   ⟨(makeHandle 0 1 0 3), up, by decide +kernel⟩,
   ⟨3, [9], (running bound), by decide +kernel⟩,
   ⟨3, [9], (departing [(3, 128, [9])] (running bound)), by decide +kernel⟩,
   ⟨[7], (running bound), by decide +kernel⟩,
   ⟨0, image, (running bound), by decide +kernel⟩,
   ⟨3, ({ image with rings := [{ ring0 with members := [0, 3] }] } : Image), (withImage ({ image with rings := [{ ring0 with members := [0, 3] }] } : Image) bound), by decide +kernel⟩,
   ⟨up, by decide +kernel⟩⟩

theorem met_CommonsKeepsCapsules :
    (∃ (member : Nat) (s : State), (isMember s member = true))
    ∧ (∃ (member : Nat) (s : State), (isMember s member = false))
    ∧ (∃ (borrower : Nat) (ref : Nat) (body : Bytes) (s : State), (isMember s borrower = true) ∧ (body.length ≤ lendRoom s) ∧ ((∀ l ∈ s.tier.lent, ¬ (l.borrower = borrower ∧ l.ref = ref))))
    ∧ (∃ (borrower : Nat) (ref : Nat) (body : Bytes) (s : State), ((isMember s borrower = false ∨ lendRoom s < body.length ∨ ∃ l ∈ s.tier.lent, l.borrower = borrower ∧ l.ref = ref)))
    ∧ (∃ (l : Lent) (s : State), (l ∈ s.tier.lent) ∧ ((∀ m ∈ s.tier.lent, m.borrower = l.borrower → m.ref = l.ref → m = l)))
    ∧ (∃ (ref : Nat) (s : State), ((∀ l ∈ s.tier.lent, l.ref ≠ ref)))
    ∧ (∃ (ref : Nat) (lender : Nat) (addr : Nat) (f : Frame) (q : Partition) (body : Bytes) (s : State), (s.tier.frames.find? (fun e => e.2.tier == 3 && e.2.lref == ref && e.2.lender == lender) = some (addr, f)) ∧ (partitionAt s f.partition = some q) ∧ (capsuleOk q body = true))
    ∧ (∃ (ref : Nat) (lender : Nat) (addr : Nat) (f : Frame) (q : Partition) (body : Bytes) (s : State), (s.tier.frames.find? (fun e => e.2.tier == 3 && e.2.lref == ref && e.2.lender == lender) = some (addr, f)) ∧ (partitionAt s f.partition = some q) ∧ (capsuleOk q body = false))
    ∧ (∃ (ref : Nat) (lender : Nat) (s : State), (s.tier.frames.find? (fun e => e.2.tier == 3 && e.2.lref == ref && e.2.lender == lender) = none))
    ∧ (∃ (n : SessionNotice) (slot : Nat) (s : State), (liveSlot s n.handle = some slot) ∧ (((sessionAt s slot).d.state = 1 ∨ (sessionAt s slot).d.state = 2 ∨ (sessionAt s slot).d.state = 3)) ∧ (0 < replayStop (sessionAt s slot))) :=
  ⟨⟨3, (member up), by decide +kernel⟩,
   ⟨4, (member up), by decide +kernel⟩,
   ⟨3, 1, [1, 2], ({ (member up) with tier := { (member up).tier with ddr := [(0, { state := 1, sizeGiB := 64 })] } } : State), by decide +kernel⟩,
   ⟨3, 1, [1], (member up), Or.inr (Or.inl (by decide +kernel))⟩,
   ⟨(⟨3, 1, [1], 0⟩ : Lent), ({ (member up) with tier := { (member up).tier with lent := [⟨3, 1, [1], 0⟩] } } : State), by decide +kernel, by intro m hm; simp_all⟩,
   ⟨1, ({ (member up) with tier := { (member up).tier with lent := [⟨3, 2, [1], 0⟩] } } : State), by decide +kernel⟩,
   ⟨1, 3, (frameAddr 0 0 65536), ({ partition := 0, tier := 3, grade := 2, length := 40, count := 1, lender := 3, lref := 1, channel := 0 } : Frame), part0, capsule0, ({ bound with tier := { bound.tier with frames := [(frameAddr 0 0 65536, ({ partition := 0, tier := 3, grade := 2, length := 40, count := 1, lender := 3, lref := 1, channel := 0 } : Frame))] } } : State), by decide +kernel⟩,
   ⟨1, 3, (frameAddr 0 0 65536), ({ partition := 0, tier := 3, grade := 2, length := 40, count := 1, lender := 3, lref := 1, channel := 0 } : Frame), part0, (capsule0.take 39), ({ bound with tier := { bound.tier with frames := [(frameAddr 0 0 65536, ({ partition := 0, tier := 3, grade := 2, length := 40, count := 1, lender := 3, lref := 1, channel := 0 } : Frame))] } } : State), by decide +kernel⟩,
   ⟨2, 3, ({ bound with tier := { bound.tier with frames := [(frameAddr 0 0 65536, ({ partition := 0, tier := 3, grade := 2, length := 40, count := 1, lender := 3, lref := 1, channel := 0 } : Frame))] } } : State), by decide +kernel⟩,
   ⟨(⟨handle0, 0, 0, 0, 0⟩ : SessionNotice), 0, resident, by decide +kernel⟩⟩

theorem met_MoverSlotsAndPrefetch :
    (∃ (slotId : Nat) (img : Image) (x : SlotEntry) (s : State), (s.sched.active = some img) ∧ (activeSlot s slotId = some x) ∧ (x.lane ≠ 2))
    ∧ (∃ (slotId : Nat) (img : Image) (x : SlotEntry) (s : State), (s.sched.active = some img) ∧ (activeSlot s slotId = some x) ∧ (x.lane = 2))
    ∧ (∃ (s : State), (s.sched.active = none))
    ∧ (∃ (o : MoverOp) (x : Session) (s : State), (s.tier.inSlot = true) ∧ (s.tier.ops = [o]) ∧ (o.kind = .revive) ∧ (o.needRead = false) ∧ (held { s with tier := { s.tier with inSlot := false } } o = false) ∧ (sessionAt s o.slot = x) ∧ (x.d.state = 3) ∧ (x.job = none) ∧ (awaitsLender s o = false) ∧ (unsound s o = none) ∧ ((∀ e ∈ s.slots.table ++ s.slots.guests, e.2.d.copying = false)) ∧ ((partitionAt s x.d.partition).isSome = true) ∧ ((∀ p ∈ x.pages, p.frame = 0 ∨ (frameAt s p.frame).isSome = true)) ∧ (((x.pages.map (fun p => p.frame)).filter (fun a => a != 0)).Nodup))
    ∧ (∃ (o : MoverOp) (s : State), (s.tier.inSlot = true) ∧ (s.tier.ops = [o]) ∧ (o.bytesDone = false) ∧ ((∀ e ∈ s.slots.table ++ s.slots.guests, e.2.d.copying = false)))
    ∧ (∃ (o : MoverOp) (s : State), (s.tier.inSlot = true) ∧ (s.tier.ops = [o]) ∧ (o.kind = .sessionOut) ∧ (o.needRead = true) ∧ (o.readDone = false) ∧ (held { s with tier := { s.tier with inSlot := false } } o = false) ∧ (awaitsLender s o = false) ∧ ((∀ e ∈ s.slots.table ++ s.slots.guests, e.2.d.copying = false)))
    ∧ (∃ (s : State), (s.tier.inSlot = false))
    ∧ (∃ (slot : Nat) (s : State), ((sessionAt s slot).d.state = 3) ∧ ((sessionAt s slot).d.wake ≠ 0) ∧ ((sessionAt s slot).d.wake ≤ s.cad.beat + 4 * s.tier.set.prefetchLead) ∧ (((sessionAt s slot).pages.foldl (fun n p => match frameAt s p.frame with | some f => if f.tier = 3 then n + f.length else n | none => n) 0) ≠ 0) ∧ (((sessionAt s slot).pages.foldl (fun n p => match frameAt s p.frame with | some f => if f.tier = 3 then n + f.length else n | none => n) 0) + reserveBytes s ≤ t2Free s) ∧ (opOf s slot (fun o => shifts o.kind) = none))
    ∧ (∃ (slot : Nat) (s : State), ((sessionAt s slot).d.state = 3) ∧ ((sessionAt s slot).exported = false) ∧ ((sessionAt s slot).d.wake ≠ 0) ∧ ((sessionAt s slot).d.wake ≤ s.cad.beat + s.tier.set.prefetchLead) ∧ (opOf s slot isRevive = none) ∧ (s.tier.set.prefetchFloor * (s.tier.t1Total * 2 ^ 20) < 100 * (t1Free s - reviveNeed s (sessionAt s slot))) ∧ (reviveNeed s (sessionAt s slot) ≤ t1Free s))
    ∧ (∃ (slot : Nat) (s : State), ((sessionAt s slot).d.state = 3) ∧ ((sessionAt s slot).exported = false) ∧ ((sessionAt s slot).d.wake ≠ 0) ∧ ((sessionAt s slot).d.wake ≤ s.cad.beat + s.tier.set.prefetchLead) ∧ (opOf s slot isRevive = none) ∧ (100 * (t1Free s - reviveNeed s (sessionAt s slot)) ≤ s.tier.set.prefetchFloor * (s.tier.t1Total * 2 ^ 20) ∨ t1Free s < reviveNeed s (sessionAt s slot)))
    ∧ (∃ (slot : Nat) (s : State), (((sessionAt s slot).d.state ≠ 3 ∨ (sessionAt s slot).d.wake = 0 ∨ s.cad.beat + 4 * s.tier.set.prefetchLead < (sessionAt s slot).d.wake))) :=
  ⟨⟨1, image, (slot 1 0 0 0 10), resident, by decide +kernel⟩,
   ⟨3, image, (slot 3 2 0xFF 20 10), ({ parked with tier := { parked.tier with ops := [({ id := 0, kind := .revive, slot := 0, begun := false, moveBytes := 10, codecBytes := 10, grade := 0, buffer := 0, client := 0, needRead := false, readDone := false, bytesDone := false, dest := 1 } : MoverOp)] } } : State), by decide +kernel⟩,
   ⟨up, by decide +kernel⟩,
   ⟨({ id := 0, kind := .revive, slot := 0, begun := false, moveBytes := 10, codecBytes := 10, grade := 0, buffer := 0, client := 0, needRead := false, readDone := false, bytesDone := true, dest := 1 } : MoverOp), parkedSession, ({ parked with tier := { parked.tier with ops := [({ id := 0, kind := .revive, slot := 0, begun := false, moveBytes := 10, codecBytes := 10, grade := 0, buffer := 0, client := 0, needRead := false, readDone := false, bytesDone := true, dest := 1 } : MoverOp)], inSlot := true } } : State), by decide +kernel⟩,
   ⟨({ id := 0, kind := .revive, slot := 0, begun := false, moveBytes := 10, codecBytes := 10, grade := 0, buffer := 0, client := 0, needRead := false, readDone := false, bytesDone := false, dest := 1 } : MoverOp), ({ parked with tier := { parked.tier with ops := [({ id := 0, kind := .revive, slot := 0, begun := false, moveBytes := 10, codecBytes := 10, grade := 0, buffer := 0, client := 0, needRead := false, readDone := false, bytesDone := false, dest := 1 } : MoverOp)], inSlot := true } } : State), by decide +kernel⟩,
   ⟨({ id := 0, kind := .sessionOut, slot := 0, begun := false, moveBytes := 10, codecBytes := 10, grade := 0, buffer := 0, client := 0, needRead := true, readDone := false, bytesDone := true, dest := 1 } : MoverOp), ({ parked with tier := { parked.tier with ops := [({ id := 0, kind := .sessionOut, slot := 0, begun := false, moveBytes := 10, codecBytes := 10, grade := 0, buffer := 0, client := 0, needRead := true, readDone := false, bytesDone := true, dest := 1 } : MoverOp)], inSlot := true } } : State), by decide +kernel⟩,
   ⟨up, by decide +kernel⟩,
   ⟨0, (waking 100100 3 parked), by decide +kernel⟩,
   ⟨0, (waking 25100 2 parked), by decide +kernel⟩,
   ⟨0, ({ (waking 25100 2 parked) with tier := { (waking 25100 2 parked).tier with t1Total := 0 } } : State), by decide +kernel⟩,
   ⟨0, (waking 100101 2 parked), by decide +kernel⟩⟩

theorem met_CompositionMaps :
    (∃ (p : Packet) (buf : Bytes) (s : State) (t : State), (opcodeOf p = 0x32) ∧ (passes never p s = some t) ∧ ((readMap buf).facts.delivered ≠ 128 + 128 * (readMap buf).count))
    ∧ (∃ (p : Packet) (buf : Bytes) (s : State) (t : State), (opcodeOf p = 0x32) ∧ (passes never p s = some t) ∧ ((readMap buf).facts.delivered = 128 + 128 * (readMap buf).count) ∧ (mapFieldsOk (readMap buf) = false))
    ∧ (∃ (p : Packet) (buf : Bytes) (s : State) (t : State), (opcodeOf p = 0x32) ∧ (passes never p s = some t) ∧ ((readMap buf).facts.delivered = 128 + 128 * (readMap buf).count) ∧ (mapFieldsOk (readMap buf) = true) ∧ ((readMap buf).facts.digest ≠ (readMap buf).facts.trailer))
    ∧ (∃ (p : Packet) (buf : Bytes) (s : State) (t : State), (opcodeOf p = 0x32) ∧ (passes never p s = some t) ∧ ((readMap buf).facts.delivered = 128 + 128 * (readMap buf).count) ∧ (mapFieldsOk (readMap buf) = true) ∧ ((readMap buf).facts.digest = (readMap buf).facts.trailer) ∧ (((readMap buf).epoch ≠ paramOf p 0x20 4 ∨ (readMap buf).epoch ≤ t.comp.epoch)))
    ∧ (∃ (p : Packet) (buf : Bytes) (s : State) (t : State) (g : _), (opcodeOf p = 0x32) ∧ (passes never p s = some t) ∧ ((readMap buf).facts.delivered = 128 + 128 * (readMap buf).count) ∧ (mapFieldsOk (readMap buf) = true) ∧ ((readMap buf).facts.digest = (readMap buf).facts.trailer) ∧ ((readMap buf).epoch = paramOf p 0x20 4) ∧ (t.comp.epoch < (readMap buf).epoch) ∧ (t.comp.staged = some g))
    ∧ (∃ (p : Packet) (buf : Bytes) (s : State) (t : State), (opcodeOf p = 0x32) ∧ (passes never p s = some t) ∧ ((readMap buf).facts.delivered = 128 + 128 * (readMap buf).count) ∧ (mapFieldsOk (readMap buf) = true) ∧ ((readMap buf).facts.digest = (readMap buf).facts.trailer) ∧ ((readMap buf).epoch = paramOf p 0x20 4) ∧ (t.comp.epoch < (readMap buf).epoch) ∧ (t.comp.staged = none) ∧ (ownEntry t (readMap buf) = none))
    ∧ (∃ (p : Packet) (buf : Bytes) (s : State) (t : State) (d : _) (l : _), (opcodeOf p = 0x32) ∧ (passes never p s = some t) ∧ ((readMap buf).facts.delivered = 128 + 128 * (readMap buf).count) ∧ (mapFieldsOk (readMap buf) = true) ∧ ((readMap buf).facts.digest = (readMap buf).facts.trailer) ∧ ((readMap buf).epoch = paramOf p 0x20 4) ∧ (t.comp.epoch < (readMap buf).epoch) ∧ (t.comp.staged = none) ∧ (ownEntry t (readMap buf) = some d) ∧ (linkDisagrees t d = some l))
    ∧ (∃ (p : Packet) (buf : Bytes) (s : State) (t : State) (d : _), (opcodeOf p = 0x32) ∧ (passes never p s = some t) ∧ ((readMap buf).facts.delivered = 128 + 128 * (readMap buf).count) ∧ (mapFieldsOk (readMap buf) = true) ∧ ((readMap buf).facts.digest = (readMap buf).facts.trailer) ∧ ((readMap buf).epoch = paramOf p 0x20 4) ∧ (t.comp.epoch < (readMap buf).epoch) ∧ (t.comp.staged = none) ∧ (ownEntry t (readMap buf) = some d) ∧ (linkDisagrees t d = none) ∧ (ringsStay t (readMap buf) = false))
    ∧ (∃ (p : Packet) (buf : Bytes) (s : State) (t : State) (d : _), (opcodeOf p = 0x32) ∧ (passes never p s = some t) ∧ ((readMap buf).facts.delivered = 128 + 128 * (readMap buf).count) ∧ (mapFieldsOk (readMap buf) = true) ∧ ((readMap buf).facts.digest = (readMap buf).facts.trailer) ∧ ((readMap buf).epoch = paramOf p 0x20 4) ∧ (t.comp.epoch < (readMap buf).epoch) ∧ (t.comp.staged = none) ∧ (ownEntry t (readMap buf) = some d) ∧ (linkDisagrees t d = none) ∧ (ringsStay t (readMap buf) = true) ∧ (effectiveOk t (paramOf p 0x28 8) = false))
    ∧ (∃ (p : Packet) (buf : Bytes) (s : State) (t : State) (d : _), (opcodeOf p = 0x32) ∧ (passes never p s = some t) ∧ ((readMap buf).facts.delivered = 128 + 128 * (readMap buf).count) ∧ (mapFieldsOk (readMap buf) = true) ∧ ((readMap buf).facts.digest = (readMap buf).facts.trailer) ∧ ((readMap buf).epoch = paramOf p 0x20 4) ∧ (t.comp.epoch < (readMap buf).epoch) ∧ (t.comp.staged = none) ∧ (ownEntry t (readMap buf) = some d) ∧ (linkDisagrees t d = none) ∧ (ringsStay t (readMap buf) = true) ∧ (effectiveOk t (paramOf p 0x28 8) = true) ∧ (d.index ≠ ownIndex t) ∧ (anySession (fun _ => true) t = true))
    ∧ (∃ (p : Packet) (buf : Bytes) (s : State) (t : State) (d : _), (opcodeOf p = 0x32) ∧ (passes never p s = some t) ∧ ((readMap buf).facts.delivered = 128 + 128 * (readMap buf).count) ∧ (mapFieldsOk (readMap buf) = true) ∧ ((readMap buf).facts.digest = (readMap buf).facts.trailer) ∧ ((readMap buf).epoch = paramOf p 0x20 4) ∧ (t.comp.epoch < (readMap buf).epoch) ∧ (t.comp.staged = none) ∧ (ownEntry t (readMap buf) = some d) ∧ (linkDisagrees t d = none) ∧ (ringsStay t (readMap buf) = true) ∧ (effectiveOk t (paramOf p 0x28 8) = true) ∧ ((d.index = ownIndex t ∨ anySession (fun _ => true) t = false)))
    ∧ (∃ (s : State), (s.comp.inComp = true))
    ∧ (∃ (epoch : Nat) (s : State) (digest : Digest), ((s.comp.inComp = false ∨ epoch ≠ s.comp.epoch ∨ digest ≠ mapDigestOf s)))
    ∧ (∃ (g : Nat) (s : State), (s.comp.inComp = true) ∧ (s.comp.graceUntil = some g) ∧ (g ≤ s.cad.beat) ∧ (ownIndex s ∈ leavingMembers s))
    ∧ (∃ (g : Nat) (s : State), (s.comp.graceUntil = some g) ∧ (g ≤ s.cad.beat) ∧ (ownIndex s ∉ leavingMembers s))
    ∧ (∃ (s : State), ((∀ g, s.comp.graceUntil = some g → s.cad.beat < g))) :=
  ⟨⟨(plain 50 [] (leBytes 4 1 ++ leBytes 4 0 ++ leBytes 8 100 ++ buf 0x9000 384)), [], (served (plain 50 [] (leBytes 4 1 ++ leBytes 4 0 ++ leBytes 8 100 ++ buf 0x9000 384)) up), (after never (plain 50 [] (leBytes 4 1 ++ leBytes 4 0 ++ leBytes 8 100 ++ buf 0x9000 384)) (served (plain 50 [] (leBytes 4 1 ++ leBytes 4 0 ++ leBytes 8 100 ++ buf 0x9000 384)) up)), by decide +kernel⟩,
   ⟨(plain 50 [] (leBytes 4 1 ++ leBytes 4 0 ++ leBytes 8 100 ++ buf 0x9000 384)), (mapObject ({ magic := 0, version := 1, count := 2, epoch := 1, graceBeats := 0, root := 0, zeroOk := true, devices := [⟨0, false, 0, List.replicate 32 (0xFFFF, 0xFF)⟩, ⟨3, false, 99, List.replicate 32 (0xFFFF, 0xFF)⟩], facts := ⟨384, 0, 0⟩ } : CompMap)), (served (plain 50 [] (leBytes 4 1 ++ leBytes 4 0 ++ leBytes 8 100 ++ buf 0x9000 384)) up), (after never (plain 50 [] (leBytes 4 1 ++ leBytes 4 0 ++ leBytes 8 100 ++ buf 0x9000 384)) (served (plain 50 [] (leBytes 4 1 ++ leBytes 4 0 ++ leBytes 8 100 ++ buf 0x9000 384)) up)), by decide +kernel⟩,
   ⟨(plain 50 [] (leBytes 4 1 ++ leBytes 4 0 ++ leBytes 8 100 ++ buf 0x9000 384)), ((mapObject ({ magic := 0x504D4F43, version := 1, count := 2, epoch := 1, graceBeats := 0, root := 0, zeroOk := true, devices := [⟨0, false, 0, List.replicate 32 (0xFFFF, 0xFF)⟩, ⟨3, false, 99, List.replicate 32 (0xFFFF, 0xFF)⟩], facts := ⟨384, 0, 0⟩ } : CompMap)).take 383 ++ [0xFF]), (served (plain 50 [] (leBytes 4 1 ++ leBytes 4 0 ++ leBytes 8 100 ++ buf 0x9000 384)) up), (after never (plain 50 [] (leBytes 4 1 ++ leBytes 4 0 ++ leBytes 8 100 ++ buf 0x9000 384)) (served (plain 50 [] (leBytes 4 1 ++ leBytes 4 0 ++ leBytes 8 100 ++ buf 0x9000 384)) up)), by decide +kernel⟩,
   ⟨(plain 50 [] (leBytes 4 2 ++ leBytes 4 0 ++ leBytes 8 100 ++ buf 0x9000 384)), (mapObject ({ magic := 0x504D4F43, version := 1, count := 2, epoch := 1, graceBeats := 0, root := 0, zeroOk := true, devices := [⟨0, false, 0, List.replicate 32 (0xFFFF, 0xFF)⟩, ⟨3, false, 99, List.replicate 32 (0xFFFF, 0xFF)⟩], facts := ⟨384, 0, 0⟩ } : CompMap)), (served (plain 50 [] (leBytes 4 2 ++ leBytes 4 0 ++ leBytes 8 100 ++ buf 0x9000 384)) up), (after never (plain 50 [] (leBytes 4 2 ++ leBytes 4 0 ++ leBytes 8 100 ++ buf 0x9000 384)) (served (plain 50 [] (leBytes 4 2 ++ leBytes 4 0 ++ leBytes 8 100 ++ buf 0x9000 384)) up)), by decide +kernel⟩,
   ⟨(plain 50 [] (leBytes 4 1 ++ leBytes 4 0 ++ leBytes 8 100 ++ buf 0x9000 384)), (mapObject ({ magic := 0x504D4F43, version := 1, count := 2, epoch := 1, graceBeats := 0, root := 0, zeroOk := true, devices := [⟨0, false, 0, List.replicate 32 (0xFFFF, 0xFF)⟩, ⟨3, false, 99, List.replicate 32 (0xFFFF, 0xFF)⟩], facts := ⟨384, 0, 0⟩ } : CompMap)), (served (plain 50 [] (leBytes 4 1 ++ leBytes 4 0 ++ leBytes 8 100 ++ buf 0x9000 384)) ({ up with comp := { up.comp with staged := some (compMap, 200) } } : State)), (after never (plain 50 [] (leBytes 4 1 ++ leBytes 4 0 ++ leBytes 8 100 ++ buf 0x9000 384)) (served (plain 50 [] (leBytes 4 1 ++ leBytes 4 0 ++ leBytes 8 100 ++ buf 0x9000 384)) ({ up with comp := { up.comp with staged := some (compMap, 200) } } : State))), (compMap, 200), by decide +kernel⟩,
   ⟨(plain 50 [] (leBytes 4 1 ++ leBytes 4 0 ++ leBytes 8 100 ++ buf 0x9000 384)), (mapObject ({ magic := 0x504D4F43, version := 1, count := 2, epoch := 1, graceBeats := 0, root := 0, zeroOk := true, devices := [⟨0, false, 7, List.replicate 32 (0xFFFF, 0xFF)⟩, ⟨3, false, 99, List.replicate 32 (0xFFFF, 0xFF)⟩], facts := ⟨384, 0, 0⟩ } : CompMap)), (served (plain 50 [] (leBytes 4 1 ++ leBytes 4 0 ++ leBytes 8 100 ++ buf 0x9000 384)) up), (after never (plain 50 [] (leBytes 4 1 ++ leBytes 4 0 ++ leBytes 8 100 ++ buf 0x9000 384)) (served (plain 50 [] (leBytes 4 1 ++ leBytes 4 0 ++ leBytes 8 100 ++ buf 0x9000 384)) up)), by decide +kernel⟩,
   ⟨(plain 50 [] (leBytes 4 1 ++ leBytes 4 0 ++ leBytes 8 100 ++ buf 0x9000 384)), (mapObject ({ magic := 0x504D4F43, version := 1, count := 2, epoch := 1, graceBeats := 0, root := 0, zeroOk := true, devices := [⟨0, false, 0, List.replicate 32 (0xFFFF, 0xFF)⟩, ⟨3, false, 99, List.replicate 32 (0xFFFF, 0xFF)⟩], facts := ⟨384, 0, 0⟩ } : CompMap)), (served (plain 50 [] (leBytes 4 1 ++ leBytes 4 0 ++ leBytes 8 100 ++ buf 0x9000 384)) (linked { st := .up, peer := 3, peerLink := 0 } up)), (after never (plain 50 [] (leBytes 4 1 ++ leBytes 4 0 ++ leBytes 8 100 ++ buf 0x9000 384)) (served (plain 50 [] (leBytes 4 1 ++ leBytes 4 0 ++ leBytes 8 100 ++ buf 0x9000 384)) (linked { st := .up, peer := 3, peerLink := 0 } up))), (⟨0, false, 0, List.replicate 32 (0xFFFF, 0xFF)⟩ : MapEntry), 0, by decide +kernel⟩,
   ⟨(plain 50 [] (leBytes 4 1 ++ leBytes 4 0 ++ leBytes 8 100 ++ buf 0x9000 384)), (mapObject ({ magic := 0x504D4F43, version := 1, count := 2, epoch := 1, graceBeats := 0, root := 0, zeroOk := true, devices := [⟨1, false, 0, List.replicate 32 (0xFFFF, 0xFF)⟩, ⟨3, false, 99, List.replicate 32 (0xFFFF, 0xFF)⟩], facts := ⟨384, 0, 0⟩ } : CompMap)), (served (plain 50 [] (leBytes 4 1 ++ leBytes 4 0 ++ leBytes 8 100 ++ buf 0x9000 384)) (running bound)), (after never (plain 50 [] (leBytes 4 1 ++ leBytes 4 0 ++ leBytes 8 100 ++ buf 0x9000 384)) (served (plain 50 [] (leBytes 4 1 ++ leBytes 4 0 ++ leBytes 8 100 ++ buf 0x9000 384)) (running bound))), (⟨1, false, 0, List.replicate 32 (0xFFFF, 0xFF)⟩ : MapEntry), by decide +kernel⟩,
   ⟨(plain 50 [] (leBytes 4 1 ++ leBytes 4 0 ++ leBytes 8 99 ++ buf 0x9000 384)), (mapObject ({ magic := 0x504D4F43, version := 1, count := 2, epoch := 1, graceBeats := 0, root := 0, zeroOk := true, devices := [⟨0, false, 0, List.replicate 32 (0xFFFF, 0xFF)⟩, ⟨3, false, 99, List.replicate 32 (0xFFFF, 0xFF)⟩], facts := ⟨384, 0, 0⟩ } : CompMap)), (served (plain 50 [] (leBytes 4 1 ++ leBytes 4 0 ++ leBytes 8 99 ++ buf 0x9000 384)) up), (after never (plain 50 [] (leBytes 4 1 ++ leBytes 4 0 ++ leBytes 8 99 ++ buf 0x9000 384)) (served (plain 50 [] (leBytes 4 1 ++ leBytes 4 0 ++ leBytes 8 99 ++ buf 0x9000 384)) up)), (⟨0, false, 0, List.replicate 32 (0xFFFF, 0xFF)⟩ : MapEntry), by decide +kernel⟩,
   ⟨(plain 50 [] (leBytes 4 1 ++ leBytes 4 0 ++ leBytes 8 100 ++ buf 0x9000 384)), (mapObject ({ magic := 0x504D4F43, version := 1, count := 2, epoch := 1, graceBeats := 0, root := 0, zeroOk := true, devices := [⟨1, false, 0, List.replicate 32 (0xFFFF, 0xFF)⟩, ⟨3, false, 99, List.replicate 32 (0xFFFF, 0xFF)⟩], facts := ⟨384, 0, 0⟩ } : CompMap)), (served (plain 50 [] (leBytes 4 1 ++ leBytes 4 0 ++ leBytes 8 100 ++ buf 0x9000 384)) (withSession session0 1 bound)), (after never (plain 50 [] (leBytes 4 1 ++ leBytes 4 0 ++ leBytes 8 100 ++ buf 0x9000 384)) (served (plain 50 [] (leBytes 4 1 ++ leBytes 4 0 ++ leBytes 8 100 ++ buf 0x9000 384)) (withSession session0 1 bound))), (⟨1, false, 0, List.replicate 32 (0xFFFF, 0xFF)⟩ : MapEntry), by decide +kernel⟩,
   ⟨(plain 50 [] (leBytes 4 1 ++ leBytes 4 0 ++ leBytes 8 100 ++ buf 0x9000 384)), (mapObject ({ magic := 0x504D4F43, version := 1, count := 2, epoch := 1, graceBeats := 0, root := 0, zeroOk := true, devices := [⟨0, false, 0, List.replicate 32 (0xFFFF, 0xFF)⟩, ⟨3, false, 99, List.replicate 32 (0xFFFF, 0xFF)⟩], facts := ⟨384, 0, 0⟩ } : CompMap)), (served (plain 50 [] (leBytes 4 1 ++ leBytes 4 0 ++ leBytes 8 100 ++ buf 0x9000 384)) up), (after never (plain 50 [] (leBytes 4 1 ++ leBytes 4 0 ++ leBytes 8 100 ++ buf 0x9000 384)) (served (plain 50 [] (leBytes 4 1 ++ leBytes 4 0 ++ leBytes 8 100 ++ buf 0x9000 384)) up)), (⟨0, false, 0, List.replicate 32 (0xFFFF, 0xFF)⟩ : MapEntry), by decide +kernel⟩,
   ⟨(member up), by decide +kernel⟩,
   ⟨5, (member up), 0, by decide +kernel⟩,
   ⟨100, (graced 100 { compMap with devices := [⟨0, true, 0, []⟩, ⟨3, false, 99, []⟩] } up), by decide +kernel⟩,
   ⟨100, (graced 100 compMap up), by decide +kernel⟩,
   ⟨(graced 101 compMap up), some_case (a := 101) (by decide +kernel) (by decide +kernel)⟩⟩

theorem met_CheckpointBegunAndWritten :
    (∃ (p : Packet) (s : State) (t : State), (opcodeOf p = 0x40) ∧ (passes never p s = some t) ∧ ((t.sched.active = none ∨ ringOf t (argOf p 20 1) = none)))
    ∧ (∃ (p : Packet) (s : State) (t : State) (img : _), (opcodeOf p = 0x40) ∧ (passes never p s = some t) ∧ (t.sched.active = some img) ∧ ((ringOf t (argOf p 20 1)).isSome = true) ∧ (argOf p 21 1 ≠ 0xFF) ∧ (argOf p 21 1 ≠ 2))
    ∧ (∃ (p : Packet) (s : State) (t : State) (img : _), (opcodeOf p = 0x40) ∧ (passes never p s = some t) ∧ (t.sched.active = some img) ∧ ((ringOf t (argOf p 20 1)).isSome = true) ∧ ((argOf p 21 1 = 0xFF ∨ argOf p 21 1 = 2)) ∧ (img.anchor + (paramOf p 0x20 8 + 1) * img.stepBeats < t.cad.beat + 2 * img.stepBeats))
    ∧ (∃ (p : Packet) (s : State) (t : State) (img : _), (opcodeOf p = 0x40) ∧ (passes never p s = some t) ∧ (t.sched.active = some img) ∧ ((ringOf t (argOf p 20 1)).isSome = true) ∧ ((argOf p 21 1 = 0xFF ∨ argOf p 21 1 = 2)) ∧ (t.cad.beat + 2 * img.stepBeats ≤ img.anchor + (paramOf p 0x20 8 + 1) * img.stepBeats) ∧ ((checkpointOf t (argOf p 20 1)).isSome = true ∨ slotsServed t = false))
    ∧ (∃ (p : Packet) (s : State) (t : State) (img : _), (opcodeOf p = 0x40) ∧ (passes never p s = some t) ∧ (t.sched.active = some img) ∧ ((ringOf t (argOf p 20 1)).isSome = true) ∧ ((argOf p 21 1 = 0xFF ∨ argOf p 21 1 = 2)) ∧ (t.cad.beat + 2 * img.stepBeats ≤ img.anchor + (paramOf p 0x20 8 + 1) * img.stepBeats) ∧ (checkpointOf t (argOf p 20 1) = none) ∧ (slotsServed t = true))
    ∧ (∃ (p : Packet) (s : State) (t : State), (opcodeOf p = 0x41) ∧ (passes never p s = some t) ∧ (t.saves.checkpoints.find? (fun c => c.partition == (argOf p 20 1) && c.snapped && !c.ending && c.step == paramOf p 0x20 8) = none))
    ∧ (∃ (p : Packet) (s : State) (t : State) (c : _), (opcodeOf p = 0x41) ∧ (passes never p s = some t) ∧ (t.saves.checkpoints.find? (fun c => c.partition == (argOf p 20 1) && c.snapped && !c.ending && c.step == paramOf p 0x20 8) = some c) ∧ (bufLen p 0x30 < c.shardMax))
    ∧ (∃ (p : Packet) (s : State) (t : State) (c : _), (opcodeOf p = 0x41) ∧ (passes never p s = some t) ∧ (t.saves.checkpoints.find? (fun c => c.partition == (argOf p 20 1) && c.snapped && !c.ending && c.step == paramOf p 0x20 8) = some c) ∧ (c.shardMax ≤ bufLen p 0x30) ∧ ((slotsReady t = false ∨ (commandOf t (.shardOut (argOf p 20 1))).isSome = true)))
    ∧ (∃ (p : Packet) (s : State) (t : State) (c : _), (opcodeOf p = 0x41) ∧ (passes never p s = some t) ∧ (t.saves.checkpoints.find? (fun c => c.partition == (argOf p 20 1) && c.snapped && !c.ending && c.step == paramOf p 0x20 8) = some c) ∧ (c.shardMax ≤ bufLen p 0x30) ∧ (slotsReady t = true) ∧ (commandOf t (.shardOut (argOf p 20 1)) = none))
    ∧ (∃ (part : Nat) (s : State) (c : _), (checkpointOf s part = some c) ∧ (c.snapped = true))
    ∧ (∃ (part : Nat) (s : State), ((∀ c, checkpointOf s part = some c → c.snapped = false)))
    ∧ (∃ (m : ShardMsg) (s : State), ((∀ c, checkpointOf s m.partition = some c → c.step ≠ m.step ∨ ∃ e ∈ c.collected, e.1 = m.position)))
    ∧ (∃ (m : ShardMsg) (s : State) (c : _), (checkpointOf s m.partition = some c) ∧ (c.step = m.step) ∧ ((∀ e ∈ c.collected, e.1 ≠ m.position)) ∧ ((c.written = false ∨ commandOf s (.shardOut m.partition) = none)))
    ∧ (∃ (m : ShardMsg) (s : State) (c : _) (q : _) (r : _), ((checkpointOf s m.partition = some c) ∧ (c.step = m.step) ∧ ((∀ e ∈ c.collected, e.1 ≠ m.position)) ∧ (c.written = true) ∧ (commandOf s (.shardOut m.partition) ≠ none) ∧ (partitionAt s m.partition = some q) ∧ (ringOf s m.partition = some r) ∧ (r.position = 0)) ∧ ((∀ i, i < r.members.length → i ≠ 0 → i = m.position ∨ ∃ e ∈ c.collected, e.1 = i))) :=
  ⟨⟨(plain 64 [0, 0xFF] (leBytes 8 3)), (served (plain 64 [0, 0xFF] (leBytes 8 3)) bound), (after never (plain 64 [0, 0xFF] (leBytes 8 3)) (served (plain 64 [0, 0xFF] (leBytes 8 3)) bound)), by decide +kernel⟩,
   ⟨(plain 64 [0, 3] (leBytes 8 3)), (served (plain 64 [0, 3] (leBytes 8 3)) (running bound)), (after never (plain 64 [0, 3] (leBytes 8 3)) (served (plain 64 [0, 3] (leBytes 8 3)) (running bound))), image, by decide +kernel⟩,
   ⟨(plain 64 [0, 0xFF] (leBytes 8 0)), (served (plain 64 [0, 0xFF] (leBytes 8 0)) (running bound)), (after never (plain 64 [0, 0xFF] (leBytes 8 0)) (served (plain 64 [0, 0xFF] (leBytes 8 0)) (running bound))), image, by decide +kernel⟩,
   ⟨(plain 64 [0, 0xFF] (leBytes 8 3)), (served (plain 64 [0, 0xFF] (leBytes 8 3)) (saving [({ partition := 0, step := 1, grade := 2, snapped := true, shardMax := 64 } : Checkpoint)] (running bound))), (after never (plain 64 [0, 0xFF] (leBytes 8 3)) (served (plain 64 [0, 0xFF] (leBytes 8 3)) (saving [({ partition := 0, step := 1, grade := 2, snapped := true, shardMax := 64 } : Checkpoint)] (running bound)))), image, by decide +kernel⟩,
   ⟨(plain 64 [0, 2] (leBytes 8 3)), (served (plain 64 [0, 2] (leBytes 8 3)) (running bound)), (after never (plain 64 [0, 2] (leBytes 8 3)) (served (plain 64 [0, 2] (leBytes 8 3)) (running bound))), image, by decide +kernel⟩,
   ⟨(plain 65 [0] (leBytes 8 1 ++ leBytes 8 0 ++ buf 0x8000 64)), (served (plain 65 [0] (leBytes 8 1 ++ leBytes 8 0 ++ buf 0x8000 64)) (running bound)), (after never (plain 65 [0] (leBytes 8 1 ++ leBytes 8 0 ++ buf 0x8000 64)) (served (plain 65 [0] (leBytes 8 1 ++ leBytes 8 0 ++ buf 0x8000 64)) (running bound))), by decide +kernel⟩,
   ⟨(plain 65 [0] (leBytes 8 1 ++ leBytes 8 0 ++ buf 0x8000 63)), (served (plain 65 [0] (leBytes 8 1 ++ leBytes 8 0 ++ buf 0x8000 63)) (saving [({ partition := 0, step := 1, grade := 2, snapped := true, shardMax := 64 } : Checkpoint)] (running bound))), (after never (plain 65 [0] (leBytes 8 1 ++ leBytes 8 0 ++ buf 0x8000 63)) (served (plain 65 [0] (leBytes 8 1 ++ leBytes 8 0 ++ buf 0x8000 63)) (saving [({ partition := 0, step := 1, grade := 2, snapped := true, shardMax := 64 } : Checkpoint)] (running bound)))), ({ partition := 0, step := 1, grade := 2, snapped := true, shardMax := 64 } : Checkpoint), by decide +kernel⟩,
   ⟨(plain 65 [0] (leBytes 8 1 ++ leBytes 8 0 ++ buf 0x8000 64)), (served (plain 65 [0] (leBytes 8 1 ++ leBytes 8 0 ++ buf 0x8000 64)) (saving [({ partition := 0, step := 1, grade := 2, snapped := true, shardMax := 64 } : Checkpoint)] (waiting (.shardOut 0) (running bound)))), (after never (plain 65 [0] (leBytes 8 1 ++ leBytes 8 0 ++ buf 0x8000 64)) (served (plain 65 [0] (leBytes 8 1 ++ leBytes 8 0 ++ buf 0x8000 64)) (saving [({ partition := 0, step := 1, grade := 2, snapped := true, shardMax := 64 } : Checkpoint)] (waiting (.shardOut 0) (running bound))))), ({ partition := 0, step := 1, grade := 2, snapped := true, shardMax := 64 } : Checkpoint), by decide +kernel⟩,
   ⟨(plain 65 [0] (leBytes 8 1 ++ leBytes 8 0 ++ buf 0x8000 64)), (served (plain 65 [0] (leBytes 8 1 ++ leBytes 8 0 ++ buf 0x8000 64)) (saving [({ partition := 0, step := 1, grade := 2, snapped := true, shardMax := 64 } : Checkpoint)] (running bound))), (after never (plain 65 [0] (leBytes 8 1 ++ leBytes 8 0 ++ buf 0x8000 64)) (served (plain 65 [0] (leBytes 8 1 ++ leBytes 8 0 ++ buf 0x8000 64)) (saving [({ partition := 0, step := 1, grade := 2, snapped := true, shardMax := 64 } : Checkpoint)] (running bound)))), ({ partition := 0, step := 1, grade := 2, snapped := true, shardMax := 64 } : Checkpoint), by decide +kernel⟩,
   ⟨0, (saving [({ partition := 0, step := 1, grade := 2, snapped := true, shardMax := 64 } : Checkpoint)] (running bound)), ({ partition := 0, step := 1, grade := 2, snapped := true, shardMax := 64 } : Checkpoint), by decide +kernel⟩,
   ⟨0, up, none_case (by decide +kernel)⟩,
   ⟨(⟨0, 0, 1, 64, 0⟩ : ShardMsg), up, none_case (by decide +kernel)⟩,
   ⟨(⟨0, 0, 1, 64, 0⟩ : ShardMsg), (saving [({ partition := 0, step := 1, grade := 2, snapped := true, shardMax := 64 } : Checkpoint)] (running bound)), ({ partition := 0, step := 1, grade := 2, snapped := true, shardMax := 64 } : Checkpoint), by decide +kernel⟩,
   ⟨(⟨0, 0, 1, 64, 0⟩ : ShardMsg), (saving [({ partition := 0, step := 1, grade := 2, snapped := true, shardMax := 64, written := true } : Checkpoint)] (waiting (.shardOut 0) (running bound))), ({ partition := 0, step := 1, grade := 2, snapped := true, shardMax := 64, written := true } : Checkpoint), part0, ring0, by decide +kernel, fun i hi hn => absurd (Nat.lt_one_iff.mp hi) hn⟩⟩

theorem met_RestoreRuns :
    (∃ (p : Packet) (m : Manifest) (q : Partition) (s : State) (t : State), ((opcodeOf p = 0x42) ∧ (passes never p s = some t) ∧ (partitionAt t (argOf p 20 1) = some q) ∧ (m.lengthOk = true) ∧ (manifestFault m = none) ∧ (m.signed = true) ∧ ((t.sec.policy = none → m.tenantDigest = 0)) ∧ (shapeFault t (argOf p 20 1) q m = none) ∧ (vocabShort t m = none) ∧ (partitionHeld t (argOf p 20 1) = false) ∧ (checkpointOf t (argOf p 20 1) = none) ∧ ((∀ r ∈ t.saves.restores, r.partition ≠ argOf p 20 1)) ∧ (slotsServed t = true)) ∧ ((∀ y, t.sec.policy = some y → m.tenantDigest = y.digest)))
    ∧ (∃ (part : Nat) (value : Nat) (v : Nat) (r : Restoring) (c : Nat × List Digest) (s : State), (restoreOf s part = some r) ∧ (r.cands.head? = some c) ∧ (v = (match listedShard s r c.1 with | none => 2 | some x => if c.2[ownPosition s part]? ≠ some x.digest ∨ value = 1 then 1 else if (stagingShort s x).isSome then 3 else value)) ∧ (ownPosition s part ≠ 0))
    ∧ (∃ (part : Nat) (value : Nat) (v : Nat) (r : Restoring) (c : Nat × List Digest) (s : State), (restoreOf s part = some r) ∧ (r.cands.head? = some c) ∧ (v = (match listedShard s r c.1 with | none => 2 | some x => if c.2[ownPosition s part]? ≠ some x.digest ∨ value = 1 then 1 else if (stagingShort s x).isSome then 3 else value)) ∧ (ownPosition s part = 0) ∧ (r.committed = false) ∧ ((∀ e ∈ r.reports, e.1 ≠ 0)))
    ∧ (∃ (m : ShardMsg) (r : Restoring) (c : Nat × List Digest) (s : State), (restoreOf s m.partition = some r) ∧ (r.cands.head? = some c) ∧ (c.1 = m.step) ∧ (r.committed = false) ∧ (ownPosition s m.partition = 0) ∧ ((∀ e ∈ r.reports, e.1 ≠ m.position)))
    ∧ (∃ (m : ShardMsg) (r : Restoring) (c : Nat × List Digest) (s : State), (restoreOf s m.partition = some r) ∧ (r.cands.head? = some c) ∧ (c.1 = m.step) ∧ (r.committed = false) ∧ (ownPosition s m.partition = 0) ∧ ((∀ e ∈ r.reports, e.1 ≠ m.position)) ∧ ((∀ i, i < ringSizeOf s m.partition → i = m.position ∨ ∃ e ∈ r.reports, e.1 = i)) ∧ (m.value = 0) ∧ ((∀ e ∈ r.reports, e.2 = 0)))
    ∧ (∃ (m : ShardMsg) (r : Restoring) (c : Nat × List Digest) (rest : List (Nat × List Digest)) (s : State), (restoreOf s m.partition = some r) ∧ (r.cands = c :: rest) ∧ (c.1 = m.step) ∧ (r.committed = false) ∧ (ownPosition s m.partition ≠ 0) ∧ (m.value = 1))
    ∧ (∃ (m : ShardMsg) (r : Restoring) (c : Nat × List Digest) (rest : List (Nat × List Digest)) (s : State) (d : _), (restoreOf s m.partition = some r) ∧ (r.cands = c :: rest) ∧ (c.1 = m.step) ∧ (r.committed = false) ∧ (ownPosition s m.partition ≠ 0) ∧ (m.value = 2) ∧ (r.short = some d))
    ∧ (∃ (m : ShardMsg) (r : Restoring) (c : Nat × List Digest) (rest : List (Nat × List Digest)) (s : State), (restoreOf s m.partition = some r) ∧ (r.cands = c :: rest) ∧ (c.1 = m.step) ∧ (r.committed = false) ∧ (ownPosition s m.partition ≠ 0) ∧ (m.value = 2) ∧ (r.short = none))
    ∧ (∃ (m : ShardMsg) (r : Restoring) (c : Nat × List Digest) (rest : List (Nat × List Digest)) (s : State), (restoreOf s m.partition = some r) ∧ (r.cands = c :: rest) ∧ (c.1 = m.step) ∧ (r.committed = false) ∧ (ownPosition s m.partition ≠ 0) ∧ (m.value ≠ 1) ∧ (m.value ≠ 2) ∧ (rest ≠ []))
    ∧ (∃ (m : ShardMsg) (r : Restoring) (c : Nat × List Digest) (rest : List (Nat × List Digest)) (s : State), (restoreOf s m.partition = some r) ∧ (r.cands = c :: rest) ∧ (c.1 = m.step) ∧ (r.committed = false) ∧ (ownPosition s m.partition ≠ 0) ∧ (m.value ≠ 1) ∧ (m.value ≠ 2) ∧ (rest = []))
    ∧ (∃ (m : ShardMsg) (r : Restoring) (s : State), (restoreOf s m.partition = some r) ∧ (ownPosition s m.partition = 0) ∧ (m.position ∉ r.dones) ∧ ((∃ i, i < ringSizeOf s m.partition ∧ i ≠ m.position ∧ i ∉ r.dones)))
    ∧ (∃ (m : ShardMsg) (r : Restoring) (s : State), (restoreOf s m.partition = some r) ∧ (r.committed = true))
    ∧ (∃ (m : ShardMsg) (r : Restoring) (s : State), (restoreOf s m.partition = some r) ∧ (r.committed = true) ∧ ((r.homes = [] ∨ commandOf s (.restoring m.partition) = none)))
    ∧ (∃ (m : ShardMsg) (r : Restoring) (s : State), (restoreOf s m.partition = some r) ∧ (r.committed = false))
    ∧ (∃ (part : Nat) (r : Restoring) (s : State), (restoreOf s part = some r) ∧ (r.committed = false) ∧ (ownPosition s part = 0))
    ∧ (∃ (part : Nat) (r : Restoring) (s : State), (restoreOf s part = some r) ∧ (r.committed = false) ∧ (ownPosition s part ≠ 0))
    ∧ (∃ (m : ShardMsg) (s : State), (restoreOf s m.partition = none)) :=
  ⟨⟨(plain 66 [0] (buf 0x8000 64 ++ buf 0x9000 64)), ({ lengthOk := true, magic := 0x54464E4D, version := 1, zeroOk := true, badOffset := 0, signed := true, tenantDigest := 6, step := 1, modelDigest := 5, positions := [⟨0, 0, 1, 1, 32, 0⟩], vocabs := [], shardDigests := [1] } : Manifest), part0, (served (plain 66 [0] (buf 0x8000 64 ++ buf 0x9000 64)) bound), (after never (plain 66 [0] (buf 0x8000 64 ++ buf 0x9000 64)) (served (plain 66 [0] (buf 0x8000 64 ++ buf 0x9000 64)) bound)), by decide +kernel, some_case (a := (⟨0x4E545046, 1, 1, true, true, [0], 96, 6⟩ : TenantPolicy)) (by decide +kernel) (by decide +kernel)⟩,
   ⟨0, 0, 2, ({ partition := 0, cands := [(1, [1])], shards := [], client := 0, reportAt := 0 } : Restoring), (1, [1]), (restoring_ [({ partition := 0, cands := [(1, [1])], shards := [], client := 0, reportAt := 0 } : Restoring)] (withImage { image with rings := [{ ring0 with position := 1, members := [0, 3] }] } bound)), by decide +kernel⟩,
   ⟨0, 0, 2, ({ partition := 0, cands := [(1, [1])], shards := [], client := 0, reportAt := 0 } : Restoring), (1, [1]), (restoring_ [({ partition := 0, cands := [(1, [1])], shards := [], client := 0, reportAt := 0 } : Restoring)] (withImage { image with rings := [{ ring0 with position := 0, members := [0, 3] }] } bound)), by decide +kernel⟩,
   ⟨(⟨0, 1, 1, 1, 0⟩ : ShardMsg), ({ partition := 0, cands := [(1, [1])], shards := [], client := 0, reportAt := 0 } : Restoring), (1, [1]), (restoring_ [({ partition := 0, cands := [(1, [1])], shards := [], client := 0, reportAt := 0 } : Restoring)] (withImage { image with rings := [{ ring0 with position := 0, members := [0, 3] }] } bound)), by decide +kernel⟩,
   ⟨(⟨0, 1, 1, 0, 0⟩ : ShardMsg), ({ partition := 0, cands := [(1, [1])], shards := [], client := 0, reportAt := 0, reports := [(0, 0)] } : Restoring), (1, [1]), (restoring_ [({ partition := 0, cands := [(1, [1])], shards := [], client := 0, reportAt := 0, reports := [(0, 0)] } : Restoring)] (withImage { image with rings := [{ ring0 with position := 0, members := [0, 3] }] } bound)), by decide +kernel⟩,
   ⟨(⟨0, 0, 1, 1, 0⟩ : ShardMsg), ({ partition := 0, cands := [(1, [1])], shards := [], client := 0, reportAt := 0 } : Restoring), (1, [1]), [], (restoring_ [({ partition := 0, cands := [(1, [1])], shards := [], client := 0, reportAt := 0 } : Restoring)] (withImage { image with rings := [{ ring0 with position := 1, members := [0, 3] }] } bound)), by decide +kernel⟩,
   ⟨(⟨0, 0, 1, 2, 0⟩ : ShardMsg), ({ partition := 0, cands := [(1, [1])], shards := [], client := 0, reportAt := 0, short := some 8 } : Restoring), (1, [1]), [], (restoring_ [({ partition := 0, cands := [(1, [1])], shards := [], client := 0, reportAt := 0, short := some 8 } : Restoring)] (withImage { image with rings := [{ ring0 with position := 1, members := [0, 3] }] } bound)), 8, by decide +kernel⟩,
   ⟨(⟨0, 0, 1, 2, 0⟩ : ShardMsg), ({ partition := 0, cands := [(1, [1])], shards := [], client := 0, reportAt := 0 } : Restoring), (1, [1]), [], (restoring_ [({ partition := 0, cands := [(1, [1])], shards := [], client := 0, reportAt := 0 } : Restoring)] (withImage { image with rings := [{ ring0 with position := 1, members := [0, 3] }] } bound)), by decide +kernel⟩,
   ⟨(⟨0, 0, 1, 0, 0⟩ : ShardMsg), ({ partition := 0, cands := [(1, [1]), (2, [1])], shards := [], client := 0, reportAt := 0 } : Restoring), (1, [1]), [(2, [1])], (restoring_ [({ partition := 0, cands := [(1, [1]), (2, [1])], shards := [], client := 0, reportAt := 0 } : Restoring)] (withImage { image with rings := [{ ring0 with position := 1, members := [0, 3] }] } bound)), by decide +kernel⟩,
   ⟨(⟨0, 0, 1, 0, 0⟩ : ShardMsg), ({ partition := 0, cands := [(1, [1])], shards := [], client := 0, reportAt := 0 } : Restoring), (1, [1]), [], (restoring_ [({ partition := 0, cands := [(1, [1])], shards := [], client := 0, reportAt := 0 } : Restoring)] (withImage { image with rings := [{ ring0 with position := 1, members := [0, 3] }] } bound)), by decide +kernel⟩,
   ⟨(⟨0, 1, 1, 0, 0⟩ : ShardMsg), ({ partition := 0, cands := [(1, [1])], shards := [], client := 0, reportAt := 0 } : Restoring), (restoring_ [({ partition := 0, cands := [(1, [1])], shards := [], client := 0, reportAt := 0 } : Restoring)] (withImage { image with rings := [{ ring0 with position := 0, members := [0, 3] }] } bound)), by decide +kernel⟩,
   ⟨(⟨0, 0, 1, 0, 0⟩ : ShardMsg), ({ partition := 0, cands := [(1, [1])], shards := [], client := 0, reportAt := 0, committed := true } : Restoring), (restoring_ [({ partition := 0, cands := [(1, [1])], shards := [], client := 0, reportAt := 0, committed := true } : Restoring)] (withImage { image with rings := [{ ring0 with position := 1, members := [0, 3] }] } bound)), by decide +kernel⟩,
   ⟨(⟨0, 0, 1, 0, 0⟩ : ShardMsg), ({ partition := 0, cands := [(1, [1])], shards := [], client := 0, reportAt := 0, committed := true } : Restoring), (restoring_ [({ partition := 0, cands := [(1, [1])], shards := [], client := 0, reportAt := 0, committed := true } : Restoring)] (withImage { image with rings := [{ ring0 with position := 1, members := [0, 3] }] } bound)), by decide +kernel⟩,
   ⟨(⟨0, 0, 1, 0, 0⟩ : ShardMsg), ({ partition := 0, cands := [(1, [1])], shards := [], client := 0, reportAt := 0 } : Restoring), (restoring_ [({ partition := 0, cands := [(1, [1])], shards := [], client := 0, reportAt := 0 } : Restoring)] (withImage { image with rings := [{ ring0 with position := 1, members := [0, 3] }] } bound)), by decide +kernel⟩,
   ⟨0, ({ partition := 0, cands := [(1, [1])], shards := [], client := 0, reportAt := 0 } : Restoring), (restoring_ [({ partition := 0, cands := [(1, [1])], shards := [], client := 0, reportAt := 0 } : Restoring)] (withImage { image with rings := [{ ring0 with position := 0, members := [0, 3] }] } bound)), by decide +kernel⟩,
   ⟨0, ({ partition := 0, cands := [(1, [1])], shards := [], client := 0, reportAt := 0 } : Restoring), (restoring_ [({ partition := 0, cands := [(1, [1])], shards := [], client := 0, reportAt := 0 } : Restoring)] (withImage { image with rings := [{ ring0 with position := 1, members := [0, 3] }] } bound)), by decide +kernel⟩,
   ⟨(⟨0, 0, 1, 0, 0⟩ : ShardMsg), up, by decide +kernel⟩⟩

theorem met_QuotesSignedInOrder :
    (∃ (p : Packet) (s : State) (t : State), (opcodeOf p = 0x50) ∧ (passes never p s = some t) ∧ (t.sec.measuring = true))
    ∧ (∃ (p : Packet) (s : State) (t : State), (opcodeOf p = 0x50) ∧ (passes never p s = some t) ∧ (t.sec.measuring = false) ∧ (bufLen p 0x40 < quoteLength t))
    ∧ (∃ (p : Packet) (s : State) (t : State), (opcodeOf p = 0x50) ∧ (passes never p s = some t) ∧ (t.sec.measuring = false) ∧ (quoteLength t ≤ bufLen p 0x40))
    ∧ (∃ (j : QuoteJob) (rest : List QuoteJob) (s : State), (s.secw.quotes = j :: rest) ∧ (s.sec.measuring = false) ∧ (j.len < quoteLength s))
    ∧ (∃ (j : QuoteJob) (rest : List QuoteJob) (s : State), (s.secw.quotes = j :: rest) ∧ (s.sec.measuring = false) ∧ (quoteLength s ≤ j.len))
    ∧ (∃ (s : State), ((s.secw.quotes = [] ∨ s.sec.measuring = true)))
    ∧ (∃ (s : State), (s.sec.measuring = true) ∧ (2 ≤ s.svc.phase) ∧ (s.svc.phase ≤ 4) ∧ (s.svc.takenOver = false))
    ∧ (∃ (s : State), ((s.sec.measuring = false ∨ s.svc.phase < 2 ∨ 4 < s.svc.phase ∨ s.svc.takenOver = true))) :=
  ⟨⟨(plain 80 [] (leBytes 32 1 ++ buf 0x8000 1000000)), (served (plain 80 [] (leBytes 32 1 ++ buf 0x8000 1000000)) ({ up with sec := { up.sec with measuring := true } } : State)), (after never (plain 80 [] (leBytes 32 1 ++ buf 0x8000 1000000)) (served (plain 80 [] (leBytes 32 1 ++ buf 0x8000 1000000)) ({ up with sec := { up.sec with measuring := true } } : State))), by decide +kernel⟩,
   ⟨(plain 80 [] (leBytes 32 1 ++ buf 0x8000 16)), (served (plain 80 [] (leBytes 32 1 ++ buf 0x8000 16)) up), (after never (plain 80 [] (leBytes 32 1 ++ buf 0x8000 16)) (served (plain 80 [] (leBytes 32 1 ++ buf 0x8000 16)) up)), by decide +kernel⟩,
   ⟨(plain 80 [] (leBytes 32 1 ++ buf 0x8000 1000000)), (served (plain 80 [] (leBytes 32 1 ++ buf 0x8000 1000000)) up), (after never (plain 80 [] (leBytes 32 1 ++ buf 0x8000 1000000)) (served (plain 80 [] (leBytes 32 1 ++ buf 0x8000 1000000)) up)), by decide +kernel⟩,
   ⟨(⟨1, [], 0, 0x8000, 0⟩ : QuoteJob), [], ({ (waiting (.quote 1) up) with secw := { up.secw with quotes := [(⟨1, [], 0, 0x8000, 0⟩ : QuoteJob)], decap := [⟨1, 0, false⟩] } } : State), by decide +kernel⟩,
   ⟨(⟨1, [], 0, 0x8000, 1000000⟩ : QuoteJob), [], ({ (waiting (.quote 1) up) with secw := { up.secw with quotes := [(⟨1, [], 0, 0x8000, 1000000⟩ : QuoteJob)], decap := [⟨1, 0, false⟩] } } : State), by decide +kernel⟩,
   ⟨up, by decide +kernel⟩,
   ⟨({ up with sec := { up.sec with measuring := true } } : State), by decide +kernel⟩,
   ⟨up, by decide +kernel⟩⟩

theorem met_TenantsAndKeys :
    (∃ (p : Packet) (s : State) (t : State), (opcodeOf p = 0x52) ∧ (passes never p s = some t) ∧ (t.sec.sealTripped = true))
    ∧ (∃ (p : Packet) (s : State) (t : State), (opcodeOf p = 0x52) ∧ (passes never p s = some t) ∧ (t.sec.sealTripped = false) ∧ (t.sec.bound = true))
    ∧ (∃ (p : Packet) (buf : Bytes) (s : State) (t : State) (off : _), (opcodeOf p = 0x52) ∧ (passes never p s = some t) ∧ (t.sec.sealTripped = false) ∧ (t.sec.bound = false) ∧ (policyFault (readPolicy buf) t = some off))
    ∧ (∃ (p : Packet) (buf : Bytes) (s : State) (t : State), (opcodeOf p = 0x52) ∧ (passes never p s = some t) ∧ (t.sec.sealTripped = false) ∧ (t.sec.bound = false) ∧ (policyFault (readPolicy buf) t = none))
    ∧ (∃ (p : Packet) (m : KeyMessage) (s : State) (t : State), ((opcodeOf p = 0x51) ∧ (passes never p s = some t)) ∧ ((t.sec.bound = false ∨ ∃ k, t.secw.decap.find? (fun k => decide (k.digest = m.quoteDigest)) = some k ∧ k.tenant ≠ tenantDigest t)))
    ∧ (∃ (p : Packet) (m : KeyMessage) (s : State) (t : State), ((opcodeOf p = 0x51) ∧ (passes never p s = some t) ∧ (t.sec.bound = true) ∧ (m.length ≠ 1672 + 48 * m.entriesField)) ∧ ((∀ k, t.secw.decap.find? (fun k => decide (k.digest = m.quoteDigest)) = some k → k.tenant = tenantDigest t)))
    ∧ (∃ (p : Packet) (m : KeyMessage) (s : State) (t : State) (off : _), ((opcodeOf p = 0x51) ∧ (passes never p s = some t) ∧ (t.sec.bound = true) ∧ (m.length = 1672 + 48 * m.entriesField) ∧ (messageFault m = some off)) ∧ ((∀ k, t.secw.decap.find? (fun k => decide (k.digest = m.quoteDigest)) = some k → k.tenant = tenantDigest t)))
    ∧ (∃ (p : Packet) (m : KeyMessage) (s : State) (t : State), ((opcodeOf p = 0x51) ∧ (passes never p s = some t) ∧ (t.sec.bound = true) ∧ (m.length = 1672 + 48 * m.entriesField) ∧ (messageFault m = none) ∧ (t.secw.decap.find? (fun k => decide (k.digest = m.quoteDigest)) = none)) ∧ ((∀ k, t.secw.decap.find? (fun k => decide (k.digest = m.quoteDigest)) = some k → k.tenant = tenantDigest t)))
    ∧ (∃ (p : Packet) (m : KeyMessage) (k : DecapKey) (s : State) (t : State), (opcodeOf p = 0x51) ∧ (passes never p s = some t) ∧ (t.sec.bound = true) ∧ (t.secw.decap.find? (fun k => decide (k.digest = m.quoteDigest)) = some k) ∧ (k.tenant = tenantDigest t) ∧ (m.length = 1672 + 48 * m.entriesField) ∧ (messageFault m = none) ∧ (m.opens = false))
    ∧ (∃ (p : Packet) (m : KeyMessage) (k : DecapKey) (s : State) (t : State) (i : _) (e : _), ((opcodeOf p = 0x51) ∧ (passes never p s = some t) ∧ (t.sec.bound = true) ∧ (t.secw.decap.find? (fun k => decide (k.digest = m.quoteDigest)) = some k) ∧ (k.tenant = tenantDigest t) ∧ (m.length = 1672 + 48 * m.entriesField) ∧ (messageFault m = none) ∧ (m.opens = true) ∧ (m.entries[i]? = some e) ∧ (entryBad m.entries i e = true)) ∧ ((∀ j d, j < i → m.entries[j]? = some d → entryBad m.entries j d = false)))
    ∧ (∃ (p : Packet) (m : KeyMessage) (k : DecapKey) (s : State) (t : State), ((opcodeOf p = 0x51) ∧ (passes never p s = some t) ∧ (t.sec.bound = true) ∧ (t.secw.decap.find? (fun k => decide (k.digest = m.quoteDigest)) = some k) ∧ (k.tenant = tenantDigest t) ∧ (m.length = 1672 + 48 * m.entriesField) ∧ (messageFault m = none) ∧ (m.opens = true) ∧ ((∃ e ∈ m.entries, weightBusy t e = true))) ∧ ((∀ i e, m.entries[i]? = some e → entryBad m.entries i e = false)))
    ∧ (∃ (p : Packet) (m : KeyMessage) (k : DecapKey) (s : State) (t : State) (i : _), ((opcodeOf p = 0x51) ∧ (passes never p s = some t) ∧ (t.sec.bound = true) ∧ (t.secw.decap.find? (fun k => decide (k.digest = m.quoteDigest)) = some k) ∧ (k.tenant = tenantDigest t) ∧ (m.length = 1672 + 48 * m.entriesField) ∧ (messageFault m = none) ∧ (m.opens = true) ∧ ((∀ e ∈ m.entries, weightBusy t e = false)) ∧ (m.entries.findIdx? (keygenTaken t) = some i)) ∧ ((∀ i e, m.entries[i]? = some e → entryBad m.entries i e = false)))
    ∧ (∃ (p : Packet) (m : KeyMessage) (k : DecapKey) (s : State) (t : State), ((opcodeOf p = 0x51) ∧ (passes never p s = some t) ∧ (t.sec.bound = true) ∧ (t.secw.decap.find? (fun k => decide (k.digest = m.quoteDigest)) = some k) ∧ (k.tenant = tenantDigest t) ∧ (m.length = 1672 + 48 * m.entriesField) ∧ (messageFault m = none) ∧ (m.opens = true) ∧ ((∀ e ∈ m.entries, weightBusy t e = false ∧ keygenTaken t e = false))) ∧ ((∀ i e, m.entries[i]? = some e → entryBad m.entries i e = false))) :=
  ⟨⟨(plain 82 [] (buf 0x9000 96)), (served (plain 82 [] (buf 0x9000 96)) ({ up with sec := { up.sec with sealTripped := true } } : State)), (after never (plain 82 [] (buf 0x9000 96)) (served (plain 82 [] (buf 0x9000 96)) ({ up with sec := { up.sec with sealTripped := true } } : State))), by decide +kernel⟩,
   ⟨(plain 82 [] (buf 0x9000 96)), (served (plain 82 [] (buf 0x9000 96)) bound), (after never (plain 82 [] (buf 0x9000 96)) (served (plain 82 [] (buf 0x9000 96)) bound)), by decide +kernel⟩,
   ⟨(plain 82 [] (buf 0x9000 96)), (leBytes 96 0), (served (plain 82 [] (buf 0x9000 96)) up), (after never (plain 82 [] (buf 0x9000 96)) (served (plain 82 [] (buf 0x9000 96)) up)), 0, by decide +kernel⟩,
   ⟨(plain 82 [] (buf 0x9000 96)), (leBytes 4 0x4E545046 ++ [1, 0, 1, 0] ++ leBytes 88 0), (served (plain 82 [] (buf 0x9000 96)) up), (after never (plain 82 [] (buf 0x9000 96)) (served (plain 82 [] (buf 0x9000 96)) up)), by decide +kernel⟩,
   ⟨(plain 81 [] (buf 0x9000 1720)), (⟨1720, 0x4C45524B, 1, true, 1, 4, true, [⟨2, 255, 4, 7, true⟩]⟩ : KeyMessage), (served (plain 81 [] (buf 0x9000 1720)) ({ bound with secw := { bound.secw with decap := [(⟨4, 9, false⟩ : DecapKey)] } } : State)), (after never (plain 81 [] (buf 0x9000 1720)) (served (plain 81 [] (buf 0x9000 1720)) ({ bound with secw := { bound.secw with decap := [(⟨4, 9, false⟩ : DecapKey)] } } : State))), by decide +kernel, Or.inr ⟨⟨4, 9, false⟩, by decide +kernel, by decide +kernel⟩⟩,
   ⟨(plain 81 [] (buf 0x9000 1720)), (⟨1721, 0x4C45524B, 1, true, 1, 4, true, [⟨2, 255, 4, 7, true⟩]⟩ : KeyMessage), (served (plain 81 [] (buf 0x9000 1720)) ({ bound with secw := { bound.secw with decap := [(⟨4, tenantDigest bound, false⟩ : DecapKey)] } } : State)), (after never (plain 81 [] (buf 0x9000 1720)) (served (plain 81 [] (buf 0x9000 1720)) ({ bound with secw := { bound.secw with decap := [(⟨4, tenantDigest bound, false⟩ : DecapKey)] } } : State))), by decide +kernel, some_case (a := (⟨4, tenantDigest bound, false⟩ : DecapKey)) (by decide +kernel) (by decide +kernel)⟩,
   ⟨(plain 81 [] (buf 0x9000 1720)), (⟨1720, 0, 1, true, 1, 4, true, [⟨2, 255, 4, 7, true⟩]⟩ : KeyMessage), (served (plain 81 [] (buf 0x9000 1720)) ({ bound with secw := { bound.secw with decap := [(⟨4, tenantDigest bound, false⟩ : DecapKey)] } } : State)), (after never (plain 81 [] (buf 0x9000 1720)) (served (plain 81 [] (buf 0x9000 1720)) ({ bound with secw := { bound.secw with decap := [(⟨4, tenantDigest bound, false⟩ : DecapKey)] } } : State))), 0, by decide +kernel, some_case (a := (⟨4, tenantDigest bound, false⟩ : DecapKey)) (by decide +kernel) (by decide +kernel)⟩,
   ⟨(plain 81 [] (buf 0x9000 1720)), (⟨1720, 0x4C45524B, 1, true, 1, 4, true, [⟨2, 255, 4, 7, true⟩]⟩ : KeyMessage), (served (plain 81 [] (buf 0x9000 1720)) bound), (after never (plain 81 [] (buf 0x9000 1720)) (served (plain 81 [] (buf 0x9000 1720)) bound)), by decide +kernel, none_case (by decide +kernel)⟩,
   ⟨(plain 81 [] (buf 0x9000 1720)), (⟨1720, 0x4C45524B, 1, true, 1, 4, false, [⟨2, 255, 4, 7, true⟩]⟩ : KeyMessage), (⟨4, tenantDigest bound, false⟩ : DecapKey), (served (plain 81 [] (buf 0x9000 1720)) ({ bound with secw := { bound.secw with decap := [(⟨4, tenantDigest bound, false⟩ : DecapKey)] } } : State)), (after never (plain 81 [] (buf 0x9000 1720)) (served (plain 81 [] (buf 0x9000 1720)) ({ bound with secw := { bound.secw with decap := [(⟨4, tenantDigest bound, false⟩ : DecapKey)] } } : State))), by decide +kernel⟩,
   ⟨(plain 81 [] (buf 0x9000 1720)), (⟨1720, 0x4C45524B, 1, true, 1, 4, true, [⟨3, 0, 4, 7, true⟩]⟩ : KeyMessage), (⟨4, tenantDigest bound, false⟩ : DecapKey), (served (plain 81 [] (buf 0x9000 1720)) ({ bound with secw := { bound.secw with decap := [(⟨4, tenantDigest bound, false⟩ : DecapKey)] } } : State)), (after never (plain 81 [] (buf 0x9000 1720)) (served (plain 81 [] (buf 0x9000 1720)) ({ bound with secw := { bound.secw with decap := [(⟨4, tenantDigest bound, false⟩ : DecapKey)] } } : State))), 0, (⟨3, 0, 4, 7, true⟩ : KeyEntry), by decide +kernel, fun j _ h => absurd h (Nat.not_lt_zero j)⟩,
   ⟨(plain 81 [] (buf 0x9000 1720)), (⟨1720, 0x4C45524B, 1, true, 1, 4, true, [⟨1, 0, 9, 7, true⟩]⟩ : KeyMessage), (⟨4, tenantDigest bound, false⟩ : DecapKey), (served (plain 81 [] (buf 0x9000 1720)) ({ bound with secw := { bound.secw with decap := [(⟨4, tenantDigest bound, false⟩ : DecapKey)] } } : State)), (after never (plain 81 [] (buf 0x9000 1720)) (served (plain 81 [] (buf 0x9000 1720)) ({ bound with secw := { bound.secw with decap := [(⟨4, tenantDigest bound, false⟩ : DecapKey)] } } : State))), by decide +kernel, index_case (by decide +kernel)⟩,
   ⟨(plain 81 [] (buf 0x9000 1720)), (⟨1720, 0x4C45524B, 1, true, 1, 4, true, [⟨2, 0, 1, 9, true⟩]⟩ : KeyMessage), (⟨4, tenantDigest bound, false⟩ : DecapKey), (served (plain 81 [] (buf 0x9000 1720)) ({ bound with secw := { bound.secw with decap := [(⟨4, tenantDigest bound, false⟩ : DecapKey)] } } : State)), (after never (plain 81 [] (buf 0x9000 1720)) (served (plain 81 [] (buf 0x9000 1720)) ({ bound with secw := { bound.secw with decap := [(⟨4, tenantDigest bound, false⟩ : DecapKey)] } } : State))), 0, by decide +kernel, index_case (by decide +kernel)⟩,
   ⟨(plain 81 [] (buf 0x9000 1720)), (⟨1720, 0x4C45524B, 1, true, 1, 4, true, [⟨2, 255, 4, 7, true⟩]⟩ : KeyMessage), (⟨4, tenantDigest bound, false⟩ : DecapKey), (served (plain 81 [] (buf 0x9000 1720)) ({ bound with secw := { bound.secw with decap := [(⟨4, tenantDigest bound, false⟩ : DecapKey)] } } : State)), (after never (plain 81 [] (buf 0x9000 1720)) (served (plain 81 [] (buf 0x9000 1720)) ({ bound with secw := { bound.secw with decap := [(⟨4, tenantDigest bound, false⟩ : DecapKey)] } } : State))), by decide +kernel, index_case (by decide +kernel)⟩⟩

theorem met_TenantReleased :
    (∃ (p : Packet) (s : State) (t : State), (opcodeOf p = 0x53) ∧ (passes never p s = some t) ∧ (activating t = true))
    ∧ (∃ (p : Packet) (s : State) (t : State), (opcodeOf p = 0x53) ∧ (passes never p s = some t) ∧ (activating t = false) ∧ (dimmBusy t = true))
    ∧ (∃ (p : Packet) (s : State) (t : State), (opcodeOf p = 0x53) ∧ (passes never p s = some t) ∧ (activating t = false) ∧ (dimmBusy t = false) ∧ (t.sec.releasing = false))
    ∧ (∃ (s : State), (s.sec.releasing = true) ∧ ((s.sec.releaseAt = none ∨ ∃ b, s.sec.releaseAt = some b ∧ b ≤ s.cad.beat)))
    ∧ (∃ (s : State), ((s.sec.releasing = false ∨ ∃ b, s.sec.releaseAt = some b ∧ s.cad.beat < b)))
    ∧ (∃ (s : State), (s.sec.suspended = true) ∧ (s.host.holdBeats ≠ 0) ∧ (s.host.lostAt + s.host.holdBeats ≤ s.cad.beat) ∧ (s.sec.releasing = false) ∧ (inRing s = false))
    ∧ (∃ (s : State) (img : _), (s.sec.suspended = true) ∧ (s.host.holdBeats ≠ 0) ∧ (s.host.lostAt + s.host.holdBeats ≤ s.cad.beat) ∧ (s.sec.releasing = false) ∧ (inRing s = true) ∧ (s.sched.active = some img))
    ∧ (∃ (s : State), ((s.sec.suspended = false ∨ s.host.holdBeats = 0 ∨ s.cad.beat < s.host.lostAt + s.host.holdBeats ∨ s.sec.releasing = true))) :=
  ⟨⟨(plain 83 [] []), (served (plain 83 [] []) ({ bound with svc := { bound.svc with staged := some (fwImage 5 true), activateAt := some 200 } } : State)), (after never (plain 83 [] []) (served (plain 83 [] []) ({ bound with svc := { bound.svc with staged := some (fwImage 5 true), activateAt := some 200 } } : State))), by decide +kernel⟩,
   ⟨(plain 83 [] []), (served (plain 83 [] []) ({ bound with tier := { bound.tier with ddr := [(11, { state := 2 })] } } : State)), (after never (plain 83 [] []) (served (plain 83 [] []) ({ bound with tier := { bound.tier with ddr := [(11, { state := 2 })] } } : State))), by decide +kernel⟩,
   ⟨(plain 83 [] []), (served (plain 83 [] []) bound), (after never (plain 83 [] []) (served (plain 83 [] []) bound)), by decide +kernel⟩,
   ⟨({ bound with sec := { bound.sec with releasing := true, releaseAt := some 100 } } : State), by decide +kernel, Or.inr ⟨100, by decide +kernel, by decide +kernel⟩⟩,
   ⟨up, Or.inl (by decide +kernel)⟩,
   ⟨({ bound with sec := { bound.sec with suspended := true }, host := { bound.host with holdBeats := 100 } } : State), by decide +kernel⟩,
   ⟨({ resident with sec := { resident.sec with suspended := true }, host := { resident.host with holdBeats := 100 } } : State), image, by decide +kernel⟩,
   ⟨up, by decide +kernel⟩⟩

theorem met_PresenceSealCustody :
    (∃ (s : State), (s.sec.sealOk = true))
    ∧ (∃ (s : State), (s.sec.sealOk = false))
    ∧ (∃ (p : Packet) (s : State) (t : State), (opcodeOf p = 0x64) ∧ (passes never p s = some t) ∧ (argOf p 20 1 = 1) ∧ (presenceShort 1 t = true))
    ∧ (∃ (p : Packet) (s : State) (t : State), (opcodeOf p = 0x64) ∧ (passes never p s = some t) ∧ (argOf p 20 1 = 2) ∧ (presenceShort 2 t = true))
    ∧ (∃ (p : Packet) (s : State) (t : State), (opcodeOf p = 0x64) ∧ (passes never p s = some t) ∧ (argOf p 20 1 = 3) ∧ (presenceShort 3 t = true))
    ∧ (∃ (p : Packet) (s : State) (t : State), (opcodeOf p = 0x64) ∧ (passes never p s = some t) ∧ (argOf p 20 1 = 4) ∧ (presenceShort 4 t = true))
    ∧ (∃ (p : Packet) (s : State) (t : State), (opcodeOf p = 0x64) ∧ (passes never p s = some t) ∧ (argOf p 20 1 = 5) ∧ ((presenceShort 5 t = true ∨ t.sec.sealOk = false)))
    ∧ (∃ (p : Packet) (s : State) (t : State), (opcodeOf p = 0x64) ∧ (passes never p s = some t) ∧ (argOf p 20 1 = 6) ∧ (presenceShort 6 t = true))
    ∧ (∃ (p : Packet) (s : State) (t : State), (opcodeOf p = 0x64) ∧ (passes never p s = some t) ∧ ((argOf p 20 1 = 0 ∨ 7 ≤ argOf p 20 1)))
    ∧ (∃ (p : Packet) (s : State) (t : State), (opcodeOf p = 0x64) ∧ (passes never p s = some t) ∧ (argOf p 20 1 = 1) ∧ (presenceShort 1 t = false) ∧ (0xFFFFFFFF < (paramOf p 0x20 8)))
    ∧ (∃ (p : Packet) (s : State) (t : State), (opcodeOf p = 0x64) ∧ (passes never p s = some t) ∧ (argOf p 20 1 = 2) ∧ (presenceShort 2 t = false) ∧ (1 < (paramOf p 0x20 8)))
    ∧ (∃ (p : Packet) (s : State) (t : State), (opcodeOf p = 0x64) ∧ (passes never p s = some t) ∧ (argOf p 20 1 = 3) ∧ (presenceShort 3 t = false) ∧ (0 < (paramOf p 0x20 8)))
    ∧ (∃ (p : Packet) (s : State) (t : State), (opcodeOf p = 0x64) ∧ (passes never p s = some t) ∧ (argOf p 20 1 = 4) ∧ (presenceShort 4 t = false) ∧ (0 < (paramOf p 0x20 8)))
    ∧ (∃ (p : Packet) (s : State) (t : State), (opcodeOf p = 0x64) ∧ (passes never p s = some t) ∧ (argOf p 20 1 = 5) ∧ (t.sec.sealOk = true) ∧ (presenceShort 5 t = false) ∧ (0 < (paramOf p 0x20 8)))
    ∧ (∃ (p : Packet) (s : State) (t : State), (opcodeOf p = 0x64) ∧ (passes never p s = some t) ∧ (argOf p 20 1 = 6) ∧ (presenceShort 6 t = false) ∧ (1 < (paramOf p 0x20 8)))
    ∧ (∃ (p : Packet) (s : State) (t : State), (opcodeOf p = 0x64) ∧ (passes never p s = some t) ∧ (argOf p 20 1 = 1) ∧ (presenceShort 1 t = false) ∧ ((paramOf p 0x20 8) ≤ 0xFFFFFFFF))
    ∧ (∃ (p : Packet) (s : State) (t : State), (opcodeOf p = 0x64) ∧ (passes never p s = some t) ∧ (argOf p 20 1 = 2) ∧ (presenceShort 2 t = false) ∧ ((paramOf p 0x20 8) ≤ 1) ∧ (((paramOf p 0x20 8) = 0 ∨ t.sec.bound = false)))
    ∧ (∃ (p : Packet) (s : State) (t : State), (opcodeOf p = 0x64) ∧ (passes never p s = some t) ∧ (argOf p 20 1 = 3) ∧ (presenceShort 3 t = false) ∧ ((paramOf p 0x20 8) = 0) ∧ (t.sec.bound = false))
    ∧ (∃ (p : Packet) (s : State) (t : State), (opcodeOf p = 0x64) ∧ (passes never p s = some t) ∧ (argOf p 20 1 = 4) ∧ (presenceShort 4 t = false) ∧ ((paramOf p 0x20 8) = 0) ∧ (t.sec.bound = false))
    ∧ (∃ (p : Packet) (s : State) (t : State), (opcodeOf p = 0x64) ∧ (passes never p s = some t) ∧ (argOf p 20 1 = 5) ∧ (presenceShort 5 t = false) ∧ (t.sec.sealOk = true) ∧ ((paramOf p 0x20 8) = 0))
    ∧ (∃ (p : Packet) (s : State) (t : State), (opcodeOf p = 0x64) ∧ (passes never p s = some t) ∧ (argOf p 20 1 = 6) ∧ (presenceShort 6 t = false) ∧ ((paramOf p 0x20 8) ≤ 1))
    ∧ (∃ (p : Packet) (s : State) (t : State), (opcodeOf p = 0x64) ∧ (passes never p s = some t) ∧ (t.sec.bound = true) ∧ (argOf p 20 1 = 2) ∧ (presenceShort 2 t = false) ∧ (paramOf p 0x20 8 = 1))
    ∧ (∃ (p : Packet) (s : State) (t : State), (opcodeOf p = 0x64) ∧ (passes never p s = some t) ∧ (t.sec.bound = true) ∧ (argOf p 20 1 = 3) ∧ (presenceShort 3 t = false) ∧ (paramOf p 0x20 8 = 0))
    ∧ (∃ (p : Packet) (s : State) (t : State), (opcodeOf p = 0x64) ∧ (passes never p s = some t) ∧ (t.sec.bound = true) ∧ (argOf p 20 1 = 4) ∧ (presenceShort 4 t = false) ∧ (paramOf p 0x20 8 = 0)) :=
  ⟨⟨({ up with sec := { up.sec with sealOk := true } } : State), by decide +kernel⟩,
   ⟨up, by decide +kernel⟩,
   ⟨(plain 100 [1] (leBytes 8 0)), (served (plain 100 [1] (leBytes 8 0)) ({ up with sec := { up.sec with presenceOpen := false, sealOk := true } } : State)), (after never (plain 100 [1] (leBytes 8 0)) (served (plain 100 [1] (leBytes 8 0)) ({ up with sec := { up.sec with presenceOpen := false, sealOk := true } } : State))), by decide +kernel⟩,
   ⟨(plain 100 [2] (leBytes 8 0)), (served (plain 100 [2] (leBytes 8 0)) ({ up with sec := { up.sec with presenceOpen := false, sealOk := true } } : State)), (after never (plain 100 [2] (leBytes 8 0)) (served (plain 100 [2] (leBytes 8 0)) ({ up with sec := { up.sec with presenceOpen := false, sealOk := true } } : State))), by decide +kernel⟩,
   ⟨(plain 100 [3] (leBytes 8 0)), (served (plain 100 [3] (leBytes 8 0)) ({ up with sec := { up.sec with presenceOpen := false, sealOk := true } } : State)), (after never (plain 100 [3] (leBytes 8 0)) (served (plain 100 [3] (leBytes 8 0)) ({ up with sec := { up.sec with presenceOpen := false, sealOk := true } } : State))), by decide +kernel⟩,
   ⟨(plain 100 [4] (leBytes 8 0)), (served (plain 100 [4] (leBytes 8 0)) ({ up with sec := { up.sec with presenceOpen := false, sealOk := true } } : State)), (after never (plain 100 [4] (leBytes 8 0)) (served (plain 100 [4] (leBytes 8 0)) ({ up with sec := { up.sec with presenceOpen := false, sealOk := true } } : State))), by decide +kernel⟩,
   ⟨(plain 100 [5] (leBytes 8 0)), (served (plain 100 [5] (leBytes 8 0)) ({ up with sec := { up.sec with presenceOpen := false, sealOk := true } } : State)), (after never (plain 100 [5] (leBytes 8 0)) (served (plain 100 [5] (leBytes 8 0)) ({ up with sec := { up.sec with presenceOpen := false, sealOk := true } } : State))), by decide +kernel⟩,
   ⟨(plain 100 [6] (leBytes 8 0)), (served (plain 100 [6] (leBytes 8 0)) ({ up with sec := { up.sec with presenceOpen := false, sealOk := true } } : State)), (after never (plain 100 [6] (leBytes 8 0)) (served (plain 100 [6] (leBytes 8 0)) ({ up with sec := { up.sec with presenceOpen := false, sealOk := true } } : State))), by decide +kernel⟩,
   ⟨(plain 100 [7] (leBytes 8 0)), (served (plain 100 [7] (leBytes 8 0)) ({ up with sec := { up.sec with presenceOpen := true, sealOk := true } } : State)), (after never (plain 100 [7] (leBytes 8 0)) (served (plain 100 [7] (leBytes 8 0)) ({ up with sec := { up.sec with presenceOpen := true, sealOk := true } } : State))), by decide +kernel⟩,
   ⟨(plain 100 [1] (leBytes 8 0x100000000)), (served (plain 100 [1] (leBytes 8 0x100000000)) ({ up with sec := { up.sec with presenceOpen := true, sealOk := true } } : State)), (after never (plain 100 [1] (leBytes 8 0x100000000)) (served (plain 100 [1] (leBytes 8 0x100000000)) ({ up with sec := { up.sec with presenceOpen := true, sealOk := true } } : State))), by decide +kernel⟩,
   ⟨(plain 100 [2] (leBytes 8 2)), (served (plain 100 [2] (leBytes 8 2)) ({ up with sec := { up.sec with presenceOpen := true, sealOk := true } } : State)), (after never (plain 100 [2] (leBytes 8 2)) (served (plain 100 [2] (leBytes 8 2)) ({ up with sec := { up.sec with presenceOpen := true, sealOk := true } } : State))), by decide +kernel⟩,
   ⟨(plain 100 [3] (leBytes 8 1)), (served (plain 100 [3] (leBytes 8 1)) ({ up with sec := { up.sec with presenceOpen := true, sealOk := true } } : State)), (after never (plain 100 [3] (leBytes 8 1)) (served (plain 100 [3] (leBytes 8 1)) ({ up with sec := { up.sec with presenceOpen := true, sealOk := true } } : State))), by decide +kernel⟩,
   ⟨(plain 100 [4] (leBytes 8 1)), (served (plain 100 [4] (leBytes 8 1)) ({ up with sec := { up.sec with presenceOpen := true, sealOk := true } } : State)), (after never (plain 100 [4] (leBytes 8 1)) (served (plain 100 [4] (leBytes 8 1)) ({ up with sec := { up.sec with presenceOpen := true, sealOk := true } } : State))), by decide +kernel⟩,
   ⟨(plain 100 [5] (leBytes 8 1)), (served (plain 100 [5] (leBytes 8 1)) ({ up with sec := { up.sec with presenceOpen := true, sealOk := true } } : State)), (after never (plain 100 [5] (leBytes 8 1)) (served (plain 100 [5] (leBytes 8 1)) ({ up with sec := { up.sec with presenceOpen := true, sealOk := true } } : State))), by decide +kernel⟩,
   ⟨(plain 100 [6] (leBytes 8 2)), (served (plain 100 [6] (leBytes 8 2)) ({ up with sec := { up.sec with presenceOpen := true, sealOk := true } } : State)), (after never (plain 100 [6] (leBytes 8 2)) (served (plain 100 [6] (leBytes 8 2)) ({ up with sec := { up.sec with presenceOpen := true, sealOk := true } } : State))), by decide +kernel⟩,
   ⟨(plain 100 [1] (leBytes 8 0xFFFFFFFF)), (served (plain 100 [1] (leBytes 8 0xFFFFFFFF)) ({ up with sec := { up.sec with presenceOpen := true, sealOk := true } } : State)), (after never (plain 100 [1] (leBytes 8 0xFFFFFFFF)) (served (plain 100 [1] (leBytes 8 0xFFFFFFFF)) ({ up with sec := { up.sec with presenceOpen := true, sealOk := true } } : State))), by decide +kernel⟩,
   ⟨(plain 100 [2] (leBytes 8 1)), (served (plain 100 [2] (leBytes 8 1)) ({ up with sec := { up.sec with presenceOpen := true, sealOk := true } } : State)), (after never (plain 100 [2] (leBytes 8 1)) (served (plain 100 [2] (leBytes 8 1)) ({ up with sec := { up.sec with presenceOpen := true, sealOk := true } } : State))), by decide +kernel⟩,
   ⟨(plain 100 [3] (leBytes 8 0)), (served (plain 100 [3] (leBytes 8 0)) ({ up with sec := { up.sec with presenceOpen := true, sealOk := true } } : State)), (after never (plain 100 [3] (leBytes 8 0)) (served (plain 100 [3] (leBytes 8 0)) ({ up with sec := { up.sec with presenceOpen := true, sealOk := true } } : State))), by decide +kernel⟩,
   ⟨(plain 100 [4] (leBytes 8 0)), (served (plain 100 [4] (leBytes 8 0)) ({ up with sec := { up.sec with presenceOpen := true, sealOk := true } } : State)), (after never (plain 100 [4] (leBytes 8 0)) (served (plain 100 [4] (leBytes 8 0)) ({ up with sec := { up.sec with presenceOpen := true, sealOk := true } } : State))), by decide +kernel⟩,
   ⟨(plain 100 [5] (leBytes 8 0)), (served (plain 100 [5] (leBytes 8 0)) ({ up with sec := { up.sec with presenceOpen := true, sealOk := true } } : State)), (after never (plain 100 [5] (leBytes 8 0)) (served (plain 100 [5] (leBytes 8 0)) ({ up with sec := { up.sec with presenceOpen := true, sealOk := true } } : State))), by decide +kernel⟩,
   ⟨(plain 100 [6] (leBytes 8 1)), (served (plain 100 [6] (leBytes 8 1)) ({ up with sec := { up.sec with presenceOpen := true, sealOk := true } } : State)), (after never (plain 100 [6] (leBytes 8 1)) (served (plain 100 [6] (leBytes 8 1)) ({ up with sec := { up.sec with presenceOpen := true, sealOk := true } } : State))), by decide +kernel⟩,
   ⟨(plain 100 [2] (leBytes 8 1)), (served (plain 100 [2] (leBytes 8 1)) ({ bound with sec := { bound.sec with presenceOpen := true, sealOk := true } } : State)), (after never (plain 100 [2] (leBytes 8 1)) (served (plain 100 [2] (leBytes 8 1)) ({ bound with sec := { bound.sec with presenceOpen := true, sealOk := true } } : State))), by decide +kernel⟩,
   ⟨(plain 100 [3] (leBytes 8 0)), (served (plain 100 [3] (leBytes 8 0)) ({ bound with sec := { bound.sec with presenceOpen := true, sealOk := true } } : State)), (after never (plain 100 [3] (leBytes 8 0)) (served (plain 100 [3] (leBytes 8 0)) ({ bound with sec := { bound.sec with presenceOpen := true, sealOk := true } } : State))), by decide +kernel⟩,
   ⟨(plain 100 [4] (leBytes 8 0)), (served (plain 100 [4] (leBytes 8 0)) ({ bound with sec := { bound.sec with presenceOpen := true, sealOk := true } } : State)), (after never (plain 100 [4] (leBytes 8 0)) (served (plain 100 [4] (leBytes 8 0)) ({ bound with sec := { bound.sec with presenceOpen := true, sealOk := true } } : State))), by decide +kernel⟩⟩

theorem met_FirmwareStagedAndActivated :
    (∃ (p : Packet) (obj : FirmwareObject) (img : FirmwareImage) (s : State) (t : State), ((opcodeOf p = 0x60) ∧ (passes never p s = some t) ∧ (16777216 < paramOf p 0x28 8)) ∧ (img = readFirmware obj))
    ∧ (∃ (p : Packet) (obj : FirmwareObject) (img : FirmwareImage) (s : State) (t : State) (a : _) (u : _), ((opcodeOf p = 0x60) ∧ (passes never p s = some t) ∧ (paramOf p 0x28 8 ≤ 16777216)) ∧ (img = readFirmware obj) ∧ ((takePiece fwKey 0x20 p t = .kept a u ∨ takePiece fwKey 0x20 p t = .refused a u)))
    ∧ (∃ (p : Packet) (obj : FirmwareObject) (img : FirmwareImage) (s : State) (t : State) (u : _), ((opcodeOf p = 0x60) ∧ (passes never p s = some t) ∧ (paramOf p 0x28 8 ≤ 16777216) ∧ (takePiece fwKey 0x20 p t = .last u) ∧ ((img.facts.delivered ≠ img.totalBytes ∨ img.totalBytes ≠ paramOf p 0x28 8))) ∧ (img = readFirmware obj))
    ∧ (∃ (p : Packet) (obj : FirmwareObject) (img : FirmwareImage) (s : State) (t : State) (u : _), ((opcodeOf p = 0x60) ∧ (passes never p s = some t) ∧ (paramOf p 0x28 8 ≤ 16777216) ∧ (takePiece fwKey 0x20 p t = .last u) ∧ (img.facts.delivered = img.totalBytes) ∧ (img.totalBytes = paramOf p 0x28 8) ∧ ((img.magic ≠ 0x57464E46 ∨ img.version ≠ 1 ∨ img.zeroOk = false))) ∧ (img = readFirmware obj))
    ∧ (∃ (p : Packet) (obj : FirmwareObject) (img : FirmwareImage) (s : State) (t : State) (u : _), ((opcodeOf p = 0x60) ∧ (passes never p s = some t) ∧ (paramOf p 0x28 8 ≤ 16777216) ∧ (takePiece fwKey 0x20 p t = .last u) ∧ (img.facts.delivered = img.totalBytes) ∧ (img.totalBytes = paramOf p 0x28 8) ∧ (img.magic = 0x57464E46) ∧ (img.version = 1) ∧ (img.zeroOk = true) ∧ (img.facts.digest ≠ img.facts.trailer)) ∧ (img = readFirmware obj))
    ∧ (∃ (p : Packet) (obj : FirmwareObject) (img : FirmwareImage) (s : State) (t : State) (u : _), ((opcodeOf p = 0x60) ∧ (passes never p s = some t) ∧ (paramOf p 0x28 8 ≤ 16777216) ∧ (takePiece fwKey 0x20 p t = .last u) ∧ (img.facts.delivered = img.totalBytes) ∧ (img.totalBytes = paramOf p 0x28 8) ∧ (img.magic = 0x57464E46) ∧ (img.version = 1) ∧ (img.zeroOk = true) ∧ (img.facts.digest = img.facts.trailer) ∧ (img.signatureOk = false)) ∧ (img = readFirmware obj))
    ∧ (∃ (p : Packet) (obj : FirmwareObject) (img : FirmwareImage) (s : State) (t : State) (u : _), ((opcodeOf p = 0x60) ∧ (passes never p s = some t) ∧ (paramOf p 0x28 8 ≤ 16777216) ∧ (takePiece fwKey 0x20 p t = .last u) ∧ (img.facts.delivered = img.totalBytes) ∧ (img.totalBytes = paramOf p 0x28 8) ∧ (img.magic = 0x57464E46) ∧ (img.version = 1) ∧ (img.zeroOk = true) ∧ (img.facts.digest = img.facts.trailer) ∧ (img.signatureOk = true) ∧ (img.rollback < u.sec.rollback)) ∧ (img = readFirmware obj))
    ∧ (∃ (p : Packet) (obj : FirmwareObject) (img : FirmwareImage) (s : State) (t : State) (u : _), ((opcodeOf p = 0x60) ∧ (passes never p s = some t) ∧ (paramOf p 0x28 8 ≤ 16777216) ∧ (takePiece fwKey 0x20 p t = .last u) ∧ (img.facts.delivered = img.totalBytes) ∧ (img.totalBytes = paramOf p 0x28 8) ∧ (img.magic = 0x57464E46) ∧ (img.version = 1) ∧ (img.zeroOk = true) ∧ (img.facts.digest = img.facts.trailer) ∧ (img.signatureOk = true) ∧ (u.sec.rollback ≤ img.rollback)) ∧ (img = readFirmware obj))
    ∧ (∃ (p : Packet) (s : State) (t : State), (opcodeOf p = 0x61) ∧ (passes never p s = some t) ∧ (t.svc.phase ≠ 5) ∧ (t.svc.staged = none))
    ∧ (∃ (p : Packet) (s : State) (t : State) (img : _), (opcodeOf p = 0x61) ∧ (passes never p s = some t) ∧ (t.svc.phase ≠ 5) ∧ (t.svc.staged = some img) ∧ ((activating t = true ∨ dimmBusy t = true)))
    ∧ (∃ (p : Packet) (s : State) (t : State) (img : _), (opcodeOf p = 0x61) ∧ (passes never p s = some t) ∧ (t.svc.phase ≠ 5) ∧ (t.svc.staged = some img) ∧ (activating t = false) ∧ (dimmBusy t = false) ∧ (activateBeat (paramOf p 0x20 8) t = none))
    ∧ (∃ (p : Packet) (s : State) (t : State) (img : _) (at_ : _), (opcodeOf p = 0x61) ∧ (passes never p s = some t) ∧ (t.svc.phase ≠ 5) ∧ (t.svc.staged = some img) ∧ (activating t = false) ∧ (dimmBusy t = false) ∧ (activateBeat (paramOf p 0x20 8) t = some at_) ∧ (disallowed img t = false))
    ∧ (∃ (p : Packet) (s : State) (t : State) (img : _) (at_ : _), (opcodeOf p = 0x61) ∧ (passes never p s = some t) ∧ (t.svc.phase ≠ 5) ∧ (t.svc.staged = some img) ∧ (activating t = false) ∧ (dimmBusy t = false) ∧ (activateBeat (paramOf p 0x20 8) t = some at_) ∧ (disallowed img t = true))
    ∧ (∃ (at_ : Nat) (img : FirmwareImage) (s : State), (s.svc.activateAt = some at_) ∧ (s.svc.staged = some img) ∧ (s.svc.takenOver = false) ∧ (at_ ≤ s.cad.beat))
    ∧ (∃ (at_ : Nat) (img : FirmwareImage) (s : State), (s.svc.activateAt = some at_) ∧ (s.svc.staged = some img) ∧ (s.svc.takenOver = true ∨ s.cad.beat < at_))
    ∧ (∃ (at_ : Nat) (img : FirmwareImage) (s : State), (s.svc.activateAt = some at_) ∧ (s.svc.staged = some img) ∧ (s.svc.takenOver = true) ∧ (s.cad.beat ≤ at_ + 150))
    ∧ (∃ (at_ : Nat) (img : FirmwareImage) (s : State), (s.svc.activateAt = some at_) ∧ (s.svc.staged = some img) ∧ (s.svc.takenOver = false ∨ at_ + 150 < s.cad.beat))
    ∧ (∃ (at_ : Nat) (img : FirmwareImage) (s : State), (s.svc.activateAt = some at_) ∧ (s.svc.staged = some img) ∧ (s.svc.takenOver = true) ∧ (at_ + 150 ≤ s.cad.beat))
    ∧ (∃ (at_ : Nat) (img : FirmwareImage) (s : State), (s.svc.activateAt = some at_) ∧ (s.svc.staged = some img) ∧ (s.svc.takenOver = false ∨ s.cad.beat < at_ + 150))
    ∧ (∃ (s : State), ((s.svc.activateAt = none ∨ s.svc.staged = none))) :=
  ⟨⟨(plain 96 [] (wholePiece 16777217)), (fwObject 5 true), (fwImage 5 true), (served (plain 96 [] (wholePiece 16777217)) up), (after never (plain 96 [] (wholePiece 16777217)) (served (plain 96 [] (wholePiece 16777217)) up)), by decide +kernel, fw_read⟩,
   ⟨(plain 96 [] (leBytes 8 0 ++ leBytes 8 29984 ++ buf 0x9000 64)), (fwObject 5 true), (fwImage 5 true), (served (plain 96 [] (leBytes 8 0 ++ leBytes 8 29984 ++ buf 0x9000 64)) up), (after never (plain 96 [] (leBytes 8 0 ++ leBytes 8 29984 ++ buf 0x9000 64)) (served (plain 96 [] (leBytes 8 0 ++ leBytes 8 29984 ++ buf 0x9000 64)) up)), (keptOf (takePiece fwKey 0x20 (plain 96 [] (leBytes 8 0 ++ leBytes 8 29984 ++ buf 0x9000 64)) (after never (plain 96 [] (leBytes 8 0 ++ leBytes 8 29984 ++ buf 0x9000 64)) (served (plain 96 [] (leBytes 8 0 ++ leBytes 8 29984 ++ buf 0x9000 64)) up)))).1, (keptOf (takePiece fwKey 0x20 (plain 96 [] (leBytes 8 0 ++ leBytes 8 29984 ++ buf 0x9000 64)) (after never (plain 96 [] (leBytes 8 0 ++ leBytes 8 29984 ++ buf 0x9000 64)) (served (plain 96 [] (leBytes 8 0 ++ leBytes 8 29984 ++ buf 0x9000 64)) up)))).2, by decide +kernel, fw_read, Or.inl (by decide +kernel)⟩,
   ⟨(plain 96 [] (wholePiece 29983)), (fwObject 5 true), (fwImage 5 true), (served (plain 96 [] (wholePiece 29983)) up), (after never (plain 96 [] (wholePiece 29983)) (served (plain 96 [] (wholePiece 29983)) up)), (lastOf (takePiece fwKey 0x20 (plain 96 [] (wholePiece 29983)) (after never (plain 96 [] (wholePiece 29983)) (served (plain 96 [] (wholePiece 29983)) up)))), by decide +kernel, fw_read⟩,
   ⟨(plain 96 [] (wholePiece 29984)), (fwObject 5 true (magic := 0)), (fwImage 5 true (magic := 0)), (served (plain 96 [] (wholePiece 29984)) up), (after never (plain 96 [] (wholePiece 29984)) (served (plain 96 [] (wholePiece 29984)) up)), (lastOf (takePiece fwKey 0x20 (plain 96 [] (wholePiece 29984)) (after never (plain 96 [] (wholePiece 29984)) (served (plain 96 [] (wholePiece 29984)) up)))), by decide +kernel, fw_read⟩,
   ⟨(plain 96 [] (wholePiece 29984)), (fwObject 5 true (digest := 1)), (fwImage 5 true (digest := 1)), (served (plain 96 [] (wholePiece 29984)) up), (after never (plain 96 [] (wholePiece 29984)) (served (plain 96 [] (wholePiece 29984)) up)), (lastOf (takePiece fwKey 0x20 (plain 96 [] (wholePiece 29984)) (after never (plain 96 [] (wholePiece 29984)) (served (plain 96 [] (wholePiece 29984)) up)))), by decide +kernel, fw_read⟩,
   ⟨(plain 96 [] (wholePiece 29984)), (fwObject 5 false), (fwImage 5 false), (served (plain 96 [] (wholePiece 29984)) up), (after never (plain 96 [] (wholePiece 29984)) (served (plain 96 [] (wholePiece 29984)) up)), (lastOf (takePiece fwKey 0x20 (plain 96 [] (wholePiece 29984)) (after never (plain 96 [] (wholePiece 29984)) (served (plain 96 [] (wholePiece 29984)) up)))), by decide +kernel, fw_read⟩,
   ⟨(plain 96 [] (wholePiece 29984)), (fwObject 4 true), (fwImage 4 true), (served (plain 96 [] (wholePiece 29984)) ({ up with sec := { up.sec with rollback := 5 } } : State)), (after never (plain 96 [] (wholePiece 29984)) (served (plain 96 [] (wholePiece 29984)) ({ up with sec := { up.sec with rollback := 5 } } : State))), (lastOf (takePiece fwKey 0x20 (plain 96 [] (wholePiece 29984)) (after never (plain 96 [] (wholePiece 29984)) (served (plain 96 [] (wholePiece 29984)) ({ up with sec := { up.sec with rollback := 5 } } : State))))), by decide +kernel, fw_read⟩,
   ⟨(plain 96 [] (wholePiece 29984)), (fwObject 5 true), (fwImage 5 true), (served (plain 96 [] (wholePiece 29984)) up), (after never (plain 96 [] (wholePiece 29984)) (served (plain 96 [] (wholePiece 29984)) up)), (lastOf (takePiece fwKey 0x20 (plain 96 [] (wholePiece 29984)) (after never (plain 96 [] (wholePiece 29984)) (served (plain 96 [] (wholePiece 29984)) up)))), by decide +kernel, fw_read⟩,
   ⟨(plain 97 [] (leBytes 8 0)), (served (plain 97 [] (leBytes 8 0)) up), (after never (plain 97 [] (leBytes 8 0)) (served (plain 97 [] (leBytes 8 0)) up)), by decide +kernel⟩,
   ⟨(plain 97 [] (leBytes 8 0)), (served (plain 97 [] (leBytes 8 0)) ({ (atBeat 100) with svc := { up.svc with staged := some (fwImage 5 true), activateAt := some 200, takenOver := false } } : State)), (after never (plain 97 [] (leBytes 8 0)) (served (plain 97 [] (leBytes 8 0)) ({ (atBeat 100) with svc := { up.svc with staged := some (fwImage 5 true), activateAt := some 200, takenOver := false } } : State))), (fwImage 5 true), by decide +kernel⟩,
   ⟨(plain 97 [] (leBytes 8 99)), (served (plain 97 [] (leBytes 8 99)) ({ up with svc := { up.svc with staged := some (fwImage 5 true) } } : State)), (after never (plain 97 [] (leBytes 8 99)) (served (plain 97 [] (leBytes 8 99)) ({ up with svc := { up.svc with staged := some (fwImage 5 true) } } : State))), (fwImage 5 true), by decide +kernel⟩,
   ⟨(plain 97 [] (leBytes 8 0)), (served (plain 97 [] (leBytes 8 0)) ({ up with svc := { up.svc with staged := some (fwImage 5 true) } } : State)), (after never (plain 97 [] (leBytes 8 0)) (served (plain 97 [] (leBytes 8 0)) ({ up with svc := { up.svc with staged := some (fwImage 5 true) } } : State))), (fwImage 5 true), 100, by decide +kernel⟩,
   ⟨(plain 97 [] (leBytes 8 0)), (served (plain 97 [] (leBytes 8 0)) ({ bound with svc := { bound.svc with staged := some (fwImage 5 true) } } : State)), (after never (plain 97 [] (leBytes 8 0)) (served (plain 97 [] (leBytes 8 0)) ({ bound with svc := { bound.svc with staged := some (fwImage 5 true) } } : State))), (fwImage 5 true), 100, by decide +kernel⟩,
   ⟨100, (fwImage 5 true), ({ (atBeat 100) with svc := { up.svc with staged := some (fwImage 5 true), activateAt := some 100, takenOver := false } } : State), by decide +kernel⟩,
   ⟨101, (fwImage 5 true), ({ (atBeat 100) with svc := { up.svc with staged := some (fwImage 5 true), activateAt := some 101, takenOver := false } } : State), by decide +kernel⟩,
   ⟨0, (fwImage 5 true), ({ (atBeat 150) with svc := { up.svc with staged := some (fwImage 5 true), activateAt := some 0, takenOver := true } } : State), by decide +kernel⟩,
   ⟨0, (fwImage 5 true), ({ (atBeat 150) with svc := { up.svc with staged := some (fwImage 5 true), activateAt := some 0, takenOver := false } } : State), by decide +kernel⟩,
   ⟨0, (fwImage 5 true), ({ (atBeat 150) with svc := { up.svc with staged := some (fwImage 5 true), activateAt := some 0, takenOver := true } } : State), by decide +kernel⟩,
   ⟨1, (fwImage 5 true), ({ (atBeat 150) with svc := { up.svc with staged := some (fwImage 5 true), activateAt := some 1, takenOver := true } } : State), by decide +kernel⟩,
   ⟨up, by decide +kernel⟩⟩

theorem met_CalibrationWrittenAndRead :
    (∃ (p : Packet) (s : State) (t : State), ((opcodeOf p = 0x62) ∧ (passes never p s = some t)) ∧ ((∃ x, ∃ c ∈ t.commands, c.work = .custodial 4 x)))
    ∧ (∃ (p : Packet) (s : State) (t : State), ((opcodeOf p = 0x62) ∧ (passes never p s = some t) ∧ (userBounds (argOf p 20 4) = none)) ∧ ((∀ x, ∀ c ∈ t.commands, c.work ≠ .custodial 4 x)))
    ∧ (∃ (p : Packet) (s : State) (t : State) (b : _), ((opcodeOf p = 0x62) ∧ (passes never p s = some t) ∧ (userBounds (argOf p 20 4) = some b) ∧ (((signedOf 64 (paramOf p 0x20 8)) < b.1 ∨ b.2 < (signedOf 64 (paramOf p 0x20 8))))) ∧ ((∀ x, ∀ c ∈ t.commands, c.work ≠ .custodial 4 x)))
    ∧ (∃ (p : Packet) (s : State) (t : State) (b : _), ((opcodeOf p = 0x62) ∧ (passes never p s = some t) ∧ (userBounds (argOf p 20 4) = some b) ∧ (b.1 ≤ (signedOf 64 (paramOf p 0x20 8))) ∧ ((signedOf 64 (paramOf p 0x20 8)) ≤ b.2) ∧ (trimTooLong (argOf p 20 4) (signedOf 64 (paramOf p 0x20 8)) t = true)) ∧ ((∀ x, ∀ c ∈ t.commands, c.work ≠ .custodial 4 x)))
    ∧ (∃ (p : Packet) (verifies : Bool) (s : State) (t : State) (b : _), ((opcodeOf p = 0x62) ∧ (passes never p s = some t) ∧ (userBounds (argOf p 20 4) = some b) ∧ (b.1 ≤ (signedOf 64 (paramOf p 0x20 8))) ∧ ((signedOf 64 (paramOf p 0x20 8)) ≤ b.2) ∧ (trimTooLong (argOf p 20 4) (signedOf 64 (paramOf p 0x20 8)) t = false) ∧ (verifies = false)) ∧ ((∀ x, ∀ c ∈ t.commands, c.work ≠ .custodial 4 x)))
    ∧ (∃ (p : Packet) (verifies : Bool) (s : State) (t : State) (b : _), ((opcodeOf p = 0x62) ∧ (passes never p s = some t) ∧ (userBounds (argOf p 20 4) = some b) ∧ (b.1 ≤ (signedOf 64 (paramOf p 0x20 8))) ∧ ((signedOf 64 (paramOf p 0x20 8)) ≤ b.2) ∧ (trimTooLong (argOf p 20 4) (signedOf 64 (paramOf p 0x20 8)) t = false) ∧ (verifies = true)) ∧ ((∀ x, ∀ c ∈ t.commands, c.work ≠ .custodial 4 x)))
    ∧ (∃ (p : Packet) (s : State) (t : State), (opcodeOf p = 0x63) ∧ (passes never p s = some t) ∧ (calValue t (argOf p 20 4) = none))
    ∧ (∃ (p : Packet) (s : State) (t : State) (v : _), (opcodeOf p = 0x63) ∧ (passes never p s = some t) ∧ (calValue t (argOf p 20 4) = some v)) :=
  ⟨⟨(sealedPacket 98 0 (leBytes 4 0x10300) (leBytes 8 5) []), (served (sealedPacket 98 0 (leBytes 4 0x10300) (leBytes 8 5) []) (waiting (.custodial 4 0) bound)), (after never (sealedPacket 98 0 (leBytes 4 0x10300) (leBytes 8 5) []) (served (sealedPacket 98 0 (leBytes 4 0x10300) (leBytes 8 5) []) (waiting (.custodial 4 0) bound))), by decide +kernel, ⟨0, ⟨.custodial 4 0, origin0⟩, by decide +kernel, rfl⟩⟩,
   ⟨(sealedPacket 98 0 (leBytes 4 0x10301) (leBytes 8 5) []), (served (sealedPacket 98 0 (leBytes 4 0x10301) (leBytes 8 5) []) bound), (after never (sealedPacket 98 0 (leBytes 4 0x10301) (leBytes 8 5) []) (served (sealedPacket 98 0 (leBytes 4 0x10301) (leBytes 8 5) []) bound)), by decide +kernel, no_custodial (by decide +kernel)⟩,
   ⟨(sealedPacket 98 0 (leBytes 4 0x10300) (leBytes 8 50001) []), (served (sealedPacket 98 0 (leBytes 4 0x10300) (leBytes 8 50001) []) bound), (after never (sealedPacket 98 0 (leBytes 4 0x10300) (leBytes 8 50001) []) (served (sealedPacket 98 0 (leBytes 4 0x10300) (leBytes 8 50001) []) bound)), ((-50000, 50000) : Int × Int), by decide +kernel, no_custodial (by decide +kernel)⟩,
   ⟨(sealedPacket 98 0 (leBytes 4 0x10100) (leBytes 8 250000) []), (served (sealedPacket 98 0 (leBytes 4 0x10100) (leBytes 8 250000) []) (withImage ({ image with links := [⟨0, 1, 0, 0, 0, 0, 0, 0, []⟩] } : Image) bound)), (after never (sealedPacket 98 0 (leBytes 4 0x10100) (leBytes 8 250000) []) (served (sealedPacket 98 0 (leBytes 4 0x10100) (leBytes 8 250000) []) (withImage ({ image with links := [⟨0, 1, 0, 0, 0, 0, 0, 0, []⟩] } : Image) bound))), ((-1000, 250000) : Int × Int), by decide +kernel, no_custodial (by decide +kernel)⟩,
   ⟨(sealedPacket 98 0 (leBytes 4 0x10300) (leBytes 8 50000) []), false, (served (sealedPacket 98 0 (leBytes 4 0x10300) (leBytes 8 50000) []) bound), (after never (sealedPacket 98 0 (leBytes 4 0x10300) (leBytes 8 50000) []) (served (sealedPacket 98 0 (leBytes 4 0x10300) (leBytes 8 50000) []) bound)), ((-50000, 50000) : Int × Int), by decide +kernel, no_custodial (by decide +kernel)⟩,
   ⟨(sealedPacket 98 0 (leBytes 4 0x10300) (leBytes 8 50000) []), true, (served (sealedPacket 98 0 (leBytes 4 0x10300) (leBytes 8 50000) []) bound), (after never (sealedPacket 98 0 (leBytes 4 0x10300) (leBytes 8 50000) []) (served (sealedPacket 98 0 (leBytes 4 0x10300) (leBytes 8 50000) []) bound)), ((-50000, 50000) : Int × Int), by decide +kernel, no_custodial (by decide +kernel)⟩,
   ⟨(plain 99 (leBytes 4 0x999) []), (served (plain 99 (leBytes 4 0x999) []) up), (after never (plain 99 (leBytes 4 0x999) []) (served (plain 99 (leBytes 4 0x999) []) up)), by decide +kernel⟩,
   ⟨(plain 99 (leBytes 4 0x300) []), (served (plain 99 (leBytes 4 0x300) []) up), (after never (plain 99 (leBytes 4 0x300) []) (served (plain 99 (leBytes 4 0x300) []) up)), ((calValue up 0x300).getD 0), by decide +kernel⟩⟩

theorem met_SupplyStates :
    (∃ (s : State), (s.sup.st = .normal))
    ∧ (∃ (s : State), (s.sup.st ≠ .normal))
    ∧ (∃ (s : State), ((s.sup.st = .normal ∨ s.sup.st = .warn)))
    ∧ (∃ (s : State), (s.sup.st ≠ .normal) ∧ (s.sup.st ≠ .warn))
    ∧ (∃ (s : State), (s.sup.st = .reduced))
    ∧ (∃ (s : State), (s.sup.st ≠ .reduced))
    ∧ (∃ (s : State), (s.sup.st ≠ .stopping))
    ∧ (∃ (s : State), (s.sup.st = .stopping))
    ∧ (∃ (s : State), (s.sup.st = .stopping) ∧ (s.sup.stopStage = 1))
    ∧ (∃ (s : State), (s.sup.st = .stopping) ∧ (s.sup.stopStage = 2))
    ∧ (∃ (s : State), (s.sup.st = .stopping) ∧ (s.sup.stopStage = 3))
    ∧ (∃ (s : State), ((s.sup.st ≠ .stopping ∨ s.sup.stopStage ≠ 1)))
    ∧ (∃ (s : State), ((s.sup.st ≠ .stopping ∨ s.sup.stopStage ≠ 2)))
    ∧ (∃ (s : State), ((s.sup.st ≠ .stopping ∨ s.sup.stopStage ≠ 3))) :=
  ⟨⟨up, by decide +kernel⟩,
   ⟨({ up with sup := { up.sup with st := .warn } } : State), by decide +kernel⟩,
   ⟨up, by decide +kernel⟩,
   ⟨({ up with sup := { up.sup with st := .reduced } } : State), by decide +kernel⟩,
   ⟨({ up with sup := { up.sup with st := .reduced } } : State), by decide +kernel⟩,
   ⟨up, by decide +kernel⟩,
   ⟨up, by decide +kernel⟩,
   ⟨({ up with sup := { up.sup with st := .stopping } } : State), by decide +kernel⟩,
   ⟨({ up with sup := { up.sup with st := .stopping, stopStage := 1 } } : State), by decide +kernel⟩,
   ⟨({ up with sup := { up.sup with st := .stopping, stopStage := 2 } } : State), by decide +kernel⟩,
   ⟨({ up with sup := { up.sup with st := .stopping, stopStage := 3 } } : State), by decide +kernel⟩,
   ⟨up, by decide +kernel⟩,
   ⟨up, by decide +kernel⟩,
   ⟨up, by decide +kernel⟩⟩

theorem met_ProfilesAndRails :
    (∃ (p : Packet) (s : State) (t : State), ((opcodeOf p = 0x74) ∧ (passes never p s = some t)) ∧ ((3 < (argOf p 20 1) ∨ ∃ img, t.sched.active = some img ∧ bitOf img.profiles (argOf p 20 1) = false)))
    ∧ (∃ (p : Packet) (s : State) (t : State) (g : _), ((opcodeOf p = 0x74) ∧ (passes never p s = some t) ∧ ((argOf p 20 1) ≤ 3) ∧ (t.sup.profilePending = some g)) ∧ ((∀ img, t.sched.active = some img → bitOf img.profiles (argOf p 20 1) = true)))
    ∧ (∃ (p : Packet) (s : State) (t : State) (at_ : _), ((opcodeOf p = 0x74) ∧ (passes never p s = some t) ∧ ((argOf p 20 1) ≤ 3) ∧ (t.sup.profilePending = none) ∧ (landing t = some at_)) ∧ ((∀ img, t.sched.active = some img → bitOf img.profiles (argOf p 20 1) = true)))
    ∧ (∃ (p : Packet) (s : State) (t : State), ((opcodeOf p = 0x74) ∧ (passes never p s = some t) ∧ ((argOf p 20 1) ≤ 3) ∧ (t.sup.profilePending = none) ∧ (landing t = none) ∧ (raisePending (argOf p 20 1) (raiseRails (profileMv (argOf p 20 1)) t) = true)) ∧ ((∀ img, t.sched.active = some img → bitOf img.profiles (argOf p 20 1) = true)))
    ∧ (∃ (p : Packet) (s : State) (t : State), ((opcodeOf p = 0x74) ∧ (passes never p s = some t) ∧ ((argOf p 20 1) ≤ 3) ∧ (t.sup.profilePending = none) ∧ (landing t = none) ∧ (raisePending (argOf p 20 1) (raiseRails (profileMv (argOf p 20 1)) t) = false)) ∧ ((∀ img, t.sched.active = some img → bitOf img.profiles (argOf p 20 1) = true)))
    ∧ (∃ (r : Nat) (s : State), ((railAt s r).pending = false))
    ∧ (∃ (r : Nat) (s : State), ((railAt s r).pending = true) ∧ ((s.sched.active ≠ none ∨ s.sup.profilePending = none ∨ ∃ g, s.sup.profilePending = some g ∧ raisePending g.1 (putRail r { railAt s r with pending := false, tries := 0, failed := (railAt s r).failed && decide (3 ≤ (railAt s r).tries) } s) = true)))
    ∧ (∃ (r : Nat) (s : State) (g : _), ((railAt s r).pending = true) ∧ (s.sched.active = none) ∧ (s.sup.profilePending = some g) ∧ (raisePending g.1 (putRail r { railAt s r with pending := false, tries := 0, failed := (railAt s r).failed && decide (3 ≤ (railAt s r).tries) } s) = false))
    ∧ (∃ (r : Nat) (s : State), ((railAt s r).pending = true) ∧ (((railAt s r).tries = 1 ∨ (railAt s r).tries = 3)))
    ∧ (∃ (r : Nat) (s : State), ((railAt s r).pending = true) ∧ (4 ≤ (railAt s r).tries))
    ∧ (∃ (r : Nat) (s : State), ((railAt s r).pending = true) ∧ ((railAt s r).tries = 2)) :=
  ⟨⟨(plain 116 [4] []), (served (plain 116 [4] []) (running bare)), (after never (plain 116 [4] []) (served (plain 116 [4] []) (running bare))), by decide +kernel, Or.inl (by decide +kernel)⟩,
   ⟨(plain 116 [3] []), (served (plain 116 [3] []) ({ (running bare) with sup := { (running bare).sup with profilePending := some (1, 192) } } : State)), (after never (plain 116 [3] []) (served (plain 116 [3] []) ({ (running bare) with sup := { (running bare).sup with profilePending := some (1, 192) } } : State))), (1, 192), by decide +kernel, some_case (a := image) (by decide +kernel) (by decide +kernel)⟩,
   ⟨(plain 116 [3] []), (served (plain 116 [3] []) (running bare)), (after never (plain 116 [3] []) (served (plain 116 [3] []) (running bare))), 192, by decide +kernel, some_case (a := image) (by decide +kernel) (by decide +kernel)⟩,
   ⟨(plain 116 [3] []), (served (plain 116 [3] []) bare), (after never (plain 116 [3] []) (served (plain 116 [3] []) bare)), by decide +kernel, none_case (by decide +kernel)⟩,
   ⟨(plain 116 [3] []), (served (plain 116 [3] []) ({ bare with sup := { bare.sup with rails := (List.range 4).map (fun r => (r, { target := 10000 })) } } : State)), (after never (plain 116 [3] []) (served (plain 116 [3] []) ({ bare with sup := { bare.sup with rails := (List.range 4).map (fun r => (r, { target := 10000 })) } } : State))), by decide +kernel, none_case (by decide +kernel)⟩,
   ⟨0, up, by decide +kernel⟩,
   ⟨0, ({ up with sup := { up.sup with rails := [(0, { pending := true, tries := 1, target := 5, previous := 4 })] } } : State), by decide +kernel, Or.inr (Or.inl (by decide +kernel))⟩,
   ⟨0, ({ up with sup := { up.sup with rails := [(0, { pending := true, tries := 1, target := 5, previous := 4 })], profilePending := some (1, 192) } } : State), (1, 192), by decide +kernel⟩,
   ⟨0, ({ up with sup := { up.sup with rails := [(0, { pending := true, tries := 1, target := 5, previous := 4 })] } } : State), by decide +kernel⟩,
   ⟨0, ({ up with sup := { up.sup with rails := [(0, { pending := true, tries := 4, target := 5, previous := 4 })] } } : State), by decide +kernel⟩,
   ⟨0, ({ up with sup := { up.sup with rails := [(0, { pending := true, tries := 2, target := 5, previous := 4 })] } } : State), by decide +kernel⟩⟩

theorem met_DeviceStatesFollow :
    (∃ (s : State), (inRing s = false) ∧ (s.sup.dev = .run) ∧ (s.sup.devTarget = none))
    ∧ (∃ (v : Nat) (s : State), (inRing s = true) ∧ (v ≠ 0))
    ∧ (∃ (s : State), (s.sup.dev = .run) ∧ (s.sup.devTarget = none))
    ∧ (∃ (s : State), (s.sup.dev = .run) ∧ (s.sup.devTarget = some .idle) ∧ (s.sup.entryPoint < 3) ∧ (s.sup.devNext = none))
    ∧ (∃ (s : State), (s.sup.dev = .run) ∧ (s.sup.devTarget = some .idle) ∧ (s.sup.entryPoint < 3) ∧ (s.sup.devNext = some .run))
    ∧ (∃ (s : State), (s.sup.dev = .idle) ∧ (s.sup.devTarget = some .run))
    ∧ (∃ (d : DevState) (s : State), (s.sup.devTarget = some d) ∧ (railsPending s = false) ∧ (s.sup.devNext = none)) :=
  ⟨⟨up, by decide +kernel⟩,
   ⟨1, resident, by decide +kernel⟩,
   ⟨up, by decide +kernel⟩,
   ⟨({ up with sup := { up.sup with devTarget := some .idle, entryPoint := 2 } } : State), by decide +kernel⟩,
   ⟨({ up with sup := { up.sup with devTarget := some .idle, devNext := some .run, entryPoint := 2 } } : State), by decide +kernel⟩,
   ⟨({ up with sup := { up.sup with dev := .idle, devTarget := some .run } } : State), by decide +kernel⟩,
   ⟨.idle, ({ up with sup := { up.sup with devTarget := some .idle } } : State), by decide +kernel⟩⟩

theorem met_BeatNumbersAgree :
    (∃ (s : State), (s.cad.st = .master))
    ∧ (∃ (source : Nat) (b : Bytes) (s : State), (s.cad.st ≠ .master) ∧ ((source ≠ s.cad.numSource ∨ numSound b = false ∨ fieldAt b 1 1 ≠ s.cad.period ∨ fieldAt b 4 8 % 1024 ≠ 0)))
    ∧ (∃ (b : Bytes) (s : State), (s.cad.st = .locked) ∧ (numSound b = true) ∧ (fieldAt b 1 1 = s.cad.period) ∧ (fieldAt b 4 8 = expectedNum s))
    ∧ (∃ (b : Bytes) (s : State), (s.cad.st = .locked) ∧ (numSound b = true) ∧ (fieldAt b 1 1 = s.cad.period) ∧ (fieldAt b 4 8 % 1024 = 0) ∧ (fieldAt b 4 8 ≠ expectedNum s) ∧ (s.cad.mismatchRun = 0))
    ∧ (∃ (b : Bytes) (s : State), (s.cad.st = .locked) ∧ (numSound b = true) ∧ (fieldAt b 1 1 = s.cad.period) ∧ (fieldAt b 4 8 % 1024 = 0) ∧ (fieldAt b 4 8 ≠ expectedNum s) ∧ (s.cad.mismatchRun ≠ 0))
    ∧ (∃ (b : Bytes) (s : State), (s.cad.st = .acquiring) ∧ (numSound b = true) ∧ (fieldAt b 1 1 = s.cad.period) ∧ ((fieldAt b 4 8) % 1024 = 0))
    ∧ (∃ (s : State), ((s.cad.st = .locked ∨ s.cad.st = .master)) ∧ (s.cad.beat % 1024 = 512) ∧ (s.cad.numSent ≠ some (expectedNum s)))
    ∧ (∃ (s : State), (((s.cad.st ≠ .locked ∧ s.cad.st ≠ .master) ∨ s.cad.beat % 1024 ≠ 512 ∨ s.cad.numSent = some (expectedNum s))))
    ∧ (∃ (s : State), ((s.cad.st = .locked ∨ s.cad.st = .holdover)) ∧ ((∀ b, s.cad.markSent = some b → b + 16 ≤ s.cad.beat ∨ s.cad.beat < b)))
    ∧ (∃ (b : Nat) (s : State), (((s.cad.st ≠ .locked ∧ s.cad.st ≠ .holdover) ∨ (s.cad.markSent = some b ∧ b ≤ s.cad.beat ∧ s.cad.beat < b + 16))))
    ∧ (∃ (s : State), (s.cad.st ≠ .holdover))
    ∧ (∃ (s : State), (s.cad.st = .master) ∧ (s.cad.mode = 2))
    ∧ (∃ (s : State), ((s.cad.st ≠ .master ∨ s.cad.mode ≠ 2))) :=
  ⟨⟨({ up with cad := { up.cad with st := .master, mode := 2 } } : State), by decide +kernel⟩,
   ⟨5, [], up, by decide +kernel⟩,
   ⟨(beatBytes 1024), up, by decide +kernel⟩,
   ⟨(beatBytes 2048), up, by decide +kernel⟩,
   ⟨(beatBytes 2048), ({ up with cad := { up.cad with mismatchRun := 1 } } : State), by decide +kernel⟩,
   ⟨(beatBytes 2048), ({ up with cad := { up.cad with st := .acquiring } } : State), by decide +kernel⟩,
   ⟨(atBeat 512), by decide +kernel⟩,
   ⟨up, by decide +kernel⟩,
   ⟨up, by decide +kernel, none_case (by decide +kernel)⟩,
   ⟨0, ({ up with cad := { up.cad with st := .unlocked } } : State), by decide +kernel⟩,
   ⟨up, by decide +kernel⟩,
   ⟨({ up with cad := { up.cad with st := .master, mode := 2 } } : State), by decide +kernel⟩,
   ⟨up, by decide +kernel⟩⟩

theorem met_StepsAndSlots :
    (∃ (g : StagedImage) (s : State), (s.sched.active = none) ∧ (s.sched.staged = some g) ∧ (g.checked = true) ∧ (s.comp.staged = none) ∧ (s.sched.departures = []) ∧ (s.cad.departAt = none) ∧ (s.sched.fallbacks = []) ∧ (s.cad.beat ≤ g.activateAt) ∧ (g.activateAt < 2 ^ 63))
    ∧ (∃ (img : Image) (s : State), (s.sched.active = some img))
    ∧ (∃ (s : State), (s.sched.active = none))
    ∧ (∃ (img : Image) (s : State), (s.sched.active = some img))
    ∧ (∃ (id : Nat) (img : Image) (x : SlotEntry) (s : State), (slotImage s id = some img) ∧ (activeSlot s id = some x) ∧ (id ∉ s.sched.done) ∧ (x.lane ≤ 1) ∧ (s.sup.st ≠ .reduced) ∧ (s.sup.st ≠ .stopping) ∧ (needsLost (settleDefers (passBeats (slotBeat s img x - s.cad.beat) s)) img id = false))
    ∧ (∃ (id : Nat) (s : State), ((s.sup.st = .reduced ∨ s.sup.st = .stopping ∨ id ∈ s.sched.done ∨ activeSlot s id = none ∨ ∃ x, activeSlot s id = some x ∧ 1 < x.lane))) :=
  ⟨⟨(⟨image, 128, true⟩ : StagedImage), ({ bare with sched := { bare.sched with staged := some (⟨image, 128, true⟩ : StagedImage) } } : State), by decide +kernel⟩,
   ⟨image, (running bound), by decide +kernel⟩,
   ⟨up, by decide +kernel⟩,
   ⟨image, (running bound), by decide +kernel⟩,
   ⟨2, image, (slot 2 1 0 10 5), (running bound), by decide +kernel⟩,
   ⟨2, ({ (running bound) with sup := { (running bound).sup with st := .reduced } } : State), Or.inl (by decide +kernel)⟩⟩

theorem met_CommitPointsRelease :
    (∃ (c : LayerCommit) (s : State), ((activeSlot (settleDefers s) c.slotId = none ∨ runStands (settleDefers s) c = false ∨ servesLogical (settleDefers s) c.core c.logical = false ∨ ∃ x, activeSlot (settleDefers s) c.slotId = some x ∧ deferred (settleDefers s) x = true)))
    ∧ (∃ (c : LayerCommit) (img : Image) (x : SlotEntry) (s : State), (slotImage (settleDefers s) c.slotId = some img) ∧ (activeSlot (settleDefers s) c.slotId = some x) ∧ (runStands (settleDefers s) c = true) ∧ (servesLogical (settleDefers s) c.core c.logical = true) ∧ (deferred (settleDefers s) x = false) ∧ ((runSteps (cmdEnv img x) c.steps (settleDefers s)).residue = true))
    ∧ (∃ (c : LayerCommit) (img : Image) (x : SlotEntry) (s : State) (l : _), (slotImage (settleDefers s) c.slotId = some img) ∧ (activeSlot (settleDefers s) c.slotId = some x) ∧ (runStands (settleDefers s) c = true) ∧ (servesLogical (settleDefers s) c.core c.logical = true) ∧ (deferred (settleDefers s) x = false) ∧ ((runSteps (cmdEnv img x) c.steps (settleDefers s)).residue = false) ∧ ((runSteps (cmdEnv img x) c.steps (settleDefers s)).reduce = some l))
    ∧ (∃ (c : LayerCommit) (img : Image) (x : SlotEntry) (s : State), (slotImage (settleDefers s) c.slotId = some img) ∧ (activeSlot (settleDefers s) c.slotId = some x) ∧ (runStands (settleDefers s) c = true) ∧ (servesLogical (settleDefers s) c.core c.logical = true) ∧ (deferred (settleDefers s) x = false) ∧ ((runSteps (cmdEnv img x) c.steps (settleDefers s)).residue = false) ∧ ((runSteps (cmdEnv img x) c.steps (settleDefers s)).reduce = none) ∧ (isUpdate (settleDefers s) x = false))
    ∧ (∃ (c : LayerCommit) (j : OpJob) (l : List Nat) (img : Image) (x : SlotEntry) (i : Nat) (off : Nat) (g : Region) (s : State), (slotImage (settleDefers s) c.slotId = some img) ∧ (activeSlot (settleDefers s) c.slotId = some x) ∧ (runStands (settleDefers s) c = true) ∧ (servesLogical (settleDefers s) c.core c.logical = true) ∧ (deferred (settleDefers s) x = false) ∧ (isUpdate (settleDefers s) x = false) ∧ (c.steps = [.vec [] j]) ∧ (c.writes = []) ∧ (c.hands = []) ∧ (j.code ∉ [0x08, 0x29, 0x2C, 0x2D, 0x3E]) ∧ (runOp j = some l) ∧ (j.dest = .region i off) ∧ (regionAt (settleDefers s) i = some g) ∧ (g.kind = 0) ∧ (g.firstSlot = x.id) ∧ (off + ((l.map (leBytes (opWidth j))).flatten).length ≤ g.length) ∧ (Memory.wf (storeAt (settleDefers s) i).now = true) ∧ (Memory.wf (storeAt (settleDefers s) i).before = true))
    ∧ (∃ (c : LayerCommit) (w : TileWrite) (img : Image) (x : SlotEntry) (q : Partition) (slot : Nat) (f : Nat) (g : Region) (s : State), (slotImage (settleDefers s) c.slotId = some img) ∧ (activeSlot (settleDefers s) c.slotId = some x) ∧ (runStands (settleDefers s) c = true) ∧ (servesLogical (settleDefers s) c.core c.logical = true) ∧ (deferred (settleDefers s) x = false) ∧ (isUpdate (settleDefers s) x = false) ∧ (c.steps = []) ∧ (c.writes = [w]) ∧ (c.hands = []) ∧ (partitionAt (settleDefers s) x.partition = some q) ∧ (liveSlot (settleDefers s) w.handle = some slot) ∧ (mayWrite (settleDefers s) x.partition x.microbatch w.handle w.pageNo = true) ∧ (w.len ≠ 0) ∧ (w.offset + w.len ≤ pageBytes q) ∧ (regionAt (settleDefers s) w.region = some g) ∧ (g.kind = 0) ∧ (passFrame (settleDefers s) x.partition w.handle w.pageNo = some f) ∧ (Memory.wf (settleDefers s).mem = true))
    ∧ (∃ (c : LayerCommit) (h : HandOver) (img : Image) (x : SlotEntry) (g : Region) (a : Region) (m : Region) (s : State), ((slotImage (settleDefers s) c.slotId = some img) ∧ (activeSlot (settleDefers s) c.slotId = some x) ∧ (runStands (settleDefers s) c = true) ∧ (servesLogical (settleDefers s) c.core c.logical = true) ∧ (deferred (settleDefers s) x = false) ∧ (isUpdate (settleDefers s) x = false) ∧ (c.steps = []) ∧ (c.writes = []) ∧ (c.hands = [h]) ∧ (regionAt (settleDefers s) h.region = some g) ∧ (g.kind = 0) ∧ (regionAt (settleDefers s) h.act = some a) ∧ (a.kind = 1) ∧ (bitOf a.flags 1 = false) ∧ (a.firstSlot = x.id) ∧ (a.mirror ≠ h.act) ∧ (regionAt (settleDefers s) a.mirror = some m) ∧ (m.kind ≠ 5) ∧ (m.length = a.length) ∧ (h.actAt + h.len ≤ a.length)) ∧ ((∀ k, Memory.wf (storeAt (settleDefers s) k).now = true ∧ Memory.wf (storeAt (settleDefers s) k).before = true)))
    ∧ (∃ (c : SamplingCommit) (s : State), ((passOf (settleDefers s) c.partition c.microbatch = none ∨ c.run ≠ runOf (settleDefers s) c.slotId ∨ slotCommitted c.slotId (settleDefers s) = true)))
    ∧ (∃ (c : SamplingCommit) (m : SealedMb) (p : Place) (slot : Nat) (j : Generation) (s : State), (s.sched.deferDue = []) ∧ (s.sched.sealPrev = []) ∧ (s.sched.sealNow = [m]) ∧ (c.run = runOf s c.slotId) ∧ (slotCommitted c.slotId s = false) ∧ (m.partition = c.partition) ∧ (m.microbatch = c.microbatch) ∧ (m.places = [p]) ∧ (p.piece + 1 = p.pieces) ∧ (p.withdrawn = false) ∧ (liveSlot s p.handle = some slot) ∧ ((sessionAt s slot).d.state = 2) ∧ ((sessionAt s slot).rebuild = none) ∧ ((sessionAt s slot).job = some j) ∧ (j.endWith = none) ∧ ((sessionAt s slot).nextSetDue = false) ∧ (samplesNow (sessionAt s slot) p.qpos = false) ∧ (listFull (sessionAt s slot) ((sessionAt s slot).d.committed + (((sealedRows (sessionAt s slot) p.qpos).filter (fun r => decide ((sessionAt s slot).d.committed ≤ r))).length) - 1) = false)) :=
  ⟨⟨(⟨1, 5, 0, 0, [], [], []⟩ : LayerCommit), resident, Or.inr (Or.inl (by decide +kernel))⟩,
   ⟨(⟨1, 0, 0, 0, [.dot [] (⟨0, 0, [0x38], [0x38], [], [], false, [], [], 7, false, .peers, 0, 0, (0, 0), 1⟩ : DotJob)], [], []⟩ : LayerCommit), image, (slot 1 0 0 0 10), resident, by decide +kernel⟩,
   ⟨(⟨1, 0, 0, 0, [.dot [] (⟨0, 0, [0x38], [0x38], [], [], false, [], [⟨leBytes 32 (2 ^ 256 - 1), 0⟩], 7, false, .peers, 0, 0, (0, 0), 0⟩ : DotJob)], [], []⟩ : LayerCommit), image, (slot 1 0 0 0 10), resident, 0, by decide +kernel⟩,
   ⟨(⟨1, 0, 0, 0, [], [], []⟩ : LayerCommit), image, (slot 1 0 0 0 10), resident, by decide +kernel⟩,
   ⟨(⟨1, 0, 0, 0, [.vec [] (⟨0x10, [0x3F800000], [0x3F800000], [], 0, false, 0, 0, 0, .region 0 60⟩ : OpJob)], [], []⟩ : LayerCommit), (⟨0x10, [0x3F800000], [0x3F800000], [], 0, false, 0, 0, 0, .region 0 60⟩ : OpJob), [0x40000000], ({ image with regions := [(⟨0, 0, 0, 0, 0, 64, 1, 1, 0xFFFFFFFF⟩ : Region), (⟨0, 0, 1, 0, 64, 64, 1, 2, 2⟩ : Region), (⟨0, 1, 1, 2, 0, 64, 1, 2, 1⟩ : Region)] } : Image), (slot 1 0 0 0 10), 0, 60, (⟨0, 0, 0, 0, 0, 64, 1, 1, 0xFFFFFFFF⟩ : Region), (withImage ({ image with regions := [(⟨0, 0, 0, 0, 0, 64, 1, 1, 0xFFFFFFFF⟩ : Region), (⟨0, 0, 1, 0, 64, 64, 1, 2, 2⟩ : Region), (⟨0, 1, 1, 2, 0, 64, 1, 2, 1⟩ : Region)] } : Image) (generating 0 [(⟨0, 0, 1, [(⟨handle0, 0, 1, 0, false, false, false, 5, false⟩ : Place)]⟩ : SealedMb)])), by decide +kernel⟩,
   ⟨(⟨1, 0, 0, 0, [], [(⟨handle0, 0, 0, 4, 0, 0⟩ : TileWrite)], []⟩ : LayerCommit), (⟨handle0, 0, 0, 4, 0, 0⟩ : TileWrite), ({ image with regions := [(⟨0, 0, 0, 0, 0, 64, 1, 1, 0xFFFFFFFF⟩ : Region), (⟨0, 0, 1, 0, 64, 64, 1, 2, 2⟩ : Region), (⟨0, 1, 1, 2, 0, 64, 1, 2, 1⟩ : Region)] } : Image), (slot 1 0 0 0 10), part0, 0, (frameAddr 0 0 65536), (⟨0, 0, 0, 0, 0, 64, 1, 1, 0xFFFFFFFF⟩ : Region), (withImage ({ image with regions := [(⟨0, 0, 0, 0, 0, 64, 1, 1, 0xFFFFFFFF⟩ : Region), (⟨0, 0, 1, 0, 64, 64, 1, 2, 2⟩ : Region), (⟨0, 1, 1, 2, 0, 64, 1, 2, 1⟩ : Region)] } : Image) (generating 0 [(⟨0, 0, 1, [(⟨handle0, 0, 1, 0, false, false, false, 5, false⟩ : Place)]⟩ : SealedMb)])), by decide +kernel⟩,
   ⟨(⟨1, 0, 0, 0, [], [], [(⟨4, 0, 0, 1, 0⟩ : HandOver)]⟩ : LayerCommit), (⟨4, 0, 0, 1, 0⟩ : HandOver), ({ image with regions := [(⟨0, 0, 0, 0, 0, 64, 1, 1, 0xFFFFFFFF⟩ : Region), (⟨0, 0, 1, 0, 64, 64, 1, 2, 2⟩ : Region), (⟨0, 1, 1, 2, 0, 64, 1, 2, 1⟩ : Region)] } : Image), (slot 1 0 0 0 10), (⟨0, 0, 0, 0, 0, 64, 1, 1, 0xFFFFFFFF⟩ : Region), (⟨0, 0, 1, 0, 64, 64, 1, 2, 2⟩ : Region), (⟨0, 1, 1, 2, 0, 64, 1, 2, 1⟩ : Region), (withImage ({ image with regions := [(⟨0, 0, 0, 0, 0, 64, 1, 1, 0xFFFFFFFF⟩ : Region), (⟨0, 0, 1, 0, 64, 64, 1, 2, 2⟩ : Region), (⟨0, 1, 1, 2, 0, 64, 1, 2, 1⟩ : Region)] } : Image) (generating 0 [(⟨0, 0, 1, [(⟨handle0, 0, 1, 0, false, false, false, 5, false⟩ : Place)]⟩ : SealedMb)])), by decide +kernel, fun _ => ⟨rfl, rfl⟩⟩,
   ⟨(⟨2, 1, 0, 0, [], 0⟩ : SamplingCommit), resident, by decide +kernel⟩,
   ⟨(⟨2, 1, 0, 0, [], 0⟩ : SamplingCommit), (⟨0, 0, 1, [(⟨handle0, 0, 1, 0, false, false, false, 5, false⟩ : Place)]⟩ : SealedMb), (⟨handle0, 0, 1, 0, false, false, false, 5, false⟩ : Place), 0, ({ framesReserved := 2 } : Generation), (generating 0 [(⟨0, 0, 1, [(⟨handle0, 0, 1, 0, false, false, false, 5, false⟩ : Place)]⟩ : SealedMb)]), by decide +kernel⟩⟩

theorem met_NoticesAndFaults :
    (∃ (n : Notice) (s : State), (noticed n s = true))
    ∧ (∃ (n : Notice), (n.kind ≠ 1))
    ∧ (∃ (n : Notice), (n.kind ≠ 2))
    ∧ (∃ (n : Notice), (n.kind ≠ 3))
    ∧ (∃ (n : Notice), (n.kind ≠ 4))
    ∧ (∃ (n : Notice) (s : State), (noticed n s = false) ∧ (n.kind = 1))
    ∧ (∃ (n : Notice) (s : State), (noticed n s = false) ∧ (n.kind = 2))
    ∧ (∃ (n : Notice) (m : SealedMb) (s : State), (noticed n s = false) ∧ (n.kind = 3) ∧ (s.sched.deferDue = []) ∧ (n.e ≤ s.cad.beat) ∧ (passOf s n.partition n.microbatch = some m))
    ∧ (∃ (n : Notice) (s : State), (noticed n s = false) ∧ (n.kind = 3) ∧ (s.sched.deferDue = []) ∧ (s.cad.beat < n.e))
    ∧ (∃ (n : Notice) (s : State), (noticed n s = false) ∧ (n.kind = 4))
    ∧ (∃ (part : Nat) (s : State) (n : _) (q : _), (s.sched.slipDue.find? (fun n => n.partition == part && decide (n.e ≤ s.cad.beat)) = some n) ∧ (partitionAt s part = some q))
    ∧ (∃ (part : Nat) (s : State), (s.sched.slipDue.find? (fun n => n.partition == part && decide (n.e ≤ s.cad.beat)) = none))
    ∧ (∃ (slotId : Nat) (img : Image) (x : SlotEntry) (s : State) (link : _) (transfer : _), ((s.sched.active = some img) ∧ (activeSlot s slotId = some x) ∧ (bitOf x.flags 1 = false) ∧ (slotCommitted slotId s = false) ∧ ((∀ n ∈ s.sched.slipDue, n.slotId ≠ slotId)) ∧ (slipFits x.partition x.rerunBeats s = true)) ∧ ((runOf s slotId = 0 ∨ (linkAt s link).st = .up ∨ ∀ t ∈ img.transfers, t.id = transfer → t.alt = 0xFFFF)))
    ∧ (∃ (slotId : Nat) (img : Image) (x : SlotEntry) (s : State) (d : _) (b : _) (c : _), (s.sched.active = some img) ∧ (activeSlot s slotId = some x) ∧ (bitOf x.flags 1 = false) ∧ (slotCommitted slotId s = false) ∧ ((∀ n ∈ s.sched.slipDue, n.slotId ≠ slotId)) ∧ (slipFits x.partition x.rerunBeats s = true) ∧ (FMap.getD (blockAt s d b).mprogErrors c 0 = 0))
    ∧ (∃ (slotId : Nat) (img : Image) (x : SlotEntry) (s : State), (s.sched.active = some img) ∧ (activeSlot s slotId = some x) ∧ (bitOf x.flags 1 = false) ∧ (slotCommitted slotId s = false) ∧ ((∀ n ∈ s.sched.slipDue, n.slotId ≠ slotId)) ∧ (slipFits x.partition x.rerunBeats s = true))
    ∧ (∃ (link : Nat) (slotId : Nat) (transfer : Nat) (img : Image) (s : State), (s.sched.active = some img) ∧ (runOf s slotId ≠ 0) ∧ ((linkAt s link).st ≠ .up) ∧ ((∃ t ∈ img.transfers, t.id = transfer ∧ t.alt ≠ 0xFFFF))) :=
  ⟨⟨(⟨1, 0, 1, 0, 1, 100, 1, 0, 0, 3⟩ : Notice), (noticing [(⟨1, 0, 1, 0, 1, 100, 1, 0, 0, 3⟩ : Notice)] resident), by decide +kernel⟩,
   ⟨(⟨2, 0, 1, 0, 1, 100, 1, 0, 0, 3⟩ : Notice), by decide +kernel⟩,
   ⟨(⟨1, 0, 1, 0, 1, 100, 1, 0, 0, 3⟩ : Notice), by decide +kernel⟩,
   ⟨(⟨1, 0, 1, 0, 1, 100, 1, 0, 0, 3⟩ : Notice), by decide +kernel⟩,
   ⟨(⟨1, 0, 1, 0, 1, 100, 1, 0, 0, 3⟩ : Notice), by decide +kernel⟩,
   ⟨(⟨1, 0, 1, 0, 1, 100, 1, 0, 0, 3⟩ : Notice), resident, by decide +kernel⟩,
   ⟨(⟨2, 0, 1, 0, 1, 100, 1, 0, 0, 3⟩ : Notice), resident, by decide +kernel⟩,
   ⟨(⟨3, 0, 1, 0, 1, 100, 1, 0, 0, 3⟩ : Notice), (⟨0, 0, 1, [(⟨handle0, 0, 1, 0, false, false, false, 5, false⟩ : Place)]⟩ : SealedMb), (generating 0 [(⟨0, 0, 1, [(⟨handle0, 0, 1, 0, false, false, false, 5, false⟩ : Place)]⟩ : SealedMb)]), by decide +kernel⟩,
   ⟨(⟨3, 0, 1, 0, 1, 200, 1, 0, 0, 3⟩ : Notice), resident, by decide +kernel⟩,
   ⟨(⟨4, 0, 1, 0, 1, 100, 1, 0, 0, 3⟩ : Notice), resident, by decide +kernel⟩,
   ⟨0, (slipping [(⟨1, 0, 1, 0, 1, 100, 1, 0, 0, 3⟩ : Notice)] resident), (⟨1, 0, 1, 0, 1, 100, 1, 0, 0, 3⟩ : Notice), part0, by decide +kernel⟩,
   ⟨0, up, by decide +kernel⟩,
   ⟨1, image, (slot 1 0 0 0 10), resident, 0, 7, by decide +kernel, Or.inl (by decide +kernel)⟩,
   ⟨1, image, (slot 1 0 0 0 10), resident, 0, 0, 0, by decide +kernel⟩,
   ⟨1, image, (slot 1 0 0 0 10), resident, by decide +kernel⟩,
   ⟨0, 1, 7, ({ image with transfers := [{ landTransfer with alt := 8 }] } : Image), ({ (withImage ({ image with transfers := [{ landTransfer with alt := 8 }] } : Image) resident) with sched := { (withImage ({ image with transfers := [{ landTransfer with alt := 8 }] } : Image) resident).sched with runs := [(1, 1)] } } : State), by decide +kernel⟩⟩

theorem met_LinkStates :
    (∃ (l : Nat) (s : State), (((linkAt s l).st = .down ∨ (linkAt s l).st = .lost)))
    ∧ (∃ (l : Nat) (s : State), ((linkAt s l).st ≠ .down) ∧ ((linkAt s l).st ≠ .lost))
    ∧ (∃ (l : Nat) (s : State), ((linkAt s l).st = .down))
    ∧ (∃ (l : Nat) (s : State), ((linkAt s l).st ≠ .down))
    ∧ (∃ (l : Nat) (s : State), ((linkAt s l).st = .training))
    ∧ (∃ (l : Nat) (s : State), ((linkAt s l).st ≠ .training))
    ∧ (∃ (l : Nat) (r : TrainResult) (s : State), ((linkAt s l).st = .training) ∧ ((r.lanes % 16 = 15 ∨ lanePair r.lanes ≠ 0)))
    ∧ (∃ (l : Nat) (r : TrainResult) (s : State), (((linkAt s l).st ≠ .training ∨ (r.lanes % 16 ≠ 15 ∧ lanePair r.lanes = 0))))
    ∧ (∃ (l : Nat) (s : State), ((linkAt s l).st = .up))
    ∧ (∃ (l : Nat) (lane : Nat) (s : State), ((linkAt s l).st = .half) ∧ (bitOf (linkAt s l).lanes lane = true))
    ∧ (∃ (l : Nat) (lane : Nat) (s : State), (((linkAt s l).st = .half ∧ bitOf (linkAt s l).lanes lane = false ∨ (linkAt s l).st = .retrain)))
    ∧ (∃ (l : Nat) (s : State), ((linkAt s l).st ≠ .up) ∧ ((linkAt s l).st ≠ .half) ∧ ((linkAt s l).st ≠ .retrain))
    ∧ (∃ (l : Nat) (s : State), ((linkAt s l).st = .retrain) ∧ (lanePair (linkAt s l).lanes ≠ 0))
    ∧ (∃ (l : Nat) (s : State), (((linkAt s l).st ≠ .retrain ∨ lanePair (linkAt s l).lanes = 0)))
    ∧ (∃ (l : Nat) (s : State), ((linkAt s l).st = .retrain))
    ∧ (∃ (l : Nat) (s : State), ((linkAt s l).st ≠ .retrain))
    ∧ (∃ (l : Nat) (s : State), ((linkAt s l).st = .half) ∧ ((linkAt s l).fencedLanes = []) ∧ ((linkAt s l).widenAt = none) ∧ (s.sched.base = none))
    ∧ (∃ (l : Nat) (s : State) (img : _), ((linkAt s l).st = .half) ∧ ((linkAt s l).fencedLanes = []) ∧ ((linkAt s l).widenAt = none) ∧ (s.sched.base = some img))
    ∧ (∃ (l : Nat) (s : State), (((linkAt s l).st ≠ .half ∨ (linkAt s l).fencedLanes ≠ [] ∨ (linkAt s l).widenAt ≠ none)))
    ∧ (∃ (l : Nat) (s : State), (linkUp s l = true))
    ∧ (∃ (l : Nat) (s : State), (linkUp s l = false)) :=
  ⟨⟨0, (linked { st := .lost } up), by decide +kernel⟩,
   ⟨0, (linked { st := .up } up), by decide +kernel⟩,
   ⟨0, (linked { st := .down } up), by decide +kernel⟩,
   ⟨0, (linked { st := .up } up), by decide +kernel⟩,
   ⟨0, (linked { st := .training } up), by decide +kernel⟩,
   ⟨0, (linked { st := .up } up), by decide +kernel⟩,
   ⟨0, (⟨0xF3, 3, 0, 0, true, true, 100, 0, 0⟩ : TrainResult), (linked { st := .training } up), by decide +kernel⟩,
   ⟨0, (⟨0x1, 3, 0, 0, true, true, 100, 0, 0⟩ : TrainResult), (linked { st := .training } up), by decide +kernel⟩,
   ⟨0, (linked { st := .up } up), by decide +kernel⟩,
   ⟨0, 0, (linked { st := .half, lanes := 0x3 } up), by decide +kernel⟩,
   ⟨0, 3, (linked { st := .half, lanes := 0x3 } up), by decide +kernel⟩,
   ⟨0, (linked { st := .down } up), by decide +kernel⟩,
   ⟨0, (linked { st := .retrain, lanes := 0xF } up), by decide +kernel⟩,
   ⟨0, (linked { st := .retrain, lanes := 0x5 } up), by decide +kernel⟩,
   ⟨0, (linked { st := .retrain } up), by decide +kernel⟩,
   ⟨0, (linked { st := .up } up), by decide +kernel⟩,
   ⟨0, (linked { st := .half, lanes := 0x3 } up), by decide +kernel⟩,
   ⟨0, (linked { st := .half, lanes := 0x3 } resident), image, by decide +kernel⟩,
   ⟨0, (linked { st := .half, lanes := 0x3, fencedLanes := [3] } up), by decide +kernel⟩,
   ⟨0, (linked { st := .up } up), by decide +kernel⟩,
   ⟨0, (linked { st := .down } up), by decide +kernel⟩⟩

theorem met_FramesInSequence :
    (∃ (f : LinkFrame), (f.cls < 256) ∧ (f.type < 256) ∧ (f.len < 65536) ∧ (f.linkSeq < 2 ^ 32) ∧ (f.step < 2 ^ 32) ∧ (f.id < 65536) ∧ (f.frame < 65536) ∧ (f.run < 256) ∧ (f.flags < 256) ∧ (f.src < 4096) ∧ (f.dst < 4096) ∧ (f.epoch < 2 ^ 32) ∧ (f.payload.length = f.len))
    ∧ (∃ (l : Nat) (b : Bytes) (s : State), (linkUp s l = true) ∧ ((readFrame b).hcrcOk = true) ∧ ((readFrame b).pcrcOk = true) ∧ ((readFrame b).linkSeq = (linkAt s l).expected))
    ∧ (∃ (l : Nat) (b : Bytes) (img : Image) (tr : Transfer) (g : Region) (s : State), (linkUp s l = true) ∧ ((readFrame b).hcrcOk = true) ∧ ((readFrame b).pcrcOk = true) ∧ ((readFrame b).linkSeq = (linkAt s l).expected) ∧ ((readFrame b).dst = ownIndex s) ∧ ((readFrame b).cls = 0) ∧ (killedRun s (readFrame b) = false) ∧ (transferImage s (readFrame b).id = some img) ∧ (img.transfers.find? (fun t => t.id == (readFrame b).id && t.dir == 1) = some tr) ∧ ((readFrame b).step = s.sched.step % 2 ^ 32) ∧ (regionAt s tr.region = some g) ∧ (4096 * (readFrame b).frame + (readFrame b).payload.length ≤ g.length) ∧ (Memory.wf (storeAt s tr.region).now = true) ∧ (Memory.wf (storeAt s tr.region).before = true))
    ∧ (∃ (l : Nat) (b : Bytes) (s : State), (linkUp s l = true) ∧ (((readFrame b).hcrcOk = false ∨ ((readFrame b).linkSeq = (linkAt s l).expected ∧ (readFrame b).pcrcOk = false) ∨ ((readFrame b).linkSeq ≠ (linkAt s l).expected ∧ ((readFrame b).linkSeq + 2 ^ 32 - (linkAt s l).expected) % 2 ^ 32 < 2 ^ 31 ∧ (linkAt s l).nakOut = false))))
    ∧ (∃ (l : Nat) (b : Bytes) (s : State), (linkUp s l = true) ∧ ((readFrame b).hcrcOk = true) ∧ ((readFrame b).linkSeq ≠ (linkAt s l).expected) ∧ ((2 ^ 31 ≤ ((readFrame b).linkSeq + 2 ^ 32 - (linkAt s l).expected) % 2 ^ 32 ∨ (linkAt s l).nakOut = true)))
    ∧ (∃ (l : Nat) (s : State), (linkUp s l = false))
    ∧ (∃ (l : Nat) (s : State), (linkUp s l = true))
    ∧ (∃ (l : Nat) (s : State), (linkUp s l = true))
    ∧ (∃ (l : Nat) (seq : Nat) (s : State), (linkUp s l = true) ∧ (¬ ((flowAt s l).nakSeq = seq ∧ (flowAt s l).nakRun = 7)))
    ∧ (∃ (l : Nat) (s : State), (linkUp s l = true) ∧ ((linkAt s l).st = .up))
    ∧ (∃ (l : Nat) (phase : Nat) (s : State), (linkUp s l = true) ∧ (s.cad.beat * 4096 + phase % 4096 < (flowAt s l).busyUntil))
    ∧ (∃ (l : Nat) (phase : Nat) (s : State), (linkUp s l = true) ∧ ((flowAt s l).words ≠ []) ∧ ((flowAt s l).busyUntil ≤ s.cad.beat * 4096 + phase % 4096))
    ∧ (∃ (l : Nat) (phase : Nat) (g : LinkFrame) (rest : List LinkFrame) (s : State), (linkUp s l = true) ∧ ((flowAt s l).words = []) ∧ ((flowAt s l).resend = g :: rest) ∧ ((flowAt s l).busyUntil ≤ s.cad.beat * 4096 + phase % 4096))
    ∧ (∃ (l : Nat) (phase : Nat) (q : Queued) (rest : List Queued) (s : State), (linkUp s l = true) ∧ (s.sched.active = none) ∧ ((flowAt s l).words = []) ∧ ((flowAt s l).resend = []) ∧ ((flowAt s l).busyUntil ≤ s.cad.beat * 4096 + phase % 4096) ∧ ((flowAt s l).sched = []) ∧ ((flowAt s l).ctrl = []) ∧ ((flowAt s l).migr = []) ∧ ((flowAt s l).bulk = q :: rest) ∧ (0 < (flowAt s l).bulkCredit) ∧ (q.via = none) ∧ (linkCarries s l q.frame = true) ∧ (s.cad.beat * 4096 + phase % 4096 + occupancy s l q.frame.len < 2 ^ 80)) :=
  ⟨⟨(⟨0, 0, 2, 0, 1, 7, 0, 0, 0, 3, 0, 0, true, true, [5, 6]⟩ : LinkFrame), by decide +kernel⟩,
   ⟨0, (frameBytes (⟨1, 0, 0, 0, 1, 1, 0, 0, 0, 3, 0, 0, true, true, []⟩ : LinkFrame)), (linked { st := .up, mapOk := true, peerOk := true } up), by decide +kernel⟩,
   ⟨0, (frameBytes (⟨0, 0, 2, 0, 1, 7, 0, 0, 0, 3, 0, 0, true, true, [5, 6]⟩ : LinkFrame)), storeImage, landTransfer, landRegion, (linked { st := .up, mapOk := true, peerOk := true } staged), by decide +kernel⟩,
   ⟨0, (leBytes 40 1), (linked { st := .up, mapOk := true, peerOk := true } up), by decide +kernel⟩,
   ⟨0, (frameBytes (⟨1, 0, 0, 0xFFFFFFFF, 1, 1, 0, 0, 0, 3, 0, 0, true, true, []⟩ : LinkFrame)), (linked { st := .up, mapOk := true, peerOk := true } up), by decide +kernel⟩,
   ⟨0, up, by decide +kernel⟩,
   ⟨0, (linked { st := .up, mapOk := true, peerOk := true } up), by decide +kernel⟩,
   ⟨0, (linked { st := .up, mapOk := true, peerOk := true } up), by decide +kernel⟩,
   ⟨0, 1, (linked { st := .up, mapOk := true, peerOk := true } up), by decide +kernel⟩,
   ⟨0, (linked { st := .up, mapOk := true, peerOk := true } up), by decide +kernel⟩,
   ⟨0, 4095, (flowing { busyUntil := 10 ^ 9 } (linked { st := .up, mapOk := true, peerOk := true } up)), by decide +kernel⟩,
   ⟨0, 4095, (flowing { words := [.ack 1] } (linked { st := .up, mapOk := true, peerOk := true } up)), by decide +kernel⟩,
   ⟨0, 4095, (⟨1, 0, 0, 0, 1, 1, 0, 0, 0, 3, 0, 0, true, true, []⟩ : LinkFrame), [], (flowing { resend := [(⟨1, 0, 0, 0, 1, 1, 0, 0, 0, 3, 0, 0, true, true, []⟩ : LinkFrame)] } (linked { st := .up, mapOk := true, peerOk := true } up)), by decide +kernel⟩,
   ⟨0, 4095, (⟨⟨3, 0, 64, 0, 1, 1, 0, 0, 0, 3, 0, 0, true, true, []⟩, none⟩ : Queued), [], (flowing { bulk := [(⟨⟨3, 0, 64, 0, 1, 1, 0, 0, 0, 3, 0, 0, true, true, []⟩, none⟩ : Queued)], bulkCredit := 1 } (linked { st := .up, mapOk := true, peerOk := true } up)), by decide +kernel⟩⟩

theorem met_BootAndResets :
    (∃ (s : State), ((s.svc.phase = 0 ∨ s.sup.tripped = true ∨ s.sup.stopStage = 4)))
    ∧ (∃ (s : State), (s.svc.phase ≠ 0) ∧ (s.sup.tripped = false) ∧ (s.sup.stopStage ≠ 4))
    ∧ (∃ (s : State), (s.svc.phase = 1))
    ∧ (∃ (s : State), (s.svc.phase ≠ 1))
    ∧ (∃ (s : State), (s.svc.phase = 3))
    ∧ (∃ (s : State), (s.svc.phase ≠ 3))
    ∧ (∃ (s : State), ((s.svc.phase = 0 ∨ s.sup.tripped = true ∨ s.sup.railsOff = true ∨ s.sup.st = .stopping)))
    ∧ (∃ (s : State), (s.svc.phase ≠ 0) ∧ (s.sup.tripped = false) ∧ (s.sup.railsOff = false) ∧ (s.sup.st ≠ .stopping))
    ∧ (∃ (s : State), (2 ≤ s.svc.phase) ∧ (s.svc.phase ≤ 4) ∧ (s.sup.railsOff = false) ∧ (s.sup.st ≠ .stopping))
    ∧ (∃ (s : State), ((s.svc.phase < 2 ∨ 4 < s.svc.phase ∨ s.sup.railsOff = true ∨ s.sup.st = .stopping))) :=
  ⟨⟨State.reset, by decide +kernel⟩,
   ⟨up, by decide +kernel⟩,
   ⟨({ State.reset with svc := { State.reset.svc with phase := 1 } } : State), by decide +kernel⟩,
   ⟨up, by decide +kernel⟩,
   ⟨({ State.reset with svc := { State.reset.svc with phase := 3 } } : State), by decide +kernel⟩,
   ⟨up, by decide +kernel⟩,
   ⟨State.reset, by decide +kernel⟩,
   ⟨up, by decide +kernel⟩,
   ⟨up, by decide +kernel⟩,
   ⟨State.reset, by decide +kernel⟩⟩

theorem met_HostComesAndGoes :
    (∃ (s : State), (s.host.ringEverSet = true) ∧ (s.host.lost = false) ∧ (2 ≤ s.svc.phase) ∧ (s.svc.phase ≤ 4))
    ∧ (∃ (s : State), ((s.host.ringEverSet = false ∨ s.host.lost = true ∨ s.svc.phase < 2 ∨ 4 < s.svc.phase)))
    ∧ (∃ (s : State), (2 ≤ s.svc.phase))
    ∧ (∃ (s : State), (s.svc.phase < 2))
    ∧ (∃ (n : Nat), ((n = 0 ∨ 255 < n)))
    ∧ (∃ (n : Nat) (s : State), (n ≠ 0) ∧ (n ≤ 255) ∧ ((clientOf s n).inflight = 0) ∧ ((clientOf s n).recognised = []) ∧ ((∀ c ∈ s.commands, c.origin.client ≠ n))) :=
  ⟨⟨up, by decide +kernel⟩,
   ⟨State.reset, by decide +kernel⟩,
   ⟨up, by decide +kernel⟩,
   ⟨State.reset, by decide +kernel⟩,
   ⟨0, by decide +kernel⟩,
   ⟨255, up, by decide +kernel⟩⟩

theorem met_UnitsFencedAndSpared :
    (∃ (p : Packet) (s : State) (t : State), (opcodeOf p = 0x72) ∧ (passes never p s = some t) ∧ ((argOf p 20 1 = 0 ∨ 4 < argOf p 20 1)))
    ∧ (∃ (p : Packet) (s : State) (t : State), (opcodeOf p = 0x72) ∧ (passes never p s = some t) ∧ (1 ≤ argOf p 20 1) ∧ (argOf p 20 1 ≤ 4) ∧ (argOf p 20 1 ≠ 3) ∧ (bitOf (argOf p 21 1) 1 = true))
    ∧ (∃ (p : Packet) (s : State) (t : State), (opcodeOf p = 0x72) ∧ (passes never p s = some t) ∧ ((argOf p 20 1 = 1 ∨ argOf p 20 1 = 2)) ∧ (bitOf (argOf p 21 1) 1 = false) ∧ (16 ≤ argOf p 24 4 / 512))
    ∧ (∃ (p : Packet) (s : State) (t : State), (opcodeOf p = 0x72) ∧ (passes never p s = some t) ∧ (argOf p 20 1 = 3) ∧ ((0x400 ≤ argOf p 24 4 ∨ argOf p 24 4 / 32 % 8 ≠ 0)))
    ∧ (∃ (p : Packet) (s : State) (t : State), (opcodeOf p = 0x72) ∧ (passes never p s = some t) ∧ (argOf p 20 1 = 4) ∧ (bitOf (argOf p 21 1) 1 = false) ∧ (256 ≤ argOf p 24 4))
    ∧ (∃ (p : Packet) (d : Nat) (b : Nat) (c : Nat) (s : State) (t : State), (opcodeOf p = 0x72) ∧ (passes never p s = some t) ∧ (argOf p 20 1 = 1) ∧ (bitOf (argOf p 21 1) 1 = false) ∧ (argOf p 24 4 = d * 512 + b * 32 + c) ∧ (d < 16) ∧ (b < 16) ∧ (c < 32))
    ∧ (∃ (p : Packet) (d : Nat) (b : Nat) (c : Nat) (s : State) (t : State), (opcodeOf p = 0x72) ∧ (passes never p s = some t) ∧ (argOf p 20 1 = 1) ∧ (bitOf (argOf p 21 1) 1 = false) ∧ (argOf p 24 4 = d * 512 + b * 32 + c) ∧ (d < 16) ∧ (b < 16) ∧ (c < 32))
    ∧ (∃ (p : Packet) (d : Nat) (b : Nat) (s : State) (t : State), (opcodeOf p = 0x72) ∧ (passes never p s = some t) ∧ (argOf p 20 1 = 2) ∧ (bitOf (argOf p 21 1) 1 = false) ∧ (argOf p 24 4 / 512 = d) ∧ (argOf p 24 4 / 32 % 16 = b) ∧ (d < 16) ∧ ((blockAt t d b).wholeFenced = true))
    ∧ (∃ (p : Packet) (d : Nat) (b : Nat) (s : State) (t : State), (opcodeOf p = 0x72) ∧ (passes never p s = some t) ∧ (argOf p 20 1 = 2) ∧ (bitOf (argOf p 21 1) 1 = false) ∧ (argOf p 24 4 / 512 = d) ∧ (argOf p 24 4 / 32 % 16 = b) ∧ (d < 16))
    ∧ (∃ (p : Packet) (s : State) (t : State), (opcodeOf p = 0x72) ∧ (passes never p s = some t) ∧ (argOf p 20 1 = 3) ∧ (argOf p 24 4 < 0x400) ∧ (argOf p 24 4 / 32 % 8 = 0))
    ∧ (∃ (p : Packet) (k : Nat) (c : Nat) (s : State) (t : State), (opcodeOf p = 0x72) ∧ (passes never p s = some t) ∧ (argOf p 20 1 = 4) ∧ (bitOf (argOf p 21 1) 1 = false) ∧ (argOf p 24 4 = k * 32 + c) ∧ (k < 8) ∧ (c < 32))
    ∧ (∃ (k : Nat) (c : Nat) (s : State), (k < 8) ∧ (c < 32) ∧ ((hbmOf s k).used = 0) ∧ ((hbmOf s k).copying = none) ∧ ((hbmOf s k).due = none) ∧ (c ∉ (hbmOf s k).lost))
    ∧ (∃ (k : Nat) (c : Nat) (s : State), ((hbmOf s k).used = c + 1 ∨ (hbmOf s k).copying = some c ∨ (hbmOf s k).due = some c ∨ c ∈ (hbmOf s k).lost ∨ 8 ≤ k ∨ 32 ≤ c))
    ∧ (∃ (k : Nat) (c : Nat) (s : State), ((hbmOf s k).copying = some c) ∧ (s.sched.active ≠ none))
    ∧ (∃ (k : Nat) (c : Nat) (s : State), ((hbmOf s k).copying = some c) ∧ (s.sched.active = none))
    ∧ (∃ (k : Nat) (s : State), ((hbmOf s k).copying = none))
    ∧ (∃ (d : Nat) (b : Nat) (s : State), ((blockAt s d b).resetting = false) ∧ ((blockAt s d b).wholeFenced = false))
    ∧ (∃ (d : Nat) (b : Nat) (s : State), (((blockAt s d b).resetting = true ∨ (blockAt s d b).wholeFenced = true)))
    ∧ (∃ (d : Nat) (b : Nat) (s : State), ((blockAt s d b).resetting = true) ∧ ((blockAt s d b).wholeFenced = false))
    ∧ (∃ (d : Nat) (b : Nat) (s : State), ((blockAt s d b).resetting = true) ∧ (s.sched.base = none))
    ∧ (∃ (d : Nat) (b : Nat) (s : State) (img : _), ((blockAt s d b).resetting = true) ∧ (s.sched.base = some img))
    ∧ (∃ (d : Nat) (b : Nat) (s : State), ((blockAt s d b).resetting = false)) :=
  ⟨⟨(plain 114 ([5, 0, 0, 0] ++ leBytes 4 0) []), (served (plain 114 ([5, 0, 0, 0] ++ leBytes 4 0) []) up), (after never (plain 114 ([5, 0, 0, 0] ++ leBytes 4 0) []) (served (plain 114 ([5, 0, 0, 0] ++ leBytes 4 0) []) up)), by decide +kernel⟩,
   ⟨(plain 114 ([1, 2, 0, 0] ++ leBytes 4 0) []), (served (plain 114 ([1, 2, 0, 0] ++ leBytes 4 0) []) up), (after never (plain 114 ([1, 2, 0, 0] ++ leBytes 4 0) []) (served (plain 114 ([1, 2, 0, 0] ++ leBytes 4 0) []) up)), by decide +kernel⟩,
   ⟨(plain 114 ([1, 0, 0, 0] ++ leBytes 4 8192) []), (served (plain 114 ([1, 0, 0, 0] ++ leBytes 4 8192) []) up), (after never (plain 114 ([1, 0, 0, 0] ++ leBytes 4 8192) []) (served (plain 114 ([1, 0, 0, 0] ++ leBytes 4 8192) []) up)), by decide +kernel⟩,
   ⟨(plain 114 ([3, 0, 0, 0] ++ leBytes 4 0x400) []), (served (plain 114 ([3, 0, 0, 0] ++ leBytes 4 0x400) []) up), (after never (plain 114 ([3, 0, 0, 0] ++ leBytes 4 0x400) []) (served (plain 114 ([3, 0, 0, 0] ++ leBytes 4 0x400) []) up)), by decide +kernel⟩,
   ⟨(plain 114 ([4, 0, 0, 0] ++ leBytes 4 256) []), (served (plain 114 ([4, 0, 0, 0] ++ leBytes 4 256) []) up), (after never (plain 114 ([4, 0, 0, 0] ++ leBytes 4 256) []) (served (plain 114 ([4, 0, 0, 0] ++ leBytes 4 256) []) up)), by decide +kernel⟩,
   ⟨(plain 114 ([1, 0, 0, 0] ++ leBytes 4 8191) []), 15, 15, 31, (served (plain 114 ([1, 0, 0, 0] ++ leBytes 4 8191) []) up), (after never (plain 114 ([1, 0, 0, 0] ++ leBytes 4 8191) []) (served (plain 114 ([1, 0, 0, 0] ++ leBytes 4 8191) []) up)), by decide +kernel⟩,
   ⟨(plain 114 ([1, 0, 0, 0] ++ leBytes 4 8191) []), 15, 15, 31, (served (plain 114 ([1, 0, 0, 0] ++ leBytes 4 8191) []) up), (after never (plain 114 ([1, 0, 0, 0] ++ leBytes 4 8191) []) (served (plain 114 ([1, 0, 0, 0] ++ leBytes 4 8191) []) up)), by decide +kernel⟩,
   ⟨(plain 114 ([2, 0, 0, 0] ++ leBytes 4 (15 * 512 + 15 * 32)) []), 15, 15, (served (plain 114 ([2, 0, 0, 0] ++ leBytes 4 (15 * 512 + 15 * 32)) []) ({ up with fab := { up.fab with blocks := [(blockKey 15 15, { wholeFenced := true })] } } : State)), (after never (plain 114 ([2, 0, 0, 0] ++ leBytes 4 (15 * 512 + 15 * 32)) []) (served (plain 114 ([2, 0, 0, 0] ++ leBytes 4 (15 * 512 + 15 * 32)) []) ({ up with fab := { up.fab with blocks := [(blockKey 15 15, { wholeFenced := true })] } } : State))), by decide +kernel⟩,
   ⟨(plain 114 ([2, 0, 0, 0] ++ leBytes 4 (15 * 512 + 15 * 32)) []), 15, 15, (served (plain 114 ([2, 0, 0, 0] ++ leBytes 4 (15 * 512 + 15 * 32)) []) up), (after never (plain 114 ([2, 0, 0, 0] ++ leBytes 4 (15 * 512 + 15 * 32)) []) (served (plain 114 ([2, 0, 0, 0] ++ leBytes 4 (15 * 512 + 15 * 32)) []) up)), by decide +kernel⟩,
   ⟨(plain 114 ([3, 0, 0, 0] ++ leBytes 4 (0x300 + 31)) []), (served (plain 114 ([3, 0, 0, 0] ++ leBytes 4 (0x300 + 31)) []) up), (after never (plain 114 ([3, 0, 0, 0] ++ leBytes 4 (0x300 + 31)) []) (served (plain 114 ([3, 0, 0, 0] ++ leBytes 4 (0x300 + 31)) []) up)), by decide +kernel⟩,
   ⟨(plain 114 ([4, 0, 0, 0] ++ leBytes 4 255) []), 7, 31, (served (plain 114 ([4, 0, 0, 0] ++ leBytes 4 255) []) up), (after never (plain 114 ([4, 0, 0, 0] ++ leBytes 4 255) []) (served (plain 114 ([4, 0, 0, 0] ++ leBytes 4 255) []) up)), by decide +kernel⟩,
   ⟨7, 31, up, by decide +kernel⟩,
   ⟨8, 0, up, by decide +kernel⟩,
   ⟨7, 31, ({ resident with tier := { resident.tier with hbm := [(7, { copying := some 31 })] } } : State), by decide +kernel⟩,
   ⟨7, 31, ({ up with tier := { up.tier with hbm := [(7, { copying := some 31 })] } } : State), by decide +kernel⟩,
   ⟨7, up, by decide +kernel⟩,
   ⟨15, 15, up, by decide +kernel⟩,
   ⟨15, 15, ({ up with fab := { up.fab with blocks := [(blockKey 15 15, { resetting := true })] } } : State), by decide +kernel⟩,
   ⟨15, 15, ({ up with fab := { up.fab with blocks := [(blockKey 15 15, { resetting := true })] } } : State), by decide +kernel⟩,
   ⟨15, 15, ({ up with fab := { up.fab with blocks := [(blockKey 15 15, { resetting := true })] } } : State), by decide +kernel⟩,
   ⟨15, 15, ({ resident with fab := { resident.fab with blocks := [(blockKey 15 15, { resetting := true })] } } : State), image, by decide +kernel⟩,
   ⟨15, 15, up, by decide +kernel⟩⟩

theorem met_DimmsServed :
    (∃ (p : Packet) (s : State) (t : State), (opcodeOf p = 0x73) ∧ (argOf p 21 1 ≠ 2) ∧ (passes never p s = some t) ∧ (11 < argOf p 20 1))
    ∧ (∃ (p : Packet) (s : State) (t : State), (opcodeOf p = 0x73) ∧ (argOf p 21 1 ≠ 2) ∧ (passes never p s = some t) ∧ (argOf p 20 1 ≤ 11) ∧ (argOf p 21 1 ≠ 1))
    ∧ (∃ (p : Packet) (s : State) (t : State), (opcodeOf p = 0x73) ∧ (argOf p 21 1 ≠ 2) ∧ (passes never p s = some t) ∧ (argOf p 20 1 ≤ 11) ∧ (argOf p 21 1 = 1) ∧ ((dimmBusy t = true ∨ (ddrAt t (argOf p 20 1)).state ≠ 1)))
    ∧ (∃ (p : Packet) (s : State) (t : State), (opcodeOf p = 0x73) ∧ (argOf p 21 1 ≠ 2) ∧ (passes never p s = some t) ∧ (argOf p 20 1 ≤ 11) ∧ (argOf p 21 1 = 1) ∧ (dimmBusy t = false) ∧ ((ddrAt t (argOf p 20 1)).state = 1) ∧ (t.sched.active ≠ none))
    ∧ (∃ (p : Packet) (c : Nat) (s : State) (t : State), (opcodeOf p = 0x73) ∧ (argOf p 21 1 = 2) ∧ (passes never p s = some t) ∧ (argOf p 20 1 = c) ∧ (11 < c))
    ∧ (∃ (p : Packet) (c : Nat) (s : State) (t : State), (opcodeOf p = 0x73) ∧ (argOf p 21 1 = 2) ∧ (passes never p s = some t) ∧ (argOf p 20 1 = c) ∧ (c ≤ 11) ∧ ((dimmBusy t = true ∨ (ddrAt t c).state ≠ 3)))
    ∧ (∃ (p : Packet) (c : Nat) (s : State) (t : State), (opcodeOf p = 0x73) ∧ (argOf p 21 1 = 2) ∧ (passes never p s = some t) ∧ (argOf p 20 1 = c) ∧ (c ≤ 11) ∧ (dimmBusy t = false) ∧ ((ddrAt t c).state = 3))
    ∧ (∃ (c : Nat) (n : Nat) (s : State), ((ddrAt s c).state = 4) ∧ ((ddrAt s c).stage = 1) ∧ (0 < n) ∧ (n ≤ 256))
    ∧ (∃ (c : Nat) (n : Nat) (good : Bool) (s : State), ((ddrAt s c).state = 4) ∧ ((ddrAt s c).stage = 1) ∧ ((good = false ∨ n = 0 ∨ 256 < n)))
    ∧ (∃ (c : Nat) (s : State), (((ddrAt s c).state ≠ 4 ∨ (ddrAt s c).stage ≠ 1)))
    ∧ (∃ (c : Nat) (s : State), ((ddrAt s c).state = 4) ∧ ((ddrAt s c).stage = 2) ∧ (s.sec.bound = false))
    ∧ (∃ (c : Nat) (s : State), ((ddrAt s c).state = 4) ∧ ((ddrAt s c).stage = 2) ∧ (s.sec.bound = true))
    ∧ (∃ (c : Nat) (s : State), ((ddrAt s c).state = 4) ∧ ((ddrAt s c).stage = 2))
    ∧ (∃ (c : Nat) (s : State), (((ddrAt s c).state ≠ 4 ∨ (ddrAt s c).stage ≠ 2)))
    ∧ (∃ (c : Nat) (s : State), ((ddrAt s c).state = 4) ∧ ((ddrAt s c).stage = 3))
    ∧ (∃ (c : Nat) (s : State), (((ddrAt s c).state ≠ 4 ∨ (ddrAt s c).stage ≠ 3)))
    ∧ (∃ (c : Nat) (s : State), (((ddrAt s c).state = 1 ∨ (ddrAt s c).state = 2)))
    ∧ (∃ (c : Nat) (s : State), ((ddrAt s c).state ≠ 1) ∧ ((ddrAt s c).state ≠ 2))
    ∧ (∃ (c : Nat) (s : State), ((ddrAt s c).restarting = true))
    ∧ (∃ (c : Nat) (s : State), ((ddrAt s c).restarting = true))
    ∧ (∃ (c : Nat) (s : State), ((ddrAt s c).restarting = false))
    ∧ (∃ (c : Nat) (s : State), (c ≤ 11) ∧ ((ddrAt s c).state = 0))
    ∧ (∃ (c : Nat) (s : State), (c ≤ 11) ∧ (((ddrAt s c).state = 1 ∨ (ddrAt s c).state = 2 ∨ (ddrAt s c).state = 4)))
    ∧ (∃ (c : Nat) (s : State), ((11 < c ∨ (ddrAt s c).state = 3)))
    ∧ (∃ (c : Nat) (s : State), ((ddrAt s c).state ≠ 0))
    ∧ (∃ (c : Nat) (s : State), ((ddrAt s c).pwrEn = true))
    ∧ (∃ (c : Nat) (s : State), ((ddrAt s c).pwrEn = false)) :=
  ⟨⟨(plain 115 [12, 1] []), (served (plain 115 [12, 1] []) up), (after never (plain 115 [12, 1] []) (served (plain 115 [12, 1] []) up)), by decide +kernel⟩,
   ⟨(plain 115 [11, 3] []), (served (plain 115 [11, 3] []) up), (after never (plain 115 [11, 3] []) (served (plain 115 [11, 3] []) up)), by decide +kernel⟩,
   ⟨(plain 115 [11, 1] []), (served (plain 115 [11, 1] []) up), (after never (plain 115 [11, 1] []) (served (plain 115 [11, 1] []) up)), by decide +kernel⟩,
   ⟨(plain 115 [11, 1] []), (served (plain 115 [11, 1] []) ({ (running bare) with tier := { (running bare).tier with ddr := [(11, { state := 1, sizeGiB := 64 })] } } : State)), (after never (plain 115 [11, 1] []) (served (plain 115 [11, 1] []) ({ (running bare) with tier := { (running bare).tier with ddr := [(11, { state := 1, sizeGiB := 64 })] } } : State))), by decide +kernel⟩,
   ⟨(plain 115 [12, 2] []), 12, (served (plain 115 [12, 2] []) up), (after never (plain 115 [12, 2] []) (served (plain 115 [12, 2] []) up)), by decide +kernel⟩,
   ⟨(plain 115 [11, 2] []), 11, (served (plain 115 [11, 2] []) up), (after never (plain 115 [11, 2] []) (served (plain 115 [11, 2] []) up)), by decide +kernel⟩,
   ⟨(plain 115 [11, 2] []), 11, (served (plain 115 [11, 2] []) ({ up with tier := { up.tier with ddr := [(11, { state := 3 })] } } : State)), (after never (plain 115 [11, 2] []) (served (plain 115 [11, 2] []) ({ up with tier := { up.tier with ddr := [(11, { state := 3 })] } } : State))), by decide +kernel⟩,
   ⟨11, 256, ({ up with tier := { up.tier with ddr := [(11, { state := 4, stage := 1 })] } } : State), by decide +kernel⟩,
   ⟨11, 256, false, ({ up with tier := { up.tier with ddr := [(11, { state := 4, stage := 1 })] } } : State), by decide +kernel⟩,
   ⟨11, up, by decide +kernel⟩,
   ⟨11, ({ up with tier := { up.tier with ddr := [(11, { state := 4, stage := 2 })] } } : State), by decide +kernel⟩,
   ⟨11, ({ bound with tier := { bound.tier with ddr := [(11, { state := 4, stage := 2 })] } } : State), by decide +kernel⟩,
   ⟨11, ({ up with tier := { up.tier with ddr := [(11, { state := 4, stage := 2 })] } } : State), by decide +kernel⟩,
   ⟨11, up, by decide +kernel⟩,
   ⟨11, ({ up with tier := { up.tier with ddr := [(11, { state := 4, stage := 3, sizeGiB := 64 })] } } : State), by decide +kernel⟩,
   ⟨11, up, by decide +kernel⟩,
   ⟨11, ({ up with tier := { up.tier with ddr := [(11, { state := 2 })] } } : State), by decide +kernel⟩,
   ⟨11, up, by decide +kernel⟩,
   ⟨11, ({ up with tier := { up.tier with ddr := [(11, { state := 1, restarting := true })] } } : State), by decide +kernel⟩,
   ⟨11, ({ up with tier := { up.tier with ddr := [(11, { state := 1, restarting := true })] } } : State), by decide +kernel⟩,
   ⟨11, up, by decide +kernel⟩,
   ⟨11, up, by decide +kernel⟩,
   ⟨11, ({ up with tier := { up.tier with ddr := [(11, { state := 1 })] } } : State), by decide +kernel⟩,
   ⟨12, up, by decide +kernel⟩,
   ⟨11, ({ up with tier := { up.tier with ddr := [(11, { state := 1 })] } } : State), by decide +kernel⟩,
   ⟨11, ({ up with tier := { up.tier with ddr := [(11, { state := 1, pwrEn := true })] } } : State), by decide +kernel⟩,
   ⟨11, up, by decide +kernel⟩⟩

theorem met_MemoryErrorsHandled :
    (∃ (memory : Nat) (row : Nat) (s : State), (memory ≤ 5) ∧ ((∀ b, FMap.get? s.tier.rows (memory * 2 ^ 32 + row) = some b → b + 1000000 < s.cad.beat)))
    ∧ (∃ (memory : Nat) (row : Nat) (s : State) (b : _), (memory ≤ 5) ∧ (FMap.get? s.tier.rows (memory * 2 ^ 32 + row) = some b) ∧ (s.cad.beat ≤ b + 1000000))
    ∧ (∃ (memory : Nat), (5 < memory))
    ∧ (∃ (n : Nat) (g : Segment) (s : State), (FMap.get? s.slots.segments n = some g))
    ∧ (∃ (slot : Nat) (s : State), (((sessionAt s slot).d.state = 1 ∨ (sessionAt s slot).d.state = 2 ∨ (sessionAt s slot).d.state = 3)) ∧ (0 < replayStop (sessionAt (restoreHeader slot s) slot)))
    ∧ (∃ (slot : Nat) (e : ErrorPlace), ((e = .counts slot ∨ e = .constraint slot ∨ e = .unitStore)))
    ∧ (∃ (v : Word64) (s : State), ((v.toNat < s.tier.set.recallTail ∨ s.tier.set.recallHead + s.tier.set.recallSize < v.toNat)))
    ∧ (∃ (v : Word64) (s : State), (s.tier.set.recallTail ≤ v.toNat) ∧ (v.toNat ≤ s.tier.set.recallHead + s.tier.set.recallSize))
    ∧ (∃ (slot : Nat) (s : State) (l : _), (FMap.get? s.tier.set.recalls slot = some l) ∧ ((sessionAt s slot).d.state = 7))
    ∧ (∃ (slot : Nat) (s : State), (FMap.get? s.tier.set.recalls slot = none)) :=
  ⟨⟨5, 9, up, by decide +kernel, none_case (by decide +kernel)⟩,
   ⟨3, 9, ({ (atBeat 1000000) with tier := { up.tier with rows := [(3 * 2 ^ 32 + 9, 0)] } } : State), 0, by decide +kernel⟩,
   ⟨6, by decide +kernel⟩,
   ⟨3, (⟨1, 0, 1⟩ : Segment), ({ up with slots := { up.slots with segments := [(3, ⟨1, 0, 1⟩)] } } : State), by decide +kernel⟩,
   ⟨0, resident, by decide +kernel⟩,
   ⟨0, .unitStore, by decide +kernel⟩,
   ⟨9, ({ up with tier := { up.tier with set := { up.tier.set with recallTail := 10, recallSize := 64, recallHead := 10 } } } : State), by decide +kernel⟩,
   ⟨74, ({ up with tier := { up.tier with set := { up.tier.set with recallTail := 10, recallSize := 64, recallHead := 10 } } } : State), by decide +kernel⟩,
   ⟨0, (recalling (running (withSession { session0 with d := { session0.d with state := 7 } } 1 bound))), [(0, 40)], by decide +kernel⟩,
   ⟨0, up, by decide +kernel⟩⟩

theorem met_RegistersReadAndWritten :
    (∃ (off : Nat) (b : Nat), (b < flagBits off))
    ∧ (∃ (n : Nat), (n < 256))
    ∧ (∃ (off : Nat) (n : Nat), ((n = 4 ∨ n = 8)) ∧ (off % n = 0))
    ∧ (∃ (off : Nat) (n : Nat), (((n ≠ 4 ∧ n ≠ 8) ∨ off % n ≠ 0)))
    ∧ (∃ (v : Word64) (s : State), (journalOn s = true) ∧ (s.tier.set.journalAck ≤ v.toNat) ∧ (v.toNat ≤ s.tier.set.journalHead))
    ∧ (∃ (v : Word64) (s : State), ((journalOn s = false ∨ v.toNat < s.tier.set.journalAck ∨ s.tier.set.journalHead < v.toNat)))
    ∧ (∃ (s : State), (windowOpen s = false))
    ∧ (∃ (s : State), (windowOpen s = true)) :=
  ⟨⟨offCadEvents, 0, by decide +kernel⟩,
   ⟨255, by decide +kernel⟩,
   ⟨0, 4, by decide +kernel⟩,
   ⟨1, 4, by decide +kernel⟩,
   ⟨9, ({ up with tier := { up.tier with set := { up.tier.set with journalBase := 4096, journalSize := 4096, journalHead := 9, journalAck := 3 } } } : State), by decide +kernel⟩,
   ⟨10, ({ up with tier := { up.tier with set := { up.tier.set with journalBase := 4096, journalSize := 4096, journalHead := 9, journalAck := 3 } } } : State), by decide +kernel⟩,
   ⟨up, by decide +kernel⟩,
   ⟨({ up with mgmt := { up.mgmt with winEnable := true } } : State), by decide +kernel⟩⟩

end Sys2Proof.Tests
end

section
/-! SUPPORT and PROOF for O32. A page that a copy pass needs is taken without touching a byte of memory, and a tile lands in that page's frame. -/

namespace Sys2Proof.Machine

/-! ### What an operation keeps -/

/-- What every step of a fold keeps, the fold keeps. -/
theorem foldl_keeps {σ α β : Type} (view : σ → β) {f : σ → α → σ} (hf : ∀ s x, view (f s x) = view s) (l : List α) (s : σ) :
    view (l.foldl f s) = view s := by
  induction l generalizing s with
  | nil => rfl
  | cons x rest ih => rw [List.foldl_cons, ih, hf]

/-- What holds of a state, and of each step of a fold if before it, holds after the fold. -/
theorem foldl_induct {α : Type} (P : State → Prop) {f : State → α → State} (hf : ∀ s x, P s → P (f s x)) (l : List α) {s : State} (h : P s) :
    P (l.foldl f s) := by
  induction l generalizing s with
  | nil => exact h
  | cons x rest ih => exact ih (hf s x h)

/-- Two states that agree once some fields are put aside agree in every view that does not read those fields. -/
theorem eq_of_aside {β : Type} (aside : State → State) (view : State → β) (hv : ∀ s, view (aside s) = view s) {s t : State} (h : aside t = aside s) :
    view t = view s := by
  rw [← hv t, h, hv s]

/-! ### Taking a page -/

/-- The state without what the taking of a page may change. -/
def offPages (s : State) : State := { s with freeCtr := 0, slots := {}, tier := {} }

/-- An entry of the frame table is no byte of memory. -/
theorem offPages_putFrame (a : Nat) (f : Frame) (s : State) : offPages (putFrame a f s) = offPages s := by
  unfold putFrame
  split <;> rfl

@[simp] theorem putFrame_slots (a : Nat) (f : Frame) (s : State) : (putFrame a f s).slots = s.slots := by
  unfold putFrame
  split <;> rfl

theorem offPages_ensurePage (slot no : Nat) (spec : Bool) (s : State) : offPages (ensurePage slot no spec s) = offPages s := by
  unfold ensurePage
  dsimp only
  split
  · rfl
  · exact offPages_putFrame _ _ s

theorem offPages_guestPage (part h no : Nat) (spec : Bool) (s : State) : offPages (guestPage part h no spec s) = offPages s := by
  unfold guestPage
  dsimp only
  split
  · rfl
  · exact offPages_putFrame _ _ s

@[simp] theorem ensurePage_mem (slot no : Nat) (spec : Bool) (s : State) : (ensurePage slot no spec s).mem = s.mem :=
  eq_of_aside offPages State.mem (fun _ => rfl) (offPages_ensurePage slot no spec s)
@[simp] theorem ensurePage_cont (slot no : Nat) (spec : Bool) (s : State) : (ensurePage slot no spec s).cont = s.cont :=
  eq_of_aside offPages State.cont (fun _ => rfl) (offPages_ensurePage slot no spec s)
@[simp] theorem guestPage_mem (part h no : Nat) (spec : Bool) (s : State) : (guestPage part h no spec s).mem = s.mem :=
  eq_of_aside offPages State.mem (fun _ => rfl) (offPages_guestPage part h no spec s)
@[simp] theorem guestPage_cont (part h no : Nat) (spec : Bool) (s : State) : (guestPage part h no spec s).cont = s.cont :=
  eq_of_aside offPages State.cont (fun _ => rfl) (offPages_guestPage part h no spec s)

@[simp] theorem guestAt_putGuest_same (h : Nat) (x : Session) (s : State) : guestAt (putGuest h x s) h = x := by
  simp [guestAt]

/-! ### The frame of a page -/

/-- A page put into a list that has none of its number is the one found there. -/
theorem find?_insertPage {p : Page} {l : List Page} (hp : p.tier = 1) (hl : ∀ g ∈ l, g.no ≠ p.no) :
    (insertPage p l).find? (fun g => g.no == p.no && g.tier == 1) = some p := by
  induction l with
  | nil => simp [insertPage, hp]
  | cons q rest ih =>
    obtain ⟨hq, hrest⟩ := List.forall_mem_cons.1 hl
    simp only [insertPage]
    split
    · simp [hp]
    · simp [hq, ih hrest]

/-- The page found under a number bears it. -/
theorem pages_any_of_pageFrame {x : Session} {no f : Nat} (h : pageFrame x no = some f) : x.pages.any (fun p => p.no == no) = true := by
  obtain ⟨p, hp, -⟩ := Option.map_eq_some_iff.1 h
  have hno := List.find?_some hp
  rw [Bool.and_eq_true] at hno
  exact List.any_eq_true.2 ⟨p, List.mem_of_find?_eq_some hp, hno.1⟩

/-- A page put into a page list that has none of its number gives its frame under that number. -/
theorem pageFrame_insertPage {x y : Session} {p : Page} (hp : p.tier = 1) (hx : ∀ g ∈ x.pages, g.no ≠ p.no) (hy : y.pages = insertPage p x.pages) :
    pageFrame y p.no = some p.frame := by
  rw [pageFrame, hy, find?_insertPage hp hx, Option.map_some]

/-- Of a session before and after a page is taken: where the page stands in T1, or is not there yet, it has a frame afterwards, its own if it had one. -/
theorem pageFrame_taken {x y : Session} {p : Page} {no : Nat} (hn : p.no = no) (hp : p.tier = 1)
    (h : pageFrame x no ≠ none ∨ ∀ g ∈ x.pages, g.no ≠ no)
    (hold : x.pages.any (fun g => g.no == no) = true → y.pages = x.pages)
    (hnew : x.pages.any (fun g => g.no == no) = false → y.pages = insertPage p x.pages) :
    ∃ f, pageFrame y no = some f ∧ ∀ f', pageFrame x no = some f' → f = f' := by
  subst hn
  rcases h with h | h
  · obtain ⟨f, hf⟩ := Option.ne_none_iff_exists'.1 h
    have hy := hold (pages_any_of_pageFrame hf)
    refine ⟨f, ?_, fun f' hf' => Option.some.inj (hf.symm.trans hf')⟩
    rw [← hf, pageFrame, pageFrame, hy]
  · have hno : x.pages.any (fun g => g.no == p.no) = false := by simpa using h
    refine ⟨p.frame, pageFrame_insertPage hp h (hnew hno), fun f' hf' => ?_⟩
    rw [pages_any_of_pageFrame hf'] at hno
    cases hno

theorem pageFrame_ensurePage {slot no : Nat} {spec : Bool} {s : State}
    (h : pageFrame (sessionAt s slot) no ≠ none ∨ ∀ g ∈ (sessionAt s slot).pages, g.no ≠ no) :
    ∃ f, pageFrame (sessionAt (ensurePage slot no spec s) slot) no = some f ∧ ∀ f', pageFrame (sessionAt s slot) no = some f' → f = f' := by
  have hs : sessionAt (takeFrame (sessionAt s slot).d.partition s).2 slot = sessionAt s slot := by simp [sessionAt, takeFrame]
  exact pageFrame_taken (p := ⟨no, 1, false, false, spec, pageIsGlobal (globalRanges s (sessionAt s slot).d.partition) no, false, 0xFF, 0,
      (takeFrame (sessionAt s slot).d.partition s).1⟩) rfl rfl h
    (fun hany => by simp [ensurePage, hany]) (fun hany => by simp [ensurePage, hany, hs])

theorem pageFrame_guestPage {part handle no : Nat} {spec : Bool} {s : State}
    (h : pageFrame (guestAt s handle) no ≠ none ∨ ∀ g ∈ (guestAt s handle).pages, g.no ≠ no) :
    ∃ f, pageFrame (guestAt (guestPage part handle no spec s) handle) no = some f ∧ ∀ f', pageFrame (guestAt s handle) no = some f' → f = f' :=
  pageFrame_taken (p := ⟨no, 1, false, false, spec, pageIsGlobal (globalRanges s part) no, false, 0xFF, 0, (takeFrame part s).1⟩) rfl rfl h
    (fun hany => by simp [guestPage, hany]) (fun hany => by simp [guestPage, hany])

/-! ### The tile -/

/-- Bytes written to memory read as written, and every other byte reads as before. -/
theorem writeMem_reads {a n : Nat} {b : Bytes} {s : State} (hw : Memory.wf s.mem = true) (hn : b.length = n) :
    (∀ i, i < b.length → Memory.read (writeMem a b s).mem (a + i) = b.getD i 0)
      ∧ (∀ k, (k < a ∨ a + n ≤ k) → Memory.read (writeMem a b s).mem k = Memory.read s.mem k) :=
  ⟨fun _ hi => Memory.read_writeBytes_same hw hi, fun _ hk => Memory.read_writeBytes_other (by omega)⟩

/-- A tile for the target's session: its page is ensured, and the tile written at its place of the page's frame (04 R123). -/
theorem execTiles_target {newHandle pageNo tile slot f : Nat} {ho : Handover} {q : Partition} {bytes : Bytes} {s : State}
    (hl : liveSlot s newHandle = some slot) (hst : (sessionAt s slot).d.state = 4) (hh : (sessionAt s slot).handover = some ho) (hs : ho.source = false)
    (hq : partitionAt s (sessionAt s slot).d.partition = some q) (ht : tile < tilesPerPage q) (hb : bytes.length = tileBytes q)
    (hf : pageFrame (sessionAt (ensurePage slot pageNo false s) slot) pageNo = some f) :
    exec (.tiles newHandle pageNo tile bytes) s = .next (writeMem (f + tile * tileBytes q) bytes (ensurePage slot pageNo false s)) := by
  have hq' : partitionAt (ensurePage slot pageNo false s) (sessionAt s slot).d.partition = some q := by
    rw [partitionAt, ensurePage_cont]
    exact hq
  change execTiles newHandle pageNo tile bytes s = _
  simp only [execTiles, hl]
  rw [if_pos ⟨hst, by simp [hh, hs]⟩, hq', hf]
  simp only
  rw [if_pos ⟨ht, hb⟩]

/-- A tile for a session of another home (04 R123, 12 R340; log entry 23). -/
theorem execTiles_guest {newHandle pageNo tile f : Nat} {q : Partition} {bytes : Bytes} {s : State}
    (hl : liveSlot s newHandle = none) (hh : handleHome newHandle ≠ ownIndex s) (hq : partitionAt s (handlePart newHandle) = some q)
    (ht : tile < tilesPerPage q) (hb : bytes.length = tileBytes q)
    (hf : pageFrame (guestAt (guestPage (handlePart newHandle) newHandle pageNo false s) newHandle) pageNo = some f) :
    exec (.tiles newHandle pageNo tile bytes) s
      = .next (writeMem (f + tile * tileBytes q) bytes (guestPage (handlePart newHandle) newHandle pageNo false s)) := by
  have hq' : partitionAt (guestPage (handlePart newHandle) newHandle pageNo false s) (handlePart newHandle) = some q := by
    rw [partitionAt, guestPage_cont]
    exact hq
  change execTiles newHandle pageNo tile bytes s = _
  simp only [execTiles, hl]
  rw [if_neg (by simp [hh, hq]), hq', hf]
  simp only
  rw [if_pos ⟨ht, hb⟩]

/-- Settles O32: the page is there or is taken without a byte of memory changing, and the tile is then one write into its frame. -/
theorem tileStored : Obligations.TileStored := by
  refine ⟨?_, ?_⟩
  · intro newHandle pageNo tile slot ho q bytes s hl hst hh hs hq hp ht hb hw
    obtain ⟨f, hf, hold⟩ := pageFrame_ensurePage (spec := false) hp
    have hwr := writeMem_reads (a := f + tile * tileBytes q) (s := ensurePage slot pageNo false s) (by simpa using hw) hb
    rw [ensurePage_mem] at hwr
    exact ⟨_, f, execTiles_target hl hst hh hs hq ht hb hf, hf, hold, hwr.1, hwr.2⟩
  · intro newHandle pageNo tile q bytes s hl hh hq hp ht hb hw
    obtain ⟨f, hf, hold⟩ := pageFrame_guestPage (part := handlePart newHandle) (spec := false) hp
    have hwr := writeMem_reads (a := f + tile * tileBytes q) (s := guestPage (handlePart newHandle) newHandle pageNo false s) (by simpa using hw) hb
    rw [guestPage_mem] at hwr
    exact ⟨_, f, execTiles_guest hl hh hq ht hb hf, hf, hold, hwr.1, hwr.2⟩

end Sys2Proof.Machine
end

section
/-! SUPPORT. Notices, kills and deferrals (08 R206 to R213): what they may change, and that no flag is cleared by them. -/

namespace Sys2Proof.Machine

/-! ### Flags that stay -/

/-- Every flag that is on in one state is on in another. -/
def FlagsStay (s t : State) : Prop := ∀ off bit, (getFlag s off bit).on = true → (getFlag t off bit).on = true

namespace FlagsStay

variable {s t : State}

theorem refl (s : State) : FlagsStay s s := fun _ _ h => h

theorem trans {u : State} (h : FlagsStay s t) (k : FlagsStay t u) : FlagsStay s u := fun off bit hs => k off bit (h off bit hs)

theorem of_eq (h : t.flags = s.flags) : FlagsStay s t := fun off bit hs => by simpa [getFlag, h] using hs

theorem setFlag (off bit : Nat) (h : FlagsStay s t) : FlagsStay s (setFlag off bit t) := by
  intro off' bit' hs
  by_cases e : flagKey off' bit' = flagKey off bit
  · have hset := getFlag_setFlag_same off bit t
    simp only [getFlag] at hset ⊢
    rw [e, hset]
  · rw [getFlag_setFlag_other t e]
    exact h off' bit' hs

theorem snapshotVictim (v : Record) (h : FlagsStay s t) : FlagsStay s (snapshotVictim v t) := by
  unfold Machine.snapshotVictim
  split
  · exact h
  · split
    · dsimp only
      split
      · exact h
      · exact setFlag _ _ h
    · exact h

theorem storeRecord (sev code : Nat) (body : Bytes) (h : FlagsStay s t) : FlagsStay s (storeRecord sev code body t) := by
  unfold Machine.storeRecord
  dsimp only
  split
  · exact setFlag _ _ h
  · exact foldl_induct (FlagsStay s) (fun _ v hv => snapshotVictim v hv) _ h

theorem report (code : Nat) (body : Bytes) (h : FlagsStay s t) : FlagsStay s (report code body t) := by
  unfold Machine.report reportAt
  have hr : FlagsStay s (rollWindow t) := h.trans (.of_eq (rollWindow_flags t))
  split
  · exact h
  · dsimp only
    split
    · split
      · exact setFlag _ _ hr
      · exact storeRecord _ _ _ hr
    · exact storeRecord _ _ _ hr

end FlagsStay

/-! ### What a notice may change -/

/-- The state without what a notice may change. -/
def offNotice (s : State) : State := { s with sched := {}, fab := {}, cont := {}, evr := {}, flags := [], mgmt := {}, out := {} }

/-- A later state differs only in what a notice may change, and has every flag set that was set. -/
structure ByNotice (s t : State) : Prop where
  frame : offNotice t = offNotice s
  flags : FlagsStay s t

namespace ByNotice

variable {s t : State}

theorem refl (s : State) : ByNotice s s := ⟨rfl, .refl s⟩

theorem mem (h : ByNotice s t) : t.mem = s.mem := eq_of_aside offNotice State.mem (fun _ => rfl) h.frame
theorem slots (h : ByNotice s t) : t.slots = s.slots := eq_of_aside offNotice State.slots (fun _ => rfl) h.frame

/-- The schedule and the Fabric may change as they like. -/
theorem update {u : State} (h : ByNotice s t) (hf : offNotice u = offNotice t) (hg : u.flags = t.flags) : ByNotice s u :=
  ⟨hf.trans h.frame, h.flags.trans (.of_eq hg)⟩

theorem foldl {α : Type} {f : State → α → State} (hf : ∀ t x, ByNotice s t → ByNotice s (f t x)) (l : List α) (h : ByNotice s t) :
    ByNotice s (l.foldl f t) := foldl_induct (ByNotice s) hf l h

theorem ite {c : Prop} [Decidable c] {u : State} (h : ByNotice s t) (k : ByNotice s u) : ByNotice s (if c then t else u) := by
  split
  · exact h
  · exact k

theorem send (m : Msg) (h : ByNotice s t) : ByNotice s (send m t) := h.update rfl rfl

theorem report (code : Nat) (body : Bytes) (h : ByNotice s t) : ByNotice s (report code body t) :=
  ⟨(congrArg offNotice (report_changes code body t)).trans h.frame, h.flags.report code body⟩

theorem countPart (part : Nat) (f : PartitionCounters → PartitionCounters) (h : ByNotice s t) : ByNotice s (countPart part f t) := by
  unfold Machine.countPart
  split
  · exact h
  · exact h.update rfl rfl

theorem voidRun (x : SlotEntry) (ds : List Nat) (h : ByNotice s t) : ByNotice s (voidRun x ds t) := by
  unfold Machine.voidRun
  refine foldl (fun u d hu => ?_) ds ?_
  · exact hu.update rfl rfl
  · exact h.update rfl rfl

theorem deferMb (part mb e : Nat) (h : ByNotice s t) : ByNotice s (deferMb part mb e t) := by
  unfold Machine.deferMb
  split
  · exact h
  · exact h.update rfl rfl

theorem runDefer (n : Notice) (h : ByNotice s t) : ByNotice s (runDefer n t) :=
  deferMb _ _ _ (foldl (fun _ x h => h.voidRun x _) _ h)

theorem settleDefers (h : ByNotice s t) : ByNotice s (settleDefers t) :=
  foldl (fun _ n h => h.runDefer n) _ (h.update rfl rfl)

theorem slipLater (n : Notice) (h : ByNotice s t) : ByNotice s (slipLater n t) := h.update rfl rfl

theorem registerNotice (n : Notice) (h : ByNotice s t) : ByNotice s (registerNotice n t) := by
  unfold Machine.registerNotice
  split
  · exact h
  · have h' : ByNotice s { t with sched := { t.sched with notices := t.sched.notices ++ [n] } } := h.update rfl rfl
    dsimp only
    split
    · exact h'.slipLater n
    · have hr := (h'.report 0x401 (noticeBytes n)).countPart n.partition (fun c => { c with aborts := c.aborts + 1 })
      refine ite (slipLater n ?_) ?_ <;>
        (split
         · exact ite (hr.voidRun _ _) hr
         · exact hr)
    · exact settleDefers (((h'.report _ _).countPart _ _).update rfl rfl)
    · exact (h'.report _ _).update rfl rfl
    · exact h'

theorem sendNotice (peers : List Nat) (n : Notice) (h : ByNotice s t) : ByNotice s (sendNotice peers n t) :=
  registerNotice n (foldl (fun _ _ h => h.send _) peers h)

theorem sendDefer (x : SlotEntry) (run e : Nat) (h : ByNotice s t) : ByNotice s (sendDefer x run e t) := h.sendNotice _ _

theorem killRun (id : Nat) (ds : List Nat) (h : ByNotice s t) : ByNotice s (killRun id ds t) := by
  unfold Machine.killRun
  split
  · split
    · exact h
    · dsimp only
      split
      · split
        · exact h.sendNotice _ _
        · exact (h.sendNotice _ _).sendDefer _ _ _
      · split
        · exact (h.voidRun _ _).sendNotice _ _
        · exact (h.voidRun _ _).sendDefer _ _ _
  · exact h

theorem killCommand (id district : Nat) (h : ByNotice s t) : ByNotice s (killCommand id district t) :=
  killRun id [district] (h.update rfl rfl)

theorem deferAll (e : Nat) (h : ByNotice s t) : ByNotice s (deferAll e t) := by
  unfold Machine.deferAll
  split
  · exact h
  · refine foldl (fun u r hu => ?_) _ h
    dsimp only
    split
    · exact hu
    · exact foldl (fun _ _ h => h.sendNotice _ _) _ hu

end ByNotice

end Sys2Proof.Machine
end

section
/-! SUPPORT for O50. What a span of beats, an activation and the rest of a step boundary leave as it was (01 R30; 08 R202, R203). -/

namespace Sys2Proof.Machine

/-! ### Beats that pass -/

theorem passBeats_changes (n : Nat) (s : State) :
    passBeats n s = { s with cad := (passBeats n s).cad, clients := (passBeats n s).clients, cal := (passBeats n s).cal } := by
  unfold passBeats takeSource
  split <;> rfl

@[simp] theorem passBeats_sched (n : Nat) (s : State) : (passBeats n s).sched = s.sched := by rw [passBeats_changes]
@[simp] theorem passBeats_comp (n : Nat) (s : State) : (passBeats n s).comp = s.comp := by rw [passBeats_changes]
@[simp] theorem passBeats_mem (n : Nat) (s : State) : (passBeats n s).mem = s.mem := by rw [passBeats_changes]
@[simp] theorem passBeats_slots (n : Nat) (s : State) : (passBeats n s).slots = s.slots := by rw [passBeats_changes]

@[simp] theorem passBeats_beat (n : Nat) (s : State) : (passBeats n s).cad.beat = (s.cad.beat + n) % 2 ^ 63 := by
  unfold passBeats takeSource
  split <;> rfl

@[simp] theorem passBeats_departAt (n : Nat) (s : State) : (passBeats n s).cad.departAt = s.cad.departAt := by
  unfold passBeats takeSource
  split <;> rfl

/-! ### An image is put in force -/

/-- The state without its Fabric. -/
def offFab (s : State) : State := { s with fab := {} }

@[simp] theorem offFab_loadStores (d b : Nat) (cores : List Nat) (s : State) : offFab (loadStores d b cores s) = offFab s := by
  unfold loadStores
  split <;> rfl

theorem offFab_modDistrict (d : Nat) (f : District → District) (s : State) : offFab (modDistrict d f s) = offFab s := rfl

/-- What the update of one District keeps, the update of several does. -/
theorem foldl_modDistrict {β : Type} (view : State → β) (hv : ∀ d f s, view (modDistrict d f s) = view s) (f : District → District) (l : List Nat) (s : State) :
    view (l.foldl (fun s d => modDistrict d f s) s) = view s := foldl_keeps view (fun _ _ => hv _ _ _) l s

theorem offFab_loadImage (img : Image) (s : State) : offFab (loadImage img s) = offFab s :=
  foldl_keeps offFab (fun _ _ => offFab_loadStores _ _ _ _) _ _

theorem offFab_declareAdapter (key : Nat) (h : AdapterShape) (s : State) : offFab (declareAdapter key h s) = offFab s := by
  unfold declareAdapter
  split <;> rfl

theorem offFab_declareAdapters (img : Image) (s : State) : offFab (declareAdapters img s) = offFab s :=
  foldl_keeps offFab (fun _ _ => foldl_keeps offFab (fun _ _ => offFab_declareAdapter _ _ _) _ _) _ _

/-- The schedule an image leaves when it is put in force (08 R203, R220). -/
def inForce (img : Image) (at_ : Nat) (x : Schedule) : Schedule :=
  { x with
    active := some img, base := some img, applied := [], step := (at_ - img.anchor) / max 1 img.stepBeats
    plans := x.plans.map (fun q => if q.img.base = img.facts.trailer then q else { q with armed := false }) }

/-- An image put in force changes the Fabric, the schedule and what its records change, and nothing else. -/
theorem putImage_view {β : Type} (view : State → β) (hf : ∀ s, view (offFab s) = view s) (hr : ∀ code body s, view (report code body s) = view s)
    (img : Image) (at_ : Nat) (s : State) : view (putImage img at_ s) = view { s with sched := inForce img at_ s.sched } := by
  unfold putImage
  dsimp only
  rw [foldl_keeps view (fun u r => hr _ _ u), foldl_modDistrict view (fun d f u => eq_of_aside offFab view hf (offFab_modDistrict d f u))]
  apply eq_of_aside offFab view hf
  rw [offFab_declareAdapters, offFab_loadImage]
  rfl

@[simp] theorem putImage_sched (img : Image) (at_ : Nat) (s : State) : (putImage img at_ s).sched = inForce img at_ s.sched :=
  putImage_view State.sched (fun _ => rfl) report_sched img at_ s
@[simp] theorem putImage_cad (img : Image) (at_ : Nat) (s : State) : (putImage img at_ s).cad = s.cad :=
  putImage_view State.cad (fun _ => rfl) report_cad img at_ s
@[simp] theorem putImage_comp (img : Image) (at_ : Nat) (s : State) : (putImage img at_ s).comp = s.comp :=
  putImage_view State.comp (fun _ => rfl) report_comp img at_ s
@[simp] theorem putImage_mem (img : Image) (at_ : Nat) (s : State) : (putImage img at_ s).mem = s.mem :=
  putImage_view State.mem (fun _ => rfl) report_mem img at_ s

/-- A checked image whose ACTIVATE_AT has come is put in force, and SCHEDULE_LOAD is answered (08 R203; log entry 76). -/
theorem stagedDue_checked {g : StagedImage} {s : State} (hg : s.sched.staged = some g) (hc : g.checked = true) (hb : g.activateAt ≤ s.cad.beat) :
    stagedDue s = finish .schedule ok (putImage g.img g.activateAt { s with sched := { s.sched with staged := none, halted := [], fallbacks := [] } }) := by
  unfold stagedDue
  simp only [hg, hc, Bool.not_true, Bool.false_eq_true, false_and, if_false]
  rw [if_pos hb]

/-! ### The rest of the boundary -/

/-- With no FALLBACK waiting, none lands. -/
theorem fallbacksDue_none {s : State} (h : s.sched.fallbacks = []) : fallbacksDue s = s := by
  unfold fallbacksDue
  rw [h]
  simp only [List.filter_nil, List.foldl_nil]
  conv => rhs; rw [show s = { s with sched := { s.sched with fallbacks := [] } } by rw [← h]]

/-- With no departure named, none has landed. -/
theorem departed_none {s : State} (h : s.sched.departures = []) (hd : s.cad.departAt = none) : departed s = s := by
  unfold departed
  simp only [h, hd, List.filter_nil]
  conv => rhs; rw [show s = { s with sched := { s.sched with departures := [] } } by rw [← h]]
  rfl

theorem landing_none {s : State} (h : s.sched.departures = []) (hd : s.cad.departAt = none) : landing_ s = [] := by
  simp [landing_, dueDepartures, h, hd]

/-- Links and Blocks that come back change neither cadence, memory, schedule nor composition. -/
theorem unitsBack_view {β : Type} (view : State → β) (hb : ∀ d b f s, view (modBlock d b f s) = view s) (hl : ∀ l x s, view (putLink l x s) = view s)
    (hr : ∀ code body s, view (report code body s) = view s) (hs : ∀ off bit s, view (setFlag off bit s) = view s) (s : State) :
    view (unitsBack s) = view s := by
  unfold unitsBack
  dsimp only
  refine (foldl_keeps view (fun s l => ?_) _ _).trans (foldl_keeps view (fun _ _ => hb _ _ _ _) _ _)
  have hw : ∀ t : State, view (widenLink l t) = view t := fun t => by
    simp only [widenLink, enterLink, hs, hr, modLink, hl]
  split
  · rw [hw, modLink, hl]
  · rw [modLink, hl]

@[simp] theorem unitsBack_cad (s : State) : (unitsBack s).cad = s.cad :=
  unitsBack_view State.cad modBlock_cad putLink_cad report_cad setFlag_cad s
@[simp] theorem unitsBack_mem (s : State) : (unitsBack s).mem = s.mem :=
  unitsBack_view State.mem modBlock_mem putLink_mem report_mem setFlag_mem s
@[simp] theorem unitsBack_sched (s : State) : (unitsBack s).sched = s.sched :=
  unitsBack_view State.sched modBlock_sched putLink_sched report_sched setFlag_sched s
@[simp] theorem unitsBack_comp (s : State) : (unitsBack s).comp = s.comp :=
  unitsBack_view State.comp modBlock_comp putLink_comp report_comp setFlag_comp s

/-- Pulls from leaving lenders are queued: only the Mover's operations change (15 R413). -/
theorem pullLeaving_view {β : Type} (view : State → β) (ht : ∀ (x : Tiers) s, view { s with tier := x } = view s) (s : State) :
    view (pullLeaving s) = view s := by
  refine foldl_keeps view (fun s m => foldl_keeps view (fun s slot => ?_) _ s) _ s
  split
  · rfl
  · dsimp only
    split
    · exact ht _ _
    · split
      · exact ht _ _
      · rfl

/-- With no map staged, order 5 sends the map's digest and queues pulls. -/
theorem order5_view {β : Type} (view : State → β) (ht : ∀ (x : Tiers) s, view { s with tier := x } = view s) (hs : ∀ m s, view (send m s) = view s)
    {s : State} (h : s.comp.staged = none) : view (order5 s) = view s := by
  unfold order5
  rw [h]
  refine (pullLeaving_view view ht _).trans ?_
  unfold sendDigests
  split
  · rfl
  · exact foldl_keeps view (fun _ _ => hs _ _) _ _

/-- A boundary with no image in force and nothing but a checked image due: the image is activated (08 R203). -/
theorem execStepBoundary_activates {g : StagedImage} {s : State} (ha : s.sched.active = none) (hg : s.sched.staged = some g) (hc : g.checked = true)
    (hm : s.comp.staged = none) (hd : s.sched.departures = []) (hl : s.cad.departAt = none) (hlo : s.cad.beat ≤ g.activateAt) (hhi : g.activateAt < 2 ^ 63) :
    ∃ t, exec .stepBoundary s = .next t ∧ t.sched = inForce g.img g.activateAt { s.sched with staged := none, halted := [], fallbacks := [] }
      ∧ t.cad.beat = g.activateAt ∧ t.mem = s.mem := by
  have hb : boundaryBeat s = g.activateAt := by simp [boundaryBeat, ha, hg, hc, hm]
  obtain ⟨p, hp⟩ : ∃ p, p = passBeats (g.activateAt - s.cad.beat) s := ⟨_, rfl⟩
  have hpb : p.cad.beat = g.activateAt := by
    rw [hp, passBeats_beat, Nat.add_sub_cancel' hlo, Nat.mod_eq_of_lt hhi]
  have hps : p.sched = s.sched := by rw [hp, passBeats_sched]
  have hpd : p.cad.departAt = none := by rw [hp, passBeats_departAt, hl]
  obtain ⟨a, haeq⟩ : ∃ a, a = stagedDue p := ⟨_, rfl⟩
  have hst := stagedDue_checked (s := p) (by rw [hps, hg]) hc (by rw [hpb])
  have has : a.sched = inForce g.img g.activateAt { s.sched with staged := none, halted := [], fallbacks := [] } := by
    rw [haeq, hst, finish_sched, putImage_sched, hps]
  have hac : a.cad = p.cad := by rw [haeq, hst, finish_cad, putImage_cad]
  have ham : a.mem = s.mem := by rw [haeq, hst, finish_mem, putImage_mem, hp, passBeats_mem]
  have hacomp : a.comp.staged = none := by rw [haeq, hst, finish_comp, putImage_comp, hp, passBeats_comp, hm]
  have h3 : order3 p = unitsBack a := by
    unfold order3
    dsimp only
    rw [landing_none (by rw [hps, hd]) hpd, List.foldl_nil, ← haeq, fallbacksDue_none (by rw [has]; rfl), departed_none]
    · rw [unitsBack_sched, has]
      exact hd
    · rw [unitsBack_cad, hac, hpd]
  have hc5 : (unitsBack a).comp.staged = none := by rw [unitsBack_comp, hacomp]
  refine ⟨order5 (unitsBack a), ?_, ?_, ?_, ?_⟩
  · change execStepBoundary s = _
    unfold execStepBoundary
    rw [hb, ← hp]
    dsimp only
    rw [hps, ha, h3]
  · rw [order5_view State.sched (fun _ _ => rfl) send_sched hc5, unitsBack_sched, has]
  · rw [order5_view State.cad (fun _ _ => rfl) send_cad hc5, unitsBack_cad, hac, hpb]
  · rw [order5_view State.mem (fun _ _ => rfl) send_mem hc5, unitsBack_mem, ham]

end Sys2Proof.Machine
end

section
/-! SUPPORT for O50. The end of a step (11 R314; 07 R191) and the start of a slot (02 R38; 07 R179; 08 R502). -/

namespace Sys2Proof.Machine

/-! ### Tables -/

theorem FMap.get?_mapVals {α : Type} (f : Nat → α → α) (m : FMap α) (k : Nat) : FMap.get? (FMap.mapVals f m) k = (FMap.get? m k).map (f k) := by
  induction m with
  | nil => rfl
  | cons e rest ih =>
    obtain ⟨a, v⟩ := e
    simp only [FMap.mapVals, FMap.get?]
    split
    · next h => rw [h, Option.map_some]
    · exact ih

theorem FMap.mem_keys_of_get? {α : Type} {m : FMap α} {k : Nat} {v : α} (h : FMap.get? m k = some v) : k ∈ m.map (fun e => e.1) := by
  induction m with
  | nil => cases h
  | cons e rest ih =>
    obtain ⟨a, w⟩ := e
    simp only [FMap.get?] at h
    rw [List.map_cons, List.mem_cons]
    split at h
    · next ha => exact .inl ha.symm
    · exact .inr (ih h)

/-! ### The counters of a step that ends -/

/-- Measured values change the Fabric, the supply, the cadence and the draws, and nothing else. -/
def offMeasured (s : State) : State := { s with freeCtr := 0, fab := {}, sup := {}, cad := {} }

theorem offMeasured_measureStep (s : State) : offMeasured (measureStep s) = offMeasured s :=
  foldl_keeps offMeasured (f := fun s d => modDistrict d _ (freeValue s).2) (fun _ _ => rfl) _ s

/-- The kills of a District start again with the step. -/
theorem kills_foldl {l : List Nat} {g : State → Nat → State} (hsame : ∀ t a, ∃ k, FMap.get? (g t a).fab.districts a = some k ∧ k.kills = 0)
    (hother : ∀ t a b, b ≠ a → FMap.get? (g t a).fab.districts b = FMap.get? t.fab.districts b) {s : State}
    (h : ∀ d k, FMap.get? s.fab.districts d = some k → d ∈ l ∨ k.kills = 0) (d : Nat) (k : District)
    (hk : FMap.get? (l.foldl g s).fab.districts d = some k) : k.kills = 0 := by
  induction l generalizing s with
  | nil => exact (h d k hk).resolve_left List.not_mem_nil
  | cons a rest ih =>
    refine ih (s := g s a) (fun e k' he => ?_) hk
    by_cases hea : e = a
    · subst hea
      obtain ⟨k0, hk0, hz⟩ := hsame s e
      rw [hk0] at he
      exact .inr (Option.some.inj he ▸ hz)
    · rw [hother s a e hea] at he
      rcases h e k' he with hm | hz
      · exact .inl ((List.mem_cons.1 hm).resolve_left hea)
      · exact .inr hz

theorem measureStep_kills (s : State) (d : Nat) (k : District) (hk : FMap.get? (measureStep s).fab.districts d = some k) : k.kills = 0 :=
  kills_foldl (g := fun s d => modDistrict d (fun k => { k with util := (freeValue s).1 % 2 ^ 16, killsLast := k.kills, kills := 0 }) (freeValue s).2)
    (fun _ _ => ⟨_, FMap.get?_put_same _ _ _, rfl⟩) (fun _ _ _ he => FMap.get?_put_other _ _ he)
    (fun _ _ he => .inl (FMap.mem_keys_of_get? he)) d k hk

/-- The counters stand as STATS_READ gives them, and every District's kills start again (11 R314, 07 R191). -/
theorem measureStep_latchCounters (s : State) :
    (measureStep (latchCounters s)).latched = (measureStep (latchCounters s)).counters
      ∧ (∀ k q, FMap.get? (measureStep (latchCounters s)).cont.partitions k = some q → q.latched = q.counters)
      ∧ (∀ d k, FMap.get? (measureStep (latchCounters s)).fab.districts d = some k → k.kills = 0) := by
  have hm := offMeasured_measureStep (latchCounters s)
  have hl : (measureStep (latchCounters s)).latched = (latchCounters s).latched := eq_of_aside offMeasured State.latched (fun _ => rfl) hm
  have hc : (measureStep (latchCounters s)).counters = (latchCounters s).counters := eq_of_aside offMeasured State.counters (fun _ => rfl) hm
  have hp : (measureStep (latchCounters s)).cont = (latchCounters s).cont := eq_of_aside offMeasured State.cont (fun _ => rfl) hm
  refine ⟨hl.trans hc.symm, fun k q hq => ?_, measureStep_kills _⟩
  rw [hp] at hq
  obtain ⟨p, -, rfl⟩ := Option.map_eq_some_iff.1 ((FMap.get?_mapVals _ _ _).symm.trans hq)
  rfl

/-! ### A slot starts -/

/-- A slot that starts: it is marked, the regions whose lifetime has not begun or has ended are dead, its Districts run it (07 R177, R179). -/
def slotBegun (img : Image) (x : SlotEntry) (id : Nat) (u : State) : State :=
  (slotDistricts x).foldl (fun s d => modDistrict d (fun k => { k with running := true, slot := id }) s)
    (dropDead img (x.start * 4096) { u with sched := { u.sched with done := u.sched.done ++ [id] } })

theorem mem_slotDistricts {x : SlotEntry} {d : Nat} : d ∈ slotDistricts x ↔ d < 16 ∧ bitOf x.districts d = true := by
  simp [slotDistricts]

/-- The same update of some Districts: each of them has it, and no other changes. -/
theorem districts_foldl (P : District → Prop) {f : District → District} (hf : ∀ k, P (f k)) (l : List Nat) (s : State) (d : Nat) :
    (d ∈ l → P (FMap.getD (l.foldl (fun s d => modDistrict d f s) s).fab.districts d {}))
      ∧ (d ∉ l → FMap.getD (l.foldl (fun s d => modDistrict d f s) s).fab.districts d {} = FMap.getD s.fab.districts d {}) := by
  induction l generalizing s with
  | nil => exact ⟨fun h => absurd h List.not_mem_nil, fun _ => rfl⟩
  | cons a rest ih =>
    obtain ⟨hin, hout⟩ := ih (modDistrict a f s)
    have hput : ∀ e, e ≠ a → FMap.getD (modDistrict a f s).fab.districts e {} = FMap.getD s.fab.districts e {} :=
      fun e he => FMap.getD_put_other _ _ _ he
    rw [List.foldl_cons]
    constructor
    · intro hd
      by_cases hr : d ∈ rest
      · exact hin hr
      · obtain rfl : d = a := (List.mem_cons.1 hd).resolve_right hr
        rw [hout hr]
        simpa [modDistrict] using hf _
    · intro hd
      obtain ⟨hda, hr⟩ := not_or.1 (fun h => hd (List.mem_cons.2 h))
      rw [hout hr, hput d hda]

theorem slotBegun_off (img : Image) (x : SlotEntry) (id : Nat) (u : State) :
    slotBegun img x id u = { u with sched := { u.sched with done := u.sched.done ++ [id] }, fab := (slotBegun img x id u).fab } := by
  have h : offFab (slotBegun img x id u) = offFab { u with sched := { u.sched with done := u.sched.done ++ [id] } } :=
    foldl_modDistrict offFab offFab_modDistrict _ _ _
  generalize slotBegun img x id u = v at h ⊢
  cases v
  simp only [offFab, State.mk.injEq] at h ⊢
  simpa using h

theorem slotBegun_store (img : Image) (x : SlotEntry) (id i : Nat) (u : State) :
    storeAt (slotBegun img x id u) i = aliveAt img (x.start * 4096) i (storeAt u i) := by
  have h : (slotBegun img x id u).fab.store = (dropDead img (x.start * 4096) { u with sched := { u.sched with done := u.sched.done ++ [id] } }).fab.store :=
    foldl_modDistrict (fun s => s.fab.store) (fun _ _ _ => rfl) _ _ _
  rw [storeAt, h]
  exact storeAt_dropDead img _ i _

theorem slotBegun_runs (img : Image) (x : SlotEntry) (id : Nat) (u : State) {d : Nat} (hd : d < 16) (hb : bitOf x.districts d = true) :
    (FMap.getD (slotBegun img x id u).fab.districts d {}).running = true ∧ (FMap.getD (slotBegun img x id u).fab.districts d {}).slot = id :=
  (districts_foldl (fun k => k.running = true ∧ k.slot = id) (fun _ => ⟨rfl, rfl⟩) _ _ d).1 (mem_slotDistricts.2 ⟨hd, hb⟩)

theorem slotBegun_others (img : Image) (x : SlotEntry) (id : Nat) (u : State) {d : Nat} (h : 16 ≤ d ∨ bitOf x.districts d = false) :
    FMap.getD (slotBegun img x id u).fab.districts d {} = FMap.getD u.fab.districts d {} := by
  refine (districts_foldl (fun _ => True) (fun _ => trivial) _ _ d).2 (fun hm => ?_)
  obtain ⟨hlt, hbit⟩ := mem_slotDistricts.1 hm
  rcases h with h | h
  · omega
  · rw [h] at hbit
    cases hbit

theorem needsLost_congr {s t : State} (hd : s.sched.departures = t.sched.departures) (hl : s.links = t.links) (img : Image) (id : Nat) :
    needsLost s img id = needsLost t img id := by
  unfold needsLost linkUp linkAt
  rw [hd, hl]

/-! ### A member enters its pass -/

/-- The entry of a member takes pages or empties its place. -/
theorem enterMember_view {β : Type} (view : State → β) (hp : ∀ s, view (offPages s) = view s) (he : ∀ h s, view (emptyPlace h s) = view s)
    (part : Nat) (p : Place) (s : State) : view (enterMember part p s) = view s := by
  have hens : ∀ slot no spec s, view (ensurePage slot no spec s) = view s := fun _ _ _ _ => eq_of_aside offPages view hp (offPages_ensurePage _ _ _ _)
  have hgst : ∀ part h no spec s, view (guestPage part h no spec s) = view s := fun _ _ _ _ _ => eq_of_aside offPages view hp (offPages_guestPage _ _ _ _ _)
  unfold enterMember
  split
  · split
    · rfl
    · unfold enterGuest
      split
      · rfl
      · dsimp only
        split
        · rw [hgst, foldl_keeps view (fun s no => hgst _ _ no _ s)]
        · rw [foldl_keeps view (fun s no => hgst _ _ no _ s)]
  · split
    · unfold enterPass
      dsimp only
      split
      · rw [hens, foldl_keeps view (fun s no => hens _ no _ s)]
      · rw [foldl_keeps view (fun s no => hens _ no _ s)]
    · exact he _ _

/-- A slot that starts: what its entry, if it is one, adds to `slotBegun` leaves the Fabric and the slots that ran as they are. -/
theorem execSlotStart_starts {id : Nat} {img : Image} {x : SlotEntry} {s u : State} (hi : slotImage s id = some img) (hx : activeSlot s id = some x)
    (hd : id ∉ s.sched.done) (hl : x.lane ≤ 1) (hr : s.sup.st ≠ .reduced) (hs : s.sup.st ≠ .stopping)
    (hu : u = settleDefers (passBeats (slotBeat s img x - s.cad.beat) s)) (hn : needsLost u img id = false) :
    ∃ t, exec (.slotStart id) s = .next t ∧ t.fab = (slotBegun img x id u).fab ∧ t.sched.done = u.sched.done ++ [id]
      ∧ (isEntry img x = false → t = slotBegun img x id u) := by
  have hoff := slotBegun_off img x id u
  have hn' : needsLost (slotBegun img x id u) img id = false := by
    rw [← hn]
    exact needsLost_congr (by rw [hoff]) (by rw [hoff]) img id
  have hdone : (slotBegun img x id u).sched.done = u.sched.done ++ [id] := by rw [hoff]
  have hex : exec (.slotStart id) s = (if isEntry img x then
      match (slotBegun img x id u).sched.sealNow.find? (fun m => m.partition == x.partition && m.microbatch == x.microbatch) with
      | none => .next (slotBegun img x id u)
      | some m => .next ((m.places.filter (fun p => !p.withdrawn && p.piece == 0)).foldl (fun s p => enterMember x.partition p s) (slotBegun img x id u))
    else .next (slotBegun img x id u)) := by
    change execSlotStart id s = _
    unfold execSlotStart
    simp only [hi, hx]
    rw [if_neg (by simp [hd, hr, hs]; omega), ← hu]
    change (if needsLost (slotBegun img x id u) img id then _ else _) = _
    rw [if_neg (by simp [hn'])]
    rfl
  rw [hex]
  split
  · next hentry =>
    split
    · exact ⟨_, rfl, rfl, hdone, fun h => by simp [h] at hentry⟩
    · refine ⟨_, rfl, ?_, ?_, fun h => by simp [h] at hentry⟩
      · exact foldl_keeps State.fab (fun s p => enterMember_view State.fab (fun _ => rfl) (fun _ _ => rfl) _ p s) _ _
      · rw [← hdone]
        exact foldl_keeps (fun s => s.sched.done) (fun s p => enterMember_view (fun s => s.sched.done) (fun _ => rfl) (fun _ _ => rfl) _ p s) _ _
  · exact ⟨_, rfl, rfl, hdone, fun _ => rfl⟩

/-- A slot the device has not, one that ran, one of another lane, and any slot in REDUCED and STOPPING, does not start. -/
theorem execSlotStart_held {id : Nat} {s : State} (h : s.sup.st = .reduced ∨ s.sup.st = .stopping ∨ id ∈ s.sched.done ∨ activeSlot s id = none
    ∨ ∃ x, activeSlot s id = some x ∧ 1 < x.lane) : exec (.slotStart id) s = .next s := by
  change execSlotStart id s = _
  unfold execSlotStart
  split
  · next img x _ hx =>
    rw [if_pos]
    rcases h with h | h | h | h | ⟨y, hy, hlane⟩
    · exact .inr (.inr (.inl h))
    · exact .inr (.inr (.inr h))
    · exact .inl (by simpa using h)
    · rw [h] at hx
      cases hx
    · rw [hx] at hy
      obtain rfl := Option.some.inj hy
      exact .inr (.inl hlane)
  · rfl

end Sys2Proof.Machine
end

section
/-! SUPPORT for O50. The Plaza lane (03 R69, R73, R74; 09 R227): every ledger tail joins its body, and no byte of memory changes. -/

namespace Sys2Proof.Machine

/-! ### Ledgers that stand -/

/-- Every session's ledger, body and tail, is the same. -/
def LedgersStay (s t : State) : Prop := ∀ n, (sessionAt t n).body = (sessionAt s n).body ∧ (sessionAt t n).tail = (sessionAt s n).tail

namespace LedgersStay

variable {s t : State}

theorem refl (s : State) : LedgersStay s s := fun _ => ⟨rfl, rfl⟩

theorem trans {u : State} (h : LedgersStay s t) (k : LedgersStay t u) : LedgersStay s u :=
  fun n => ⟨(k n).1.trans (h n).1, (k n).2.trans (h n).2⟩

theorem of_slots (h : t.slots = s.slots) : LedgersStay s t := fun n => by simp [sessionAt, h]

theorem modSession {f : Session → Session} (slot : Nat) (hf : ∀ x, (f x).body = x.body ∧ (f x).tail = x.tail) (s : State) :
    LedgersStay s (modSession slot f s) := by
  intro n
  by_cases h : n = slot
  · subst h
    rw [sessionAt_modSession_same]
    exact hf _
  · rw [sessionAt_modSession_other _ _ h]
    exact ⟨rfl, rfl⟩

/-- A table whose sessions are changed one by one, each with its ledger kept. -/
theorem mapVals {f : Nat → Session → Session} (hd : ∀ k, f k {} = {}) (hf : ∀ k x, (f k x).body = x.body ∧ (f k x).tail = x.tail)
    (h : t.slots = { s.slots with table := FMap.mapVals f s.slots.table }) : LedgersStay s t := by
  intro n
  have e : sessionAt t n = f n (sessionAt s n) := by
    rw [sessionAt, h]
    exact FMap.getD_mapVals f _ n {} (hd n)
  rw [e]
  exact hf _ _

end LedgersStay

/-! ### The journal and the headers -/

theorem takeSeq_changes (client len : Nat) (s : State) : (takeSeq client len s).2 = { s with sec := (takeSeq client len s).2.sec } := by
  unfold takeSeq
  split <;> rfl

/-- The record of one run goes to the ring: its session counts it as journaled. -/
theorem writeRecord_keeps (r : JournalRecord) (s : State) : LedgersStay s (writeRecord r s) ∧ (writeRecord r s).mem = s.mem := by
  unfold writeRecord
  extract_lets _ _ v _ _ _ _ w _
  have hv : v.slots = s.slots ∧ v.mem = s.mem := by
    unfold v
    split
    · rw [takeSeq_changes]
      exact ⟨rfl, rfl⟩
    · exact ⟨rfl, rfl⟩
  have hw : LedgersStay s w := .of_slots hv.1
  split
  · exact ⟨hw, hv.2⟩
  · split
    · refine ⟨hw.trans (.modSession _ (fun _ => ?_) w), ?_⟩
      · exact ⟨rfl, rfl⟩
      · rw [modSession_mem]
        exact hv.2
    · exact ⟨hw, hv.2⟩

theorem writeRecords_keeps (l : List JournalRecord) (s : State) : LedgersStay s (writeRecords l s).2 ∧ (writeRecords l s).2.mem = s.mem := by
  induction l generalizing s with
  | nil => exact ⟨.refl s, rfl⟩
  | cons r rest ih =>
    unfold writeRecords
    split
    · obtain ⟨hl, hm⟩ := writeRecord_keeps r s
      exact ⟨hl.trans (ih _).1, (ih _).2.trans hm⟩
    · exact ⟨.refl s, rfl⟩

theorem journalLane_keeps (s : State) : LedgersStay s (journalLane s) ∧ (journalLane s).mem = s.mem := by
  unfold journalLane
  split
  · exact ⟨.refl s, rfl⟩
  · extract_lets todo _ _ _ _ w _ _ _ v _ _
    obtain ⟨hl, hm⟩ := writeRecords_keeps todo s
    have hw : LedgersStay w v := .mapVals (fun _ => rfl) (fun _ x => by split <;> exact ⟨rfl, rfl⟩) rfl
    have hv : LedgersStay s v := hl.trans hw
    split
    · exact ⟨hv, hm⟩
    · exact ⟨hv.trans (.of_slots (by rw [setFlag_slots, report_slots])), by rw [setFlag_mem, report_mem]; exact hm⟩

theorem refreshHeaders_keeps (s : State) : LedgersStay s (refreshHeaders s) :=
  .mapVals (fun _ => rfl) (fun _ x => by split <;> exact ⟨rfl, rfl⟩) rfl

theorem plazaRails_keeps (s : State) : (plazaRails s).slots = s.slots ∧ (plazaRails s).mem = s.mem := by
  have hr : ∀ mV, (raiseRails mV s).slots = s.slots ∧ (raiseRails mV s).mem = s.mem := fun mV => by
    refine Prod.mk.injEq .. ▸ foldl_keeps (fun s : State => (s.slots, s.mem)) (fun s r => ?_) _ s
    split <;> rfl
  unfold plazaRails
  split
  · split
    · exact hr _
    · exact ⟨rfl, rfl⟩
  · exact ⟨rfl, rfl⟩

/-! ### The seal -/

/-- What one message keeps, messages to several keep. -/
theorem foldl_send {α β : Type} (view : State → β) (hv : ∀ m s, view (send m s) = view s) (f : α → Msg) (l : List α) (s : State) :
    view (l.foldl (fun s d => send (f d) s) s) = view s := foldl_keeps view (fun _ _ => hv _ _) l s

theorem sealOne_keeps (img : Image) (part : Nat) (s : State) : ((sealOne img part s).slots, (sealOne img part s).mem) = (s.slots, s.mem) := by
  unfold sealOne
  split
  · rfl
  · dsimp only
    split
    · rfl
    · refine (foldl_keeps (fun s : State => (s.slots, s.mem)) (fun s _ => foldl_send (fun s : State => (s.slots, s.mem)) (fun _ _ => rfl) _ _ s) _ _).trans ?_
      unfold countPart
      split <;> rfl

theorem sealAll_keeps (s : State) : ((sealAll s).slots, (sealAll s).mem) = (s.slots, s.mem) := by
  unfold sealAll
  split
  · rfl
  · exact foldl_keeps (fun s : State => (s.slots, s.mem)) (fun _ _ => sealOne_keeps _ _ _) _ _

/-! ### Tails that move -/

theorem newSegments_keeps (k : Nat) (s : State) : (newSegments k s).2.slots.table = s.slots.table ∧ (newSegments k s).2.mem = s.mem := by
  induction k generalizing s with
  | zero => exact ⟨rfl, rfl⟩
  | succ k ih => exact ih (newSegment s).2

theorem sessionAt_of_table {s t : State} (h : t.slots.table = s.slots.table) (n : Nat) : sessionAt t n = sessionAt s n := by
  rw [sessionAt, h]
  rfl

theorem growSegments_keeps (slot : Nat) (s : State) : LedgersStay s (growSegments slot s) ∧ (growSegments slot s).mem = s.mem := by
  unfold growSegments
  dsimp only
  obtain ⟨ht, hm⟩ := newSegments_keeps (max 1 (segmentsOf (sessionAt s slot).body).length - (sessionAt s slot).segments.length) s
  have hn : LedgersStay s (newSegments (max 1 (segmentsOf (sessionAt s slot).body).length - (sessionAt s slot).segments.length) s).2 := fun n => by
    rw [sessionAt_of_table ht]
    exact ⟨rfl, rfl⟩
  refine ⟨hn.trans (.modSession slot (fun _ => ?_) _), by rw [modSession_mem, hm]⟩
  exact ⟨rfl, rfl⟩

/-- Runs join the body of one ledger; its tail and every other ledger stay. -/
theorem growBody_ledgers (slot : Nat) (rs : List Run) (s : State) (n : Nat) :
    (sessionAt (growBody slot rs s) n).body = (sessionAt s n).body ++ (if n = slot then rs else [])
      ∧ (sessionAt (growBody slot rs s) n).tail = (sessionAt s n).tail := by
  unfold growBody
  split
  · next h =>
    rw [List.isEmpty_iff.1 h, ite_self, List.append_nil]
    exact ⟨rfl, rfl⟩
  · obtain ⟨hb, ht⟩ := (growSegments_keeps slot (chargeLedger rs (modSession slot (fun x => { x with body := x.body ++ rs }) s))).1 n
    rw [hb, ht]
    change (sessionAt (modSession slot (fun x => { x with body := x.body ++ rs }) s) n).body = _
      ∧ (sessionAt (modSession slot (fun x => { x with body := x.body ++ rs }) s) n).tail = _
    by_cases h : n = slot
    · subst h
      simp
    · rw [sessionAt_modSession_other _ _ h, if_neg h, List.append_nil]
      exact ⟨rfl, rfl⟩

theorem growBody_mem (slot : Nat) (rs : List Run) (s : State) : (growBody slot rs s).mem = s.mem := by
  unfold growBody
  split
  · rfl
  · exact (growSegments_keeps slot _).2

/-- One tail moves into its body. -/
def moveTail (s : State) (slot : Nat) : State := modSession slot (fun x => { x with tail := [] }) (growBody slot (sessionAt s slot).tail s)

theorem moveTails_eq (s : State) : moveTails s = (s.slots.table.map (fun e => e.1)).foldl moveTail s := rfl

theorem moveTail_ledgers (s : State) (slot n : Nat) :
    (sessionAt (moveTail s slot) n).body = (sessionAt s n).body ++ (if n = slot then (sessionAt s n).tail else [])
      ∧ (sessionAt (moveTail s slot) n).tail = if n = slot then [] else (sessionAt s n).tail := by
  obtain ⟨hb, ht⟩ := growBody_ledgers slot (sessionAt s slot).tail s n
  unfold moveTail
  by_cases h : n = slot
  · subst h
    rw [sessionAt_modSession_same]
    simpa using hb
  · rw [sessionAt_modSession_other _ _ h, hb, ht, if_neg h, if_neg h, if_neg h]
    exact ⟨rfl, rfl⟩

theorem foldl_moveTail_ledgers (l : List Nat) (s : State) (n : Nat) :
    (sessionAt (l.foldl moveTail s) n).body = (sessionAt s n).body ++ (if n ∈ l then (sessionAt s n).tail else [])
      ∧ (sessionAt (l.foldl moveTail s) n).tail = if n ∈ l then [] else (sessionAt s n).tail := by
  induction l generalizing s with
  | nil => simp
  | cons a rest ih =>
    obtain ⟨hb, ht⟩ := ih (moveTail s a)
    obtain ⟨hb', ht'⟩ := moveTail_ledgers s a n
    rw [List.foldl_cons, hb, ht, hb', ht']
    by_cases ha : n = a <;> by_cases hr : n ∈ rest <;> simp [ha, hr]

/-- A session with a tail stands in the table. -/
theorem mem_table_of_tail {s : State} {n : Nat} (h : (sessionAt s n).tail ≠ []) : n ∈ s.slots.table.map (fun e => e.1) := by
  rcases hg : FMap.get? s.slots.table n with - | x
  · refine absurd ?_ h
    simp [sessionAt, FMap.getD, hg]
  · exact FMap.mem_keys_of_get? hg

/-- Every tail moves into its body (03 R73). -/
theorem moveTails_ledgers (s : State) (n : Nat) :
    (sessionAt (moveTails s) n).tail = [] ∧ (sessionAt (moveTails s) n).body = (sessionAt s n).body ++ (sessionAt s n).tail := by
  obtain ⟨hb, ht⟩ := foldl_moveTail_ledgers (s.slots.table.map (fun e => e.1)) s n
  rw [moveTails_eq, hb, ht]
  by_cases h : (sessionAt s n).tail = []
  · simp [h]
  · simp [mem_table_of_tail h]

theorem moveTails_mem (s : State) : (moveTails s).mem = s.mem :=
  foldl_keeps State.mem (f := moveTail) (fun s slot => growBody_mem slot (sessionAt s slot).tail s) _ s

/-! ### The lane -/

/-- The Plaza lane under an image: the tails have moved, memory stands. -/
theorem execPlazaLane_moves {img : Image} {s : State} (ha : s.sched.active = some img) :
    ∃ t, exec .plazaLane s = .next t ∧ (∀ n, (sessionAt t n).tail = [])
      ∧ (∀ n, (sessionAt t n).body = (sessionAt s n).body ++ (sessionAt s n).tail) ∧ t.mem = s.mem := by
  obtain ⟨p, hp⟩ : ∃ p, p = settleDefers (passBeats (plazaBeat s img - s.cad.beat) s) := ⟨_, rfl⟩
  obtain ⟨d, hd⟩ : ∃ d, d = if p.sup.st = .reduced then deferAll (stepStart img (p.sched.step + 1)) p else p := ⟨_, rfl⟩
  have hpn : ByNotice (passBeats (plazaBeat s img - s.cad.beat) s) p := hp ▸ (ByNotice.refl _).settleDefers
  have hdn : ByNotice (passBeats (plazaBeat s img - s.cad.beat) s) d := hd ▸ (hpn.deferAll _).ite hpn
  obtain ⟨hslots, hmem⟩ := Prod.mk.inj (sealAll_keeps d)
  have hseal : (sealAll d).slots = s.slots := hslots.trans (hdn.slots.trans (passBeats_slots _ _))
  have hsealm : (sealAll d).mem = s.mem := hmem.trans (hdn.mem.trans (passBeats_mem _ _))
  obtain ⟨hj, hjm⟩ := journalLane_keeps (moveTails (sealAll d))
  obtain ⟨hr, hrm⟩ := plazaRails_keeps (refreshHeaders (journalLane (moveTails (sealAll d))))
  have hlane : LedgersStay (moveTails (sealAll d)) (plazaRails (refreshHeaders (journalLane (moveTails (sealAll d))))) :=
    hj.trans ((refreshHeaders_keeps _).trans (.of_slots hr))
  have hs : ∀ n, sessionAt (sealAll d) n = sessionAt s n := sessionAt_of_table (congrArg Slots.table hseal)
  refine ⟨plazaRails (refreshHeaders (journalLane (moveTails (sealAll d)))), ?_, fun n => ?_, fun n => ?_, ?_⟩
  · change execPlazaLane s = _
    unfold execPlazaLane
    simp only [ha, ← hp, ← hd]
  · rw [(hlane n).2, (moveTails_ledgers _ n).1]
  · rw [(hlane n).1, (moveTails_ledgers _ n).2, hs]
  · exact hrm.trans (hjm.trans ((moveTails_mem _).trans hsealm))

/-- A step under an image ends with its counters latched and its measured values taken (11 R314). -/
theorem execStepBoundary_ends {img : Image} {s : State} (ha : s.sched.active = some img) :
    ∃ u, exec .stepBoundary s = .next (measureStep (latchCounters u)) := by
  have hp : (passBeats (boundaryBeat s - s.cad.beat) s).sched.active = some img := by rw [passBeats_sched, ha]
  apply Exists.intro
  change execStepBoundary s = _
  unfold execStepBoundary
  simp only [hp]
  rfl

/-- Settles O50: a checked image is activated, the counters are latched, the Plaza lane moves the tails, and a slot starts where nothing holds it. -/
theorem stepsAndSlots : Obligations.StepsAndSlots := by
  refine ⟨?_, ?_, fun s h => ?_, fun img s h => execPlazaLane_moves h, ?_, fun id s h => execSlotStart_held h⟩
  · intro g s ha hg hc hm hd hl _ hlo hhi
    obtain ⟨t, ht, hs, hb, hmem⟩ := execStepBoundary_activates ha hg hc hm hd hl hlo hhi
    exact ⟨t, ht, by rw [hs]; rfl, by rw [hs]; rfl, by rw [hs]; rfl, by rw [hs]; rfl, hb, hmem⟩
  · intro img s ha
    obtain ⟨u, hu⟩ := execStepBoundary_ends ha
    exact ⟨_, hu, measureStep_latchCounters u⟩
  · change execPlazaLane s = _
    simp only [execPlazaLane, h]
  · intro id img x s u hi hx hd hl hr hs hu hn
    obtain ⟨t, ht, hfab, hdone, hplain⟩ := execSlotStart_starts hi hx hd hl hr hs hu hn
    refine ⟨t, ht, hdone, fun d hd hb => ?_, fun d hd => ?_, fun i => ?_, fun he => ?_⟩
    · rw [hfab]
      exact slotBegun_runs img x id u hd hb
    · rw [hfab]
      exact slotBegun_others img x id u hd
    · rw [storeAt, hfab]
      exact slotBegun_store img x id i u
    · rw [hplain he]
      exact slotBegun_off img x id u

end Sys2Proof.Machine
end

section
/-! SUPPORT for O51. A residue mismatch (06 R170, R171) and the fence that a third one brings (07 R187, 01 R19): no byte of memory changes and no flag is cleared. -/

namespace Sys2Proof.Machine

/-- Memory reads as before, and every flag that is on stays on. -/
structure Steady (s t : State) : Prop where
  mem : t.mem = s.mem
  flags : FlagsStay s t

theorem ByNotice.steady {s t : State} (h : ByNotice s t) : Steady s t := ⟨h.mem, h.flags⟩

namespace Steady

variable {s t : State}

theorem refl (s : State) : Steady s s := ⟨rfl, .refl s⟩

theorem trans {u : State} (h : Steady s t) (k : Steady t u) : Steady s u := ⟨k.mem.trans h.mem, h.flags.trans k.flags⟩

theorem update {u : State} (h : Steady s t) (hm : u.mem = t.mem) (hf : u.flags = t.flags) : Steady s u :=
  h.trans ⟨hm, .of_eq hf⟩

theorem ite {c : Prop} [Decidable c] {u : State} (h : Steady s t) (k : Steady s u) : Steady s (if c then t else u) := by
  split
  · exact h
  · exact k

theorem foldl {α : Type} {f : State → α → State} (hf : ∀ t x, Steady s t → Steady s (f t x)) (l : List α) (h : Steady s t) :
    Steady s (l.foldl f t) := foldl_induct (Steady s) hf l h

theorem setFlag (off bit : Nat) (h : Steady s t) : Steady s (setFlag off bit t) :=
  ⟨(setFlag_mem off bit t).trans h.mem, h.flags.setFlag off bit⟩

theorem report (code : Nat) (body : Bytes) (h : Steady s t) : Steady s (report code body t) :=
  ⟨(report_mem code body t).trans h.mem, h.flags.report code body⟩

theorem modBlock (d b : Nat) (f : Block → Block) (h : Steady s t) : Steady s (modBlock d b f t) := h.update rfl rfl

theorem modDistrict (d : Nat) (f : District → District) (h : Steady s t) : Steady s (modDistrict d f t) := h.update rfl rfl

theorem countStatus (o : Origin) (a : Ans) (h : Steady s t) : Steady s (countStatus o a t) := by
  unfold Machine.countStatus
  split
  · exact h.update rfl rfl
  · split
    · exact h.update rfl rfl
    · split
      · exact h.update rfl rfl
      · split
        · refine report _ _ (setFlag _ _ ?_)
          exact h.update rfl rfl
        · exact h

theorem replyTo (o : Origin) (final : Bool) (a : Ans) (h : Steady s t) : Steady s (replyTo o final a t) := by
  unfold Machine.replyTo
  extract_lets _ owed t' _ _ t''
  have ht' : Steady s t' := by
    unfold t'
    clear_value owed
    split
    · exact h.update (modSession_mem _ _ _) (modSession_flags _ _ _)
    · exact h
  exact (ht'.countStatus o a).update (landReply_mem _ _ _ _) (landReply_flags _ _ _ _)

theorem finish (w : Work) (a : Ans) (h : Steady s t) : Steady s (finish w a t) :=
  foldl (fun _ c hu => hu.replyTo c.origin true a) _ (h.update rfl rfl)

/-! ### Fences -/

theorem wholeFence (d b : Nat) (h : Steady s t) : Steady s (wholeFence d b t) := by
  unfold Machine.wholeFence
  dsimp only
  split
  · exact h
  · exact foldl (fun _ _ hu => hu.finish _ _) _ (finish _ _ (setFlag _ _ (h.modBlock _ _ _)))

theorem departRings (rings : List Nat) (h : Steady s t) : Steady s (departRings rings t) := by
  unfold Machine.departRings
  split
  · exact h
  · dsimp only
    split
    · exact h
    · exact h.update rfl rfl

theorem blockPlan (d b e : Nat) (h : Steady s t) : Steady s (blockPlan d b e t) := by
  unfold Machine.blockPlan
  split
  · exact h
  · split
    · exact h.trans ((ByNotice.refl t).sendNotice _ _).steady
    · exact ite (h.departRings _) h

theorem planWholeFence (d b earliest : Nat) (h : Steady s t) : Steady s (planWholeFence d b earliest t) := by
  unfold Machine.planWholeFence
  split
  · exact h.wholeFence d b
  · exact (h.modBlock _ _ _).blockPlan _ _ _

theorem loadStores (d b : Nat) (cores : List Nat) (h : Steady s t) : Steady s (loadStores d b cores t) := by
  unfold Machine.loadStores
  split
  · exact h
  · exact h.update rfl rfl

theorem wakeSpares (d b : Nat) (h : Steady s t) : Steady s (wakeSpares d b t) := (h.modBlock _ _ _).loadStores _ _ _

theorem swapCore (d b : Nat) (f : Nat × Nat × Nat) (h : Steady s t) : Steady s (swapCore d b f t) := by
  unfold Machine.swapCore
  dsimp only
  split
  · exact h
  · split
    · exact (h.modBlock _ _ _).finish _ _
    · split
      · exact ite h (h.planWholeFence _ _ _)
      · exact ((ite h (h.setFlag _ _)).modBlock _ _ _).finish _ _

theorem swapBlock (d b : Nat) (h : Steady s t) : Steady s (swapBlock d b t) := by
  unfold Machine.swapBlock
  extract_lets _ _ t'
  have ht' : Steady s t' := foldl (fun _ f hu => hu.swapCore d b f) _ h
  split
  · exact ite (ht'.wholeFence d b) ht'
  · exact ht'

theorem fenceCore (d b core : Nat) (h : Steady s t) : Steady s (fenceCore d b core t) := by
  unfold Machine.fenceCore
  extract_lets _ _ _ t1 _ _ _ _ t2 t3 t4 _ _ t5
  split
  · exact h
  · have h1 : Steady s t1 := ite (h.update rfl rfl) h
    have h3 : Steady s t3 := ((h1.modBlock _ _ _).report _ _).wakeSpares d b
    have h4 : Steady s t4 := ite (h3.setFlag _ _) h3
    have h5 : Steady s t5 := ite (h4.planWholeFence _ _ _) h4
    exact ite (h5.swapBlock d b) h5

end Steady

/-- A residue mismatch: memory stays, and RESIDUE_MM of the core's District is set (06 R170). -/
theorem residueMismatch_sets (unit logical id : Nat) (s : State) :
    (residueMismatch unit logical id s).mem = s.mem ∧ (getFlag (residueMismatch unit logical id s) (offArithEvents (unit / 512 % 16)) 1).on = true := by
  unfold residueMismatch
  extract_lets d b c hist s1 last s2 s3 blk s4
  have h3 : Steady s s3 := (((Steady.refl s).modBlock _ _ _).modDistrict _ _).report _ _ |>.setFlag _ _
  have hset : (getFlag s3 (offArithEvents d) 1).on = true := by
    unfold s3
    rw [getFlag_setFlag_same]
  have h4 : Steady s3 s4 := .ite (((Steady.refl s3).setFlag _ _).fenceCore _ _ _) (.refl s3)
  have hk : Steady s3 (killCommand id d s4) := h4.trans ((ByNotice.refl s4).killCommand id d).steady
  exact ⟨(h3.trans hk).mem, hk.flags _ _ hset⟩

end Sys2Proof.Machine
end

section
/-! SUPPORT for O51. The steps of a layer command (07 R173 to R186): what they keep of the state they run on. -/

namespace Sys2Proof.Machine

/-! ### Region writes -/

theorem stepRegion_view {β : Type} (view : State → β) (hf : ∀ x s, view { s with fab := x } = view s) (ks : List Nat) (id i o : Nat) (b : Bytes) (s : State) :
    view (stepRegion ks id i o b s) = view s := by
  obtain ⟨m, hm⟩ := stepRegion_changes ks id i o b s
  rw [hm]
  exact hf _ s

theorem commitRegion_view {β : Type} (view : State → β) (hf : ∀ x s, view { s with fab := x } = view s) (id i o : Nat) (b : Bytes) (s : State) :
    view (commitRegion id i o b s) = view s := by
  obtain ⟨m, hm⟩ := commitRegion_changes id i o b s
  rw [hm]
  exact hf _ s

/-! ### One step -/

section
variable {β : Type} (view : State → β) (hs : ∀ m s, view (send m s) = view s) (hf : ∀ x s, view { s with fab := x } = view s)
  (hp : ∀ i x s, view (putSession i x s) = view s)

include hf hp

theorem putOut_view (e : CmdEnv) (dest : RowDest) (b : Bytes) (w : CmdRun) : view (putOut e dest b w).st = view w.st := by
  unfold putOut
  split
  · split <;> rfl
  · exact stepRegion_view view hf _ _ _ _ _ _
  · rfl
  · unfold noteLoss
    split
    · split
      · exact hp _ _ _
      · rfl
    · rfl

include hs

theorem runDot_view (e : CmdEnv) (j : DotJob) (w : CmdRun) : view (runDot e j w).st = view w.st := by
  unfold runDot
  extract_lets w' a o
  have hw : view w'.st = view w.st := by
    unfold w'
    split
    · exact hs _ _
    · rfl
  rw [← hw]
  split
  · rfl
  · split
    · rfl
    · split
      · split
        · exact hs _ _
        · exact putOut_view view hf hp _ _ _ _
      · split
        · exact hf _ _
        · exact putOut_view view hf hp _ _ _ _

omit hs

theorem runRow_view (e : CmdEnv) (j : RowJob) (w : CmdRun) : view (runRow e j w).st = view w.st := by
  unfold runRow
  split
  · split
    · exact putOut_view view hf hp _ _ _ _
    · exact putOut_view view hf hp _ _ _ _
  · rfl

omit hp

theorem runOpt_view (e : CmdEnv) (j : OpJob) (w : CmdRun) : view (runOpt e j w).st = view w.st := by
  unfold runOpt
  split
  · rfl
  · refine foldl_keeps (fun w : CmdRun => view w.st) (fun w i => ?_) _ w
    exact hf _ _

include hp

/-- A configured operation keeps a view that its statistics record, if it saves one, does not reach. -/
theorem runVec_view (e : CmdEnv) (j : OpJob) (hj : j.code = 0x2C → ∀ part len pos m l s, view (saveStats part len j pos m l s) = view s) (w : CmdRun) :
    view (runVec e j w).st = view w.st := by
  unfold runVec
  extract_lets part q words
  have hw : ∀ l v, view (words l v).st = view v.st := fun l v => putOut_view view hf hp _ _ _ _
  split
  · exact hw _ _
  · split
    · exact hw _ _
    · rfl
  · next hc => exact hj hc _ _ _ _ _ _
  · exact hw _ _
  · exact runOpt_view view hf _ _ _
  · split
    · exact hw _ _
    · rfl

omit hf hp

theorem loadOps_code (e : CmdEnv) (w : CmdRun) (reads : List RowRead) (j : OpJob) : (reads.foldl (loadOp e w) j).code = j.code := by
  refine foldl_keeps OpJob.code (fun j r => ?_) reads j
  unfold loadOp
  extract_lets row
  split <;> rfl

include hs hf hp

/-- A step keeps a view that its statistics record, if it is a STATS_SAVE, does not reach. -/
theorem runStep_view (e : CmdEnv) (k : FabStep) (w : CmdRun)
    (hk : ∀ reads j, k = .vec reads j → j.code = 0x2C → ∀ part len j' pos m l s, view (saveStats part len j' pos m l s) = view s) :
    view (runStep e w k).st = view w.st := by
  unfold runStep
  split
  · rfl
  · split
    · exact runDot_view view hs hf hp _ _ _
    · next reads j => exact runVec_view view hf hp _ _ (fun hc part len => hk reads j rfl ((loadOps_code e w reads j).symm.trans hc) part len _) _
    · exact runRow_view view hf hp _ _ _
    · exact stepRegion_view view hf _ _ _ _ _ _
    · exact stepRegion_view view hf _ _ _ _ _ _
    · exact stepRegion_view view hf _ _ _ _ _ _

theorem runSteps_view (e : CmdEnv) (steps : List FabStep) (s : State)
    (hk : ∀ reads j, .vec reads j ∈ steps → j.code = 0x2C → ∀ part len j' pos m l s, view (saveStats part len j' pos m l s) = view s) :
    view (runSteps e steps s).st = view s := by
  suffices h : ∀ w : CmdRun, view (steps.foldl (runStep e) w).st = view w.st from h { st := s }
  induction steps with
  | nil => exact fun _ => rfl
  | cons k rest ih =>
    intro w
    rw [List.foldl_cons, ih (fun reads j hm => hk reads j (List.mem_cons_of_mem _ hm)),
      runStep_view view hs hf hp e k w (fun reads j he => hk reads j (he ▸ List.mem_cons_self))]

end

/-! ### All steps -/

theorem putFrame_sched (a : Nat) (f : Frame) (s : State) : (putFrame a f s).sched = s.sched :=
  eq_of_aside offPages State.sched (fun _ => rfl) (offPages_putFrame a f s)

/-- A statistics record takes a page at the most and writes memory. -/
theorem saveStats_sched (part len : Nat) (j : OpJob) (pos m l : Nat) (s : State) : (saveStats part len j pos m l s).sched = s.sched := by
  unfold saveStats
  extract_lets h off x i t _ s' y
  have hs' : s'.sched = s.sched := by
    unfold s'
    split
    · split
      · rfl
      · exact putFrame_sched _ _ s
    · rfl
  split
  · exact hs'
  · exact hs'

/-- A command leaves the schedule as it is until its commit point. -/
theorem runSteps_sched (e : CmdEnv) (steps : List FabStep) (s : State) : (runSteps e steps s).st.sched = s.sched :=
  runSteps_view State.sched send_sched (fun _ _ => rfl) putSession_sched e steps s (fun _ _ _ _ => saveStats_sched)

/-- Only a STATS_SAVE step writes memory before the commit point (05 R146). -/
theorem runSteps_mem (e : CmdEnv) (steps : List FabStep) (s : State) (h : ∀ reads j, .vec reads j ∈ steps → j.code ≠ 0x2C) :
    (runSteps e steps s).st.mem = s.mem :=
  runSteps_view State.mem send_mem (fun _ _ => rfl) putSession_mem e steps s (fun reads j hm hc => absurd hc (h reads j hm))

end Sys2Proof.Machine
end

section
/-! SUPPORT for O51. The commit point of a layer command (01 R27; 07 R177, R178): what a command that stands releases. -/

namespace Sys2Proof.Machine

/-! ### Regions and pages -/

theorem regionBytes_length (x : RegionStore) (a n : Nat) : (regionBytes x a n).length = n := by
  induction n generalizing a with
  | zero => rfl
  | succ n ih => rw [regionBytes, List.length_cons, ih]

theorem readRegion_length (img : Image) (t i o n : Nat) (s : State) : (readRegion img t i o n s).length = n := regionBytes_length _ _ _

/-- Bytes written read back whole. -/
theorem Memory.readBytes_writeBytes {m : List (Nat × Byte)} (h : Memory.wf m = true) (a : Nat) (b : Bytes) :
    Memory.readBytes (Memory.writeBytes m a b) a b.length = b := by
  induction b generalizing m a with
  | nil => rfl
  | cons v rest ih =>
    have h0 : Memory.read (Memory.writeBytes m a (v :: rest)) a = v :=
      Memory.read_writeBytes_same (i := 0) h (by simp)
    rw [List.length_cons, Memory.readBytes, h0, Memory.writeBytes, ih (Memory.write_wf h)]

/-- A region after a write of this step. -/
def RegionStore.written (x : RegionStore) (o : Nat) (b : Bytes) : RegionStore :=
  { now := Memory.writeBytes x.now o b, before := Memory.clear x.before o b.length }

/-- The bytes written to a region read back whole. -/
theorem RegionStore.written_reads {x : RegionStore} (hw : Memory.wf x.now = true) (o : Nat) (b : Bytes) : regionBytes (x.written o b) o b.length = b :=
  regionBytes_eq (fun _ hi => regionByte_written hw hi)

/-- A write that its region has room for. -/
theorem writeRegion_fits {i o : Nat} {b : Bytes} {r : Region} {s : State} (hr : regionAt s i = some r) (hl : o + b.length ≤ r.length) :
    writeRegion false i o b s = modStore i (fun x => x.written o b) s := by
  unfold writeRegion
  rw [hr]
  dsimp only
  rw [if_neg (by omega)]
  rfl

/-! ### What a command counts -/

theorem countOutputs_view {β : Type} (view : State → β) (hd : ∀ d f s, (∀ y, (f y).running = y.running) → view (modDistrict d f s) = view s)
    (hf : ∀ off bit s, view (setFlag off bit s) = view s)
    (hr : ∀ code body s, view (report code body s) = view s) (hp : ∀ x s, view { s with cont := x } = view s)
    (x : SlotEntry) (c : LayerCommit) (k : OutCounts) (s : State) : view (countOutputs x c k s) = view s := by
  have hcount : ∀ part f s, view (countPart part f s) = view s := fun part f s => by
    unfold countPart
    split
    · rfl
    · exact hp _ _
  unfold countOutputs
  extract_lets d lim s1 s2 s3 s4
  have h1 : view s1 = view s := hd _ _ _ (fun _ => rfl)
  have h2 : view s2 = view s := by
    unfold s2
    split
    · exact h1
    · rw [hf, h1]
  have h3 : view s3 = view s := by
    unfold s3
    split
    · exact h2
    · rw [hf, h2]
  split
  · exact h3
  · rw [hr, hcount, hf, h3]

theorem countOutputs_sched (x : SlotEntry) (c : LayerCommit) (k : OutCounts) (s : State) : (countOutputs x c k s).sched = s.sched :=
  countOutputs_view State.sched (fun _ _ _ _ => rfl) setFlag_sched report_sched (fun _ _ => rfl) x c k s
theorem countOutputs_mem (x : SlotEntry) (c : LayerCommit) (k : OutCounts) (s : State) : (countOutputs x c k s).mem = s.mem :=
  countOutputs_view State.mem (fun _ _ _ _ => rfl) setFlag_mem report_mem (fun _ _ => rfl) x c k s
theorem countOutputs_store (x : SlotEntry) (c : LayerCommit) (k : OutCounts) (s : State) : (countOutputs x c k s).fab.store = s.fab.store :=
  countOutputs_view (fun s => s.fab.store) (fun _ _ _ _ => rfl) (fun _ _ _ => by rw [setFlag_fab]) (fun _ _ _ => by rw [report_fab]) (fun _ _ => rfl) x c k s

/-- Whether a District runs. -/
def districtRuns (s : State) (d : Nat) : Bool := (FMap.getD s.fab.districts d {}).running

/-- Counting neither starts nor stops a District. -/
theorem countOutputs_running (x : SlotEntry) (c : LayerCommit) (k : OutCounts) (s : State) (d : Nat) :
    districtRuns (countOutputs x c k s) d = districtRuns s d := by
  refine countOutputs_view (fun s => districtRuns s d) (fun a f t hf => ?_) (fun _ _ _ => ?_) (fun _ _ _ => ?_) (fun _ _ => rfl) x c k s
  · unfold districtRuns
    by_cases h : d = a
    · subst h
      rw [modDistrict, FMap.getD_put_same, hf]
    · rw [modDistrict, FMap.getD_put_other _ _ _ h]
  · rw [districtRuns, setFlag_fab, districtRuns]
  · rw [districtRuns, report_fab, districtRuns]

/-! ### What a command releases -/

theorem guestWritePage_sched (part h no : Nat) (s : State) : (guestWritePage part h no s).sched = s.sched := by
  unfold guestWritePage
  split
  · rfl
  · split
    · split
      · rfl
      · exact putFrame_sched _ _ s
    · exact eq_of_aside offPages State.sched (fun _ => rfl) (offPages_guestPage _ _ _ _ _)

theorem writePage_sched (q : Partition) (part h no o : Nat) (b : Bytes) (s : State) : (writePage q part h no o b s).sched = s.sched := by
  unfold writePage
  split
  · rfl
  · dsimp only
    split <;> rfl

theorem releaseTile_sched (img : Image) (x : SlotEntry) (t : Nat) (w : TileWrite) (s : State) : (releaseTile img x t w s).sched = s.sched := by
  unfold releaseTile
  split
  · rfl
  · split
    · rfl
    · rw [writePage_sched, guestWritePage_sched]

theorem releaseHand_view {β : Type} (view : State → β) (hf : ∀ x s, view { s with fab := x } = view s) (img : Image) (x : SlotEntry) (t : Nat) (h : HandOver)
    (s : State) : view (releaseHand img x t h s) = view s := by
  unfold releaseHand
  split
  · exact commitRegion_view view hf _ _ _ _ _
  · rfl

/-- A command's tile writes and activations, in their order (07 R177). -/
def releasedWork (e : CmdEnv) (c : LayerCommit) (s : State) : State :=
  c.hands.foldl (fun s h => releaseHand e.img e.slot e.at_ h s) (c.writes.foldl (fun s t => releaseTile e.img e.slot e.at_ t s) s)

theorem releasedWork_sched (e : CmdEnv) (c : LayerCommit) (s : State) : (releasedWork e c s).sched = s.sched := by
  unfold releasedWork
  rw [foldl_keeps State.sched (fun s h => releaseHand_view State.sched (fun _ _ => rfl) _ _ _ h s),
    foldl_keeps State.sched (fun s t => releaseTile_sched _ _ _ t s)]

/-- Without tile writes, what a command releases is no byte of memory. -/
theorem releasedWork_mem (e : CmdEnv) {c : LayerCommit} (hw : c.writes = []) (s : State) : (releasedWork e c s).mem = s.mem := by
  unfold releasedWork
  rw [foldl_keeps State.mem (fun s h => releaseHand_view State.mem (fun _ _ => rfl) _ _ _ h s), hw]
  rfl

/-- The state of a command that has released its work: its SCORE regions are gone, its District has stopped, and it is committed. -/
def committed (x : SlotEntry) (c : LayerCommit) (s : State) : State :=
  let t := modDistrict (c.core / 512 % 16) (fun y => { y with running := false }) (dropKind kindScore x.id s)
  { t with sched := { t.sched with commits := t.sched.commits ++ [(c.slotId, c.core)] } }

theorem isUpdate_congr {s t : State} (h : t.sched.active = s.sched.active) (x : SlotEntry) : isUpdate t x = isUpdate s x := by
  unfold isUpdate
  rw [h]

/-- Outside a training update, a command's release ends with its counts. -/
theorem releaseAll_serving {e : CmdEnv} {c : LayerCommit} {w : CmdRun} (h : isUpdate w.st e.slot = false) :
    releaseAll e c w = countOutputs e.slot c w.counts (committed e.slot c (releasedWork e c w.st)) := by
  change endUpdate e.slot (countOutputs e.slot c w.counts (committed e.slot c (releasedWork e c w.st))) = _
  have ha : (countOutputs e.slot c w.counts (committed e.slot c (releasedWork e c w.st))).sched.active = w.st.sched.active := by
    rw [countOutputs_sched]
    change (releasedWork e c w.st).sched.active = _
    rw [releasedWork_sched]
  rw [endUpdate, isUpdate_congr ha, h]
  rfl

/-- The store of a committed command: only the SCORE regions of its slot are gone. -/
theorem storeAt_committed {x : SlotEntry} {c : LayerCommit} {s : State} {i : Nat} (h : ∀ r, regionAt s i = some r → r.kind ≠ kindScore) :
    storeAt (committed x c s) i = storeAt s i := by
  change storeAt (dropKind kindScore x.id s) i = _
  have hnone : (regionAt s i).any (fun r => r.kind == kindScore && r.firstSlot == x.id) = false := by
    cases hr : regionAt s i with
    | none => rfl
    | some r => simp [h r hr]
  rw [storeAt_dropKind, hnone]
  rfl

/-- What a serving command leaves, seen from what it has released. -/
theorem releaseAll_leaves {e : CmdEnv} {c : LayerCommit} {w : CmdRun} (h : isUpdate w.st e.slot = false) :
    (releaseAll e c w).mem = (releasedWork e c w.st).mem
      ∧ (c.slotId, c.core) ∈ (releaseAll e c w).sched.commits
      ∧ districtRuns (releaseAll e c w) (c.core / 512 % 16) = false
      ∧ (∀ i, (∀ r, regionAt (releasedWork e c w.st) i = some r → r.kind ≠ kindScore) → storeAt (releaseAll e c w) i = storeAt (releasedWork e c w.st) i) := by
  rw [releaseAll_serving h]
  refine ⟨countOutputs_mem _ _ _ _, ?_, ?_, fun i hi => ?_⟩
  · rw [countOutputs_sched]
    exact List.mem_append_right _ List.mem_cons_self
  · rw [countOutputs_running]
    simp [districtRuns, committed, modDistrict]
  · rw [storeAt, countOutputs_store]
    exact storeAt_committed hi

/-! ### The commit point -/

/-- A command that runs at its commit point: the device has its slot, its run stands, its core serves its logical number, and its microbatch is not deferred. -/
structure CommandRuns (c : LayerCommit) (img : Image) (x : SlotEntry) (u : State) : Prop where
  image : slotImage u c.slotId = some img
  slot : activeSlot u c.slotId = some x
  stands : runStands u c = true
  serves : servesLogical u c.core c.logical = true
  here : deferred u x = false

namespace CommandRuns

variable {c : LayerCommit} {img : Image} {x : SlotEntry} {s u : State}

/-- A residue disagreed: the command dies (06 R170). -/
theorem residue (h : CommandRuns c img x u) (hu : u = settleDefers s) (hr : (runSteps (cmdEnv img x) c.steps u).residue = true) :
    exec (.commitPoint c) s = .next (residueMismatch c.core c.logical c.slotId u) := by
  change execCommitPoint c s = _
  simp [execCommitPoint, ← hu, h.image, h.slot, h.stands, h.serves, h.here, hr]

/-- A received accumulator failed its check: the command dies (06 R166). -/
theorem reduce {l : Nat} (h : CommandRuns c img x u) (hu : u = settleDefers s) (hr : (runSteps (cmdEnv img x) c.steps u).residue = false)
    (hl : (runSteps (cmdEnv img x) c.steps u).reduce = some l) :
    exec (.commitPoint c) s = .next (killCommand c.slotId (c.core / 512 % 16) (report 0x302 (unitField 3 l ++ leBytes 2 c.slotId ++ [0, 0])
      (setFlag (offArithEvents (c.core / 512 % 16)) 3 u))) := by
  change execCommitPoint c s = _
  simp [execCommitPoint, ← hu, h.image, h.slot, h.stands, h.serves, h.here, hr, hl]

/-- Else the command commits (01 R27). -/
theorem commits (h : CommandRuns c img x u) (hu : u = settleDefers s) (hr : (runSteps (cmdEnv img x) c.steps u).residue = false)
    (hl : (runSteps (cmdEnv img x) c.steps u).reduce = none) :
    exec (.commitPoint c) s = .next (releaseAll (cmdEnv img x) c (runSteps (cmdEnv img x) c.steps u)) := by
  change execCommitPoint c s = _
  simp [execCommitPoint, ← hu, h.image, h.slot, h.stands, h.serves, h.here, hr, hl]

end CommandRuns

/-- Nothing is released of a slot the device has not, of a run that does not stand, of a core that does not serve, of a deferred microbatch. -/
theorem execCommitPoint_void {c : LayerCommit} {s u : State} (hu : u = settleDefers s)
    (h : activeSlot u c.slotId = none ∨ runStands u c = false ∨ servesLogical u c.core c.logical = false ∨ ∃ x, activeSlot u c.slotId = some x ∧ deferred u x = true) :
    exec (.commitPoint c) s = .next u := by
  change execCommitPoint c s = _
  unfold execCommitPoint
  rw [← hu]
  dsimp only
  split
  · next img x _ hx =>
    rw [if_pos]
    rcases h with h | h | h | ⟨y, hy, hd⟩
    · rw [h] at hx
      cases hx
    · exact .inl (by simp [h])
    · exact .inr (.inl (by simp [h]))
    · rw [hx] at hy
      obtain rfl := Option.some.inj hy
      exact .inr (.inr hd)
  · rfl

/-- A failed check of a received accumulator sets REDUCE_MM; memory stays. -/
theorem reduceMismatch_sets (id d : Nat) (body : Bytes) (s : State) :
    (killCommand id d (report 0x302 body (setFlag (offArithEvents d) 3 s))).mem = s.mem
      ∧ (getFlag (killCommand id d (report 0x302 body (setFlag (offArithEvents d) 3 s))) (offArithEvents d) 3).on = true := by
  have hk : Steady (setFlag (offArithEvents d) 3 s) (killCommand id d (report 0x302 body (setFlag (offArithEvents d) 3 s))) :=
    (((ByNotice.refl _).report _ _).killCommand id d).steady
  exact ⟨hk.mem.trans (setFlag_mem _ _ s), hk.flags _ _ (by rw [getFlag_setFlag_same])⟩

end Sys2Proof.Machine
end

section
/-! SUPPORT for O51. One result, one tile, one hand-over released at a commit point (01 R23; 07 R177, R178). -/

namespace Sys2Proof.Machine

/-- A command's write into a region of its slot that has room for it. -/
theorem stepRegion_fits {ks : List Nat} {id i o : Nat} {b : Bytes} {r : Region} {s : State} (hr : regionAt s i = some r) (hk : ks.contains r.kind = true)
    (hs : r.firstSlot = id) (hl : o + b.length ≤ r.length) : stepRegion ks id i o b s = modStore i (fun x => x.written o b) s := by
  unfold stepRegion
  rw [hr]
  dsimp only
  rw [if_pos ⟨hk, hs⟩, writeRegion_fits hr hl]

/-- Activations handed over stand in the ACT region and in its mirror (07 R177, R178). -/
theorem commitRegion_fits {id i o : Nat} {b : Bytes} {r m : Region} {s : State} (hr : regionAt s i = some r) (hk : r.kind = kindAct) (hb : bitOf r.flags 1 = false)
    (hs : r.firstSlot = id) (hm : regionAt s r.mirror = some m) (hl : o + b.length ≤ r.length) (hml : o + b.length ≤ m.length) :
    commitRegion id i o b s = modStore r.mirror (fun x => x.written o b) (modStore i (fun x => x.written o b) s) := by
  unfold commitRegion
  rw [hr]
  dsimp only
  rw [if_pos ⟨hk, by simp [hb], hs⟩, writeRegion_fits hr hl]
  exact writeRegion_fits hm hml

/-- A configured operation of no special kind writes its words. -/
theorem runVec_words {e : CmdEnv} {j : OpJob} {l : List Nat} {w : CmdRun} (hj : j.code ∉ [0x08, 0x29, 0x2C, 0x2D, 0x3E]) (hl : runOp j = some l) :
    runVec e j w = putOut e j.dest ((l.map (leBytes (opWidth j))).flatten) w := by
  simp only [List.mem_cons, List.not_mem_nil, or_false, not_or] at hj
  obtain ⟨h1, h2, h3, h4, h5⟩ := hj
  unfold runVec
  extract_lets part q words
  split
  · exact absurd ‹_› h1
  · exact absurd ‹_› h2
  · exact absurd ‹_› h3
  · exact absurd ‹_› h4
  · exact absurd ‹_› h5
  · rw [hl]

/-- A command of one such operation whose result goes to a STAGE region of its slot. -/
theorem runSteps_result {e : CmdEnv} {j : OpJob} {l : List Nat} {i o : Nat} {b : Bytes} {r : Region} {u : State}
    (hj : j.code ∉ [0x08, 0x29, 0x2C, 0x2D, 0x3E]) (hl : runOp j = some l) (hd : j.dest = .region i o) (hb : b = (l.map (leBytes (opWidth j))).flatten)
    (hr : regionAt u i = some r) (hk : r.kind = kindStage) (hs : r.firstSlot = e.slot.id) (hlen : o + b.length ≤ r.length) :
    runSteps e [.vec [] j] u = { st := modStore i (fun x => x.written o b) u } := by
  change runVec e j { st := u } = _
  rw [runVec_words hj hl, hd, ← hb]
  change ({ st := stepRegion [kindStage, kindScore] e.slot.id i o b u } : CmdRun) = _
  rw [stepRegion_fits hr (by rw [hk]; rfl) hs hlen]

/-- A staged tile write of a live session's page: the bytes of its region go to the page's frame, and the session notes it (01 R22, R23). -/
theorem releaseTile_writes {img : Image} {x : SlotEntry} {t slot f : Nat} {w : TileWrite} {q : Partition} {g : Region} {s : State}
    (hq : partitionAt s x.partition = some q) (hl : liveSlot s w.handle = some slot) (hm : mayWrite s x.partition x.microbatch w.handle w.pageNo = true)
    (h0 : w.len ≠ 0) (hlen : w.offset + w.len ≤ pageBytes q) (hg : regionAt s w.region = some g) (hk : g.kind = kindStage)
    (hf : passFrame s x.partition w.handle w.pageNo = some f) :
    (releaseTile img x t w s).mem = Memory.writeBytes s.mem (f + w.offset) (readRegion img t w.region w.at_ w.len s) := by
  have hguest : guestWritePage x.partition w.handle w.pageNo s = s := by simp [guestWritePage, hl]
  unfold releaseTile
  rw [hq]
  dsimp only
  rw [if_neg (by simp [hm, h0, hlen, hg, hk]), hguest]
  unfold writePage
  rw [hf]
  dsimp only
  rw [hl]
  rfl

/-! ### The three clauses -/

section
variable {c : LayerCommit} {img : Image} {x : SlotEntry} {s u : State}

/-- A configured operation's results stand in the STAGE region it names, and nowhere else in the store. -/
theorem commit_result {j : OpJob} {l : List Nat} {i o : Nat} {g : Region} {b : Bytes} (hu : u = settleDefers s) (h : CommandRuns c img x u)
    (hup : isUpdate u x = false) (hsteps : c.steps = [.vec [] j]) (hw : c.writes = []) (hh : c.hands = []) (hj : j.code ∉ [0x08, 0x29, 0x2C, 0x2D, 0x3E])
    (hl : runOp j = some l) (hd : j.dest = .region i o) (hb : b = (l.map (leBytes (opWidth j))).flatten) (hr : regionAt u i = some g) (hk : g.kind = kindStage)
    (hs : g.firstSlot = x.id) (hlen : o + b.length ≤ g.length) (hwf : Memory.wf (storeAt u i).now = true) :
    ∃ t, exec (.commitPoint c) s = .next t ∧ t.mem = u.mem ∧ regionBytes (storeAt t i) o b.length = b
      ∧ (∀ a, (a < o ∨ o + b.length ≤ a) → regionByte (storeAt t i) a = regionByte (storeAt u i) a)
      ∧ (∀ k, k ≠ i → (∀ r, regionAt u k = some r → r.kind ≠ kindScore) → storeAt t k = storeAt u k) := by
  have hrun : runSteps (cmdEnv img x) c.steps u = { st := modStore i (fun x => x.written o b) u } := by
    rw [hsteps]
    exact runSteps_result hj hl hd hb hr hk hs hlen
  have hex := h.commits hu (by rw [hrun]) (by rw [hrun])
  rw [hrun] at hex
  have hwork : releasedWork (cmdEnv img x) c (modStore i (fun x => x.written o b) u) = modStore i (fun x => x.written o b) u := by
    simp [releasedWork, hw, hh]
  obtain ⟨hmem, -, -, hstore⟩ := releaseAll_leaves (e := cmdEnv img x) (c := c) (w := { st := modStore i (fun x => x.written o b) u }) hup
  rw [hwork] at hmem hstore
  have hi : storeAt (releaseAll (cmdEnv img x) c { st := modStore i (fun x => x.written o b) u }) i = (storeAt u i).written o b := by
    rw [hstore i (fun r hr' => ?_), storeAt_modStore_same]
    obtain rfl := Option.some.inj (hr.symm.trans hr')
    rw [hk]
    decide
  refine ⟨_, hex, hmem, ?_, fun a ha => ?_, fun k hne hks => ?_⟩
  · rw [hi]
    exact RegionStore.written_reads hwf o b
  · rw [hi]
    exact regionByte_write ha
  · rw [hstore k hks, storeAt_modStore_other _ _ hne]

/-- A tile write puts the bytes of its STAGE region in the page's frame, and changes no other byte of memory. -/
theorem commit_tile {w : TileWrite} {q : Partition} {slot f : Nat} {g : Region} (hu : u = settleDefers s) (h : CommandRuns c img x u)
    (hup : isUpdate u x = false) (hsteps : c.steps = []) (hw : c.writes = [w]) (hh : c.hands = []) (hq : partitionAt u x.partition = some q)
    (hl : liveSlot u w.handle = some slot) (hm : mayWrite u x.partition x.microbatch w.handle w.pageNo = true) (h0 : w.len ≠ 0)
    (hlen : w.offset + w.len ≤ pageBytes q) (hg : regionAt u w.region = some g) (hk : g.kind = kindStage)
    (hf : passFrame u x.partition w.handle w.pageNo = some f) (hwf : Memory.wf u.mem = true) :
    ∃ t, exec (.commitPoint c) s = .next t
      ∧ Memory.readBytes t.mem (f + w.offset) w.len = readRegion img (cmdEnv img x).at_ w.region w.at_ w.len u
      ∧ (∀ a, (a < f + w.offset ∨ f + w.offset + w.len ≤ a) → Memory.read t.mem a = Memory.read u.mem a) := by
  have hrun : runSteps (cmdEnv img x) c.steps u = { st := u } := by rw [hsteps]; rfl
  have hex := h.commits hu (by rw [hrun]) (by rw [hrun])
  rw [hrun] at hex
  have hmem : (releaseAll (cmdEnv img x) c { st := u }).mem
      = Memory.writeBytes u.mem (f + w.offset) (readRegion img (cmdEnv img x).at_ w.region w.at_ w.len u) := by
    rw [(releaseAll_leaves (w := { st := u }) hup).1, releasedWork, hw, hh]
    exact releaseTile_writes hq hl hm h0 hlen hg hk hf
  have hrl := readRegion_length img (cmdEnv img x).at_ w.region w.at_ w.len u
  refine ⟨_, hex, ?_, fun a ha => ?_⟩
  · rw [hmem]
    have hback := Memory.readBytes_writeBytes hwf (f + w.offset) (readRegion img (cmdEnv img x).at_ w.region w.at_ w.len u)
    rwa [hrl] at hback
  · rw [hmem]
    exact Memory.read_writeBytes_other (by omega)

/-- Activations handed over stand in the ACT region of the slot and in its mirror. -/
theorem commit_hand {ho : HandOver} {b : Bytes} {g a m : Region} (hu : u = settleDefers s) (h : CommandRuns c img x u)
    (hup : isUpdate u x = false) (hsteps : c.steps = []) (hw : c.writes = []) (hh : c.hands = [ho]) (hg : regionAt u ho.region = some g) (hk : g.kind = kindStage)
    (ha : regionAt u ho.act = some a) (hak : a.kind = kindAct) (hbit : bitOf a.flags 1 = false) (hs : a.firstSlot = x.id) (hne : a.mirror ≠ ho.act)
    (hm : regionAt u a.mirror = some m) (hmk : m.kind ≠ kindScore) (hml : m.length = a.length)
    (hb : b = readRegion img (cmdEnv img x).at_ ho.region ho.at_ ho.len u) (hlen : ho.actAt + ho.len ≤ a.length)
    (hwf : ∀ k, Memory.wf (storeAt u k).now = true) :
    ∃ t, exec (.commitPoint c) s = .next t ∧ t.mem = u.mem ∧ regionBytes (storeAt t ho.act) ho.actAt ho.len = b
      ∧ regionBytes (storeAt t a.mirror) ho.actAt ho.len = b := by
  have hrun : runSteps (cmdEnv img x) c.steps u = { st := u } := by rw [hsteps]; rfl
  have hex := h.commits hu (by rw [hrun]) (by rw [hrun])
  rw [hrun] at hex
  have hbl : b.length = ho.len := by rw [hb, readRegion_length]
  have hwork : releasedWork (cmdEnv img x) c u
      = modStore a.mirror (fun x => x.written ho.actAt b) (modStore ho.act (fun x => x.written ho.actAt b) u) := by
    rw [releasedWork, hw, hh]
    change releaseHand img x (cmdEnv img x).at_ ho u = _
    rw [releaseHand, if_pos (by simp [hg, hk]), ← hb]
    exact commitRegion_fits ha hak hbit hs hm (by omega) (by omega)
  obtain ⟨hmem, -, -, hstore⟩ := releaseAll_leaves (e := cmdEnv img x) (c := c) (w := { st := u }) hup
  rw [hwork] at hmem hstore
  have hact : storeAt (releaseAll (cmdEnv img x) c { st := u }) ho.act = (storeAt u ho.act).written ho.actAt b := by
    rw [hstore _ (fun r hr => ?_), storeAt_modStore_other _ _ (Ne.symm hne), storeAt_modStore_same]
    obtain rfl := Option.some.inj (ha.symm.trans hr)
    rw [hak]
    decide
  have hmir : storeAt (releaseAll (cmdEnv img x) c { st := u }) a.mirror = (storeAt u a.mirror).written ho.actAt b := by
    rw [hstore _ (fun r hr => ?_), storeAt_modStore_same, storeAt_modStore_other _ _ hne]
    obtain rfl := Option.some.inj (hm.symm.trans hr)
    exact hmk
  refine ⟨_, hex, hmem, ?_, ?_⟩
  · rw [hact, ← hbl]
    exact RegionStore.written_reads (hwf _) _ _
  · rw [hmir, ← hbl]
    exact RegionStore.written_reads (hwf _) _ _

end

end Sys2Proof.Machine
end

section
/-! SUPPORT for O51. A sampling commit that takes prompt rows only (05 R131, R143; 09 R233, R236): what it does to its session, and that everything else stands. -/

namespace Sys2Proof.Machine

/-! ### What stands beside a commit -/

/-- The state without what frames that return may change. -/
def offFrames (s : State) : State := { s with freeCtr := 0, tier := {}, mem := [], out := { s.out with msgs := [] } }

theorem offFrames_putFrame (a : Nat) (f : Frame) (s : State) : offFrames (putFrame a f s) = offFrames s := by
  unfold putFrame
  split <;> rfl

theorem offFrames_dropFrame (a : Nat) (s : State) : offFrames (dropFrame a s) = offFrames s := by
  unfold dropFrame
  split
  · rfl
  · split
    · exact offFrames_putFrame _ _ s
    · split
      · exact offFrames_putFrame _ _ s
      · dsimp only
        split <;> rfl

theorem offFrames_framesDue (l : List Nat) (s : State) : offFrames (framesDue l s) = offFrames s := by
  refine foldl_keeps offFrames (fun s a => ?_) l s
  unfold frameDue
  split
  · rfl
  · split
    · exact offFrames_dropFrame a s
    · rfl

/-- Under an image, frames return at the next boundary: no byte of memory changes before it. -/
theorem framesDue_mem {l : List Nat} {s : State} (ha : s.sched.active ≠ none) : (framesDue l s).mem = s.mem := by
  suffices h : (framesDue l s).sched = s.sched ∧ (framesDue l s).mem = s.mem from h.2
  refine foldl_induct (fun t => t.sched = s.sched ∧ t.mem = s.mem) (fun t a h => ?_) l ⟨rfl, rfl⟩
  have hn : t.sched.active.isNone = false := by rw [h.1]; exact Option.isNone_eq_false_iff.2 (Option.isSome_iff_ne_none.2 ha)
  unfold frameDue
  rw [hn]
  split
  · exact h
  · exact h

/-- What a commit of one session leaves of everything beside it: the other sessions, the seal, the image in force, replies, and under an image memory. -/
structure Beside (slot : Nat) (s t : State) : Prop where
  others : ∀ k, k ≠ slot → sessionAt t k = sessionAt s k
  sealNow : t.sched.sealNow = s.sched.sealNow
  active : t.sched.active = s.sched.active
  replies : t.out.replies = s.out.replies
  mem : s.sched.active ≠ none → t.mem = s.mem

namespace Beside

variable {slot : Nat} {s t : State}

theorem refl (s : State) : Beside slot s s := ⟨fun _ _ => rfl, rfl, rfl, rfl, fun _ => rfl⟩

theorem trans {u : State} (h : Beside slot s t) (k : Beside slot t u) : Beside slot s u :=
  ⟨fun n hn => (k.others n hn).trans (h.others n hn), k.sealNow.trans h.sealNow, k.active.trans h.active, k.replies.trans h.replies,
    fun ha => (k.mem (h.active ▸ ha)).trans (h.mem ha)⟩

theorem modSession (f : Session → Session) (s : State) : Beside slot s (modSession slot f s) :=
  ⟨fun _ hk => sessionAt_modSession_other f s hk, rfl, rfl, rfl, fun _ => rfl⟩

theorem putSession (x : Session) (s : State) : Beside slot s (putSession slot x s) :=
  ⟨fun _ hk => sessionAt_putSession_other x s hk, rfl, rfl, rfl, fun _ => rfl⟩

theorem countPart (part : Nat) (f : PartitionCounters → PartitionCounters) (s : State) : Beside slot s (countPart part f s) := by
  unfold Machine.countPart
  split
  · exact refl s
  · exact ⟨fun _ _ => rfl, rfl, rfl, rfl, fun _ => rfl⟩

theorem framesDue (l : List Nat) (s : State) : Beside slot s (framesDue l s) := by
  have h := offFrames_framesDue l s
  exact ⟨fun k _ => eq_of_aside offFrames (fun s => sessionAt s k) (fun _ => rfl) h, eq_of_aside offFrames (fun s => s.sched.sealNow) (fun _ => rfl) h,
    eq_of_aside offFrames (fun s => s.sched.active) (fun _ => rfl) h, eq_of_aside offFrames (fun s => s.out.replies) (fun _ => rfl) h, framesDue_mem⟩

theorem settlePages (n : Nat) (s : State) : Beside slot s (settlePages slot n s) := (framesDue _ s).trans (putSession _ _)

theorem reportCandidate (cand : Bool) (s : State) : Beside slot s (reportCandidate slot cand s) := by
  unfold Machine.reportCandidate
  extract_lets x c _ t
  have ht : Beside slot s t := ⟨fun _ _ => rfl, rfl, rfl, rfl, fun _ => rfl⟩
  split
  · exact ht
  · split
    · exact ht
    · split
      · exact ht
      · exact ht.trans ⟨fun _ _ => rfl, rfl, rfl, rfl, fun _ => rfl⟩

end Beside

/-! ### The session that commits -/

/-- What the commit of prompt rows is asked about: length, state, ledger, a constraint set that is due, and how the generation is to end. -/
def promptView (x : Session) : Nat × Nat × List Run × List Run × Bool × Option (Option Nat) :=
  (x.d.committed, x.d.state, x.body, x.tail, x.nextSetDue, x.job.map (fun j => j.endWith))

theorem countPart_sessionAt (part : Nat) (f : PartitionCounters → PartitionCounters) (s : State) (n : Nat) : sessionAt (countPart part f s) n = sessionAt s n := by
  unfold countPart
  split <;> rfl

theorem settlePages_promptView (slot n : Nat) (s : State) : promptView (sessionAt (settlePages slot n s) slot) = promptView (sessionAt s slot) := by
  rw [settlePages, sessionAt_putSession_same]
  rfl

theorem reportCandidate_sessionAt (slot : Nat) (cand : Bool) (s : State) (n : Nat) : sessionAt (reportCandidate slot cand s) n = sessionAt s n := by
  unfold reportCandidate
  extract_lets
  split
  · rfl
  · split
    · rfl
    · split <;> rfl

/-- A generation that goes on, and is not asked to end, does not end after a commit. -/
theorem endAfter_going {slot : Nat} {d : Draw} {s : State} (hd : d.ended = .going) (hj : (sessionAt s slot).job.map (fun j => j.endWith) = some none) :
    endAfter slot d s = s := by
  obtain ⟨j, hjob, hend⟩ := Option.map_eq_some_iff.1 hj
  unfold endAfter
  rw [hjob]
  dsimp only
  rw [hd, hend]

/-- A pass that takes prompt rows only, and whose page list has room, commits them (09 R233). -/
theorem commitServe_prompt {slot n grant pieces step m : Nat} {out : Option MemberOutput} {s : State} (hs : samplesNow (sessionAt s slot) n = false)
    (hm : m = ((sealedRows (sessionAt s slot) n).filter (fun r => decide ((sessionAt s slot).d.committed ≤ r))).length)
    (hroom : listFull (sessionAt s slot) ((sessionAt s slot).d.committed + m - 1) = false)
    (hj : (sessionAt s slot).job.map (fun j => j.endWith) = some none) :
    Beside slot s (commitServe slot n grant pieces step out s)
      ∧ promptView (sessionAt (commitServe slot n grant pieces step out s) slot)
        = ((sessionAt s slot).d.committed + m, (sessionAt s slot).d.state, (sessionAt s slot).body, (sessionAt s slot).tail, (sessionAt s slot).nextSetDue, some none) := by
  unfold commitServe
  extract_lets x rows samples d0 nCol prefill cologne s1 s2 s3 s4 s5 _ _ _
  have hsamples : samples = false := hs
  have hpre : m = prefill := hm
  have hfull : listFull x (x.d.committed + prefill - 1) = false := by rw [← hpre]; exact hroom
  rw [if_neg (fun h => by rw [hfull] at h; exact absurd h.2 Bool.false_ne_true)]
  simp only [hsamples, Bool.false_eq_true, if_false]
  have v1 : promptView (sessionAt s1 slot) = (x.d.committed + m, x.d.state, x.body, x.tail, x.nextSetDue, some none) := by
    rw [sessionAt_modSession_same, hpre, ← hj]
    rfl
  have v2 : promptView (sessionAt s2 slot) = promptView (sessionAt s1 slot) := by
    unfold s2
    split
    · rfl
    · rw [countPart_sessionAt]
  have v3 : promptView (sessionAt s3 slot) = promptView (sessionAt s2 slot) := settlePages_promptView slot _ s2
  have v4 : promptView (sessionAt s4 slot) = promptView (sessionAt s3 slot) := by
    rw [sessionAt_modSession_same]
    simp only [promptView, Option.map_map]
    rfl
  have hview := v4.trans (v3.trans (v2.trans v1))
  have h2 : Beside slot s1 s2 := by
    unfold s2
    split
    · exact .refl s1
    · exact .countPart _ _ s1
  have h4 : Beside slot s s4 := (Beside.modSession _ s).trans (h2.trans ((Beside.settlePages _ s2).trans (.modSession _ s3)))
  have h5 : s5 = s4 := endAfter_going rfl (congrArg (fun v => v.2.2.2.2.2) hview)
  rw [h5]
  split
  · exact ⟨h4.trans (.reportCandidate true s4), by rw [reportCandidate_sessionAt]; exact hview⟩
  · exact ⟨h4, hview⟩

/-- A member whose last piece takes prompt rows only commits them; no set falls due at its commit. -/
theorem commitMember_prompt {p : Place} {slot n step m : Nat} {out : Option MemberOutput} {j : Generation} {s : State} (hl : liveSlot s p.handle = some slot)
    (hst : (sessionAt s slot).d.state = 2) (hr : (sessionAt s slot).rebuild = none) (hj : (sessionAt s slot).job = some j) (he : j.endWith = none)
    (hd : (sessionAt s slot).nextSetDue = false) (hs : samplesNow (sessionAt s slot) n = false)
    (hm : m = ((sealedRows (sessionAt s slot) n).filter (fun r => decide ((sessionAt s slot).d.committed ≤ r))).length)
    (hroom : listFull (sessionAt s slot) ((sessionAt s slot).d.committed + m - 1) = false) :
    Beside slot s (commitMember p n step out s) ∧ promptView (sessionAt (commitMember p n step out s) slot)
      = ((sessionAt s slot).d.committed + m, 2, (sessionAt s slot).body, (sessionAt s slot).tail, false, some none) := by
  obtain ⟨hb, hv⟩ := commitServe_prompt (grant := p.drafts) (pieces := p.pieces) (step := step) (out := out) hs hm hroom (by rw [hj, Option.map_some, he])
  rw [hst, hd] at hv
  have hdue : (sessionAt (commitServe slot n p.drafts p.pieces step out s) slot).nextSetDue = false := congrArg (fun v => v.2.2.2.2.1) hv
  have hc : commitMember p n step out s = commitServe slot n p.drafts p.pieces step out s := by
    unfold commitMember
    simp [hl, hr, hst, hdue]
  rw [hc]
  exact ⟨hb, hv⟩

/-! ### The commit point of the sampling slot -/

/-- The sampling commit of a microbatch with nothing sealed, of a killed run, or of a slot that has committed, does nothing (01 R28). -/
theorem execSamplingCommit_void {c : SamplingCommit} {s u : State} (hu : u = settleDefers s)
    (h : passOf u c.partition c.microbatch = none ∨ c.run ≠ runOf u c.slotId ∨ slotCommitted c.slotId u = true) : exec (.samplingCommit c) s = .next u := by
  change execSamplingCommit c s = _
  unfold execSamplingCommit
  rw [← hu]
  dsimp only
  split
  · rfl
  · next m hp =>
    rw [if_pos]
    rcases h with h | h | h
    · rw [h] at hp
      cases hp
    · exact .inl h
    · exact .inr h

/-- The microbatch of one place, whose last piece it holds: that member commits, and the seal is empty before it does. -/
theorem execSamplingCommit_single {c : SamplingCommit} {m : SealedMb} {p : Place} {s : State} (hd : s.sched.deferDue = []) (hprev : s.sched.sealPrev = [])
    (hnow : s.sched.sealNow = [m]) (hrun : c.run = runOf s c.slotId) (hc : slotCommitted c.slotId s = false) (hpart : m.partition = c.partition)
    (hmb : m.microbatch = c.microbatch) (hpl : m.places = [p]) (hlast : p.piece + 1 = p.pieces) (hw : p.withdrawn = false) :
    exec (.samplingCommit c) s = .next (commitMember p p.qpos c.step (c.members.find? (fun o => o.handle == p.handle))
      { s with sched := { s.sched with sealNow := [], commits := s.sched.commits ++ [(c.slotId, 0)] } }) := by
  have hpass : passOf s c.partition c.microbatch = some m := by simp [passOf, hprev, hnow, hpart, hmb]
  have hmembers : endingMembers [m] c.partition m = [(p, p.qpos)] := by
    simp [endingMembers, hpl, hlast, hpart, insertMember, sealedCount, hw]
  have hstrip : stripEnded c.partition c.microbatch [p.handle] [m] = [] := by simp [stripEnded, hpart, hmb, hpl]
  change execSamplingCommit c s = _
  unfold execSamplingCommit
  rw [settleDefers_none hd]
  simp only [hpass, hprev, hnow, List.any_nil, Bool.false_eq_true, if_false, hmembers, List.map_cons, List.map_nil, hstrip, List.foldl_cons, List.foldl_nil, hw]
  rw [if_neg (by simp [hrun, hc])]

end Sys2Proof.Machine
end

section
/-! SETTLES O51. The commit points of layer commands and of the sampling slot, assembled from the lemmas about each of their parts. -/

namespace Sys2Proof.Machine

variable {c : LayerCommit} {img : Image} {x : SlotEntry} {s u : State}

/-- A command whose steps pass their checks commits, its District stops, and without tile writes and STATS_SAVE steps memory stays. -/
theorem commit_passes (hu : u = settleDefers s) (h : CommandRuns c img x u) (hr : (runSteps (cmdEnv img x) c.steps u).residue = false)
    (hl : (runSteps (cmdEnv img x) c.steps u).reduce = none) (hup : isUpdate u x = false) :
    ∃ t, exec (.commitPoint c) s = .next t ∧ (c.slotId, c.core) ∈ t.sched.commits ∧ districtRuns t (c.core / 512 % 16) = false
      ∧ (c.writes = [] → (∀ reads j, .vec reads j ∈ c.steps → j.code ≠ 0x2C) → t.mem = u.mem) := by
  have hup' : isUpdate (runSteps (cmdEnv img x) c.steps u).st (cmdEnv img x).slot = false :=
    (isUpdate_congr (congrArg (fun q => q.active) (runSteps_sched _ _ _)) x).trans hup
  obtain ⟨hmem, hcommit, hrun, -⟩ := releaseAll_leaves (c := c) hup'
  refine ⟨_, h.commits hu hr hl, hcommit, hrun, fun hw hj => ?_⟩
  rw [hmem, releasedWork_mem _ hw, runSteps_mem _ _ _ hj]

/-- A sampling commit whose one member takes prompt rows only commits them and ends its place. -/
theorem samplingCommit_prompt {c : SamplingCommit} {m : SealedMb} {p : Place} {slot n : Nat} {j : Generation} {s : State} (hdue : s.sched.deferDue = [])
    (hprev : s.sched.sealPrev = []) (hnow : s.sched.sealNow = [m]) (hrun : c.run = runOf s c.slotId) (hc : slotCommitted c.slotId s = false)
    (hpart : m.partition = c.partition) (hmb : m.microbatch = c.microbatch) (hpl : m.places = [p]) (hlast : p.piece + 1 = p.pieces)
    (hw : p.withdrawn = false) (hl : liveSlot s p.handle = some slot) (hst : (sessionAt s slot).d.state = 2) (hr : (sessionAt s slot).rebuild = none)
    (hj : (sessionAt s slot).job = some j) (he : j.endWith = none) (hd : (sessionAt s slot).nextSetDue = false) (hs : samplesNow (sessionAt s slot) p.qpos = false)
    (hn : n = ((sealedRows (sessionAt s slot) p.qpos).filter (fun r => decide ((sessionAt s slot).d.committed ≤ r))).length)
    (hroom : listFull (sessionAt s slot) ((sessionAt s slot).d.committed + n - 1) = false) :
    ∃ t, exec (.samplingCommit c) s = .next t ∧ t.sched.sealNow = []
      ∧ promptView (sessionAt t slot) = ((sessionAt s slot).d.committed + n, 2, (sessionAt s slot).body, (sessionAt s slot).tail, false, some none)
      ∧ (∀ k, k ≠ slot → sessionAt t k = sessionAt s k) ∧ (s.sched.active ≠ none → t.mem = s.mem) ∧ t.out.replies = s.out.replies := by
  let v : State := { s with sched := { s.sched with sealNow := [], commits := s.sched.commits ++ [(c.slotId, 0)] } }
  obtain ⟨hb, hv⟩ := commitMember_prompt (p := p) (n := p.qpos) (step := c.step) (out := c.members.find? (fun o => o.handle == p.handle)) (s := v)
    hl hst hr hj he hd hs hn hroom
  exact ⟨_, execSamplingCommit_single hdue hprev hnow hrun hc hpart hmb hpl hlast hw, hb.sealNow, hv, hb.others, hb.mem, hb.replies⟩

/-- Settles O51: each commit point is taken apart by its guards, and what it releases is read from the lemma about that part. -/
theorem commitPointsRelease : Obligations.CommitPointsRelease := by
  unfold Obligations.CommitPointsRelease
  refine ⟨fun c s u hu h => execCommitPoint_void hu h, ?checks, ?result, ?tile, ?hand, fun c s u hu h => execSamplingCommit_void hu h, ?prompt⟩
  case checks =>
    intro c img x s u hu hi hx hst hsv hd
    have h : CommandRuns c img x u := ⟨hi, hx, hst, hsv, hd⟩
    exact ⟨fun hr => ⟨_, h.residue hu hr, residueMismatch_sets _ _ _ _⟩, fun l hr hl => ⟨_, h.reduce hu hr hl, reduceMismatch_sets _ _ _ _⟩,
      fun hr hl hup => commit_passes hu h hr hl hup⟩
  case result =>
    intro c j l img x i off g b s u hu hi hx hst hsv hd hup hsteps hw hh hj hl hdest hb hg hk hfirst hlen hwf _
    exact commit_result hu ⟨hi, hx, hst, hsv, hd⟩ hup hsteps hw hh hj hl hdest hb hg hk hfirst hlen hwf
  case tile =>
    intro c w img x q slot f g s u hu hi hx hst hsv hd hup hsteps hw hh hq hl hm h0 hlen hg hk hf hwf
    exact commit_tile hu ⟨hi, hx, hst, hsv, hd⟩ hup hsteps hw hh hq hl hm h0 hlen hg hk hf hwf
  case hand =>
    intro c ho img x b g a m s u hu hi hx hst hsv hd hup hsteps hw hh hg hk ha hak hbit hfirst hne hm hmk hml hb hlen hwf
    exact commit_hand hu ⟨hi, hx, hst, hsv, hd⟩ hup hsteps hw hh hg hk ha hak hbit hfirst hne hm hmk hml hb hlen (fun k => (hwf k).1)
  case prompt =>
    intro c m p slot n j s hdue hprev hnow hrun hc hpart hmb hpl hlast hw hl hst hr hj he hd hs hn hroom
    obtain ⟨t, ht, hseal, hview, hothers, hmem, hrep⟩ := samplingCommit_prompt hdue hprev hnow hrun hc hpart hmb hpl hlast hw hl hst hr hj he hd hs hn hroom
    simp only [promptView, Prod.mk.injEq] at hview
    obtain ⟨hcom, hstate, hbody, htail, -, -⟩ := hview
    exact ⟨t, ht, hcom, hstate, hbody, htail, hseal, hothers, hmem, hrep⟩

end Sys2Proof.Machine
end

section
/-! SUPPORT for O20 and O49. What a cadence row may change (02 R36 to R62), and the cadence block after the operations that these rows share. -/

namespace Sys2Proof.Machine

variable {s t : State}

/-! ### What a cadence row keeps -/

/-- The state without what a cadence row may change; of the outbox only interrupts go. -/
def offCadence (s : State) : State :=
  { s with cad := {}, clients := [], cal := {}, evr := {}, flags := [], mgmt := {}, out := { s.out with msix := [] } }

theorem offCadence_raiseEvent (off : Nat) (s : State) : offCadence (raiseEvent off s) = offCadence s := by
  unfold raiseEvent
  split
  · rfl
  · split <;> rfl

theorem offCadence_setFlag (off bit : Nat) (s : State) : offCadence (setFlag off bit s) = offCadence s := offCadence_raiseEvent _ _

theorem offCadence_snapshotVictim (v : Record) (s : State) : offCadence (snapshotVictim v s) = offCadence s := by
  unfold snapshotVictim
  split
  · rfl
  · split
    · dsimp only
      split
      · rfl
      · exact offCadence_setFlag _ _ _
    · rfl

theorem offCadence_storeRecord (sev code : Nat) (body : Bytes) (s : State) : offCadence (storeRecord sev code body s) = offCadence s := by
  unfold storeRecord
  dsimp only
  split
  · exact offCadence_setFlag _ _ _
  · exact foldl_keeps offCadence (fun _ _ => offCadence_snapshotVictim _ _) _ s

theorem offCadence_rollWindow (s : State) : offCadence (rollWindow s) = offCadence s := (congrArg offCadence (rollWindow_changes s)).trans rfl

theorem offCadence_report (code : Nat) (body : Bytes) (s : State) : offCadence (report code body s) = offCadence s := by
  unfold report reportAt
  split
  · rfl
  · dsimp only
    split
    · split
      · exact (offCadence_setFlag _ _ _).trans (offCadence_rollWindow s)
      · exact (offCadence_storeRecord _ _ _ _).trans (offCadence_rollWindow s)
    · exact (offCadence_storeRecord _ _ _ _).trans (offCadence_rollWindow s)

/-- A later state differs only in what a cadence row may change, and has every flag set that was set. -/
structure ByCadence (s t : State) : Prop where
  frame : offCadence t = offCadence s
  flags : FlagsStay s t

namespace ByCadence

theorem refl (s : State) : ByCadence s s := ⟨rfl, .refl s⟩

theorem trans {u : State} (h : ByCadence s t) (k : ByCadence t u) : ByCadence s u := ⟨k.frame.trans h.frame, h.flags.trans k.flags⟩

theorem mem (h : ByCadence s t) : t.mem = s.mem := eq_of_aside offCadence State.mem (fun _ => rfl) h.frame
theorem slots (h : ByCadence s t) : t.slots = s.slots := eq_of_aside offCadence State.slots (fun _ => rfl) h.frame
theorem sched (h : ByCadence s t) : t.sched = s.sched := eq_of_aside offCadence State.sched (fun _ => rfl) h.frame
theorem replies (h : ByCadence s t) : t.out.replies = s.out.replies := eq_of_aside offCadence (fun s => s.out.replies) (fun _ => rfl) h.frame
theorem msgs (h : ByCadence s t) : t.out.msgs = s.out.msgs := eq_of_aside offCadence (fun s => s.out.msgs) (fun _ => rfl) h.frame

/-- The cadence block and the recorder may change as they like. -/
theorem update {u : State} (h : ByCadence s t) (hf : offCadence u = offCadence t) (hg : u.flags = t.flags) : ByCadence s u :=
  ⟨hf.trans h.frame, h.flags.trans (.of_eq hg)⟩

theorem setFlag (off bit : Nat) (h : ByCadence s t) : ByCadence s (setFlag off bit t) :=
  ⟨(offCadence_setFlag off bit t).trans h.frame, h.flags.setFlag off bit⟩

theorem report (code : Nat) (body : Bytes) (h : ByCadence s t) : ByCadence s (report code body t) :=
  ⟨(offCadence_report code body t).trans h.frame, h.flags.report code body⟩

theorem takeSource (h : ByCadence s t) : ByCadence s (takeSource t) := by
  unfold Machine.takeSource
  split
  · exact h.update rfl rfl
  · exact h

theorem passBeats (n : Nat) (h : ByCadence s t) : ByCadence s (passBeats n t) :=
  h.update ((congrArg offCadence (passBeats_changes n t)).trans rfl) (by rw [passBeats_changes])

theorem enterCad (st : CadState) (h : ByCadence s t) : ByCadence s (enterCad st t) := by
  unfold Machine.enterCad
  split
  · exact h
  · exact report _ _ (h.update rfl rfl)

end ByCadence

/-! ### Entering a lock state (02 R39, R45) -/

/-- The cadence block of a device that enters another lock state. -/
def enteredCad (st : CadState) (c : Cadence) : Cadence :=
  let fresh := st = .unlocked ∨ st = .acquiring
  { c with
    st := st, goodMarks := 0, badMarks := 0, mismatchRun := 0, loadAt := none
    lastNum := if st = .acquiring then none else c.lastNum
    beat := if fresh then 0 else c.beat
    phase := if fresh then 0 else c.phase
    peerDisc := if st = .holdover then c.peerDisc else false
    slew := 0
    markBeat := if fresh then none else c.markBeat
    markOut := if st = .master then c.markOut else none
    holdBeats := if st = .holdover then 0 else c.holdBeats }

theorem enterCad_cad {st : CadState} (h : s.cad.st ≠ st) : (enterCad st s).cad = enteredCad st s.cad := by
  unfold enterCad
  rw [if_neg h]
  exact report_cad _ _ _

@[simp] theorem enterCad_st (st : CadState) (s : State) : (enterCad st s).cad.st = st := by
  by_cases h : s.cad.st = st
  · rw [enterCad, if_pos h, h]
  · rw [enterCad_cad h]
    rfl

@[simp] theorem enterCad_marks (st : CadState) (s : State) : (enterCad st s).cad.marks = s.cad.marks := by
  by_cases h : s.cad.st = st
  · rw [enterCad, if_pos h]
  · rw [enterCad_cad h]
    rfl

/-- A state that is not entered afresh keeps the count. -/
theorem enterCad_beat_keeps {st : CadState} (hu : st ≠ .unlocked) (ha : st ≠ .acquiring) (s : State) :
    (enterCad st s).cad.beat = s.cad.beat := by
  by_cases h : s.cad.st = st
  · rw [enterCad, if_pos h]
  · rw [enterCad_cad h]
    simp [enteredCad, hu, ha]

theorem takeSource_of_ne (h : s.cad.st ≠ .holdover) : takeSource s = s := by
  rw [takeSource, if_neg h]

/-- A discipline source taken up changes what shows it, and nothing else of the cadence block. -/
theorem takeSource_cad (s : State) :
    (takeSource s).cad = { s.cad with peerDisc := (takeSource s).cad.peerDisc, discLink := (takeSource s).cad.discLink } := by
  unfold takeSource
  split <;> rfl

/-! ### LOCKED to HOLDOVER (02 R45) -/

/-- The marks of a LOCKED device fail: REF_LOST is set, and it goes on in HOLDOVER by its discipline source, if any. -/
def holdOver (s : State) : State := takeSource (enterCad .holdover (setFlag offCadEvents 0 s))

theorem holdOver_byCadence (s : State) : ByCadence s (holdOver s) := (((ByCadence.refl s).setFlag _ _).enterCad _).takeSource

theorem holdOver_refLost (s : State) : (getFlag (holdOver s) offCadEvents 0).on = true :=
  ((ByCadence.refl _).enterCad _).takeSource.flags _ _ (by rw [getFlag_setFlag_same])

/-- HOLDOVER begins with the count unbroken and its own beats at 0. -/
theorem holdOver_cad (h : s.cad.st = .locked) : (holdOver s).cad.st = .holdover ∧ (holdOver s).cad.beat = s.cad.beat
    ∧ (holdOver s).cad.holdBeats = 0 ∧ (holdOver s).cad.marks = s.cad.marks := by
  have hc : (enterCad .holdover (setFlag offCadEvents 0 s)).cad = enteredCad .holdover s.cad := by
    rw [enterCad_cad (by simp [h]), setFlag_cad]
  unfold holdOver
  rw [takeSource_cad, hc]
  simp [enteredCad]

/-! ### LEAVING (02 R49) -/

/-- A device of no ring passes through LEAVING at once. -/
theorem leaveCad_alone (h : inRing s = false) : leaveCad s = reacquire (enterCad .leaving s) := by
  have hr : inRing (enterCad .leaving s) = false := by
    rw [inRing, ((ByCadence.refl s).enterCad .leaving).sched]
    exact h
  simp [leaveCad, hr]

/-- A ring member announces its departure for the first boundary a whole step away. -/
theorem leaveCad_ring {img : Image} (ha : s.sched.active = some img) (hr : img.rings ≠ []) :
    leaveCad s = send (.departure (departureBoundary img s) (img.rings.map (fun r => r.ringId)))
      { enterCad .leaving s with cad := { (enterCad .leaving s).cad with departAt := some (departureBoundary img s) } } := by
  have hact : (enterCad .leaving s).sched.active = some img := by rw [((ByCadence.refl s).enterCad .leaving).sched, ha]
  have hb : departureBoundary img (enterCad .leaving s) = departureBoundary img s := by
    rw [departureBoundary, enterCad_beat_keeps (by decide) (by decide)]
    rfl
  simp [leaveCad, announceDeparture, inRing, ringIds, hact, hb, hr]

theorem inRing_iff : inRing s = true ↔ ∃ img, s.sched.active = some img ∧ img.rings ≠ [] := by
  unfold inRing
  split
  · next img h => simp [h]
  · next h => simp [h]

@[simp] theorem reacquire_st (s : State) : (reacquire s).cad.st = if s.cad.marks then .acquiring else .unlocked := enterCad_st _ _

theorem leaveCad_st (s : State) :
    (leaveCad s).cad.st = if inRing s then .leaving else if s.cad.marks then .acquiring else .unlocked := by
  cases h : inRing s
  · rw [leaveCad_alone h]
    simp
  · obtain ⟨img, ha, hr⟩ := inRing_iff.1 h
    rw [leaveCad_ring ha hr]
    simp

theorem leaveCad_alone_byCadence (h : inRing s = false) : ByCadence s (leaveCad s) := by
  rw [leaveCad_alone h]
  exact ((ByCadence.refl s).enterCad _).enterCad _

/-- Whether or not a departure is announced, sessions and memory stay and no flag is cleared. -/
theorem leaveCad_keeps (s : State) : (leaveCad s).slots = s.slots ∧ (leaveCad s).mem = s.mem ∧ FlagsStay s (leaveCad s) := by
  cases h : inRing s
  · have hb := leaveCad_alone_byCadence h
    exact ⟨hb.slots, hb.mem, hb.flags⟩
  · obtain ⟨img, ha, hr⟩ := inRing_iff.1 h
    have hb := (ByCadence.refl s).enterCad .leaving
    rw [leaveCad_ring ha hr]
    exact ⟨hb.slots, hb.mem, hb.flags.trans (.of_eq rfl)⟩

end Sys2Proof.Machine
end

section
/-! SUPPORT for O20. CAD.PERIOD and CAD.MODE (02 R37, R50), a beat mark in each lock state (02 R39, R40, R45), and the limits of acquisition and holdover (02 R45, R48, R49). -/

namespace Sys2Proof.Machine

variable {s : State}

/-! ### CAD.PERIOD and CAD.MODE -/

theorem changePeriod_master {code : Nat} (h : s.cad.st = .master) : changePeriod code s = { s with cad := { s.cad with period := code } } := by
  unfold changePeriod
  split
  · next hc => rw [hc]
  · rw [if_pos h]

/-- A follower that takes a new period counts locally from 0. -/
theorem changePeriod_follower {code : Nat} (hc : code ≠ s.cad.period) (h : s.cad.st ≠ .master) :
    ByCadence s (changePeriod code s) ∧ (changePeriod code s).cad.period = code ∧ (changePeriod code s).cad.st = .unlocked
      ∧ (changePeriod code s).cad.beat = 0 := by
  obtain ⟨u, hu⟩ : ∃ u : State, u = { s with cad := { s.cad with period := code } } := ⟨_, rfl⟩
  have hb : ByCadence s u := (ByCadence.refl s).update (by rw [hu]; rfl) (by rw [hu])
  by_cases hs : s.cad.st = .unlocked
  · have he : changePeriod code s = { u with cad := { u.cad with beat := 0, phase := 0, goodMarks := 0 }, evr := { u.evr with window := 2 ^ 64 } } := by
      simp [changePeriod, hc, hs, hu]
    rw [he]
    exact ⟨hb.update rfl rfl, by rw [hu], by rw [hu]; exact hs, rfl⟩
  · have he : changePeriod code s = enterCad .unlocked u := by simp [changePeriod, hc, h, hs, hu]
    have hcad : (enterCad .unlocked u).cad = enteredCad .unlocked u.cad := enterCad_cad (by rw [hu]; exact hs)
    rw [he, hcad]
    exact ⟨hb.enterCad _, by rw [hu]; rfl, rfl, rfl⟩

/-- A follower made master counts from CAD.BEAT_INIT. -/
theorem changeMode_toMaster {mode : Nat} (h0 : mode ≠ 0) (hm : mode ≠ s.cad.mode) (h : s.cad.st ≠ .master) :
    ByCadence s (changeMode mode s) ∧ (changeMode mode s).cad.mode = mode ∧ (changeMode mode s).cad.st = .master
      ∧ (changeMode mode s).cad.beat = s.cad.beatInit ∧ (changeMode mode s).cad.phase = 0 := by
  obtain ⟨u, hu⟩ : ∃ u : State, u = { s with cad := { s.cad with mode := mode, xrefLost := false } } := ⟨_, rfl⟩
  have hb : ByCadence s u := (ByCadence.refl s).update (by rw [hu]; rfl) (by rw [hu])
  have hcad : (enterCad .master u).cad = enteredCad .master u.cad := enterCad_cad (by rw [hu]; exact h)
  have he : changeMode mode s = { enterCad .master u with
      cad := { (enterCad .master u).cad with beat := u.cad.beatInit, phase := 0, markOut := some u.cad.beatInit } } := by
    simp [changeMode, hm, h0, h, ← hu, hcad, enteredCad]
  rw [he, hcad]
  exact ⟨(hb.enterCad .master).update rfl rfl, by rw [hu]; rfl, rfl, by rw [hu], rfl⟩

theorem changeMode_master {mode : Nat} (h0 : mode ≠ 0) (hm : s.cad.mode ≠ mode) (h : s.cad.st = .master) :
    changeMode mode s = { s with cad := { s.cad with mode := mode, xrefLost := false } } := by
  simp [changeMode, Ne.symm hm, h0, h]

/-- A master made follower is UNLOCKED at once (log entry 83). -/
theorem changeMode_toFollower (hm : s.cad.mode ≠ 0) (h : s.cad.st = .master) :
    ByCadence s (changeMode 0 s) ∧ (changeMode 0 s).cad.mode = 0 ∧ (changeMode 0 s).cad.st = .unlocked ∧ (changeMode 0 s).cad.beat = 0 := by
  obtain ⟨u, hu⟩ : ∃ u : State, u = { s with cad := { s.cad with mode := 0, xrefLost := false } } := ⟨_, rfl⟩
  have hb : ByCadence s u := (ByCadence.refl s).update (by rw [hu]; rfl) (by rw [hu])
  have he : changeMode 0 s = enterCad .unlocked u := by simp [changeMode, Ne.symm hm, hu]
  have hcad : (enterCad .unlocked u).cad = enteredCad .unlocked u.cad := enterCad_cad (by simp [hu, h])
  rw [he, hcad]
  exact ⟨hb.enterCad _, by rw [hu]; rfl, rfl, rfl⟩

/-! ### The beat that a mark begins -/

/-- The beat that a mark begins: the next one when the last mark began this one or more than half of it has passed, else this one (02 R39). -/
def markedBeat (s : State) : Nat :=
  if s.cad.markBeat = some s.cad.beat ∨ 0x800 ≤ s.cad.phase then (s.cad.beat + 1) % 2 ^ 63 else s.cad.beat

theorem passBeats_cad {n : Nat} (h : s.cad.st ≠ .holdover) : (passBeats n s).cad = cadBeats n s.cad := by
  exact congrArg State.cad (takeSource_of_ne (s := { s with
    cad := cadBeats n s.cad, clients := FMap.mapVals (fun _ c => clientBeats n c) s.clients, cal := slewPhase n s }) h)

theorem markBegins_byCadence (s : State) : ByCadence s (markBegins s) := by
  unfold markBegins
  dsimp only
  split
  · exact ((ByCadence.refl s).passBeats 1).update rfl rfl
  · exact (ByCadence.refl s).update rfl rfl

/-- A mark that a follower follows begins its beat at phase 0; of the rest only the offset to be slewed may move. -/
theorem markBegins_cad (hh : s.cad.st ≠ .holdover) (hm : s.cad.st ≠ .master) :
    ∃ left, (markBegins s).cad = { s.cad with beat := markedBeat s, phase := 0, markBeat := some (markedBeat s), slew := left } := by
  unfold markBegins markedBeat
  split
  · exact ⟨(cadBeats 1 s.cad).slew, by simp [passBeats_cad hh, cadBeats, hh, hm]⟩
  · exact ⟨s.cad.slew, rfl⟩

/-! ### A mark in each lock state -/

/-- A mark is heard: marks are present, and its phase error is shown. -/
def heard (err : Int) (s : State) : State := { s with cad := { s.cad with marks := true, phaseErr := err } }

theorem heard_byCadence (err : Int) (s : State) : ByCadence s (heard err s) := (ByCadence.refl s).update rfl rfl

theorem soundMark_of_ne {ok : Bool} {err : Int} {c : Cadence} (h : c.st ≠ .locked) : soundMark ok err c = ok := by
  simp [soundMark, h]

theorem beatMark_master {ok : Bool} {e : Int} (h : s.cad.st = .master) : beatMark ok e s = s := by
  simp [beatMark, h]

/-- Before the lock a device follows every mark. -/
theorem beatMark_seeking {ok : Bool} {e : Int} (h : s.cad.st = .unlocked ∨ s.cad.st = .acquiring) :
    beatMark ok e s = markTaken ok (e + refOffset s) (markBegins s) := by
  rcases h with h | h <;> simp [beatMark, h, soundMark_of_ne, markErr]

/-- A LOCKED device follows a sound mark, and does not follow another. -/
theorem beatMark_locked {ok : Bool} {e : Int} (h : s.cad.st = .locked) :
    beatMark ok e s = if soundMark ok (e + refOffset s) s.cad then markTaken true (e + refOffset s) (markBegins s)
      else markTaken false (e + refOffset s) s := by
  cases hs : soundMark ok (e + refOffset s) s.cad <;> simp [beatMark, h, markErr, hs]

theorem beatMark_holdover {ok : Bool} {e : Int} (h : s.cad.st = .holdover) : beatMark ok e s = markTaken ok (e + refOffset s) s := by
  simp [beatMark, h, soundMark_of_ne, markErr]

/-- In UNLOCKED the eighth sound mark in a row enters ACQUIRING, and an unsound one starts the run again. -/
theorem markTaken_unlocked {sound : Bool} {err : Int} (h : s.cad.st = .unlocked) :
    markTaken sound err s = if sound = true ∧ 7 ≤ s.cad.goodMarks then enterCad .acquiring (heard err s)
      else { heard err s with cad := { (heard err s).cad with goodMarks := if sound then s.cad.goodMarks + 1 else 0 } } := by
  cases sound
  · simp [markTaken, h, heard]
  · by_cases hg : 7 ≤ s.cad.goodMarks
    · have hn : ¬ s.cad.goodMarks + 1 < 8 := by omega
      simp [markTaken, h, heard, hg, hn]
    · have hn : s.cad.goodMarks + 1 < 8 := by omega
      simp [markTaken, h, heard, hg, hn]

/-- In ACQUIRING the 64th mark in a row within 0x004 takes the announced number up, once its beat has come. -/
theorem markTaken_locks {sound : Bool} {err : Int} {n at_ : Nat} (h : s.cad.st = .acquiring) (he : err.natAbs ≤ 0x004) (hg : 63 ≤ s.cad.goodMarks)
    (hl : s.cad.loadAt = some (n, at_)) (hb : at_ ≤ s.cad.beat) :
    ByCadence s (markTaken sound err s) ∧ (markTaken sound err s).cad.st = .locked
      ∧ (markTaken sound err s).cad.beat = n + (s.cad.beat - at_) ∧ (markTaken sound err s).cad.phase = s.cad.phase := by
  obtain ⟨u, hu⟩ : ∃ u : State, u = { heard err s with cad := { (heard err s).cad with goodMarks := s.cad.goodMarks + 1 } } := ⟨_, rfl⟩
  have hub : ByCadence s u := (heard_byCadence err s).update (by rw [hu]; rfl) (by rw [hu])
  have hm : markTaken sound err s = { enterCad .locked u with
      cad := { (enterCad .locked u).cad with beat := n + (s.cad.beat - at_), markBeat := some (n + (s.cad.beat - at_)) } } := by
    simp [markTaken, h, he, hg, hl, hb, hu, heard]
  have hc : (enterCad .locked u).cad = enteredCad .locked u.cad := enterCad_cad (by simp [hu, heard, h])
  rw [hm, hc]
  exact ⟨(hub.enterCad .locked).update rfl rfl, rfl, rfl, by rw [hu]; rfl⟩

/-- In LOCKED a sound mark ends a run of unsound ones, and the second unsound one in a row enters HOLDOVER. -/
theorem markTaken_locked {sound : Bool} {err : Int} (h : s.cad.st = .locked) :
    markTaken sound err s = if sound then { heard err s with cad := { (heard err s).cad with badMarks := 0 } }
      else if s.cad.badMarks = 0 then { heard err s with cad := { (heard err s).cad with badMarks := 1 } }
      else holdOver (heard err s) := by
  cases sound
  · by_cases hb : s.cad.badMarks = 0
    · simp [markTaken, h, heard, hb]
    · simp [markTaken, h, heard, hb, holdOver]
  · simp [markTaken, h, heard]

/-- In HOLDOVER a mark within 0x080 counts towards the return, and another starts that count again. -/
theorem markTaken_holdover {sound : Bool} {err : Int} (h : s.cad.st = .holdover) :
    markTaken sound err s = if err.natAbs ≤ 0x080 then { heard err s with cad := { (heard err s).cad with goodMarks := s.cad.goodMarks + 1 } }
      else setFlag offCadEvents 5 { heard err s with cad := { (heard err s).cad with goodMarks := 0 } } := by
  simp [markTaken, h, heard]

/-! ### The limits -/

theorem execHoldLimit_limit (h : s.cad.st = .holdover) (hl : 10000000 / 2 ^ s.cad.period ≤ s.cad.holdBeats) :
    exec .holdLimit s = .next (leaveCad (setFlag offCadEvents 4 s)) := by
  change execHoldLimit s = _
  rw [execHoldLimit, if_pos ⟨h, .inl hl⟩]

theorem execHoldLimit_before (h : s.cad.st ≠ .holdover ∨ (s.cad.holdBeats < 10000000 / 2 ^ s.cad.period ∧ s.cad.peerDisc = false)) :
    exec .holdLimit s = .next s := by
  change execHoldLimit s = _
  rw [execHoldLimit, if_neg]
  rintro ⟨hst, hlim⟩
  rcases h with h | ⟨hb, hp⟩
  · exact h hst
  · rcases hlim with hlim | ⟨hd, -⟩
    · exact absurd hlim (Nat.not_le.2 hb)
    · rw [hp] at hd
      cases hd

end Sys2Proof.Machine
end

section
/-! PROOF of O20: the clauses of the cadence states, each read from the rule about its row. -/

namespace Sys2Proof.Machine

variable {s : State}

theorem execCadPeriodChange_next {code : Nat} (hr : inRing s = false) (hc : code ≤ 4) :
    exec (.cadPeriodChange code) s = .next (changePeriod code s) := by
  change execCadPeriodChange code s = _
  rw [execCadPeriodChange, if_neg (by simp [hr, hc])]

theorem execCadPeriodChange_refused {code : Nat} (h : inRing s = true ∨ 4 < code) : exec (.cadPeriodChange code) s = .next s := by
  change execCadPeriodChange code s = _
  rw [execCadPeriodChange, if_pos h]

theorem execCadModeChange_next {mode : Nat} (hr : inRing s = false) (hm : mode ≤ 2) :
    exec (.cadModeChange mode) s = .next (changeMode mode s) := by
  change execCadModeChange mode s = _
  rw [execCadModeChange, if_neg (by simp [hr, hm])]

theorem execCadModeChange_refused {mode : Nat} (h : inRing s = true ∨ 2 < mode) : exec (.cadModeChange mode) s = .next s := by
  change execCadModeChange mode s = _
  rw [execCadModeChange, if_pos h]

/-- The mode in force, asked for again, changes nothing. -/
theorem execCadModeChange_same (s : State) : exec (.cadModeChange s.cad.mode) s = .next s := by
  change execCadModeChange s.cad.mode s = _
  simp [execCadModeChange, changeMode]

/-- A mark in UNLOCKED: the beat it begins leaves the run of marks as it was counted. -/
theorem beatMark_unlocked {ok : Bool} {e : Int} (h : s.cad.st = .unlocked) :
    ∃ u, ByCadence s u ∧ u.cad.st = .unlocked ∧ u.cad.marks = true
      ∧ beatMark ok e s = if ok = true ∧ 7 ≤ s.cad.goodMarks then enterCad .acquiring u
        else { u with cad := { u.cad with goodMarks := if ok then s.cad.goodMarks + 1 else 0 } } := by
  obtain ⟨left, hc⟩ := markBegins_cad (s := s) (by simp [h]) (by simp [h])
  have hst : (markBegins s).cad.st = .unlocked := by rw [hc]; exact h
  have hg : (markBegins s).cad.goodMarks = s.cad.goodMarks := by rw [hc]
  refine ⟨heard (e + refOffset s) (markBegins s), (markBegins_byCadence s).trans (heard_byCadence _ _), hst, rfl, ?_⟩
  rw [beatMark_seeking (.inl h), markTaken_unlocked hst, hg]

/-- The eighth sound mark in a row begins the search for the beat number, with the local count at 0. -/
theorem beatMark_eighth {e : Int} (h : s.cad.st = .unlocked) (hg : 7 ≤ s.cad.goodMarks) :
    ByCadence s (beatMark true e s) ∧ (beatMark true e s).cad.st = .acquiring ∧ (beatMark true e s).cad.beat = 0 ∧ (beatMark true e s).cad.phase = 0 := by
  obtain ⟨u, hb, hu, -, hm⟩ := beatMark_unlocked (ok := true) (e := e) h
  rw [hm, if_pos ⟨rfl, hg⟩]
  refine ⟨hb.enterCad _, ?_⟩
  rw [enterCad_cad (by simp [hu])]
  exact ⟨rfl, rfl, rfl⟩

/-- A mark that does not end the search for marks is counted, or starts the run again. -/
theorem beatMark_counted {ok : Bool} {e : Int} (h : s.cad.st = .unlocked) (hg : ok = false ∨ s.cad.goodMarks + 1 < 8) :
    ByCadence s (beatMark ok e s) ∧ (beatMark ok e s).cad.st = .unlocked
      ∧ (beatMark ok e s).cad.goodMarks = (if ok then s.cad.goodMarks + 1 else 0) ∧ (beatMark ok e s).cad.marks = true := by
  obtain ⟨u, hb, hu, hmarks, hm⟩ := beatMark_unlocked (ok := ok) (e := e) h
  have hno : ¬ (ok = true ∧ 7 ≤ s.cad.goodMarks) := by
    rintro ⟨hok, h7⟩
    rcases hg with hg | hg
    · simp [hok] at hg
    · omega
  rw [hm, if_neg hno]
  exact ⟨hb.update rfl rfl, hu, rfl, hmarks⟩

/-- The 64th mark in a row within 0x004 of a device whose announced beat has come. -/
theorem beatMark_locks {ok : Bool} {e : Int} {n at_ : Nat} (h : s.cad.st = .acquiring) (he : (e + refOffset s).natAbs ≤ 0x004)
    (hg : 63 ≤ s.cad.goodMarks) (hl : s.cad.loadAt = some (n, at_)) (hb : at_ ≤ s.cad.beat) (hm : s.cad.markBeat ≠ some s.cad.beat)
    (hp : s.cad.phase < 0x800) :
    ByCadence s (beatMark ok e s) ∧ (beatMark ok e s).cad.st = .locked ∧ (beatMark ok e s).cad.beat = n + (s.cad.beat - at_)
      ∧ (beatMark ok e s).cad.phase = 0 := by
  obtain ⟨left, hc⟩ := markBegins_cad (s := s) (by simp [h]) (by simp [h])
  have hbeat : markedBeat s = s.cad.beat := if_neg (by simp [hm, hp])
  have hk := markTaken_locks (s := markBegins s) (sound := ok) (by rw [hc]; exact h) he (by rw [hc]; exact hg) (by rw [hc]; exact hl)
    (by rw [hc]; exact hbeat ▸ hb)
  rw [beatMark_seeking (.inr h)]
  obtain ⟨hby, hst, hat, hph⟩ := hk
  refine ⟨(markBegins_byCadence s).trans hby, hst, ?_, ?_⟩
  · rw [hat, hc, hbeat]
  · rw [hph, hc]

/-- In LOCKED a sound mark begins its beat at phase 0. -/
theorem beatMark_sound {e : Int} (h : s.cad.st = .locked) (he : (e + refOffset s - s.cad.slew).natAbs ≤ 0x010) :
    ByCadence s (beatMark true e s) ∧ ∃ left, (beatMark true e s).cad = { s.cad with
      marks := true, phaseErr := e + refOffset s, badMarks := 0, beat := markedBeat s, phase := 0, markBeat := some (markedBeat s), slew := left } := by
  obtain ⟨left, hc⟩ := markBegins_cad (s := s) (by simp [h]) (by simp [h])
  have hm : beatMark true e s = { heard (e + refOffset s) (markBegins s) with
      cad := { (heard (e + refOffset s) (markBegins s)).cad with badMarks := 0 } } := by
    rw [beatMark_locked h, if_pos (by simp [soundMark, he]), markTaken_locked (by rw [hc]; exact h), if_pos rfl]
  rw [hm]
  exact ⟨((markBegins_byCadence s).trans (heard_byCadence (e + refOffset s) _)).update rfl rfl, left, by simp [heard, hc]⟩

/-- In LOCKED an unsound mark is counted, the second in a row ends the lock. -/
theorem beatMark_unsound {e : Int} (h : s.cad.st = .locked) :
    beatMark false e s = if s.cad.badMarks = 0 then { heard (e + refOffset s) s with cad := { (heard (e + refOffset s) s).cad with badMarks := 1 } }
      else holdOver (heard (e + refOffset s) s) := by
  rw [beatMark_locked h, if_neg (by simp [soundMark]), markTaken_locked h, if_neg (by decide)]

/-- Marks absent in LOCKED enter HOLDOVER, in another state they are only noted. -/
theorem execMarksAbsent_eq (s : State) :
    exec .marksAbsent s = .next (if s.cad.st = .locked then holdOver { s with cad := { s.cad with marks := false, goodMarks := 0 } }
      else { s with cad := { s.cad with marks := false, goodMarks := 0 } }) := rfl

theorem execAcqFail_eq (s : State) :
    exec .acqFail s = .next (if s.cad.st = .acquiring ∧ 4096 ≤ s.cad.beat then enterCad .unlocked (setFlag offCadEvents 1 s) else s) := rfl

theorem inRing_setFlag (off bit : Nat) (s : State) : inRing (setFlag off bit s) = inRing s := by
  rw [inRing, setFlag_sched, inRing]

/-- HOLD_LIMIT is set, and no later step of the departure clears it. -/
theorem leaveCad_holdLimit (s : State) : (getFlag (leaveCad (setFlag offCadEvents 4 s)) offCadEvents 4).on = true := by
  obtain ⟨-, -, hflags⟩ := leaveCad_keeps (setFlag offCadEvents 4 s)
  exact hflags _ _ (by rw [getFlag_setFlag_same])

/-- At the holdover limit a device of no ring goes back to where marks, if any, can lock it. -/
theorem execHoldLimit_alone (hst : s.cad.st = .holdover) (hl : 10000000 / 2 ^ s.cad.period ≤ s.cad.holdBeats) (hr : inRing s = false) :
    ∃ t, exec .holdLimit s = .next t ∧ t.cad.st = (if s.cad.marks then .acquiring else .unlocked) ∧ (getFlag t offCadEvents 4).on = true
      ∧ t.slots = s.slots ∧ t.mem = s.mem := by
  have hb := ((ByCadence.refl s).setFlag offCadEvents 4).trans (leaveCad_alone_byCadence (by rw [inRing_setFlag, hr]))
  refine ⟨_, execHoldLimit_limit hst hl, ?_, leaveCad_holdLimit s, hb.slots, hb.mem⟩
  rw [leaveCad_st, inRing_setFlag, hr, setFlag_cad]
  rfl

/-- At the holdover limit a ring member announces its departure. -/
theorem execHoldLimit_ring {img : Image} (hst : s.cad.st = .holdover) (hl : 10000000 / 2 ^ s.cad.period ≤ s.cad.holdBeats)
    (ha : s.sched.active = some img) (hr : img.rings ≠ []) :
    ∃ t, exec .holdLimit s = .next t ∧ t.cad.st = .leaving ∧ t.cad.departAt = some (departureBoundary img s) ∧ (getFlag t offCadEvents 4).on = true
      ∧ t.out.msgs = s.out.msgs ++ [.departure (departureBoundary img s) (img.rings.map (fun r => r.ringId))] ∧ t.slots = s.slots ∧ t.mem = s.mem := by
  have hb := ((ByCadence.refl s).setFlag offCadEvents 4).enterCad .leaving
  have hd : departureBoundary img (setFlag offCadEvents 4 s) = departureBoundary img s := by rw [departureBoundary, setFlag_cad, departureBoundary]
  have hflag := leaveCad_holdLimit s
  have hlv := leaveCad_ring (s := setFlag offCadEvents 4 s) (by rw [setFlag_sched, ha]) hr
  rw [hlv] at hflag
  refine ⟨_, (execHoldLimit_limit hst hl).trans (congrArg Host.Outcome.next hlv), enterCad_st _ _, congrArg some hd, hflag, ?_, hb.slots, hb.mem⟩
  rw [hd, send_out]
  exact congrArg (· ++ _) hb.msgs

/-- Settles O20: a settings row by its guards, a mark by the lock state it meets, a limit by what it leaves the state for. -/
theorem cadenceStates : Obligations.CadenceStates := by
  unfold Obligations.CadenceStates
  refine ⟨fun code mode s hr => ⟨execCadPeriodChange_refused (.inl hr), execCadModeChange_refused (.inl hr)⟩, ?others, ?period, ?periodMaster,
    ?toMaster, ?betweenMasters, ?toFollower, ?master, ?eighth, ?counted, ?locks, ?sound, ?unsound, ?second, ?holdover, ?absent, ?noted, ?fail,
    ?noFail, ?limit, fun s h => execHoldLimit_before h⟩
  case others =>
    intro code mode s
    refine ⟨fun hc => execCadPeriodChange_refused (.inr hc), ?_⟩
    rintro (hm | rfl)
    · exact execCadModeChange_refused (.inr hm)
    · exact execCadModeChange_same s
  case period =>
    intro code s hr hc hne hst
    obtain ⟨hb, hp, hs, hbeat⟩ := changePeriod_follower hne hst
    exact ⟨_, execCadPeriodChange_next hr hc, hp, hs, hbeat, hb.replies, hb.slots, hb.mem⟩
  case periodMaster =>
    intro code s hr hc hst
    rw [execCadPeriodChange_next hr hc, changePeriod_master hst]
  case toMaster =>
    intro mode s hr hm hne hst
    obtain ⟨hb, hmode, hs, hbeat, hphase⟩ := changeMode_toMaster (by omega) hne hst
    exact ⟨_, execCadModeChange_next hr (by omega), hmode, hs, hbeat, hphase, hb.slots, hb.mem⟩
  case betweenMasters =>
    intro mode s hr hm hne hst
    rw [execCadModeChange_next hr (by omega), changeMode_master (by omega) hne hst]
  case toFollower =>
    intro s hr hne hst
    obtain ⟨hb, hmode, hs, hbeat⟩ := changeMode_toFollower hne hst
    exact ⟨_, execCadModeChange_next hr (by decide), hmode, hs, hbeat, hb.slots, hb.mem⟩
  case master =>
    intro ok e s hst
    exact congrArg Host.Outcome.next (beatMark_master hst)
  case eighth =>
    intro e s hst hg
    obtain ⟨hb, hs, hbeat, hphase⟩ := beatMark_eighth (e := e) hst hg
    exact ⟨_, rfl, hs, hbeat, hphase, hb.slots, hb.mem, hb.sched⟩
  case counted =>
    intro ok e s hst hg
    obtain ⟨hb, hs, hgood, hmarks⟩ := beatMark_counted (e := e) hst hg
    exact ⟨_, rfl, hs, hgood, hmarks, hb.slots, hb.mem⟩
  case locks =>
    intro ok e n at_ s hst he hg hl hat hm hp
    obtain ⟨hb, hs, hbeat, hphase⟩ := beatMark_locks (ok := ok) hst he hg hl hat hm hp
    exact ⟨_, rfl, hs, hbeat, hphase, hb.slots, hb.mem⟩
  case sound =>
    intro e s hst he
    obtain ⟨hb, left, hc⟩ := beatMark_sound hst he
    refine ⟨_, rfl, ?_⟩
    rw [hc]
    exact ⟨hst, rfl, rfl, rfl, rfl, rfl, hb.slots, hb.mem⟩
  case unsound =>
    intro e s hst hbad
    refine ⟨_, congrArg Host.Outcome.next ((beatMark_unsound hst).trans (if_pos hbad)), rfl, rfl⟩
  case second =>
    intro e s hst hbad
    obtain ⟨hs, hbeat, hhold, -⟩ := holdOver_cad (s := heard (e + refOffset s) s) hst
    exact ⟨_, congrArg Host.Outcome.next ((beatMark_unsound hst).trans (if_neg (by simp [hbad]))), hs, hbeat, hhold, holdOver_refLost _,
      ((heard_byCadence _ s).trans (holdOver_byCadence _)).slots⟩
  case holdover =>
    intro ok e s hst
    have hm := (beatMark_holdover (ok := ok) (e := e) hst).trans (markTaken_holdover hst)
    refine ⟨fun he => ⟨_, congrArg Host.Outcome.next (hm.trans (if_pos he)), rfl, rfl⟩, fun he => ?_⟩
    refine ⟨_, congrArg Host.Outcome.next (hm.trans (if_neg (Nat.not_le.2 he))), setFlag_cad _ _ _, ?_, setFlag_slots _ _ _⟩
    rw [getFlag_setFlag_same]
  case absent =>
    intro s hst
    obtain ⟨hs, hbeat, -, hmarks⟩ := holdOver_cad (s := { s with cad := { s.cad with marks := false, goodMarks := 0 } }) hst
    have hb := holdOver_byCadence { s with cad := { s.cad with marks := false, goodMarks := 0 } }
    exact ⟨_, (execMarksAbsent_eq s).trans (congrArg Host.Outcome.next (if_pos hst)), hs, hbeat, hmarks, holdOver_refLost _, hb.slots, hb.mem⟩
  case noted =>
    intro s hst
    rw [execMarksAbsent_eq, if_neg hst]
  case fail =>
    intro s hst hbeat
    have hb := (ByCadence.refl (setFlag offCadEvents 1 s)).enterCad .unlocked
    have hc : (enterCad .unlocked (setFlag offCadEvents 1 s)).cad = enteredCad .unlocked s.cad := by
      rw [enterCad_cad (by simp [hst]), setFlag_cad]
    refine ⟨_, (execAcqFail_eq s).trans (congrArg Host.Outcome.next (if_pos ⟨hst, hbeat⟩)), enterCad_st _ _, by rw [hc]; rfl,
      hb.flags _ _ (by rw [getFlag_setFlag_same]), ?_, ?_⟩
    · rw [hb.slots, setFlag_slots]
    · rw [hb.mem, setFlag_mem]
  case noFail =>
    intro s h
    rw [execAcqFail_eq, if_neg (fun k => h.elim (fun hst => hst k.1) (Nat.not_lt.2 k.2))]
  case limit =>
    intro s hst hl
    exact ⟨execHoldLimit_alone hst hl, fun img => execHoldLimit_ring hst hl⟩

end Sys2Proof.Machine
end

section
/-! PROOF of O49. Beat-number messages (02 R41 to R44, R51), cadence marks between members (02 R47), and the external reference (02 R51). -/

namespace Sys2Proof.Machine

variable {s : State}

/-! ### What leaves on several links -/

/-- Messages sent one after another stand in that order behind those sent before. -/
theorem foldl_send_eq {α : Type} (f : State → α → Msg) (hf : ∀ m s x, f (send m s) x = f s x) (l : List α) (s : State) :
    l.foldl (fun s x => send (f s x) s) s = { s with out := { s.out with msgs := s.out.msgs ++ l.map (f s) } } := by
  induction l generalizing s with
  | nil => simp
  | cons x rest ih =>
    have hs : f (send (f s x) s) = f s := funext (fun y => hf _ s y)
    rw [List.foldl_cons, ih, hs]
    simp [send]

/-! ### Beat numbers received -/

theorem beatNumber_master {source : Nat} {b : Bytes} (h : s.cad.st = .master) :
    beatNumber source b s = if numSound b then setFlag offCadEvents 9 s else s := by
  rw [beatNumber, if_pos h]

theorem beatNumber_ignored {source : Nat} {b : Bytes} (h : s.cad.st ≠ .master)
    (hb : source ≠ s.cad.numSource ∨ numSound b = false ∨ fieldAt b 1 1 ≠ s.cad.period ∨ fieldAt b 4 8 % 1024 ≠ 0) :
    beatNumber source b s = s := by
  rw [beatNumber, if_neg h]
  by_cases hs : source = s.cad.numSource
  · have hb' := hb.resolve_left (not_not_intro hs)
    rw [if_neg (not_not_intro hs)]
    simp only
    rw [if_pos (by simpa [or_assoc] using hb')]
  · rw [if_pos hs]

/-- A message that a follower considers where it comes from the source it is set to: sound, of its period, announcing the first beat of a frame. -/
structure NumTaken (s : State) (b : Bytes) : Prop where
  sound : numSound b = true
  period : fieldAt b 1 1 = s.cad.period
  frame : fieldAt b 4 8 % 1024 = 0

namespace NumTaken

variable {b : Bytes}

theorem acquiring (k : NumTaken s b) (h : s.cad.st = .acquiring) :
    beatNumber s.cad.numSource b s = { s with cad := { s.cad with
      masterIndex := fieldAt b 12 2 % 4096
      lastNum := some (fieldAt b 4 8)
      loadAt := if 1024 ≤ fieldAt b 4 8 ∧ s.cad.lastNum = some (fieldAt b 4 8 - 1024) then some (fieldAt b 4 8, s.cad.beat + 512) else none } } := by
  simp [beatNumber, h, k.sound, k.period, k.frame, and_comm]

theorem agrees (k : NumTaken s b) (h : s.cad.st = .locked) (ha : fieldAt b 4 8 = expectedNum s) :
    beatNumber s.cad.numSource b s
      = { s with cad := { s.cad with masterIndex := fieldAt b 12 2 % 4096, mismatchRun := 0, lastNum := some (fieldAt b 4 8) } } := by
  have hf := k.frame
  rw [ha] at hf
  simp [beatNumber, h, k.sound, k.period, hf, ha]

/-- The state in which a LOCKED device has counted a number that disagrees. -/
def counted (b : Bytes) (s : State) : State :=
  setFlag offCadEvents 2 { s with cad := { s.cad with
    masterIndex := fieldAt b 12 2 % 4096, mismatchCnt := satAdd 0xFFFFFFFF s.cad.mismatchCnt 1, lastNum := some (fieldAt b 4 8) } }

theorem counted_byCadence (b : Bytes) (s : State) : ByCadence s (counted b s) := ByCadence.setFlag _ _ ((ByCadence.refl s).update rfl rfl)

theorem disagrees (k : NumTaken s b) (h : s.cad.st = .locked) (hd : fieldAt b 4 8 ≠ expectedNum s) :
    beatNumber s.cad.numSource b s = if s.cad.mismatchRun = 0 then { counted b s with cad := { (counted b s).cad with mismatchRun := 1 } }
      else leaveCad (setFlag offCadEvents 3 (counted b s)) := by
  simp [beatNumber, h, k.sound, k.period, k.frame, hd, counted]

end NumTaken

/-- A number expected is the first beat of a frame. -/
theorem expectedNum_mod (s : State) : expectedNum s % 1024 = 0 := Nat.mul_mod_left _ _

/-- The first number that disagrees is counted, and the lock stays. -/
theorem beatNumber_firstMismatch {b : Bytes} (k : NumTaken s b) (h : s.cad.st = .locked) (hd : fieldAt b 4 8 ≠ expectedNum s) (hr : s.cad.mismatchRun = 0) :
    ∃ t, exec (.beatNumber s.cad.numSource b) s = .next t ∧ t.cad.st = .locked ∧ t.cad.beat = s.cad.beat
      ∧ t.cad.mismatchCnt = satAdd 0xFFFFFFFF s.cad.mismatchCnt 1 ∧ t.cad.mismatchRun = 1 ∧ (getFlag t offCadEvents 2).on = true := by
  have hc : (NumTaken.counted b s).cad = { s.cad with
      masterIndex := fieldAt b 12 2 % 4096, mismatchCnt := satAdd 0xFFFFFFFF s.cad.mismatchCnt 1, lastNum := some (fieldAt b 4 8) } := setFlag_cad _ _ _
  have hflag : (getFlag (NumTaken.counted b s) offCadEvents 2).on = true := by rw [NumTaken.counted, getFlag_setFlag_same]
  refine ⟨_, congrArg Host.Outcome.next ((k.disagrees h hd).trans (if_pos hr)), ?_⟩
  rw [hc]
  exact ⟨h, rfl, rfl, rfl, hflag⟩

/-- The second in a row slips the beat, and the device leaves its lock. -/
theorem beatNumber_slip {b : Bytes} (k : NumTaken s b) (h : s.cad.st = .locked) (hd : fieldAt b 4 8 ≠ expectedNum s) (hr : s.cad.mismatchRun ≠ 0) :
    ∃ t, exec (.beatNumber s.cad.numSource b) s = .next t
      ∧ t.cad.st = (if inRing s then .leaving else if s.cad.marks then .acquiring else .unlocked)
      ∧ (getFlag t offCadEvents 3).on = true ∧ t.slots = s.slots ∧ t.mem = s.mem := by
  obtain ⟨u, hu⟩ : ∃ u, u = setFlag offCadEvents 3 (NumTaken.counted b s) := ⟨_, rfl⟩
  have hb : ByCadence s u := hu ▸ (NumTaken.counted_byCadence b s).setFlag _ _
  have hmarks : u.cad.marks = s.cad.marks := by rw [hu, setFlag_cad, NumTaken.counted, setFlag_cad]
  obtain ⟨hslots, hmem, hflags⟩ := leaveCad_keeps u
  refine ⟨leaveCad u, ?_, ?_, hflags _ _ (by rw [hu, getFlag_setFlag_same]), hslots.trans hb.slots, hmem.trans hb.mem⟩
  · rw [hu]
    exact congrArg Host.Outcome.next ((k.disagrees h hd).trans (if_neg hr))
  · rw [leaveCad_st, hmarks, inRing, hb.sched, inRing]

/-! ### Beat numbers sent (02 R43, R50) -/

theorem numDue_iff : numDue s = true ↔ (s.cad.st = .locked ∨ s.cad.st = .master) ∧ s.cad.beat % 1024 = 512 ∧ s.cad.numSent ≠ some (expectedNum s) := by
  simp [numDue, and_assoc]

theorem execBeatNumberSend_due (h : numDue s = true) :
    exec .beatNumberSend s = .next { s with
      cad := { s.cad with numSent := some (expectedNum s) }
      out := { s.out with msgs := s.out.msgs ++ (if s.cad.st = .master then [.beatSerial (numBytes s)] else [])
        ++ (upLinks s).map (fun l => .beatNumber l (numBytes s)) } } := by
  change execBeatNumberSend s = _
  rw [execBeatNumberSend, if_pos h]
  simp only [foldl_send_eq (fun _ l => .beatNumber l (numBytes s)) (fun _ _ _ => rfl)]
  split <;> simp

theorem execBeatNumberSend_not (h : numDue s = false) : exec .beatNumberSend s = .next s := by
  change execBeatNumberSend s = _
  rw [execBeatNumberSend, h]
  rfl

/-! ### Cadence marks (02 R47) -/

theorem marksDue_iff : marksDue s = true ↔ (s.cad.st = .locked ∨ s.cad.st = .holdover)
    ∧ ∀ b, s.cad.markSent = some b → b + 16 ≤ s.cad.beat ∨ s.cad.beat < b := by
  simp [marksDue, Option.all_eq_true]

theorem execCadenceMarkSend_due (h : marksDue s = true) :
    exec .cadenceMarkSend s = .next { s with
      cad := { s.cad with markSent := some s.cad.beat }
      out := { s.out with msgs := s.out.msgs ++ (upLinks s).map (fun l => .cadenceMark l s.cad.beat s.cad.phase) } } := by
  change execCadenceMarkSend s = _
  rw [execCadenceMarkSend, if_pos h]
  simp only [foldl_send_eq (fun s l => .cadenceMark l s.cad.beat s.cad.phase) (fun _ _ _ => rfl)]

theorem execCadenceMarkSend_not (h : marksDue s = false) : exec .cadenceMarkSend s = .next s := by
  change execCadenceMarkSend s = _
  rw [execCadenceMarkSend, h]
  rfl

/-- A mark received outside HOLDOVER takes the place of the one its member sent before. -/
theorem execCadenceMark_remembered {l beat phase : Nat} (h : s.cad.st ≠ .holdover) :
    exec (.cadenceMark l beat phase) s = .next { s with
      cad := { s.cad with lastMarks := (s.cad.lastMarks.filter (fun x => x.peer != (linkAt s l).peer))
        ++ [⟨(linkAt s l).peer, l, s.cad.beat, (freeValue s).1 % 2 == 1⟩] }
      freeCtr := s.freeCtr + 1 } := by
  change execCadenceMark l beat phase s = _
  simp only [execCadenceMark]
  rw [takeSource_of_ne, if_neg (fun k => h k.1)]
  · rfl
  · exact h

/-! ### The external reference (02 R51) -/

theorem execXref_reference (h : s.cad.st = .master) (hm : s.cad.mode = 2) :
    exec .xrefLost s = .next { s with cad := { s.cad with xrefLost := true } }
      ∧ exec .xrefReturn s = .next { s with cad := { s.cad with xrefLost := false } } :=
  ⟨congrArg Host.Outcome.next (if_pos ⟨h, hm⟩), congrArg Host.Outcome.next (if_pos ⟨h, hm⟩)⟩

theorem execXref_other (h : s.cad.st ≠ .master ∨ s.cad.mode ≠ 2) : exec .xrefLost s = .next s ∧ exec .xrefReturn s = .next s := by
  have hno : ¬ (s.cad.st = .master ∧ s.cad.mode = 2) := fun k => h.elim (fun hst => hst k.1) (fun hm => hm k.2)
  exact ⟨congrArg Host.Outcome.next (if_neg hno), congrArg Host.Outcome.next (if_neg hno)⟩

/-- Settles O49: a message by the state it meets and by whether it agrees, what leaves by whether it is due. -/
theorem beatNumbersAgree : Obligations.BeatNumbersAgree := by
  unfold Obligations.BeatNumbersAgree
  refine ⟨fun source b s h => congrArg Host.Outcome.next (beatNumber_master h), fun source b s h hb => congrArg Host.Outcome.next (beatNumber_ignored h hb),
    ?agrees, ?first, ?slip, ?acquiring, fun s => rfl, ?sendNum, ?noNum, ?sendMarks, ?noMarks, ?remembered, fun s => ⟨execXref_reference, execXref_other⟩⟩
  case agrees =>
    intro b s hst hs hp ha
    have k : NumTaken s b := ⟨hs, hp, by rw [ha, expectedNum_mod]⟩
    exact congrArg Host.Outcome.next (k.agrees hst ha)
  case first =>
    intro b s hst hs hp hf hd hr
    exact beatNumber_firstMismatch ⟨hs, hp, hf⟩ hst hd hr
  case slip =>
    intro b s hst hs hp hf hd hr
    exact beatNumber_slip ⟨hs, hp, hf⟩ hst hd hr
  case acquiring =>
    rintro b _ s hst hs hp rfl hf
    exact congrArg Host.Outcome.next (NumTaken.acquiring ⟨hs, hp, hf⟩ hst)
  case sendNum =>
    intro s hst hb hn
    exact execBeatNumberSend_due (numDue_iff.2 ⟨hst, hb, hn⟩)
  case noNum =>
    intro s h
    refine execBeatNumberSend_not (Bool.eq_false_iff.2 (fun hdue => ?_))
    obtain ⟨hst, hb, hn⟩ := numDue_iff.1 hdue
    rcases h with ⟨hl, hm⟩ | h | h
    · exact hst.elim hl hm
    · exact h hb
    · exact hn h
  case sendMarks =>
    intro s hst hm
    exact execCadenceMarkSend_due (marksDue_iff.2 ⟨hst, hm⟩)
  case noMarks =>
    intro b s h
    refine execCadenceMarkSend_not (Bool.eq_false_iff.2 (fun hdue => ?_))
    obtain ⟨hst, hm⟩ := marksDue_iff.1 hdue
    rcases h with ⟨hl, hh⟩ | ⟨hb, hlo, hhi⟩
    · exact hst.elim hl hh
    · have := hm b hb
      omega
  case remembered =>
    intro l beat phase s hst
    exact ⟨_, rfl, rfl, rfl, execCadenceMark_remembered hst⟩

end Sys2Proof.Machine
end

section
/-! SUPPORT for O24 to O27. What replies, frames, ledgers and Mover work leave of sessions, waiting commands, the seal and the journal queue. -/

namespace Sys2Proof.Machine

variable {p : Packet} {s t : State}

/-! ### A row that serves its packet -/

/-- A row's packet whose checks pass leaves what its body leaves, and waits to be served no longer (11 R315). -/
theorem next_serve_passes {op : Nat} {waits : Packet → State → Bool} {body : Nat → Packet → State → State} (ho : opcodeOf p = op)
    (h : passes waits p s = some t) :
    (Host.Outcome.next (serve (opIs op) waits body p s) : Host.Outcome State Fault Refusal) = .next (dropRecognised p (body 0 p t)) :=
  congrArg Host.Outcome.next (serve_passes (by simp [opIs, ho]) h)

/-- A session in a state that a command takes is not refused for it (03 R89). -/
theorem stateRefusal_none {x : Session} {l : List Nat} (h : x.d.state ∈ l) (s : State) : stateRefusal x l s = none := by
  rw [stateRefusal, if_pos (by simpa using h)]

/-! ### Replies -/

/-- A session that owes a REBUILT or not (03 R94), otherwise as it stands. -/
def Session.owing (x : Session) (b : Bool) : Session := { x with rebuiltOwed := b }

@[simp] theorem Session.owing_gen (x : Session) (b : Bool) : (x.owing b).gen = x.gen := rfl
@[simp] theorem Session.owing_d (x : Session) (b : Bool) : (x.owing b).d = x.d := rfl
@[simp] theorem Session.owing_job (x : Session) (b : Bool) : (x.owing b).job = x.job := rfl
@[simp] theorem Session.owing_pages (x : Session) (b : Bool) : (x.owing b).pages = x.pages := rfl
@[simp] theorem Session.owing_scratch (x : Session) (b : Bool) : (x.owing b).scratch = x.scratch := rfl

/-- A reply leaves every session as it was, but for a REBUILT that it owed. -/
theorem replyTo_session (o : Origin) (final : Bool) (a : Ans) (s : State) (n : Nat) : ∃ b, sessionAt (replyTo o final a s) n = (sessionAt s n).owing b := by
  unfold replyTo
  extract_lets h owed s1 st dt s2
  have hs : sessionAt (landReply o final ⟨o.client, 0, o.tag, st, dt, h, stamp s2, a.count0, a.count1⟩ s2) n = sessionAt s1 n :=
    sessionAt_of_table (by rw [landReply_slots, countStatus_slots]) n
  rw [hs]
  clear hs
  clear_value owed
  cases owed with
  | none => exact ⟨_, rfl⟩
  | some slot =>
    by_cases h : n = slot
    · subst h
      exact ⟨false, sessionAt_modSession_same _ _ _⟩
    · exact ⟨_, sessionAt_modSession_other _ _ h⟩

theorem reply_session (p : Packet) (a : Ans) (s : State) (n : Nat) : ∃ b, sessionAt (reply p a s) n = (sessionAt s n).owing b :=
  replyTo_session _ _ a s n

theorem accept_session (p : Packet) (w : Work) (s : State) (n : Nat) : ∃ b, sessionAt (accept p w s) n = (sessionAt s n).owing b :=
  replyTo_session _ _ _ s n

theorem finish_session (w : Work) (a : Ans) (s : State) (n : Nat) : ∃ b, sessionAt (finish w a s) n = (sessionAt s n).owing b := by
  refine foldl_induct (fun t => ∃ b, sessionAt t n = (sessionAt s n).owing b) (fun t c h => ?_) _ ⟨_, rfl⟩
  obtain ⟨b, hb⟩ := h
  obtain ⟨b', hb'⟩ := replyTo_session c.origin true a t n
  exact ⟨b', hb'.trans (by rw [hb]; rfl)⟩

@[simp] theorem finish_commands (w : Work) (a : Ans) (s : State) : (finish w a s).commands = s.commands.filter (fun c => !decide (c.work = w)) :=
  foldl_keeps State.commands (fun _ _ => replyTo_commands _ _ _ _) _ _

theorem commandOf_accept (p : Packet) (w : Work) (s : State) : commandOf (accept p w s) w ≠ none := by
  simp [commandOf, accept]

theorem commandOf_eq_none {w : Work} {s : State} (h : ∀ c ∈ s.commands, c.work ≠ w) : commandOf s w = none := by
  simpa [commandOf] using h

@[simp] theorem dropRecognised_commandOf (p : Packet) (s : State) (w : Work) : commandOf (dropRecognised p s) w = commandOf s w := rfl

/-! ### Frames -/

@[simp] theorem await_sessionAt (w : Work) (o : Origin) (s : State) (n : Nat) : sessionAt (await w o s) n = sessionAt s n := rfl
@[simp] theorem dropRecognised_sessionAt (p : Packet) (s : State) (n : Nat) : sessionAt (dropRecognised p s) n = sessionAt s n := rfl

@[simp] theorem framesDue_sessionAt (l : List Nat) (s : State) (n : Nat) : sessionAt (framesDue l s) n = sessionAt s n :=
  eq_of_aside offFrames (fun s => sessionAt s n) (fun _ => rfl) (offFrames_framesDue l s)
@[simp] theorem framesDue_commands (l : List Nat) (s : State) : (framesDue l s).commands = s.commands :=
  eq_of_aside offFrames State.commands (fun _ => rfl) (offFrames_framesDue l s)
@[simp] theorem framesDue_sched (l : List Nat) (s : State) : (framesDue l s).sched = s.sched :=
  eq_of_aside offFrames State.sched (fun _ => rfl) (offFrames_framesDue l s)

@[simp] theorem putFrame_set (a : Nat) (f : Frame) (s : State) : (putFrame a f s).tier.set = s.tier.set := by
  unfold putFrame
  split <;> rfl

@[simp] theorem dropFrame_set (a : Nat) (s : State) : (dropFrame a s).tier.set = s.tier.set := by
  unfold dropFrame
  split
  · rfl
  · split
    · exact putFrame_set _ _ s
    · split
      · exact putFrame_set _ _ s
      · dsimp only
        split <;> rfl

@[simp] theorem framesDue_set (l : List Nat) (s : State) : (framesDue l s).tier.set = s.tier.set := by
  refine foldl_keeps (fun s : State => s.tier.set) (fun s a => ?_) l s
  unfold frameDue
  split
  · rfl
  · split
    · exact dropFrame_set a s
    · rfl

@[simp] theorem returnScratch_sched (slot : Nat) (s : State) : (returnScratch slot s).sched = s.sched := framesDue_sched _ s
@[simp] theorem returnScratch_commands (slot : Nat) (s : State) : (returnScratch slot s).commands = s.commands := framesDue_commands _ s
@[simp] theorem returnScratch_set (slot : Nat) (s : State) : (returnScratch slot s).tier.set = s.tier.set := framesDue_set _ s
@[simp] theorem returnScratch_session (slot : Nat) (s : State) :
    sessionAt (returnScratch slot s) slot = { sessionAt s slot with scratch := [], stats := [] } := sessionAt_putSession_same _ _ _

theorem offPages_takeFrame (part : Nat) (s : State) : offPages (takeFrame part s).2 = offPages s := offPages_putFrame _ _ s

@[simp] theorem takeFrame_slots (part : Nat) (s : State) : (takeFrame part s).2.slots = s.slots := putFrame_slots _ _ s

/-! ### Constraint sets and slots that fall free -/

/-- The state without what sets, segments and freed slots may change. -/
def offSlots (s : State) : State := { s with slots := {}, cont := {}, tier := { s.tier with ops := [] } }

theorem offSlots_releaseSet (set : Option Nat) (s : State) : offSlots (releaseSet set s) = offSlots s := by
  unfold releaseSet
  split
  · rfl
  · split <;> rfl

theorem offSlots_holdSet (set : Option Nat) (s : State) : offSlots (holdSet set s) = offSlots s := by
  unfold holdSet
  split
  · rfl
  · split <;> rfl

theorem releaseSet_slots (set : Option Nat) (s : State) : (releaseSet set s).slots = s.slots := by
  unfold releaseSet
  split
  · rfl
  · split <;> rfl

theorem holdSet_slots (set : Option Nat) (s : State) : (holdSet set s).slots = s.slots := by
  unfold holdSet
  split
  · rfl
  · split <;> rfl

@[simp] theorem releaseSet_sessionAt (set : Option Nat) (s : State) (n : Nat) : sessionAt (releaseSet set s) n = sessionAt s n :=
  sessionAt_of_table (by rw [releaseSet_slots]) n

@[simp] theorem holdSet_sessionAt (set : Option Nat) (s : State) (n : Nat) : sessionAt (holdSet set s) n = sessionAt s n :=
  sessionAt_of_table (by rw [holdSet_slots]) n

@[simp] theorem holdSet_mem (set : Option Nat) (s : State) : (holdSet set s).mem = s.mem :=
  eq_of_aside offSlots State.mem (fun _ => rfl) (offSlots_holdSet set s)

theorem offSlots_dropSegment (n : Nat) (s : State) : offSlots (dropSegment n s) = offSlots s := by
  unfold dropSegment
  split <;> rfl

theorem offSlots_shareSegment (n : Nat) (s : State) : offSlots (shareSegment n s) = offSlots s := by
  unfold shareSegment
  split <;> rfl

theorem shareSegment_table (n : Nat) (s : State) : (shareSegment n s).slots.table = s.slots.table := by
  unfold shareSegment
  split <;> rfl

theorem offSlots_freeSlot (slot : Nat) (s : State) : offSlots (freeSlot slot s) = offSlots s := by
  unfold freeSlot
  extract_lets x s1 s2 s3 s4
  have h2 : offSlots s2 = offSlots s := by
    unfold s2
    split
    · exact (offSlots_releaseSet _ _).trans (offSlots_releaseSet _ _)
    · exact offSlots_releaseSet _ _
  exact (foldl_keeps offSlots (fun s n => offSlots_dropSegment n s) _ _).trans h2

@[simp] theorem freeSlot_sched (slot : Nat) (s : State) : (freeSlot slot s).sched = s.sched :=
  eq_of_aside offSlots State.sched (fun _ => rfl) (offSlots_freeSlot slot s)
@[simp] theorem freeSlot_commands (slot : Nat) (s : State) : (freeSlot slot s).commands = s.commands :=
  eq_of_aside offSlots State.commands (fun _ => rfl) (offSlots_freeSlot slot s)
@[simp] theorem freeSlot_set (slot : Nat) (s : State) : (freeSlot slot s).tier.set = s.tier.set :=
  eq_of_aside offSlots (fun s => s.tier.set) (fun _ => rfl) (offSlots_freeSlot slot s)

/-- A freed slot holds nothing but the next generation (03 R64). -/
@[simp] theorem freeSlot_session (slot : Nat) (s : State) : sessionAt (freeSlot slot s) slot = { gen := nextGen (sessionAt s slot).gen } :=
  sessionAt_putSession_same _ _ _

/-! ### The journal queue and the ledger -/

theorem offPages_queueRecord (r : JournalRecord) (s : State) : offPages (queueRecord r s) = offPages s := by
  unfold queueRecord
  split <;> rfl

@[simp] theorem queueRecord_slots (r : JournalRecord) (s : State) : (queueRecord r s).slots = s.slots := by
  unfold queueRecord
  split <;> rfl

theorem queueRecord_waiting {s : State} (h : journalOn s = true) (r : JournalRecord) : (queueRecord r s).tier.set.waiting = s.tier.set.waiting ++ [r] := by
  rw [queueRecord, if_pos h]

@[simp] theorem queueRun_sessionAt (h first : Nat) (r : Run) (s : State) (n : Nat) : sessionAt (queueRun h first r s) n = sessionAt s n :=
  sessionAt_of_table (by rw [queueRun, queueRecord_slots]) n
@[simp] theorem queueRun_mem (h first : Nat) (r : Run) (s : State) : (queueRun h first r s).mem = s.mem :=
  eq_of_aside offPages State.mem (fun _ => rfl) (offPages_queueRecord _ s)
@[simp] theorem queueMark_sessionAt (h kind first : Nat) (s : State) (n : Nat) : sessionAt (queueMark h kind first s) n = sessionAt s n :=
  sessionAt_of_table (by rw [queueMark, queueRecord_slots]) n
@[simp] theorem queueMark_sched (h kind first : Nat) (s : State) : (queueMark h kind first s).sched = s.sched :=
  eq_of_aside offPages State.sched (fun _ => rfl) (offPages_queueRecord _ s)
@[simp] theorem queueMark_commands (h kind first : Nat) (s : State) : (queueMark h kind first s).commands = s.commands :=
  eq_of_aside offPages State.commands (fun _ => rfl) (offPages_queueRecord _ s)

theorem offPages_newSegments (k : Nat) (s : State) : offPages (newSegments k s).2 = offPages s := by
  induction k generalizing s with
  | zero => rfl
  | succ k ih => exact ih (newSegment s).2

theorem offPages_growSegments (slot : Nat) (s : State) : offPages (growSegments slot s) = offPages s :=
  (rfl : offPages (growSegments slot s) = offPages (newSegments _ s).2).trans (offPages_newSegments _ s)

/-- A session on some ledger segments (03 R73), otherwise as it stands. -/
def Session.onSegments (x : Session) (l : List Nat) : Session := { x with segments := l }

/-- A ledger that grows takes segments for its session, and changes no other. -/
theorem growSegments_session (slot : Nat) (s : State) :
    (∃ l, sessionAt (growSegments slot s) slot = (sessionAt s slot).onSegments l) ∧ ∀ n, n ≠ slot → sessionAt (growSegments slot s) n = sessionAt s n := by
  unfold growSegments
  extract_lets x r
  have ht : ∀ n, sessionAt r.2 n = sessionAt s n := sessionAt_of_table (newSegments_keeps _ s).1
  refine ⟨⟨x.segments ++ r.1, ?_⟩, fun n hn => ?_⟩
  · rw [sessionAt_modSession_same, ht]
    rfl
  · rw [sessionAt_modSession_other _ _ hn, ht]

theorem offPages_growBody (slot : Nat) (rs : List Run) (s : State) : offPages (growBody slot rs s) = offPages s := by
  unfold growBody
  split
  · rfl
  · exact offPages_growSegments slot _

theorem growBody_session (slot : Nat) (rs : List Run) (s : State) :
    ∃ l, sessionAt (growBody slot rs s) slot = ({ sessionAt s slot with body := (sessionAt s slot).body ++ rs } : Session).onSegments l := by
  unfold growBody
  split
  · next h =>
    rw [List.isEmpty_iff.1 h, List.append_nil]
    exact ⟨_, rfl⟩
  · obtain ⟨l, hl⟩ := (growSegments_session slot (chargeLedger rs (modSession slot (fun x => { x with body := x.body ++ rs }) s))).1
    exact ⟨l, hl.trans (congrArg (Session.onSegments · l) (sessionAt_modSession_same slot (fun x => { x with body := x.body ++ rs }) s))⟩

end Sys2Proof.Machine
end

section
/-! PROOF of O24. SESSION_OPEN and SESSION_FORK (03 R64, R79, R81, R87): the session that a free slot comes to hold, and what stays of the others. -/

namespace Sys2Proof.Machine

variable {p : Packet} {s t : State}

/-! ### A session is created -/

@[simp] theorem takeSlot_sessionAt (s : State) (n : Nat) : sessionAt (takeSlot s) n = sessionAt s n :=
  sessionAt_of_table (by unfold takeSlot; split <;> rfl) n

@[simp] theorem takeSlot_mem (s : State) : (takeSlot s).mem = s.mem := by
  unfold takeSlot
  split <;> rfl

@[simp] theorem takeSlot_counters (s : State) : (takeSlot s).counters = s.counters := by
  unfold takeSlot
  split <;> rfl

/-- A session with its unjournaled mark (03 R76), otherwise as it stands. -/
def Session.lagging (x : Session) (b : Bool) : Session := { x with d := { x.d with journalLag := b } }

theorem lagAtOpen_session (slot : Nat) (s : State) :
    (∃ b, sessionAt (lagAtOpen slot s) slot = (sessionAt s slot).lagging b) ∧ ∀ n, n ≠ slot → sessionAt (lagAtOpen slot s) n = sessionAt s n := by
  by_cases h : journalOn s = true
  · rw [lagAtOpen, if_pos h]
    exact ⟨⟨_, rfl⟩, fun _ _ => rfl⟩
  · have ht : ∀ n, sessionAt (lagAtOpen slot s) n = sessionAt (modSession slot (Session.lagging · true) s) n := by
      refine sessionAt_of_table ?_
      rw [lagAtOpen, if_neg h]
      dsimp only
      split
      · rfl
      · rw [report_slots]
        rfl
    exact ⟨⟨true, by rw [ht, sessionAt_modSession_same]⟩, fun n hn => by rw [ht, sessionAt_modSession_other _ _ hn]⟩

theorem lagAtOpen_keeps (slot : Nat) (s : State) : (lagAtOpen slot s).mem = s.mem ∧ (lagAtOpen slot s).counters = s.counters := by
  unfold lagAtOpen
  split
  · exact ⟨rfl, rfl⟩
  · dsimp only
    split
    · exact ⟨rfl, rfl⟩
    · exact ⟨report_mem _ _ _, report_counters _ _ _⟩

/-- The created session stands but for its segments and its unjournaled mark; every other session stands as it was. -/
theorem sessionCreated_session (slot : Nat) (s : State) :
    (∃ l b, sessionAt (sessionCreated slot s) slot = ((sessionAt s slot).onSegments l).lagging b)
      ∧ ∀ n, n ≠ slot → sessionAt (sessionCreated slot s) n = sessionAt s n := by
  unfold sessionCreated
  set c : State := { s with counters := { s.counters with opened := satAdd (2 ^ 64 - 1) s.counters.opened 1 } }
  obtain ⟨⟨l, hl⟩, hlo⟩ := growSegments_session slot c
  obtain ⟨⟨b, hb⟩, hbo⟩ := lagAtOpen_session slot (growSegments slot c)
  exact ⟨⟨l, b, by rw [hb, hl]; rfl⟩, fun n hn => (hbo n hn).trans (hlo n hn)⟩

theorem sessionCreated_keeps (slot : Nat) (s : State) :
    (sessionCreated slot s).mem = s.mem ∧ (sessionCreated slot s).counters = { s.counters with opened := satAdd (2 ^ 64 - 1) s.counters.opened 1 } := by
  unfold sessionCreated
  set c : State := { s with counters := { s.counters with opened := satAdd (2 ^ 64 - 1) s.counters.opened 1 } }
  obtain ⟨hm, hk⟩ := lagAtOpen_keeps slot (growSegments slot c)
  have hg := offPages_growSegments slot c
  exact ⟨hm.trans (eq_of_aside offPages State.mem (s := c) (fun _ => rfl) hg), hk.trans (eq_of_aside offPages State.counters (s := c) (fun _ => rfl) hg)⟩

/-! ### SESSION_OPEN -/

theorem execSessionOpen_passes (ho : opcodeOf p = 0x20) (h : passes never p s = some t) :
    exec (.sessionOpen p) s = .next (dropRecognised p (openBody 0 p t)) :=
  next_serve_passes ho h

/-- The generation key of a new session: the given one, or for 0 one from the device's random source. -/
def openKey (p : Packet) (s : State) : Nat := if paramOf p 0x30 8 = 0 then (draw s).1 else paramOf p 0x30 8

/-- The session of SESSION_OPEN in a generation of its slot, the descriptor stamped in the state `s`. -/
def openedSession (p : Packet) (q : Partition) (key gen : Nat) (s : State) : Session := { gen := gen, d := openDescriptor p (argOf p 20 1) q key s }

/-- The state in which SESSION_OPEN answers OK: the slot is taken, and its session created. -/
def openedAt (p : Packet) (q : Partition) (slot : Nat) (s : State) : State :=
  let s1 := takeSlot (if paramOf p 0x30 8 = 0 then (draw s).2 else s)
  sessionCreated slot (putSession slot (openedSession p q (openKey p s) (sessionAt s1 slot).gen s1) s1)

theorem openBody_opens {q : Partition} {slot : Nat} (hq : partitionAt t (argOf p 20 1) = some q) (hr : openRefusal p q t = none)
    (hl : isLeaving t = false) (hn : nextSlot t = some slot) :
    openBody 0 p t = reply p { status := stOK, handle := some (sessionHandle (openedAt p q slot t) slot) } (openedAt p q slot t) := by
  simp only [openBody, openedAt, openedSession, openKey, hq, hr, hl, hn, Bool.false_eq_true, if_false]

theorem openBody_refused {q : Partition} (hq : partitionAt t (argOf p 20 1) = some q) :
    (∀ a, openRefusal p q t = some a → openBody 0 p t = reply p a t)
      ∧ (openRefusal p q t = none → isLeaving t = true → openBody 0 p t = reply p (noResource 0x000B) t)
      ∧ (openRefusal p q t = none → isLeaving t = false → nextSlot t = none → openBody 0 p t = reply p (noResource 0x0008) t) := by
  refine ⟨fun a ha => ?_, fun hr hl => ?_, fun hr hl hn => ?_⟩
  · simp only [openBody, hq, ha]
  · simp only [openBody, hq, hr, hl, if_true]
  · simp only [openBody, hq, hr, hl, hn, Bool.false_eq_true, if_false]

/-- The opened session: empty, its descriptor as the packet gives it, in the generation of its slot. -/
theorem openedAt_session (p : Packet) (q : Partition) (slot : Nat) (t : State) :
    ∃ s1 l b, sessionAt (openedAt p q slot t) slot = ((openedSession p q (openKey p t) (sessionAt t slot).gen s1).onSegments l).lagging b := by
  unfold openedAt
  extract_lets s1
  have hg : sessionAt s1 slot = sessionAt t slot := by
    unfold s1
    rw [takeSlot_sessionAt]
    split <;> rfl
  obtain ⟨⟨l, b, h⟩, -⟩ := sessionCreated_session slot (putSession slot (openedSession p q (openKey p t) (sessionAt s1 slot).gen s1) s1)
  exact ⟨s1, l, b, by rw [h, sessionAt_putSession_same, hg]⟩

theorem openedAt_keeps (p : Packet) (q : Partition) (slot : Nat) (t : State) :
    (∀ n, n ≠ slot → sessionAt (openedAt p q slot t) n = sessionAt t n)
      ∧ (openedAt p q slot t).counters.opened = satAdd (2 ^ 64 - 1) t.counters.opened 1 ∧ (openedAt p q slot t).mem = t.mem := by
  unfold openedAt
  extract_lets s1
  have h1 : (∀ n, sessionAt s1 n = sessionAt t n) ∧ s1.counters = t.counters ∧ s1.mem = t.mem := by
    unfold s1
    rw [takeSlot_counters, takeSlot_mem]
    split
    · exact ⟨fun n => takeSlot_sessionAt _ n, rfl, rfl⟩
    · exact ⟨fun n => takeSlot_sessionAt _ n, rfl, rfl⟩
  obtain ⟨hs, hc, hm⟩ := h1
  obtain ⟨km, kc⟩ := sessionCreated_keeps slot (putSession slot (openedSession p q (openKey p t) (sessionAt s1 slot).gen s1) s1)
  refine ⟨fun n hn => ?_, ?_, ?_⟩
  · rw [(sessionCreated_session slot _).2 n hn, sessionAt_putSession_other _ _ hn, hs]
  · rw [kc, putSession_counters, hc]
  · rw [km, putSession_mem, hm]

/-! ### SESSION_FORK -/

theorem execSessionFork_passes (ho : opcodeOf p = 0x21) (h : passes behindAppend p s = some t) :
    exec (.sessionFork p) s = .next (dropRecognised p (forkBody 0 p t)) :=
  next_serve_passes ho h

/-- No frame of a session is shared as often as a frame can be (03 R79). -/
theorem pages_shareable {x : Session} (h : ∀ g ∈ x.pages, ∀ f, frameAt t g.frame = some f → f.count < 0xFFFF) :
    ¬ x.pages.any (fun g => match frameAt t g.frame with | some f => decide (0xFFFF ≤ f.count) | none => false) = true := by
  rw [Bool.not_eq_true, List.any_eq_false]
  intro g hg
  split
  · next f hf => simpa using h g hg f hf
  · exact Bool.false_ne_true

theorem offPages_shareAll (x : Session) (s : State) : offPages (shareAll x s) = offPages s := by
  refine foldl_keeps offPages (fun s g => ?_) _ s
  split
  · rfl
  · unfold shareFrame
    split
    · rfl
    · exact offPages_putFrame _ _ s

theorem shareAll_slots (x : Session) (s : State) : (shareAll x s).slots = s.slots := by
  refine foldl_keeps State.slots (fun s g => ?_) _ s
  split
  · rfl
  · unfold shareFrame
    split
    · rfl
    · exact putFrame_slots _ _ s

theorem offPages_takeSlot (s : State) : offPages (takeSlot s) = offPages s := by
  unfold takeSlot
  split <;> rfl

/-- Segments that a fork shares are counted: no session changes, and no byte of memory. -/
theorem shareSegments_keeps (l : List Nat) (s : State) :
    (∀ n, sessionAt (l.foldl (fun s n => shareSegment n s) s) n = sessionAt s n) ∧ (l.foldl (fun s n => shareSegment n s) s).mem = s.mem :=
  ⟨sessionAt_of_table (foldl_keeps (fun s : State => s.slots.table) (fun s n => shareSegment_table n s) l s),
    eq_of_aside offSlots State.mem (fun _ => rfl) (foldl_keeps offSlots (fun s n => offSlots_shareSegment n s) l s)⟩

/-- The pages of a parent and its child: the parent's, marked shared. -/
def Session.sharedPages (x : Session) : List Page := x.pages.map (fun g => { g with shared := true })

/-- The run that ends a child's ledger: it names the parent and its position (03 R81). -/
def forkRun (slot : Nat) (x : Session) (s : State) : Run := ⟨7, false, stepNow s, [], (sessionHandle s slot, x.d.ledgerPos)⟩

/-- The child of a session in a generation of its slot (03 R87), its descriptor stamped in the state `s`. -/
def childOf (p : Packet) (x : Session) (run : Run) (gen : Nat) (s : State) : Session := {
  gen := gen, pages := x.sharedPages, body := x.body ++ x.tail ++ [run], counts := x.counts, con := x.con
  leadRow := x.leadRow, cologne := x.cologne, exported := x.exported
  d := { x.d with
    client := p.client, genKey := if paramOf p 0x20 8 = 0 then x.d.genKey else paramOf p 0x20 8, lastBeat := stamp s, epoch := s.comp.epoch
    journalSeq := 0, journalLag := false, parkPending := false, revivePending := false, peer := 0, copyPasses := 0 }
  segments := x.segments.take ((segmentsOf x.body).length - 1) }

/-- The state in which a fork's child is made: its frames are shared and its slot is taken. -/
def forkBase (p : Packet) (s : State) : State := takeSlot (shareAll (sessionAt s (slotOf p s)) s)

/-- Parent `x` and child `y` in the table, the constraint set and the segments that they share counted. -/
def familyAt (slot child : Nat) (x y : Session) (s : State) : State :=
  putSession child y (modSession slot (fun z => { z with pages := x.sharedPages }) (holdSet x.con.set (y.segments.foldl (fun s n => shareSegment n s) s)))

/-- The state in which SESSION_FORK answers OK: the child is counted, and its FORK run waits for the journal. -/
def forkedAt (p : Packet) (child : Nat) (s : State) : State :=
  let x := sessionAt s (slotOf p s)
  let run := forkRun (slotOf p s) x (forkBase p s)
  let s1 := sessionCreated child (familyAt (slotOf p s) child x (childOf p x run (sessionAt (forkBase p s) child).gen (forkBase p s)) (forkBase p s))
  queueRun (sessionHandle s1 child) x.d.ledgerPos run s1

theorem forkBody_forks {child : Nat} (hst : (sessionAt t (slotOf p t)).d.state = 1 ∨ (sessionAt t (slotOf p t)).d.state = 3)
    (hc : (sessionAt t (slotOf p t)).d.copying = false) (hf : ∀ g ∈ (sessionAt t (slotOf p t)).pages, ∀ f, frameAt t g.frame = some f → f.count < 0xFFFF)
    (hn : nextSlot t = some child) :
    forkBody 0 p t = reply p { status := stOK, handle := some (sessionHandle (forkedAt p child t) child) } (forkedAt p child t) := by
  have hr : stateRefusal (sessionAt t (slotOf p t)) [1, 3] t = none := stateRefusal_none (by simpa using hst) t
  simp only [forkBody, hr, hc, Bool.false_eq_true, if_false]
  refine (if_neg (pages_shareable hf)).trans ?_
  simp only [forkedAt, forkBase, familyAt, childOf, forkRun, Session.sharedPages, hc, hn]

theorem forkBody_refused (hst : (sessionAt t (slotOf p t)).d.state = 1 ∨ (sessionAt t (slotOf p t)).d.state = 3) :
    ((sessionAt t (slotOf p t)).d.copying = true → forkBody 0 p t = reply p (busy 0xFFFF) t)
      ∧ ((sessionAt t (slotOf p t)).d.copying = false → (∀ g ∈ (sessionAt t (slotOf p t)).pages, ∀ f, frameAt t g.frame = some f → f.count < 0xFFFF) →
        nextSlot t = none → forkBody 0 p t = reply p (noResource 0x0008) t) := by
  have hr : stateRefusal (sessionAt t (slotOf p t)) [1, 3] t = none := stateRefusal_none (by simpa using hst) t
  refine ⟨fun hc => ?_, fun hc hf hn => ?_⟩
  · simp only [forkBody, hr, hc, if_true]
  · simp only [forkBody, hr, hc, Bool.false_eq_true, if_false]
    exact (if_neg (pages_shareable hf)).trans (by rw [hn])

theorem forkBase_keeps (p : Packet) (s : State) :
    (∀ n, sessionAt (forkBase p s) n = sessionAt s n) ∧ (forkBase p s).mem = s.mem ∧ (forkBase p s).comp = s.comp := by
  have h : offPages (forkBase p s) = offPages s := (offPages_takeSlot _).trans (offPages_shareAll _ s)
  refine ⟨fun n => ?_, eq_of_aside offPages State.mem (fun _ => rfl) h, eq_of_aside offPages State.comp (fun _ => rfl) h⟩
  rw [forkBase, takeSlot_sessionAt]
  exact sessionAt_of_table (by rw [shareAll_slots]) n

theorem sessionHandle_congr {s t : State} {slot : Nat} (h : sessionAt t slot = sessionAt s slot) (hc : t.comp = s.comp) :
    sessionHandle t slot = sessionHandle s slot := by
  simp only [sessionHandle, h, ownIndex, hc]

theorem familyAt_keeps {slot child : Nat} (hc : child ≠ slot) (x y : Session) (s : State) :
    sessionAt (familyAt slot child x y s) child = y ∧ sessionAt (familyAt slot child x y s) slot = { sessionAt s slot with pages := x.sharedPages }
      ∧ (∀ n, n ≠ child → n ≠ slot → sessionAt (familyAt slot child x y s) n = sessionAt s n) ∧ (familyAt slot child x y s).mem = s.mem := by
  obtain ⟨hs, hm⟩ := shareSegments_keeps y.segments s
  unfold familyAt
  refine ⟨sessionAt_putSession_same _ _ _, ?_, fun n hn hn' => ?_, ?_⟩
  · rw [sessionAt_putSession_other _ _ hc.symm, sessionAt_modSession_same, holdSet_sessionAt, hs]
  · rw [sessionAt_putSession_other _ _ hn, sessionAt_modSession_other _ _ hn', holdSet_sessionAt, hs]
  · rw [putSession_mem, modSession_mem, holdSet_mem, hm]

/-- The forked child, its parent, and what stays of the rest. -/
theorem forkedAt_sessions {child : Nat} (hc : child ≠ slotOf p t) :
    ∃ r l b gen, (sessionAt (forkedAt p child t) child = ((childOf p (sessionAt t (slotOf p t)) r gen (forkBase p t)).onSegments l).lagging b
        ∧ r.kind = 7 ∧ r.parent = (sessionHandle t (slotOf p t), (sessionAt t (slotOf p t)).d.ledgerPos))
      ∧ sessionAt (forkedAt p child t) (slotOf p t) = { sessionAt t (slotOf p t) with pages := (sessionAt t (slotOf p t)).sharedPages }
      ∧ (∀ n, n ≠ child → n ≠ slotOf p t → sessionAt (forkedAt p child t) n = sessionAt t n) ∧ (forkedAt p child t).mem = t.mem := by
  obtain ⟨hb, hbm, hbc⟩ := forkBase_keeps p t
  unfold forkedAt
  extract_lets x run s1
  obtain ⟨fc, fp, fo, fm⟩ := familyAt_keeps hc x (childOf p x run (sessionAt (forkBase p t) child).gen (forkBase p t)) (forkBase p t)
  obtain ⟨⟨l, b, k⟩, ko⟩ := sessionCreated_session child
    (familyAt (slotOf p t) child x (childOf p x run (sessionAt (forkBase p t) child).gen (forkBase p t)) (forkBase p t))
  refine ⟨run, l, b, (sessionAt (forkBase p t) child).gen, ⟨?_, rfl, ?_⟩, ?_, fun n hn hn' => ?_, ?_⟩
  · rw [queueRun_sessionAt, k, fc]
  · exact congrArg (·, x.d.ledgerPos) (sessionHandle_congr (hb _) hbc)
  · rw [queueRun_sessionAt, ko _ hc.symm, fp, hb]
  · rw [queueRun_sessionAt, ko _ hn, fo _ hn hn', hb]
  · rw [queueRun_mem, (sessionCreated_keeps child _).1, fm, hbm]

/-- Settles O24: the slot that is taken holds the new session or the child, and every other session is read past it. -/
theorem sessionsOpenAndFork : Obligations.SessionsOpenAndFork := by
  refine ⟨?undefined, ?opens, ?noFork, ?forks⟩
  case undefined =>
    intro p s t ho h hq
    rw [execSessionOpen_passes ho h, openBody, hq]
    rfl
  case opens =>
    intro p q s t ho h hq
    have hx := execSessionOpen_passes ho h
    obtain ⟨refused, leaving, full⟩ := openBody_refused hq
    refine ⟨fun a ha => ?_, fun hr hl => ?_, fun hr hl hn => ?_, fun slot hr hl hn => ?_⟩
    · rw [hx, refused a ha]
      rfl
    · rw [hx, leaving hr hl]
      rfl
    · rw [hx, full hr hl hn]
      rfl
    · obtain ⟨s1, l, b, hs⟩ := openedAt_session p q slot t
      refine ⟨openedAt p q slot t, ?_, ?_⟩
      · rw [hx, openBody_opens hq hr hl hn]
        rfl
      · rw [hs]
        exact ⟨rfl, rfl, rfl, rfl, rfl, rfl, rfl, rfl, rfl, rfl, openedAt_keeps p q slot t⟩
  case noFork =>
    intro p s t ho h hst
    rw [execSessionFork_passes ho h]
    obtain ⟨copying, full⟩ := forkBody_refused hst
    exact ⟨fun hc => by rw [copying hc]; rfl, fun hc hf hn => by rw [full hc hf hn]; rfl⟩
  case forks =>
    intro p child s t ho h hc hst hf hn hne
    obtain ⟨r, l, b, gen, ⟨hchild, hk, hp⟩, hparent, hothers, hm⟩ := forkedAt_sessions hne
    refine ⟨forkedAt p child t, r, ?_, ?_⟩
    · rw [execSessionFork_passes ho h, forkBody_forks hst hc hf hn]
      rfl
    · rw [hchild, hparent]
      exact ⟨rfl, rfl, rfl, rfl, rfl, rfl, hk, hp, rfl, rfl, rfl, hothers, hm⟩

end Sys2Proof.Machine
end

section
/-! PROOF of O25. SESSION_APPEND and the tokenizer (03 R70 to R73; 10 R252, R256, R257): what an append hands on, and the run it leaves at the end of the ledger. -/

namespace Sys2Proof.Machine

variable {p : Packet} {s t : State}

/-! ### Elements reach the body -/

/-- Positions that one run holds are not cut (03 R70). -/
theorem cutRuns_short {kind step : Nat} {tokens : Bool} {l : List Nat} (h : l.length ≤ 4096) (n : Nat) :
    cutRuns kind step tokens n l = [⟨kind, tokens, step, l, (0, 0)⟩] := by
  cases n with
  | zero => rfl
  | succ n => rw [cutRuns, if_pos h]

/-- A run behind the tail joins the body, and the ledger's length grows by its positions. -/
theorem appendBody_session (slot : Nat) (r : Run) (s : State) :
    ∃ l, sessionAt (appendBody slot r s) slot = ({ sessionAt s slot with
      body := (sessionAt s slot).body ++ (sessionAt s slot).tail ++ [r], tail := []
      d := { (sessionAt s slot).d with ledgerPos := (sessionAt s slot).d.ledgerPos + runCount r } } : Session).onSegments l := by
  unfold appendBody
  extract_lets x s1 s2
  obtain ⟨l, hl⟩ := growBody_session slot (x.tail ++ [r]) s1
  have h1 : sessionAt s1 slot = x := queueRun_sessionAt _ _ _ _ _
  refine ⟨l, ?_⟩
  rw [sessionAt_modSession_same, hl, h1, List.append_assoc]
  rfl

theorem offPages_appendBody (slot : Nat) (r : Run) (s : State) : offPages (appendBody slot r s) = offPages s :=
  (offPages_growBody slot _ _).trans (offPages_queueRecord _ s)

/-! ### appendElems -/

/-- The state in which an append of one run answers: the run in the body, the drafts gone, a new output stream begun (10 R259). -/
def appendedAt (slot kind : Nat) (elems : List Nat) (s : State) : State :=
  modSession slot (fun x => { x with drafts := [], con := resetStream x.con })
    (appendBody slot ⟨kind, (sessionAt s slot).d.vocab, s.sched.step, elems, (0, 0)⟩ s)

theorem appendElems_short {o : Origin} {slot kind : Nat} {elems : List Nat}
    (hk : kind = 2 → (sessionAt s slot).d.state ≠ 3 ∧ (sessionAt s slot).d.parkPending = false)
    (hl : elems.length ≤ 4096) (hp : (sessionAt s slot).d.ledgerPos + elems.length < 2 ^ 32) :
    appendElems o slot kind elems s
      = replyTo o true { status := stOK, count0 := (sessionAt s slot).d.ledgerPos, count1 := elems.length } (appendedAt slot kind elems s) := by
  have hcut : cutRuns kind (stepNow s) (sessionAt s slot).d.vocab elems.length elems = [⟨kind, (sessionAt s slot).d.vocab, s.sched.step, elems, (0, 0)⟩] :=
    cutRuns_short hl _
  unfold appendElems
  dsimp only
  rw [if_neg (by omega), hcut]
  by_cases h2 : kind = 2
  · obtain ⟨hst, hpp⟩ := hk h2
    simp [h2, hst, hpp, appendedAt]
  · simp [h2, appendedAt]

theorem appendedAt_session {slot kind : Nat} (h7 : kind ≠ 7) (elems : List Nat) (s : State) :
    (sessionAt (appendedAt slot kind elems s) slot).body
        = (sessionAt s slot).body ++ (sessionAt s slot).tail ++ [⟨kind, (sessionAt s slot).d.vocab, s.sched.step, elems, (0, 0)⟩]
      ∧ (sessionAt (appendedAt slot kind elems s) slot).tail = []
      ∧ (sessionAt (appendedAt slot kind elems s) slot).d.ledgerPos = (sessionAt s slot).d.ledgerPos + elems.length
      ∧ (sessionAt (appendedAt slot kind elems s) slot).d.committed = (sessionAt s slot).d.committed := by
  obtain ⟨l, hl⟩ := appendBody_session slot ⟨kind, (sessionAt s slot).d.vocab, s.sched.step, elems, (0, 0)⟩ s
  rw [appendedAt, sessionAt_modSession_same, hl]
  refine ⟨rfl, rfl, ?_, rfl⟩
  exact congrArg ((sessionAt s slot).d.ledgerPos + ·) (if_neg h7)

theorem appendedAt_keeps (slot kind : Nat) (elems : List Nat) (s : State) :
    (appendedAt slot kind elems s).mem = s.mem ∧ (appendedAt slot kind elems s).out = s.out := by
  have h := offPages_appendBody slot ⟨kind, (sessionAt s slot).d.vocab, s.sched.step, elems, (0, 0)⟩ s
  rw [appendedAt, modSession_mem, modSession_out]
  exact ⟨eq_of_aside offPages State.mem (fun _ => rfl) h, eq_of_aside offPages State.out (fun _ => rfl) h⟩

/-! ### SESSION_APPEND -/

theorem execSessionAppend_passes {buf : Bytes} (ho : opcodeOf p = 0x22) (h : passes behindAppend p s = some t) :
    exec (.sessionAppend p buf) s = .next (dropRecognised p (appendBodyCmd buf 0 p t)) :=
  congrArg Host.Outcome.next (serveHost_passes (by simp [opIs, ho]) h)

/-- Inline bytes of a PROMPT or TOOL run: a vocabulary session's wait for the tokenizer, a byte session's are its elements (10 R252). -/
theorem appendBodyCmd_bytes {buf : Bytes} {kind : Nat} (hst : (sessionAt t (slotOf p t)).d.state ∈ [1, 3, 7]) (hk : argOf p 20 1 = kind)
    (hkind : kind = 1 ∨ kind = 2) (hf : argOf p 21 1 = 0) (hl : argOf p 24 4 ≤ p.params.length) :
    appendBodyCmd buf 0 p t =
      if (sessionAt t (slotOf p t)).d.vocab then
        await (.tokenize (slotOf p t)) (originOf p t)
          (modSession (slotOf p t) (fun x => { x with tokenizing := some (kind, p.params.take (argOf p 24 4)) }) t)
      else appendElems (originOf p t) (slotOf p t) kind ((p.params.take (argOf p 24 4)).map (fun b => b.toNat)) t := by
  have h0 : bitOf 0 0 = false := rfl
  have h1 : bitOf 0 1 = false := rfl
  have hne : ¬ (kind ≠ 1 ∧ kind ≠ 2) := by omega
  simp only [appendBodyCmd, appendData, stateRefusal_none hst t, hk, hf, h0, h1, hne, Bool.false_eq_true, false_and, if_false, Nat.not_lt.2 hl]

/-- Inline tokens of a PROMPT or TOOL run, each inside the vocabulary, are appended as they stand (10 R252). -/
theorem appendBodyCmd_tokens {buf : Bytes} {kind : Nat} {v : Vocabulary} (hst : (sessionAt t (slotOf p t)).d.state ∈ [1, 3, 7]) (hk : argOf p 20 1 = kind)
    (hkind : kind = 1 ∨ kind = 2) (hf : argOf p 21 1 = 1) (hv : (sessionAt t (slotOf p t)).d.vocab = true)
    (hvoc : vocabOf t (sessionAt t (slotOf p t)) = some v) (hl : 4 * argOf p 24 4 ≤ p.params.length)
    (hin : ∀ i, i < argOf p 24 4 → fieldAt p.params (4 * i) 4 < v.entries.length) :
    appendBodyCmd buf 0 p t
      = appendElems (originOf p t) (slotOf p t) kind ((List.range (argOf p 24 4)).map (fun i => fieldAt p.params (4 * i) 4)) t := by
  have h0 : bitOf 1 0 = true := rfl
  have h1 : bitOf 1 1 = false := rfl
  have hne : ¬ (kind ≠ 1 ∧ kind ≠ 2) := by omega
  have hidx : ((List.range (argOf p 24 4)).map (fun i => fieldAt p.params (4 * i) 4)).findIdx? (fun e => decide (v.entries.length ≤ e)) = none := by
    simpa using hin
  simp only [appendBodyCmd, appendData, stateRefusal_none hst t, hk, hf, h0, h1, hne, hv, hvoc, Option.map_some, Option.getD_some, hidx, Bool.not_true,
    Bool.false_eq_true, and_false, if_false, if_true, Nat.not_lt.2 hl]

/-- The only append that waits for the tokenizer: its tokens are appended and its bytes counted (10 R256, R257). -/
theorem execTokenizeEnd_only {slot kind : Nat} {bytes : Bytes} {o : Origin} {v : Vocabulary} (hc : s.commands = [⟨.tokenize slot, o⟩])
    (ht : (sessionAt s slot).tokenizing = some (kind, bytes)) (hv : vocabOf s (sessionAt s slot) = some v) :
    exec (.tokenizeEnd slot) s = .next (appendElems o slot kind (tokenize v.entries bytes)
      (countPart (sessionAt s slot).d.partition (fun k => { k with tokenized := satAdd (2 ^ 64 - 1) k.tokenized bytes.length })
        (modSession slot (fun x => { x with tokenizing := none }) { s with commands := [] }))) := by
  change execTokenizeEnd slot s = _
  simp [execTokenizeEnd, ht, hc, hv]

/-- Settles O25: bytes and tokens reach `appendElems`, at once or through the tokenizer, and one run stands at the ledger's end. -/
theorem appendReachesLedger : Obligations.AppendReachesLedger := by
  refine ⟨?waits, ?bytes, ?tokens, fun slot kind bytes o v s => execTokenizeEnd_only, ?ledger⟩
  case waits =>
    intro p buf kind s t ho h hst hk hkind hf hv hl
    refine ⟨_, execSessionAppend_passes ho h, ?_⟩
    rw [appendBodyCmd_bytes hst hk hkind hf hl, if_pos hv]
    exact ⟨rfl, rfl, by rw [dropRecognised_sessionAt, await_sessionAt, sessionAt_modSession_same], rfl⟩
  case bytes =>
    intro p buf kind s t ho h hst hk hkind hf hv hl
    rw [execSessionAppend_passes ho h, appendBodyCmd_bytes hst hk hkind hf hl, if_neg (Bool.eq_false_iff.1 hv)]
  case tokens =>
    intro p buf kind v s t ho h hst hk hkind hf hv hvoc hl hin
    rw [execSessionAppend_passes ho h, appendBodyCmd_tokens hst hk hkind hf hv hvoc hl hin]
  case ledger =>
    intro o slot kind elems s hk hl hp h7
    obtain ⟨hbody, htail, hpos, hcom⟩ := appendedAt_session h7 elems s
    exact ⟨appendedAt slot kind elems s, appendElems_short hk hl hp, hbody, htail, hpos, hcom, appendedAt_keeps slot kind elems s⟩

end Sys2Proof.Machine
end

section
/-! PROOF of O26. SESSION_CANCEL, CLOSE, QUERY and CONSTRAIN (03 R86, R89, R92; 11 R310): each acts when its packet is served. -/

namespace Sys2Proof.Machine

variable {p : Packet} {s t : State}

/-! ### Withdrawal from the seal -/

/-- A sealed microbatch in which the places of a handle are withdrawn (09 R232). -/
def SealedMb.without (h : Nat) (m : SealedMb) : SealedMb :=
  { m with places := m.places.map (fun p => { p with withdrawn := p.withdrawn || p.handle == h }) }

theorem SealedMb.withdrawn_of_mem_without {h : Nat} {m : SealedMb} {q : Place} (hq : q ∈ (m.without h).places) (hh : q.handle = h) : q.withdrawn = true := by
  obtain ⟨r, -, rfl⟩ := List.mem_map.1 hq
  simp only at hh
  simp [hh]

@[simp] theorem withdraw_sched (h : Nat) (s : State) : (withdraw h s).sched = { s.sched with
    sealPrev := s.sched.sealPrev.map (SealedMb.without h), sealNow := s.sched.sealNow.map (SealedMb.without h), sealNext := s.sched.sealNext.map (SealedMb.without h) } := by
  unfold withdraw
  extract_lets mark sealedIn _ s1
  split
  · exact foldl_keeps State.sched (fun _ _ => by rfl) _ s1
  · rfl

/-- A withdrawal changes the seal, and sends messages. -/
theorem withdraw_view {β : Type} (view : State → β) (hm : ∀ m s, view (send m s) = view s) (hs : ∀ x s, view { s with sched := x } = view s) (h : Nat) (s : State) :
    view (withdraw h s) = view s := by
  unfold withdraw
  extract_lets mark sealedIn _ s1
  split
  · exact (foldl_keeps view (fun _ _ => hm _ _) _ _).trans (hs _ s)
  · exact hs _ s

@[simp] theorem withdraw_sessionAt (h : Nat) (s : State) (n : Nat) : sessionAt (withdraw h s) n = sessionAt s n :=
  withdraw_view (fun s => sessionAt s n) (fun _ _ => rfl) (fun _ _ => rfl) h s
@[simp] theorem withdraw_tier (h : Nat) (s : State) : (withdraw h s).tier = s.tier := withdraw_view State.tier (fun _ _ => rfl) (fun _ _ => rfl) h s

/-! ### SESSION_CANCEL -/

/-- The work that commands of a session wait for. -/
def sessionWork (slot : Nat) : List Work :=
  [.generate slot, .park slot, .revive slot, .capsuleOut slot, .capsuleIn slot, .handover slot, .tokenize slot]

@[simp] theorem finish_gen (w : Work) (a : Ans) (s : State) (n : Nat) : (sessionAt (finish w a s) n).gen = (sessionAt s n).gen := by
  obtain ⟨b, h⟩ := finish_session w a s n
  rw [h, Session.owing_gen]

/-- A cancelled session leaves its slot FREE in the next generation, and no command of it waits (03 R92). -/
theorem cancelSession_frees (slot : Nat) (s : State) :
    sessionAt (cancelSession slot s).2 slot = { gen := nextGen (sessionAt s slot).gen } ∧ ∀ c ∈ (cancelSession slot s).2.commands, c.work ∉ sessionWork slot := by
  unfold cancelSession
  extract_lets x h n a s1 s2 s3 s4 s5 s6 s7 s8 s9 s10 s11 s12 _ s13
  have hsent : (sessionAt s2 slot).gen = (sessionAt s1 slot).gen := foldl_keeps (fun s => (sessionAt s slot).gen) (fun _ _ => by rfl) _ s1
  have htold : s10.slots = s9.slots ∧ s10.commands = s9.commands := by
    unfold s10
    split
    · split <;> exact ⟨send_slots _ _, send_commands _ _⟩
    · exact ⟨rfl, rfl⟩
  have hrest : (sessionAt s13 slot).gen = (sessionAt s10 slot).gen ∧ s13.commands = s10.commands := by
    change (sessionAt s12 slot).gen = _ ∧ s12.commands = _
    simp only [s12, s11, framesDue_sessionAt, queueMark_sessionAt, framesDue_commands, queueMark_commands, and_self]
  have hgen : (sessionAt s9 slot).gen = (sessionAt s slot).gen := by
    simp only [s9, s8, s7, s6, s5, s4, s3, finish_gen, hsent, s1, withdraw_sessionAt]
  refine ⟨?_, ?_⟩
  · rw [freeSlot_session, returnScratch_session]
    dsimp only
    rw [hrest.1, sessionAt_of_table (congrArg Slots.table htold.1), hgen]
  · rw [freeSlot_commands, returnScratch_commands, hrest.2, htold.2]
    intro c hc
    simp only [s9, s8, s7, s6, s5, s4, s3, finish_commands, List.mem_filter, Bool.not_eq_true', decide_eq_false_iff_not] at hc
    obtain ⟨⟨⟨⟨⟨⟨⟨-, generate⟩, park⟩, revive⟩, capsuleOut⟩, capsuleIn⟩, handover⟩, tokenize⟩ := hc
    simp [sessionWork, generate, park, revive, capsuleOut, capsuleIn, handover, tokenize]

theorem cancelSession_counts {slot : Nat} {j : Generation} (h : (sessionAt s slot).job = some j) : (cancelSession slot s).1 = (j.delivered, j.positions) := by
  simp only [cancelSession, h]

theorem freeLost_session (slot : Nat) (s : State) : sessionAt (freeLost slot s) slot = { gen := nextGen (sessionAt s slot).gen } := by
  rw [freeLost, freeSlot_session, queueMark_sessionAt]

theorem execSessionCancel_passes (ho : opcodeOf p = 0x26) (h : passes never p s = some t) :
    exec (.sessionCancel p) s = .next (dropRecognised p (cancelBody 0 p t)) :=
  next_serve_passes ho h

/-! ### SESSION_CLOSE -/

/-- What a close is asked about beside its session: the schedule but for the candidates, and the journal's settings with its queue. -/
def closeView (s : State) : Schedule × TierSet := ({ s.sched with candidates := [] }, s.tier.set)

theorem closeView_modSession (slot : Nat) (f : Session → Session) (s : State) : closeView (modSession slot f s) = closeView s := rfl

theorem closeView_finish (w : Work) (a : Ans) (s : State) : closeView (finish w a s) = closeView s := by
  simp only [closeView, finish_sched, finish_tier]

theorem closeView_revertHandover (slot : Nat) (tell : Bool) (a : Ans) (s : State) : closeView (revertHandover slot tell a s) = closeView s := by
  unfold revertHandover
  extract_lets x
  split
  · rfl
  · split
    · rfl
    · extract_lets s1 back s2 s3 s4
      have h1 : closeView s1 = closeView s := by
        unfold s1
        split <;> rfl
      have h2 : closeView s2 = closeView s1 := by
        unfold s2
        split <;> rfl
      exact (closeView_finish _ _ s4).trans (h2.trans h1)

theorem closeView_endMoverWork (slot : Nat) (a : Ans) (s : State) : closeView (endMoverWork slot a s) = closeView s := by
  unfold endMoverWork
  extract_lets x s1 s2 s3 s4 s5 s6
  have h5 : closeView s5 = closeView s := by
    simp only [s5, s4, s3, closeView_finish]
    rfl
  have h6 : closeView s6 = closeView s5 := by
    unfold s6
    split
    · simp only [closeView, freeSlot_sched, freeSlot_set, finish_sched, finish_tier]
    · exact closeView_finish _ _ _
  exact h6.trans h5

theorem closeView_returnScratch (slot : Nat) (s : State) : closeView (returnScratch slot s) = closeView s := by
  simp only [closeView, returnScratch_sched, returnScratch_set]

theorem closeView_reportCandidate (slot : Nat) (cand : Bool) (s : State) : closeView (reportCandidate slot cand s) = closeView s := by
  unfold reportCandidate
  extract_lets
  split
  · rfl
  · split
    · rfl
    · split <;> rfl

/-- A mark's record reads the step and the journal's settings only. -/
theorem closeView_queueMark {s t : State} (h : closeView t = closeView s) (handle kind first : Nat) :
    closeView (queueMark handle kind first t) = closeView (queueMark handle kind first s) := by
  have hstep : t.sched.step = s.sched.step := congrArg (fun v => v.1.step) h
  obtain ⟨hsched, hset⟩ := Prod.mk.inj h
  unfold queueMark queueRecord journalOn stepNow
  rw [hset, hstep]
  split
  · exact Prod.ext hsched rfl
  · exact h

/-- Beside its session a close withdraws the sealed places and queues the CLOSED mark (03 R74, R89). -/
theorem closeSession_view (slot : Nat) (s : State) : closeView (closeSession slot s)
    = closeView (queueMark (sessionHandle s slot) 8 (sessionAt s slot).d.ledgerPos (withdraw (sessionHandle s slot) s)) := by
  unfold closeSession
  extract_lets x h n s1 s2 s3 s4 s5 s6 s7
  have h4 : closeView s4 = closeView s1 := by
    simp only [s4, s3, s2, endCopy, closeView_endMoverWork, closeView_finish, closeView_revertHandover]
  have h7 : closeView (setState slot 8 s7) = closeView s5 := by
    simp only [s7, s6, setState, closeView_modSession, closeView_reportCandidate, closeView_returnScratch]
  exact h7.trans (closeView_queueMark h4 _ _ _)

theorem closeSession_session (slot : Nat) (s : State) :
    (sessionAt (closeSession slot s) slot).d.state = 8 ∧ (sessionAt (closeSession slot s) slot).job = none := by
  unfold closeSession
  extract_lets x h n s1 s2 s3 s4 s5 s6 s7
  rw [setState, sessionAt_modSession_same, reportCandidate_sessionAt, sessionAt_modSession_same]
  exact ⟨rfl, rfl⟩

theorem closeSession_withdraws (slot : Nat) (s : State) :
    ∀ m ∈ (closeSession slot s).sched.sealPrev ++ (closeSession slot s).sched.sealNow ++ (closeSession slot s).sched.sealNext,
      ∀ q ∈ m.places, q.handle = sessionHandle s slot → q.withdrawn = true := by
  have hv := congrArg (fun v => v.1.sealPrev ++ v.1.sealNow ++ v.1.sealNext) (closeSession_view slot s)
  simp only [closeView, queueMark_sched, withdraw_sched, ← List.map_append] at hv
  intro m hm q hq hh
  rw [hv] at hm
  obtain ⟨m0, -, rfl⟩ := List.mem_map.1 hm
  exact SealedMb.withdrawn_of_mem_without hq hh

theorem closeSession_active (slot : Nat) (s : State) : (closeSession slot s).sched.active = s.sched.active := by
  have hv := congrArg (fun v => v.1.active) (closeSession_view slot s)
  simpa only [closeView, queueMark_sched, withdraw_sched] using hv

theorem closeSession_marks {slot : Nat} (hj : journalOn s = true) : (closeSession slot s).tier.set.waiting = s.tier.set.waiting
    ++ [⟨sessionHandle s slot, s.sched.step, (sessionAt s slot).d.ledgerPos, 0, 8, 0, 0, []⟩] := by
  have hv := congrArg (fun v => v.2.waiting) (closeSession_view slot s)
  simp only [closeView] at hv
  have hw : journalOn (withdraw (sessionHandle s slot) s) = true := by rw [journalOn, withdraw_tier]; exact hj
  rw [hv, queueMark, queueRecord_waiting hw, withdraw_tier, stepNow, withdraw_sched]

theorem execSessionClose_passes (ho : opcodeOf p = 0x27) (h : passes behindAppend p s = some t) :
    exec (.sessionClose p) s = .next (dropRecognised p (closeBody 0 p t)) :=
  next_serve_passes ho h

theorem closeBody_lost (h : (sessionAt t (slotOf p t)).d.state = 6) : closeBody 0 p t = reply p ok (freeLost (slotOf p t) t) := by
  simp only [closeBody, h, if_true]

/-- Under an image a closed session stays CLOSING until the boundary. -/
theorem closeBody_resident (h : (sessionAt t (slotOf p t)).d.state = 1) (ha : t.sched.active ≠ none) :
    closeBody 0 p t = reply p ok (closeSession (slotOf p t) t) := by
  have hr : stateRefusal (sessionAt t (slotOf p t)) [1, 3, 7] t = none := stateRefusal_none (by simp [h]) t
  have hn : (reply p ok (closeSession (slotOf p t) t)).sched.active.isNone = false := by
    rw [reply_sched, closeSession_active]
    exact Option.isNone_eq_false_iff.2 (Option.isSome_iff_ne_none.2 ha)
  simp only [closeBody, h, hr, hn, OfNat.one_ne_ofNat, Bool.false_eq_true, if_false]

/-! ### SESSION_QUERY and SESSION_CONSTRAIN -/

theorem execSessionQuery_passes (ho : opcodeOf p = 0x28) (h : passes behindAppend p s = some t) :
    exec (.sessionQuery p) s = .next (dropRecognised p (queryBody 0 p t)) :=
  next_serve_passes ho h

theorem queryBody_eq (h : (sessionAt t (slotOf p t)).d.state ∈ [1, 2, 3, 7]) :
    queryBody 0 p t = if bufLen p 0x20 < writtenBytes t 272 then reply p { status := stBAD_LENGTH, detail := writtenBytes t 272 } t
      else reply p { status := stOK, count0 := 272 } (hostOut (originOf p t) (bufAddr p 0x20) 5
        (descriptorBytes t (slotOf p t) ++ countsHeader (sessionAt t (slotOf p t)) ++ constraintBytes (sessionAt t (slotOf p t))) t) := by
  simp only [queryBody, stateRefusal_none h t]

theorem execSessionConstrain_passes (ho : opcodeOf p = 0x29) (h : passes behindAppend p s = some t) :
    exec (.sessionConstrain p) s = .next (dropRecognised p (constrainBody 0 p t)) :=
  next_serve_passes ho h

theorem constrainBody_reads (h : (sessionAt t (slotOf p t)).d.state ∈ [1, 2, 3]) :
    (readSet p.params = .ok none → constrainBody 0 p t = reply p ok (installSet (slotOf p t) none t))
      ∧ ∀ off, readSet p.params = .error off → constrainBody 0 p t = reply p (bad ((0x20 + off) % 2 ^ 16)) t := by
  refine ⟨fun hs => ?_, fun off hs => ?_⟩ <;> simp only [constrainBody, stateRefusal_none h t, hs]

theorem constrainBody_compiles {c : ConSet} (h : (sessionAt t (slotOf p t)).d.state ∈ [1, 2, 3]) (hs : readSet p.params = .ok (some c)) :
    (compileSet c (sessionAt t (slotOf p t)) t = none → constrainBody 0 p t = reply p (noResource 0x0006) t)
      ∧ ∀ i u, compileSet c (sessionAt t (slotOf p t)) t = some (i, u) → constrainBody 0 p t = reply p ok (installSet (slotOf p t) (some i) u) := by
  refine ⟨fun hc => ?_, fun i u hc => ?_⟩ <;> simp only [constrainBody, stateRefusal_none h t, hs, hc]

/-- For an ACTIVE session a set waits as the next one (log entry 44). -/
theorem installSet_active {slot : Nat} (set : Option Nat) (h : (sessionAt s slot).d.state = 2) :
    (sessionAt (installSet slot set s) slot).nextSet = some set := by
  rw [installSet, if_pos h, sessionAt_modSession_same]

/-- A session with nothing to deliver loses its set at once. -/
theorem installSet_clears {slot : Nat} (h : (sessionAt s slot).d.state ≠ 2) (hj : (sessionAt s slot).job = none) :
    (sessionAt (installSet slot none s) slot).con = seedCon none none (sessionAt s slot).con ∧ (sessionAt (installSet slot none s) slot).nextSet = none := by
  rw [installSet, if_neg h, applySet, hj]
  dsimp only
  rw [sessionAt_modSession_same, releaseSet_sessionAt]
  exact ⟨rfl, rfl⟩

/-- Settles O26: each body is read by the state it meets, and a session that ends is followed through what ends with it. -/
theorem sessionCommandsAtRecognition : Obligations.SessionCommandsAtRecognition := by
  refine ⟨?cancel, ?cancelled, ?lost, ?close, ?query, ?constrain, fun slot set s => ⟨installSet_active set, installSet_clears⟩⟩
  case cancel =>
    intro p s t ho h
    rw [execSessionCancel_passes ho h]
    exact ⟨fun hst => congrArg (fun u => Host.Outcome.next (dropRecognised p u)) (if_pos hst),
      fun hst => congrArg (fun u => Host.Outcome.next (dropRecognised p u)) (if_neg hst)⟩
  case cancelled =>
    intro slot s
    obtain ⟨hfree, hcom⟩ := cancelSession_frees slot s
    exact ⟨hfree, freeLost_session slot s, fun j => cancelSession_counts, fun w hw => commandOf_eq_none fun c hc hcw => hcom c hc (hcw ▸ hw)⟩
  case lost =>
    intro p s t ho h hst
    rw [execSessionClose_passes ho h, closeBody_lost hst]
    rfl
  case close =>
    intro p s t ho h hst _ _ ha
    obtain ⟨b, hb⟩ := reply_session p ok (closeSession (slotOf p t) t) (slotOf p t)
    obtain ⟨hstate, hjob⟩ := closeSession_session (slotOf p t) t
    refine ⟨dropRecognised p (reply p ok (closeSession (slotOf p t) t)), by rw [execSessionClose_passes ho h, closeBody_resident hst ha], ?_⟩
    rw [dropRecognised_sessionAt, dropRecognised_sched, dropRecognised_tier, reply_sched, reply_tier, hb, Session.owing_d, Session.owing_job]
    exact ⟨hstate, hjob, closeSession_withdraws (slotOf p t) t, closeSession_marks⟩
  case query =>
    intro p s t ho h hst
    rw [execSessionQuery_passes ho h, queryBody_eq hst]
    exact ⟨fun hb => by rw [if_neg (Nat.not_lt.2 hb)]; rfl, fun hb => by rw [if_pos hb]; rfl⟩
  case constrain =>
    intro p s t ho h hst
    rw [execSessionConstrain_passes ho h]
    obtain ⟨cleared, malformed⟩ := constrainBody_reads hst
    refine ⟨fun hs => by rw [cleared hs]; rfl, fun off hs => by rw [malformed off hs]; rfl, fun c hs hc => ?_, fun c i u hs hc => ?_⟩
    · rw [(constrainBody_compiles hst hs).1 hc]
      rfl
    · rw [(constrainBody_compiles hst hs).2 i u hc]
      rfl

end Sys2Proof.Machine
end

section
/-! PROOF of O27. SESSION_GENERATE, serving and training (03 R89; 05 R145; 11 R300, R301): what admission asks, and what the admitted session holds. -/

namespace Sys2Proof.Machine

variable {p : Packet} {s t : State} {slot : Nat}

/-! ### Mover operations of a session -/

theorem opOf_none (h : ∀ o ∈ s.tier.ops, o.slot ≠ slot) (f : MoverOp → Bool) : opOf s slot f = none := by
  rw [opOf, List.find?_eq_none]
  intro o ho
  simp [h o ho]

@[simp] theorem dropOps_sessionAt (f : MoverOp → Bool) (s : State) (n : Nat) : sessionAt (dropOps f s) n = sessionAt s n := rfl
@[simp] theorem addOp_sessionAt (k : MoverKind) (slot move codec grade buffer client dest : Nat) (s : State) (n : Nat) :
    sessionAt (addOp k slot move codec grade buffer client dest s) n = sessionAt s n := rfl

/-- A session without a park. -/
def Session.unparked (x : Session) : Session := { x with parkWake := 0, d := { x.d with parkPending := false } }

theorem withdrawPark_session (slot : Nat) (s : State) : ∃ b, sessionAt (withdrawPark slot s) slot = (sessionAt s slot).unparked.owing b := by
  obtain ⟨b, hb⟩ := finish_session (.park slot) { status := stCANCELLED }
    (modSession slot Session.unparked (dropOps (fun o => o.slot == slot && !o.begun && o.kind == .park) s)) slot
  refine ⟨b, hb.trans ?_⟩
  rw [sessionAt_modSession_same, dropOps_sessionAt]

@[simp] theorem withdrawPark_mem (slot : Nat) (s : State) : (withdrawPark slot s).mem = s.mem := finish_mem _ _ _

/-! ### A generation is in force -/

theorem reportCandidate_keeps (slot : Nat) (cand : Bool) (s : State) :
    (reportCandidate slot cand s).mem = s.mem ∧ (reportCandidate slot cand s).tier = s.tier ∧ (reportCandidate slot cand s).commands = s.commands := by
  unfold reportCandidate
  extract_lets
  split
  · exact ⟨rfl, rfl, rfl⟩
  · split
    · exact ⟨rfl, rfl, rfl⟩
    · split <;> exact ⟨rfl, rfl, rfl⟩

/-! ### Serving -/

theorem execSessionGenerate_passes (hi : isServe p = true) (h : passes behindAppend p s = some t) :
    exec (.sessionGenerate p) s = .next (dropRecognised p (generateBody 0 p t)) :=
  congrArg Host.Outcome.next (serve_passes hi h)

/-- What a serving SESSION_GENERATE meets when nothing but room can refuse it. -/
structure MayGenerate (p : Packet) (t : State) : Prop where
  variant : argOf p 20 1 = 0
  state : (sessionAt t (slotOf p t)).d.state = 1 ∨ (sessionAt t (slotOf p t)).d.state = 3
  ready : slotsReady t = true
  ring : (ringOf t (sessionAt t (slotOf p t)).d.partition).isSome = true
  sampling : samplingRefusal (samplingOf p) = none
  buffer : 48 * max (argOf p 24 4) 1 ≤ bufLen p 0x48
  elems : (sessionAt t (slotOf p t)).d.ledgerPos ≠ 0
  constraint : (sessionAt t (slotOf p t)).con.absent = false
  here : (sessionAt t (slotOf p t)).exported = false
  noOps : ∀ o ∈ t.tier.ops, o.slot ≠ slotOf p t
  tail : tailShared t (sessionAt t (slotOf p t)) = false

/-- Its parameters pass, and admission decides. -/
theorem generateBody_admits (h : MayGenerate p t) :
    generateBody 0 p t = admitGenerate p (slotOf p t) (if argOf p 24 4 = 0 then bufLen p 0x48 / 48 else argOf p 24 4) t := by
  have h7 : (sessionAt t (slotOf p t)).d.state ≠ 7 := by have := h.state; omega
  have hr : stateRefusal (sessionAt t (slotOf p t)) [1, 3] t = none := stateRefusal_none (by simpa using h.state) t
  have hring : (ringOf t (sessionAt t (slotOf p t)).d.partition).isNone = false :=
    Option.isNone_eq_false_iff.2 h.ring
  simp only [generateBody, h7, hr, h.variant, h.ready, hring, h.sampling, Nat.not_lt.2 h.buffer, h.elems, h.constraint, h.here, opOf_none h.noOps,
    Bool.not_true, Bool.false_eq_true, or_self, and_false, Option.isSome_none, Nat.not_lt_zero, if_false]

/-- Frames that a generation needs beyond those its session holds, in bytes. -/
def generateNeed (s : State) (slot count : Nat) : Nat :=
  (steadyFrames s (sessionAt s slot) count - t1Pages (sessionAt s slot)) * granuleOf s (sessionAt s slot).d.partition

theorem admitGenerate_refused {count : Nat} :
    (t1FreeFor t slot < generateNeed t slot count → admitGenerate p slot count t = reply p (noResource 0x0001) t)
      ∧ (generateNeed t slot count ≤ t1FreeFor t slot → 4096 < ctrlHeld t + ringSizeOf t (sessionAt t slot).d.partition →
        admitGenerate p slot count t = reply p (noResource 0x000A) t) := by
  refine ⟨fun hf => if_pos hf, fun hf hc => ?_⟩
  exact (if_neg (Nat.not_lt.2 hf)).trans (if_pos hc)

/-- Some page of a session stands outside T1. -/
def Session.anyOut (x : Session) : Bool := (parkPages x).any (fun g => g.tier != 1)

/-- The operations of the Mover are rid of what an admission withdraws: none of a session that has none. -/
def admittedBase (slot : Nat) (s : State) : State :=
  let s1 := withdrawPark slot (dropOps (fun o => o.slot == slot && !o.begun && (o.kind == .demote || o.kind == .pull)) s)
  { s1 with tier := { s1.tier with ops := s1.tier.ops.map (fun o => if o.slot = slot ∧ o.kind = .revive then { o with kind := .reviveTaken } else o) } }

/-- The state that a serving generation's admission leaves before its session's pass is reported. -/
def admittedAt (p : Packet) (slot count : Nat) (s : State) : State :=
  let x := sessionAt s slot
  let s1 := if x.anyOut then addOp .reviveTaken slot (tileBytesOf s x) (reviveCodec s x) 0 0 p.client 1 (admittedBase slot s) else admittedBase slot s
  accept p (.generate slot) (setState slot 2 (modSession slot
    (fun x => { x with
      job := some (newGeneration p (originOf p s) count (steadyFrames s (sessionAt s slot) count) (!(sessionAt s slot).anyOut) s1)
      toolQueued := 0
      d := { x.d with revivePending := false } }) s1))

theorem admitGenerate_admits {count : Nat} (hops : ∀ o ∈ t.tier.ops, o.slot ≠ slot) (htail : tailShared t (sessionAt t slot) = false)
    (hf : generateNeed t slot count ≤ t1FreeFor t slot) (hc : ctrlHeld t + ringSizeOf t (sessionAt t slot).d.partition ≤ 4096)
    (hm : (∀ g ∈ parkPages (sessionAt t slot), g.tier = 1) ∨ moverFits (tileBytesOf t (sessionAt t slot)) (reviveCodec t (sessionAt t slot)) t = true) :
    admitGenerate p slot count t
      = if (sessionAt t slot).anyOut then admittedAt p slot count t else reportCandidate slot true (admittedAt p slot count t) := by
  have hmove : ¬ ((sessionAt t slot).anyOut = true ∧ (!moverFits (tileBytesOf t (sessionAt t slot)) (reviveCodec t (sessionAt t slot)) t) = true) := by
    rintro ⟨hout, hno⟩
    obtain ⟨g, hg, hg1⟩ := List.any_eq_true.1 hout
    rcases hm with hin | hfit
    · simp [hin g hg] at hg1
    · simp [hfit] at hno
  have hf' : ¬ t1FreeFor t slot < (steadyFrames t (sessionAt t slot) count - t1Pages (sessionAt t slot)) * granuleOf t (sessionAt t slot).d.partition :=
    Nat.not_lt.2 hf
  have hout : ((parkPages (sessionAt t slot)).any (fun g => g.tier != 1)) = (sessionAt t slot).anyOut := rfl
  unfold admitGenerate
  simp only [opOf_none hops, htail, hout, hf', Nat.not_lt.2 hc, Bool.or_false, Option.isNone_none, Option.isSome_none, Bool.and_true, Bool.and_false,
    Bool.not_false, Bool.false_eq_true, or_false, if_false, Nat.max_zero]
  cases ho : (sessionAt t slot).anyOut with
  | true =>
    rw [ho] at hmove
    simp only [if_true, true_and]
    rw [if_neg (fun h => hmove ⟨rfl, h⟩)]
    simp only [admittedAt, admittedBase, ho, if_true, Bool.not_true, Bool.false_eq_true, if_false]
  | false =>
    simp only [admittedAt, admittedBase, ho, Bool.false_eq_true, false_and, if_false, Bool.not_false, if_true]

/-- The session of an admitted generation: ACTIVE, with the command's job, as long as it was. -/
theorem admittedAt_session (p : Packet) (slot count : Nat) (t : State) :
    (sessionAt (admittedAt p slot count t) slot).d.state = 2
      ∧ (∃ j, (sessionAt (admittedAt p slot count t) slot).job = some j ∧ j.train = false ∧ j.block = samplingOf p ∧ j.byteCount = count
        ∧ j.outAddr = bufAddr p 0x48 ∧ j.parkOnEnd = bitOf (argOf p 21 1) 0 ∧ j.delivered = 0 ∧ j.positions = 0)
      ∧ (sessionAt (admittedAt p slot count t) slot).d.committed = (sessionAt t slot).d.committed := by
  obtain ⟨b, hbase⟩ : ∃ b, sessionAt (admittedBase slot t) slot = (sessionAt t slot).unparked.owing b :=
    withdrawPark_session slot (dropOps (fun o => o.slot == slot && !o.begun && (o.kind == .demote || o.kind == .pull)) t)
  unfold admittedAt
  extract_lets x s1
  have h1 : sessionAt s1 slot = (sessionAt t slot).unparked.owing b := by
    rw [← hbase]
    unfold s1
    split
    · exact addOp_sessionAt _ _ _ _ _ _ _ _ _ _
    · rfl
  obtain ⟨c, hc⟩ := accept_session p (.generate slot) (setState slot 2 (modSession slot
    (fun x => { x with
      job := some (newGeneration p (originOf p t) count (steadyFrames t (sessionAt t slot) count) (!(sessionAt t slot).anyOut) s1)
      toolQueued := 0
      d := { x.d with revivePending := false } }) s1)) slot
  rw [hc, Session.owing_d, Session.owing_job, setState, sessionAt_modSession_same, sessionAt_modSession_same, h1]
  exact ⟨rfl, ⟨_, rfl, rfl, rfl, rfl, rfl, rfl, rfl, rfl⟩, rfl⟩

theorem admittedAt_keeps (p : Packet) (slot count : Nat) (t : State) :
    ((∃ g ∈ parkPages (sessionAt t slot), g.tier ≠ 1) → ∃ o ∈ (admittedAt p slot count t).tier.ops, o.slot = slot ∧ o.kind = .reviveTaken)
      ∧ commandOf (admittedAt p slot count t) (.generate slot) ≠ none ∧ (admittedAt p slot count t).mem = t.mem := by
  unfold admittedAt
  extract_lets x s1
  refine ⟨fun ⟨g, hg, hg1⟩ => ?_, commandOf_accept _ _ _, ?_⟩
  · have hout : x.anyOut = true := List.any_eq_true.2 ⟨g, hg, by simpa using hg1⟩
    rw [accept_tier, setState, modSession_tier, modSession_tier]
    unfold s1
    rw [if_pos hout]
    exact ⟨_, List.mem_append_right _ (List.mem_singleton_self _), rfl, rfl⟩
  · have h1 : s1.mem = (admittedBase slot t).mem := by
      unfold s1
      split <;> rfl
    rw [accept_mem, setState, modSession_mem, modSession_mem, h1]
    exact withdrawPark_mem _ _

/-- What is asked about an admitted generation does not depend on the report of its pass. -/
theorem admitGenerate_state {count : Nat} (hops : ∀ o ∈ t.tier.ops, o.slot ≠ slot) (htail : tailShared t (sessionAt t slot) = false)
    (hf : generateNeed t slot count ≤ t1FreeFor t slot) (hc : ctrlHeld t + ringSizeOf t (sessionAt t slot).d.partition ≤ 4096)
    (hm : (∀ g ∈ parkPages (sessionAt t slot), g.tier = 1) ∨ moverFits (tileBytesOf t (sessionAt t slot)) (reviveCodec t (sessionAt t slot)) t = true) :
    sessionAt (admitGenerate p slot count t) slot = sessionAt (admittedAt p slot count t) slot
      ∧ (admitGenerate p slot count t).mem = (admittedAt p slot count t).mem ∧ (admitGenerate p slot count t).tier = (admittedAt p slot count t).tier
      ∧ (admitGenerate p slot count t).commands = (admittedAt p slot count t).commands := by
  rw [admitGenerate_admits hops htail hf hc hm]
  split
  · exact ⟨rfl, rfl, rfl, rfl⟩
  · exact ⟨reportCandidate_sessionAt _ _ _ _, reportCandidate_keeps _ _ _⟩

/-! ### Training -/

theorem execTrainingGenerate_passes (hi : isTrain p = true) (h : passes behindAppend p s = some t) :
    exec (.trainingGenerate p) s = .next (dropRecognised p (trainBody 0 p t)) :=
  congrArg Host.Outcome.next (serve_passes hi h)

theorem FMap.get?_put_ne_none {α : Type} (m : FMap α) (k i : Nat) (v : α) : FMap.get? (FMap.put m k v) i ≠ none ↔ i = k ∨ FMap.get? m i ≠ none := by
  by_cases h : i = k
  · subst h
    simp
  · rw [FMap.get?_put_other m v h]
    simp [h]

/-- A frame is taken for each key; no session and no byte of memory changes. -/
theorem takeFrames_keys (part : Nat) (keys : List Nat) (a : FMap Nat × State) :
    (∀ i, FMap.get? (takeFrames part keys a).1 i ≠ none ↔ i ∈ keys ∨ FMap.get? a.1 i ≠ none)
      ∧ (takeFrames part keys a).2.slots = a.2.slots ∧ (takeFrames part keys a).2.mem = a.2.mem := by
  induction keys generalizing a with
  | nil => simp [takeFrames]
  | cons k rest ih =>
    obtain ⟨hk, hs, hm⟩ := ih (FMap.put a.1 k (takeFrame part a.2).1, (takeFrame part a.2).2)
    refine ⟨fun i => ?_, hs.trans (takeFrame_slots part a.2), hm.trans (eq_of_aside offPages State.mem (fun _ => rfl) (offPages_takeFrame part a.2))⟩
    refine (hk i).trans ?_
    rw [FMap.get?_put_ne_none, List.mem_cons, or_left_comm, or_assoc]

/-- A page of 64 positions begins before a length exactly if it is one of the pages that hold the length. -/
theorem lt_ceilDiv_iff {n i : Nat} : i < ceilDiv n 64 ↔ 64 * i < n := by
  rw [ceilDiv, if_neg (by decide)]
  omega

/-- One scratch frame is taken for each page of the ledger's length (05 R145). -/
theorem takeScratch_session (slot : Nat) (s : State) : ∃ scratch stats,
    sessionAt (takeScratch slot s) slot = { sessionAt s slot with scratch := scratch, stats := stats }
      ∧ ∀ i, FMap.get? scratch i ≠ none ↔ 64 * i < (sessionAt s slot).d.ledgerPos := by
  unfold takeScratch
  extract_lets x part a b
  obtain ⟨ka, ha, -⟩ := takeFrames_keys part (List.range (ceilDiv x.d.ledgerPos 64)) ([], s)
  obtain ⟨-, hb, -⟩ := takeFrames_keys part (List.range (ceilDiv (statsBytes s part x.d.ledgerPos) (granuleOf s part))) ([], a.2)
  have hs : sessionAt b.2 slot = sessionAt s slot := sessionAt_of_table (congrArg Slots.table (hb.trans ha)) slot
  refine ⟨a.1, b.1, by rw [sessionAt_modSession_same, hs], fun i => (ka i).trans ?_⟩
  simp only [List.mem_range, lt_ceilDiv_iff, FMap.get?, ne_eq, not_true_eq_false, or_false, x]

@[simp] theorem takeScratch_mem (slot : Nat) (s : State) : (takeScratch slot s).mem = s.mem := by
  unfold takeScratch
  extract_lets x part a b
  rw [modSession_mem]
  exact (takeFrames_keys part _ _).2.2.trans (takeFrames_keys part _ _).2.2

/-- The job of a training pass. -/
def trainJob (p : Packet) (o : Origin) (s : State) : Generation :=
  { train := true, lossFrom := paramOf p 0x20 8, admitBeat := o.beat, admitPhase := o.phase, waitStep := s.sched.step }

/-- The state of an admitted training pass. -/
def trainingAt (p : Packet) (slot : Nat) (s : State) : State :=
  accept p (.generate slot) (setState slot 2 (takeScratch slot
    (modSession slot (fun x => { x with job := some (trainJob p (originOf p s) (withdrawPark slot s)) }) (withdrawPark slot s))))

theorem trainBody_admits {tr : Train} (hst : (sessionAt t (slotOf p t)).d.state = 1) (hready : slotsReady t = true)
    (hcopy : (sessionAt t (slotOf p t)).d.copying = false) (hops : ∀ o ∈ t.tier.ops, o.slot ≠ slotOf p t)
    (htr : trainOf t (sessionAt t (slotOf p t)).d.partition = some tr) (hlen : (sessionAt t (slotOf p t)).d.ledgerPos ≤ min tr.trainLen 16384)
    (hloss : paramOf p 0x20 8 + 1 < (sessionAt t (slotOf p t)).d.ledgerPos)
    (hf : trainFrames t (sessionAt t (slotOf p t)) * granuleOf t (sessionAt t (slotOf p t)).d.partition ≤ t1Free t)
    (hc : ctrlHeld t + ringSizeOf t (sessionAt t (slotOf p t)).d.partition ≤ 4096) :
    trainBody 0 p t = trainingAt p (slotOf p t) t := by
  have h7 : (sessionAt t (slotOf p t)).d.state ≠ 7 := by omega
  have hr : stateRefusal (sessionAt t (slotOf p t)) [1] t = none := stateRefusal_none (by simp [hst]) t
  simp only [trainBody, trainingAt, trainJob, h7, hr, hready, hcopy, opOf_none hops, htr, Nat.not_lt.2 hlen, Nat.not_le.2 hloss, Nat.not_lt.2 hf, Nat.not_lt.2 hc,
    Bool.not_true, Bool.false_eq_true, Option.isSome_none, or_self, if_false]

theorem trainingAt_session (p : Packet) (slot : Nat) (t : State) :
    (sessionAt (trainingAt p slot t) slot).d.state = 2
      ∧ (∃ j, (sessionAt (trainingAt p slot t) slot).job = some j ∧ j.train = true ∧ j.lossFrom = paramOf p 0x20 8)
      ∧ (∀ i, FMap.get? (sessionAt (trainingAt p slot t) slot).scratch i ≠ none ↔ 64 * i < (sessionAt t slot).d.ledgerPos)
      ∧ (sessionAt (trainingAt p slot t) slot).pages = (sessionAt t slot).pages := by
  obtain ⟨b, hb⟩ := withdrawPark_session slot t
  obtain ⟨scratch, stats, hx, hk⟩ := takeScratch_session slot
    (modSession slot (fun x => { x with job := some (trainJob p (originOf p t) (withdrawPark slot t)) }) (withdrawPark slot t))
  rw [sessionAt_modSession_same, hb] at hx hk
  obtain ⟨c, hc⟩ := accept_session p (.generate slot) (setState slot 2 (takeScratch slot
    (modSession slot (fun x => { x with job := some (trainJob p (originOf p t) (withdrawPark slot t)) }) (withdrawPark slot t)))) slot
  rw [trainingAt, hc, Session.owing_d, Session.owing_job, Session.owing_scratch, Session.owing_pages, setState, sessionAt_modSession_same, hx]
  exact ⟨rfl, ⟨_, rfl, rfl, rfl⟩, hk, rfl⟩

theorem trainingAt_mem (p : Packet) (slot : Nat) (t : State) : (trainingAt p slot t).mem = t.mem := by
  rw [trainingAt, accept_mem, setState, modSession_mem, takeScratch_mem, modSession_mem, withdrawPark_mem]

/-- Settles O27: a generation that nothing but room can refuse is refused by room or admitted, and a training pass takes its scratch. -/
theorem generationAdmitted : Obligations.GenerationAdmitted := by
  refine ⟨?serving, ?rebuilding, ?training⟩
  case serving =>
    intro p n s t hi hvar h hst hready hring hsamp hbuf hpos hcon hexp hops htail hn
    have hbody := generateBody_admits ⟨hvar, hst, hready, hring, hsamp, hbuf, hpos, hcon, hexp, hops, htail⟩
    rw [← hn] at hbody
    rw [execSessionGenerate_passes hi h, hbody]
    obtain ⟨noFrames, noCtrl⟩ := admitGenerate_refused (p := p) (t := t) (slot := slotOf p t) (count := n)
    refine ⟨fun hf => by rw [noFrames hf]; rfl, fun hf hc => by rw [noCtrl hf hc]; rfl, fun hf hc hm => ?_⟩
    obtain ⟨hs, hmem, htier, hcom⟩ := admitGenerate_state (p := p) hops htail hf hc hm
    obtain ⟨hstate, hjob, hcommitted⟩ := admittedAt_session p (slotOf p t) n t
    obtain ⟨hrevive, hwaits, hmem'⟩ := admittedAt_keeps p (slotOf p t) n t
    refine ⟨_, rfl, ?_⟩
    rw [dropRecognised_sessionAt, dropRecognised_tier, dropRecognised_mem, dropRecognised_commandOf, hs, hmem, htier, commandOf, hcom]
    exact ⟨hstate, hjob, hrevive, hwaits, hcommitted, hmem'⟩
  case rebuilding =>
    intro p s t hi h hst
    rw [execSessionGenerate_passes hi h]
    exact congrArg (fun u => Host.Outcome.next (dropRecognised p u)) (if_pos hst)
  case training =>
    intro p tr s t hi h hst hready hcopy hops htr hlen hloss hf hc
    obtain ⟨hstate, hjob, hscratch, hpages⟩ := trainingAt_session p (slotOf p t) t
    rw [execTrainingGenerate_passes hi h, trainBody_admits hst hready hcopy hops htr hlen hloss hf hc]
    refine ⟨_, rfl, ?_⟩
    rw [dropRecognised_sessionAt, dropRecognised_mem, dropRecognised_commandOf]
    exact ⟨hstate, hjob, hscratch, commandOf_accept _ _ _, hpages, trainingAt_mem p _ t⟩

end Sys2Proof.Machine
end

section
/-! PROOF of O28. SESSION_PARK and SESSION_REVIVE (03 R89, R91; 04 R114 to R119): what admission asks of room and of the Mover, and the operation that it queues. -/

namespace Sys2Proof.Machine

variable {p : Packet} {s t : State} {slot : Nat}

/-! ### The Mover's list of operations -/

/-- The state without the Mover's list of operations. -/
def offOps (s : State) : State := { s with tier := { s.tier with ops := [], nextOp := 0 } }

/-- Demotions that make room are queued, and nothing else changes (04 R117). -/
theorem offOps_demoteUntil (need : Nat) (l : List Nat) (s : State) : offOps (demoteUntil need l s).2 = offOps s := by
  induction l generalizing need s with
  | nil => rfl
  | cons a rest ih =>
    unfold demoteUntil
    split
    · rfl
    · dsimp only
      split
      · rfl
      · exact ih _ _

/-- A place is found with demotions at most (04 R116). -/
theorem offOps_placePark {space wake dest : Nat} (h : placePark slot space wake s = some (dest, t)) : offOps t = offOps s := by
  unfold placePark at h
  split at h
  · cases h
    rfl
  · dsimp only at h
    split at h
    · next hd =>
      cases h
      exact (congrArg (fun r => offOps r.2) hd).symm.trans (offOps_demoteUntil _ _ s)
    · split at h
      · cases h
        rfl
      · cases h

/-- The operation that `addOp` queues stands in the list, for its session and as it was asked for. -/
theorem addOp_queues (k : MoverKind) (slot move codec grade buffer client dest : Nat) (s : State) :
    ∃ o ∈ (addOp k slot move codec grade buffer client dest s).tier.ops,
      o.slot = slot ∧ o.kind = k ∧ o.dest = dest ∧ o.grade = grade ∧ o.buffer = buffer ∧ o.client = client :=
  ⟨_, List.mem_append_right _ (List.mem_singleton_self _), rfl, rfl, rfl, rfl, rfl, rfl⟩

/-! ### SESSION_PARK -/

theorem execSessionPark_passes (ho : opcodeOf p = 0x24) (h : passes behindRevive p s = some t) :
    exec (.sessionPark p) s = .next (dropRecognised p (parkBody 0 p t)) :=
  next_serve_passes ho h

/-- The beat at which a park's session wakes: none for 0 (11 R310). -/
def parkWakeAt (p : Packet) (s : State) : Nat := if paramOf p 0x20 8 = 0 then 0 else s.cad.beat + paramOf p 0x20 8

/-- Capsule bytes that a park moves, at its session's grade. -/
def parkMove (s : State) (x : Session) : Nat := parkBytes s x (parkGrade s x)

/-- Bytes that a park codes: tiles where the grade is Extrait (04 R111). -/
def parkCodec (s : State) (x : Session) : Nat := if parkGrade s x = 0 then tileBytesOf s x else parkMove s x

/-- A session whose park is pending, to wake some beats after it (03 R91), otherwise as it stands. -/
def Session.parking (x : Session) (after : Nat) : Session := { x with parkWake := after, d := { x.d with parkPending := true } }

/-- The state `u` with the park of a session as it stands in `s` queued for a place. -/
def parkQueued (p : Packet) (dest : Nat) (s u : State) : State :=
  modSession (slotOf p s) (Session.parking · (paramOf p 0x20 8))
    (addOp .park (slotOf p s) (parkMove s (sessionAt s (slotOf p s))) (parkCodec s (sessionAt s (slotOf p s))) (parkGrade s (sessionAt s (slotOf p s))) 0
      p.client dest u)

/-- Place decides first, and then the Mover's capacity (04 R114, R116). -/
theorem parkBody_decides (hst : (sessionAt t (slotOf p t)).d.state = 1) (hready : slotsReady t = true)
    (hcopy : (sessionAt t (slotOf p t)).d.copying = false) (hpark : (sessionAt t (slotOf p t)).d.parkPending = false)
    (hops : ∀ o ∈ t.tier.ops, o.slot ≠ slotOf p t) :
    (placePark (slotOf p t) (parkSpace t (sessionAt t (slotOf p t))) (parkWakeAt p t) t = none →
        parkBody 0 p t = reply p (noResource 0x0002) (setFlag offTierEvents 0 t))
      ∧ ∀ dest u, placePark (slotOf p t) (parkSpace t (sessionAt t (slotOf p t))) (parkWakeAt p t) t = some (dest, u) →
        (moverFits (parkMove t (sessionAt t (slotOf p t))) (parkCodec t (sessionAt t (slotOf p t))) u = false →
          parkBody 0 p t = reply p (busy (beatsToBoundary t)) t)
        ∧ (moverFits (parkMove t (sessionAt t (slotOf p t))) (parkCodec t (sessionAt t (slotOf p t))) u = true →
          parkBody 0 p t = accept p (.park (slotOf p t)) (parkQueued p dest t u)) := by
  have hr : stateRefusal (sessionAt t (slotOf p t)) [1] t = none := stateRefusal_none (by simp [hst]) t
  refine ⟨fun hp => ?_, fun dest u hp => ⟨fun hm => ?_, fun hm => ?_⟩⟩
  all_goals
    unfold parkWakeAt at hp
    simp only [parkBody, hr, hready, hcopy, hpark, opOf_none hops, hp, Bool.not_true, Bool.false_eq_true, Option.isSome_none, or_self, if_false]
  · exact if_pos (by simpa [parkMove, parkCodec] using hm)
  · exact if_neg (by simpa [parkMove, parkCodec] using hm)

/-- The queued park, and what stays of the rest. -/
theorem parkQueued_keeps {dest : Nat} {u : State} (p : Packet) (h : offOps u = offOps t) :
    sessionAt (parkQueued p dest t u) (slotOf p t) = (sessionAt t (slotOf p t)).parking (paramOf p 0x20 8)
      ∧ (∃ o ∈ (parkQueued p dest t u).tier.ops, o.slot = slotOf p t ∧ o.kind = .park ∧ o.dest = dest ∧ o.grade = parkGrade t (sessionAt t (slotOf p t)))
      ∧ (∀ n, n ≠ slotOf p t → sessionAt (parkQueued p dest t u) n = sessionAt t n) ∧ (parkQueued p dest t u).mem = t.mem := by
  have hs : ∀ n, sessionAt u n = sessionAt t n := sessionAt_of_table (eq_of_aside offOps (fun s => s.slots.table) (fun _ => rfl) h)
  obtain ⟨o, ho, hslot, hkind, hdest, hgrade, -⟩ := addOp_queues .park (slotOf p t) (parkMove t (sessionAt t (slotOf p t)))
    (parkCodec t (sessionAt t (slotOf p t))) (parkGrade t (sessionAt t (slotOf p t))) 0 p.client dest u
  unfold parkQueued
  refine ⟨?_, ⟨o, ho, hslot, hkind, hdest, hgrade⟩, fun n hn => ?_, eq_of_aside offOps State.mem (t := u) (fun _ => rfl) h⟩
  · rw [sessionAt_modSession_same, addOp_sessionAt, hs]
  · rw [sessionAt_modSession_other _ _ hn, addOp_sessionAt, hs]

/-! ### SESSION_REVIVE -/

theorem execSessionRevive_passes (ho : opcodeOf p = 0x25) (h : passes behindAppend p s = some t) :
    exec (.sessionRevive p) s = .next (dropRecognised p (reviveBody 0 p t)) :=
  next_serve_passes ho h

/-- Operations that a session's revive takes the place of: demotions and pulls that have not begun (04 R125). -/
def yieldsTo (slot : Nat) (o : MoverOp) : Bool := o.slot == slot && !o.begun && (o.kind == .demote || o.kind == .pull)

/-- A session whose revive is pending (03 R89), otherwise as it stands. -/
def Session.reviving (x : Session) : Session := { x with toolQueued := 0, d := { x.d with revivePending := true } }

/-- The state with the revive of a session queued. -/
def reviveQueued (p : Packet) (s : State) : State :=
  modSession (slotOf p s) Session.reviving
    (addOp .revive (slotOf p s) (tileBytesOf s (sessionAt s (slotOf p s))) (reviveCodec s (sessionAt s (slotOf p s))) 0 0 p.client 1 (dropOps (yieldsTo (slotOf p s)) s))

/-- Frames decide first, and then the Mover's capacity (04 R114, R119). -/
theorem reviveBody_decides (hst : (sessionAt t (slotOf p t)).d.state = 3) (hready : slotsReady t = true)
    (hexp : (sessionAt t (slotOf p t)).exported = false) (hops : ∀ o ∈ t.tier.ops, o.slot ≠ slotOf p t) :
    (t1Free t < reviveNeed t (sessionAt t (slotOf p t)) → reviveBody 0 p t = reply p (noResource 0x0001) t)
      ∧ (reviveNeed t (sessionAt t (slotOf p t)) ≤ t1Free t →
        (moverFits (tileBytesOf t (sessionAt t (slotOf p t))) (reviveCodec t (sessionAt t (slotOf p t))) t = false →
          reviveBody 0 p t = reply p (busy (beatsToBoundary t)) t)
        ∧ (moverFits (tileBytesOf t (sessionAt t (slotOf p t))) (reviveCodec t (sessionAt t (slotOf p t))) t = true →
          reviveBody 0 p t = accept p (.revive (slotOf p t)) (reviveQueued p t))) := by
  have h7 : (sessionAt t (slotOf p t)).d.state ≠ 7 := by omega
  have hr : stateRefusal (sessionAt t (slotOf p t)) [3] t = none := stateRefusal_none (by simp [hst]) t
  refine ⟨fun hf => ?_, fun hf => ⟨fun hm => ?_, fun hm => ?_⟩⟩
  · simp only [reviveBody, h7, hr, hready, hexp, opOf_none hops, hf, Bool.not_true, Bool.false_eq_true, Option.isSome_none, if_false, if_true]
  · simp only [reviveBody, h7, hr, hready, hexp, opOf_none hops, Nat.not_lt.2 hf, hm, Bool.not_true, Bool.not_false, Bool.false_eq_true, Option.isSome_none,
      if_false, if_true]
  · simp only [reviveBody, h7, hr, hready, hexp, opOf_none hops, Nat.not_lt.2 hf, hm, Bool.not_true, Bool.false_eq_true, Option.isSome_none, if_false]
    rfl

theorem reviveBody_exported (hst : (sessionAt t (slotOf p t)).d.state = 3) (hready : slotsReady t = true)
    (hexp : (sessionAt t (slotOf p t)).exported = true) : reviveBody 0 p t = reply p (noResource 0x0004) t := by
  have h7 : (sessionAt t (slotOf p t)).d.state ≠ 7 := by omega
  have hr : stateRefusal (sessionAt t (slotOf p t)) [3] t = none := stateRefusal_none (by simp [hst]) t
  simp only [reviveBody, h7, hr, hready, hexp, Bool.not_true, Bool.false_eq_true, if_false, if_true]

/-- A second revive waits for the one that is queued (log entry 37). -/
theorem reviveBody_joins (hst : (sessionAt t (slotOf p t)).d.state = 3) (hready : slotsReady t = true)
    (hexp : (sessionAt t (slotOf p t)).exported = false) (hout : opOf t (slotOf p t) (fun o => o.kind == .sessionOut) = none)
    (hrev : (opOf t (slotOf p t) isRevive).isSome = true) : reviveBody 0 p t = accept p (.revive (slotOf p t)) t := by
  have h7 : (sessionAt t (slotOf p t)).d.state ≠ 7 := by omega
  have hr : stateRefusal (sessionAt t (slotOf p t)) [3] t = none := stateRefusal_none (by simp [hst]) t
  simp only [reviveBody, h7, hr, hready, hexp, hout, hrev, Bool.not_true, Bool.false_eq_true, Option.isSome_none, if_false, if_true]

/-- The queued revive, and what stays of the rest. -/
theorem reviveQueued_keeps (p : Packet) (t : State) :
    sessionAt (reviveQueued p t) (slotOf p t) = (sessionAt t (slotOf p t)).reviving
      ∧ (∃ o ∈ (reviveQueued p t).tier.ops, o.slot = slotOf p t ∧ o.kind = .revive)
      ∧ (∀ n, n ≠ slotOf p t → sessionAt (reviveQueued p t) n = sessionAt t n) ∧ (reviveQueued p t).mem = t.mem := by
  obtain ⟨o, ho, hslot, hkind, -⟩ := addOp_queues .revive (slotOf p t) (tileBytesOf t (sessionAt t (slotOf p t)))
    (reviveCodec t (sessionAt t (slotOf p t))) 0 0 p.client 1 (dropOps (yieldsTo (slotOf p t)) t)
  unfold reviveQueued
  refine ⟨?_, ⟨o, ho, hslot, hkind⟩, fun n hn => ?_, rfl⟩
  · rw [sessionAt_modSession_same, addOp_sessionAt, dropOps_sessionAt]
  · rw [sessionAt_modSession_other _ _ hn, addOp_sessionAt, dropOps_sessionAt]

/-- Settles O28: each body is read by the first thing that is missing, and the queued operation is read off the state that ACCEPTED leaves. -/
theorem parkAndReviveScheduled : Obligations.ParkAndReviveScheduled := by
  refine ⟨?park, ?revive, ?exported, ?joins⟩
  case park =>
    intro p wake codec s t ho h hst hready hcopy hpark hops hw hc
    obtain ⟨noPlace, place⟩ := parkBody_decides hst hready hcopy hpark hops
    rw [execSessionPark_passes ho h]
    subst hw hc
    refine ⟨fun hp => by rw [noPlace hp]; rfl, fun dest u hp hm => by rw [(place dest u hp).1 hm]; rfl, fun dest u hp hm => ?_⟩
    exact ⟨parkQueued p dest t u, by rw [(place dest u hp).2 hm]; rfl, parkQueued_keeps p (offOps_placePark hp)⟩
  case revive =>
    intro p s t ho h hst hready hexp hops
    obtain ⟨noFrames, frames⟩ := reviveBody_decides hst hready hexp hops
    rw [execSessionRevive_passes ho h]
    refine ⟨fun hf => by rw [noFrames hf]; rfl, fun hf hm => by rw [(frames hf).1 hm]; rfl, fun hf hm => ?_⟩
    obtain ⟨hx, hop, hothers, hmem⟩ := reviveQueued_keeps p t
    refine ⟨reviveQueued p t, by rw [(frames hf).2 hm]; rfl, ?_⟩
    rw [hx]
    exact ⟨rfl, rfl, hop, hothers, hmem⟩
  case exported =>
    intro p s t ho h hst hready hexp
    rw [execSessionRevive_passes ho h, reviveBody_exported hst hready hexp]
    rfl
  case joins =>
    intro p s t ho h hst hready hexp hout hrev
    rw [execSessionRevive_passes ho h, reviveBody_joins hst hready hexp hout hrev]
    rfl

end Sys2Proof.Machine
end

section
/-! PROOF of O29. SESSION_EXPORT and SESSION_IMPORT (04 R109 to R114; 11 R310): the operation that each queues, and the session that an import's capsule comes to. -/

namespace Sys2Proof.Machine

variable {p : Packet} {s t : State} {slot : Nat}

/-! ### SESSION_EXPORT -/

theorem execSessionExport_passes (ho : opcodeOf p = 0x2A) (h : passes behindShift p s = some t) :
    exec (.sessionExport p) s = .next (dropRecognised p (exportBody 0 p t)) :=
  next_serve_passes ho h

/-- Bytes that an export moves: worst-case capsules of a RESIDENT session, the stored ones of a PARKED one. -/
def exportMove (s : State) (x : Session) : Nat := if x.d.state = 1 then parkMove s x else storedBytes s x

/-- Bytes that an export codes. -/
def exportCodec (s : State) (x : Session) : Nat :=
  if x.d.state = 1 then (if parkGrade s x = 0 then tileBytesOf s x else exportMove s x) else 0

/-- The state in which the operation that writes a session to its buffer is queued. -/
def exportQueued (p : Packet) (s : State) : State :=
  addOp .sessionOut (slotOf p s) (exportMove s (sessionAt s (slotOf p s))) (exportCodec s (sessionAt s (slotOf p s))) (parkGrade s (sessionAt s (slotOf p s)))
    (bufAddr p 0x20) p.client 4 (dropOps (yieldsTo (slotOf p s)) s)

theorem endCopy_of_none (h : (sessionAt s slot).handover = none) : endCopy slot s = s := by
  simp only [endCopy, revertHandover, h]

/-- With a buffer for the worst case, the Mover's capacity decides (04 R114). -/
theorem exportBody_decides (hst : (sessionAt t (slotOf p t)).d.state = 1 ∨ (sessionAt t (slotOf p t)).d.state = 3) (hready : slotsReady t = true)
    (hexp : (sessionAt t (slotOf p t)).exported = false) (hho : (sessionAt t (slotOf p t)).handover = none)
    (hops : ∀ o ∈ t.tier.ops, o.slot ≠ slotOf p t) (hbuf : writtenBytes t (worstCapsule t (sessionAt t (slotOf p t))) ≤ bufLen p 0x20) :
    (moverFits (exportMove t (sessionAt t (slotOf p t))) (exportCodec t (sessionAt t (slotOf p t))) t = false →
        exportBody 0 p t = reply p (busy (beatsToBoundary t)) t)
      ∧ (moverFits (exportMove t (sessionAt t (slotOf p t))) (exportCodec t (sessionAt t (slotOf p t))) t = true →
        exportBody 0 p t = accept p (.capsuleOut (slotOf p t)) (exportQueued p t)) := by
  have hr : stateRefusal (sessionAt t (slotOf p t)) [1, 3] t = none := stateRefusal_none (by simpa using hst) t
  refine ⟨fun hm => ?_, fun hm => ?_⟩
  all_goals
    simp only [exportBody, hr, hready, hexp, opOf_none hops, Nat.not_lt.2 hbuf, endCopy_of_none hho, Bool.not_true, Bool.false_eq_true, Option.isSome_none,
      or_self, if_false]
  · exact if_pos (by simpa [exportMove, exportCodec, parkMove] using hm)
  · exact if_neg (by simpa [exportMove, exportCodec, parkMove] using hm)

/-! ### SESSION_IMPORT -/

theorem execSessionImport_passes {cap : SessionCapsule} (ho : opcodeOf p = 0x2B) (h : passes behindAppend p s = some t) :
    exec (.sessionImport p cap) s = .next (dropRecognised p (importBody cap 0 p t)) :=
  next_serve_passes ho h

/-- A session that holds the image of a capsule (04 R110), otherwise as it stands. -/
def Session.receiving (x : Session) (img : SessionImage) : Session := { x with incoming := some img }

/-- The place that an import finds for its capsules: where, and the state with the demotions that it needs. -/
def importPlace (cap : SessionCapsule) (slot wake : Nat) (s : State) : Option (Nat × State) := placePark slot (incomingBytes cap.body) wake s

/-- The state in which an import's capsules have their place. -/
def importBase (cap : SessionCapsule) (slot wake : Nat) (s : State) : State := ((importPlace cap slot wake s).map (fun r => r.2)).getD s

/-- The state `u` whose session in a slot holds an import's capsule, with its operation queued for the place found in `s`. -/
def importQueued (p : Packet) (cap : SessionCapsule) (slot wake : Nat) (s u : State) : State :=
  addOp .sessionIn slot (incomingBytes cap.body) 0 cap.body.grade 0 p.client (((importPlace cap slot wake s).map (fun r => r.1)).getD 2)
    (modSession slot (Session.receiving · cap.body) u)

/-- The state `u` in which a free slot is taken by the session of a capsule. -/
def importedAt (p : Packet) (cap : SessionCapsule) (slot : Nat) (u : State) : State :=
  putSession slot (fromImage cap.body (sessionAt u slot) (argOf p 20 1) p.client u.comp.epoch (stamp u)) (takeSlot u)

theorem offOps_importBase (cap : SessionCapsule) (slot wake : Nat) (s : State) : offOps (importBase cap slot wake s) = offOps s := by
  unfold importBase
  cases h : importPlace cap slot wake s with
  | none => rfl
  | some r => exact offOps_placePark h

/-- With no session of the handle here, the first check that fails is the answer; where none fails and the Mover has capacity, a session is made of the capsule (04 R110). -/
theorem importBody_new {cap : SessionCapsule} {q : Partition} (hq : partitionAt t (argOf p 20 1) = some q) (hlive : liveSlot t (handleOf p) = none)
    (hready : slotsReady t = true) (hleave : isLeaving t = false) (hn : nextSlot t = some slot) :
    (∀ a, importRefusal p (argOf p 20 1) q cap (importPlace cap slot cap.body.wake t).isSome t = some a → importBody cap 0 p t = reply p a t)
      ∧ (importRefusal p (argOf p 20 1) q cap (importPlace cap slot cap.body.wake t).isSome t = none → moverFits (incomingBytes cap.body) 0 t = true →
        importBody cap 0 p t = accept p (.capsuleIn slot)
          (importQueued p cap slot cap.body.wake t (importedAt p cap slot (importBase cap slot cap.body.wake t)))) := by
  refine ⟨fun a ha => ?_, fun hr hm => ?_⟩
  · unfold importPlace at ha
    simp only [importBody, hq, hlive, hready, hleave, hn, ha, Option.isSome_none, Option.isNone_none, Option.getD_some, Bool.not_true, Bool.false_eq_true,
      and_false, if_false]
  · unfold importPlace at hr
    simp only [importBody, hq, hlive, hready, hleave, hn, hr, hm, Option.isSome_none, Option.isNone_none, Option.getD_some, Bool.not_true, Bool.false_eq_true,
      and_false, if_false]
    rfl

/-- An exported session that is PARKED here takes the capsule itself. -/
theorem importBody_back {cap : SessionCapsule} {q : Partition} (hq : partitionAt t (argOf p 20 1) = some q) (hlive : liveSlot t (handleOf p) = some slot)
    (hst : (sessionAt t slot).d.state = 3) (hexp : (sessionAt t slot).exported = true) (hop : opOf t slot (fun o => o.kind == .sessionIn) = none)
    (hready : slotsReady t = true)
    (hr : importRefusal p (argOf p 20 1) q cap (importPlace cap slot (sessionAt t slot).d.wake t).isSome t = none)
    (hm : moverFits (incomingBytes cap.body) 0 t = true) :
    importBody cap 0 p t = accept p (.capsuleIn slot)
      (importQueued p cap slot (sessionAt t slot).d.wake t (importBase cap slot (sessionAt t slot).d.wake t)) := by
  have hs : stateRefusal (sessionAt t slot) [3] t = none := stateRefusal_none (by simp [hst]) t
  unfold importPlace at hr
  simp only [importBody, hq, hlive, hs, hexp, hop, hready, hr, hm, Option.isSome_some, Option.isNone_some, Option.isNone_none, Option.getD_some, Bool.not_true,
    Bool.false_eq_true, false_and, and_self, if_false, if_true]
  rfl

/-- The queued import holds the capsule, and changes no other session. -/
theorem importQueued_keeps (p : Packet) (cap : SessionCapsule) (slot wake : Nat) (s u : State) :
    sessionAt (importQueued p cap slot wake s u) slot = (sessionAt u slot).receiving cap.body
      ∧ (∃ o ∈ (importQueued p cap slot wake s u).tier.ops, o.slot = slot ∧ o.kind = .sessionIn)
      ∧ (∀ n, n ≠ slot → sessionAt (importQueued p cap slot wake s u) n = sessionAt u n) ∧ (importQueued p cap slot wake s u).mem = u.mem := by
  obtain ⟨o, ho, hslot, hkind, -⟩ := addOp_queues .sessionIn slot (incomingBytes cap.body) 0 cap.body.grade 0 p.client
    (((importPlace cap slot wake s).map (fun r => r.1)).getD 2) (modSession slot (Session.receiving · cap.body) u)
  unfold importQueued
  refine ⟨?_, ⟨o, ho, hslot, hkind⟩, fun n hn => ?_, rfl⟩
  · rw [addOp_sessionAt, sessionAt_modSession_same]
  · rw [addOp_sessionAt, sessionAt_modSession_other _ _ hn]

theorem importBase_keeps (cap : SessionCapsule) (slot wake : Nat) (s : State) :
    (∀ n, sessionAt (importBase cap slot wake s) n = sessionAt s n) ∧ (importBase cap slot wake s).mem = s.mem :=
  ⟨sessionAt_of_table (eq_of_aside offOps (fun s => s.slots.table) (fun _ => rfl) (offOps_importBase cap slot wake s)),
    eq_of_aside offOps State.mem (fun _ => rfl) (offOps_importBase cap slot wake s)⟩

theorem importedAt_keeps (p : Packet) (cap : SessionCapsule) (slot : Nat) (u : State) :
    sessionAt (importedAt p cap slot u) slot = fromImage cap.body (sessionAt u slot) (argOf p 20 1) p.client u.comp.epoch (stamp u)
      ∧ (∀ n, n ≠ slot → sessionAt (importedAt p cap slot u) n = sessionAt u n) ∧ (importedAt p cap slot u).mem = u.mem := by
  unfold importedAt
  refine ⟨sessionAt_putSession_same _ _ _, fun n hn => ?_, ?_⟩
  · rw [sessionAt_putSession_other _ _ hn, takeSlot_sessionAt]
  · rw [putSession_mem, takeSlot_mem]

/-- Settles O29: the body is read up to the Mover's capacity, and the session that holds the capsule is read past the place that was made for it. -/
theorem exportAndImportScheduled : Obligations.ExportAndImportScheduled := by
  refine ⟨?out, ?new, ?back⟩
  case out =>
    intro p bytes codec s t ho h hst hready hexp hho hops hbuf hb hc
    obtain ⟨full, fits⟩ := exportBody_decides hst hready hexp hho hops hbuf
    rw [execSessionExport_passes ho h]
    subst hb hc
    refine ⟨fun hm => by rw [full hm]; rfl, fun hm => ⟨exportQueued p t, by rw [fits hm]; rfl, ?_, rfl, rfl⟩⟩
    obtain ⟨o, hmem, hslot, hkind, -, -, hbuffer, hclient⟩ := addOp_queues .sessionOut (slotOf p t) (exportMove t (sessionAt t (slotOf p t)))
      (exportCodec t (sessionAt t (slotOf p t))) (parkGrade t (sessionAt t (slotOf p t))) (bufAddr p 0x20) p.client 4 (dropOps (yieldsTo (slotOf p t)) t)
    exact ⟨o, hmem, hslot, hkind, hbuffer, hclient⟩
  case new =>
    intro p cap q slot s t ho h hq hlive hready hleave hn
    obtain ⟨refused, admitted⟩ := importBody_new hq hlive hready hleave hn
    rw [execSessionImport_passes ho h]
    refine ⟨fun a ha => by rw [refused a ha]; rfl, fun hr hm => ⟨_, by rw [admitted hr hm]; rfl, ?_⟩⟩
    obtain ⟨hbase, hbmem⟩ := importBase_keeps cap slot cap.body.wake t
    obtain ⟨hx, hop, hothers, hmem⟩ := importQueued_keeps p cap slot cap.body.wake t (importedAt p cap slot (importBase cap slot cap.body.wake t))
    obtain ⟨hy, hyothers, hymem⟩ := importedAt_keeps p cap slot (importBase cap slot cap.body.wake t)
    rw [hx, hy, hbase]
    exact ⟨rfl, rfl, rfl, rfl, rfl, hop, fun n hn => by rw [hothers n hn, hyothers n hn, hbase], hmem.trans (hymem.trans hbmem)⟩
  case back =>
    intro p cap q slot s t ho h hq hlive hst hexp hop hready hr hm
    obtain ⟨hbase, hbmem⟩ := importBase_keeps cap slot (sessionAt t slot).d.wake t
    obtain ⟨hx, hq', hothers, hmem⟩ := importQueued_keeps p cap slot (sessionAt t slot).d.wake t (importBase cap slot (sessionAt t slot).d.wake t)
    rw [execSessionImport_passes ho h, importBody_back hq hlive hst hexp hop hready hr hm]
    exact ⟨_, rfl, by rw [hx, hbase]; rfl, hq', fun n hn => by rw [hothers n hn, hbase], hmem.trans hbmem⟩

end Sys2Proof.Machine
end

section
/-! SUPPORT for O30 and O31. What replies, frames and Mover work leave of messages, counters and handovers. -/

namespace Sys2Proof.Machine

variable {s t : State} {slot : Nat}

@[simp] theorem Session.owing_handover (x : Session) (b : Bool) : (x.owing b).handover = x.handover := rfl
@[simp] theorem Session.owing_body (x : Session) (b : Bool) : (x.owing b).body = x.body := rfl
@[simp] theorem Session.owing_tail (x : Session) (b : Bool) : (x.owing b).tail = x.tail := rfl
@[simp] theorem Session.owing_rebuild (x : Session) (b : Bool) : (x.owing b).rebuild = x.rebuild := rfl

/-! ### Replies that add to messages and counters -/

theorem raiseReplyVector_msgs (n : Nat) (s : State) : (raiseReplyVector n s).out.msgs = s.out.msgs := by
  unfold raiseReplyVector
  dsimp only
  split <;> rfl

theorem writeReply_msgs (r : Reply) (s : State) : (writeReply r s).out.msgs = s.out.msgs := by
  unfold writeReply
  split
  · rfl
  · exact raiseReplyVector_msgs _ _

/-- A reply to another device leaves as a message; no message is taken back. -/
theorem landReply_msgs (o : Origin) (final : Bool) (r : Reply) (s : State) : s.out.msgs ⊆ (landReply o final r s).out.msgs := by
  unfold landReply
  split
  · exact List.subset_append_left _ _
  · exact fun _ hm => (writeReply_msgs _ _).symm ▸ hm

/-- A status that is no authentication fault leaves no record (13 R374). -/
theorem countStatus_out {o : Origin} {a : Ans} (h : a.status ≠ stAUTH_FAIL) (s : State) : (countStatus o a s).out = s.out := by
  unfold countStatus
  rw [if_neg h]
  split
  · rfl
  · split
    · rfl
    · split <;> rfl

theorem replyTo_msgs {a : Ans} (h : a.status ≠ stAUTH_FAIL) (o : Origin) (final : Bool) (s : State) : s.out.msgs ⊆ (replyTo o final a s).out.msgs := by
  unfold replyTo
  extract_lets _ owed s1 st dt s2
  have h1 : s1.out = s.out := by
    clear_value owed
    cases owed <;> rfl
  have h2 : s2.out = s.out := (countStatus_out h s1).trans h1
  exact h2 ▸ landReply_msgs _ _ _ s2

theorem finish_msgs {a : Ans} (h : a.status ≠ stAUTH_FAIL) (w : Work) (s : State) : s.out.msgs ⊆ (finish w a s).out.msgs :=
  foldl_induct (fun t => s.out.msgs ⊆ t.out.msgs) (fun _ c ht => List.Subset.trans ht (replyTo_msgs h c.origin true _)) _ (List.Subset.refl _)

/-- OK is counted nowhere (11 R314). -/
theorem replyTo_counters_ok {a : Ans} (h : a.status = stOK) (o : Origin) (final : Bool) (s : State) : (replyTo o final a s).counters = s.counters := by
  unfold replyTo
  extract_lets _ owed s1 st dt s2
  have h1 : s1.counters = s.counters := by
    clear_value owed
    cases owed <;> rfl
  have h2 : s2 = s1 := by simp [s2, countStatus, h, stOK, stTHROTTLED, stBUSY, stNO_RESOURCE, stAUTH_FAIL]
  rw [landReply_counters, h2, h1]

theorem finish_counters_ok {a : Ans} (h : a.status = stOK) (w : Work) (s : State) : (finish w a s).counters = s.counters :=
  foldl_keeps State.counters (fun _ _ => replyTo_counters_ok h _ _ _) _ _

/-- Once a piece of work is finished, no command waits for it. -/
theorem commandOf_finish (w : Work) (a : Ans) (s : State) : commandOf (finish w a s) w = none :=
  commandOf_eq_none fun c hc => by
    rw [finish_commands] at hc
    simpa using (List.mem_filter.1 hc).2

/-! ### Handovers that end early (12 R343) -/

/-- A session whose handover is over, otherwise as it stands. -/
def Session.handedBack (x : Session) : Session :=
  { x with handover := none, dirty := [], d := { x.d with copying := false, copyPasses := 0, peer := 0 } }

/-- A source that reverts a handover hands its session back, tells the target if it is to, and then answers the command. -/
theorem revertHandover_source {ho : Handover} (hh : (sessionAt s slot).handover = some ho) (hs : ho.source = true) (tell : Bool) (a : Ans) :
    ∃ u y, revertHandover slot tell a s = finish (.handover slot) a u ∧ sessionAt u slot = Session.handedBack y ∧ u.mem = s.mem
      ∧ (tell = true → .hoAbort ho.peer (sessionHandle s slot) ho.newHandle a.status ∈ u.out.msgs) := by
  unfold revertHandover
  extract_lets x
  split
  · next e => cases hh.symm.trans e
  · next ho' e =>
    obtain rfl : ho = ho' := Option.some.inj (hh.symm.trans e)
    rw [if_neg (by simp [hs])]
    extract_lets s1 back s2 s3 s4
    have h2 : s2.mem = s1.mem ∧ s2.out = s1.out := by
      unfold s2
      split <;> exact ⟨rfl, rfl⟩
    have h1 : s1.mem = s.mem := by
      unfold s1
      split <;> rfl
    refine ⟨s4, sessionAt s2 slot, rfl, sessionAt_modSession_same slot Session.handedBack s2, h2.1.trans h1, fun htell => ?_⟩
    change _ ∈ s2.out.msgs
    rw [h2.2]
    unfold s1
    rw [if_pos htell]
    exact List.mem_append_right _ (List.mem_singleton_self _)

/-- A handover that is reverted is over, its copy too, and no command waits for it. -/
theorem revertHandover_reverts {ho : Handover} (hh : (sessionAt s slot).handover = some ho) (hs : ho.source = true) (tell : Bool) (a : Ans) :
    (sessionAt (revertHandover slot tell a s) slot).handover = none ∧ (sessionAt (revertHandover slot tell a s) slot).d.copying = false
      ∧ commandOf (revertHandover slot tell a s) (.handover slot) = none ∧ (revertHandover slot tell a s).mem = s.mem := by
  obtain ⟨u, y, e, hu, hm, -⟩ := revertHandover_source hh hs tell a
  obtain ⟨b, hb⟩ := finish_session (.handover slot) a u slot
  rw [e, hb, hu, finish_mem, hm]
  exact ⟨rfl, rfl, commandOf_finish _ _ _, rfl⟩

/-- The target that is told of it is told the reply's status. -/
theorem revertHandover_tells {ho : Handover} {a : Ans} (hh : (sessionAt s slot).handover = some ho) (hs : ho.source = true) (ha : a.status ≠ stAUTH_FAIL) :
    .hoAbort ho.peer (sessionHandle s slot) ho.newHandle a.status ∈ (revertHandover slot true a s).out.msgs := by
  obtain ⟨u, y, e, -, -, htold⟩ := revertHandover_source hh hs true a
  rw [e]
  exact finish_msgs ha _ u (htold rfl)

theorem revertOpen_reverts {ho : Handover} (hh : (sessionAt s slot).handover = some ho) (hs : ho.source = true) (tell : Bool) :
    (sessionAt (revertOpen slot tell s) slot).handover = none ∧ commandOf (revertOpen slot tell s) (.handover slot) = none
      ∧ (revertOpen slot tell s).mem = s.mem := by
  obtain ⟨hnone, -, hcom, hmem⟩ := revertHandover_reverts (s := (freeValue s).2) hh hs tell { status := stNO_RESOURCE, detail := (freeValue s).1 % 2 ^ 16 }
  exact ⟨hnone, hcom, hmem⟩

/-! ### Slots and frames that return -/

theorem offFrames_frameDue (a : Nat) (s : State) : offFrames (frameDue a s) = offFrames s := offFrames_framesDue [a] s

theorem offFrames_lendPages (peer : Nat) (x : Session) (s : State) : offFrames (lendPages peer x s) = offFrames s := by
  refine foldl_keeps offFrames (fun s g => ?_) _ s
  split
  · rfl
  · extract_lets _ s1 s2
    have h1 : offFrames s1 = offFrames s := by
      unfold s1
      split <;> rfl
    have h2 : offFrames s2 = offFrames s1 := by
      unfold s2
      split
      · exact offFrames_putFrame _ _ s1
      · rfl
    exact (offFrames_frameDue _ s2).trans (h2.trans h1)

theorem dropSegment_freed (n : Nat) (s : State) : (dropSegment n s).slots.freed = s.slots.freed := by
  unfold dropSegment
  split <;> rfl

/-- A slot that falls free joins the order of free slots (03 R64). -/
theorem freeSlot_freed (slot : Nat) (s : State) : (freeSlot slot s).slots.freed = s.slots.freed ++ [slot] := by
  unfold freeSlot
  extract_lets x s1 s2 s3 s4
  have h2 : s2.slots = s.slots := by
    unfold s2
    split
    · rw [releaseSet_slots, releaseSet_slots]
    · rw [releaseSet_slots]
  have h3 : s3.slots.freed = s.slots.freed := (foldl_keeps (fun s : State => s.slots.freed) (fun s n => dropSegment_freed n s) _ _).trans (by rw [h2])
  exact congrArg (· ++ [slot]) h3

end Sys2Proof.Machine
end

section
/-! PROOF of O30. Handovers at their source (04 R122 to R124; 12 R342, R343): the request, the grants, the target's answer, its confirmation, and the ends without one. -/

namespace Sys2Proof.Machine

variable {p : Packet} {s t : State} {slot : Nat}

/-! ### HANDOVER_OUT -/

theorem execHandoverOut_passes (ho : opcodeOf p = 0x30) (h : passes behindShift p s = some t) :
    exec (.handoverOut p) s = .next (dropRecognised p (handoverOutBody 0 p t)) :=
  next_serve_passes ho h

/-- The source's record of a handover that it asks for. -/
def sourceRecord (s : State) (slot target : Nat) : Handover :=
  ⟨true, target, 0, sessionHandle s slot, (sessionAt s slot).d.state, false, false,
    ownRing s (sessionAt s slot).d.partition target && (sessionAt s slot).d.state != 3, 0⟩

/-- A session with the source's record of its handover, otherwise as it stands. -/
def Session.handingOut (x : Session) (ho : Handover) : Session :=
  { x with handover := some ho, d := { x.d with peer := ho.peer, copying := decide (ho.prior ≠ 3), copyPasses := 0 } }

/-- The state in which the target has been asked: a PARKED session is MOVING. -/
def handoverAsked (target slot : Nat) (s : State) : State :=
  let s1 := dropOps (yieldsTo slot) s
  let s2 := if (sessionAt s slot).d.state = 3 then setState slot 4 s1 else s1
  send (.hoRequest target (requestOf s slot)) (modSession slot (Session.handingOut · (sourceRecord s slot target)) s2)

theorem requestOf_state (s : State) (slot : Nat) : (requestOf s slot).state = (sessionAt s slot).d.state := by
  unfold requestOf
  extract_lets x n
  split <;> rfl

theorem handoverOutBody_refused (hst : (sessionAt t (slotOf p t)).d.state ∈ [1, 2, 3]) :
    (isMember t (argOf p 20 2) = false → handoverOutBody 0 p t = reply p (bad 0x14) t)
      ∧ (isMember t (argOf p 20 2) = true → (sessionAt t (slotOf p t)).handover ≠ none → handoverOutBody 0 p t = reply p (busy 0xFFFF) t) := by
  refine ⟨fun hm => ?_, fun hm hh => ?_⟩
  · simp only [handoverOutBody, stateRefusal_none hst t, hm, Bool.not_false, if_true]
  · have hsome : (sessionAt t (slotOf p t)).handover.isSome = true := Option.isSome_iff_ne_none.2 hh
    simp only [handoverOutBody, stateRefusal_none hst t, hm, hsome, Bool.not_true, Bool.false_eq_true, or_true, if_false, if_true]

/-- Stream slots decide first, and then, unless the session is PARKED, the Mover's capacity (12 R342). -/
theorem handoverOutBody_decides (hst : (sessionAt t (slotOf p t)).d.state ∈ [1, 2, 3]) (hm : isMember t (argOf p 20 2) = true)
    (hready : slotsReady t = true) (hh : (sessionAt t (slotOf p t)).handover = none) (hops : ∀ o ∈ t.tier.ops, o.slot ≠ slotOf p t) :
    (256 < migrHeld t + 4 → handoverOutBody 0 p t = reply p (noResource 0x000A) t)
      ∧ (migrHeld t + 4 ≤ 256 → (sessionAt t (slotOf p t)).d.state ≠ 3 → moverFits (2 * tileBytesOf t (sessionAt t (slotOf p t))) 0 t = false →
        handoverOutBody 0 p t = reply p (busy (beatsToBoundary t)) t)
      ∧ (migrHeld t + 4 ≤ 256 → ((sessionAt t (slotOf p t)).d.state = 3 ∨ moverFits (2 * tileBytesOf t (sessionAt t (slotOf p t))) 0 t = true) →
        handoverOutBody 0 p t = await (.handover (slotOf p t)) (originOf p (handoverAsked (argOf p 20 2) (slotOf p t) t))
          (handoverAsked (argOf p 20 2) (slotOf p t) t)) := by
  have hbody : handoverOutBody 0 p t = if 256 < migrHeld t + 4 then reply p (noResource 0x000A) t
      else if (sessionAt t (slotOf p t)).d.state ≠ 3 ∧ !moverFits (2 * tileBytesOf t (sessionAt t (slotOf p t))) 0 t then reply p (busy (beatsToBoundary t)) t
      else await (.handover (slotOf p t)) (originOf p (handoverAsked (argOf p 20 2) (slotOf p t) t)) (handoverAsked (argOf p 20 2) (slotOf p t) t) := by
    simp only [handoverOutBody, stateRefusal_none hst t, hm, hready, hh, opOf_none hops, requestOf_state, Bool.not_true, Bool.false_eq_true, Option.isSome_none,
      or_self, if_false]
    rfl
  rw [hbody]
  refine ⟨fun hn => if_pos hn, fun hn h3 hf => ?_, fun hn hok => ?_⟩
  · rw [if_neg (Nat.not_lt.2 hn), if_pos ⟨h3, by simp [hf]⟩]
  · rw [if_neg (Nat.not_lt.2 hn), if_neg]
    rintro ⟨h3, hno⟩
    rcases hok with h | h
    · exact h3 h
    · simp [h] at hno

theorem originOf_congr {s t : State} (hcomp : t.comp = s.comp) (hclients : t.clients = s.clients) (hcad : t.cad = s.cad) (p : Packet) :
    originOf p t = originOf p s := by
  simp only [originOf, clientOf, hcomp, hclients, hcad]

/-- The session that is asked for: COPYING, or MOVING where it was PARKED. -/
theorem handoverAsked_session (target slot : Nat) (s : State) :
    (sessionAt (handoverAsked target slot s) slot).d.state = (if (sessionAt s slot).d.state = 3 then 4 else (sessionAt s slot).d.state)
      ∧ (sessionAt (handoverAsked target slot s) slot).d.copying = decide ((sessionAt s slot).d.state ≠ 3)
      ∧ (sessionAt (handoverAsked target slot s) slot).d.peer = target
      ∧ (sessionAt (handoverAsked target slot s) slot).handover = some (sourceRecord s slot target) := by
  unfold handoverAsked
  extract_lets s1 s2
  have h2 : (sessionAt s2 slot).d.state = if (sessionAt s slot).d.state = 3 then 4 else (sessionAt s slot).d.state := by
    unfold s2
    split
    · rw [setState, sessionAt_modSession_same]
    · rfl
  have hx : sessionAt (send (.hoRequest target (requestOf s slot)) (modSession slot (Session.handingOut · (sourceRecord s slot target)) s2)) slot
      = (sessionAt s2 slot).handingOut (sourceRecord s slot target) :=
    sessionAt_modSession_same slot (Session.handingOut · (sourceRecord s slot target)) s2
  rw [hx]
  exact ⟨h2, rfl, rfl, rfl⟩

/-- What asking the target leaves of the rest. -/
theorem handoverAsked_keeps (target slot : Nat) (s : State) :
    (handoverAsked target slot s).out = { s.out with msgs := s.out.msgs ++ [.hoRequest target (requestOf s slot)] }
      ∧ (handoverAsked target slot s).commands = s.commands ∧ (handoverAsked target slot s).mem = s.mem
      ∧ ∀ p, originOf p (handoverAsked target slot s) = originOf p s := by
  unfold handoverAsked
  extract_lets s1 s2
  rcases Decidable.em ((sessionAt s slot).d.state = 3) with h | h
  · have h2 : s2 = setState slot 4 s1 := if_pos h
    rw [h2]
    exact ⟨rfl, rfl, rfl, originOf_congr rfl rfl rfl⟩
  · have h2 : s2 = s1 := if_neg h
    rw [h2]
    exact ⟨rfl, rfl, rfl, originOf_congr rfl rfl rfl⟩

/-! ### HANDOVER_IN -/

theorem execHandoverIn_passes (ho : opcodeOf p = 0x31) (h : passes never p s = some t) :
    exec (.handoverIn p) s = .next (dropRecognised p (handoverInBody 0 p t)) :=
  next_serve_passes ho h

/-- The grants after one is set, 0 removing it (11 R311). -/
def grantsWith (part source n : Nat) (l : List (Nat × Nat × Nat)) : List (Nat × Nat × Nat) :=
  l.filter (fun g => !(g.1 == part && g.2.1 == source)) ++ (if n = 0 then [] else [(part, source, n)])

theorem handoverInBody_refused :
    (partitionAt t (argOf p 20 1) = none → handoverInBody 0 p t = reply p (bad 0x14) t)
      ∧ (partitionAt t (argOf p 20 1) ≠ none → 4095 < argOf p 22 2 → argOf p 22 2 ≠ 0xFFFF → handoverInBody 0 p t = reply p (bad 0x16) t) := by
  refine ⟨fun hq => ?_, fun hq hlo hne => ?_⟩
  · simp only [handoverInBody, hq, Option.isNone_none, if_true]
  · have hsome : (partitionAt t (argOf p 20 1)).isNone = false := Option.isNone_eq_false_iff.2 (Option.isSome_iff_ne_none.2 hq)
    simp only [handoverInBody, hsome, hlo, hne, ne_eq, not_false_eq_true, and_self, Bool.false_eq_true, if_false, if_true]

theorem handoverInBody_grants (hq : partitionAt t (argOf p 20 1) ≠ none) (hsrc : argOf p 22 2 ≤ 4095 ∨ argOf p 22 2 = 0xFFFF) (hserved : slotsServed t = true) :
    handoverInBody 0 p t = reply p
      { status := stOK, count0 := ((grantsWith (argOf p 20 1) (argOf p 22 2) (argOf p 24 4) t.comp.grants).foldl (fun n g => n + g.2.2) 0) % 2 ^ 32 }
      { t with comp := { t.comp with grants := grantsWith (argOf p 20 1) (argOf p 22 2) (argOf p 24 4) t.comp.grants } } := by
  have hsome : (partitionAt t (argOf p 20 1)).isNone = false := Option.isNone_eq_false_iff.2 (Option.isSome_iff_ne_none.2 hq)
  have hrange : ¬ (4095 < argOf p 22 2 ∧ argOf p 22 2 ≠ 0xFFFF) := by omega
  have hgrants : ∀ l : List (Nat × Nat × Nat), (if argOf p 24 4 = 0 then l else l ++ [(argOf p 20 1, argOf p 22 2, argOf p 24 4)])
      = l ++ (if argOf p 24 4 = 0 then [] else [(argOf p 20 1, argOf p 22 2, argOf p 24 4)]) := fun l => by
    split
    · rw [List.append_nil]
    · rfl
  simp only [handoverInBody, hsome, hrange, hserved, hgrants, grantsWith, Bool.not_true, Bool.false_eq_true, if_false]

/-! ### The target's answer -/

theorem execHoAnswer_refused {handle status newHandle : Nat} {ho : Handover} (hl : liveSlot s handle = some slot)
    (hh : (sessionAt s slot).handover = some ho) (hs : ho.source = true) (hn : ho.newHandle = 0) (hst : status ≠ stOK) :
    exec (.hoAnswer handle status newHandle) s
      = .next (revertHandover slot false { status := status, detail := if status = stNO_RESOURCE then 0x000B else 0 } s) := by
  change execHoAnswer handle status newHandle s = _
  simp [execHoAnswer, hl, Option.filter, hh, hs, hn, hst]

theorem execHoAnswer_accepted {handle newHandle : Nat} {ho : Handover} (hl : liveSlot s handle = some slot)
    (hh : (sessionAt s slot).handover = some ho) (hs : ho.source = true) (hn : ho.newHandle = 0) :
    exec (.hoAnswer handle stOK newHandle) s = .next (startHandover slot newHandle s) := by
  change execHoAnswer handle stOK newHandle s = _
  simp [execHoAnswer, hl, Option.filter, hh, hs, hn]

/-- What a copy starts with: its first pass, and its final pass reserved (04 R123). -/
theorem startCopy_queues (k : Nat) (s : State) :
    (∃ o ∈ (startCopy k s).tier.ops, o.slot = k ∧ o.kind = .copyPass) ∧ (∃ o ∈ (startCopy k s).tier.ops, o.slot = k ∧ o.kind = .finalPass) := by
  obtain ⟨o, ho, hslot, hkind, -⟩ := addOp_queues .copyPass k ((holder s k).dirty.length * tileSize s k) 0 0 0 0 0 s
  obtain ⟨r, hr, rslot, rkind, -⟩ := addOp_queues .finalPass k ((holder s k).dirty.length * tileSize s k) 0 0 0 0 0 (nextCopy k s)
  exact ⟨⟨o, List.mem_append_left _ ho, hslot, hkind⟩, ⟨r, hr, rslot, rkind⟩⟩

/-- A session with a record of its handover, otherwise as it stands. -/
def Session.recording (x : Session) (ho : Handover) : Session := { x with handover := some ho }

/-- The state in which HANDOVER_OUT has its ACCEPTED. -/
def handoverReplied (slot : Nat) (s : State) : State :=
  match commandOf s (.handover slot) with | some c => replyTo c.origin false { status := stACCEPTED } s | none => s

theorem handoverReplied_keeps (slot : Nat) (s : State) :
    (∃ b, sessionAt (handoverReplied slot s) slot = (sessionAt s slot).owing b) ∧ (handoverReplied slot s).mem = s.mem := by
  unfold handoverReplied
  split
  · exact ⟨replyTo_session _ _ _ _ _, replyTo_mem _ _ _ _⟩
  · exact ⟨⟨_, rfl⟩, rfl⟩

/-- An accepted handover of a session that was not PARKED starts its copy with the new handle in its record. -/
theorem startHandover_copies {ho : Handover} (newHandle : Nat) (hh : (sessionAt s slot).handover = some ho) (hp : ho.prior ≠ 3) :
    ∃ u, startHandover slot newHandle s = startCopy slot u ∧ (sessionAt u slot).handover = some { ho with newHandle := newHandle } ∧ u.mem = s.mem := by
  unfold startHandover
  extract_lets x s1
  split
  · next e => cases hh.symm.trans e
  · next ho' e =>
    obtain rfl : ho = ho' := Option.some.inj (hh.symm.trans e)
    extract_lets _ s2 _ _ tiles s3 s4
    rw [if_neg hp]
    have h1 : s1.mem = s.mem := (handoverReplied_keeps slot s).2
    have h3 : (sessionAt s3 slot).handover = some { ho with newHandle := newHandle } := by
      change (sessionAt (modSession slot _ (modSession slot _ s1)) slot).handover = _
      rw [sessionAt_modSession_same, sessionAt_modSession_same]
    have h4 : sessionAt s4 slot = sessionAt s3 slot ∧ s4.mem = s3.mem := by
      unfold s4
      split
      · exact ⟨rfl, rfl⟩
      · exact ⟨foldl_keeps (fun s => sessionAt s slot) (fun _ _ => by rfl) _ s3, foldl_keeps State.mem (fun _ _ => by rfl) _ s3⟩
    exact ⟨s4, rfl, by rw [h4.1, h3], h4.2.trans h1⟩

theorem ownPages_keeps (peer : Nat) (l : List Page) (s : State) : (ownPages peer l s).2.slots = s.slots ∧ (ownPages peer l s).2.mem = s.mem := by
  induction l generalizing s with
  | nil => exact ⟨rfl, rfl⟩
  | cons g rest ih =>
    unfold ownPages
    split
    · exact ih s
    · extract_lets mine ref lender _ s1 r
      have h1 : s1.slots = s.slots ∧ s1.mem = s.mem := by
        unfold s1
        split
        · exact ⟨putFrame_slots _ _ _, eq_of_aside offPages State.mem (fun _ => rfl) (offPages_putFrame _ _ _)⟩
        · exact ⟨rfl, rfl⟩
      exact ⟨(ih s1).1.trans h1.1, (ih s1).2.trans h1.2⟩

/-- An accepted handover of a PARKED session: the ownership transfer carries the session as it stands (04 R124). -/
theorem startHandover_transfers {ho : Handover} (newHandle : Nat) (hh : (sessionAt s slot).handover = some ho) (hp : ho.prior = 3) :
    ∃ u l b, startHandover slot newHandle s = send (.hoOwnership ho.peer newHandle (imageOf u slot l [])) u
      ∧ sessionAt u slot = ((sessionAt s slot).owing b).recording { ho with newHandle := newHandle, finalSent := true } ∧ u.mem = s.mem := by
  unfold startHandover
  extract_lets x s1
  split
  · next e => cases hh.symm.trans e
  · next ho' e =>
    obtain rfl : ho = ho' := Option.some.inj (hh.symm.trans e)
    extract_lets _ s2 r s3
    rw [if_pos hp]
    obtain ⟨⟨b, hb⟩, h1⟩ := handoverReplied_keeps slot s
    obtain ⟨hslots, hmem⟩ := ownPages_keeps ho.peer x.pages s2
    have h2 : sessionAt s2 slot = ((sessionAt s slot).owing b).recording { ho with newHandle := newHandle } := by
      rw [← hb]
      exact sessionAt_modSession_same slot (Session.recording · { ho with newHandle := newHandle }) s1
    refine ⟨s3, r.1, b, rfl, ?_, hmem.trans h1⟩
    change sessionAt (modSession slot _ r.2) slot = _
    rw [sessionAt_modSession_same, sessionAt_of_table (congrArg Slots.table hslots), h2]
    rfl

/-! ### Confirmation -/

/-- A session that has gone to its new home (03 R89), its record kept until some beat. -/
def Session.goneTo (x : Session) (newHandle : Nat) (grace : Option Nat) : Session :=
  { x with
    pages := [], handover := none, dirty := [], sending := [], drafts := [], con := { x.con with set := none }, graceEnd := grace
    d := { x.d with newHome := newHandle, copying := false, copyPasses := 0 } }

/-- The target has the session: its record goes REMOTE, the handover is counted, and then the command is answered. -/
theorem confirmHandover_leaves {ho : Handover} (newHandle : Nat) (hh : (sessionAt s slot).handover = some ho) :
    ∃ u y grace, confirmHandover slot newHandle s = finish (.handover slot) ok u ∧ sessionAt u slot = Session.goneTo y newHandle grace ∧ y.d.state = 5
      ∧ u.counters.handoversOut = satAdd (2 ^ 64 - 1) s.counters.handoversOut 1 := by
  unfold confirmHandover
  extract_lets x
  split
  · next e => cases hh.symm.trans e
  · next ho' e =>
    extract_lets near s1 s2 grace s3 s4 s5 _ s6
    have h1 : s1.counters = s.counters := by
      unfold s1
      split
      · rfl
      · split
        · exact eq_of_aside offFrames State.counters (fun _ => rfl) (offFrames_lendPages _ _ s)
        · exact eq_of_aside offFrames State.counters (fun _ => rfl) (offFrames_framesDue _ s)
    have h3 : s3.counters = s.counters := (eq_of_aside offSlots State.counters (s := s2) (fun _ => rfl) (offSlots_releaseSet _ s2)).trans h1
    refine ⟨s6, sessionAt s3 slot, grace, rfl, sessionAt_modSession_same slot (Session.goneTo · newHandle grace) s3, ?_, ?_⟩
    · rw [releaseSet_sessionAt]
      exact congrArg (fun x : Session => x.d.state) (sessionAt_modSession_same slot _ s1)
    · change satAdd (2 ^ 64 - 1) s3.counters.handoversOut 1 = _
      rw [h3]

theorem confirmHandover_confirms {ho : Handover} (newHandle : Nat) (hh : (sessionAt s slot).handover = some ho) :
    (sessionAt (confirmHandover slot newHandle s) slot).d.state = 5 ∧ (sessionAt (confirmHandover slot newHandle s) slot).d.newHome = newHandle
      ∧ (sessionAt (confirmHandover slot newHandle s) slot).pages = [] ∧ (sessionAt (confirmHandover slot newHandle s) slot).handover = none
      ∧ commandOf (confirmHandover slot newHandle s) (.handover slot) = none
      ∧ (confirmHandover slot newHandle s).counters.handoversOut = satAdd (2 ^ 64 - 1) s.counters.handoversOut 1 := by
  obtain ⟨u, y, grace, e, hu, hy, hc⟩ := confirmHandover_leaves newHandle hh
  obtain ⟨b, hb⟩ := finish_session (.handover slot) ok u slot
  rw [e, hb, hu, finish_counters_ok rfl, hc]
  exact ⟨hy, rfl, rfl, rfl, commandOf_finish _ _ _, rfl⟩

theorem execHoConfirm_due {handle newHandle epoch : Nat} {ho : Handover} (hl : liveSlot s handle = some slot) (hh : (sessionAt s slot).handover = some ho)
    (hs : ho.source = true) (hn : ho.newHandle = newHandle) (hf : ho.finalSent = true) (he : epoch = s.comp.epoch ∨ epoch = s.comp.previous) :
    exec (.hoConfirm handle newHandle epoch) s = .next (confirmHandover slot newHandle s) := by
  change execHoConfirm handle newHandle epoch s = _
  simp [execHoConfirm, hl, Option.filter, hh, hs, hn, hf, he]

theorem execHoConfirm_over {handle newHandle epoch : Nat} (hl : liveSlot s handle = none) :
    exec (.hoConfirm handle newHandle epoch) s = .next (send (.hoAbort (handleHome newHandle) handle newHandle stCANCELLED) s) := by
  change execHoConfirm handle newHandle epoch s = _
  simp [execHoConfirm, hl]

/-! ### Ends without a confirmation -/

theorem execHoTimeout_accepted {ho : Handover} (hh : (sessionAt s slot).handover = some ho) (hs : ho.source = true) (hn : ho.newHandle ≠ 0) :
    exec (.hoTimeout slot) s = .next (revertOpen slot true s) := by
  change execHoTimeout slot s = _
  simp [execHoTimeout, hh, hs, hn]

theorem execHoAbort_source {handle newHandle status : Nat} {ho : Handover} (ht : targetSlot s newHandle = none) (hl : liveSlot s handle = some slot)
    (hh : (sessionAt s slot).handover = some ho) (hs : ho.source = true) (hn : ho.newHandle = newHandle) (hst : status ≠ stOK) :
    exec (.hoAbort handle newHandle status) s = .next (revertOpen slot false s) := by
  change execHoAbort handle newHandle status s = _
  simp [execHoAbort, ht, hl, hh, hs, hn, hst]

/-- Settles O30: each message of a handover is followed into the operation that it calls at the source, and the session is read there. -/
theorem handoversAtSource : Obligations.HandoversAtSource := by
  refine ⟨?asks, ?grants, ?refused, ?copies, ?transfers, ?confirmed, ?late, ?timeout, ?aborted⟩
  case asks =>
    intro p s t ho h hst
    obtain ⟨noMember, again⟩ := handoverOutBody_refused hst
    rw [execHandoverOut_passes ho h]
    refine ⟨fun hm => by rw [noMember hm]; rfl, fun hm hh => by rw [again hm hh]; rfl, fun hm hready hh hops => ?_⟩
    obtain ⟨noStreams, noMover, asked⟩ := handoverOutBody_decides hst hm hready hh hops
    refine ⟨fun hn => by rw [noStreams hn]; rfl, fun hn h3 hf => by rw [noMover hn h3 hf]; rfl, fun hn hok => ⟨_, by rw [asked hn hok], ?_⟩⟩
    obtain ⟨hout, hcom, hmem, horigin⟩ := handoverAsked_keeps (argOf p 20 2) (slotOf p t) t
    obtain ⟨hstate, hcopy, hpeer, hrec⟩ := handoverAsked_session (argOf p 20 2) (slotOf p t) t
    rw [dropRecognised_sessionAt, dropRecognised_out, dropRecognised_commands, dropRecognised_mem, await_sessionAt, await_out, await_commands, await_mem,
      hout, hcom, hmem, horigin]
    exact ⟨rfl, hstate, hcopy, hpeer, ⟨_, hrec, rfl, rfl⟩, rfl, rfl⟩
  case grants =>
    intro p grants s t ho h
    obtain ⟨noPart, noSource⟩ := handoverInBody_refused (p := p) (t := t)
    rw [execHandoverIn_passes ho h]
    refine ⟨fun hq => by rw [noPart hq]; rfl, fun hq hlo hne => by rw [noSource hq hlo hne]; rfl, fun hq hsrc hserved hg => ?_⟩
    rw [handoverInBody_grants hq hsrc hserved, hg]
    rfl
  case refused =>
    intro handle status newHandle slot ho s hl hh hs hn hst
    exact ⟨_, execHoAnswer_refused hl hh hs hn hst, revertHandover_reverts hh hs _ _⟩
  case copies =>
    intro handle newHandle slot ho s hl hh hs hn hp
    obtain ⟨u, e, hho, hmem⟩ := startHandover_copies newHandle hh hp
    obtain ⟨hcopy, hfinal⟩ := startCopy_queues slot u
    exact ⟨_, (execHoAnswer_accepted hl hh hs hn).trans (congrArg _ e), hho, hcopy, hfinal, hmem⟩
  case transfers =>
    intro handle newHandle slot ho s hl hh hs hn hp
    obtain ⟨u, l, b, e, hx, hmem⟩ := startHandover_transfers newHandle hh hp
    refine ⟨_, imageOf u slot l [], (execHoAnswer_accepted hl hh hs hn).trans (congrArg _ e), congrArg Session.handover hx,
      List.mem_append_right _ (List.mem_singleton_self _), ?_, ?_, hmem⟩
    · change (sessionAt u slot).d.committed = _
      rw [hx]
      rfl
    · change (sessionAt u slot).body ++ (sessionAt u slot).tail = _
      rw [hx]
      rfl
  case confirmed =>
    intro handle newHandle slot epoch ho s hl hh hs hn hf he
    exact ⟨_, execHoConfirm_due hl hh hs hn hf he, confirmHandover_confirms newHandle hh⟩
  case late =>
    intro handle newHandle epoch s hl
    exact execHoConfirm_over hl
  case timeout =>
    intro slot ho s hh hs hn
    obtain ⟨hnone, hcom, hmem⟩ := revertOpen_reverts hh hs true
    exact ⟨_, execHoTimeout_accepted hh hs hn, hnone, hcom, hmem, revertHandover_tells (s := (freeValue s).2) hh hs (show stNO_RESOURCE ≠ stAUTH_FAIL by decide)⟩
  case aborted =>
    intro handle newHandle slot status ho s ht hl hh hs hn hst
    exact ⟨_, execHoAbort_source ht hl hh hs hn hst, revertOpen_reverts hh hs false⟩

end Sys2Proof.Machine
end

section
/-! PROOF of O31. Handovers at their target (04 R122 to R124; 12 R342, R343): the request, the image that makes the slot the session itself, and the ends that free it. -/

namespace Sys2Proof.Machine

variable {s t : State} {slot : Nat}

/-! ### The constraint set of an image -/

/-- A session with a constraint state, otherwise as it stands. -/
def Session.constrained (x : Session) (con : ConState) : Session := { x with con := con }

theorem compileSet_keeps {c : ConSet} {x : Session} {i : Nat} (h : compileSet c x s = some (i, t)) : t.slots = s.slots ∧ offSlots t = offSlots s := by
  unfold compileSet at h
  dsimp only at h
  split at h
  · cases h
    exact ⟨holdSet_slots _ s, offSlots_holdSet _ s⟩
  · split at h
    · cases h
    · cases h
      exact ⟨rfl, rfl⟩

/-- The set that an image brings is its session's alone (10 R263). -/
theorem adoptSet_keeps (slot : Nat) (img : SessionImage) (s : State) :
    (∃ con, sessionAt (adoptSet slot img s) slot = (sessionAt s slot).constrained con) ∧ offSlots (adoptSet slot img s) = offSlots s := by
  unfold adoptSet
  extract_lets named _ put
  have hput : ∀ (set : Option Nat) (u : State), (∃ con, sessionAt (put set u) slot = (sessionAt u slot).constrained con) ∧ offSlots (put set u) = offSlots u :=
    fun _ u => ⟨⟨_, sessionAt_modSession_same slot (Session.constrained · _) u⟩, rfl⟩
  split
  · exact hput _ _
  · split
    · next c i u hc =>
      obtain ⟨hslots, hoff⟩ := compileSet_keeps hc
      obtain ⟨⟨con, hcon⟩, hoff'⟩ := hput (some i) u
      exact ⟨⟨con, by rw [hcon, sessionAt_of_table (congrArg Slots.table hslots)]⟩, hoff'.trans hoff⟩
    · exact hput _ _

/-! ### The ledger of an image -/

/-- A session's ledger that waits for the journal: no session changes, and nothing but the queue does. -/
theorem queueLedger_keeps (slot : Nat) (s : State) :
    (∀ n, sessionAt (queueLedger slot s) n = sessionAt s n) ∧ offPages (queueLedger slot s) = offPages s := by
  unfold queueLedger
  extract_lets x h
  exact ⟨fun n => foldl_keeps (fun a : Nat × State => sessionAt a.2 n) (fun a r => queueRun_sessionAt _ _ r a.2 n) x.body (0, s),
    foldl_keeps (fun a : Nat × State => offPages a.2) (fun a _ => offPages_queueRecord _ a.2) x.body (0, s)⟩

theorem lagAtOpen_comp (slot : Nat) (s : State) : (lagAtOpen slot s).comp = s.comp := by
  unfold lagAtOpen
  split
  · rfl
  · dsimp only
    split
    · rfl
    · exact report_comp _ _ _

/-! ### The session that the slot becomes -/

/-- The session that an image makes of the target's: RESIDENT, or PARKED where it was PARKED at the source (03 R89). -/
def settledSession (img : SessionImage) (x : Session) (prior epoch now : Nat) (pages : List Page) : Session :=
  let y := fromImage img x x.d.partition img.client epoch now
  { y with pages := pages, d := { y.d with state := if prior = 3 then 3 else 1 } }

/-- The state with one more handover completed here. -/
def countHandoverIn (s : State) : State :=
  { s with counters := { s.counters with handoversIn := satAdd (2 ^ 64 - 1) s.counters.handoversIn 1 } }

/-- The image settles the session, the handover is counted, and the source is told. -/
theorem settleTarget_settles {ho : Handover} (img : SessionImage) (pages : List Page) (hh : (sessionAt s slot).handover = some ho) :
    ∃ u con l b, settleTarget slot img pages s = send (.hoConfirm ho.peer ho.oldHandle (sessionHandle u slot) s.comp.epoch) u
      ∧ sessionAt u slot = (((settledSession img (sessionAt s slot) ho.prior s.comp.epoch (stamp s) pages).constrained con).onSegments l).lagging b
      ∧ u.counters.handoversIn = satAdd (2 ^ 64 - 1) s.counters.handoversIn 1 := by
  unfold settleTarget
  extract_lets x y _
  split
  · next e => cases hh.symm.trans e
  · next ho' e =>
    obtain rfl : ho = ho' := Option.some.inj (hh.symm.trans e)
    extract_lets st s1 s2 _ s3
    set c := countHandoverIn s2
    obtain ⟨⟨con, hcon⟩, hoff⟩ := adoptSet_keeps slot img s1
    obtain ⟨⟨l, hl⟩, -⟩ := growSegments_session slot c
    obtain ⟨⟨b, hb⟩, -⟩ := lagAtOpen_session slot (growSegments slot c)
    obtain ⟨hq, hqoff⟩ := queueLedger_keeps slot (lagAtOpen slot (growSegments slot c))
    have hcomp : s3.comp = s.comp := calc
      s3.comp = (growSegments slot c).comp := (eq_of_aside offPages State.comp (s := lagAtOpen slot (growSegments slot c)) (fun _ => rfl) hqoff).trans (lagAtOpen_comp _ _)
      _ = c.comp := eq_of_aside offPages State.comp (fun _ => rfl) (offPages_growSegments slot c)
      _ = s1.comp := eq_of_aside offSlots State.comp (s := s1) (t := s2) (fun _ => rfl) hoff
    have hcount : s3.counters = c.counters := calc
      s3.counters = (growSegments slot c).counters :=
        (eq_of_aside offPages State.counters (s := lagAtOpen slot (growSegments slot c)) (fun _ => rfl) hqoff).trans (lagAtOpen_keeps _ _).2
      _ = c.counters := eq_of_aside offPages State.counters (fun _ => rfl) (offPages_growSegments slot c)
    have h2 : s2.counters = s.counters := eq_of_aside offSlots State.counters (s := s1) (t := s2) (fun _ => rfl) hoff
    refine ⟨s3, con, l, b, by rw [hcomp], ?_, by rw [hcount]; exact congrArg (fun k => satAdd (2 ^ 64 - 1) k.handoversIn 1) h2⟩
    change sessionAt (queueLedger slot (lagAtOpen slot (growSegments slot c))) slot = _
    rw [hq, hb, hl]
    change ((sessionAt s2 slot).onSegments l).lagging b = _
    rw [hcon, sessionAt_putSession_same]
    rfl

/-- A frame is taken or found for each page: no session changes. -/
theorem arrivedPages_keeps (slot old : Nat) (l : List Page) (s : State) :
    (arrivedPages slot old l s).2.slots = s.slots ∧ offPages (arrivedPages slot old l s).2 = offPages s := by
  induction l generalizing s with
  | nil => exact ⟨rfl, rfl⟩
  | cons g rest ih =>
    unfold arrivedPages
    extract_lets x y _ r b
    have hr : r.2.slots = s.slots ∧ offPages r.2 = offPages s := by
      unfold r
      split
      · exact ⟨rfl, rfl⟩
      · split
        · exact ⟨rfl, rfl⟩
        · exact ⟨takeFrame_slots _ s, offPages_takeFrame _ s⟩
    exact ⟨(ih r.2).1.trans hr.1, (ih r.2).2.trans hr.2⟩

theorem ownedPages_keeps (slot part : Nat) (l : List Page) (s : State) :
    (ownedPages slot part l s).2.slots = s.slots ∧ offPages (ownedPages slot part l s).2 = offPages s := by
  induction l generalizing s with
  | nil => exact ⟨rfl, rfl⟩
  | cons g rest ih =>
    unfold ownedPages
    split
    · exact ih s
    · extract_lets lender ref a mine _ n s1 r
      have h1 : s1.slots = s.slots ∧ offPages s1 = offPages s := by
        unfold s1
        clear_value mine
        cases mine <;> exact ⟨putFrame_slots _ _ _, offPages_putFrame _ _ _⟩
      exact ⟨(ih s1).1.trans h1.1, (ih s1).2.trans h1.2⟩

/-- What is taken for an image leaves the session, the counters and the composition that settle it. -/
theorem settles_after {u : State} (hs : ∀ n, sessionAt u n = sessionAt s n) (ho : offPages u = offPages s) :
    u.counters = s.counters ∧ u.comp = s.comp ∧ ∀ n, sessionAt u n = sessionAt s n :=
  ⟨eq_of_aside offPages State.counters (fun _ => rfl) ho, eq_of_aside offPages State.comp (fun _ => rfl) ho, hs⟩

theorem execHoFinal_target {newHandle : Nat} (img : SessionImage) (h : targetSlot s newHandle = some slot) :
    ∃ u pages, exec (.hoFinal newHandle img) s = .next (settleTarget slot img pages u) ∧ u.counters = s.counters ∧ u.comp = s.comp
      ∧ ∀ n, sessionAt u n = sessionAt s n := by
  obtain ⟨hslots, hoff⟩ := arrivedPages_keeps slot (((sessionAt s slot).handover.map (fun ho => ho.oldHandle)).getD 0) img.pages s
  set r := arrivedPages slot (((sessionAt s slot).handover.map (fun ho => ho.oldHandle)).getD 0) img.pages s with hr
  refine ⟨dropGuest (((sessionAt s slot).handover.map (fun ho => ho.oldHandle)).getD 0) r.2, r.1, ?_,
    settles_after (fun n => sessionAt_of_table (congrArg Slots.table hslots) n) hoff⟩
  change execHoFinal newHandle img s = _
  simp only [execHoFinal, h, hr]

theorem execHoOwnership_target {newHandle : Nat} (img : SessionImage) (h : targetSlot s newHandle = some slot) :
    ∃ u pages, exec (.hoOwnership newHandle img) s = .next (settleTarget slot img pages u) ∧ u.counters = s.counters ∧ u.comp = s.comp
      ∧ ∀ n, sessionAt u n = sessionAt s n := by
  obtain ⟨hslots, hoff⟩ := ownedPages_keeps slot (sessionAt s slot).d.partition img.pages s
  set r := ownedPages slot (sessionAt s slot).d.partition img.pages s with hr
  refine ⟨r.2, r.1, ?_, settles_after (fun n => sessionAt_of_table (congrArg Slots.table hslots) n) hoff⟩
  change execHoOwnership newHandle img s = _
  simp only [execHoOwnership, h, hr]

/-! ### Slots that fall free -/

/-- A target's slot falls free with its frames, in its next generation (12 R343). -/
theorem freeTarget_session (slot : Nat) (s : State) : sessionAt (freeTarget slot s) slot = { gen := nextGen (sessionAt s slot).gen } := by
  rw [freeTarget, freeSlot_session, framesDue_sessionAt]

theorem execHoAbort_target {handle newHandle status : Nat} (h : targetSlot s newHandle = some slot) :
    exec (.hoAbort handle newHandle status) s = .next (freeTarget slot s) := by
  change execHoAbort handle newHandle status s = _
  simp only [execHoAbort, h]

theorem execFreeTargetSlot_target {n : SessionNotice} (h : targetSlot s n.handle = some slot) : exec (.freeTargetSlot n) s = .next (freeTarget slot s) := by
  change execFreeTargetSlot n s = _
  simp only [execFreeTargetSlot, h]

theorem execHoTargetGrace_moving {ho : Handover} (hst : (sessionAt s slot).d.state = 4) (hh : (sessionAt s slot).handover = some ho) (hs : ho.source = false) :
    exec (.hoTargetGrace slot) s = .next (freeTarget slot s) := by
  change execHoTargetGrace slot s = _
  simp [execHoTargetGrace, hst, hh, hs]

theorem execRemoteGraceEnd_remote (hst : (sessionAt s slot).d.state = 5) : exec (.remoteGraceEnd slot) s = .next (freeSlot slot s) :=
  congrArg Host.Outcome.next (if_pos hst)

/-! ### HO_REQUEST -/

/-- The target's record of a handover. -/
def targetRecord (r : HoRequest) (s : State) : Handover :=
  ⟨false, r.source, 0, r.handle, r.state, false, false, ownRing s r.partition r.source && r.state != 3,
    if r.state = 3 ∨ ownRing s r.partition r.source then 0 else r.pages⟩

/-- The session that a request makes: MOVING in its partition, under the slot's generation. -/
def requestedSession (r : HoRequest) (gen : Nat) (s : State) : Session :=
  { gen := gen, d := { state := 4, partition := r.partition, lastBeat := stamp s, epoch := s.comp.epoch }, handover := some (targetRecord r s) }

/-- The state in which a request has its slot. -/
def requestTaken (r : HoRequest) (g : Nat × Nat × Nat) (slot : Nat) (s : State) : State :=
  let s1 := takeSlot (useGrant g s)
  putSession slot (requestedSession r (sessionAt s1 slot).gen s1) s1

theorem execHoRequest_taken {r : HoRequest} {g : Nat × Nat × Nat} (hok : hoStatus r s = stOK) (hn : nextSlot s = some slot)
    (hg : grantOpen s r.partition r.source = some g) :
    exec (.hoRequest r) s = .next (send (.hoAnswer r.source r.handle stOK (sessionHandle (requestTaken r g slot s) slot)) (requestTaken r g slot s)) := by
  change execHoRequest r s = _
  simp only [execHoRequest, hok, hn, hg, ne_eq, not_true_eq_false, if_false]
  rfl

theorem execHoRequest_refused {r : HoRequest} (h : hoStatus r s ≠ stOK) :
    exec (.hoRequest r) s = .next (send (.hoAnswer r.source r.handle (hoStatus r s) 0) s) := by
  change execHoRequest r s = _
  unfold execHoRequest
  dsimp only
  split
  · rw [if_pos h]
  · rfl

theorem hoStatus_noGrant {r : HoRequest} (h : grantOpen s r.partition r.source = none) : hoStatus r s = stNO_RESOURCE := by
  unfold hoStatus
  rw [if_pos (Or.inl (by rw [h]; rfl))]

/-- A slot that is taken is counted among the slots only. -/
theorem takeSlot_eq (s : State) : takeSlot s = { s with slots := (takeSlot s).slots } := by
  unfold takeSlot
  split <;> rfl

theorem requestTaken_keeps (r : HoRequest) (g : Nat × Nat × Nat) (slot : Nat) (s : State) :
    (∃ u, sessionAt (requestTaken r g slot s) slot = requestedSession r (sessionAt s slot).gen u)
      ∧ (∀ n, n ≠ slot → sessionAt (requestTaken r g slot s) n = sessionAt s n)
      ∧ (requestTaken r g slot s).comp.grants = (s.comp.grants.map (fun x => if x = g then (x.1, x.2.1, x.2.2 - 1) else x)).filter (fun x => decide (0 < x.2.2))
      ∧ (requestTaken r g slot s).out = s.out ∧ (requestTaken r g slot s).mem = s.mem ∧ (requestTaken r g slot s).tier = s.tier := by
  unfold requestTaken
  extract_lets s1
  have hs : ∀ n, sessionAt s1 n = sessionAt s n := fun n => takeSlot_sessionAt (useGrant g s) n
  have he : s1 = { useGrant g s with slots := s1.slots } := takeSlot_eq (useGrant g s)
  refine ⟨⟨s1, ?_⟩, fun n hn => ?_, ?_, ?_, ?_, ?_⟩
  · rw [sessionAt_putSession_same, hs]
  · rw [sessionAt_putSession_other _ _ hn, hs]
  all_goals
    simp only [putSession_comp, putSession_out, putSession_mem, putSession_tier]
    rw [he]
    rfl

/-- Settles O31: an image is followed into the session that it settles, every other end into the slot that falls free, and a request into the slot that it takes. -/
theorem handoversAtTarget : Obligations.HandoversAtTarget := by
  refine ⟨?final, ?ownership, ?aborted, ?deadSource, ?grace, ?remote, ?taken, fun r s h => execHoRequest_refused h, fun r s h => hoStatus_noGrant h⟩
  case final =>
    intro newHandle slot img ho s ht hh hp
    obtain ⟨u, pages, e, hcount, hcomp, hs⟩ := execHoFinal_target img ht
    obtain ⟨v, con, l, b, e', hv, hin⟩ := settleTarget_settles (s := u) img pages ((congrArg Session.handover (hs slot)).trans hh)
    refine ⟨_, e.trans (congrArg _ e'), ?_⟩
    change (sessionAt v slot).d.state = 1 ∧ (sessionAt v slot).d.committed = _ ∧ (sessionAt v slot).body = _ ∧ (sessionAt v slot).counts = _
      ∧ (sessionAt v slot).handover = _ ∧ v.counters.handoversIn = _ ∧ _
    rw [hv, hin, hcount, ← hcomp]
    exact ⟨if_neg hp, rfl, rfl, rfl, rfl, rfl, List.mem_append_right _ (List.mem_singleton_self _)⟩
  case ownership =>
    intro newHandle slot img ho s ht hh hp
    obtain ⟨u, pages, e, -, hcomp, hs⟩ := execHoOwnership_target img ht
    obtain ⟨v, con, l, b, e', hv, -⟩ := settleTarget_settles (s := u) img pages ((congrArg Session.handover (hs slot)).trans hh)
    refine ⟨_, e.trans (congrArg _ e'), ?_⟩
    change (sessionAt v slot).d.state = 3 ∧ (sessionAt v slot).d.committed = _ ∧ (sessionAt v slot).body = _ ∧ (sessionAt v slot).handover = _ ∧ _
    rw [hv, ← hcomp]
    exact ⟨if_pos hp, rfl, rfl, rfl, List.mem_append_right _ (List.mem_singleton_self _)⟩
  case aborted =>
    intro handle newHandle slot status s ht
    exact ⟨_, execHoAbort_target ht, by rw [freeTarget_session], by rw [freeTarget_session]⟩
  case deadSource =>
    intro n slot s ht
    exact ⟨_, execFreeTargetSlot_target ht, by rw [freeTarget_session], by rw [freeTarget_session]⟩
  case grace =>
    intro slot ho s hst hh hs
    exact ⟨_, execHoTargetGrace_moving hst hh hs, by rw [freeTarget_session], by rw [freeTarget_session]⟩
  case remote =>
    intro slot s hst
    exact ⟨_, execRemoteGraceEnd_remote hst, by rw [freeSlot_session], by rw [freeSlot_session], freeSlot_freed slot s⟩
  case taken =>
    intro r slot g s hok hn hg
    obtain ⟨⟨u, hu⟩, hothers, hgrants, hout, hmem, htier⟩ := requestTaken_keeps r g slot s
    refine ⟨_, execHoRequest_taken hok hn hg, ?_⟩
    change (sessionAt (requestTaken r g slot s) slot).d.state = _ ∧ (sessionAt (requestTaken r g slot s) slot).d.partition = _
      ∧ (sessionAt (requestTaken r g slot s) slot).gen = _ ∧ _
    rw [hu, send_out, hout]
    exact ⟨rfl, rfl, rfl, hgrants, hothers, rfl, hmem, htier⟩

end Sys2Proof.Machine
end

section
/-! PROOF of O35. The Commons of T3 (04 R118, R127; 12 R340): capsules lent and returned, and the sessions that a lost or unsound one sends to REBUILDING. -/

namespace Sys2Proof.Machine

variable {s : State} {slot : Nat}

/-! ### A session that goes to REBUILDING -/

/-- The session of which only the ledger stands, REBUILDING from position 0 (03 R93). -/
def Session.rebuilding (x : Session) (now : Nat) : Session :=
  { x with
    pages := [], drafts := [], cologne := [], rebuild := some ⟨0, replayStop x⟩
    d := { x.d with state := 7, lastBeat := now, parkPending := false, revivePending := false, copying := false } }

theorem reportCandidate_flags (slot : Nat) (cand : Bool) (s : State) : (reportCandidate slot cand s).flags = s.flags := by
  unfold reportCandidate
  extract_lets
  split
  · rfl
  · split
    · rfl
    · split <;> rfl

theorem endEmptyReplay_flags (slot : Nat) (s : State) : (endEmptyReplay slot s).flags = s.flags := by
  unfold endEmptyReplay
  extract_lets
  split
  · exact reportCandidate_flags _ _ _
  · rfl

/-- A replay that has positions to replay goes on. -/
theorem endEmptyReplay_replaying {r : Rebuild} (hr : (sessionAt s slot).rebuild = some r) (hlt : r.next < r.stop) : endEmptyReplay slot s = s :=
  if_neg (fun ⟨_, h, _⟩ => by simp [hr, Nat.not_le.2 hlt] at h)

/-- The state in which a rebuild has begun and the session's commands are answered. -/
theorem enterRebuilding_begins (hst : (sessionAt s slot).d.state = 1 ∨ (sessionAt s slot).d.state = 2 ∨ (sessionAt s slot).d.state = 3) :
    ∃ t now b, enterRebuilding slot s = endEmptyReplay slot (reportCandidate slot true t) ∧ FlagsStay s t
      ∧ sessionAt t slot = ((sessionAt s slot).rebuilding now).owing b := by
  unfold enterRebuilding
  extract_lets x h f cause s1 s2 s3 s4 s5 _ _ s6 s7 s8 s9 s10
  rw [if_pos hst]
  suffices h : ∃ b, FlagsStay s s10 ∧ sessionAt s10 slot = (x.rebuilding (stamp s3)).owing b from ⟨s10, _, h.choose, rfl, h.choose_spec⟩
  obtain ⟨b8, h8⟩ := finish_session (.park slot) { status := stREBUILDING } s7 slot
  obtain ⟨b9, h9⟩ := finish_session (.revive slot) { status := stREBUILDING } s8 slot
  obtain ⟨b10, h10⟩ := finish_session (.capsuleOut slot) { status := stREBUILDING } s9 slot
  have h3 : sessionAt s3 slot = x := (framesDue_sessionAt _ s2 slot).trans (withdraw_sessionAt h s1 slot)
  have h7 : sessionAt s7 slot = x.rebuilding (stamp s3) := calc
    sessionAt s7 slot = sessionAt s5 slot := sessionAt_of_table (congrArg Slots.table (report_slots _ _ s6)) slot
    _ = x.rebuilding (stamp s3) := by
      unfold s5 s4 setState
      rw [sessionAt_modSession_same, sessionAt_modSession_same, h3]
      rfl
  have hflags : s3.flags = s.flags := calc
    s3.flags = s2.flags := eq_of_aside offFrames State.flags (fun _ => rfl) (offFrames_framesDue _ s2)
    _ = s.flags := withdraw_view State.flags (fun _ _ => rfl) (fun _ _ => rfl) h s1
  have hfin : FlagsStay s7 s10 := ((((Steady.refl s7).finish _ _).finish _ _).finish _ _).flags
  have h7f : FlagsStay s s7 := (FlagsStay.of_eq (t := s6) hflags).report _ _
  refine ⟨b10, h7f.trans hfin, ?_⟩
  rw [h10, h9, h8, h7]
  rfl

theorem enterRebuilding_session (hst : (sessionAt s slot).d.state = 1 ∨ (sessionAt s slot).d.state = 2 ∨ (sessionAt s slot).d.state = 3)
    (hstop : 0 < replayStop (sessionAt s slot)) :
    ∃ now b, sessionAt (enterRebuilding slot s) slot = ((sessionAt s slot).rebuilding now).owing b := by
  obtain ⟨t, now, b, e, -, ht⟩ := enterRebuilding_begins hst
  have hc : sessionAt (reportCandidate slot true t) slot = ((sessionAt s slot).rebuilding now).owing b := (reportCandidate_sessionAt _ _ _ _).trans ht
  exact ⟨now, b, by rw [e, endEmptyReplay_replaying (congrArg Session.rebuild hc) hstop, hc]⟩

theorem FlagsStay.enterRebuilding (slot : Nat) {t : State} (h : FlagsStay s t) : FlagsStay s (enterRebuilding slot t) := by
  by_cases hst : (sessionAt t slot).d.state = 1 ∨ (sessionAt t slot).d.state = 2 ∨ (sessionAt t slot).d.state = 3
  · obtain ⟨u, now, b, e, hu, -⟩ := enterRebuilding_begins hst
    rw [e]
    exact (h.trans hu).trans (.of_eq ((endEmptyReplay_flags _ _).trans (reportCandidate_flags _ _ _)))
  · exact h.trans (.of_eq (congrArg State.flags (if_neg hst)))

/-! ### A capsule that is not sound -/

theorem spoilPage_keeps (addr : Nat) (s : State) : (spoilPage addr s).flags = s.flags ∧ (spoilPage addr s).slots = s.slots := by
  unfold spoilPage
  split <;> exact ⟨rfl, rfl⟩

theorem FlagsStay.badFrame (addr : Nat) {t : State} (h : FlagsStay s t) : FlagsStay s (badFrame addr t) :=
  foldl_induct (FlagsStay s) (fun _ slot hu => hu.enterRebuilding slot) _ (h.trans (.of_eq (spoilPage_keeps addr t).1))

/-- A session alone in the table, with the frame on its page list, is the one that the frame sends to REBUILDING. -/
theorem sessionsOn_alone {x : Session} {addr : Nat} (ht : s.slots.table = [(slot, x)]) (hst : x.d.state = 1 ∨ x.d.state = 2 ∨ x.d.state = 3)
    (ha : addr ≠ 0) (hp : ∃ p ∈ x.pages, p.frame = addr) : sessionsOn s addr = [slot] := by
  obtain ⟨p, hm, rfl⟩ := hp
  have hne : x.d.state ≠ 0 := by omega
  have hany : x.pages.any (fun q => q.frame == p.frame && q.frame != 0) = true := List.any_eq_true.2 ⟨p, hm, by simp [ha]⟩
  simp [sessionsOn, ht, hne, hany]

theorem sessionAt_alone {x : Session} (ht : s.slots.table = [(slot, x)]) : sessionAt s slot = x := by
  simp [sessionAt, ht, FMap.getD, FMap.get?]

theorem badFrame_alone {x : Session} {addr : Nat} (ht : s.slots.table = [(slot, x)]) (hst : x.d.state = 1 ∨ x.d.state = 2 ∨ x.d.state = 3)
    (hstop : 0 < replayStop x) (ha : addr ≠ 0) (hp : ∃ p ∈ x.pages, p.frame = addr) : (sessionAt (badFrame addr s) slot).d.state = 7 := by
  have hx : sessionAt (spoilPage addr s) slot = x :=
    (sessionAt_of_table (congrArg Slots.table (spoilPage_keeps addr s).2) slot).trans (sessionAt_alone ht)
  obtain ⟨now, b, h⟩ := enterRebuilding_session (s := spoilPage addr s) (slot := slot) (by rwa [hx]) (by rwa [hx])
  rw [badFrame, sessionsOn_alone ht hst ha hp]
  exact congrArg (fun y => y.d.state) h

/-! ### Capsules lent -/

theorem lentTo_unique {l : Lent} (hl : l ∈ s.tier.lent) (hu : ∀ m ∈ s.tier.lent, m.borrower = l.borrower → m.ref = l.ref → m = l) :
    lentTo s l.borrower l.ref = some l := by
  unfold lentTo
  cases h : s.tier.lent.find? (fun m => m.borrower == l.borrower && m.ref == l.ref) with
  | none => simpa using List.find?_eq_none.1 h l hl
  | some m =>
    have hm := List.find?_some h
    simp only [Bool.and_eq_true, beq_iff_eq] at hm
    rw [hu m (List.mem_of_find?_eq_some h) hm.1 hm.2]

theorem lentTo_unknown {borrower ref : Nat} (h : ∀ l ∈ s.tier.lent, l.ref ≠ ref) : lentTo s borrower ref = none := by
  have hn : ∀ p : Lent → Bool, s.tier.lent.find? (fun l => p l && l.ref == ref) = none := fun p => List.find?_eq_none.2 (fun l hl => by simp [h l hl])
  unfold lentTo
  rw [hn (fun l => l.borrower == borrower)]
  exact List.find?_eq_none.2 (fun l hl => by simp [h l hl])

theorem execCapsuleGet_lent {l : Lent} (h : lentTo s l.borrower l.ref = some l) :
    exec (.capsuleGet l.borrower l.ref) s = .next (send (.capsuleData l.borrower l.ref l.body) s) := by
  change execCapsuleGet l.borrower l.ref s = _
  have hid : (fun m : Lent => if m = l then { m with borrower := l.borrower } else m) = id := by
    funext m
    split
    · next e => rw [e]; rfl
    · rfl
  simp only [execCapsuleGet, h, hid, List.map_id]

theorem execCapsuleFree_lent {l : Lent} (h : lentTo s l.borrower l.ref = some l) :
    exec (.capsuleFree l.borrower l.ref) s = .next { s with tier := { s.tier with lent := s.tier.lent.filter (fun m => !decide (m = l)) } } := by
  change execCapsuleFree l.borrower l.ref s = _
  simp only [execCapsuleFree, h]

theorem execCapsuleGet_unknown {borrower ref : Nat} (h : lentTo s borrower ref = none) : exec (.capsuleGet borrower ref) s = .next s := by
  change execCapsuleGet borrower ref s = _
  simp only [execCapsuleGet, h]

theorem execCapsuleFree_unknown {borrower ref : Nat} (h : lentTo s borrower ref = none) : exec (.capsuleFree borrower ref) s = .next s := by
  change execCapsuleFree borrower ref s = _
  simp only [execCapsuleFree, h]

/-! ### Capsules returned and lost -/

section
variable {ref lender addr : Nat} {f : Frame} {q : Partition} {body : Bytes}

theorem execCapsuleData_sound (hf : s.tier.frames.find? (fun e => e.2.tier == 3 && e.2.lref == ref && e.2.lender == lender) = some (addr, f))
    (hq : partitionAt s f.partition = some q) (hok : capsuleOk q body = true) :
    exec (.capsuleData ref body lender) s = .next (putFrame addr { f with length := body.length, capsule := body } s) := by
  change execCapsuleData ref body lender s = _
  simp only [execCapsuleData, hf, hq, hok, if_true]

theorem execCapsuleData_unsound (hf : s.tier.frames.find? (fun e => e.2.tier == 3 && e.2.lref == ref && e.2.lender == lender) = some (addr, f))
    (hq : partitionAt s f.partition = some q) (hok : capsuleOk q body = false) :
    exec (.capsuleData ref body lender) s = .next (badFrame addr (setFlag offTierEvents 3 s)) := by
  change execCapsuleData ref body lender s = _
  simp only [execCapsuleData, hf, hq, hok, Bool.false_eq_true, if_false]

theorem execCapsuleData_unknown (hf : s.tier.frames.find? (fun e => e.2.tier == 3 && e.2.lref == ref && e.2.lender == lender) = none) :
    exec (.capsuleData ref body lender) s = .next s := by
  change execCapsuleData ref body lender s = _
  simp only [execCapsuleData, hf]

end

theorem execCapsuleLostNotice_session {n : SessionNotice} (h : liveSlot s n.handle = some slot) :
    exec (.capsuleLostNotice n) s = .next (enterRebuilding slot s) := by
  change execCapsuleLostNotice n s = _
  simp only [execCapsuleLostNotice, h]

/-- Settles O35: the lent list's find and filter give the borrower's side, a failed capsule goes by its frame to the sessions that name it. -/
theorem commonsKeepsCapsules : Obligations.CommonsKeepsCapsules := by
  refine ⟨?advert, ?kept, ?lent, ?unknown, ?returned, fun ref lender body s h => execCapsuleData_unknown h, ?lost⟩
  case advert =>
    exact fun member freeMiB hops s => ⟨fun h => congrArg Host.Outcome.next (if_pos h), fun h => congrArg Host.Outcome.next (if_neg (by simp [h]))⟩
  case kept =>
    intro borrower ref body s
    constructor
    · intro hm hb hl
      exact congrArg Host.Outcome.next (if_pos ⟨hm, hb, by simpa using hl⟩)
    · intro h
      refine congrArg Host.Outcome.next (if_neg ?_)
      rintro ⟨hm, hb, hl⟩
      rcases h with h | h | ⟨l, hmem, hbor, href⟩
      · cases h.symm.trans hm
      · exact Nat.not_lt.2 hb h
      · simp only [Bool.not_eq_true', List.any_eq_false] at hl
        exact hl l hmem (by simp [hbor, href])
  case lent =>
    exact fun l s hl hu => ⟨execCapsuleGet_lent (lentTo_unique hl hu), execCapsuleFree_lent (lentTo_unique hl hu)⟩
  case unknown =>
    exact fun borrower ref s h => ⟨execCapsuleGet_unknown (lentTo_unknown h), execCapsuleFree_unknown (lentTo_unknown h)⟩
  case returned =>
    intro ref lender addr f q body s hf hq
    refine ⟨execCapsuleData_sound hf hq, fun hok => ⟨_, execCapsuleData_unsound hf hq hok, ?_, ?_⟩⟩
    · exact (FlagsStay.refl _).badFrame addr _ _ (by rw [getFlag_setFlag_same])
    · intro slot x ht hst hstop ha hp
      exact badFrame_alone ((congrArg Slots.table (setFlag_slots _ _ s)).trans ht) hst hstop ha hp
  case lost =>
    intro n slot s hl hst hstop
    obtain ⟨now, b, h⟩ := enterRebuilding_session hst hstop
    exact ⟨_, execCapsuleLostNotice_session hl, congrArg (fun y => y.d.state) h, congrArg Session.pages h, congrArg Session.rebuild h⟩

end Sys2Proof.Machine
end

section
/-! PROOF of O36, refuted. A prefetched revive (04 R119) is scheduled by the free T1 bytes that stand once REVIVE_PENDING is written. The write is FMap.put, which keeps a table whose keys rise, and which gives a table whose keys do not rise a second entry for the session: its reservation then counts twice, and the revive stays pending though its frames were free. -/

namespace Sys2Proof.Machine

/-! ### A table whose keys do not rise -/

/-- An image with one slot, of the Mover lane. -/
def moverOnly : Image :=
  { magic := 0, version := 1, totalBytes := 0, anchor := 0, stepBeats := 64, windowBeats := 4, plazaOffset := 0, plazaBeats := 0
    period := 1, profiles := 0, partitions := 0, kind := 0, slipLead := 0, fallbackLead := 0, zeroOk := true
    dir := [], rings := [], slots := [⟨0, 2, 0, 0, 10, 0, 0, 0, 0, 0, 0, 0, 0, 0, 0, 0⟩], regions := [], mprogs := []
    transfers := [], links := [], patterns := [], trains := [], fallbacks := [], facts := ⟨0, 0, 0⟩ }

/-- A PARKED session with one page outside T1, a wake that is due, and ten frames reserved. -/
def wakingSession : Session :=
  { d := { state := 3, wake := 1 }, pages := [⟨0, 2, false, true, false, false, false, 2, 1, 0⟩], job := some { framesReserved := 10 } }

/-- T1 of sixteen frames; the entry of slot 0 stands behind that of a free slot 1. -/
def tableOutOfOrder : State :=
  { State.reset with
    slots := { State.reset.slots with table := [(1, {}), (0, wakingSession)] }
    tier := { State.reset.tier with t1Total := 1 }
    sched := { State.reset.sched with active := some moverOnly, base := some moverOnly } }

theorem tableOutOfOrder_session : sessionAt tableOutOfOrder 0 = wakingSession := by decide

/-- Six frames are free before the write, and none after it. -/
theorem tableOutOfOrder_frames :
    t1Free tableOutOfOrder = 6 * 2 ^ 16 ∧ t1Free (modSession 0 (fun x => { x with toolQueued := 1, d := { x.d with revivePending := true } }) tableOutOfOrder) = 0
      ∧ reviveNeed tableOutOfOrder wakingSession = 2 ^ 16 := by decide

theorem tableOutOfOrder_fits :
    moverFits (tileBytesOf tableOutOfOrder wakingSession) (reviveCodec tableOutOfOrder wakingSession) tableOutOfOrder = true := by decide +kernel

/-- The revive is due and above the floor, but finds no frames: it stays pending. -/
theorem execPrefetchRevive_tableOutOfOrder :
    exec (.prefetchRevive 0) tableOutOfOrder = .next (prefetchTool 0 tableOutOfOrder) ∧ (prefetchTool 0 tableOutOfOrder).tier.ops = [] := by
  refine ⟨?_, by decide +kernel⟩
  change execPrefetchRevive 0 tableOutOfOrder = _
  unfold execPrefetchRevive
  extract_lets x due
  rw [if_neg (by decide +kernel), if_pos (by decide +kernel)]

/-- Refutes O36 at its wake-driven revive, on `tableOutOfOrder`: the frames are free and the Mover has capacity, and no operation is scheduled. The clause asks nothing of the order of the session table's keys, which `FMap` takes as rising. -/
theorem not_moverSlotsAndPrefetch : ¬ Obligations.MoverSlotsAndPrefetch := by
  rintro ⟨-, -, -, -, -, -, -, -, hrevive, -⟩
  have hx := tableOutOfOrder_session
  obtain ⟨hbefore, -, hneed⟩ := tableOutOfOrder_frames
  obtain ⟨u, hu, -, -, -, -, hfits, -⟩ :=
    (hrevive 0 tableOutOfOrder (by rw [hx]; rfl) (by rw [hx]; rfl) (by rw [hx]; decide) (by rw [hx]; decide +kernel) rfl).1
      (by rw [hx, hbefore, hneed]; decide +kernel) (by rw [hx, hbefore, hneed]; decide)
  obtain ⟨he, hops⟩ := execPrefetchRevive_tableOutOfOrder
  obtain rfl : prefetchTool 0 tableOutOfOrder = u := Host.Outcome.next.inj (he.symm.trans hu)
  obtain ⟨o, ho, -⟩ := hfits (by rw [hx]; exact tableOutOfOrder_fits)
  rw [hops] at ho
  cases ho

end Sys2Proof.Machine
end

section
/-! PROOF of O6. -/

namespace Sys2Proof.Machine

/-- Settles O6: the reset state lists no byte of memory and no command. -/
theorem resetMemoryCanonical : Obligations.ResetMemoryCanonical :=
  ⟨Memory.wf_nil, reset_mem, rfl⟩

end Sys2Proof.Machine
end

section
/-! SUPPORT for O5. What writes no byte of memory, first part: one lemma per operation says that the list of bytes stands as it did. Here the sessions, the cadence, the settings and the staged objects. -/

namespace Sys2Proof.Machine

/-- One state lists the bytes of memory that another lists. A definition, so that its two states are compared as terms. -/
def SameMem (s t : State) : Prop := t.mem = s.mem

theorem SameMem.trans {s t u : State} (a : SameMem s t) (b : SameMem t u) : SameMem s u := Eq.trans b a

@[simp] theorem foldl_mem {α : Type} {f : State → α → State} (hf : ∀ s x, (f s x).mem = s.mem) (l : List α) (s : State) : (l.foldl f s).mem = s.mem :=
  foldl_keeps State.mem hf l s

theorem foldl_same {α : Type} {f : State → α → State} (hf : ∀ s x, SameMem s (f s x)) (l : List α) (s : State) : SameMem s (l.foldl f s) :=
  foldl_mem hf l s

/-! ### Recognition of packets -/

@[simp] theorem recognise_mem (p : Packet) (s : State) : (recognise p s).mem = s.mem := by
  unfold recognise
  dsimp only
  (repeat' split) <;> simp

/-! ### The Session State Engine's shared operations -/

@[simp] theorem putFrame_mem (addr : Nat) (f : Frame) (s : State) : (putFrame addr f s).mem = s.mem :=
  eq_of_aside offPages State.mem (fun _ => rfl) (offPages_putFrame _ _ _)

@[simp] theorem takeFrame_mem (part : Nat) (s : State) : (takeFrame part s).2.mem = s.mem :=
  eq_of_aside offPages State.mem (fun _ => rfl) (offPages_takeFrame _ _)

@[simp] theorem shareFrame_mem (addr : Nat) (s : State) : (shareFrame addr s).mem = s.mem := by
  unfold shareFrame
  split <;> simp

@[simp] theorem releaseSet_mem (set : Option Nat) (s : State) : (releaseSet set s).mem = s.mem :=
  eq_of_aside offSlots State.mem (fun _ => rfl) (offSlots_releaseSet _ _)

@[simp] theorem setState_mem (slot st : Nat) (s : State) : (setState slot st s).mem = s.mem := rfl

@[simp] theorem growSegments_mem (slot : Nat) (s : State) : (growSegments slot s).mem = s.mem := (growSegments_keeps slot s).2

@[simp] theorem shareSegment_mem (n : Nat) (s : State) : (shareSegment n s).mem = s.mem :=
  eq_of_aside offSlots State.mem (fun _ => rfl) (offSlots_shareSegment _ _)

@[simp] theorem queueRecord_mem (r : JournalRecord) (s : State) : (queueRecord r s).mem = s.mem :=
  eq_of_aside offPages State.mem (fun _ => rfl) (offPages_queueRecord _ _)

@[simp] theorem queueLedger_mem (slot : Nat) (s : State) : (queueLedger slot s).mem = s.mem :=
  eq_of_aside offPages State.mem (fun _ => rfl) ((queueLedger_keeps _ _).2)

@[simp] theorem queueMark_mem (handle kind first : Nat) (s : State) : (queueMark handle kind first s).mem = s.mem := by
  simp [queueMark]

@[simp] theorem lagAtOpen_mem (slot : Nat) (s : State) : (lagAtOpen slot s).mem = s.mem := (lagAtOpen_keeps slot s).1

@[simp] theorem appendBody_mem (slot : Nat) (r : Run) (s : State) : (appendBody slot r s).mem = s.mem :=
  eq_of_aside offPages State.mem (fun _ => rfl) (offPages_appendBody _ _ _)

/-- Records of runs queued one after another are no byte of memory. -/
theorem queueRuns_mem (h : Nat) (rs : List Run) (a : Nat × State) :
    (rs.foldl (fun (a : Nat × State) r => (a.1 + runCount r, queueRun h a.1 r a.2)) a).2.mem = a.2.mem :=
  foldl_keeps (fun a : Nat × State => a.2.mem) (fun _ _ => queueRun_mem _ _ _ _) rs a

@[simp] theorem appendCommit_mem (slot : Nat) (rs : List Run) (s : State) : (appendCommit slot rs s).mem = s.mem := by
  unfold appendCommit
  extract_lets x h q fits s'
  have hq : q.2.mem = s.mem := queueRuns_mem h rs _
  rw [modSession_mem]
  unfold s'
  split
  · exact hq
  · rw [growBody_mem, hq]

@[simp] theorem writeRecords_mem (l : List JournalRecord) (s : State) : (writeRecords l s).2.mem = s.mem := (writeRecords_keeps l s).2

@[simp] theorem journalLane_mem (s : State) : (journalLane s).mem = s.mem := (journalLane_keeps s).2

@[simp] theorem freeSlot_mem (slot : Nat) (s : State) : (freeSlot slot s).mem = s.mem :=
  eq_of_aside offSlots State.mem (fun _ => rfl) (offSlots_freeSlot _ _)

@[simp] theorem deliver_mem (slot : Nat) (b : Bytes) (s : State) : (deliver slot b s).mem = s.mem := by
  unfold deliver
  dsimp only
  (repeat' split) <;> simp

@[simp] theorem reportCandidate_mem (slot : Nat) (cand : Bool) (s : State) : (reportCandidate slot cand s).mem = s.mem :=
  (reportCandidate_keeps slot cand s).1

@[simp] theorem withdraw_mem (h : Nat) (s : State) : (withdraw h s).mem = s.mem := by
  unfold withdraw
  extract_lets
  split
  · exact foldl_mem (fun _ _ => send_mem _ _) _ _
  · rfl

@[simp] theorem replayDone_mem (slot : Nat) (s : State) : (replayDone slot s).mem = s.mem := rfl

@[simp] theorem endEmptyReplay_mem (slot : Nat) (s : State) : (endEmptyReplay slot s).mem = s.mem := by
  unfold endEmptyReplay
  simp [apply_ite State.mem]

/-! ### What a beat does when no command waits -/

@[simp] theorem takeSource_mem (s : State) : (takeSource s).mem = s.mem := ((ByCadence.refl s).takeSource).mem

@[simp] theorem tick_mem (s : State) : (tick s).mem = s.mem := by
  simp [tick]

/-! ### The cadence rows -/

@[simp] theorem enterCad_mem (st : CadState) (s : State) : (enterCad st s).mem = s.mem := ((ByCadence.refl s).enterCad st).mem

@[simp] theorem announceDeparture_mem (s : State) : (announceDeparture s).mem = s.mem := by
  unfold announceDeparture
  (repeat' split) <;> simp [apply_ite State.mem]

@[simp] theorem reacquire_mem (s : State) : (reacquire s).mem = s.mem := by
  simp [reacquire]

@[simp] theorem leaveCad_mem (s : State) : (leaveCad s).mem = s.mem := (leaveCad_keeps s).2.1

@[simp] theorem changePeriod_mem (code : Nat) (s : State) : (changePeriod code s).mem = s.mem := by
  simp [changePeriod, apply_ite State.mem]

@[simp] theorem changeMode_mem (mode : Nat) (s : State) : (changeMode mode s).mem = s.mem := by
  simp [changeMode, apply_ite State.mem]

@[simp] theorem markBegins_mem (s : State) : (markBegins s).mem = s.mem := by
  unfold markBegins
  split <;> simp

@[simp] theorem markTaken_mem (sound : Bool) (err : Int) (s : State) : (markTaken sound err s).mem = s.mem := by
  unfold markTaken
  dsimp only
  (repeat' split) <;> simp

@[simp] theorem beatMark_mem (spacingOk : Bool) (arrival : Int) (s : State) : (beatMark spacingOk arrival s).mem = s.mem := by
  unfold beatMark
  (repeat' split) <;> simp [apply_ite State.mem]

@[simp] theorem beatNumber_mem (source : Nat) (b : Bytes) (s : State) : (beatNumber source b s).mem = s.mem := by
  unfold beatNumber
  dsimp only
  (repeat' split) <;> simp

@[simp] theorem moveInstant_mem (err : Int) (s : State) : (moveInstant err s).mem = s.mem := rfl

/-! ### Rail requests over AVSBus -/

@[simp] theorem requestRail_mem (r mV : Nat) (s : State) : (requestRail r mV s).mem = s.mem := rfl

@[simp] theorem raiseRails_mem (mV : Nat) (s : State) : (raiseRails mV s).mem = s.mem := by
  simp [raiseRails, apply_ite State.mem]

@[simp] theorem lowerRails_mem (mV : Nat) (s : State) : (lowerRails mV s).mem = s.mem := by
  simp [lowerRails, apply_ite State.mem]

@[simp] theorem dormantRails_mem (s : State) : (dormantRails s).mem = s.mem :=
  (foldl_mem (fun _ _ => requestRail_mem _ _ _) _ _).trans (foldl_mem (fun _ _ => requestRail_mem _ _ _) _ s)

@[simp] theorem wakeRails_mem (s : State) : (wakeRails s).mem = s.mem :=
  (foldl_mem (fun _ _ => requestRail_mem _ _ _) _ _).trans (raiseRails_mem _ s)

/-! ### The Byte and Constraint Unit -/

theorem compileSet_mem {c : ConSet} {x : Session} {i : Nat} {s t : State} (h : compileSet c x s = some (i, t)) : t.mem = s.mem :=
  eq_of_aside offSlots State.mem (fun _ => rfl) (compileSet_keeps h).2

/-! ### The Mover -/

@[simp] theorem addOp_mem (kind : MoverKind) (slot move codec grade buffer client dest : Nat) (s : State) : (addOp kind slot move codec grade buffer client dest s).mem = s.mem :=
  rfl

@[simp] theorem dropOps_mem (p : MoverOp → Bool) (s : State) : (dropOps p s).mem = s.mem := rfl

@[simp] theorem demoteUntil_mem (need : Nat) (l : List Nat) (s : State) : (demoteUntil need l s).2.mem = s.mem :=
  eq_of_aside offOps State.mem (fun _ => rfl) (offOps_demoteUntil need l s)

theorem placePark_mem {slot space wake : Nat} {s : State} {r : Nat × State} (h : placePark slot space wake s = some r) : r.2.mem = s.mem :=
  eq_of_aside offOps State.mem (fun _ => rfl) (offOps_placePark (dest := r.1) (t := r.2) h)

theorem placePark_same {slot space wake : Nat} {s : State} {r : Nat × State} (h : placePark slot space wake s = some r) : SameMem s r.2 :=
  placePark_mem h

theorem placeParkTo_same (slot space wake : Nat) (s : State) : SameMem s (((placePark slot space wake s).map (fun r => r.2)).getD s) := by
  cases h : placePark slot space wake s with
  | none => exact rfl
  | some r => exact placePark_mem h

@[simp] theorem demoteLow_mem (s : State) : (demoteLow s).mem = s.mem := by
  simp [demoteLow, apply_ite State.mem]

theorem demoteLow_same (s : State) : SameMem s (demoteLow s) := demoteLow_mem s

@[simp] theorem tryRevive_mem (slot : Nat) (s : State) : (tryRevive slot s).mem = s.mem := by
  simp [tryRevive, apply_ite State.mem]

@[simp] theorem prefetchTool_mem (slot : Nat) (s : State) : (prefetchTool slot s).mem = s.mem := by
  unfold prefetchTool
  split <;> simp

@[simp] theorem addSlow_mem (client observed solo : Nat) (s : State) : (addSlow client observed solo s).mem = s.mem := rfl

@[simp] theorem finishMover_mem (w : Work) (move : Nat) (a : Ans) (s : State) : (finishMover w move a s).mem = s.mem := by
  simp [finishMover, apply_ite State.mem]

@[simp] theorem commitShift_mem (o : MoverOp) (s : State) : (commitShift o s).mem = s.mem := by
  unfold commitShift
  extract_lets x fromTier t fr u
  have ht : t.mem = s.mem := by
    refine foldl_mem (fun s p => ?_) x.pages s
    split
    · rfl
    · split
      · rfl
      · split <;> simp [apply_ite State.mem]
  split
  · rw [setFlag_mem]
    exact ht
  · exact ht

/-! ### How commands in progress end -/

@[simp] theorem measureGenerate_mem (slot status : Nat) (s : State) : (measureGenerate slot status s).mem = s.mem := by
  unfold measureGenerate
  (repeat' split) <;> simp

@[simp] theorem parkAfterEnd_mem (slot wakeAfter : Nat) (s : State) : (parkAfterEnd slot wakeAfter s).mem = s.mem := by
  unfold parkAfterEnd
  extract_lets x wake g s1 s2 place s3 dest b
  have h2 : SameMem s s2 := (setState_mem _ _ s1).trans (modSession_mem _ _ s)
  have h3 : SameMem s2 s3 := by
    unfold s3
    cases h : place with
    | none => exact setFlag_mem _ _ _
    | some r => exact placePark_same h
  exact (addOp_mem _ _ _ _ _ _ _ _ s3).trans (h2.trans h3)

@[simp] theorem revertHandover_mem (slot : Nat) (tell : Bool) (a : Ans) (s : State) : (revertHandover slot tell a s).mem = s.mem := by
  unfold revertHandover
  dsimp only
  (repeat' split) <;> simp

@[simp] theorem endMoverWork_mem (slot : Nat) (a : Ans) (s : State) : (endMoverWork slot a s).mem = s.mem := by
  simp [endMoverWork, apply_ite State.mem]

@[simp] theorem endPreempt_mem (n : Nat) (s : State) : (endPreempt n s).mem = s.mem := by
  unfold endPreempt
  split <;> simp

/-! ### Serving a packet -/

@[simp] theorem forwardTo_mem (dest : Nat) (p : Packet) (data : Bytes) (s : State) : (forwardTo dest p data s).mem = s.mem := by
  unfold forwardTo
  split <;> simp

@[simp] theorem replyOpen_mem (p : Packet) (status : Nat) (s : State) : (replyOpen p status s).mem = s.mem := by
  simp [replyOpen]

/-! ### The settings of SET_PARAM and GET_PARAM -/

@[simp] theorem applyDue_mem (id v : Nat) (s : State) : (applyDue id v s).mem = s.mem := by
  unfold applyDue
  split <;> simp

@[simp] theorem setDue_mem (id v : Nat) (s : State) : (setDue id v s).mem = s.mem := by
  unfold setDue
  split <;> simp

@[simp] theorem changeDevice_mem (d : DevState) (s : State) : (changeDevice d s).mem = s.mem := by
  unfold changeDevice
  dsimp only
  (repeat' split) <;> simp

@[simp] theorem modSet_mem (f : TierSet → TierSet) (s : State) : (modSet f s).mem = s.mem := rfl

@[simp] theorem getParamBody_mem (c : Nat) (p : Packet) (s : State) : (getParamBody c p s).mem = s.mem := by
  unfold getParamBody
  (repeat' split) <;> simp [apply_ite State.mem]

/-! ### Recognition, PAD, PING, QUERY_DEVICE, STATS_READ and EVENT_SNAPSHOT -/

@[simp] theorem queryDeviceBody_mem (c : Nat) (p : Packet) (s : State) : (queryDeviceBody c p s).mem = s.mem := by
  simp [queryDeviceBody, apply_ite State.mem]

@[simp] theorem statsBody_mem (c : Nat) (p : Packet) (s : State) : (statsBody c p s).mem = s.mem := by
  unfold statsBody
  dsimp only
  (repeat' split) <;> simp

@[simp] theorem snapshotBody_mem (c : Nat) (p : Packet) (s : State) : (snapshotBody c p s).mem = s.mem := by
  simp [snapshotBody, apply_ite State.mem]

/-! ### The checks of a schedule image -/

@[simp] theorem withRole_mem (s : State) (role : Image) : (withRole s role).mem = s.mem := by
  refine foldl_mem (fun s r => ?_) role.rings s
  split <;> rfl

/-! ### Staged objects and what they become -/

@[simp] theorem dropStaging_mem (key : Nat) (s : State) : (dropStaging key s).mem = s.mem := rfl

@[simp] theorem finishModel_mem (m : Nat) (p : Packet) (piece : ModelPiece) (s : State) : (finishModel m p piece s).mem = s.mem := by
  simp [finishModel, apply_ite State.mem]

/-- Each state that a piece's outcome carries has a property. -/
def PieceOut.All (P : State → Prop) : PieceOut → Prop
  | .refused _ s => P s
  | .kept _ s => P s
  | .last s => P s

theorem takePiece_mem (key base : Nat) (p : Packet) (s : State) : (takePiece key base p s).All (fun t => t.mem = s.mem) := by
  unfold takePiece
  dsimp only
  (repeat' split) <;> rfl

@[simp] theorem modelStageBody_mem (piece : ModelPiece) (c : Nat) (p : Packet) (s : State) : (modelStageBody piece c p s).mem = s.mem := by
  have h := takePiece_mem (modelKey (argOf p 20 1)) 0x20 p s
  unfold modelStageBody
  dsimp only
  (repeat' split) <;> simp_all [PieceOut.All]

@[simp] theorem modelUnloadBody_mem (c : Nat) (p : Packet) (s : State) : (modelUnloadBody c p s).mem = s.mem := by
  simp [modelUnloadBody, apply_ite State.mem]

@[simp] theorem partitionBody_mem (c : Nat) (p : Packet) (s : State) : (partitionBody c p s).mem = s.mem := by
  unfold partitionBody
  dsimp only
  (repeat' split) <;> simp

@[simp] theorem sendReady_mem (img : Image) (at_ : Nat) (s : State) : (sendReady img at_ s).mem = s.mem := by
  simp [sendReady, apply_ite State.mem]

@[simp] theorem loadSchedule_mem (p : Packet) (kind : Nat) (obj : Bytes) (s : State) : (loadSchedule p kind obj s).mem = s.mem := by
  unfold loadSchedule
  dsimp only
  (repeat' split) <;> simp

@[simp] theorem scheduleBody_mem (obj : Bytes) (c : Nat) (p : Packet) (s : State) : (scheduleBody obj c p s).mem = s.mem := by
  have h := takePiece_mem (0x1300 + argOf p 20 1) 0x30 p s
  unfold scheduleBody
  dsimp only
  (repeat' split) <;> simp_all [PieceOut.All]

@[simp] theorem loadVocab_mem (idx : Nat) (v : VocabImage) (p : Packet) (s : State) : (loadVocab idx v p s).mem = s.mem := by
  unfold loadVocab
  (repeat' split) <;> simp

@[simp] theorem vocabBody_mem (obj : Bytes) (c : Nat) (p : Packet) (s : State) : (vocabBody obj c p s).mem = s.mem := by
  have h := takePiece_mem (0x1400 + argOf p 20 1) 0x20 p s
  unfold vocabBody
  dsimp only
  (repeat' split) <;> simp_all [PieceOut.All]

/-! ### The Block store -/

@[simp] theorem modStore_mem (i : Nat) (f : RegionStore → RegionStore) (s : State) : (modStore i f s).mem = s.mem := rfl

@[simp] theorem writeRegion_mem (late : Bool) (i offset : Nat) (b : Bytes) (s : State) : (writeRegion late i offset b s).mem = s.mem := by
  unfold writeRegion
  (repeat' split) <;> simp

@[simp] theorem commitRegion_mem (slotId i offset : Nat) (b : Bytes) (s : State) : (commitRegion slotId i offset b s).mem = s.mem := by
  unfold commitRegion
  (repeat' split) <;> simp

@[simp] theorem dropKind_mem (kind slotId : Nat) (s : State) : (dropKind kind slotId s).mem = s.mem := rfl

@[simp] theorem dropDead_mem (img : Image) (t : Nat) (s : State) : (dropDead img t s).mem = s.mem := rfl

/-! ### The session commands that act at recognition -/

@[simp] theorem sessionCreated_mem (slot : Nat) (s : State) : (sessionCreated slot s).mem = s.mem := (sessionCreated_keeps slot s).1

@[simp] theorem openBody_mem (c : Nat) (p : Packet) (s : State) : (openBody c p s).mem = s.mem := by
  unfold openBody
  dsimp only
  (repeat' split) <;> simp

@[simp] theorem shareAll_mem (x : Session) (s : State) : (shareAll x s).mem = s.mem :=
  eq_of_aside offPages State.mem (fun _ => rfl) (offPages_shareAll _ _)

@[simp] theorem forkBody_mem (c : Nat) (p : Packet) (s : State) : (forkBody c p s).mem = s.mem := by
  unfold forkBody
  dsimp only
  (repeat' split) <;> simp

@[simp] theorem appendElems_mem (o : Origin) (slot kind : Nat) (elems : List Nat) (s : State) : (appendElems o slot kind elems s).mem = s.mem := by
  simp [appendElems, apply_ite State.mem]

@[simp] theorem appendBodyCmd_mem (buf : Bytes) (c : Nat) (p : Packet) (s : State) : (appendBodyCmd buf c p s).mem = s.mem := by
  unfold appendBodyCmd
  dsimp only
  (repeat' split) <;> simp

@[simp] theorem countPart_mem (part : Nat) (f : PartitionCounters → PartitionCounters) (s : State) : (countPart part f s).mem = s.mem := by
  unfold countPart
  split <;> simp

@[simp] theorem parkBody_mem (c : Nat) (p : Packet) (s : State) : (parkBody c p s).mem = s.mem := by
  unfold parkBody
  extract_lets slot x after wake g b codec
  split
  · simp
  · split
    · simp
    · split
      · simp
      · next h =>
        have ht := placePark_mem h
        split
        · simp
        · simpa using ht

@[simp] theorem reviveBody_mem (c : Nat) (p : Packet) (s : State) : (reviveBody c p s).mem = s.mem := by
  unfold reviveBody
  dsimp only
  (repeat' split) <;> simp

@[simp] theorem freeLost_mem (slot : Nat) (s : State) : (freeLost slot s).mem = s.mem := by
  simp [freeLost]

@[simp] theorem endCopy_mem (slot : Nat) (s : State) : (endCopy slot s).mem = s.mem := by
  simp [endCopy]

@[simp] theorem queryBody_mem (c : Nat) (p : Packet) (s : State) : (queryBody c p s).mem = s.mem := by
  unfold queryBody
  dsimp only
  (repeat' split) <;> simp

@[simp] theorem applySet_mem (slot : Nat) (set : Option Nat) (s : State) : (applySet slot set s).mem = s.mem := by
  unfold applySet
  dsimp only
  (repeat' split) <;> simp

@[simp] theorem installSet_mem (slot : Nat) (set : Option Nat) (s : State) : (installSet slot set s).mem = s.mem := by
  unfold installSet
  dsimp only
  (repeat' split) <;> simp

@[simp] theorem constrainBody_mem (c : Nat) (p : Packet) (s : State) : (constrainBody c p s).mem = s.mem := by
  unfold constrainBody
  extract_lets slot x
  split
  · simp
  · split
    · simp
    · simp
    · split
      · simp
      · next h => simp [compileSet_mem h]

/-! ### Training -/

@[simp] theorem modAdapter_mem (key : Nat) (f : Adapter → Adapter) (s : State) : (modAdapter key f s).mem = s.mem := rfl

@[simp] theorem turnAdapters_mem (s : State) : (turnAdapters s).mem = s.mem := rfl

@[simp] theorem restoreAdapters_mem (part fuel : Nat) (b : Bytes) (s : State) : (restoreAdapters part fuel b s).mem = s.mem := by
  induction fuel generalizing b s with
  | zero => rfl
  | succ fuel ih =>
    unfold restoreAdapters
    split
    · rfl
    · exact (ih _ _).trans (modAdapter_mem _ _ _)

/-! ### SESSION_GENERATE in both variants, SESSION_EXPORT and SESSION_IMPORT -/

@[simp] theorem admitGenerate_mem (p : Packet) (slot count : Nat) (s : State) : (admitGenerate p slot count s).mem = s.mem := by
  unfold admitGenerate
  simp [apply_ite State.mem]

@[simp] theorem generateBody_mem (c : Nat) (p : Packet) (s : State) : (generateBody c p s).mem = s.mem := by
  unfold generateBody
  dsimp only
  (repeat' split) <;> simp

@[simp] theorem trainBody_mem (c : Nat) (p : Packet) (s : State) : (trainBody c p s).mem = s.mem := by
  unfold trainBody
  dsimp only
  (repeat' split) <;> simp

@[simp] theorem exportBody_mem (c : Nat) (p : Packet) (s : State) : (exportBody c p s).mem = s.mem := by
  unfold exportBody
  dsimp only
  (repeat' split) <;> simp

@[simp] theorem importBody_mem (cap : SessionCapsule) (c : Nat) (p : Packet) (s : State) : (importBody cap c p s).mem = s.mem := by
  unfold importBody
  extract_lets -underBinder part
  split
  · simp
  · extract_lets -underBinder old x refusal
    clear_value refusal x old
    split
    · simp
    · split
      · simp
      · split
        · simp
        · extract_lets -underBinder fresh n place
          clear_value fresh
          split
          · simp
          · split
            · simp
            · split
              · simp
              · extract_lets -underBinder dest u t1 t2 t3
                have hu : SameMem s u := placeParkTo_same _ _ _ s
                clear_value u
                have h1 : SameMem s t1 := by
                  unfold t1
                  split
                  · exact hu
                  · exact hu.trans ((putSession_mem _ _ _).trans (takeSlot_mem u))
                have h2 : SameMem t1 t2 := modSession_mem _ _ t1
                have h3 : SameMem t2 t3 := addOp_mem _ _ _ _ _ _ _ _ t2
                clear_value t3 t2 t1
                exact (accept_mem _ _ _).trans ((h1.trans h2).trans h3)

@[simp] theorem placeCapsule_mem (part dest : Nat) (g : Page) (b : Bytes) (s : State) : (placeCapsule part dest g b s).2.mem = s.mem := by
  unfold placeCapsule
  (repeat' split) <;> simp

@[simp] theorem placeCapsules_mem (part dest : Nat) (l : List Page) (bs : List Bytes) (s : State) : (placeCapsules part dest l bs s).2.mem = s.mem := by
  induction l generalizing bs s with
  | nil => rfl
  | cons g rest ih => exact (ih _ _).trans (placeCapsule_mem _ _ _ _ _)

@[simp] theorem commitImport_mem (o : MoverOp) (s : State) : (commitImport o s).mem = s.mem := by
  unfold commitImport
  dsimp only
  (repeat' split) <;> simp

end Sys2Proof.Machine
end

section
/-! SUPPORT for O5. What writes no byte of memory, second part: the schedule, the Fabric, handovers, checkpoints and the Mover. -/

namespace Sys2Proof.Machine

/-! ### Kills, schedule notices, deferrals, fallback plans, departures and fences -/

@[simp] theorem departRings_mem (rings : List Nat) (s : State) : (departRings rings s).mem = s.mem := ((Steady.refl s).departRings rings).mem

@[simp] theorem voidRun_mem (x : SlotEntry) (ds : List Nat) (s : State) : (voidRun x ds s).mem = s.mem := ((ByNotice.refl s).voidRun x ds).mem

@[simp] theorem settleDefers_mem (s : State) : (settleDefers s).mem = s.mem := ((ByNotice.refl s).settleDefers).mem

@[simp] theorem registerNotice_mem (n : Notice) (s : State) : (registerNotice n s).mem = s.mem := ((ByNotice.refl s).registerNotice n).mem

@[simp] theorem sendNotice_mem (peers : List Nat) (n : Notice) (s : State) : (sendNotice peers n s).mem = s.mem :=
  ((ByNotice.refl s).sendNotice peers n).mem

@[simp] theorem sendDefer_mem (x : SlotEntry) (run e : Nat) (s : State) : (sendDefer x run e s).mem = s.mem :=
  ((ByNotice.refl s).sendDefer x run e).mem

@[simp] theorem killRun_mem (id : Nat) (ds : List Nat) (s : State) : (killRun id ds s).mem = s.mem := ((ByNotice.refl s).killRun id ds).mem

@[simp] theorem killSlot_mem (id : Nat) (s : State) : (killSlot id s).mem = s.mem := by
  unfold killSlot
  split <;> simp

@[simp] theorem sendFallback_mem (planId e : Nat) (revert : Bool) (s : State) : (sendFallback planId e revert s).mem = s.mem := by
  simp [sendFallback]

@[simp] theorem linkDegraded_mem (kind l : Nat) (s : State) : (linkDegraded kind l s).mem = s.mem := by
  unfold linkDegraded
  (repeat' split) <;> simp [apply_ite State.mem]

@[simp] theorem blockPlan_mem (d b e : Nat) (s : State) : (blockPlan d b e s).mem = s.mem := ((Steady.refl s).blockPlan d b e).mem

@[simp] theorem wholeFence_mem (d b : Nat) (s : State) : (wholeFence d b s).mem = s.mem := ((Steady.refl s).wholeFence d b).mem

@[simp] theorem planWholeFence_mem (d b earliest : Nat) (s : State) : (planWholeFence d b earliest s).mem = s.mem :=
  ((Steady.refl s).planWholeFence d b earliest).mem

@[simp] theorem loadStores_mem (d b : Nat) (cores : List Nat) (s : State) : (loadStores d b cores s).mem = s.mem :=
  ((Steady.refl s).loadStores d b cores).mem

@[simp] theorem swapBlock_mem (d b : Nat) (s : State) : (swapBlock d b s).mem = s.mem := ((Steady.refl s).swapBlock d b).mem

@[simp] theorem fenceCore_mem (d b core : Nat) (s : State) : (fenceCore d b core s).mem = s.mem := ((Steady.refl s).fenceCore d b core).mem

@[simp] theorem residueMismatch_mem (unit logical id : Nat) (s : State) : (residueMismatch unit logical id s).mem = s.mem :=
  (residueMismatch_sets unit logical id s).1

@[simp] theorem uncorrRecord_mem (kind number addr : Nat) (s : State) : (uncorrRecord kind number addr s).mem = s.mem := by
  simp [uncorrRecord]

@[simp] theorem weightFail_mem (model chunk slotId : Nat) (secondBad : Bool) (s : State) : (weightFail model chunk slotId secondBad s).mem = s.mem := by
  simp [weightFail, apply_ite State.mem]

/-! ### Supply states, rail requests, operating profiles and device states -/

@[simp] theorem reading_mem (mV : Nat) (s : State) : (reading mV s).mem = s.mem := rfl

@[simp] theorem killLanes_mem (s : State) : (killLanes s).mem = s.mem := by
  unfold killLanes
  split <;> simp

@[simp] theorem deferAll_mem (e : Nat) (s : State) : (deferAll e s).mem = s.mem := ((ByNotice.refl s).deferAll e).mem

@[simp] theorem enterReduced_mem (mV mA : Nat) (s : State) : (enterReduced mV mA s).mem = s.mem := by
  unfold enterReduced
  dsimp only
  (repeat' split) <;> simp

@[simp] theorem abandonDimm_mem (s : State) : (abandonDimm s).mem = s.mem := rfl

@[simp] theorem departNow_mem (s : State) : (departNow s).mem = s.mem := by
  unfold departNow
  (repeat' split) <;> simp

@[simp] theorem enterStopping_mem (mV : Nat) (s : State) : (enterStopping mV s).mem = s.mem := by
  simp [enterStopping]

@[simp] theorem landProfile_mem (p : Nat) (s : State) : (landProfile p s).mem = s.mem := by
  simp [landProfile]

@[simp] theorem profileBody_mem (c : Nat) (p : Packet) (s : State) : (profileBody c p s).mem = s.mem := by
  unfold profileBody
  dsimp only
  (repeat' split) <;> simp

@[simp] theorem plazaRails_mem (s : State) : (plazaRails s).mem = s.mem := (plazaRails_keeps s).2

@[simp] theorem boundaryProfile_mem (s : State) : (boundaryProfile s).mem = s.mem := by
  unfold boundaryProfile
  (repeat' split) <;> simp

@[simp] theorem allDistricts_mem (pw : UnitPower) (s : State) : (allDistricts pw s).mem = s.mem :=
  foldl_mem (fun _ _ => modDistrict_mem _ _ _) _ s

@[simp] theorem abandonDevice_mem (s : State) : (abandonDevice s).mem = s.mem := rfl

/-! ### The Plaza lane and the start of slots -/

@[simp] theorem dropGuest_mem (h : Nat) (s : State) : (dropGuest h s).mem = s.mem := rfl

@[simp] theorem enterPass_mem (slot n grant : Nat) (s : State) : (enterPass slot n grant s).mem = s.mem := by
  unfold enterPass
  dsimp only
  (repeat' split) <;> simp

@[simp] theorem emptyPlace_mem (h : Nat) (s : State) : (emptyPlace h s).mem = s.mem := rfl

@[simp] theorem enterGuest_mem (part : Nat) (p : Place) (n : Nat) (s : State) : (enterGuest part p n s).mem = s.mem := by
  unfold enterGuest
  dsimp only
  (repeat' split) <;> simp

@[simp] theorem enterMember_mem (part : Nat) (p : Place) (s : State) : (enterMember part p s).mem = s.mem := by
  unfold enterMember
  (repeat' split) <;> simp

@[simp] theorem sealOne_mem (img : Image) (part : Nat) (s : State) : (sealOne img part s).mem = s.mem := congrArg Prod.snd (sealOne_keeps img part s)

@[simp] theorem sealAll_mem (s : State) : (sealAll s).mem = s.mem := by
  unfold sealAll
  split <;> simp

@[simp] theorem refreshHeaders_mem (s : State) : (refreshHeaders s).mem = s.mem := rfl

/-! ### Layer commands -/

@[simp] theorem guestWritePage_mem (part h no : Nat) (s : State) : (guestWritePage part h no s).mem = s.mem := by
  simp [guestWritePage, apply_ite State.mem]

@[simp] theorem releaseHand_mem (img : Image) (x : SlotEntry) (t : Nat) (h : HandOver) (s : State) : (releaseHand img x t h s).mem = s.mem := by
  unfold releaseHand
  split <;> simp

/-! ### What a sampling commit does to each member of its microbatch -/

@[simp] theorem countDraw_mem (slot : Nat) (d : Draw) (verified : Nat) (s : State) : (countDraw slot d verified s).mem = s.mem := by
  simp [countDraw, apply_ite State.mem]

/-! ### Handovers -/

@[simp] theorem putHolder_mem (k : Nat) (x : Session) (s : State) : (putHolder k x s).mem = s.mem := by
  unfold putHolder
  split <;> simp

@[simp] theorem modHolder_mem (k : Nat) (f : Session → Session) (s : State) : (modHolder k f s).mem = s.mem := by
  simp [modHolder]

@[simp] theorem adoptSet_mem (slot : Nat) (img : SessionImage) (s : State) : (adoptSet slot img s).mem = s.mem :=
  eq_of_aside offSlots State.mem (fun _ => rfl) (adoptSet_keeps slot img s).2

@[simp] theorem handoverOutBody_mem (c : Nat) (p : Packet) (s : State) : (handoverOutBody c p s).mem = s.mem := by
  unfold handoverOutBody
  dsimp only
  (repeat' split) <;> simp

@[simp] theorem ownPages_mem (peer : Nat) (l : List Page) (s : State) : (ownPages peer l s).2.mem = s.mem := (ownPages_keeps peer l s).2

@[simp] theorem beginCopy_mem (k : Nat) (s : State) : (beginCopy k s).mem = s.mem := by
  simp [beginCopy]

@[simp] theorem nextCopy_mem (k : Nat) (s : State) : (nextCopy k s).mem = s.mem := rfl

@[simp] theorem startCopy_mem (k : Nat) (s : State) : (startCopy k s).mem = s.mem := rfl

@[simp] theorem startHandover_mem (slot newHandle : Nat) (s : State) : (startHandover slot newHandle s).mem = s.mem := by
  unfold startHandover
  extract_lets -underBinder x
  split
  · rfl
  · extract_lets -underBinder s1 near s2 r s3 tiles s4 s5
    have h1 : s1.mem = s.mem := by
      unfold s1
      split <;> simp
    split
    · simp [s3, r, s2, h1]
    · have h5 : s5.mem = s4.mem := by
        unfold s5
        split
        · rfl
        · exact foldl_mem (fun _ _ => send_mem _ _) _ _
      rw [startCopy_mem, h5]
      exact h1

@[simp] theorem sendTiles_mem (k : Nat) (s : State) : (sendTiles k s).mem = s.mem :=
  (modHolder_mem _ _ _).trans (foldl_mem (fun _ _ => send_mem _ _) _ s)

@[simp] theorem commitCopy_mem (o : MoverOp) (s : State) : (commitCopy o s).mem = s.mem := by
  simp [commitCopy, apply_ite State.mem]

@[simp] theorem commitFinal_mem (o : MoverOp) (s : State) : (commitFinal o s).mem = s.mem := by
  unfold commitFinal
  dsimp only
  (repeat' split) <;> simp

@[simp] theorem revertOpen_mem (slot : Nat) (tell : Bool) (s : State) : (revertOpen slot tell s).mem = s.mem := by
  simp [revertOpen]

@[simp] theorem useGrant_mem (g : Nat × Nat × Nat) (s : State) : (useGrant g s).mem = s.mem := rfl

@[simp] theorem settleTarget_mem (slot : Nat) (img : SessionImage) (pages : List Page) (s : State) : (settleTarget slot img pages s).mem = s.mem := by
  unfold settleTarget
  dsimp only
  (repeat' split) <;> simp

@[simp] theorem arrivedPages_mem (slot old : Nat) (l : List Page) (s : State) : (arrivedPages slot old l s).2.mem = s.mem :=
  eq_of_aside offPages State.mem (fun _ => rfl) (arrivedPages_keeps slot old l s).2

@[simp] theorem ownedPages_mem (slot part : Nat) (l : List Page) (s : State) : (ownedPages slot part l s).2.mem = s.mem :=
  eq_of_aside offPages State.mem (fun _ => rfl) (ownedPages_keeps slot part l s).2

@[simp] theorem handoverInBody_mem (c : Nat) (p : Packet) (s : State) : (handoverInBody c p s).mem = s.mem := by
  simp [handoverInBody, apply_ite State.mem]

/-! ### Checkpoints, restores and the arming of shrink plans -/

@[simp] theorem modCheckpoint_mem (part : Nat) (f : Checkpoint → Checkpoint) (s : State) : (modCheckpoint part f s).mem = s.mem := rfl

@[simp] theorem checkpointBody_mem (c : Nat) (p : Packet) (s : State) : (checkpointBody c p s).mem = s.mem := by
  unfold checkpointBody
  (repeat' split) <;> simp [apply_ite State.mem]

@[simp] theorem changeShards_mem (f : ShardSource → Option ShardSource) (s : State) : (changeShards f s).mem = s.mem := rfl

@[simp] theorem spoilPage_mem (addr : Nat) (s : State) : (spoilPage addr s).mem = s.mem := by
  unfold spoilPage
  split <;> simp

@[simp] theorem spoilLedger_mem (slot : Nat) (s : State) : (spoilLedger slot s).mem = s.mem := by
  unfold spoilLedger
  split <;> simp

@[simp] theorem shardBody_mem (c : Nat) (p : Packet) (s : State) : (shardBody c p s).mem = s.mem := by
  unfold shardBody
  dsimp only
  (repeat' split) <;> simp

@[simp] theorem restoreBody_mem (ms : List Manifest) (report : Nat) (shards : List Shard) (c : Nat) (p : Packet) (s : State) :
    (restoreBody ms report shards c p s).mem = s.mem := by
  unfold restoreBody
  dsimp only
  (repeat' split) <;> simp

@[simp] theorem modRestore_mem (part : Nat) (f : Restoring → Restoring) (s : State) : (modRestore part f s).mem = s.mem := rfl

@[simp] theorem endRestore_mem (part : Nat) (a : Ans) (s : State) : (endRestore part a s).mem = s.mem := by
  simp [endRestore]

@[simp] theorem nextCandidate_mem (r : Restoring) (s : State) : (nextCandidate r s).mem = s.mem := by
  unfold nextCandidate
  dsimp only
  (repeat' split) <;> simp

@[simp] theorem restorePages_mem (part dest : Nat) (l : List Page) (bs : List Bytes) (seen : List (Nat × Nat)) (s : State) :
    (restorePages part dest l bs seen s).2.2.mem = s.mem := by
  induction l generalizing bs seen s with
  | nil => rfl
  | cons g rest ih =>
    unfold restorePages
    split
    · exact (ih _ _ _).trans (shareFrame_mem _ _)
    · exact (ih _ _ _).trans (placeCapsule_mem _ _ _ _ _)

@[simp] theorem allDone_mem (part : Nat) (s : State) : (allDone part s).mem = s.mem := by
  unfold allDone
  (repeat' split) <;> simp [apply_ite State.mem]

@[simp] theorem shardToAll_mem (part type value step : Nat) (s : State) : (shardToAll part type value step s).mem = s.mem :=
  foldl_mem (fun _ _ => send_mem _ _) _ s

@[simp] theorem checkDones_mem (part : Nat) (s : State) : (checkDones part s).mem = s.mem := by
  unfold checkDones
  (repeat' split) <;> simp

@[simp] theorem shrinkBody_mem (c : Nat) (p : Packet) (s : State) : (shrinkBody c p s).mem = s.mem := by
  unfold shrinkBody
  dsimp only
  (repeat' split) <;> simp

/-! ### Mover slots -/

@[simp] theorem askLenders_mem (slot : Nat) (s : State) : (askLenders slot s).mem = s.mem := by
  refine foldl_mem (fun s p => ?_) _ s
  split
  · split <;> rfl
  · rfl

@[simp] theorem beginOp_mem (o : MoverOp) (s : State) : (beginOp o s).mem = s.mem := by
  simp [beginOp, apply_ite State.mem]

@[simp] theorem beginOps_mem (moveRoom codecRoom : Nat) (l : List MoverOp) (m c : Nat) (s : State) :
    (beginOps moveRoom codecRoom l m c s).mem = s.mem := by
  induction l generalizing m c s with
  | nil => rfl
  | cons o rest ih =>
    unfold beginOps
    split
    · exact ih _ _ _
    · split
      · exact (ih _ _ _).trans (beginOp_mem _ _)
      · rfl

@[simp] theorem queueEvacuation_mem (c : Nat) (s : State) : (queueEvacuation c s).mem = s.mem := by
  simp [queueEvacuation, apply_ite State.mem]

@[simp] theorem commitEvacuate_mem (o : MoverOp) (s : State) : (commitEvacuate o s).mem = s.mem := by
  unfold commitEvacuate
  (repeat' split) <;> simp [apply_ite State.mem]

@[simp] theorem lostLender_mem (o : MoverOp) (s : State) : (lostLender o s).mem = s.mem := by
  unfold lostLender
  dsimp only
  split
  · next r hr =>
    split at hr
    · exact placePark_mem hr
    · cases hr
  · rfl

end Sys2Proof.Machine
end

section
/-! SUPPORT for O5. What writes no byte of memory, third part: the composition, security, fences, links, service and the register window. -/

namespace Sys2Proof.Machine

/-! ### Composition maps -/

@[simp] theorem modLink_mem (l : Nat) (f : Link → Link) (s : State) : (modLink l f s).mem = s.mem := rfl

@[simp] theorem mapMismatch_mem (l : Nat) (s : State) : (mapMismatch l s).mem = s.mem := by
  simp [mapMismatch]

@[simp] theorem compositionBody_mem (buf : Bytes) (c : Nat) (p : Packet) (s : State) : (compositionBody buf c p s).mem = s.mem := by
  unfold compositionBody
  dsimp only
  (repeat' split) <;> simp

@[simp] theorem borrowerLost_mem (m : Nat) (s : State) : (borrowerLost m s).mem = s.mem := rfl

@[simp] theorem pullFrom_mem (m : Nat) (s : State) : (pullFrom m s).mem = s.mem := by
  simp [pullFrom, apply_ite State.mem]

@[simp] theorem pullLeaving_mem (s : State) : (pullLeaving s).mem = s.mem := by
  simp [pullLeaving]

@[simp] theorem sendDigests_mem (s : State) : (sendDigests s).mem = s.mem := by
  unfold sendDigests
  split
  · rfl
  · exact foldl_mem (fun _ _ => send_mem _ _) _ s

/-! ### Tenancy, quotes, key release, tenant release, presence, the seal and custodial commands -/

@[simp] theorem keysRecord_mem (entries : Nat) (s : State) : (keysRecord entries s).mem = s.mem := by
  simp [keysRecord]

@[simp] theorem drawMemKeys_mem (s : State) : (drawMemKeys s).mem = s.mem := rfl

@[simp] theorem replyMeasuring_mem (p : Packet) (s : State) : (replyMeasuring p s).mem = s.mem := by
  simp [replyMeasuring]

@[simp] theorem quoteBody_mem (c : Nat) (p : Packet) (s : State) : (quoteBody c p s).mem = s.mem := by
  simp [quoteBody, apply_ite State.mem]

@[simp] theorem bindBody_mem (buf : Bytes) (c : Nat) (p : Packet) (s : State) : (bindBody buf c p s).mem = s.mem := by
  unfold bindBody
  dsimp only
  (repeat' split) <;> simp

@[simp] theorem installKey_mem (suspended : Bool) (s : State) (e : KeyEntry) : (installKey suspended s e).mem = s.mem := by
  unfold installKey
  split <;> simp

@[simp] theorem acceptBody_mem (m : KeyMessage) (c : Nat) (p : Packet) (s : State) : (acceptBody m c p s).mem = s.mem := by
  unfold acceptBody
  dsimp only
  (repeat' split) <;> simp

@[simp] theorem beginRelease_mem (s : State) : (beginRelease s).mem = s.mem := by
  simp [beginRelease, apply_ite State.mem]

@[simp] theorem releaseBody_mem (c : Nat) (p : Packet) (s : State) : (releaseBody c p s).mem = s.mem := by
  simp [releaseBody, apply_ite State.mem]

@[simp] theorem cancelAll_mem (s : State) : (cancelAll s).mem = s.mem := by
  simp [cancelAll]

@[simp] theorem freeAll_mem (s : State) : (freeAll s).mem = s.mem := rfl

@[simp] theorem destroyKeys_mem (s : State) : (destroyKeys s).mem = s.mem := rfl

@[simp] theorem redactAll_mem (s : State) : (redactAll s).mem = s.mem := by
  simp [redactAll]

@[simp] theorem debugEffect_mem (v : Nat) (s : State) : (debugEffect v s).mem = s.mem := rfl

@[simp] theorem identityEffect_mem (s : State) : (identityEffect s).mem = s.mem := rfl

@[simp] theorem factoryEffect_mem (s : State) : (factoryEffect s).mem = s.mem := rfl

@[simp] theorem custodialDone_mem (sub v : Nat) (s : State) : (custodialDone sub v s).mem = s.mem := by
  simp [custodialDone]

@[simp] theorem custodialAfter_mem (s : State) : (custodialAfter s).mem = s.mem := by
  simp [custodialAfter, apply_ite State.mem]

@[simp] theorem cutStop_mem (s : State) : (cutStop s).mem = s.mem := by
  unfold cutStop
  split <;> simp

/-- A custodial command whose effect leaves memory alone leaves it alone (13 R369). -/
theorem custodial_mem {effect : Nat → State → State} (he : ∀ v s, (effect v s).mem = s.mem) (sub limit : Nat) (releases : Bool) (c : Nat) (p : Packet) (s : State) :
    (custodial sub limit releases effect c p s).mem = s.mem := by
  unfold custodial
  dsimp only
  (repeat' split) <;> simp [he]

@[simp] theorem rollbackBody_mem (c : Nat) (p : Packet) (s : State) : (rollbackBody c p s).mem = s.mem := by
  unfold rollbackBody
  split
  · exact custodial_mem (fun _ _ => modSec_mem _ _) _ _ _ _ _ _
  · simp

@[simp] theorem overrideBody_mem (c : Nat) (p : Packet) (s : State) : (overrideBody c p s).mem = s.mem := by
  unfold overrideBody
  split
  · exact custodial_mem (fun _ _ => modSec_mem _ _) _ _ _ _ _ _
  · simp

/-! ### Calibration commands -/

@[simp] theorem storeUser_mem (i : Nat) (v : Int) (s : State) : (storeUser i v s).mem = s.mem := rfl

@[simp] theorem calWriteBody_mem (verifies : Bool) (c : Nat) (p : Packet) (s : State) : (calWriteBody verifies c p s).mem = s.mem := by
  unfold calWriteBody
  dsimp only
  (repeat' split) <;> simp

@[simp] theorem calReadBody_mem (c : Nat) (p : Packet) (s : State) : (calReadBody c p s).mem = s.mem := by
  unfold calReadBody
  split <;> simp

@[simp] theorem checkFirmware_mem (img : FirmwareImage) (total : Nat) (p : Packet) (s : State) : (checkFirmware img total p s).mem = s.mem := by
  simp [checkFirmware, apply_ite State.mem]

@[simp] theorem fwStageBody_mem (obj : FirmwareObject) (c : Nat) (p : Packet) (s : State) : (fwStageBody obj c p s).mem = s.mem := by
  have h := takePiece_mem fwKey 0x20 p s
  unfold fwStageBody
  dsimp only
  (repeat' split) <;> simp_all [PieceOut.All]

@[simp] theorem activateRecord_mem (old new : Digest) (s : State) : (activateRecord old new s).mem = s.mem := by
  simp [activateRecord]

@[simp] theorem purgeKeys_mem (s : State) : (purgeKeys s).mem = s.mem := by
  simp [purgeKeys]

@[simp] theorem runFirmware_mem (img : FirmwareImage) (s : State) : (runFirmware img s).mem = s.mem := rfl

@[simp] theorem internalRecord_mem (opcode : Nat) (s : State) : (internalRecord opcode s).mem = s.mem := by
  simp [internalRecord]

/-! ### Link ports -/

@[simp] theorem enterLink_mem (l : Nat) (st : LinkState) (lanes : Nat) (s : State) : (enterLink l st lanes s).mem = s.mem := by
  simp [enterLink]

@[simp] theorem modFlow_mem (l : Nat) (f : LinkFlow → LinkFlow) (s : State) : (modFlow l f s).mem = s.mem := rfl

@[simp] theorem queueWord_mem (l : Nat) (w : ControlWord) (s : State) : (queueWord l w s).mem = s.mem := rfl

@[simp] theorem returnCredit_mem (l cls : Nat) (s : State) : (returnCredit l cls s).mem = s.mem := by
  simp [returnCredit, apply_ite State.mem]

@[simp] theorem queueFrame_mem (l : Nat) (q : Queued) (s : State) : (queueFrame l q s).mem = s.mem := rfl

@[simp] theorem forwardFrame_mem (l : Nat) (f : LinkFrame) (s : State) : (forwardFrame l f s).mem = s.mem := by
  unfold forwardFrame
  split <;> simp

@[simp] theorem landPayload_mem (f : LinkFrame) (s : State) : (landPayload f s).mem = s.mem := by
  unfold landPayload
  split <;> simp

@[simp] theorem landSched_mem (l : Nat) (f : LinkFrame) (slack : Int) (s : State) : (landSched l f slack s).mem = s.mem := by
  unfold landSched
  split <;> simp

@[simp] theorem takeFrameIn_mem (l : Nat) (f : LinkFrame) (slack : Int) (s : State) : (takeFrameIn l f slack s).mem = s.mem := by
  simp [takeFrameIn, apply_ite State.mem]

@[simp] theorem reroute_mem (l : Nat) (s : State) : (reroute l s).mem = s.mem := by
  refine (foldl_mem (fun s q => ?_) _ _).trans (putFlow_mem l _ s)
  dsimp only
  (repeat' split) <;> simp

@[simp] theorem loseLink_mem (l : Nat) (s : State) : (loseLink l s).mem = s.mem := by
  simp [loseLink]

@[simp] theorem failLane_mem (l lane : Nat) (s : State) : (failLane l lane s).mem = s.mem := by
  simp [failLane, apply_ite State.mem]

@[simp] theorem widenLink_mem (l : Nat) (s : State) : (widenLink l s).mem = s.mem := by
  simp [widenLink]

@[simp] theorem revertPlan_mem (kind l : Nat) (img : Image) (s : State) : (revertPlan kind l img s).mem = s.mem := by
  unfold revertPlan
  (repeat' split) <;> simp

@[simp] theorem exchange_mem (l : Nat) (r : TrainResult) (s : State) : (exchange l r s).mem = s.mem := by
  simp [exchange, apply_ite State.mem]

@[simp] theorem takeNak_mem (l seq worstLane : Nat) (s : State) : (takeNak l seq worstLane s).mem = s.mem := by
  simp [takeNak, apply_ite State.mem]

@[simp] theorem takeAck_mem (l seq : Nat) (s : State) : (takeAck l seq s).mem = s.mem := rfl

@[simp] theorem sendQueued_mem (l t cls : Nat) (q : Queued) (s : State) : (sendQueued l t cls q s).mem = s.mem := by
  unfold sendQueued
  (repeat' split) <;> simp

@[simp] theorem resendFrame_mem (l t : Nat) (g : LinkFrame) (s : State) : (resendFrame l t g s).mem = s.mem := by
  simp [resendFrame]

@[simp] theorem queueAll_mem (l : Nat) (fs : List LinkFrame) (s : State) : (queueAll l fs s).mem = s.mem :=
  foldl_mem (fun _ _ => queueFrame_mem _ _ _) fs s

/-! ### Errors, fencing and repair in service -/

@[simp] theorem spareRecord_mem (stack channel : Nat) (s : State) : (spareRecord stack channel s).mem = s.mem := by
  simp [spareRecord]

@[simp] theorem remapHbm_mem (stack : Nat) (s : State) : (remapHbm stack s).mem = s.mem := by
  unfold remapHbm
  split <;> simp

@[simp] theorem requestKill_mem (plain force : Bool) (test : Image → SlotEntry → Bool) (s : State) : (requestKill plain force test s).mem = s.mem := by
  unfold requestKill
  split <;> simp

@[simp] theorem fenceLane_mem (l lane : Nat) (restore : Bool) (s : State) : (fenceLane l lane restore s).mem = s.mem := by
  simp [fenceLane, apply_ite State.mem]

@[simp] theorem coreBody_mem (d b c : Nat) (force : Bool) (p : Packet) (s : State) : (coreBody d b c force p s).mem = s.mem := by
  simp [coreBody, apply_ite State.mem]

@[simp] theorem blockBody_mem (d b : Nat) (force : Bool) (p : Packet) (s : State) : (blockBody d b force p s).mem = s.mem := by
  simp [blockBody, apply_ite State.mem]

@[simp] theorem dimmRecord_mem (c action : Nat) (s : State) : (dimmRecord c action s).mem = s.mem := by
  simp [dimmRecord]

@[simp] theorem completeEvacuation_mem (c : Nat) (s : State) : (completeEvacuation c s).mem = s.mem := by
  unfold completeEvacuation
  split <;> simp

@[simp] theorem evacuateBody_mem (c : Nat) (p : Packet) (s : State) : (evacuateBody c p s).mem = s.mem := by
  simp [evacuateBody, apply_ite State.mem]

@[simp] theorem dimmBody_mem (c : Nat) (p : Packet) (s : State) : (dimmBody c p s).mem = s.mem := by
  simp [dimmBody, apply_ite State.mem]

@[simp] theorem dimmFails_mem (c : Nat) (s : State) : (dimmFails c s).mem = s.mem := by
  simp [dimmFails]

@[simp] theorem rewriteCopy_mem (n : Nat) (second : Bool) (avoid : List Nat) (s : State) : (rewriteCopy n second avoid s).mem = s.mem := by
  unfold rewriteCopy
  split <;> simp

@[simp] theorem takeRecalled_mem (e : Nat × Nat × Run × Bool) (s : State) : (takeRecalled e s).mem = s.mem := by
  unfold takeRecalled
  (repeat' split) <;> simp [apply_ite State.mem]

@[simp] theorem killPass_mem (slotId : Nat) (writer : SlotEntry) (s : State) : (killPass slotId writer s).mem = s.mem := by
  unfold killPass
  (repeat' split) <;> simp [apply_ite State.mem]

@[simp] theorem badRegion_mem (d b index slotId : Nat) (mirrorBad : Bool) (s : State) : (badRegion d b index slotId mirrorBad s).mem = s.mem := by
  unfold badRegion
  dsimp only
  (repeat' split) <;> simp

@[simp] theorem restoreHeader_mem (slot : Nat) (s : State) : (restoreHeader slot s).mem = s.mem := rfl

@[simp] theorem rejoinBlock_mem (d b : Nat) (s : State) : (rejoinBlock d b s).mem = s.mem := rfl

/-! ### Power-on, the boot phases, resets of every kind, and the loss of the host -/

@[simp] theorem openRecord_mem (sev : Nat) (s : State) : (openRecord sev s).mem = s.mem := by
  simp [openRecord]

@[simp] theorem checkSeal_mem (closed : Bool) (s : State) : (checkSeal closed s).mem = s.mem := by
  unfold checkSeal
  split <;> simp

@[simp] theorem romSelect_mem (slotAOk slotBOk factoryOk : Bool) (s : State) : (romSelect slotAOk slotBOk factoryOk s).mem = s.mem := by
  simp [romSelect, apply_ite State.mem]

@[simp] theorem restoreSillage_mem (s : State) : (restoreSillage s).mem = s.mem := by
  unfold restoreSillage
  split <;> simp

@[simp] theorem loadCalibration_mem (valid : Bool) (s : State) : (loadCalibration valid s).mem = s.mem := by
  unfold loadCalibration
  split <;> simp

@[simp] theorem bootFence_mem (unit : Nat) (s : State) : (bootFence unit s).mem = s.mem := by
  unfold bootFence
  dsimp only
  (repeat' split) <;> simp

@[simp] theorem bootFenceBlock_mem (unit : Nat) (s : State) : (bootFenceBlock unit s).mem = s.mem := rfl

@[simp] theorem reFence_mem (units : List (Nat × Nat)) (s : State) : (reFence units s).mem = s.mem := by
  simp [reFence, apply_ite State.mem]

@[simp] theorem bootRecords_mem (s : State) : (bootRecords s).mem = s.mem := by
  simp [bootRecords, apply_ite State.mem]

/-! ### The registers of BAR0 and the State Space window of BAR4 -/

@[simp] theorem answerRead_mem (b : Bytes) (s : State) : (answerRead b s).mem = s.mem := rfl

@[simp] theorem read4_mem (off : Nat) (s : State) : (read4 off s).2.mem = s.mem := by
  unfold read4
  (repeat' split) <;> simp

@[simp] theorem refuseWrite_mem (s : State) : (refuseWrite s).mem = s.mem := by
  simp [refuseWrite]

@[simp] theorem writeRegister_mem (off : Nat) (v : Nat) (s : State) : (writeRegister off v s).mem = s.mem := by
  simp [writeRegister, apply_ite State.mem]

/-! ### What ring members and homes send one another -/

@[simp] theorem dropRelayed_mem (e : Nat × Packet) (s : State) : (dropRelayed e s).mem = s.mem := rfl

@[simp] theorem emptyPlaces_mem (h : Nat) (s : State) : (emptyPlaces h s).mem = s.mem := rfl

@[simp] theorem nameDeparture_mem (member boundary : Nat) (rings : List Nat) (s : State) : (nameDeparture member boundary rings s).mem = s.mem := by
  unfold nameDeparture
  split <;> simp

/-! ### The step boundary -/

@[simp] theorem discardStaged_mem (r : RingSection) (member : Nat) (s : State) : (discardStaged r member s).mem = s.mem := by
  unfold discardStaged
  (repeat' split) <;> simp

@[simp] theorem stagedDue_mem (s : State) : (stagedDue s).mem = s.mem := by
  unfold stagedDue
  dsimp only
  (repeat' split) <;> simp

@[simp] theorem applyFallback_mem (d : DueFallback) (s : State) : (applyFallback d s).mem = s.mem := by
  unfold applyFallback
  (repeat' split) <;> simp

@[simp] theorem fallbacksDue_mem (s : State) : (fallbacksDue s).mem = s.mem := by
  simp [fallbacksDue]

@[simp] theorem order2_mem (s : State) : (order2 s).mem = s.mem := by
  unfold order2
  split <;> simp

@[simp] theorem order4_mem (s : State) : (order4 s).mem = s.mem := by
  simp [order4]

@[simp] theorem order6_mem (s : State) : (order6 s).mem = s.mem := by
  unfold order6
  extract_lets _ s0 s1 s2 evac s3
  have h1 : SameMem s0 s1 := demoteLow_same s0
  have h2 : SameMem s1 s2 := by
    refine foldl_same (fun s slot => ?_) _ s1
    split
    · rfl
    · exact tryRevive_mem _ _
  have h3 : SameMem s2 s3 := foldl_same (fun _ _ => by rw [SameMem, completeEvacuation_mem, queueEvacuation_mem]) evac s2
  have h : SameMem s0 s3 := (h1.trans h2).trans h3
  split
  · exact (send_mem _ _).trans h
  · exact h

@[simp] theorem slowPeriodEnd_mem (step : Nat) (s : State) : (slowPeriodEnd step s).mem = s.mem := by
  simp [slowPeriodEnd, apply_ite State.mem]

@[simp] theorem countStep_mem (img : Image) (s : State) : (countStep img s).mem = s.mem := rfl

@[simp] theorem latchCounters_mem (s : State) : (latchCounters s).mem = s.mem := rfl

@[simp] theorem measureStep_mem (s : State) : (measureStep s).mem = s.mem :=
  eq_of_aside offMeasured State.mem (fun _ => rfl) (offMeasured_measureStep _)

@[simp] theorem nextSets_mem (s : State) : (nextSets s).mem = s.mem := by
  refine foldl_mem (fun s slot => ?_) _ s
  dsimp only
  (repeat' split) <;> simp

@[simp] theorem rollStep_mem (s : State) : (rollStep s).mem = s.mem := rfl

end Sys2Proof.Machine
end

section
/-! SUPPORT for O5. What writes or clears bytes (05 R132, 04 R95): each operation ends in Memory.writeBytes, in Memory.clear or with no byte listed, and so keeps the canonical form. Here frames, sessions, parameters, training and the commits of the Fabric. -/

namespace Sys2Proof.Machine

theorem foldl_wf {α : Type} {f : State → α → State} (hf : ∀ s x, Memory.wf s.mem = true → Memory.wf (f s x).mem = true) (l : List α) {s : State}
    (h : Memory.wf s.mem = true) : Memory.wf (l.foldl f s).mem = true :=
  foldl_induct (fun s : State => Memory.wf s.mem = true) hf l h

theorem SameMem.wf {s t : State} (e : SameMem s t) (h : Memory.wf s.mem = true) : Memory.wf t.mem = true := by
  rw [SameMem] at e
  rwa [e]

/-! ### The Session State Engine's shared operations -/

/-- A frame whose last use ends is cleared; one still shared or held by a checkpoint keeps its bytes. -/
@[simp] theorem dropFrame_wf {addr : Nat} {s : State} (h : Memory.wf s.mem = true) : Memory.wf (dropFrame addr s).mem = true := by
  unfold dropFrame
  split
  · exact h
  · split
    · rwa [putFrame_mem]
    · split
      · rwa [putFrame_mem]
      · extract_lets t
        have ht : t.mem = s.mem := by
          unfold t
          split
          · exact send_mem _ _
          · rfl
        rw [ht]
        exact Memory.clear_wf h

@[simp] theorem frameDue_wf {addr : Nat} {s : State} (h : Memory.wf s.mem = true) : Memory.wf (frameDue addr s).mem = true := by
  unfold frameDue
  (repeat' split) <;> simp [h]

@[simp] theorem framesDue_wf {addrs : List Nat} {s : State} (h : Memory.wf s.mem = true) : Memory.wf (framesDue addrs s).mem = true :=
  foldl_wf (fun _ _ h => frameDue_wf h) addrs h

@[simp] theorem returnScratch_wf {slot : Nat} {s : State} (h : Memory.wf s.mem = true) : Memory.wf (returnScratch slot s).mem = true := by
  simp [returnScratch, h]

@[simp] theorem dropSpec_wf {slot : Nat} {s : State} (h : Memory.wf s.mem = true) : Memory.wf (dropSpec slot s).mem = true := by
  simp [dropSpec, h]

@[simp] theorem enterRebuilding_wf {slot : Nat} {s : State} (h : Memory.wf s.mem = true) : Memory.wf (enterRebuilding slot s).mem = true := by
  unfold enterRebuilding
  dsimp only
  (repeat' split) <;> simp [h]

@[simp] theorem loseSession_wf {slot : Nat} {s : State} (h : Memory.wf s.mem = true) : Memory.wf (loseSession slot s).mem = true := by
  unfold loseSession
  dsimp only
  (repeat' split) <;> simp [h]

@[simp] theorem cancelSession_wf {slot : Nat} {s : State} (h : Memory.wf s.mem = true) : Memory.wf (cancelSession slot s).2.mem = true := by
  unfold cancelSession
  extract_lets _ _ _ _ s1 s2 s3 s4 s5 s6 s7 s8 s9 s10 s11 s12 _ s13
  have h2 : SameMem s s2 := SameMem.trans (withdraw_mem _ _) (foldl_mem (fun _ _ => send_mem _ _) _ s1)
  have h9 : SameMem s2 s9 := by simp [SameMem, s9, s8, s7, s6, s5, s4, s3]
  have h10 : SameMem s9 s10 := by
    unfold s10
    split
    · split <;> exact send_mem _ _
    · rfl
  have h11 : SameMem s10 s11 := queueMark_mem _ _ _ s10
  have h12 : Memory.wf s12.mem = true := framesDue_wf (((h2.trans h9).trans (h10.trans h11)).wf h)
  rw [freeSlot_mem]
  exact returnScratch_wf h12

@[simp] theorem freeClosing_wf {slot : Nat} {s : State} (h : Memory.wf s.mem = true) : Memory.wf (freeClosing slot s).mem = true := by
  unfold freeClosing
  rw [freeSlot_mem]
  exact foldl_wf (fun _ _ h => dropFrame_wf h) _ h

/-! ### Page capsules -/

@[simp] theorem setFrameBytes_wf {part addr : Nat} {b : Bytes} {s : State} (h : Memory.wf s.mem = true) :
    Memory.wf (setFrameBytes part addr b s).mem = true :=
  Memory.writeBytes_wf (Memory.clear_wf h)

@[simp] theorem clearFrame_wf {part addr : Nat} {s : State} (h : Memory.wf s.mem = true) : Memory.wf (clearFrame part addr s).mem = true :=
  Memory.clear_wf h

/-! ### The Mover -/

/-- A page parked in its own frame leaves the frame cleared; one parked as a copy hands its frame over as due. -/
@[simp] theorem parkPage_wf {slot grade dest : Nat} {p : Page} {s : State} (h : Memory.wf s.mem = true) :
    Memory.wf (parkPage slot grade dest p s).2.mem = true := by
  unfold parkPage
  dsimp only
  (repeat' split) <;> simp [h]

@[simp] theorem parkPagesAll_wf {slot grade dest : Nat} {l : List Page} {s : State} (h : Memory.wf s.mem = true) :
    Memory.wf (parkPagesAll slot grade dest l s).2.mem = true := by
  induction l generalizing s with
  | nil => exact h
  | cons p rest ih =>
    rw [parkPagesAll]
    split
    · exact ih (frameDue_wf h)
    · exact ih (parkPage_wf h)

@[simp] theorem commitPark_wf {o : MoverOp} {s : State} (h : Memory.wf s.mem = true) : Memory.wf (commitPark o s).mem = true := by
  unfold commitPark
  dsimp only
  (repeat' split) <;> simp [h]

/-- A page comes back into its own frame, or into a frame taken for it where the capsule is shared: cleared and then written. -/
@[simp] theorem revivePage_wf {slot : Nat} {p : Page} {s : State} (h : Memory.wf s.mem = true) : Memory.wf (revivePage slot p s).2.mem = true := by
  unfold revivePage
  dsimp only
  (repeat' split) <;> simp [h]

@[simp] theorem revivePagesAll_wf {slot : Nat} {l : List Page} {s : State} (h : Memory.wf s.mem = true) :
    Memory.wf (revivePagesAll slot l s).2.mem = true := by
  induction l generalizing s with
  | nil => exact h
  | cons p rest ih => exact ih (revivePage_wf h)

@[simp] theorem commitRevive_wf {o : MoverOp} {s : State} (h : Memory.wf s.mem = true) : Memory.wf (commitRevive o s).mem = true := by
  unfold commitRevive
  dsimp only
  (repeat' split) <;> simp [h]

@[simp] theorem commitPrivate_wf {o : MoverOp} {s : State} (h : Memory.wf s.mem = true) : Memory.wf (commitPrivate o s).mem = true := by
  unfold commitPrivate
  dsimp only
  (repeat' split) <;> simp [h]

/-! ### How commands in progress end -/

@[simp] theorem endGeneration_wf {slot status detail : Nat} {park : Bool} {wakeAfter : Nat} {s : State} (h : Memory.wf s.mem = true) :
    Memory.wf (endGeneration slot status detail park wakeAfter s).mem = true := by
  unfold endGeneration
  dsimp only
  (repeat' split) <;> simp [h]

@[simp] theorem freeTarget_wf {slot : Nat} {s : State} (h : Memory.wf s.mem = true) : Memory.wf (freeTarget slot s).mem = true := by
  simp [freeTarget, h]

@[simp] theorem preemptGenerate_wf {slot : Nat} {s : State} (h : Memory.wf s.mem = true) : Memory.wf (preemptGenerate slot s).mem = true := by
  unfold preemptGenerate
  dsimp only
  (repeat' split) <;> simp [h]

@[simp] theorem preemptCommand_wf {c : Command} {s : State} (h : Memory.wf s.mem = true) : Memory.wf (preemptCommand c s).mem = true := by
  unfold preemptCommand
  (repeat' split) <;> simp [h]

@[simp] theorem beginPreempt_wf {n : Nat} {s : State} (h : Memory.wf s.mem = true) : Memory.wf (beginPreempt n s).mem = true := by
  unfold beginPreempt
  extract_lets t mine u
  have ht : Memory.wf t.mem = true := by
    rw [setFlag_mem, modClient_mem]
    exact h
  have hu : Memory.wf u.mem = true := foldl_wf (fun _ _ h => preemptCommand_wf h) mine ht
  rw [foldl_mem (fun _ _ => (dropRecognised_mem _ _).trans (reply_mem _ _ _))]
  exact hu

/-- The state that the setting of a parameter carries lists its bytes in order. -/
def SetOut.Wf : SetOut → Prop
  | .done t => Memory.wf t.mem = true
  | .refused _ => True
  | .waiting _ t => Memory.wf t.mem = true

@[simp] theorem SetOut.wf_done {t : State} : (SetOut.done t).Wf ↔ Memory.wf t.mem = true := Iff.rfl

@[simp] theorem SetOut.wf_refused (a : Ans) : (SetOut.refused a).Wf := trivial

@[simp] theorem SetOut.wf_waiting {n : Nat} {t : State} : (SetOut.waiting n t).Wf ↔ Memory.wf t.mem = true := Iff.rfl

/-! ### The settings of SET_PARAM and GET_PARAM -/

theorem setRun_wf {n v : Nat} {s : State} (h : Memory.wf s.mem = true) : (setRun n v s).Wf := by
  have hp : Memory.wf (beginPreempt n s).mem = true := beginPreempt_wf h
  unfold setRun
  dsimp only
  (repeat' split) <;> simp [h, hp]

theorem setQueue_wf {n scan seq replyAt replyCount : Nat} {s : State} (h : Memory.wf s.mem = true) : (setQueue n scan seq replyAt replyCount s).Wf := by
  unfold setQueue
  dsimp only
  split
  · trivial
  · exact h

theorem setMeterItem_wf {n item v : Nat} {s : State} (h : Memory.wf s.mem = true) : (setMeterItem n item v s).Wf := by
  unfold setMeterItem
  extract_lets now m
  split
  · trivial
  · exact h

theorem setClient_wf {n item v : Nat} {s : State} (h : Memory.wf s.mem = true) : (setClient n item v s).Wf := by
  unfold setClient
  split
  · exact setRun_wf h
  · split
    · exact setQueue_wf h
    · split
      · exact setMeterItem_wf h
      · trivial

theorem inRange_wf {lo hi v : Nat} {f : State → State} {s : State} (hf : (f s).mem = s.mem) (h : Memory.wf s.mem = true) : (inRange lo hi v f s).Wf := by
  unfold inRange
  split
  · rw [← hf] at h
    exact h
  · trivial

theorem setCad_wf {id v : Nat} {s : State} (h : Memory.wf s.mem = true) : (setCad id v s).Wf := by
  unfold setCad
  (repeat' split) <;> simp [inRange_wf, h]

theorem setTier_wf {id v : Nat} {s : State} (h : Memory.wf s.mem = true) : (setTier id v s).Wf := by
  unfold setTier
  extract_lets open_
  split
  · exact inRange_wf (setDue_mem _ _ _) h
  · exact inRange_wf (setDue_mem _ _ _) h
  · exact inRange_wf (modSet_mem _ _) h
  · exact inRange_wf (modSet_mem _ _) h
  · split <;> simp [h]
  · split <;> simp [h]
  · split <;> simp [h]
  · split <;> simp [h]
  · simp [h]
  · exact inRange_wf (modSet_mem _ _) h
  · simp

theorem setHost_wf {id v : Nat} {s : State} (h : Memory.wf s.mem = true) : (setHost id v s).Wf := by
  unfold setHost
  (repeat' split) <;> simp [inRange_wf, h]

theorem setEntry_wf {id v : Nat} {s : State} (h : Memory.wf s.mem = true) : (setEntry id v s).Wf := by
  unfold setEntry
  dsimp only
  split
  · trivial
  · split
    · exact setClient_wf h
    · split
      · exact setCad_wf h
      · split
        · exact setTier_wf h
        · exact setHost_wf h

/-- What SET_PARAM makes of the outcome of one setting: a setting that is done goes on with `rest`. -/
def settingTaken (o : Origin) (p : Packet) (k : Nat) (rest : State → State) (s : State) : SetOut → State
  | .done t => rest t
  | .refused a =>
    if k = 0 then replyTo o true (if a.status = stBAD_PARAM then bad (0x20 + 24 * k) else a) s
    else replyTo o true { status := stPARTIAL, detail := k, count0 := a.status, count1 := 0x20 + 24 * k } s
  | .waiting n t => await (.setParam n) o { t with host := { t.host with rests := t.host.rests ++ [⟨p, n, k + 1⟩] } }

/-- The equation of the recursion, taken from its functional: Lean's own equation lemma would evaluate `setEntry`. -/
theorem runSettings_succ (o : Origin) (p : Packet) (fuel k : Nat) (s : State) :
    runSettings o p (fuel + 1) k s
      = settingTaken o p k (runSettings o p fuel (k + 1)) s (setEntry (paramOf p (0x20 + 24 * k) 4) (paramOf p (0x20 + 24 * k + 8) 16) s) := by
  delta runSettings
  rw [Nat.brecOn.eq (motive := fun _ => Nat → State → State) (fuel + 1) (runSettings._f o p)]
  dsimp only [runSettings._f]
  generalize setEntry _ _ s = out
  cases out <;> rfl

theorem settingTaken_wf {o : Origin} {p : Packet} {k : Nat} {rest : State → State} {s : State} (h : Memory.wf s.mem = true)
    (hrest : ∀ t : State, Memory.wf t.mem = true → Memory.wf (rest t).mem = true) {out : SetOut} (hout : out.Wf) :
    Memory.wf (settingTaken o p k rest s out).mem = true := by
  cases out with
  | done t => exact hrest t hout
  | refused a =>
    rw [settingTaken]
    split <;> rwa [replyTo_mem]
  | waiting n t =>
    rw [settingTaken, await_mem]
    exact hout

@[simp] theorem runSettings_wf {o : Origin} {p : Packet} {fuel k : Nat} {s : State} (h : Memory.wf s.mem = true) :
    Memory.wf (runSettings o p fuel k s).mem = true := by
  induction fuel generalizing k s with
  | zero =>
    refine (congrArg Memory.wf ?_).trans h
    exact replyTo_mem _ _ _ _
  | succ fuel ih =>
    rw [runSettings_succ]
    exact settingTaken_wf h (fun _ ht => ih ht) (setEntry_wf h)

@[simp] theorem setParamBody_wf {c : Nat} {p : Packet} {s : State} (h : Memory.wf s.mem = true) : Memory.wf (setParamBody c p s).mem = true := by
  unfold setParamBody
  dsimp only
  split
  · simp [h]
  · split
    · simp [h]
    · exact runSettings_wf h

@[simp] theorem completePreemption_wf {n : Nat} {s : State} (h : Memory.wf s.mem = true) : Memory.wf (completePreemption n s).mem = true := by
  unfold completePreemption
  split
  · refine foldl_wf (fun s r h => ?_) _ (by simp [h])
    split
    · exact h
    · exact runSettings_wf h
  · exact h

/-! ### The session commands that act at recognition -/

@[simp] theorem cancelBody_wf {c : Nat} {p : Packet} {s : State} (h : Memory.wf s.mem = true) : Memory.wf (cancelBody c p s).mem = true := by
  unfold cancelBody
  dsimp only
  split <;> simp [h]

@[simp] theorem closeSession_wf {slot : Nat} {s : State} (h : Memory.wf s.mem = true) : Memory.wf (closeSession slot s).mem = true := by
  simp [closeSession, h]

@[simp] theorem closeBody_wf {c : Nat} {p : Packet} {s : State} (h : Memory.wf s.mem = true) : Memory.wf (closeBody c p s).mem = true := by
  unfold closeBody
  dsimp only
  (repeat' split) <;> simp [h]

/-! ### SESSION_GENERATE in both variants, SESSION_EXPORT and SESSION_IMPORT -/

@[simp] theorem endTraining_wf {slot : Nat} {s : State} (h : Memory.wf s.mem = true) : Memory.wf (endTraining slot s).mem = true := by
  unfold endTraining
  (repeat' split) <;> simp [h]

@[simp] theorem commitExport_wf {o : MoverOp} {s : State} (h : Memory.wf s.mem = true) : Memory.wf (commitExport o s).mem = true := by
  unfold commitExport
  dsimp only
  (repeat' split) <;> simp [h]

/-! ### Layer commands -/

@[simp] theorem writePage_wf {q : Partition} {part x no offset : Nat} {b : Bytes} {s : State} (h : Memory.wf s.mem = true) :
    Memory.wf (writePage q part x no offset b s).mem = true := by
  unfold writePage
  split
  · exact h
  · extract_lets _ t
    have ht : Memory.wf t.mem = true := writeMem_wf h
    split
    · rwa [modSession_mem]
    · rwa [putGuest_mem]

@[simp] theorem releaseTile_wf {img : Image} {x : SlotEntry} {t : Nat} {w : TileWrite} {s : State} (h : Memory.wf s.mem = true) :
    Memory.wf (releaseTile img x t w s).mem = true := by
  unfold releaseTile
  split
  · exact h
  · split
    · exact h
    · exact writePage_wf (by rwa [guestWritePage_mem])

/-- A statistics record is written to a frame of statistics, which a guest may have to take first. -/
@[simp] theorem saveStats_wf {part len : Nat} {j : OpJob} {pos m l : Nat} {s : State} (h : Memory.wf s.mem = true) :
    Memory.wf (saveStats part len j pos m l s).mem = true := by
  unfold saveStats
  extract_lets _ _ x i t _ u y
  have hu : Memory.wf u.mem = true := by
    unfold u
    split
    · split
      · exact h
      · simp [t, h]
    · exact h
  clear_value u
  split
  · exact writeMem_wf hu
  · exact hu

/-- A configured operation writes memory where it saves statistics, and there alone. -/
theorem runVec_wf {e : CmdEnv} {j : OpJob} {w : CmdRun} (h : Memory.wf w.st.mem = true) : Memory.wf (runVec e j w).st.mem = true := by
  by_cases hj : j.code = 0x2C
  · have hst : (runVec e j w).st = saveStats e.slot.partition (exampleLength w.st j) j (j.zs.headD 0) (j.xs.headD 0) ((j.xs.drop 1).headD 0) w.st := by
      unfold runVec
      simp only [hj]
    rw [hst]
    exact saveStats_wf h
  · rw [runVec_view State.mem (fun _ _ => rfl) putSession_mem e j (fun hc => absurd hc hj) w]
    exact h

theorem runStep_wf {e : CmdEnv} {k : FabStep} {w : CmdRun} (h : Memory.wf w.st.mem = true) : Memory.wf (runStep e w k).st.mem = true := by
  by_cases hk : ∃ reads j, k = .vec reads j
  · obtain ⟨reads, j, rfl⟩ := hk
    unfold runStep
    split
    · exact h
    · exact runVec_wf h
  · rw [runStep_view State.mem send_mem (fun _ _ => rfl) putSession_mem e k w (fun reads j he => absurd ⟨reads, j, he⟩ hk)]
    exact h

theorem runSteps_wf {e : CmdEnv} {steps : List FabStep} {s : State} (h : Memory.wf s.mem = true) : Memory.wf (runSteps e steps s).st.mem = true := by
  suffices hw : ∀ w : CmdRun, Memory.wf w.st.mem = true → Memory.wf (steps.foldl (runStep e) w).st.mem = true from hw { st := s } h
  induction steps with
  | nil => exact fun _ hw => hw
  | cons k rest ih => exact fun _ hw => ih _ (runStep_wf hw)

@[simp] theorem endGuestTraining_wf {part : Nat} {s : State} (h : Memory.wf s.mem = true) : Memory.wf (endGuestTraining part s).mem = true := by
  refine foldl_wf (fun s e h => ?_) _ h
  simp [h]

@[simp] theorem endUpdate_wf {x : SlotEntry} {s : State} (h : Memory.wf s.mem = true) : Memory.wf (endUpdate x s).mem = true := by
  unfold endUpdate
  split
  · exact h
  · exact foldl_wf (fun _ _ h => endTraining_wf h) _ (endGuestTraining_wf h)

@[simp] theorem releaseAll_wf {e : CmdEnv} {c : LayerCommit} {w : CmdRun} (h : Memory.wf w.st.mem = true) : Memory.wf (releaseAll e c w).mem = true := by
  unfold releaseAll
  extract_lets x s1 s2 s3 _ s4
  have h1 : Memory.wf s1.mem = true := foldl_wf (fun _ _ h => releaseTile_wf h) c.writes h
  have h2 : s2.mem = s1.mem := foldl_mem (fun _ _ => releaseHand_mem _ _ _ _ _) c.hands s1
  have h3 : s3.mem = s2.mem := (modDistrict_mem _ _ _).trans (dropKind_mem _ _ _)
  have h4 : s4.mem = s3.mem := rfl
  refine endUpdate_wf ?_
  rwa [countOutputs_mem, h4, h3, h2]

/-! ### What a sampling commit does to each member of its microbatch -/

@[simp] theorem settlePages_wf {slot n : Nat} {s : State} (h : Memory.wf s.mem = true) : Memory.wf (settlePages slot n s).mem = true := by
  simp [settlePages, h]

@[simp] theorem settleGuest_wf {x n : Nat} {sampled : Bool} {s : State} (h : Memory.wf s.mem = true) :
    Memory.wf (settleGuest x n sampled s).mem = true := by
  unfold settleGuest
  extract_lets r
  rw [putGuest_mem]
  exact framesDue_wf h

@[simp] theorem commitReplay_wf {slot n : Nat} {r : Rebuild} {s : State} (h : Memory.wf s.mem = true) : Memory.wf (commitReplay slot n r s).mem = true := by
  unfold commitReplay
  dsimp only
  (repeat' split) <;> simp [h]

@[simp] theorem endAfter_wf {slot : Nat} {d : Draw} {s : State} (h : Memory.wf s.mem = true) : Memory.wf (endAfter slot d s).mem = true := by
  unfold endAfter
  (repeat' split) <;> simp [h]

@[simp] theorem refuseCommit_wf {slot : Nat} {s : State} (h : Memory.wf s.mem = true) : Memory.wf (refuseCommit slot s).mem = true := by
  simp [refuseCommit, h]

/-- A sampling commit writes no byte itself; pages it lays down fall due, and the generation may end. -/
@[simp] theorem commitServe_wf {slot n grant pieces step : Nat} {out : Option MemberOutput} {s : State} (h : Memory.wf s.mem = true) :
    Memory.wf (commitServe slot n grant pieces step out s).mem = true := by
  unfold commitServe
  extract_lets -underBinder x rows samples d0 nCol prefill cologne s1 s2
  split
  · exact refuseCommit_wf h
  · have h1 : SameMem s s1 := modSession_mem _ _ s
    have h2 : SameMem s1 s2 := by
      unfold s2
      split
      · rfl
      · exact countPart_mem _ _ s1
    have hs2 : Memory.wf s2.mem = true := (h1.trans h2).wf h
    clear_value s2
    split
    · extract_lets -underBinder s3 s4 s5
      have h3 : Memory.wf s3.mem = true := settlePages_wf hs2
      have h4 : SameMem s3 s4 := modSession_mem _ _ s3
      have h5 : Memory.wf s5.mem = true := endAfter_wf (h4.wf h3)
      split
      · rwa [reportCandidate_mem]
      · exact h5
    · extract_lets -underBinder y v drafts d picked forced stopped release runs s3 committed spec s4 s5 s6 s7 s8
      have h4 : SameMem s2 s4 := SameMem.trans (appendCommit_mem _ _ s2) (modSession_mem _ _ s3)
      have h5 : Memory.wf s5.mem = true := settlePages_wf (h4.wf hs2)
      have h7 : SameMem s5 s7 := SameMem.trans (countDraw_mem _ _ _ s5) (deliver_mem _ _ s6)
      have h8 : Memory.wf s8.mem = true := endAfter_wf (h7.wf h5)
      split
      · rwa [reportCandidate_mem]
      · exact h8

@[simp] theorem commitGuest_wf {p : Place} {n : Nat} {out : Option MemberOutput} {s : State} (h : Memory.wf s.mem = true) :
    Memory.wf (commitGuest p n out s).mem = true := by
  unfold commitGuest
  dsimp only
  split
  · exact h
  · split <;> exact settleGuest_wf h

@[simp] theorem commitMember_wf {p : Place} {n step : Nat} {out : Option MemberOutput} {s : State} (h : Memory.wf s.mem = true) :
    Memory.wf (commitMember p n step out s).mem = true := by
  unfold commitMember
  split
  · exact commitGuest_wf h
  · extract_lets x u y
    have hu : Memory.wf u.mem = true := by
      unfold u
      split
      · split
        · exact commitReplay_wf h
        · exact h
      · split
        · exact commitServe_wf h
        · exact h
    clear_value u
    split
    · rwa [applySet_mem]
    · exact hu

end Sys2Proof.Machine
end

section
/-! SUPPORT for O5. What writes or clears bytes, second part: handovers, checkpoints and restores, the Mover, the composition, releases, losses and boundaries. -/

namespace Sys2Proof.Machine

/-! ### Handovers -/

@[simp] theorem freezeSession_wf {slot : Nat} {s : State} (h : Memory.wf s.mem = true) : Memory.wf (freezeSession slot s).mem = true := by
  unfold freezeSession
  dsimp only
  (repeat' split) <;> simp [h]

@[simp] theorem tryFreeze_wf {k : Nat} {s : State} (h : Memory.wf s.mem = true) : Memory.wf (tryFreeze k s).mem = true := by
  unfold tryFreeze
  dsimp only
  (repeat' split) <;> simp [h]

@[simp] theorem freezeAll_wf {s : State} (h : Memory.wf s.mem = true) : Memory.wf (freezeAll s).mem = true :=
  foldl_wf (fun _ _ h => tryFreeze_wf h) _ h

@[simp] theorem lendPages_wf {peer : Nat} {x : Session} {s : State} (h : Memory.wf s.mem = true) : Memory.wf (lendPages peer x s).mem = true := by
  refine foldl_wf (fun s p h => ?_) x.pages h
  split
  · exact h
  · extract_lets _ s1 s2
    refine frameDue_wf ?_
    have h1 : s1.mem = s.mem := by
      unfold s1
      split <;> rfl
    have h2 : s2.mem = s1.mem := by
      unfold s2
      split
      · exact putFrame_mem _ _ _
      · rfl
    rwa [h2, h1]

@[simp] theorem confirmHandover_wf {slot newHandle : Nat} {s : State} (h : Memory.wf s.mem = true) :
    Memory.wf (confirmHandover slot newHandle s).mem = true := by
  unfold confirmHandover
  dsimp only
  (repeat' split) <;> simp [h]

/-! ### Checkpoints, restores and the arming of shrink plans -/

@[simp] theorem releaseHolds_wf {s : State} (h : Memory.wf s.mem = true) : Memory.wf (releaseHolds s).mem = true :=
  foldl_wf (fun _ _ h => dropFrame_wf h) _ h

@[simp] theorem endCheckpoint_wf {part : Nat} {s : State} (h : Memory.wf s.mem = true) : Memory.wf (endCheckpoint part s).mem = true := by
  unfold endCheckpoint
  dsimp only
  (repeat' split) <;> simp [h]

@[simp] theorem abandonCheckpoint_wf {part : Nat} {s : State} (h : Memory.wf s.mem = true) : Memory.wf (abandonCheckpoint part s).mem = true := by
  unfold abandonCheckpoint
  split <;> simp [h]

@[simp] theorem takeSnapshot_wf {c : Checkpoint} {s : State} (h : Memory.wf s.mem = true) : Memory.wf (takeSnapshot c s).mem = true := by
  unfold takeSnapshot
  split <;> simp [h]

@[simp] theorem dueSnapshots_wf {img : Image} {s : State} (h : Memory.wf s.mem = true) : Memory.wf (dueSnapshots img s).mem = true :=
  foldl_wf (fun _ _ h => takeSnapshot_wf h) _ h

@[simp] theorem closeShard_wf {part : Nat} {s : State} (h : Memory.wf s.mem = true) : Memory.wf (closeShard part s).mem = true := by
  unfold closeShard
  dsimp only
  (repeat' split) <;> simp [h]

@[simp] theorem commitShard_wf {o : MoverOp} {s : State} (h : Memory.wf s.mem = true) : Memory.wf (commitShard o s).mem = true := by
  unfold commitShard
  dsimp only
  (repeat' split) <;> simp [h]

/-- A restored session takes pages whose bytes come as capsules; one that rebuilds gives its frames up. -/
theorem restoreRecord_wf {part dest client : Nat} {x : ShardRecord} {a : List (Nat × Nat) × List (Nat × Nat) × State}
    (h : Memory.wf a.2.2.mem = true) : Memory.wf (restoreRecord part dest client x a).2.2.mem = true := by
  unfold restoreRecord
  extract_lets -underBinder s b r0
  have hs : Memory.wf s.mem = true := h
  clear_value s
  split
  · split
    · exact h
    · extract_lets -underBinder s1 y r _ s2 s3 s4 name s5
      have h1 : SameMem s s1 := takeSlot_mem s
      have hr : SameMem s1 r.2.2 := by
        unfold r
        split
        · rfl
        · exact restorePages_mem _ _ _ _ _ s1
      have h2 : SameMem r.2.2 s2 := putSession_mem _ _ r.2.2
      have h3 : SameMem s2 s3 := adoptSet_mem _ _ s2
      have h4 : SameMem s3 s4 := by rw [SameMem, queueLedger_mem, lagAtOpen_mem, growSegments_mem]
      have hw : Memory.wf s4.mem = true := (((h1.trans hr).trans (h2.trans h3)).trans h4).wf hs
      change Memory.wf s5.mem = true
      unfold s5
      split
      · exact enterRebuilding_wf hw
      · exact hw
  · have hr : SameMem s r0.2.2 := restorePages_mem _ _ _ _ _ s
    change Memory.wf (putGuest _ _ r0.2.2).mem = true
    rw [putGuest_mem]
    exact hr.wf hs

theorem restoreRecords_wf {part dest client : Nat} {l : List ShardRecord} {a : List (Nat × Nat) × List (Nat × Nat) × State}
    (h : Memory.wf a.2.2.mem = true) : Memory.wf (l.foldl (fun a q => restoreRecord part dest client q a) a).2.2.mem = true := by
  induction l generalizing a with
  | nil => exact h
  | cons q rest ih => exact ih (restoreRecord_wf h)

@[simp] theorem commitRestore_wf {r : Restoring} {s : State} (h : Memory.wf s.mem = true) : Memory.wf (commitRestore r s).mem = true := by
  unfold commitRestore
  extract_lets -underBinder step
  split
  · rwa [modRestore_mem]
  · rw [modRestore_mem, restoreAdapters_mem]
    exact restoreRecords_wf h

@[simp] theorem applyCommit_wf {part value : Nat} {s : State} (h : Memory.wf s.mem = true) : Memory.wf (applyCommit part value s).mem = true := by
  unfold applyCommit
  dsimp only
  (repeat' split) <;> simp [h]

@[simp] theorem decide_wf {part : Nat} {s : State} (h : Memory.wf s.mem = true) : Memory.wf (decide_ part s).mem = true := by
  unfold decide_
  (repeat' split) <;> simp [h]

@[simp] theorem takeReport_wf {part position step value : Nat} {s : State} (h : Memory.wf s.mem = true) :
    Memory.wf (takeReport part position step value s).mem = true := by
  unfold takeReport
  (repeat' split) <;> simp [h]

/-! ### Mover slots -/

@[simp] theorem badFrame_wf {addr : Nat} {s : State} (h : Memory.wf s.mem = true) : Memory.wf (badFrame addr s).mem = true := by
  refine foldl_wf (fun _ _ h => enterRebuilding_wf h) _ ?_
  rwa [spoilPage_mem]

@[simp] theorem badCapsule_wf {o : MoverOp} {addr : Nat} {s : State} (h : Memory.wf s.mem = true) : Memory.wf (badCapsule o addr s).mem = true := by
  unfold badCapsule
  split <;> simp [h]

@[simp] theorem badBuffer_wf {o : MoverOp} {s : State} (h : Memory.wf s.mem = true) : Memory.wf (badBuffer o s).mem = true := by
  unfold badBuffer
  dsimp only
  (repeat' split) <;> simp [h]

@[simp] theorem commitKind_wf {o : MoverOp} {s : State} (h : Memory.wf s.mem = true) : Memory.wf (commitKind o s).mem = true := by
  unfold commitKind
  dsimp only
  (repeat' split) <;> simp [h]

@[simp] theorem commitOpOf_wf {o : MoverOp} {s : State} (h : Memory.wf s.mem = true) : Memory.wf (commitOpOf o s).mem = true := by
  simp [commitOpOf, h]

@[simp] theorem endOp_wf {results : List MoverResult} {id : Nat} {s : State} (h : Memory.wf s.mem = true) : Memory.wf (endOp results id s).mem = true := by
  unfold endOp
  dsimp only
  (repeat' split) <;> simp [h]

/-! ### Composition maps -/

@[simp] theorem lenderLost_wf {m : Nat} {s : State} (h : Memory.wf s.mem = true) : Memory.wf (lenderLost m s).mem = true := by
  unfold lenderLost
  dsimp only
  split
  · exact h
  · refine foldl_wf (fun _ _ h => badFrame_wf h) _ ?_
    rwa [setFlag_mem]

@[simp] theorem memberGone_wf {m : Nat} {s : State} (h : Memory.wf s.mem = true) : Memory.wf (memberGone m s).mem = true := by
  simp [memberGone, h]

@[simp] theorem applyMap_wf {m : CompMap} {at_ : Nat} {s : State} (h : Memory.wf s.mem = true) : Memory.wf (applyMap m at_ s).mem = true := by
  unfold applyMap
  extract_lets was gone idx grace _ s1 s2 _ s3
  have h1 : s1.mem = s.mem := rfl
  have h2 : Memory.wf s2.mem = true := foldl_wf (fun _ _ h => memberGone_wf h) gone (h1 ▸ h)
  rw [finish_mem, pullLeaving_mem]
  exact h2

@[simp] theorem leaveComposition_wf {s : State} (h : Memory.wf s.mem = true) : Memory.wf (leaveComposition s).mem = true := by
  unfold leaveComposition
  split
  · exact h
  · extract_lets lenders remote s1 s2 _ s3
    have h1 : Memory.wf s1.mem = true := foldl_wf (fun _ _ h => lenderLost_wf h) lenders h
    have h2 : s2.mem = s1.mem := foldl_mem (fun _ _ => freeSlot_mem _ _) remote s1
    have h3 : s3.mem = s2.mem := rfl
    exact (h3.trans h2) ▸ h1

/-! ### Tenancy, quotes, key release, tenant release, presence, the seal and custodial commands -/

theorem scrub_wf (s : State) : Memory.wf (scrub s).mem = true := rfl

/-- A release ends with a scrub, so it lists no byte, whatever stood before. -/
@[simp] theorem completeRelease_wf (s : State) : Memory.wf (completeRelease s).mem = true := by
  unfold completeRelease
  dsimp only
  split <;> simp [scrub_wf]

@[simp] theorem openSeal_wf (s : State) : Memory.wf (openSeal s).mem = true :=
  completeRelease_wf _

/-! ### Calibration commands -/

@[simp] theorem holdSession_wf {s : State} {slot : Nat} (h : Memory.wf s.mem = true) : Memory.wf (holdSession s slot).mem = true := by
  unfold holdSession
  dsimp only
  (repeat' split) <;> simp [h]

@[simp] theorem holdSessions_wf {s : State} (h : Memory.wf s.mem = true) : Memory.wf (holdSessions s).mem = true := by
  unfold holdSessions
  dsimp only
  rw [dropOps_mem]
  exact foldl_wf (fun _ _ h => holdSession_wf h) _ h

@[simp] theorem departFor_wf {at_ : Nat} {s : State} (h : Memory.wf s.mem = true) : Memory.wf (departFor at_ s).mem = true := by
  unfold departFor
  split <;> simp [h]

@[simp] theorem scheduleActivation_wf {p : Packet} {img : FirmwareImage} {s : State} (h : Memory.wf s.mem = true) :
    Memory.wf (scheduleActivation p img s).mem = true := by
  unfold scheduleActivation
  dsimp only
  (repeat' split) <;> simp [h]

/-! ### Errors, fencing and repair in service -/

@[simp] theorem badT1_wf {addr : Nat} {s : State} (h : Memory.wf s.mem = true) : Memory.wf (badT1 addr s).mem = true := by
  simp [badT1, h]

@[simp] theorem loseHbm_wf {stack channel : Nat} {s : State} (h : Memory.wf s.mem = true) : Memory.wf (loseHbm stack channel s).mem = true := by
  unfold loseHbm
  extract_lets holds frames descs models s1 s2 _ _ s3
  have h1 : Memory.wf s1.mem = true := foldl_wf (fun _ _ h => badT1_wf h) frames h
  have h2 : Memory.wf s2.mem = true := foldl_wf (fun _ _ h => enterRebuilding_wf h) descs h1
  have h3 : s3.mem = s2.mem := rfl
  rwa [spareRecord_mem, modHbm_mem, h3]

@[simp] theorem failHbm_wf {stack channel : Nat} {s : State} (h : Memory.wf s.mem = true) : Memory.wf (failHbm stack channel s).mem = true := by
  unfold failHbm
  dsimp only
  (repeat' split) <;> simp [h]

@[simp] theorem channelBody_wf {stack c : Nat} {force : Bool} {p : Packet} {s : State} (h : Memory.wf s.mem = true) :
    Memory.wf (channelBody stack c force p s).mem = true := by
  unfold channelBody
  dsimp only
  (repeat' split) <;> simp [h]

@[simp] theorem unitFenceBody_wf {c : Nat} {p : Packet} {s : State} (h : Memory.wf s.mem = true) : Memory.wf (unitFenceBody c p s).mem = true := by
  unfold unitFenceBody
  dsimp only
  (repeat' split) <;> simp [h]

@[simp] theorem recallRuns_wf {slot first count : Nat} {s : State} (h : Memory.wf s.mem = true) : Memory.wf (recallRuns slot first count s).mem = true := by
  unfold recallRuns
  dsimp only
  (repeat' split) <;> simp [h]

@[simp] theorem loseSegment_wf {n : Nat} {avoid : List Nat} {s : State} (h : Memory.wf s.mem = true) : Memory.wf (loseSegment n avoid s).mem = true := by
  unfold loseSegment
  extract_lets on t
  rw [rewriteCopy_mem, rewriteCopy_mem]
  refine foldl_wf (fun s e h => ?_) on h
  refine recallRuns_wf ?_
  rwa [spoilLedger_mem]

@[simp] theorem loseCopies_wf {c : Nat} {s : State} (h : Memory.wf s.mem = true) : Memory.wf (loseCopies c s).mem = true := by
  refine foldl_wf (fun s e h => ?_) _ h
  split
  · exact loseSegment_wf h
  · split
    · rwa [rewriteCopy_mem]
    · split
      · rwa [rewriteCopy_mem]
      · exact h

/-- A lost channel takes its frames and ledger copies along; the sessions on them rebuild. -/
@[simp] theorem channelLost_wf {c : Nat} {s : State} (h : Memory.wf s.mem = true) : Memory.wf (channelLost c s).mem = true := by
  unfold channelLost
  extract_lets d serving share frames lent s1 s2 _ s3 s4
  have h1 : Memory.wf s1.mem = true := by
    unfold s1
    split
    · exact foldl_wf (fun _ _ h => badFrame_wf h) frames (loseCopies_wf h)
    · exact h
  have h2 : s2.mem = s1.mem := foldl_mem (fun _ _ => send_mem _ _) lent s1
  have h3 : s3.mem = s2.mem := rfl
  rwa [finish_mem, modDdr_mem, h3, h2]

@[simp] theorem badTail_wf {slot : Nat} {s : State} (h : Memory.wf s.mem = true) : Memory.wf (badTail slot s).mem = true := by
  unfold badTail
  dsimp only
  (repeat' split) <;> simp [h]

@[simp] theorem uncorrectable_wf {p : ErrorPlace} {s : State} (h : Memory.wf s.mem = true) : Memory.wf (uncorrectable p s).mem = true := by
  unfold uncorrectable
  dsimp only
  (repeat' split) <;> simp [h]

/-! ### Power-on, the boot phases, resets of every kind, and the loss of the host -/

theorem bootState_wf (kind : Nat) (s : State) : Memory.wf (bootState kind s).mem = true := rfl

theorem deviceResetTo_wf (slotAOk slotBOk factoryOk : Bool) (s : State) : Memory.wf (deviceResetTo slotAOk slotBOk factoryOk s).mem = true := by
  simp [deviceResetTo, bootState_wf]

@[simp] theorem trainFailing_wf {s : State} {u : Nat × Nat} (h : Memory.wf s.mem = true) : Memory.wf (trainFailing s u).mem = true := by
  unfold trainFailing
  split
  · simp [h]
  · split
    · simp [h]
    · split
      · extract_lets -underBinder k x
        split
        · exact h
        · split
          · simp [h]
          · exact loseHbm_wf h
      · split
        · simp [h]
        · split
          · rw [openRecord_mem, foldl_mem (fun _ _ => foldl_mem (fun _ _ => bootFenceBlock_mem _ _) _ _)]
            exact h
          · exact h

@[simp] theorem loseHost_wf {cause : Nat} {s : State} (h : Memory.wf s.mem = true) : Memory.wf (loseHost cause s).mem = true := by
  unfold loseHost
  dsimp only
  (repeat' split) <;> simp [h]

theorem recoverWith_wf (p : Packet) (img : FirmwareImage) (s : State) : Memory.wf (recoverWith p img s).mem = true :=
  deviceResetTo_wf _ _ _ _

@[simp] theorem activateBody_wf {c : Nat} {p : Packet} {s : State} (h : Memory.wf s.mem = true) : Memory.wf (activateBody c p s).mem = true := by
  unfold activateBody
  split
  · simp [h]
  · split
    · exact recoverWith_wf _ _ _
    · split
      · simp [h]
      · exact scheduleActivation_wf h

/-! ### What ring members and homes send one another -/

theorem forwardedBody_wf {p : Packet} {buf : Bytes} {cap : Option SessionCapsule} {body : Nat → Packet → State → State}
    (hb : forwardedBody p buf cap = some body) {c : Nat} {s : State} (h : Memory.wf s.mem = true) : Memory.wf (body c p s).mem = true := by
  unfold forwardedBody at hb
  split at hb
  · cases hb
    rwa [forkBody_mem]
  · cases hb
    rwa [appendBodyCmd_mem]
  · cases hb
    split
    · rwa [trainBody_mem]
    · rwa [generateBody_mem]
  · cases hb
    rwa [parkBody_mem]
  · cases hb
    rwa [reviveBody_mem]
  · cases hb
    exact cancelBody_wf h
  · cases hb
    exact closeBody_wf h
  · cases hb
    rwa [queryBody_mem]
  · cases hb
    rwa [constrainBody_mem]
  · cases hb
    rwa [exportBody_mem]
  · obtain ⟨_, -, rfl⟩ := Option.map_eq_some_iff.mp hb
    rwa [importBody_mem]
  · cases hb
    rwa [handoverOutBody_mem]
  · cases hb

/-- The states that a gate's verdict carries have a property. -/
def Gate.All (P : State → Prop) : Gate → Prop
  | .run _ t => P t
  | .refuse t _ => P t
  | .forward _ t => P t
  | .wait => True

theorem checkHandle_all {P : State → Prop} {p : Packet} {colour : Nat} {s : State} (h : P s) : (checkHandle p colour s).All P := by
  unfold checkHandle
  dsimp only
  (repeat' split) <;> exact h

@[simp] theorem serveForwarded_wf {sender : Nat} {p : Packet} {buf : Bytes} {cap : Option SessionCapsule} {s : State} (h : Memory.wf s.mem = true) :
    Memory.wf (serveForwarded sender p buf cap s).mem = true := by
  have hg := checkHandle_all (P := fun t => Memory.wf t.mem = true) (p := p) (colour := 0) h
  unfold serveForwarded
  cases hv : checkHandle p 0 s with
  | wait => exact h
  | refuse t a =>
    rw [hv] at hg
    exact ((dropRelayed_mem _ _).trans (reply_mem _ _ _)).symm ▸ hg
  | forward dest t =>
    rw [hv] at hg
    exact ((dropRelayed_mem _ _).trans ((forwardTo_mem _ _ _ _).trans (await_mem _ _ _))).symm ▸ hg
  | run colour t =>
    rw [hv] at hg
    dsimp only
    split
    · exact hg
    · split
      · next hb =>
        rw [dropRelayed_mem]
        exact forwardedBody_wf hb hg
      · exact ((dropRelayed_mem _ _).trans (reply_mem _ _ _)).symm ▸ hg

/-! ### The step boundary -/

@[simp] theorem dropPages_wf {slot : Nat} {s : State} (h : Memory.wf s.mem = true) : Memory.wf (dropPages slot s).mem = true :=
  (modSession_mem _ _ _).symm ▸ foldl_wf (fun _ _ h => dropFrame_wf h) _ h

@[simp] theorem clearPartition_wf {part : Nat} {s : State} (h : Memory.wf s.mem = true) : Memory.wf (clearPartition part s).mem = true := by
  unfold clearPartition
  extract_lets s1 out _ s2 guests s3
  have h1 : Memory.wf s1.mem = true := abandonCheckpoint_wf h
  have h2 : s2.mem = s1.mem := rfl
  have h3 : Memory.wf s3.mem = true := by
    refine foldl_wf (fun s g h => ?_) guests (h2 ▸ h1)
    rw [dropGuest_mem]
    exact foldl_wf (fun _ _ h => dropFrame_wf h) _ h
  exact foldl_wf (fun _ _ h => dropPages_wf h) _ h3

@[simp] theorem rebuildHome_wf {slot : Nat} {s : State} (h : Memory.wf s.mem = true) : Memory.wf (rebuildHome slot s).mem = true := by
  unfold rebuildHome
  extract_lets x t y
  have ht : Memory.wf t.mem = true := by
    unfold t
    split
    · split
      · split
        · rwa [revertOpen_mem]
        · exact freeTarget_wf h
      · exact h
    · exact h
  clear_value t
  split
  · rw [modSession_mem]
    exact dropPages_wf ht
  · exact enterRebuilding_wf (dropPages_wf ht)

@[simp] theorem departOrder1_wf {e : Nat × Nat × List Nat} {s : State} (h : Memory.wf s.mem = true) : Memory.wf (departOrder1 e s).mem = true := by
  refine foldl_wf (fun s r h => ?_) _ h
  split
  · exact clearPartition_wf h
  · exact h

@[simp] theorem departOrder3_wf {e : Nat × Nat × List Nat} {s : State} (h : Memory.wf s.mem = true) : Memory.wf (departOrder3 e s).mem = true := by
  refine foldl_wf (fun s r h => ?_) _ h
  extract_lets -underBinder s1 _ s2
  refine foldl_wf (fun _ _ h => rebuildHome_wf h) _ ?_
  have h1 : s1.mem = s.mem := discardStaged_mem _ _ _
  have h2 : s2.mem = s1.mem := by
    unfold s2
    split
    · rfl
    · split
      · simp
      · rfl
  rwa [h2, h1]

@[simp] theorem departed_wf {s : State} (h : Memory.wf s.mem = true) : Memory.wf (departed s).mem = true := by
  unfold departed
  extract_lets -underBinder own _ s1 _ s2 _ s3
  have h1 : s1.mem = s.mem := rfl
  split
  · exact h
  · have h3 : Memory.wf s3.mem = true := foldl_wf (fun _ _ h => dropFrame_wf h) _ h
    split
    · rwa [reacquire_mem]
    · exact h3

@[simp] theorem order1_wf {img : Image} {s : State} (h : Memory.wf s.mem = true) : Memory.wf (order1 img s).mem = true := by
  unfold order1
  extract_lets _ s1 closing s2 s3 s4
  have h1 : Memory.wf s1.mem = true := foldl_wf (fun _ _ h => dropFrame_wf h) _ h
  have h2 : Memory.wf s2.mem = true := foldl_wf (fun _ _ h => freeClosing_wf h) closing h1
  have h4 : Memory.wf s4.mem = true := foldl_wf (fun _ _ h => departOrder1_wf h) _ (releaseHolds_wf h2)
  exact dueSnapshots_wf h4

@[simp] theorem order3_wf {s : State} (h : Memory.wf s.mem = true) : Memory.wf (order3 s).mem = true := by
  refine departed_wf (foldl_wf (fun _ _ h => departOrder3_wf h) _ ?_)
  simp [h]

@[simp] theorem order5_wf {s : State} (h : Memory.wf s.mem = true) : Memory.wf (order5 s).mem = true := by
  unfold order5
  (repeat' split) <;> simp [h]

end Sys2Proof.Machine
end

section
/-! SUPPORT for O5. Outcomes and packet rows: a row keeps the canonical form where its body does, for the gate, the envelopes and the reply write no byte. -/

namespace Sys2Proof.Machine

/-- The state that an outcome goes on with, if it goes on, lists its bytes in order. -/
def NextWf (o : Host.Outcome State Fault Refusal) : Prop := ∀ t, o = .next t → Memory.wf t.mem = true

@[simp] theorem nextWf_next {t : State} : NextWf (.next t) ↔ Memory.wf t.mem = true :=
  ⟨fun h => h t rfl, fun h _ e => Host.Outcome.next.inj e ▸ h⟩

/-! ### Recognition of packets -/

theorem openEnvelope_wf {client kind : Nat} {e : Envelope} {s t : State} (h : Memory.wf s.mem = true) (ht : openEnvelope client kind e s = .ok t) :
    Memory.wf t.mem = true := by
  unfold openEnvelope at ht
  dsimp only at ht
  split at ht
  · cases ht
  · split at ht
    · cases ht
    · split at ht
      · cases ht
      · split at ht
        · cases ht
          exact h
        · split at ht
          · cases ht
          · split at ht
            · cases ht
            · cases ht
              exact h

theorem openEnvelopes_wf {client kind : Nat} {l : List Envelope} {s t : State} (h : Memory.wf s.mem = true) (ht : openEnvelopes client kind l s = .ok t) :
    Memory.wf t.mem = true := by
  induction l generalizing s with
  | nil =>
    cases ht
    exact h
  | cons e rest ih =>
    rw [openEnvelopes] at ht
    split at ht
    · cases ht
    · next he => exact ih (openEnvelope_wf h he) ht

/-- Envelopes are opened only where a packet carries some; a state without any stays as it is. -/
theorem opened_wf {c : Prop} [Decidable c] {client kind : Nat} {l : List Envelope} {s t : State} (h : Memory.wf s.mem = true)
    (ht : (if c then openEnvelopes client kind l s else .ok s) = .ok t) : Memory.wf t.mem = true := by
  split at ht
  · exact openEnvelopes_wf h ht
  · cases ht
    exact h

theorem police_wf {p : Packet} {s : State} {r : Nat × State} (h : Memory.wf s.mem = true) (hr : police p s = .ok r) : Memory.wf r.2.mem = true := by
  unfold police at hr
  dsimp only at hr
  split at hr
  · cases hr
    exact h
  · split at hr
    · cases hr
    · cases hr
      exact h

/-- The gate's verdict carries a state whose bytes stand in order. -/
theorem gate_wf {p : Packet} {prior : Previous} {s : State} (h : Memory.wf s.mem = true) : (gate p prior s).All (fun t => Memory.wf t.mem = true) := by
  unfold gate
  split
  · exact h
  · split
    · exact h
    · split
      · exact h
      · split
        · next d _ =>
          change Memory.wf _ = true
          split
          · rwa [setFlag_mem]
          · exact h
        · next hs =>
          have h1 := opened_wf h hs
          split
          · change Memory.wf _ = true
            rwa [setFlag_mem]
          · next hp =>
            have h2 := police_wf h1 hp
            split
            · split
              · trivial
              · exact h2
              · split
                · exact checkHandle_all h2
                · exact h2
            · exact checkHandle_all h2

/-! ### Serving a packet -/

theorem admitted_wf {colour : Nat} {p : Packet} {s t : State} (h : Memory.wf s.mem = true) (ht : Memory.wf t.mem = true) :
    Memory.wf (admitted colour p s t).mem = true := by
  unfold admitted
  split
  · rwa [reply_mem]
  · exact ht

/-- A packet row keeps the order of the bytes where its body keeps it: the gate, the envelopes and the reply write none. -/
theorem serveHost_wf {data : Bytes} {is : Packet → Bool} {waits : Packet → State → Bool} {body : Nat → Packet → State → State} {p : Packet} {s : State}
    (hb : ∀ c t, Memory.wf t.mem = true → Memory.wf (body c p t).mem = true) (h : Memory.wf s.mem = true) :
    Memory.wf (serveHost data is waits body p s).mem = true := by
  unfold serveHost
  split
  · exact h
  · extract_lets s0
    have h0 : Memory.wf s0.mem = true := by
      unfold s0
      split
      · exact h
      · rwa [recognise_mem]
    clear_value s0
    split
    · exact h0
    · next prior _ =>
      have hg := gate_wf (p := p) (prior := prior) h0
      cases hv : gate p prior s0 with
      | wait => exact h0
      | refuse t a =>
        rw [hv] at hg
        dsimp only
        rw [dropRecognised_mem, reply_mem]
        exact hg
      | forward dest t =>
        rw [hv] at hg
        dsimp only
        rw [dropRecognised_mem, await_mem, forwardTo_mem]
        exact hg
      | run colour t =>
        rw [hv] at hg
        dsimp only
        split
        · exact h0
        · split
          · rw [dropRecognised_mem, reply_mem]
            split
            · rw [setFlag_mem]
              exact hg
            · exact hg
          · next hs =>
            have hu := opened_wf hg hs
            rw [dropRecognised_mem]
            exact admitted_wf hu (hb _ _ hu)

theorem nextWf_serve {data : Bytes} {is : Packet → Bool} {waits : Packet → State → Bool} {body : Nat → Packet → State → State} {p : Packet} {s : State}
    (hb : ∀ c t, (body c p t).mem = t.mem) (h : Memory.wf s.mem = true) : NextWf (.next (serveHost data is waits body p s)) :=
  nextWf_next.mpr (serveHost_wf (fun c t ht => (congrArg Memory.wf (hb c t)).trans ht) h)

theorem nextWf_serve_of_wf {data : Bytes} {is : Packet → Bool} {waits : Packet → State → Bool} {body : Nat → Packet → State → State} {p : Packet} {s : State}
    (hb : ∀ c t, Memory.wf t.mem = true → Memory.wf (body c p t).mem = true) (h : Memory.wf s.mem = true) :
    NextWf (.next (serveHost data is waits body p s)) :=
  nextWf_next.mpr (serveHost_wf hb h)

end Sys2Proof.Machine
end

section
/-! SUPPORT for O5. The rows that are no packet: each goes on with a state in canonical form. -/

namespace Sys2Proof.Machine

/-! ### The cadence rows -/

theorem execCadPeriodChange_wf {code : Nat} {s : State} (h : Memory.wf s.mem = true) : NextWf (execCadPeriodChange code s) := by
  unfold execCadPeriodChange
  split <;> simp [h]

theorem execCadModeChange_wf {mode : Nat} {s : State} (h : Memory.wf s.mem = true) : NextWf (execCadModeChange mode s) := by
  unfold execCadModeChange
  split <;> simp [h]

theorem execBeatMark_wf {spacingOk : Bool} {phaseErr : Int} {s : State} (h : Memory.wf s.mem = true) : NextWf (execBeatMark spacingOk phaseErr s) := by
  simp [execBeatMark, h]

theorem execBeatNumber_wf {source : Nat} {bytes : Bytes} {s : State} (h : Memory.wf s.mem = true) : NextWf (execBeatNumber source bytes s) := by
  simp [execBeatNumber, h]

theorem execNumLost_wf {s : State} (h : Memory.wf s.mem = true) : NextWf (execNumLost s) := by
  unfold execNumLost
  split <;> simp [h]

theorem execMarksAbsent_wf {s : State} (h : Memory.wf s.mem = true) : NextWf (execMarksAbsent s) := by
  unfold execMarksAbsent
  dsimp only
  (repeat' split) <;> simp [h]

theorem execAcqFail_wf {s : State} (h : Memory.wf s.mem = true) : NextWf (execAcqFail s) := by
  unfold execAcqFail
  split <;> simp [h]

theorem execHoldLimit_wf {s : State} (h : Memory.wf s.mem = true) : NextWf (execHoldLimit s) := by
  unfold execHoldLimit
  split <;> simp [h]

theorem execBeatNumberSend_wf {s : State} (h : Memory.wf s.mem = true) : NextWf (execBeatNumberSend s) := by
  unfold execBeatNumberSend
  rw [nextWf_next]
  split
  · extract_lets b serial sent
    have h1 : SameMem s serial := by
      unfold serial
      split
      · exact send_mem _ _
      · rfl
    have h2 : SameMem serial sent := foldl_mem (fun _ _ => send_mem _ _) _ serial
    exact (h1.trans h2).wf h
  · exact h

theorem execCadenceMarkSend_wf {s : State} (h : Memory.wf s.mem = true) : NextWf (execCadenceMarkSend s) := by
  unfold execCadenceMarkSend
  rw [nextWf_next]
  split
  · extract_lets sent
    have h1 : SameMem s sent := foldl_mem (fun _ _ => send_mem _ _) _ s
    exact h1.wf h
  · exact h

theorem execCadenceMark_wf {link beat phase : Nat} {s : State} (h : Memory.wf s.mem = true) : NextWf (execCadenceMark link beat phase s) := by
  unfold execCadenceMark
  dsimp only
  (repeat' split) <;> simp [h]

theorem execXrefLost_wf {s : State} (h : Memory.wf s.mem = true) : NextWf (execXrefLost s) := by
  unfold execXrefLost
  split <;> simp [h]

theorem execXrefReturn_wf {s : State} (h : Memory.wf s.mem = true) : NextWf (execXrefReturn s) := by
  unfold execXrefReturn
  split <;> simp [h]

/-! ### The settings of SET_PARAM and GET_PARAM -/

theorem execDeviceStateRequest_wf {state : Nat} {s : State} (h : Memory.wf s.mem = true) : NextWf (execDeviceStateRequest state s) := by
  unfold execDeviceStateRequest
  split <;> simp [h]

/-- What stands after a register write that sets a parameter. -/
theorem SetOut.landed_wf {out : SetOut} {s : State} (h : Memory.wf s.mem = true) (hout : out.Wf) :
    Memory.wf (match out with | .done t => t | .refused _ => s | .waiting _ t => t).mem = true := by
  cases out with
  | done t => exact hout
  | refused a => exact h
  | waiting n t => exact hout

theorem execCliRunPreempt_wf {n : Nat} {s : State} (h : Memory.wf s.mem = true) : NextWf (execCliRunPreempt n s) :=
  nextWf_next.mpr (SetOut.landed_wf h (setRun_wf h))

theorem execPreemptionComplete_wf {n : Nat} {s : State} (h : Memory.wf s.mem = true) : NextWf (execPreemptionComplete n s) := by
  simp [execPreemptionComplete, h]

theorem execCliRunResume_wf {n : Nat} {s : State} (h : Memory.wf s.mem = true) : NextWf (execCliRunResume n s) :=
  nextWf_next.mpr (SetOut.landed_wf h (setRun_wf h))

theorem execQueueStateWrite_wf {n scan seq replyAt replyCount : Nat} {s : State} (h : Memory.wf s.mem = true) :
    NextWf (execQueueStateWrite n scan seq replyAt replyCount s) :=
  nextWf_next.mpr (SetOut.landed_wf h (setQueue_wf h))

/-! ### Recognition, PAD, PING, QUERY_DEVICE, STATS_READ and EVENT_SNAPSHOT -/

theorem execPacketRecognise_wf {p : Packet} {s : State} (h : Memory.wf s.mem = true) : NextWf (execPacketRecognise p s) := by
  simp [execPacketRecognise, h]

theorem execPad_wf {p : Packet} {s : State} (h : Memory.wf s.mem = true) : NextWf (execPad p s) := by
  unfold execPad
  split <;> simp [h]

theorem execEventSnapshotDone_wf {s : State} (h : Memory.wf s.mem = true) : NextWf (execEventSnapshotDone s) := by
  unfold execEventSnapshotDone
  split <;> simp [h]

/-! ### The session commands that act at recognition -/

theorem execTokenizeEnd_wf {slot : Nat} {s : State} (h : Memory.wf s.mem = true) : NextWf (execTokenizeEnd slot s) := by
  unfold execTokenizeEnd
  dsimp only
  (repeat' split) <;> simp [h]

/-! ### Kills, schedule notices, deferrals, fallback plans, departures and fences -/

theorem execLateArrival_wf {link slotId transfer lateness : Nat} {s : State} (h : Memory.wf s.mem = true) :
    NextWf (execLateArrival link slotId transfer lateness s) := by
  unfold execLateArrival
  dsimp only
  (repeat' split) <;> simp [h]

theorem execMprogError_wf {district block core slotId : Nat} {s : State} (h : Memory.wf s.mem = true) :
    NextWf (execMprogError district block core slotId s) := by
  unfold execMprogError
  dsimp only
  (repeat' split) <;> simp [h]

theorem execWeightTagFail_wf {model chunk slotId : Nat} {s : State} (h : Memory.wf s.mem = true) : NextWf (execWeightTagFail model chunk slotId s) := by
  simp [execWeightTagFail, h]

theorem execSlipNotice_wf {n : Notice} {s : State} (h : Memory.wf s.mem = true) : NextWf (execSlipNotice n s) := by
  unfold execSlipNotice
  split <;> simp [h]

theorem execSlipApply_wf {partition : Nat} {s : State} (h : Memory.wf s.mem = true) : NextWf (execSlipApply partition s) := by
  unfold execSlipApply
  dsimp only
  (repeat' split) <;> simp [h]

theorem execAbortNotice_wf {n : Notice} {s : State} (h : Memory.wf s.mem = true) : NextWf (execAbortNotice n s) := by
  unfold execAbortNotice
  split <;> simp [h]

theorem execDeferNotice_wf {n : Notice} {s : State} (h : Memory.wf s.mem = true) : NextWf (execDeferNotice n s) := by
  unfold execDeferNotice
  split <;> simp [h]

theorem execFallbackNotice_wf {n : Notice} {s : State} (h : Memory.wf s.mem = true) : NextWf (execFallbackNotice n s) := by
  unfold execFallbackNotice
  split <;> simp [h]

theorem execImageReady_wf {member ringId ringDigest activateAt : Nat} {s : State} (h : Memory.wf s.mem = true) :
    NextWf (execImageReady member ringId ringDigest activateAt s) := by
  simp [execImageReady, h]

/-! ### Supply states, rail requests, operating profiles and device states -/

theorem execSupplyWarn_wf {mV : Nat} {s : State} (h : Memory.wf s.mem = true) : NextWf (execSupplyWarn mV s) := by
  unfold execSupplyWarn
  split <;> simp [h]

theorem execSupplyNormal_wf {mV : Nat} {s : State} (h : Memory.wf s.mem = true) : NextWf (execSupplyNormal mV s) := by
  simp [execSupplyNormal, h]

theorem execReducedEntry_wf {mV mA : Nat} {s : State} (h : Memory.wf s.mem = true) : NextWf (execReducedEntry mV mA s) := by
  unfold execReducedEntry
  split <;> simp [h]

theorem execOvercurrent_wf {mV mA : Nat} {s : State} (h : Memory.wf s.mem = true) : NextWf (execOvercurrent mV mA s) := by
  unfold execOvercurrent
  dsimp only
  (repeat' split) <;> simp [h]

theorem execReducedExit_wf {mV : Nat} {s : State} (h : Memory.wf s.mem = true) : NextWf (execReducedExit mV s) := by
  unfold execReducedExit
  split <;> simp [h]

theorem execRideLimit_wf {mV : Nat} {s : State} (h : Memory.wf s.mem = true) : NextWf (execRideLimit mV s) := by
  unfold execRideLimit
  split <;> simp [h]

theorem execSupplyStop_wf {mV : Nat} {s : State} (h : Memory.wf s.mem = true) : NextWf (execSupplyStop mV s) := by
  unfold execSupplyStop
  split <;> simp [h]

theorem execOvervolt_wf {mV : Nat} {s : State} (h : Memory.wf s.mem = true) : NextWf (execOvervolt mV s) := by
  unfold execOvervolt
  split <;> simp [h]

theorem execStopRecordClose_wf {s : State} (h : Memory.wf s.mem = true) : NextWf (execStopRecordClose s) := by
  unfold execStopRecordClose
  (repeat' split) <;> simp [h]

theorem execStopRailsOff_wf {s : State} (h : Memory.wf s.mem = true) : NextWf (execStopRailsOff s) := by
  unfold execStopRailsOff
  rw [nextWf_next]
  split
  · exact Memory.wf_nil
  · exact h

theorem execStopComplete_wf {s : State} (h : Memory.wf s.mem = true) : NextWf (execStopComplete s) := by
  unfold execStopComplete
  split <;> simp [h]

theorem execAvsAck_wf {rail : Nat} {s : State} (h : Memory.wf s.mem = true) : NextWf (execAvsAck rail s) := by
  unfold execAvsAck
  dsimp only
  (repeat' split) <;> simp [h]

theorem execAvsTimeout_wf {rail : Nat} {s : State} (h : Memory.wf s.mem = true) : NextWf (execAvsTimeout rail s) := by
  unfold execAvsTimeout
  dsimp only
  (repeat' split) <;> simp [h]

theorem execUnitEntryPoint_wf {s : State} (h : Memory.wf s.mem = true) : NextWf (execUnitEntryPoint s) := by
  unfold execUnitEntryPoint
  dsimp only
  (repeat' split) <;> simp [h]

theorem execUnitWakeLock_wf {s : State} (h : Memory.wf s.mem = true) : NextWf (execUnitWakeLock s) := by
  unfold execUnitWakeLock
  (repeat' split) <;> simp [h]

theorem execDeviceStateDone_wf {s : State} (h : Memory.wf s.mem = true) : NextWf (execDeviceStateDone s) := by
  unfold execDeviceStateDone
  dsimp only
  (repeat' split) <;> simp [h]

/-! ### The Plaza lane and the start of slots -/

theorem execSlotStart_wf {slotId : Nat} {s : State} (h : Memory.wf s.mem = true) : NextWf (execSlotStart slotId s) := by
  unfold execSlotStart
  split
  · next img x _ _ =>
    split
    · exact nextWf_next.mpr h
    · extract_lets s1 _ s2 s3
      have h1 : SameMem s s1 := SameMem.trans (passBeats_mem _ s) (settleDefers_mem _)
      have h2 : SameMem s1 s2 := dropDead_mem _ _ _
      have h3 : SameMem s2 s3 := foldl_mem (fun _ _ => modDistrict_mem _ _ _) _ s2
      have hw : Memory.wf s3.mem = true := ((h1.trans h2).trans h3).wf h
      clear_value s3
      split
      · rwa [nextWf_next, sendDefer_mem]
      · split
        · split
          · exact nextWf_next.mpr hw
          · rw [nextWf_next, foldl_mem (fun _ _ => enterMember_mem _ _ _)]
            exact hw
        · exact nextWf_next.mpr hw
  · exact nextWf_next.mpr h

theorem execPlazaLane_wf {s : State} (h : Memory.wf s.mem = true) : NextWf (execPlazaLane s) := by
  unfold execPlazaLane
  split
  · exact nextWf_next.mpr h
  · extract_lets -underBinder s1 s2
    have h1 : SameMem s s1 := SameMem.trans (passBeats_mem _ s) (settleDefers_mem _)
    have h2 : SameMem s1 s2 := by
      unfold s2
      split
      · exact deferAll_mem _ _
      · rfl
    rw [nextWf_next, plazaRails_mem, refreshHeaders_mem, journalLane_mem, moveTails_mem, sealAll_mem]
    exact (h1.trans h2).wf h

/-! ### Layer commands -/

theorem execCommitPoint_wf {c : LayerCommit} {s : State} (h : Memory.wf s.mem = true) : NextWf (execCommitPoint c s) := by
  unfold execCommitPoint
  extract_lets -underBinder s1
  have h1 : Memory.wf s1.mem = true := by rwa [settleDefers_mem]
  clear_value s1
  split
  · next img x _ _ =>
    split
    · exact nextWf_next.mpr h1
    · extract_lets -underBinder w
      have hw : Memory.wf w.st.mem = true := runSteps_wf h1
      clear_value w
      split
      · rwa [nextWf_next, residueMismatch_mem]
      · split
        · rw [nextWf_next, ((ByNotice.refl _).killCommand _ _).mem, report_mem, setFlag_mem]
          exact h1
        · exact nextWf_next.mpr (releaseAll_wf hw)
  · exact nextWf_next.mpr h1

/-! ### What a sampling commit does to each member of its microbatch -/

theorem execSamplingCommit_wf {c : SamplingCommit} {s : State} (h : Memory.wf s.mem = true) : NextWf (execSamplingCommit c s) := by
  unfold execSamplingCommit
  extract_lets -underBinder s1
  have h1 : Memory.wf s1.mem = true := by rwa [settleDefers_mem]
  clear_value s1
  split
  · exact nextWf_next.mpr h1
  · split
    · exact nextWf_next.mpr h1
    · extract_lets -underBinder fromPrev list members strip _ s2 _ s3
      have h2 : SameMem s1 s2 := by
        unfold s2
        split <;> rfl
      have h3 : SameMem s2 s3 := rfl
      refine nextWf_next.mpr (foldl_wf (fun s e h => ?_) members ((h2.trans h3).wf h1))
      split
      · exact h
      · exact commitMember_wf h

/-! ### Handovers -/

theorem execHoAnswer_wf {handle status newHandle : Nat} {s : State} (h : Memory.wf s.mem = true) : NextWf (execHoAnswer handle status newHandle s) := by
  unfold execHoAnswer
  dsimp only
  (repeat' split) <;> simp [h]

theorem execCopyNotice_wf {n : SessionNotice} {s : State} (h : Memory.wf s.mem = true) : NextWf (execCopyNotice n s) := by
  unfold execCopyNotice
  dsimp only
  (repeat' split) <;> simp [h]

theorem execHoConfirm_wf {handle newHandle epoch : Nat} {s : State} (h : Memory.wf s.mem = true) : NextWf (execHoConfirm handle newHandle epoch s) := by
  unfold execHoConfirm
  dsimp only
  (repeat' split) <;> simp [h]

theorem execHoTimeout_wf {slot : Nat} {s : State} (h : Memory.wf s.mem = true) : NextWf (execHoTimeout slot s) := by
  unfold execHoTimeout
  (repeat' split) <;> simp [h]

theorem execHoRequest_wf {r : HoRequest} {s : State} (h : Memory.wf s.mem = true) : NextWf (execHoRequest r s) := by
  unfold execHoRequest
  dsimp only
  (repeat' split) <;> simp [h]

/-- Bytes of a tile that go to a page's frame, if the page has one. -/
theorem tilePut_wf {part pageNo tile : Nat} {bytes : Bytes} {x : Session} {s : State} (h : Memory.wf s.mem = true) :
    Memory.wf (match partitionAt s part, pageFrame x pageNo with
      | some q, some f => if tile < tilesPerPage q ∧ bytes.length = tileBytes q then writeMem (f + tile * tileBytes q) bytes s else s
      | _, _ => s).mem = true := by
  split
  · split
    · exact writeMem_wf h
    · exact h
  · exact h

/-- A tile of a handover is written to the page of the session, or of the guest, that takes it. -/
theorem execTiles_wf {newHandle pageNo tile : Nat} {bytes : Bytes} {s : State} (h : Memory.wf s.mem = true) :
    NextWf (execTiles newHandle pageNo tile bytes s) := by
  unfold execTiles
  extract_lets -underBinder put
  have hput : ∀ part x t, Memory.wf t.mem = true → Memory.wf (put part x t).mem = true := fun _ _ _ ht => tilePut_wf ht
  clear_value put
  rw [nextWf_next]
  split
  · extract_lets -underBinder x
    split
    · exact hput _ _ _ (by rwa [ensurePage_mem])
    · exact h
  · split
    · exact h
    · exact hput _ _ _ (by rwa [guestPage_mem])

theorem execHoFinal_wf {newHandle : Nat} {img : SessionImage} {s : State} (h : Memory.wf s.mem = true) : NextWf (execHoFinal newHandle img s) := by
  unfold execHoFinal
  split <;> simp [h]

theorem execHoOwnership_wf {newHandle : Nat} {img : SessionImage} {s : State} (h : Memory.wf s.mem = true) : NextWf (execHoOwnership newHandle img s) := by
  unfold execHoOwnership
  split <;> simp [h]

theorem execHoAbort_wf {handle newHandle status : Nat} {s : State} (h : Memory.wf s.mem = true) : NextWf (execHoAbort handle newHandle status s) := by
  unfold execHoAbort
  (repeat' split) <;> simp [h]

theorem execHoTargetGrace_wf {slot : Nat} {s : State} (h : Memory.wf s.mem = true) : NextWf (execHoTargetGrace slot s) := by
  unfold execHoTargetGrace
  split <;> simp [h]

theorem execFreeTargetSlot_wf {n : SessionNotice} {s : State} (h : Memory.wf s.mem = true) : NextWf (execFreeTargetSlot n s) := by
  unfold execFreeTargetSlot
  split <;> simp [h]

theorem execRemoteGraceEnd_wf {slot : Nat} {s : State} (h : Memory.wf s.mem = true) : NextWf (execRemoteGraceEnd slot s) := by
  unfold execRemoteGraceEnd
  split <;> simp [h]

/-! ### Checkpoints, restores and the arming of shrink plans -/

theorem execShardDigest_wf {m : ShardMsg} {s : State} (h : Memory.wf s.mem = true) : NextWf (execShardDigest m s) := by
  unfold execShardDigest
  (repeat' split) <;> simp [h]

theorem execCkptHoldExpiry_wf {partition : Nat} {s : State} (h : Memory.wf s.mem = true) : NextWf (execCkptHoldExpiry partition s) := by
  unfold execCkptHoldExpiry
  split <;> simp [h]

theorem execRestoreStagingDone_wf {partition value : Nat} {s : State} (h : Memory.wf s.mem = true) : NextWf (execRestoreStagingDone partition value s) := by
  unfold execRestoreStagingDone
  dsimp only
  (repeat' split) <;> simp [h]

theorem execShardReport_wf {m : ShardMsg} {s : State} (h : Memory.wf s.mem = true) : NextWf (execShardReport m s) := by
  unfold execShardReport
  split <;> simp [h]

theorem execShardCommit_wf {m : ShardMsg} {s : State} (h : Memory.wf s.mem = true) : NextWf (execShardCommit m s) := by
  unfold execShardCommit
  (repeat' split) <;> simp [h]

theorem execShardDone_wf {m : ShardMsg} {s : State} (h : Memory.wf s.mem = true) : NextWf (execShardDone m s) := by
  unfold execShardDone
  (repeat' split) <;> simp [h]

theorem execShardAllDone_wf {m : ShardMsg} {s : State} (h : Memory.wf s.mem = true) : NextWf (execShardAllDone m s) := by
  simp [execShardAllDone, h]

theorem execRestoreTimeout_wf {partition : Nat} {s : State} (h : Memory.wf s.mem = true) : NextWf (execRestoreTimeout partition s) := by
  unfold execRestoreTimeout
  (repeat' split) <;> simp [h]

/-! ### Mover slots -/

theorem execMoverSlotStart_wf {slotId : Nat} {s : State} (h : Memory.wf s.mem = true) : NextWf (execMoverSlotStart slotId s) := by
  unfold execMoverSlotStart
  (repeat' split) <;> simp [h]

theorem execMoverSlotEnd_wf {results : List MoverResult} {s : State} (h : Memory.wf s.mem = true) : NextWf (execMoverSlotEnd results s) := by
  unfold execMoverSlotEnd
  split
  · exact nextWf_next.mpr h
  · exact nextWf_next.mpr (freezeAll_wf (foldl_wf (fun _ _ h => endOp_wf h) _ h))

theorem execHostReadCompletion_wf {op : Nat} {s : State} (h : Memory.wf s.mem = true) : NextWf (execHostReadCompletion op s) := by
  simp [execHostReadCompletion, h]

theorem execPrefetchPull_wf {slot : Nat} {s : State} (h : Memory.wf s.mem = true) : NextWf (execPrefetchPull slot s) := by
  unfold execPrefetchPull
  dsimp only
  (repeat' split) <;> simp [h]

theorem execPrefetchRevive_wf {slot : Nat} {s : State} (h : Memory.wf s.mem = true) : NextWf (execPrefetchRevive slot s) := by
  unfold execPrefetchRevive
  dsimp only
  (repeat' split) <;> simp [h]

theorem execLenderAdvert_wf {member freeMiB hops : Nat} {s : State} (h : Memory.wf s.mem = true) : NextWf (execLenderAdvert member freeMiB hops s) := by
  unfold execLenderAdvert
  split <;> simp [h]

theorem execCapsulePut_wf {borrower ref : Nat} {body : Bytes} {s : State} (h : Memory.wf s.mem = true) : NextWf (execCapsulePut borrower ref body s) := by
  unfold execCapsulePut
  split <;> simp [h]

theorem execCapsuleGet_wf {borrower ref : Nat} {s : State} (h : Memory.wf s.mem = true) : NextWf (execCapsuleGet borrower ref s) := by
  unfold execCapsuleGet
  split <;> simp [h]

theorem execCapsuleData_wf {ref : Nat} {body : Bytes} {lender : Nat} {s : State} (h : Memory.wf s.mem = true) : NextWf (execCapsuleData ref body lender s) := by
  unfold execCapsuleData
  (repeat' split) <;> simp [h]

theorem execCapsuleFree_wf {borrower ref : Nat} {s : State} (h : Memory.wf s.mem = true) : NextWf (execCapsuleFree borrower ref s) := by
  unfold execCapsuleFree
  split <;> simp [h]

theorem execCapsuleLostNotice_wf {n : SessionNotice} {s : State} (h : Memory.wf s.mem = true) : NextWf (execCapsuleLostNotice n s) := by
  unfold execCapsuleLostNotice
  (repeat' split) <;> simp [h]

/-! ### Composition maps -/

theorem execGraceEnd_wf {s : State} (h : Memory.wf s.mem = true) : NextWf (execGraceEnd s) := by
  unfold execGraceEnd
  rw [nextWf_next]
  split
  · exact h
  · split
    · exact h
    · split
      · exact leaveComposition_wf h
      · exact foldl_wf (fun _ _ h => memberGone_wf h) _ h

theorem execMapDigest_wf {link epoch : Nat} {digest : Digest} {s : State} (h : Memory.wf s.mem = true) : NextWf (execMapDigest link epoch digest s) := by
  unfold execMapDigest
  dsimp only
  (repeat' split) <;> simp [h]

/-! ### Tenancy, quotes, key release, tenant release, presence, the seal and custodial commands -/

theorem execQuoteSigned_wf {quoteDigest : Digest} {s : State} (h : Memory.wf s.mem = true) : NextWf (execQuoteSigned quoteDigest s) := by
  unfold execQuoteSigned
  dsimp only
  (repeat' split) <;> simp [h]

theorem execDecapKeyExpiry_wf {quoteDigest : Digest} {s : State} (h : Memory.wf s.mem = true) : NextWf (execDecapKeyExpiry quoteDigest s) := by
  simp [execDecapKeyExpiry, h]

theorem execAkCertified_wf {s : State} (h : Memory.wf s.mem = true) : NextWf (execAkCertified s) := by
  unfold execAkCertified
  split <;> simp [h]

theorem execTenantReleaseRun_wf {s : State} (h : Memory.wf s.mem = true) : NextWf (execTenantReleaseRun s) := by
  unfold execTenantReleaseRun
  split <;> simp [h]

theorem execHostHoldExpiry_wf {s : State} (h : Memory.wf s.mem = true) : NextWf (execHostHoldExpiry s) := by
  unfold execHostHoldExpiry
  split <;> simp [h]

theorem execPresence_wf {s : State} (h : Memory.wf s.mem = true) : NextWf (execPresence s) := by
  unfold execPresence
  split <;> simp [h]

theorem execPresenceWindowEnd_wf {s : State} (h : Memory.wf s.mem = true) : NextWf (execPresenceWindowEnd s) := by
  simp [execPresenceWindowEnd, h]

theorem execSealLoopClose_wf {s : State} (h : Memory.wf s.mem = true) : NextWf (execSealLoopClose s) := by
  simp [execSealLoopClose, h]

theorem execSealOpen_wf (s : State) : NextWf (execSealOpen s) :=
  nextWf_next.mpr (openSeal_wf s)

/-! ### Calibration commands -/

theorem execFwTakeover_wf {s : State} (h : Memory.wf s.mem = true) : NextWf (execFwTakeover s) := by
  unfold execFwTakeover
  (repeat' split) <;> simp [h]

theorem execFwResume_wf {s : State} (h : Memory.wf s.mem = true) : NextWf (execFwResume s) := by
  unfold execFwResume
  dsimp only
  (repeat' split) <;> simp [h]

theorem execFwActivateTimeout_wf {s : State} (h : Memory.wf s.mem = true) : NextWf (execFwActivateTimeout s) := by
  unfold execFwActivateTimeout
  (repeat' split) <;> simp [h]

/-! ### Link ports -/

theorem execFrameReceive_wf {link : Nat} {bytes : Bytes} {consumeSlack : Int} {corrected uncorrectable : Nat} {s : State} (h : Memory.wf s.mem = true) :
    NextWf (execFrameReceive link bytes consumeSlack corrected uncorrectable s) := by
  unfold execFrameReceive
  dsimp only
  (repeat' split) <;> simp [h]

theorem execLaneFail_wf {link lane : Nat} {s : State} (h : Memory.wf s.mem = true) : NextWf (execLaneFail link lane s) := by
  unfold execLaneFail
  split <;> simp [h]

theorem execRetrainDone_wf {link : Nat} {s : State} (h : Memory.wf s.mem = true) : NextWf (execRetrainDone link s) := by
  unfold execRetrainDone
  dsimp only
  (repeat' split) <;> simp [h]

theorem execRetrainTimeout_wf {link : Nat} {s : State} (h : Memory.wf s.mem = true) : NextWf (execRetrainTimeout link s) := by
  unfold execRetrainTimeout
  split <;> simp [h]

theorem execHalfRetrain_wf (c : Nat) {s : State} (h : Memory.wf s.mem = true) : NextWf (execHalfRetrain c s) := by
  simp [execHalfRetrain, h]

theorem execLaneRepairDone_wf {link : Nat} {s : State} (h : Memory.wf s.mem = true) : NextWf (execLaneRepairDone link s) := by
  unfold execLaneRepairDone
  dsimp only
  (repeat' split) <;> simp [h]

theorem execLinkSignalDetect_wf {link : Nat} {s : State} (h : Memory.wf s.mem = true) : NextWf (execLinkSignalDetect link s) := by
  unfold execLinkSignalDetect
  dsimp only
  (repeat' split) <;> simp [h]

theorem execLinkTrainRetry_wf {link : Nat} {s : State} (h : Memory.wf s.mem = true) : NextWf (execLinkTrainRetry link s) := by
  unfold execLinkTrainRetry
  split <;> simp [h]

theorem execTrainFail_wf {link : Nat} {s : State} (h : Memory.wf s.mem = true) : NextWf (execTrainFail link s) := by
  unfold execTrainFail
  split <;> simp [h]

theorem execTrainingComplete_wf {link : Nat} {r : TrainResult} {s : State} (h : Memory.wf s.mem = true) : NextWf (execTrainingComplete link r s) := by
  unfold execTrainingComplete
  dsimp only
  (repeat' split) <;> simp [h]

theorem execLinkPortReset_wf {link : Nat} {s : State} (h : Memory.wf s.mem = true) : NextWf (execLinkPortReset link s) := by
  unfold execLinkPortReset
  split <;> simp [h]

theorem execControlWord_wf {link : Nat} {w : ControlWord} {worstLane : Nat} {s : State} (h : Memory.wf s.mem = true) :
    NextWf (execControlWord link w worstLane s) := by
  unfold execControlWord
  (repeat' split) <;> simp [h]

theorem execFrameTransmit_wf {link phase : Nat} {queued : List LinkFrame} {s : State} (h : Memory.wf s.mem = true) :
    NextWf (execFrameTransmit link phase queued s) := by
  unfold execFrameTransmit
  split
  · rwa [nextWf_next, queueAll_mem]
  · extract_lets -underBinder t sp s1 s2 f
    have h1 : SameMem s s1 := putFlow_mem _ _ s
    have h2 : SameMem s1 s2 := queueAll_mem _ _ s1
    have hw : Memory.wf s2.mem = true := (h1.trans h2).wf h
    clear_value s2
    split
    · exact nextWf_next.mpr hw
    · split
      · rw [nextWf_next, foldl_mem (fun _ _ => send_mem _ _), putFlow_mem]
        exact hw
      · split
        · rwa [nextWf_next, resendFrame_mem]
        · split
          · exact nextWf_next.mpr hw
          · extract_lets -underBinder list
            clear_value list
            split
            · rwa [nextWf_next, sendQueued_mem]
            · exact nextWf_next.mpr hw

/-! ### Errors, fencing and repair in service -/

theorem execHbmSpareStart_wf {stack channel : Nat} {s : State} (h : Memory.wf s.mem = true) : NextWf (execHbmSpareStart stack channel s) := by
  unfold execHbmSpareStart
  split <;> simp [h]

theorem execHbmSpareCopyDone_wf {stack : Nat} {s : State} (h : Memory.wf s.mem = true) : NextWf (execHbmSpareCopyDone stack s) := by
  unfold execHbmSpareCopyDone
  dsimp only
  (repeat' split) <;> simp [h]

theorem execDimmSpdRead_wf {channel sizeGiB : Nat} {ok : Bool} {s : State} (h : Memory.wf s.mem = true) : NextWf (execDimmSpdRead channel sizeGiB ok s) := by
  unfold execDimmSpdRead
  dsimp only
  (repeat' split) <;> simp [h]

theorem execDimmTrainDone_wf {channel : Nat} {ok : Bool} {s : State} (h : Memory.wf s.mem = true) : NextWf (execDimmTrainDone channel ok s) := by
  unfold execDimmTrainDone
  dsimp only
  (repeat' split) <;> simp [h]

theorem execDimmScrubDone_wf {channel : Nat} {s : State} (h : Memory.wf s.mem = true) : NextWf (execDimmScrubDone channel s) := by
  unfold execDimmScrubDone
  dsimp only
  (repeat' split) <;> simp [h]

theorem execDdrControllerReset_wf {channel : Nat} {s : State} (h : Memory.wf s.mem = true) : NextWf (execDdrControllerReset channel s) := by
  unfold execDdrControllerReset
  split <;> simp [h]

theorem execDdrControllerRestartEnd_wf {channel : Nat} {inTime : Bool} {s : State} (h : Memory.wf s.mem = true) :
    NextWf (execDdrControllerRestartEnd channel inTime s) := by
  unfold execDdrControllerRestartEnd
  (repeat' split) <;> simp [h]

theorem execDdrPresenceChange_wf {channel : Nat} {present : Bool} {s : State} (h : Memory.wf s.mem = true) :
    NextWf (execDdrPresenceChange channel present s) := by
  unfold execDdrPresenceChange
  dsimp only
  (repeat' split) <;> simp [h]

theorem execDdrPgRelease_wf {channel : Nat} {s : State} (h : Memory.wf s.mem = true) : NextWf (execDdrPgRelease channel s) := by
  unfold execDdrPgRelease
  split <;> simp [h]

theorem execRecallTailWrite_wf {v : Word64} {found : List (Nat × Nat × Run × Bool)} {s : State} (h : Memory.wf s.mem = true) :
    NextWf (execRecallTailWrite v found s) := by
  unfold execRecallTailWrite
  dsimp only
  (repeat' split) <;> simp [h]

theorem execRecallTimeout_wf {slot : Nat} {s : State} (h : Memory.wf s.mem = true) : NextWf (execRecallTimeout slot s) := by
  unfold execRecallTimeout
  split <;> simp [h]

theorem execUncorrectableError_wf {place : ErrorPlace} {s : State} (h : Memory.wf s.mem = true) : NextWf (execUncorrectableError place s) := by
  simp [execUncorrectableError, h]

theorem execCorrectableError_wf {memory row : Nat} {s : State} (h : Memory.wf s.mem = true) : NextWf (execCorrectableError memory row s) := by
  unfold execCorrectableError
  dsimp only
  (repeat' split) <;> simp [h]

theorem execBlockPartialReset_wf {district block : Nat} {s : State} (h : Memory.wf s.mem = true) : NextWf (execBlockPartialReset district block s) := by
  unfold execBlockPartialReset
  dsimp only
  (repeat' split) <;> simp [h]

theorem execBlockSelfTestDone_wf {district block : Nat} {pass : Bool} {s : State} (h : Memory.wf s.mem = true) :
    NextWf (execBlockSelfTestDone district block pass s) := by
  unfold execBlockSelfTestDone
  (repeat' split) <;> simp [h]

/-! ### Power-on, the boot phases, resets of every kind, and the loss of the host -/

theorem execPowerOnQualified_wf {sealClosed slotAOk slotBOk factoryOk senseOpen : Bool} {s : State} (h : Memory.wf s.mem = true) :
    NextWf (execPowerOnQualified sealClosed slotAOk slotBOk factoryOk senseOpen s) := by
  unfold execPowerOnQualified
  rw [nextWf_next]
  split
  · extract_lets t
    have ht : Memory.wf t.mem = true := by
      rw [romSelect_mem, checkSeal_mem]
      exact bootState_wf _ _
    clear_value t
    split
    · rwa [setFlag_mem]
    · exact ht
  · exact h

theorem execDeviceReset_wf {slotAOk slotBOk factoryOk : Bool} {s : State} (h : Memory.wf s.mem = true) :
    NextWf (execDeviceReset slotAOk slotBOk factoryOk s) := by
  unfold execDeviceReset
  rw [nextWf_next]
  split
  · exact h
  · split
    · rw [romSelect_mem, checkSeal_mem]
      exact bootState_wf _ _
    · exact deviceResetTo_wf _ _ _ _

theorem execFirmwareStart_wf {calValid : Bool} {failingUnits : List (Nat × Nat)} {s : State} (h : Memory.wf s.mem = true) :
    NextWf (execFirmwareStart calValid failingUnits s) := by
  unfold execFirmwareStart
  dsimp only
  (repeat' split) <;> simp [h]

/-- Training lists no byte, and what its failing units take along keeps that form. -/
theorem execTrainingDone_wf {t1MiB t2MiB : Nat} {ddrGiB : List (Nat × Nat)} {failing : List (Nat × Nat)} {s : State} (h : Memory.wf s.mem = true) :
    NextWf (execTrainingDone t1MiB t2MiB ddrGiB failing s) := by
  unfold execTrainingDone
  split
  · exact nextWf_next.mpr h
  · exact nextWf_next.mpr (foldl_wf (fun _ _ h => trainFailing_wf h) failing Memory.wf_nil)

theorem execThermtrip_wf (sensor : Nat) (s : State) : NextWf (execThermtrip sensor s) :=
  nextWf_next.mpr Memory.wf_nil

theorem execWatchdogExpiry_wf {takeoverOk : Bool} {s : State} (h : Memory.wf s.mem = true) : NextWf (execWatchdogExpiry takeoverOk s) := by
  unfold execWatchdogExpiry
  rw [nextWf_next]
  split
  · exact h
  · split
    · exact deviceResetTo_wf _ _ _ _
    · rw [report_mem, modSec_mem]
      exact h

theorem execHostLoss_wf {cause : Nat} {s : State} (h : Memory.wf s.mem = true) : NextWf (execHostLoss cause s) := by
  unfold execHostLoss
  split <;> simp [h]

theorem execHostPortReset_wf {s : State} (h : Memory.wf s.mem = true) : NextWf (execHostPortReset s) := by
  unfold execHostPortReset
  (repeat' split) <;> simp [h]

theorem execVfFlr_wf {n : Nat} {s : State} (h : Memory.wf s.mem = true) : NextWf (execVfFlr n s) := by
  unfold execVfFlr
  split <;> simp [h]

theorem execVfEnable_wf {on : Bool} {s : State} (h : Memory.wf s.mem = true) : NextWf (execVfEnable on s) := by
  simp [execVfEnable, h]

/-! ### The registers of BAR0 and the State Space window of BAR4 -/

theorem execMgmtFlagCntRead_wf {s : State} (h : Memory.wf s.mem = true) : NextWf (execMgmtFlagCntRead s) := by
  simp [execMgmtFlagCntRead, h]

theorem execCadBeatLowRead_wf {s : State} (h : Memory.wf s.mem = true) : NextWf (execCadBeatLowRead s) := by
  simp [execCadBeatLowRead, h]

theorem execBadAccess_wf {offset size : Nat} {write : Bool} {s : State} (h : Memory.wf s.mem = true) : NextWf (execBadAccess offset size write s) := by
  unfold execBadAccess
  (repeat' split) <;> simp [h]

theorem execReplyRingWrite_wf {n : Nat} {cfg : Bool} {v : Word64} {s : State} (h : Memory.wf s.mem = true) : NextWf (execReplyRingWrite n cfg v s) := by
  unfold execReplyRingWrite
  dsimp only
  (repeat' split) <;> simp [h]

theorem execReplyAckWrite_wf {n : Nat} {v : Word64} {s : State} (h : Memory.wf s.mem = true) : NextWf (execReplyAckWrite n v s) := by
  unfold execReplyAckWrite
  split <;> simp [h]

theorem execJournalAckWrite_wf {v : Word64} {s : State} (h : Memory.wf s.mem = true) : NextWf (execJournalAckWrite v s) := by
  unfold execJournalAckWrite
  split <;> simp [h]

theorem execRegisterWrite_wf {w : RegWrite} {s : State} (h : Memory.wf s.mem = true) : NextWf (execRegisterWrite w s) := by
  simp [execRegisterWrite, h]

theorem execFlagClearW1c_wf {offset : Nat} {mask hwSets : Word32} {s : State} (h : Memory.wf s.mem = true) :
    NextWf (execFlagClearW1c offset mask hwSets s) := by
  unfold execFlagClearW1c
  rw [nextWf_next, foldl_mem]
  · exact h
  · intro s b
    split
    · exact clearFlag_mem _ _ _ _
    · rfl

theorem execMgmtFlagClear_wf {groups : Nat} {hwSets : List (Nat × Nat)} {s : State} (h : Memory.wf s.mem = true) :
    NextWf (execMgmtFlagClear groups hwSets s) := by
  simp [execMgmtFlagClear, h]

theorem execWindowRead_wf {offset len : Nat} {s : State} (h : Memory.wf s.mem = true) : NextWf (execWindowRead offset len s) := by
  unfold execWindowRead
  dsimp only
  (repeat' split) <;> simp [h]

theorem execWindowWrite_wf (c : Nat) {s : State} (h : Memory.wf s.mem = true) : NextWf (execWindowWrite c s) := by
  simp [execWindowWrite, h]

/-! ### What ring members and homes send one another -/

theorem execForward_wf {sender : Nat} {p : Packet} {s : State} (h : Memory.wf s.mem = true) : NextWf (execForward sender p s) := by
  unfold execForward
  (repeat' split) <;> simp [h]

theorem execHostdata_wf {source tag addr : Nat} {data : Bytes} {cap : Option SessionCapsule} {s : State} (h : Memory.wf s.mem = true) :
    NextWf (execHostdata source tag addr data cap s) := by
  unfold execHostdata
  (repeat' split) <;> simp [h]

theorem execForwardReply_wf {client tag status detail handle beat count0 count1 : Nat} {s : State} (h : Memory.wf s.mem = true) :
    NextWf (execForwardReply client tag status detail handle beat count0 count1 s) := by
  unfold execForwardReply
  dsimp only
  (repeat' split) <;> simp [h]

theorem execCandidate_wf {partition step : Nat} {entries : List Candidate} {s : State} (h : Memory.wf s.mem = true) :
    NextWf (execCandidate partition step entries s) := by
  unfold execCandidate
  dsimp only
  (repeat' split) <;> simp [h]

theorem execSealMessage_wf {m : SealMsg} {s : State} (h : Memory.wf s.mem = true) : NextWf (execSealMessage m s) := by
  unfold execSealMessage
  dsimp only
  (repeat' split) <;> simp [h]

theorem execCancelNotice_wf {n : SessionNotice} {s : State} (h : Memory.wf s.mem = true) : NextWf (execCancelNotice n s) := by
  unfold execCancelNotice
  split <;> simp [h]

theorem execWithdrawal_wf {n : SessionNotice} {s : State} (h : Memory.wf s.mem = true) : NextWf (execWithdrawal n s) := by
  unfold execWithdrawal
  split <;> simp [h]

theorem execPart_wf {handle position : Nat} {body : Bytes} {s : State} (h : Memory.wf s.mem = true) : NextWf (execPart handle position body s) := by
  unfold execPart
  (repeat' split) <;> simp [h]

theorem execDeparture_wf {member boundary : Nat} {rings : List Nat} {s : State} (h : Memory.wf s.mem = true) :
    NextWf (execDeparture member boundary rings s) := by
  unfold execDeparture
  split <;> simp [h]

theorem execMemberLost_wf {member : Nat} {s : State} (h : Memory.wf s.mem = true) : NextWf (execMemberLost member s) := by
  unfold execMemberLost
  dsimp only
  (repeat' split) <;> simp [h]

/-! ### The step boundary -/

/-- The orders of a boundary one after another: orders 1, 3 and 5 drop frames, the others write no byte. -/
theorem execStepBoundary_wf {s : State} (h : Memory.wf s.mem = true) : NextWf (execStepBoundary s) := by
  unfold execStepBoundary
  extract_lets -underBinder s1
  have h1 : Memory.wf s1.mem = true := by rwa [passBeats_mem]
  clear_value s1
  rw [nextWf_next]
  split
  · exact order5_wf (order3_wf h1)
  · next img _ =>
    extract_lets -underBinder k s2 _ s3 s4
    have h2 : SameMem s1 s2 := SameMem.trans ((countStep_mem _ _).trans (settleDefers_mem s1)) (slowPeriodEnd_mem _ _)
    have h3 : Memory.wf s3.mem = true := order1_wf (h2.wf h1)
    have h4 : SameMem s3 s4 := by rw [SameMem, nextSets_mem, turnAdapters_mem, rollStep_mem, order2_mem]
    rw [measureStep_mem, latchCounters_mem, order6_mem]
    refine order5_wf ?_
    rw [order4_mem]
    exact order3_wf (h4.wf h3)

theorem execMirrorPass_wf {written : Bool} {s : State} (h : Memory.wf s.mem = true) : NextWf (execMirrorPass written s) := by
  unfold execMirrorPass
  split <;> simp [h]

theorem execTimeRecord_wf {s : State} (h : Memory.wf s.mem = true) : NextWf (execTimeRecord s) := by
  simp [execTimeRecord, h]

end Sys2Proof.Machine
end

section
/-! PROOF of O5. Every instruction keeps the canonical form of memory, and so does a beat without one. -/

namespace Sys2Proof.Machine

/-- Every instruction keeps the canonical order of the bytes it goes on with. -/
theorem exec_wf {s : State} (h : Memory.wf s.mem = true) : ∀ i, NextWf (exec i s)
  | .packetRecognise _ => execPacketRecognise_wf h
  | .pad _ => execPad_wf h
  | .ping _ => nextWf_serve (fun _ _ => reply_mem _ _ _) h
  | .queryDevice _ => nextWf_serve (fun _ _ => queryDeviceBody_mem _ _ _) h
  | .setParam _ => nextWf_serve_of_wf (fun _ _ ht => setParamBody_wf ht) h
  | .cliRunPreempt _ => execCliRunPreempt_wf h
  | .preemptionComplete _ => execPreemptionComplete_wf h
  | .cliRunResume _ => execCliRunResume_wf h
  | .queueStateWrite _ _ _ _ _ => execQueueStateWrite_wf h
  | .cadPeriodChange _ => execCadPeriodChange_wf h
  | .cadModeChange _ => execCadModeChange_wf h
  | .deviceStateRequest _ => execDeviceStateRequest_wf h
  | .getParam _ => nextWf_serve (fun _ _ => getParamBody_mem _ _ _) h
  | .modelStage _ _ => nextWf_serve (fun _ _ => modelStageBody_mem _ _ _ _) h
  | .modelUnload _ => nextWf_serve (fun _ _ => modelUnloadBody_mem _ _ _) h
  | .partitionDefine _ => nextWf_serve (fun _ _ => partitionBody_mem _ _ _) h
  | .scheduleLoad _ _ => nextWf_serve (fun _ _ => scheduleBody_mem _ _ _ _) h
  | .vocabLoad _ _ => nextWf_serve (fun _ _ => vocabBody_mem _ _ _ _) h
  | .sessionOpen _ => nextWf_serve (fun _ _ => openBody_mem _ _ _) h
  | .sessionFork _ => nextWf_serve (fun _ _ => forkBody_mem _ _ _) h
  | .sessionAppend _ _ => nextWf_serve (fun _ _ => appendBodyCmd_mem _ _ _ _) h
  | .tokenizeEnd _ => execTokenizeEnd_wf h
  | .sessionGenerate _ => nextWf_serve (fun _ _ => generateBody_mem _ _ _) h
  | .trainingGenerate _ => nextWf_serve (fun _ _ => trainBody_mem _ _ _) h
  | .sessionPark _ => nextWf_serve (fun _ _ => parkBody_mem _ _ _) h
  | .sessionRevive _ => nextWf_serve (fun _ _ => reviveBody_mem _ _ _) h
  | .sessionCancel _ => nextWf_serve_of_wf (fun _ _ ht => cancelBody_wf ht) h
  | .sessionClose _ => nextWf_serve_of_wf (fun _ _ ht => closeBody_wf ht) h
  | .sessionQuery _ => nextWf_serve (fun _ _ => queryBody_mem _ _ _) h
  | .sessionConstrain _ => nextWf_serve (fun _ _ => constrainBody_mem _ _ _) h
  | .sessionExport _ => nextWf_serve (fun _ _ => exportBody_mem _ _ _) h
  | .sessionImport _ _ => nextWf_serve (fun _ _ => importBody_mem _ _ _ _) h
  | .handoverOut _ => nextWf_serve (fun _ _ => handoverOutBody_mem _ _ _) h
  | .handoverIn _ => nextWf_serve (fun _ _ => handoverInBody_mem _ _ _) h
  | .compositionSet _ _ => nextWf_serve (fun _ _ => compositionBody_mem _ _ _ _) h
  | .checkpointBegin _ => nextWf_serve (fun _ _ => checkpointBody_mem _ _ _) h
  | .checkpointShard _ => nextWf_serve (fun _ _ => shardBody_mem _ _ _) h
  | .restore _ _ _ _ => nextWf_serve (fun _ _ => restoreBody_mem _ _ _ _ _ _) h
  | .shrinkArm _ => nextWf_serve (fun _ _ => shrinkBody_mem _ _ _) h
  | .attestQuote _ => nextWf_serve (fun _ _ => quoteBody_mem _ _ _) h
  | .quoteSigned _ => execQuoteSigned_wf h
  | .keyAccept _ _ => nextWf_serve (fun _ _ => acceptBody_mem _ _ _ _) h
  | .tenantBind _ _ => nextWf_serve (fun _ _ => bindBody_mem _ _ _ _) h
  | .tenantRelease _ => nextWf_serve (fun _ _ => releaseBody_mem _ _ _) h
  | .tenantReleaseRun => execTenantReleaseRun_wf h
  | .fwStage _ _ => nextWf_serve (fun _ _ => fwStageBody_mem _ _ _ _) h
  | .fwActivate _ => nextWf_serve_of_wf (fun _ _ ht => activateBody_wf ht) h
  | .fwTakeover => execFwTakeover_wf h
  | .fwResume => execFwResume_wf h
  | .fwActivateTimeout => execFwActivateTimeout_wf h
  | .calUserWrite _ _ => nextWf_serve (fun _ _ => calWriteBody_mem _ _ _ _) h
  | .calRead _ => nextWf_serve (fun _ _ => calReadBody_mem _ _ _) h
  | .custodialRollback _ => nextWf_serve (fun _ _ => rollbackBody_mem _ _ _) h
  | .custodialDebug _ => nextWf_serve (fun _ _ => custodial_mem debugEffect_mem _ _ _ _ _ _) h
  | .identityReset _ => nextWf_serve (fun _ _ => custodial_mem (fun _ => identityEffect_mem) _ _ _ _ _ _) h
  | .factoryReturn _ => nextWf_serve (fun _ _ => custodial_mem (fun _ => factoryEffect_mem) _ _ _ _ _ _) h
  | .sealOverride _ => nextWf_serve (fun _ _ => overrideBody_mem _ _ _) h
  | .presencePolicy _ => nextWf_serve (fun _ _ => custodial_mem (fun _ _ => modSec_mem _ _) _ _ _ _ _ _) h
  | .eventSnapshot _ => nextWf_serve (fun _ _ => snapshotBody_mem _ _ _) h
  | .statsRead _ => nextWf_serve (fun _ _ => statsBody_mem _ _ _) h
  | .unitFence _ => nextWf_serve_of_wf (fun _ _ ht => unitFenceBody_wf ht) h
  | .dimmEvacuate _ => nextWf_serve (fun _ _ => evacuateBody_mem _ _ _) h
  | .dimmAdmit _ => nextWf_serve (fun _ _ => dimmBody_mem _ _ _) h
  | .dimmSpdRead _ _ _ => execDimmSpdRead_wf h
  | .dimmTrainDone _ _ => execDimmTrainDone_wf h
  | .dimmScrubDone _ => execDimmScrubDone_wf h
  | .profileSet _ => nextWf_serve (fun _ _ => profileBody_mem _ _ _) h
  | .replyRingWrite _ _ _ => execReplyRingWrite_wf h
  | .replyAckWrite _ _ => execReplyAckWrite_wf h
  | .journalAckWrite _ => execJournalAckWrite_wf h
  | .recallTailWrite _ _ => execRecallTailWrite_wf h
  | .flagClearW1c _ _ _ => execFlagClearW1c_wf h
  | .mgmtFlagClear _ _ => execMgmtFlagClear_wf h
  | .mgmtFlagCntRead => execMgmtFlagCntRead_wf h
  | .cadBeatLowRead => execCadBeatLowRead_wf h
  | .registerWrite _ => execRegisterWrite_wf h
  | .badAccess _ _ _ => execBadAccess_wf h
  | .windowRead _ _ => execWindowRead_wf h
  | .windowWrite n => execWindowWrite_wf n h
  | .stepBoundary => execStepBoundary_wf h
  | .slotStart _ => execSlotStart_wf h
  | .commitPoint _ => execCommitPoint_wf h
  | .samplingCommit _ => execSamplingCommit_wf h
  | .lateArrival _ _ _ _ => execLateArrival_wf h
  | .plazaLane => execPlazaLane_wf h
  | .mirrorPass _ => execMirrorPass_wf h
  | .moverSlotEnd _ => execMoverSlotEnd_wf h
  | .prefetchPull _ => execPrefetchPull_wf h
  | .prefetchRevive _ => execPrefetchRevive_wf h
  | .beatMark _ _ => execBeatMark_wf h
  | .beatNumber _ _ => execBeatNumber_wf h
  | .numLost => execNumLost_wf h
  | .marksAbsent => execMarksAbsent_wf h
  | .acqFail => execAcqFail_wf h
  | .holdLimit => execHoldLimit_wf h
  | .beatNumberSend => execBeatNumberSend_wf h
  | .cadenceMarkSend => execCadenceMarkSend_wf h
  | .cadenceMark _ _ _ => execCadenceMark_wf h
  | .xrefLost => execXrefLost_wf h
  | .xrefReturn => execXrefReturn_wf h
  | .departure _ _ _ => execDeparture_wf h
  | .memberLost _ => execMemberLost_wf h
  | .slipNotice _ => execSlipNotice_wf h
  | .slipApply _ => execSlipApply_wf h
  | .abortNotice _ => execAbortNotice_wf h
  | .deferNotice _ => execDeferNotice_wf h
  | .fallbackNotice _ => execFallbackNotice_wf h
  | .imageReady _ _ _ _ => execImageReady_wf h
  | .mapDigest _ _ _ => execMapDigest_wf h
  | .lenderAdvert _ _ _ => execLenderAdvert_wf h
  | .candidate _ _ _ => execCandidate_wf h
  | .sealMessage _ => execSealMessage_wf h
  | .cancelNotice _ => execCancelNotice_wf h
  | .withdrawal _ => execWithdrawal_wf h
  | .copyNotice _ => execCopyNotice_wf h
  | .capsuleLostNotice _ => execCapsuleLostNotice_wf h
  | .freeTargetSlot _ => execFreeTargetSlot_wf h
  | .forward _ _ => execForward_wf h
  | .forwardReply _ _ _ _ _ _ _ _ => execForwardReply_wf h
  | .hoRequest _ => execHoRequest_wf h
  | .hoAnswer _ _ _ => execHoAnswer_wf h
  | .hoConfirm _ _ _ => execHoConfirm_wf h
  | .hoAbort _ _ _ => execHoAbort_wf h
  | .hoTimeout _ => execHoTimeout_wf h
  | .hoTargetGrace _ => execHoTargetGrace_wf h
  | .tiles _ _ _ _ => execTiles_wf h
  | .hoFinal _ _ => execHoFinal_wf h
  | .hoOwnership _ _ => execHoOwnership_wf h
  | .capsulePut _ _ _ => execCapsulePut_wf h
  | .capsuleGet _ _ => execCapsuleGet_wf h
  | .capsuleData _ _ _ => execCapsuleData_wf h
  | .capsuleFree _ _ => execCapsuleFree_wf h
  | .part _ _ _ => execPart_wf h
  | .hostdata _ _ _ _ _ => execHostdata_wf h
  | .shardDigest _ => execShardDigest_wf h
  | .shardReport _ => execShardReport_wf h
  | .shardCommit _ => execShardCommit_wf h
  | .shardDone _ => execShardDone_wf h
  | .shardAllDone _ => execShardAllDone_wf h
  | .restoreTimeout _ => execRestoreTimeout_wf h
  | .ckptHoldExpiry _ => execCkptHoldExpiry_wf h
  | .frameReceive _ _ _ _ _ => execFrameReceive_wf h
  | .frameTransmit _ _ _ => execFrameTransmit_wf h
  | .controlWord _ _ _ => execControlWord_wf h
  | .linkSignalDetect _ => execLinkSignalDetect_wf h
  | .trainingComplete _ _ => execTrainingComplete_wf h
  | .trainFail _ => execTrainFail_wf h
  | .laneFail _ _ => execLaneFail_wf h
  | .retrainDone _ => execRetrainDone_wf h
  | .retrainTimeout _ => execRetrainTimeout_wf h
  | .halfRetrain n => execHalfRetrain_wf n h
  | .linkPortReset _ => execLinkPortReset_wf h
  | .graceEnd => execGraceEnd_wf h
  | .remoteGraceEnd _ => execRemoteGraceEnd_wf h
  | .uncorrectableError _ => execUncorrectableError_wf h
  | .mprogError _ _ _ _ => execMprogError_wf h
  | .weightTagFail _ _ _ => execWeightTagFail_wf h
  | .correctableError _ _ => execCorrectableError_wf h
  | .hbmSpareStart _ _ => execHbmSpareStart_wf h
  | .hbmSpareCopyDone _ => execHbmSpareCopyDone_wf h
  | .recallTimeout _ => execRecallTimeout_wf h
  | .supplyWarn _ => execSupplyWarn_wf h
  | .supplyNormal _ => execSupplyNormal_wf h
  | .reducedEntry _ _ => execReducedEntry_wf h
  | .overcurrent _ _ => execOvercurrent_wf h
  | .reducedExit _ => execReducedExit_wf h
  | .rideLimit _ => execRideLimit_wf h
  | .supplyStop _ => execSupplyStop_wf h
  | .overvolt _ => execOvervolt_wf h
  | .stopRecordClose => execStopRecordClose_wf h
  | .stopRailsOff => execStopRailsOff_wf h
  | .stopComplete => execStopComplete_wf h
  | .avsAck _ => execAvsAck_wf h
  | .avsTimeout _ => execAvsTimeout_wf h
  | .unitEntryPoint => execUnitEntryPoint_wf h
  | .unitWakeLock => execUnitWakeLock_wf h
  | .deviceStateDone => execDeviceStateDone_wf h
  | .presence => execPresence_wf h
  | .presenceWindowEnd => execPresenceWindowEnd_wf h
  | .sealOpen => execSealOpen_wf s
  | .decapKeyExpiry _ => execDecapKeyExpiry_wf h
  | .akCertified => execAkCertified_wf h
  | .hostLoss _ => execHostLoss_wf h
  | .hostHoldExpiry => execHostHoldExpiry_wf h
  | .vfFlr _ => execVfFlr_wf h
  | .hostPortReset => execHostPortReset_wf h
  | .deviceReset _ _ _ => execDeviceReset_wf h
  | .watchdogExpiry _ => execWatchdogExpiry_wf h
  | .blockPartialReset _ _ => execBlockPartialReset_wf h
  | .ddrControllerReset _ => execDdrControllerReset_wf h
  | .ddrControllerRestartEnd _ _ => execDdrControllerRestartEnd_wf h
  | .ddrPresenceChange _ _ => execDdrPresenceChange_wf h
  | .ddrPgRelease _ => execDdrPgRelease_wf h
  | .powerOnQualified _ _ _ _ _ => execPowerOnQualified_wf h
  | .firmwareStart _ _ => execFirmwareStart_wf h
  | .trainingDone _ _ _ _ => execTrainingDone_wf h
  | .thermtrip n => execThermtrip_wf n s
  | .moverSlotStart _ => execMoverSlotStart_wf h
  | .hostReadCompletion _ => execHostReadCompletion_wf h
  | .sealLoopClose => execSealLoopClose_wf h
  | .vfEnable _ => execVfEnable_wf h
  | .blockSelfTestDone _ _ _ => execBlockSelfTestDone_wf h
  | .restoreStagingDone _ _ => execRestoreStagingDone_wf h
  | .eventSnapshotDone => execEventSnapshotDone_wf h
  | .laneRepairDone _ => execLaneRepairDone_wf h
  | .linkTrainRetry _ => execLinkTrainRetry_wf h
  | .timeRecord => execTimeRecord_wf h

/-- Settles O5: an instruction at the front runs as `exec_wf` says, and a step without one passes one beat, which writes no byte. -/
theorem stepKeepsMemoryCanonical : Obligations.StepKeepsMemoryCanonical := by
  intro s t h ht
  unfold step at ht
  split at ht
  · obtain rfl := Host.Outcome.next.inj ht
    rwa [tick_mem]
  · next c rest _ => exact exec_wf (s := { s with pending := rest }) h c t ht

end Sys2Proof.Machine
end

section
/-! PROOF of O23. SCHEDULE_LOAD, SHRINK_ARM and IMAGE_READY (08 R200 to R202, R219, R220; 16 R436): an image or a plan is staged once its bytes are whole, and a staged plan is armed where every role of it fits. -/

namespace Sys2Proof.Machine

variable {p : Packet} {s t u : State}

/-! ### IMAGE_READY to the members of the rings (08 R202) -/

/-- The IMAGE_READY messages that one ring's members are sent by the device with an index. -/
def readyTo (at_ own : Nat) (r : RingSection) : List Msg :=
  (r.members.filter (fun m => m != own)).map (fun m => .imageReady m r.ringId r.ringDigest at_)

theorem foldl_sendReady (at_ : Nat) (r : RingSection) (l : List Nat) (s : State) :
    l.foldl (fun s m => if m = ownIndex s then s else send (.imageReady m r.ringId r.ringDigest at_) s) s
      = { s with out := { s.out with msgs := s.out.msgs ++ readyTo at_ (ownIndex s) { r with members := l } } } := by
  induction l generalizing s with
  | nil => simp [readyTo]
  | cons m rest ih =>
    have hown : ownIndex (send (.imageReady m r.ringId r.ringDigest at_) s) = ownIndex s := rfl
    by_cases h : m = ownIndex s
    · rw [List.foldl_cons, if_pos h, ih]
      simp [readyTo, h]
    · rw [List.foldl_cons, if_neg h, ih, hown]
      simp [readyTo, h]

/-- Every ring's messages stand in order behind those sent before. -/
theorem sendReady_eq (img : Image) (at_ : Nat) (s : State) :
    sendReady img at_ s = { s with out := { s.out with msgs := s.out.msgs ++ img.rings.flatMap (readyTo at_ (ownIndex s)) } } := by
  unfold sendReady
  induction img.rings generalizing s with
  | nil => simp
  | cons r rest ih =>
    rw [List.foldl_cons, ih, foldl_sendReady]
    simp [ownIndex]

theorem mem_sendReady_msgs {img : Image} {at_ m : Nat} {r : RingSection} (hr : r ∈ img.rings) (hm : m ∈ r.members) (hown : m ≠ ownIndex s) :
    .imageReady m r.ringId r.ringDigest at_ ∈ (sendReady img at_ s).out.msgs := by
  rw [sendReady_eq]
  refine List.mem_append_right _ (List.mem_flatMap.2 ⟨r, hr, List.mem_map.2 ⟨m, ?_, rfl⟩⟩)
  simp [hm, hown]

/-! ### SCHEDULE_LOAD -/

theorem execScheduleLoad_passes {obj : Bytes} (ho : opcodeOf p = 0x13) (h : passes never p s = some t) :
    exec (.scheduleLoad p obj) s = .next (dropRecognised p (scheduleBody obj 0 p t)) := next_serve_passes ho h

theorem scheduleBody_busy {obj : Bytes} {g : StagedImage} (hk : argOf p 20 1 ≤ 1) (hg : t.sched.staged = some g) :
    scheduleBody obj 0 p t = reply p (busy (min 0xFFFE (g.activateAt - t.cad.beat))) t := by
  rw [scheduleBody, if_neg (Nat.not_lt.2 hk), hg]

theorem scheduleBody_takes {obj : Bytes} (hk : argOf p 20 1 ≤ 1) (hs : t.sched.staged = none) :
    (∀ a u, takePiece (0x1300 + argOf p 20 1) 0x30 p t = .kept a u → scheduleBody obj 0 p t = reply p a u)
      ∧ ∀ u, takePiece (0x1300 + argOf p 20 1) 0x30 p t = .last u → scheduleBody obj 0 p t = loadSchedule p (argOf p 20 1) obj u := by
  refine ⟨fun a u hp => ?_, fun u hp => ?_⟩ <;> simp only [scheduleBody, if_neg (Nat.not_lt.2 hk), hs, hp]

theorem loadSchedule_fault {obj : Bytes} {a : Ans} (hf : imageFault u (readImage obj) (paramOf p 0x20 8) = some a) :
    loadSchedule p 0 obj u = reply p a u := by
  simp [loadSchedule, hf]

/-- The state that a sound schedule image leaves before its readiness is told: it is staged, and its final reply is owed. -/
def imageStaged (p : Packet) (obj : Bytes) (u : State) : State :=
  accept p .schedule { u with sched := { u.sched with staged := some ⟨readImage obj, paramOf p 0x20 8, false⟩ } }

theorem loadSchedule_staged {obj : Bytes} (hf : imageFault u (readImage obj) (paramOf p 0x20 8) = none) :
    loadSchedule p 0 obj u = sendReady (readImage obj) (paramOf p 0x20 8) (imageStaged p obj u) := by
  simp [loadSchedule, hf, imageStaged]

theorem loadSchedule_planFault {obj : Bytes} {a : Ans} (hf : planFault u (readPlan obj) = some a) : loadSchedule p 1 obj u = reply p a u := by
  simp [loadSchedule, hf]

theorem loadSchedule_plan {obj : Bytes} (hf : planFault u (readPlan obj) = none) :
    loadSchedule p 1 obj u = reply p ok { u with sched := { u.sched with
      plans := u.sched.plans.filter (fun q => q.armed || q.img.ringId != (readPlan obj).ringId) ++ [⟨readPlan obj, false⟩] } } := by
  simp [loadSchedule, hf]

/-- A staged image changes nothing but the schedule, the command that waits for it, and what leaves the device. -/
theorem imageStaged_told {obj : Bytes} {v : State} (hv : v = dropRecognised p (sendReady (readImage obj) (paramOf p 0x20 8) (imageStaged p obj u))) :
    v.sched = { u.sched with staged := some ⟨readImage obj, paramOf p 0x20 8, false⟩ }
      ∧ commandOf v .schedule ≠ none ∧ v.mem = u.mem ∧ v.tier = u.tier ∧ v.cont = u.cont
      ∧ ∀ r ∈ (readImage obj).rings, ∀ m ∈ r.members, m ≠ ownIndex u → .imageReady m r.ringId r.ringDigest (paramOf p 0x20 8) ∈ v.out.msgs := by
  subst hv
  have hown : ownIndex (imageStaged p obj u) = ownIndex u := by simp [ownIndex, imageStaged]
  have hcommand : commandOf (sendReady (readImage obj) (paramOf p 0x20 8) (imageStaged p obj u)) .schedule ≠ none := by
    rw [sendReady_eq]
    exact commandOf_accept _ _ _
  refine ⟨?_, hcommand, ?_, ?_, ?_, fun r hr m hm hne => mem_sendReady_msgs hr hm (hown ▸ hne)⟩ <;> simp [sendReady_eq, imageStaged]

/-! ### SHRINK_ARM (08 R220; 16 R436) -/

theorem execShrinkArm_passes (ho : opcodeOf p = 0x43) (h : passes never p s = some t) :
    exec (.shrinkArm p) s = .next (dropRecognised p (shrinkBody 0 p t)) := next_serve_passes ho h

/-- The staged plan of a ring, not armed yet. -/
def unarmedPlan (ring : Nat) (t : State) : Option StagedPlan := t.sched.plans.find? (fun q => !q.armed && q.img.ringId == ring)

/-- Whether a role of a plan is at fault as SHRINK_ARM checks it. -/
def roleAtFault (t : State) (q : StagedPlan) (e : Image × Nat) : Bool := (contentFault (withRole t e.1) e.1).isSome || !rolesFit t q.img

/-- A plan over the active image: the first role at fault is the answer, and without one the plan is armed. -/
theorem shrinkBody_based {q : StagedPlan} {img : Image} (hq : unarmedPlan (paramOf p 0x20 8) t = some q) (hi : t.sched.active = some img)
    (hb : q.img.base = img.facts.trailer) :
    (q.img.roles.zipIdx.find? (roleAtFault t q) = none → shrinkBody 0 p t = reply p ok { t with sched := { t.sched with
        plans := t.sched.plans.filter (fun x => x.img.ringId != paramOf p 0x20 8) ++ [{ q with armed := true }] } })
      ∧ ∀ e, q.img.roles.zipIdx.find? (roleAtFault t q) = some e → shrinkBody 0 p t = reply p { status := stSHAPE_MISMATCH, detail := e.2 } t := by
  unfold unarmedPlan at hq
  unfold roleAtFault
  refine ⟨fun hf => ?_, fun e hf => ?_⟩ <;> simp only [shrinkBody, hq, hi, hb, ne_eq, not_true, if_false, hf]

/-- The roles before an index are sound and the one there is not: it is the first at fault. -/
theorem find?_roleAtFault {q : StagedPlan} {i : Nat} {r : Image} (hr : q.img.roles[i]? = some r) (hf : roleAtFault t q (r, i) = true)
    (hbefore : ∀ j x, j < i → q.img.roles[j]? = some x → roleAtFault t q (x, j) = false) :
    q.img.roles.zipIdx.find? (roleAtFault t q) = some (r, i) := by
  obtain ⟨hi, rfl⟩ := List.getElem?_eq_some_iff.1 hr
  rw [List.find?_eq_some_iff_getElem]
  refine ⟨hf, i, by simpa using hi, by simp, fun j hj => ?_⟩
  have hj' : j < q.img.roles.length := hj.trans hi
  simpa using hbefore j _ hj (List.getElem?_eq_getElem hj')

/-- Without a staged plan of the ring, without an active image, or over another BASE, the detail is free (log entry 14). -/
theorem shrinkBody_open (h : t.sched.active = none ∨ unarmedPlan (paramOf p 0x20 8) t = none
      ∨ ∃ q img, unarmedPlan (paramOf p 0x20 8) t = some q ∧ t.sched.active = some img ∧ q.img.base ≠ img.facts.trailer) :
    shrinkBody 0 p t = replyOpen p stSHAPE_MISMATCH t := by
  unfold unarmedPlan at h
  unfold shrinkBody
  dsimp only
  split
  · next q img hq hi =>
    rcases h with h | h | ⟨q', img', hq', hi', hb⟩
    · rw [hi] at h
      cases h
    · rw [hq] at h
      cases h
    · rw [hq] at hq'
      rw [hi] at hi'
      cases hq'
      cases hi'
      rw [if_pos hb]
  · rfl

/-- Settles O23: a piece is read by what it completes, a staged plan by the first of its roles that is at fault. -/
theorem schedulesAndPlansStaged : Obligations.SchedulesAndPlansStaged := by
  refine ⟨?load, ?busy, ?arm, ?free, fun member ringId ringDigest activateAt s => rfl⟩
  case load =>
    intro p obj s t ho h hk hs
    obtain ⟨kept, last⟩ := scheduleBody_takes (obj := obj) hk hs
    rw [execScheduleLoad_passes ho h]
    refine ⟨fun a u hp => by rw [kept a u hp]; rfl, fun u a hp h0 hf => ?_, fun u hp h0 hf => ?_, fun u a hp h1 hf => ?_, fun u hp h1 hf => ?_⟩
    · rw [last u (by rw [h0]; exact hp), h0, loadSchedule_fault hf]
      rfl
    · exact ⟨_, by rw [last u (by rw [h0]; exact hp), h0, loadSchedule_staged hf], imageStaged_told rfl⟩
    · rw [last u (by rw [h1]; exact hp), h1, loadSchedule_planFault hf]
      rfl
    · rw [last u (by rw [h1]; exact hp), h1, loadSchedule_plan hf]
      rfl
  case busy =>
    intro p obj g s t ho h hk hg
    rw [execScheduleLoad_passes ho h, scheduleBody_busy hk hg]
    rfl
  case arm =>
    intro p q img s t ho h hq hi hb
    obtain ⟨arms, refuses⟩ := shrinkBody_based (p := p) hq hi hb
    rw [execShrinkArm_passes ho h]
    refine ⟨fun hfit hall => ?_, fun i r hr hf hfit hbefore => ?_, fun hfit hne => ?_⟩
    · rw [arms (List.find?_eq_none.2 fun e he => by
        simp [roleAtFault, hfit, hall e.1 (List.fst_mem_of_mem_zipIdx he)])]
      rfl
    · rw [refuses (r, i) (find?_roleAtFault hr (by simp [roleAtFault, hf]) fun j x hj hx => by simp [roleAtFault, hfit, hbefore j x hj hx])]
      rfl
    · obtain ⟨r, rest, hroles⟩ := List.exists_cons_of_ne_nil hne
      rw [refuses (r, 0) (find?_roleAtFault (by rw [hroles]; rfl) (by simp [roleAtFault, hfit]) fun j x hj => absurd hj (Nat.not_lt_zero j))]
      rfl
  case free =>
    intro p s t ho h hopen
    rw [execShrinkArm_passes ho h, shrinkBody_open]
    · exact ⟨_, rfl⟩
    · refine hopen.imp_right (Or.imp_left fun hall => List.find?_eq_none.2 fun q hq => ?_)
      rcases hall q hq with ha | hr
      · simp [ha]
      · simp [hr]

end Sys2Proof.Machine
end

section
/-! SUPPORT for O52. Schedule notices and kills, one rule an operation (08 R206 to R213, R222): what registering a notice of each kind leaves, and which run a kill voids. -/

namespace Sys2Proof.Machine

variable {n : Notice} {x : SlotEntry} {img : Image} {s t : State}

/-! ### Counters of a partition -/

@[simp] theorem countPart_sched (part : Nat) (f : PartitionCounters → PartitionCounters) (s : State) : (countPart part f s).sched = s.sched := by
  unfold countPart
  split <;> rfl

@[simp] theorem countPart_cad (part : Nat) (f : PartitionCounters → PartitionCounters) (s : State) : (countPart part f s).cad = s.cad := by
  unfold countPart
  split <;> rfl

theorem partitionAt_countPart {part : Nat} {q : Partition} (h : partitionAt s part = some q) (f : PartitionCounters → PartitionCounters) :
    partitionAt (countPart part f s) part = some { q with counters := f q.counters } := by
  rw [countPart, h]
  exact FMap.get?_put_same _ _ _

@[simp] theorem slipOf_countPart (part : Nat) (f : PartitionCounters → PartitionCounters) (s : State) : slipOf (countPart part f s) part = slipOf s part := by
  cases h : partitionAt s part with
  | none => simp [countPart, h]
  | some q => simp [slipOf, h, partitionAt_countPart h f]

theorem slipFits_congr {part : Nat} (ha : t.sched.active = s.sched.active) (hp : slipOf t part = slipOf s part) (delta : Nat) :
    slipFits part delta t = slipFits part delta s := by
  simp [slipFits, ha, hp]

/-! ### A run is killed (01 R28) -/

/-- Outside the Fabric, a killed run is one more among those killed, and the slot's next run count begins. -/
theorem voidRun_changes (x : SlotEntry) (ds : List Nat) (s : State) :
    voidRun x ds s = { s with
      sched := { s.sched with killed := s.sched.killed ++ [(x.id, runOf s x.id)], runs := FMap.put s.sched.runs x.id (runOf s x.id + 1) }
      fab := (voidRun x ds s).fab } := by
  unfold voidRun
  exact foldl_induct (fun t => t = { s with sched := _, fab := t.fab }) (fun t d ht => by rw [ht]; rfl) ds rfl

@[simp] theorem voidRun_cont (x : SlotEntry) (ds : List Nat) (s : State) : (voidRun x ds s).cont = s.cont := by rw [voidRun_changes]

theorem voidRun_sched (x : SlotEntry) (ds : List Nat) (s : State) : (voidRun x ds s).sched
    = { s.sched with killed := s.sched.killed ++ [(x.id, runOf s x.id)], runs := FMap.put s.sched.runs x.id (runOf s x.id + 1) } := by
  rw [voidRun_changes]

theorem runOf_voidRun (x : SlotEntry) (ds : List Nat) (s : State) : runOf (voidRun x ds s) x.id = runOf s x.id + 1 := by
  simp [runOf, voidRun_sched]

/-! ### Registering a notice, by its kind -/

/-- The state in which a notice counts as applied. -/
def noticeKept (n : Notice) (s : State) : State := { s with sched := { s.sched with notices := s.sched.notices ++ [n] } }

theorem registerNotice_noticed (h : noticed n s = true) : registerNotice n s = s := if_pos h

theorem registerNotice_slip (h : noticed n s = false) (hk : n.kind = 1) : registerNotice n s = slipLater n (noticeKept n s) := by
  simp [registerNotice, h, hk, noticeKept]

/-- An ABORT that is reported and counted, before the run it names is looked at. -/
def abortCounted (n : Notice) (s : State) : State :=
  countPart n.partition (fun c => { c with aborts := c.aborts + 1 }) (report 0x401 (noticeBytes n) (noticeKept n s))

/-- An ABORT may kill the run it names, and its slip waits where it fits (08 R213). -/
theorem registerNotice_abort (h : noticed n s = false) (hk : n.kind = 2) :
    ∃ u, (u = abortCounted n s ∨ ∃ x, u = voidRun x (slotDistricts x) (abortCounted n s))
      ∧ registerNotice n s = if slipFits n.partition n.delta u then slipLater n u else u := by
  refine ⟨_, ?_, by simp only [registerNotice, h, hk]; rfl⟩
  split
  · next x _ =>
    split
    · exact .inr ⟨x, rfl⟩
    · exact .inl rfl
  · exact .inl rfl

/-- A DEFER that is reported and counted, before its E is looked at. -/
def deferCounted (n : Notice) (s : State) : State :=
  countPart n.partition (fun c => { c with deferrals := c.deferrals + 1 }) (report 0x402 (noticeBytes n) (noticeKept n s))

theorem registerNotice_defer (h : noticed n s = false) (hk : n.kind = 3) : registerNotice n s = deferLater n (deferCounted n s) := by
  simp [registerNotice, h, hk, deferCounted, noticeKept]

theorem registerNotice_fallbacks (h : noticed n s = false) (hk : n.kind = 4) :
    (registerNotice n s).sched.fallbacks = s.sched.fallbacks ++ [⟨n.planId, n.e, n.run == 1⟩] := by
  simp [registerNotice, h, hk]

/-! ### Deferrals (08 R210) -/

/-- A deferral alone in the list and due takes place at once. -/
theorem settleDefers_due (h : s.sched.deferDue = [n]) (he : n.e ≤ s.cad.beat) :
    settleDefers s = runDefer n { s with sched := { s.sched with deferDue := [] } } := by
  simp [settleDefers, h, he]

/-- A deferral alone in the list waits for its E. -/
theorem settleDefers_waits (h : s.sched.deferDue = [n]) (he : s.cad.beat < n.e) : settleDefers s = s := by
  have hdue : s.sched.deferDue.filter (fun n => decide (n.e ≤ s.cad.beat)) = [] := by simp [h, he]
  have hleft : s.sched.deferDue.filter (fun n => !decide (n.e ≤ s.cad.beat)) = s.sched.deferDue := by simp [h, he]
  simp only [settleDefers, hdue, hleft, List.foldl_nil]

@[simp] theorem passOf_voidRun (x : SlotEntry) (ds : List Nat) (s : State) (part mb : Nat) : passOf (voidRun x ds s) part mb = passOf s part mb := by
  simp [passOf, voidRun_sched]

/-- A deferral withdraws the members of its microbatch from every place that holds one. -/
theorem deferMb_withdraws {part mb e : Nat} {m : SealedMb} (hm : passOf s part mb = some m) :
    ∀ y ∈ (deferMb part mb e s).sched.sealPrev ++ (deferMb part mb e s).sched.sealNow ++ (deferMb part mb e s).sched.sealNext, ∀ q ∈ y.places,
      (∃ r ∈ m.places, r.withdrawn = false ∧ r.handle = q.handle) → q.withdrawn = true := by
  intro y hy q hq ⟨r, hr, hrw, hrh⟩
  simp only [deferMb, hm, ← List.map_append, List.mem_map] at hy
  obtain ⟨y', -, rfl⟩ := hy
  obtain ⟨q', -, rfl⟩ := List.mem_map.1 hq
  simp only [Bool.or_eq_true, List.contains_iff_mem, List.mem_map, List.mem_filter]
  exact .inr ⟨r, ⟨hr, by simp [hrw]⟩, hrh⟩

theorem runDefer_withdraws {m : SealedMb} (hm : passOf s n.partition n.microbatch = some m) :
    ∀ y ∈ (runDefer n s).sched.sealPrev ++ (runDefer n s).sched.sealNow ++ (runDefer n s).sched.sealNext, ∀ q ∈ y.places,
      (∃ r ∈ m.places, r.withdrawn = false ∧ r.handle = q.handle) → q.withdrawn = true :=
  deferMb_withdraws ((foldl_keeps (fun s => passOf s n.partition n.microbatch) (fun s x => passOf_voidRun x _ s _ _) _ s).trans hm)

/-! ### Kills of a slot's run (08 R206, R207) -/

/-- The slot is killed by what a fault brings: it belongs to the image it runs under, runs alone, has not committed, waits for no rerun, and its rerun fits the window. -/
structure Killable (img : Image) (x : SlotEntry) (id : Nat) (s : State) : Prop where
  active : s.sched.active = some img
  slot : activeSlot s id = some x
  alone : bitOf x.flags 1 = false
  running : slotCommitted id s = false
  settled : ∀ n ∈ s.sched.slipDue, n.slotId ≠ id
  fits : slipFits x.partition x.rerunBeats s = true

theorem activeSlot_id {id : Nat} (h : activeSlot s id = some x) : x.id = id := by
  obtain ⟨img, -, hx⟩ := Option.bind_eq_some_iff.1 h
  simpa using List.find?_some hx

theorem activeSlot_congr (h : t.sched = s.sched) (id : Nat) : activeSlot t id = activeSlot s id := by
  have hp : passPrev t = passPrev s := by
    funext x
    rw [passPrev, passPrev, h]
  simp [activeSlot, slotImage, h, hp]

/-- The notice of a slip kills no further run. -/
theorem sendNotice_slip_runs (peers : List Nat) (hk : n.kind = 1) (s : State) : (sendNotice peers n s).sched.runs = s.sched.runs := by
  have hsent : (peers.foldl (fun s m => send (.notice (some m) n) s) s).sched = s.sched := foldl_keeps State.sched (fun _ _ => send_sched _ _) peers s
  rw [sendNotice, ← hsent]
  cases h : noticed n (peers.foldl (fun s m => send (.notice (some m) n) s) s) with
  | true => rw [registerNotice_noticed h]
  | false =>
    rw [registerNotice_slip h hk]
    rfl

namespace Killable

variable {id : Nat}

/-- A slot is killed by its schedule and its partition's slip alone. -/
theorem congr (h : Killable img x id s) (hs : t.sched = s.sched) (hc : t.cont = s.cont) : Killable img x id t where
  active := hs ▸ h.active
  slot := (activeSlot_congr hs id).trans h.slot
  alone := h.alone
  running := by rw [slotCommitted, hs]; exact h.running
  settled := hs ▸ h.settled
  fits := (slipFits_congr (by rw [hs]) (by rw [slipOf, partitionAt, hc]; rfl) _).trans h.fits

/-- The run in force dies, and the slip's notice kills no other. -/
theorem kills (h : Killable img x id s) : runOf (killSlot id s) id = runOf s id + 1 := by
  have hid := activeSlot_id h.slot
  have hwait : s.sched.slipDue.any (fun n => n.slotId == id && n.partition == x.partition) = false := by
    simpa using fun n hn he => absurd he (h.settled n hn)
  simp only [killSlot, h.running, h.slot, killRun, h.active, hwait, h.alone, h.fits, Bool.false_eq_true, if_false, if_true]
  rw [runOf, sendNotice_slip_runs _ rfl]
  exact hid ▸ runOf_voidRun x _ s

end Killable

theorem ByNotice.killSlot (id : Nat) (h : ByNotice s t) : ByNotice s (killSlot id t) := by
  unfold Machine.killSlot
  exact ite h (h.killRun _ _)

end Sys2Proof.Machine
end

section
/-! SUPPORT for O52. What kills, fences and departures leave of the Fabric's error notes: the microprogram errors of each Block, the weight chunks read again and the damaged models (07 R180, R185, R187). -/

namespace Sys2Proof.Machine

variable {s t : State}

/-- The Fabric's error notes: microprogram errors by Block, weight chunks read again, models whose weights are damaged. -/
def errorNotes (s : State) : (Nat → Nat → FMap Nat) × List (Nat × Nat) × List Nat :=
  (fun d b => (blockAt s d b).mprogErrors, s.fab.reread, s.fab.damaged)

theorem errorNotes_of_fab (h : t.fab = s.fab) : errorNotes t = errorNotes s := by
  simp [errorNotes, blockAt, h]

@[simp] theorem errorNotes_report (code : Nat) (body : Bytes) (s : State) : errorNotes (report code body s) = errorNotes s :=
  errorNotes_of_fab (report_fab _ _ _)

@[simp] theorem errorNotes_setFlag (off bit : Nat) (s : State) : errorNotes (setFlag off bit s) = errorNotes s := errorNotes_of_fab (setFlag_fab _ _ _)

@[simp] theorem errorNotes_finish (w : Work) (a : Ans) (s : State) : errorNotes (finish w a s) = errorNotes s := errorNotes_of_fab (finish_fab _ _ _)

/-! ### Notices and kills -/

@[simp] theorem errorNotes_countPart (part : Nat) (f : PartitionCounters → PartitionCounters) (s : State) : errorNotes (countPart part f s) = errorNotes s := by
  unfold countPart
  split <;> rfl

@[simp] theorem errorNotes_voidRun (x : SlotEntry) (ds : List Nat) (s : State) : errorNotes (voidRun x ds s) = errorNotes s := by
  unfold voidRun
  rw [foldl_modDistrict errorNotes (fun _ _ _ => rfl)]
  rfl

@[simp] theorem errorNotes_runDefer (n : Notice) (s : State) : errorNotes (runDefer n s) = errorNotes s := by
  rw [← foldl_keeps errorNotes (fun s x => errorNotes_voidRun x (slotDistricts x) s) (uncommitted s n.partition n.microbatch) s]
  unfold runDefer deferMb
  split <;> rfl

@[simp] theorem errorNotes_settleDefers (s : State) : errorNotes (settleDefers s) = errorNotes s :=
  foldl_keeps errorNotes (fun s n => errorNotes_runDefer n s) _ _

@[simp] theorem errorNotes_slipLater (n : Notice) (s : State) : errorNotes (slipLater n s) = errorNotes s := rfl

@[simp] theorem errorNotes_registerNotice (n : Notice) (s : State) : errorNotes (registerNotice n s) = errorNotes s := by
  unfold registerNotice
  split
  · rfl
  · dsimp only
    split
    · rfl
    · rw [apply_ite errorNotes, errorNotes_slipLater, ite_self]
      split
      · rw [apply_ite errorNotes, errorNotes_voidRun, ite_self, errorNotes_countPart, errorNotes_report]
        rfl
      · rw [errorNotes_countPart, errorNotes_report]
        rfl
    · exact (errorNotes_settleDefers _).trans ((errorNotes_countPart _ _ _).trans (errorNotes_report _ _ _))
    · exact errorNotes_report _ _ _
    · rfl

@[simp] theorem errorNotes_sendNotice (peers : List Nat) (n : Notice) (s : State) : errorNotes (sendNotice peers n s) = errorNotes s :=
  (errorNotes_registerNotice n _).trans (foldl_keeps errorNotes (fun s m => errorNotes_of_fab (send_fab (.notice (some m) n) s)) peers s)

@[simp] theorem errorNotes_sendDefer (x : SlotEntry) (run e : Nat) (s : State) : errorNotes (sendDefer x run e s) = errorNotes s :=
  errorNotes_sendNotice _ _ s

@[simp] theorem errorNotes_killSlot (id : Nat) (s : State) : errorNotes (killSlot id s) = errorNotes s := by
  unfold killSlot killRun
  (repeat' split) <;> simp [apply_ite errorNotes]

/-! ### Departures and fences -/

@[simp] theorem departRings_fab (rings : List Nat) (s : State) : (departRings rings s).fab = s.fab := by
  unfold departRings
  (repeat' split) <;> rfl

@[simp] theorem departRings_runs (rings : List Nat) (s : State) : (departRings rings s).sched.runs = s.sched.runs := by
  unfold departRings
  (repeat' split) <;> rfl

@[simp] theorem errorNotes_departRings (rings : List Nat) (s : State) : errorNotes (departRings rings s) = errorNotes s :=
  errorNotes_of_fab (departRings_fab rings s)

/-- A Block's update that leaves its microprogram errors leaves every note. -/
@[simp] theorem errorNotes_modBlock {f : Block → Block} (hf : ∀ k, (f k).mprogErrors = k.mprogErrors) (d b : Nat) (s : State) :
    errorNotes (modBlock d b f s) = errorNotes s := by
  have herrors (d' b' : Nat) : (blockAt (modBlock d b f s) d' b').mprogErrors = (blockAt s d' b').mprogErrors := by
    by_cases h : blockKey d' b' = blockKey d b
    · simp [blockAt, modBlock, h, hf]
    · simp [blockAt, modBlock, FMap.getD_put_other _ _ _ h]
  exact Prod.ext (funext fun d' => funext fun b' => herrors d' b') rfl

@[simp] theorem errorNotes_wholeFence (d b : Nat) (s : State) : errorNotes (wholeFence d b s) = errorNotes s := by
  unfold wholeFence
  dsimp only
  split
  · rfl
  · rw [foldl_keeps errorNotes (fun _ _ => errorNotes_finish _ _ _)]
    simp

@[simp] theorem errorNotes_blockPlan (d b e : Nat) (s : State) : errorNotes (blockPlan d b e s) = errorNotes s := by
  unfold blockPlan sendFallback
  (repeat' split) <;> simp

@[simp] theorem errorNotes_planWholeFence (d b earliest : Nat) (s : State) : errorNotes (planWholeFence d b earliest s) = errorNotes s := by
  unfold planWholeFence
  split <;> simp

@[simp] theorem errorNotes_loadStores (d b : Nat) (cores : List Nat) (s : State) : errorNotes (loadStores d b cores s) = errorNotes s := by
  unfold loadStores
  split <;> rfl

@[simp] theorem errorNotes_wakeSpares (d b : Nat) (s : State) : errorNotes (wakeSpares d b s) = errorNotes s := by
  simp [wakeSpares]

@[simp] theorem errorNotes_swapCore (d b : Nat) (f : Nat × Nat × Nat) (s : State) : errorNotes (swapCore d b f s) = errorNotes s := by
  unfold swapCore
  dsimp only
  (repeat' split) <;> simp

@[simp] theorem errorNotes_swapBlock (d b : Nat) (s : State) : errorNotes (swapBlock d b s) = errorNotes s := by
  unfold swapBlock
  extract_lets _ _ t
  have ht : errorNotes t = errorNotes s := foldl_keeps errorNotes (fun s f => errorNotes_swapCore d b f s) _ s
  (repeat' split) <;> simp [ht]

@[simp] theorem errorNotes_fenceCore (d b core : Nat) (s : State) : errorNotes (fenceCore d b core s) = errorNotes s := by
  unfold fenceCore
  extract_lets _ logical free t1 first at_ decided due t2 t3 t4 blk moving t5
  have h1 : errorNotes t1 = errorNotes s := by
    unfold t1
    split <;> rfl
  have h3 : errorNotes t3 = errorNotes t1 := by simp [t3, t2]
  have h4 : errorNotes t4 = errorNotes t3 := by simp [t4, apply_ite errorNotes]
  have h5 : errorNotes t5 = errorNotes t4 := by simp [t5, apply_ite errorNotes]
  (repeat' split) <;> simp [h5, h4, h3, h1]

end Sys2Proof.Machine
end

section
/-! PROOF of O52. Notices from ring members (08 R207 to R213, R222), late frames (02 R57), microprogram errors (07 R180) and weight chunks that fail (07 R185): what each row notes, and the run it kills. -/

namespace Sys2Proof.Machine

variable {n : Notice} {x : SlotEntry} {img : Image} {s : State}

/-! ### Notices -/

/-- Each notice row registers the notices of its own kind, and no other. -/
theorem execNotice_eq (n : Notice) (s : State) :
    exec (.slipNotice n) s = .next (if n.kind = 1 then registerNotice n s else s) ∧ exec (.abortNotice n) s = .next (if n.kind = 2 then registerNotice n s else s)
      ∧ exec (.deferNotice n) s = .next (if n.kind = 3 then registerNotice n s else s)
      ∧ exec (.fallbackNotice n) s = .next (if n.kind = 4 then registerNotice n s else s) := ⟨rfl, rfl, rfl, rfl⟩

/-- An ABORT is kept and counted, and its slip waits exactly where it fits (08 R213). -/
theorem abort_kept (h : noticed n s = false) (hk : n.kind = 2) :
    (registerNotice n s).sched.notices = s.sched.notices ++ [n]
      ∧ (slipFits n.partition n.delta s = true → (registerNotice n s).sched.slipDue = s.sched.slipDue ++ [n])
      ∧ (slipFits n.partition n.delta s = false → (registerNotice n s).sched.slipDue = s.sched.slipDue)
      ∧ ∀ q, partitionAt s n.partition = some q →
        ∃ r, partitionAt (registerNotice n s) n.partition = some r ∧ r.counters.aborts = q.counters.aborts + 1 := by
  obtain ⟨u, hu, e⟩ := registerNotice_abort h hk
  have hcount : u.cont = (abortCounted n s).cont ∧ u.sched.active = s.sched.active ∧ u.sched.notices = s.sched.notices ++ [n] ∧ u.sched.slipDue = s.sched.slipDue := by
    rcases hu with rfl | ⟨x, rfl⟩ <;> simp [voidRun_sched, abortCounted, noticeKept]
  obtain ⟨hcont, hactive, hnotices, hdue⟩ := hcount
  have hslip : slipOf u n.partition = slipOf s n.partition := by
    have h' : slipOf u n.partition = slipOf (abortCounted n s) n.partition := by simp only [slipOf, partitionAt, hcont]
    rw [h', abortCounted, slipOf_countPart, slipOf, partitionAt, report_cont]
    rfl
  rw [slipFits_congr hactive hslip] at e
  refine ⟨?_, fun hf => ?_, fun hf => ?_, fun q hq => ⟨{ q with counters := { q.counters with aborts := q.counters.aborts + 1 } }, ?_, rfl⟩⟩
  · rw [e]
    split
    · exact hnotices
    · exact hnotices
  · rw [e, if_pos hf]
    exact congrArg (· ++ [n]) hdue
  · rw [e, hf]
    exact hdue
  · have hcont' : (registerNotice n s).cont = u.cont := by
      rw [e]
      split <;> rfl
    have hq' : partitionAt (report 0x401 (noticeBytes n) (noticeKept n s)) n.partition = some q := by
      rw [partitionAt, report_cont]
      exact hq
    rw [partitionAt, hcont', hcont]
    exact partitionAt_countPart hq' _

/-- A DEFER due withdraws its microbatch's members; one before its E waits, and the places stay (08 R210). -/
theorem defer_kept (h : noticed n s = false) (hk : n.kind = 3) (hd : s.sched.deferDue = []) :
    (n.e ≤ s.cad.beat → ∀ m, passOf s n.partition n.microbatch = some m →
      ∀ y ∈ (registerNotice n s).sched.sealPrev ++ (registerNotice n s).sched.sealNow ++ (registerNotice n s).sched.sealNext, ∀ q ∈ y.places,
        (∃ r ∈ m.places, r.withdrawn = false ∧ r.handle = q.handle) → q.withdrawn = true)
      ∧ (s.cad.beat < n.e → (registerNotice n s).sched = { s.sched with notices := s.sched.notices ++ [n], deferDue := [n] }) := by
  have hsched : (deferCounted n s).sched = (noticeKept n s).sched := by simp [deferCounted]
  have hbeat : (deferCounted n s).cad = s.cad := by simp [deferCounted, noticeKept]
  have hdue : (deferCounted n s).sched.deferDue ++ [n] = [n] := by simp [hsched, noticeKept, hd]
  rw [registerNotice_defer h hk, deferLater, hdue]
  refine ⟨fun he m hm => ?_, fun he => ?_⟩
  · rw [settleDefers_due rfl (by rw [hbeat]; exact he)]
    refine runDefer_withdraws ?_
    simpa [passOf, hsched, noticeKept] using hm
  · rw [settleDefers_waits rfl (by rw [hbeat]; exact he), hsched]
    rfl

/-! ### A slip at its instant (08 R207, R222) -/

/-- The slip of a partition that applies: the first noticed of those whose instant has come. -/
def slipReady (part : Nat) (s : State) : Option Notice := s.sched.slipDue.find? (fun n => n.partition == part && decide (n.e ≤ s.cad.beat))

theorem execSlipApply_none {part : Nat} (h : slipReady part s = none) : exec (.slipApply part) s = .next s := by
  unfold slipReady at h
  change execSlipApply part s = _
  rw [execSlipApply, h]

/-- A partition whose later slots have moved by the DELTA of a notice. -/
def slipMoved (n : Notice) (q : Partition) : Partition :=
  { q with
    slip := q.slip + n.delta
    counters := { q.counters with slips := if n.kind = 1 then q.counters.slips + 1 else q.counters.slips, maxSlip := max q.counters.maxSlip (q.slip + n.delta) } }

/-- The slip has left the list of those due, and its partition has moved. -/
def slipTaken (n : Notice) (part : Nat) (q : Partition) (s : State) : State :=
  { s with
    sched := { s.sched with slipDue := s.sched.slipDue.erase n }
    cont := { s.cont with partitions := FMap.put s.cont.partitions part (slipMoved n q) } }

theorem partitionAt_slipTaken (n : Notice) (part : Nat) (q : Partition) (s : State) : partitionAt (slipTaken n part q s) part = some (slipMoved n q) :=
  FMap.get?_put_same _ _ _

/-- A slip of its own is reported as well; an ABORT's was at its notice. -/
theorem execSlipApply_some {part : Nat} {q : Partition} (h : slipReady part s = some n) (hq : partitionAt s part = some q) :
    exec (.slipApply part) s = .next (if n.kind = 1 then report 0x400 (noticeBytes n) (slipTaken n part q s) else slipTaken n part q s) := by
  unfold slipReady at h
  have hq' : partitionAt { s with sched := { s.sched with slipDue := s.sched.slipDue.erase n } } part = some q := hq
  change execSlipApply part s = _
  simp only [execSlipApply, h, hq']
  rfl

theorem execSlipApply_moves {part : Nat} {q : Partition} (h : slipReady part s = some n) (hq : partitionAt s part = some q) :
    ∃ t, exec (.slipApply part) s = .next t ∧ partitionAt t part = some (slipMoved n q) ∧ t.sched.slipDue = s.sched.slipDue.erase n
      ∧ t.slots = s.slots ∧ t.mem = s.mem := by
  rw [execSlipApply_some h hq]
  refine ⟨_, rfl, ?_⟩
  have hmoved := partitionAt_slipTaken n part q s
  split
  · rw [partitionAt, report_cont, report_sched, report_slots, report_mem]
    exact ⟨hmoved, rfl, rfl, rfl⟩
  · exact ⟨hmoved, rfl, rfl, rfl⟩

/-! ### A late frame (02 R57, 08 R211) -/

/-- A late frame is counted by its link, flagged and reported. -/
def lateNoted (link slotId late : Nat) (s : State) : State :=
  report 0x101 (unitField 3 link ++ leBytes 2 slotId ++ leBytes 2 late) <| setFlag (offLnkEvents link) 4 <| setFlag offCadEvents 7 <|
    putLink link { linkAt s link with late := satAdd 0xFFFFFFFF (linkAt s link).late 1 } s

/-- A transfer of the active image has an ALT route. -/
def hasAlt (transfer : Nat) (s : State) : Bool :=
  match s.sched.active with
  | some img => img.transfers.any (fun t => t.id == transfer && t.alt != 0xFFFF)
  | none => false

theorem execLateArrival_eq (link slotId transfer late : Nat) (s : State) : exec (.lateArrival link slotId transfer late) s
    = .next (if runOf s slotId ≠ 0 ∧ hasAlt transfer s ∧ (linkAt s link).st ≠ .up then lateNoted link slotId late s else killSlot slotId (lateNoted link slotId late s)) := rfl

theorem execLateArrival_kills {link slotId transfer : Nat} (late : Nat) (h : runOf s slotId = 0 ∨ (linkAt s link).st = .up ∨ hasAlt transfer s = false) :
    exec (.lateArrival link slotId transfer late) s = .next (killSlot slotId (lateNoted link slotId late s)) := by
  rw [execLateArrival_eq, if_neg]
  rintro ⟨hrun, halt, hup⟩
  rcases h with h | h | h
  · exact hrun h
  · exact hup h
  · rw [h] at halt
    cases halt

theorem execLateArrival_killed {link slotId transfer : Nat} (late : Nat) (hrun : runOf s slotId ≠ 0) (hup : (linkAt s link).st ≠ .up) (halt : hasAlt transfer s = true) :
    exec (.lateArrival link slotId transfer late) s = .next (lateNoted link slotId late s) := by
  rw [execLateArrival_eq, if_pos ⟨hrun, halt, hup⟩]

theorem hasAlt_iff {transfer : Nat} (ha : s.sched.active = some img) : hasAlt transfer s = true ↔ ∃ t ∈ img.transfers, t.id = transfer ∧ t.alt ≠ 0xFFFF := by
  simp [hasAlt, ha]

@[simp] theorem lateNoted_sched (link slotId late : Nat) (s : State) : (lateNoted link slotId late s).sched = s.sched := by simp [lateNoted]
@[simp] theorem lateNoted_cont (link slotId late : Nat) (s : State) : (lateNoted link slotId late s).cont = s.cont := by simp [lateNoted]
@[simp] theorem lateNoted_mem (link slotId late : Nat) (s : State) : (lateNoted link slotId late s).mem = s.mem := by simp [lateNoted]

/-- The count and both flags stand, and stay as far as a notice goes. -/
theorem lateNoted_stays {link slotId late : Nat} {t : State} (h : ByNotice (lateNoted link slotId late s) t) :
    (linkAt t link).late = satAdd 0xFFFFFFFF (linkAt s link).late 1 ∧ (getFlag t offCadEvents 7).on = true ∧ (getFlag t (offLnkEvents link) 4).on = true
      ∧ t.mem = s.mem := by
  have hlinks : t.links = (lateNoted link slotId late s).links := eq_of_aside offNotice State.links (fun _ => rfl) h.frame
  refine ⟨?_, h.flags _ _ ?_, h.flags _ _ ?_, h.mem.trans (lateNoted_mem _ _ _ _)⟩
  · rw [linkAt, hlinks]
    simp [lateNoted]
  · refine (((FlagsStay.refl _).setFlag _ _).report _ _) _ _ ?_
    rw [getFlag_setFlag_same]
  · refine ((FlagsStay.refl _).report _ _) _ _ ?_
    rw [getFlag_setFlag_same]

/-! ### An error in a microprogram store (07 R180) -/

/-- The error is counted, the store loaded again, the District's flag set and the error reported. -/
def mprogNoted (d b c slotId : Nat) (s : State) : State :=
  setFlag (offDstEvents d) 2 <| uncorrRecord 1 (unitId (blockKey d b) c) slotId <| loadStores d b [c] <|
    modBlock d b (fun k => { k with mprogErrors := FMap.put k.mprogErrors c (FMap.getD (blockAt s d b).mprogErrors c 0 + 1) }) s

theorem execMprogError_eq (d b c slotId : Nat) (s : State) : exec (.mprogError d b c slotId) s = .next (killSlot slotId
    (if 2 ≤ FMap.getD (blockAt s d b).mprogErrors c 0 + 1 then fenceCore d b c (mprogNoted d b c slotId s) else mprogNoted d b c slotId s)) := rfl

@[simp] theorem uncorrRecord_fab (kind number addr : Nat) (s : State) : (uncorrRecord kind number addr s).fab = s.fab := by simp [uncorrRecord]
@[simp] theorem uncorrRecord_sched (kind number addr : Nat) (s : State) : (uncorrRecord kind number addr s).sched = s.sched := by simp [uncorrRecord]
@[simp] theorem uncorrRecord_cont (kind number addr : Nat) (s : State) : (uncorrRecord kind number addr s).cont = s.cont := by simp [uncorrRecord]

theorem mprogNoted_sched (d b c slotId : Nat) (s : State) : (mprogNoted d b c slotId s).sched = s.sched := by
  rw [mprogNoted, setFlag_sched, uncorrRecord_sched]
  exact eq_of_aside offFab State.sched (fun _ => rfl) (offFab_loadStores _ _ _ _)

theorem mprogNoted_cont (d b c slotId : Nat) (s : State) : (mprogNoted d b c slotId s).cont = s.cont := by
  rw [mprogNoted, setFlag_cont, uncorrRecord_cont]
  exact eq_of_aside offFab State.cont (fun _ => rfl) (offFab_loadStores _ _ _ _)

theorem mprogNoted_errors (d b c slotId : Nat) (s : State) :
    FMap.getD (blockAt (mprogNoted d b c slotId s) d b).mprogErrors c 0 = FMap.getD (blockAt s d b).mprogErrors c 0 + 1 := by
  have h : errorNotes (mprogNoted d b c slotId s)
      = errorNotes (modBlock d b (fun k => { k with mprogErrors := FMap.put k.mprogErrors c (FMap.getD (blockAt s d b).mprogErrors c 0 + 1) }) s) := by
    rw [mprogNoted, errorNotes_setFlag, errorNotes_of_fab (uncorrRecord_fab _ _ _ _), errorNotes_loadStores]
  have hb := congrFun (congrFun (congrArg Prod.fst h) d) b
  simp only [errorNotes, blockAt_modBlock_same] at hb
  rw [hb, FMap.getD_put_same]

theorem execMprogError_notes (d b c slotId : Nat) (s : State) : ∃ t, exec (.mprogError d b c slotId) s = .next t
    ∧ FMap.getD (blockAt t d b).mprogErrors c 0 = FMap.getD (blockAt s d b).mprogErrors c 0 + 1 ∧ (getFlag t (offDstEvents d) 2).on = true ∧ t.mem = s.mem := by
  rw [execMprogError_eq]
  refine ⟨_, rfl, ?_⟩
  generalize hu : (if 2 ≤ FMap.getD (blockAt s d b).mprogErrors c 0 + 1 then fenceCore d b c (mprogNoted d b c slotId s) else mprogNoted d b c slotId s) = u
  have hsteady : Steady (mprogNoted d b c slotId s) (killSlot slotId u) :=
    (hu ▸ Steady.ite ((Steady.refl _).fenceCore d b c) (.refl _)).trans ((ByNotice.refl u).killSlot slotId).steady
  have hnotes : errorNotes (killSlot slotId u) = errorNotes (mprogNoted d b c slotId s) := by
    rw [errorNotes_killSlot, ← hu, apply_ite errorNotes, errorNotes_fenceCore, ite_self]
  have herrors : (blockAt (killSlot slotId u) d b).mprogErrors = (blockAt (mprogNoted d b c slotId s) d b).mprogErrors :=
    congrFun (congrFun (congrArg Prod.fst hnotes) d) b
  refine ⟨herrors ▸ mprogNoted_errors d b c slotId s, hsteady.flags _ _ ?_, hsteady.mem.trans (by simp [mprogNoted])⟩
  rw [mprogNoted, getFlag_setFlag_same]

/-! ### A weight chunk that fails (07 R185, 15 R402) -/

/-- How often a chunk has failed before. -/
def failedBefore (m chunk : Nat) (s : State) : Nat := (s.fab.reread.filter (fun e => e == (m, chunk))).length

/-- The failure is flagged and reported. -/
def weightReported (m chunk slotId : Nat) (s : State) : State :=
  report 0x305 (unitField 0 0 ++ leBytes 1 m ++ [0, 0, 0] ++ leBytes 4 chunk)
    ((match activeSlot s slotId with | some x => slotDistricts x | none => []).foldl (fun s d => setFlag (offDstEvents d) 0 s) s)

/-- The chunk is noted as read again, and from its second failure on its model as damaged. -/
def chunkNoted (m chunk : Nat) (s : State) : State :=
  { s with fab := { s.fab with
      reread := s.fab.reread ++ [(m, chunk)]
      damaged := if failedBefore m chunk s ≠ 0 ∧ !s.fab.damaged.contains m then s.fab.damaged ++ [m] else s.fab.damaged } }

/-- The failure is noted and the slot killed. -/
def chunkKilled (m chunk slotId : Nat) (s : State) : State := killSlot slotId (chunkNoted m chunk (weightReported m chunk slotId s))

/-- After a third failure the rings of the model are left. -/
theorem execWeightTagFail_eq (m chunk slotId : Nat) (s : State) : exec (.weightTagFail m chunk slotId) s
    = .next (if 2 ≤ failedBefore m chunk (weightReported m chunk slotId s) then
        departRings (ringsOfModel m (chunkKilled m chunk slotId s)) (chunkKilled m chunk slotId s) else chunkKilled m chunk slotId s) := by
  change Host.Outcome.next (if (_ ∧ false = true) ∨ _ then _ else _) = _
  simp only [Bool.false_eq_true, and_false, false_or]
  rfl

theorem weightReported_fab (m chunk slotId : Nat) (s : State) : (weightReported m chunk slotId s).fab = s.fab := by
  rw [weightReported, report_fab, foldl_keeps State.fab (fun _ _ => setFlag_fab _ _ _)]

theorem chunkNoted_sched (m chunk slotId : Nat) (s : State) : (chunkNoted m chunk (weightReported m chunk slotId s)).sched = s.sched := by
  rw [chunkNoted, weightReported, report_sched, foldl_keeps State.sched (fun _ _ => setFlag_sched _ _ _)]

theorem chunkNoted_cont (m chunk slotId : Nat) (s : State) : (chunkNoted m chunk (weightReported m chunk slotId s)).cont = s.cont := by
  rw [chunkNoted, weightReported, report_cont, foldl_keeps State.cont (fun _ _ => setFlag_cont _ _ _)]

theorem failedBefore_eq_zero {m chunk : Nat} : failedBefore m chunk s = 0 ↔ (m, chunk) ∉ s.fab.reread := by
  rw [failedBefore, List.length_eq_zero_iff, List.filter_eq_nil_iff]
  exact ⟨fun h hm => h _ hm BEq.rfl, fun h e he hb => h (eq_of_beq hb ▸ he)⟩

/-- A first failure damages no weights; a later one damages those of its model. -/
theorem chunkNoted_notes (m chunk : Nat) (s : State) :
    (m, chunk) ∈ (chunkNoted m chunk s).fab.reread ∧ ((m, chunk) ∈ s.fab.reread → m ∈ (chunkNoted m chunk s).fab.damaged)
      ∧ ((m, chunk) ∉ s.fab.reread → (chunkNoted m chunk s).fab.damaged = s.fab.damaged) := by
  refine ⟨List.mem_append_right _ (List.mem_singleton_self _), fun h => ?_, fun h => if_neg fun hc => hc.1 (failedBefore_eq_zero.2 h)⟩
  have hn : failedBefore m chunk s ≠ 0 := fun h0 => failedBefore_eq_zero.1 h0 h
  by_cases hm : m ∈ s.fab.damaged <;> simp [chunkNoted, hn, hm]

/-- What the row leaves of the notes is what noting the failure leaves; what it leaves of the runs is what the kill leaves. -/
theorem execWeightTagFail_notes (m chunk slotId : Nat) (s : State) : ∃ t, exec (.weightTagFail m chunk slotId) s = .next t
    ∧ errorNotes t = errorNotes (chunkNoted m chunk (weightReported m chunk slotId s))
    ∧ t.sched.runs = (chunkKilled m chunk slotId s).sched.runs ∧ t.mem = s.mem := by
  refine ⟨_, execWeightTagFail_eq m chunk slotId s, ?_, ?_, ?_⟩
  · rw [apply_ite errorNotes, errorNotes_departRings, ite_self, chunkKilled, errorNotes_killSlot]
  · rw [apply_ite State.sched, apply_ite Schedule.runs, departRings_runs, ite_self]
  · rw [apply_ite State.mem, departRings_mem, ite_self, chunkKilled, killSlot_mem, chunkNoted, weightReported, report_mem,
      foldl_keeps State.mem (fun _ _ => setFlag_mem _ _ _)]

/-- Settles O52: a notice by its kind and its instant, a fault by what it notes and then by the run it kills. -/
theorem noticesAndFaults : Obligations.NoticesAndFaults := by
  refine ⟨?once, ?kinds, ?slip, ?abort, ?defer, ?fallback, ?apply, ?late, execMprogError_notes, ?weight, ?kills, ?alt⟩
  case once =>
    intro n s h
    obtain ⟨hslip, habort, hdefer, hfallback⟩ := execNotice_eq n s
    rw [registerNotice_noticed h, ite_self] at hslip habort hdefer hfallback
    exact ⟨hslip, habort, hdefer, hfallback⟩
  case kinds =>
    intro n s
    obtain ⟨hslip, habort, hdefer, hfallback⟩ := execNotice_eq n s
    exact ⟨fun hk => by rw [hslip, if_neg hk], fun hk => by rw [habort, if_neg hk], fun hk => by rw [hdefer, if_neg hk], fun hk => by rw [hfallback, if_neg hk]⟩
  case slip =>
    intro n s h hk
    rw [(execNotice_eq n s).1, if_pos hk, registerNotice_slip h hk]
    rfl
  case abort =>
    intro n s h hk
    obtain ⟨hkept, hwaits, hdrops, hcounts⟩ := abort_kept h hk
    have hby := (ByNotice.refl s).registerNotice n
    exact ⟨registerNotice n s, (execNotice_eq n s).2.1.trans (by rw [if_pos hk]), hkept, hwaits, hdrops, hcounts, hby.slots, hby.mem⟩
  case defer =>
    intro n m s h hk hd
    obtain ⟨hdue, hwaits⟩ := defer_kept h hk hd
    have hby := (ByNotice.refl s).registerNotice n
    have he : exec (.deferNotice n) s = .next (registerNotice n s) := (execNotice_eq n s).2.2.1.trans (by rw [if_pos hk])
    refine ⟨fun hb hm => ⟨_, he, hdue hb m hm, hby.slots, hby.mem⟩, fun hb => ⟨_, he, ?_⟩⟩
    rw [hwaits hb]
    exact ⟨rfl, rfl, rfl, rfl, hby.slots, hby.mem⟩
  case fallback =>
    intro n s h hk
    have hby := (ByNotice.refl s).registerNotice n
    exact ⟨registerNotice n s, (execNotice_eq n s).2.2.2.trans (by rw [if_pos hk]), registerNotice_fallbacks h hk, hby.slots, hby.mem⟩
  case apply =>
    intro part s
    refine ⟨fun n q hn hq => ?_, execSlipApply_none⟩
    obtain ⟨t, he, hpart, hdue, hslots, hmem⟩ := execSlipApply_moves hn hq
    exact ⟨t, _, he, hpart, rfl, rfl, hdue, hslots, hmem⟩
  case late =>
    intro link slotId transfer late s
    exact ⟨_, execLateArrival_eq link slotId transfer late s, lateNoted_stays (.ite (.refl _) ((ByNotice.refl _).killSlot slotId))⟩
  case weight =>
    intro m chunk slotId s
    obtain ⟨t, he, hnotes, -, hmem⟩ := execWeightTagFail_notes m chunk slotId s
    have hreread : t.fab.reread = (chunkNoted m chunk (weightReported m chunk slotId s)).fab.reread := congrArg (fun e => e.2.1) hnotes
    have hdamaged : t.fab.damaged = (chunkNoted m chunk (weightReported m chunk slotId s)).fab.damaged := congrArg (fun e => e.2.2) hnotes
    have hkept := chunkNoted_notes m chunk (weightReported m chunk slotId s)
    rw [weightReported_fab] at hkept
    obtain ⟨hread, hagain, hfirst⟩ := hkept
    exact ⟨t, he, hreread ▸ hread, fun h => hdamaged ▸ hagain h, fun h => hdamaged.trans (hfirst h), hmem⟩
  case kills =>
    intro slotId img x s ha hx hflag hcom hdue hfits
    have hk : Killable img x slotId s := ⟨ha, hx, hflag, hcom, hdue, hfits⟩
    refine ⟨fun link transfer late hroute => ?_, fun d b c h0 => ?_, fun m chunk => ?_⟩
    · have halt : runOf s slotId = 0 ∨ (linkAt s link).st = .up ∨ hasAlt transfer s = false :=
        hroute.imp_right (Or.imp_right fun hall => Bool.eq_false_iff.2 fun h => by
          obtain ⟨t, ht, hid, hne⟩ := (hasAlt_iff ha).1 h
          exact hne (hall t ht hid))
      refine ⟨_, execLateArrival_kills late halt, ?_⟩
      rw [(hk.congr (lateNoted_sched link slotId late s) (lateNoted_cont link slotId late s)).kills, runOf, lateNoted_sched]
      rfl
    · refine ⟨_, (execMprogError_eq d b c slotId s).trans (by rw [h0, if_neg (by decide)]), ?_⟩
      rw [(hk.congr (mprogNoted_sched d b c slotId s) (mprogNoted_cont d b c slotId s)).kills, runOf, mprogNoted_sched]
      rfl
    · obtain ⟨t, he, -, hruns, -⟩ := execWeightTagFail_notes m chunk slotId s
      refine ⟨t, he, ?_⟩
      rw [runOf, hruns]
      refine (hk.congr (chunkNoted_sched m chunk slotId s) (chunkNoted_cont m chunk slotId s)).kills.trans ?_
      rw [runOf, chunkNoted_sched]
      rfl
  case alt =>
    intro link slotId transfer late img s ha hrun hup halt
    exact ⟨_, execLateArrival_killed late hrun hup ((hasAlt_iff ha).2 halt), lateNoted_sched link slotId late s⟩

end Sys2Proof.Machine
end

section
/-! PROOF of O22. PARTITION_DEFINE and VOCAB_LOAD (09 R223, R224, R226; 10 R253, R255): what holds the object refuses first, then its contents, then want of room (log entry 49). -/

namespace Sys2Proof.Machine

variable {p : Packet} {s t u : State}

/-! ### PARTITION_DEFINE (09 R223, R224, R226) -/

theorem execPartitionDefine_passes (ho : opcodeOf p = 0x12) (h : passes never p s = some t) :
    exec (.partitionDefine p) s = .next (dropRecognised p (partitionBody 0 p t)) := next_serve_passes ho h

theorem partitionBody_held (hi : argOf p 20 1 ≤ 15) (ha : argOf p 21 1 ≤ 1) (hh : partitionHeld t (argOf p 20 1) = true) :
    partitionBody 0 p t = reply p (busy 0xFFFF) t := by
  simp only [partitionBody, if_neg (Nat.not_lt.2 hi), if_neg (Nat.not_lt.2 ha), if_pos hh]

theorem partitionBody_removes (hi : argOf p 20 1 ≤ 15) (ha : argOf p 21 1 = 1) (hh : partitionHeld t (argOf p 20 1) = false) :
    partitionBody 0 p t = reply p ok { t with cont := { t.cont with partitions := FMap.del t.cont.partitions (argOf p 20 1) } } := by
  simp [partitionBody, Nat.not_lt.2 hi, ha, hh]

/-- A definition is refused for its first parameter out of range, then for want of places, and otherwise replaces what the partition was. -/
theorem partitionBody_defines (hi : argOf p 20 1 ≤ 15) (ha : argOf p 21 1 = 0) (hh : partitionHeld t (argOf p 20 1) = false) :
    (∀ d, partitionRefusal (definedBy p) t = some d → partitionBody 0 p t = reply p (bad d) t)
      ∧ (partitionRefusal (definedBy p) t = none → partitionBody 0 p t =
        if 4096 < placesBut t (argOf p 20 1) + (definedBy p).mb * (definedBy p).places then reply p (noResource 0x0009) t
        else reply p ok { t with cont := { t.cont with partitions := FMap.put t.cont.partitions (argOf p 20 1) (definedBy p) } }) := by
  refine ⟨fun d hd => ?_, fun hd => ?_⟩ <;> simp [partitionBody, Nat.not_lt.2 hi, ha, hh, hd]

/-! ### VOCAB_LOAD (10 R253, R255) -/

theorem execVocabLoad_passes {obj : Bytes} (ho : opcodeOf p = 0x14) (h : passes never p s = some t) :
    exec (.vocabLoad p obj) s = .next (dropRecognised p (vocabBody obj 0 p t)) := next_serve_passes ho h

theorem vocabBody_held {obj : Bytes} (hi : argOf p 20 1 ≤ 7) (hh : vocabHeld t (argOf p 20 1) = true) :
    vocabBody obj 0 p t = reply p (busy 0xFFFF) t := by
  simp only [vocabBody, if_neg (Nat.not_lt.2 hi), if_pos hh]

theorem vocabBody_takes {obj : Bytes} (hi : argOf p 20 1 ≤ 7) (hh : vocabHeld t (argOf p 20 1) = false) :
    (∀ a u, takePiece (0x1400 + argOf p 20 1) 0x20 p t = .kept a u → vocabBody obj 0 p t = reply p a u)
      ∧ ∀ u, takePiece (0x1400 + argOf p 20 1) 0x20 p t = .last u → vocabBody obj 0 p t = loadVocab (argOf p 20 1) (readVocab obj) p u := by
  refine ⟨fun a u hp => ?_, fun u hp => ?_⟩ <;> simp [vocabBody, Nat.not_lt.2 hi, hh, hp]

theorem loadVocab_fault {idx : Nat} {v : VocabImage} {a : Ans} (hf : vocabFault v = some a) : loadVocab idx v p u = reply p a u := by
  rw [loadVocab, hf]

theorem loadVocab_sound {idx : Nat} {v : VocabImage} (hf : vocabFault v = none) :
    loadVocab idx v p u = if unitStore < unitUsed u (some idx) + vocabBytes v.list then reply p (noResource 0x0006) u
      else reply p ok { u with cont := { u.cont with vocabs := FMap.put u.cont.vocabs idx ⟨v.list, v.facts.trailer⟩ } } := by
  rw [loadVocab, hf]

/-- Settles O22: a partition or a vocabulary in use is kept, and a free one is replaced where its contents and the room for them allow. -/
theorem partitionsAndVocabularies : Obligations.PartitionsAndVocabularies := by
  refine ⟨?define, ?remove, ?held, fun p => ⟨rfl, rfl, rfl, rfl, rfl, rfl⟩, ?load, ?inUse⟩
  case define =>
    intro p s t ho h hi ha hh
    obtain ⟨refuses, defines⟩ := partitionBody_defines hi ha hh
    rw [execPartitionDefine_passes ho h]
    refine ⟨fun hd hroom => ?_, fun hd hfull => ?_, fun d hd => ?_⟩
    · rw [defines hd, if_neg (Nat.not_lt.2 hroom), answered]
    · rw [defines hd, if_pos hfull, answered]
    · rw [refuses d hd, answered]
  case remove =>
    intro p s t ho h hi ha hh
    rw [execPartitionDefine_passes ho h, partitionBody_removes hi ha hh, answered]
  case held =>
    intro p s t ho h hi ha hh
    rw [execPartitionDefine_passes ho h, partitionBody_held hi ha hh, answered]
  case load =>
    intro p obj s t ho h hi hh
    obtain ⟨kept, last⟩ := vocabBody_takes (obj := obj) hi hh
    rw [execVocabLoad_passes ho h]
    refine ⟨fun a u hp => by rw [kept a u hp, answered], fun u hp => ?_⟩
    rw [last u hp]
    refine ⟨fun a hf => ?_, fun hf hfull => ?_, fun hf hroom => ?_⟩
    · rw [loadVocab_fault hf, answered]
    · rw [loadVocab_sound hf, if_pos hfull, answered]
    · rw [loadVocab_sound hf, if_neg (Nat.not_lt.2 hroom), answered]
  case inUse =>
    intro p obj s t ho h hi hh
    rw [execVocabLoad_passes ho h, vocabBody_held hi hh, answered]

end Sys2Proof.Machine
end

section
/-! PROOF of O19. CLI_RUN_PREEMPT, PREEMPTION_COMPLETE, CLI_RUN_RESUME and QUEUE_STATE_WRITE (09 R241 to R244): a client is marked, its commands end or run to their end, and once none is in flight its RUN is 0. -/

namespace Sys2Proof.Machine

variable {n : Nat} {s : State}

/-! ### A client is marked -/

@[simp] theorem clientOf_setFlag (off bit : Nat) (s : State) (m : Nat) : clientOf (setFlag off bit s) m = clientOf s m := by
  rw [clientOf, setFlag_clients, clientOf]

/-- A client being pre-empted with its PREEMPTED flag set, before any of its commands has ended. -/
def preemptMarked (n : Nat) (s : State) : State := setFlag (offCliEvents n) 3 (modClient n (fun c => { c with preempting := true }) s)

@[simp] theorem preemptMarked_client (n : Nat) (s : State) : clientOf (preemptMarked n s) n = { clientOf s n with preempting := true } := by
  simp [preemptMarked]

theorem preemptMarked_flag (n : Nat) (s : State) : (getFlag (preemptMarked n s) (offCliEvents n) 3).on = true := by
  rw [preemptMarked, getFlag_setFlag_same]

/-- What the marking of one client and the end of its pre-emption leave alone. -/
structure OnlyClient (n : Nat) (s t : State) : Prop where
  others : ∀ m, m ≠ n → clientOf t m = clientOf s m
  slots : t.slots = s.slots
  mem : t.mem = s.mem
  replies : t.out.replies = s.out.replies

theorem OnlyClient.trans {t u : State} (h : OnlyClient n s t) (k : OnlyClient n t u) : OnlyClient n s u :=
  ⟨fun m hm => (k.others m hm).trans (h.others m hm), k.slots.trans h.slots, k.mem.trans h.mem, k.replies.trans h.replies⟩

theorem onlyClient_preemptMarked (n : Nat) (s : State) : OnlyClient n s (preemptMarked n s) :=
  have hby := (ByCadence.refl (modClient n (fun c => { c with preempting := true }) s)).setFlag (offCliEvents n) 3
  ⟨fun m hm => by rw [preemptMarked, clientOf_setFlag, clientOf_modClient_other _ _ hm], hby.slots, hby.mem, hby.replies⟩

/-! ### A pre-emption begins -/

@[simp] theorem preemptMarked_commands (n : Nat) (s : State) : (preemptMarked n s).commands = s.commands := setFlag_commands _ _ _

/-- The state once the commands of a marked client have ended as 09 R242 says, its packets that wait still to be answered. -/
def commandsPreempted (n : Nat) (s : State) : State :=
  ((preemptMarked n s).commands.filter (fun c => c.origin.client == n && c.origin.sender.isNone)).foldl (fun s c => preemptCommand c s) (preemptMarked n s)

theorem beginPreempt_eq (n : Nat) (s : State) :
    beginPreempt n s = ((clientOf (commandsPreempted n s) n).recognised.filter (fun r => preemptible (opcodeOf r.packet))).foldl
      (fun s r => dropRecognised r.packet (reply r.packet { status := stPREEMPTED } s)) (commandsPreempted n s) := rfl

theorem commandsPreempted_none (hc : ∀ c ∈ s.commands, c.origin.client ≠ n) : commandsPreempted n s = preemptMarked n s := by
  have hmine : s.commands.filter (fun c => c.origin.client == n && c.origin.sender.isNone) = [] :=
    List.filter_eq_nil_iff.2 fun c hmem => by simp [hc c hmem]
  rw [commandsPreempted, preemptMarked_commands, hmine, List.foldl_nil]

/-- Without commands that wait for a reply and without packets that wait, marking the client is all. -/
theorem beginPreempt_quiet (hr : (clientOf s n).recognised = []) (hc : ∀ c ∈ s.commands, c.origin.client ≠ n) :
    beginPreempt n s = preemptMarked n s := by
  rw [beginPreempt_eq, commandsPreempted_none hc, preemptMarked_client, hr, List.filter_nil, List.foldl_nil]

/-- No command waits for the park of a session, and none is pending. -/
def NoPark (slot : Nat) (s : State) : Prop := commandOf s (.park slot) = none ∧ (sessionAt s slot).d.parkPending = false

namespace NoPark

variable {slot : Nat}

theorem answered (h : NoPark slot s) (p : Packet) (a : Ans) : NoPark slot (Machine.answered p a s) := by
  obtain ⟨hc, hp⟩ := h
  obtain ⟨b, hb⟩ := reply_session p a s slot
  rw [Machine.answered]
  exact ⟨by rwa [dropRecognised_commandOf, commandOf, reply_commands], by rwa [dropRecognised_sessionAt, hb, Session.owing_d]⟩

theorem finish (hp : (sessionAt s slot).d.parkPending = false) (a : Ans) : NoPark slot (Machine.finish (.park slot) a s) := by
  obtain ⟨b, hb⟩ := finish_session (.park slot) a s slot
  exact ⟨commandOf_finish _ _ _, by rwa [hb, Session.owing_d]⟩

/-- The end of other work brings no park back. -/
theorem finishOther (h : NoPark slot s) (w : Work) (a : Ans) : NoPark slot (Machine.finish w a s) := by
  obtain ⟨hc, hp⟩ := h
  obtain ⟨b, hb⟩ := finish_session w a s slot
  refine ⟨commandOf_eq_none fun c hmem => ?_, by rwa [hb, Session.owing_d]⟩
  rw [finish_commands] at hmem
  simpa using List.find?_eq_none.1 hc c (List.mem_filter.1 hmem).1

theorem freeSlot (h : NoPark slot s) : NoPark slot (Machine.freeSlot slot s) := by
  obtain ⟨hc, -⟩ := h
  exact ⟨by rwa [commandOf, freeSlot_commands], by rw [freeSlot_session]⟩

end NoPark

/-- Once a session's Mover commands have ended, its park has. -/
theorem endMoverWork_noPark (slot : Nat) (a : Ans) (s : State) : NoPark slot (endMoverWork slot a s) := by
  unfold endMoverWork
  extract_lets x s1 s2 s3 s4 s5 s6
  have h2 : (sessionAt s2 slot).d.parkPending = false := by rw [sessionAt_modSession_same]
  have h5 : NoPark slot s5 := ((NoPark.finish h2 a).finishOther _ a).finishOther _ a
  unfold s6
  split
  · exact (h5.finishOther _ a).freeSlot
  · exact h5.finishOther _ a

theorem commandsPreempted_park {slot : Nat} {o : Origin} (hc : s.commands = [⟨.park slot, o⟩]) (ho : o.client = n) (hs : o.sender = none) :
    commandsPreempted n s = endMoverWork slot { status := stPREEMPTED } (preemptMarked n s) := by
  rw [commandsPreempted, preemptMarked_commands, hc, List.filter_cons_of_pos (by simp [ho, hs]), List.filter_nil, List.foldl_cons, List.foldl_nil, preemptCommand]

/-- The park of a pre-empted client is its one command: it ends, and the packets answered after it bring none back. -/
theorem beginPreempt_noPark {slot : Nat} {o : Origin} (hc : s.commands = [⟨.park slot, o⟩]) (ho : o.client = n) (hs : o.sender = none) :
    NoPark slot (beginPreempt n s) := by
  rw [beginPreempt_eq, commandsPreempted_park hc ho hs]
  exact foldl_induct (NoPark slot) (fun _ r h => h.answered r.packet _) _ (endMoverWork_noPark slot _ _)

/-! ### A pre-emption ends -/

/-- A client that pre-emption has stopped, its queue pointers standing (09 R242, R243). -/
def Client.stopped (c : Client) : Client := { c with run := false, preempting := false, blockedBy := none }

theorem preemptDone_iff : preemptDone n s = true ↔ (clientOf s n).preempting = true ∧ (clientOf s n).inflight = 0 := by
  simp [preemptDone]

theorem endPreempt_done (hp : (clientOf s n).preempting = true) (hi : (clientOf s n).inflight = 0) :
    endPreempt n s = modClient n Client.stopped s := if_pos (preemptDone_iff.2 ⟨hp, hi⟩)

theorem endPreempt_waits (h : preemptDone n s = false) : endPreempt n s = s := by
  rw [endPreempt, h, if_neg Bool.false_ne_true]

theorem onlyClient_modClient (f : Client → Client) : OnlyClient n s (modClient n f s) :=
  ⟨fun _ hm => clientOf_modClient_other f s hm, rfl, rfl, rfl⟩

theorem NoPark.endPreempt {slot : Nat} (h : NoPark slot s) (n : Nat) : NoPark slot (endPreempt n s) := by
  cases hd : preemptDone n s with
  | false => rwa [endPreempt_waits hd]
  | true =>
    obtain ⟨hp, hi⟩ := preemptDone_iff.1 hd
    rw [endPreempt_done hp hi]
    exact h

/-- Where no SET_PARAM waits for it, the completion of a pre-emption is its end. -/
theorem completePreemption_alone (hr : ∀ r ∈ s.host.rests, r.target ≠ n) : completePreemption n s = endPreempt n s := by
  have hnone : s.host.rests.filter (fun r => r.target == n) = [] := List.filter_eq_nil_iff.2 fun r hmem => by simp [hr r hmem]
  have hall : s.host.rests.filter (fun r => r.target != n) = s.host.rests := List.filter_eq_self.2 fun r hmem => by simp [hr r hmem]
  cases hd : preemptDone n s with
  | false => rw [completePreemption, hd, endPreempt_waits hd, if_neg Bool.false_ne_true]
  | true =>
    obtain ⟨hp, hi⟩ := preemptDone_iff.1 hd
    rw [completePreemption, if_pos hd, endPreempt_done hp hi]
    simp only [modClient_host, hnone, hall, List.foldl_nil]
    rfl

theorem completePreemption_waits (h : (clientOf s n).preempting = false ∨ (clientOf s n).inflight ≠ 0) : completePreemption n s = s := by
  have hd : preemptDone n s = false := by rcases h with hp | hi <;> simp [preemptDone, *]
  rw [completePreemption, hd, if_neg Bool.false_ne_true]

/-! ### The rows -/

/-- RUN set to 0 where it is 1: the pre-emption begins, and ends at once if nothing is in flight. -/
theorem execCliRunPreempt_running (hn : n ≠ 0) (hr : (clientOf s n).run = true) :
    exec (.cliRunPreempt n) s = .next (endPreempt n (beginPreempt n s)) := by
  change execCliRunPreempt n s = _
  cases hd : preemptDone n (beginPreempt n s) with
  | false => simp [execCliRunPreempt, setRun, boolNat, hn, hr, hd, endPreempt_waits hd]
  | true => simp [execCliRunPreempt, setRun, boolNat, hn, hr, hd]

theorem execCliRunPreempt_stopped (hr : (clientOf s n).run = false) : exec (.cliRunPreempt n) s = .next s := by
  change execCliRunPreempt n s = _
  by_cases hn : n = 0
  · simp [execCliRunPreempt, setRun, hn]
  · cases hp : (clientOf s n).preempting <;> simp [execCliRunPreempt, setRun, boolNat, hn, hr, hp]

theorem execCliRunResume_running (hr : (clientOf s n).run = true) : exec (.cliRunResume n) s = .next s := by
  change execCliRunResume n s = _
  by_cases hn : n = 0
  · simp [execCliRunResume, setRun, hn]
  · simp [execCliRunResume, setRun, boolNat, hn, hr]

theorem setRun_client0 (v : Nat) (s : State) : setRun 0 v s = .refused (bad 0) := if_pos (Or.inl rfl)

theorem execQueueStateWrite_writes {scan seq replyAt replyCount : Nat} (hr : (clientOf s n).run = false) (ha : scan % 16 = 0) (hw : scan < 65536)
    (hb : replyAt % 16 = 0) (hq : replyAt < ringBytes (clientOf s n)) :
    exec (.queueStateWrite n scan seq replyAt replyCount) s
      = .next (putClient n { clientOf s n with scan := scan, seq := seq, replyAt := replyAt, replyCount := replyCount } s) := by
  change execQueueStateWrite n scan seq replyAt replyCount s = _
  simp [execQueueStateWrite, setQueue, hr, ha, hb, Nat.not_le.2 hw, Nat.not_le.2 hq]

theorem execQueueStateWrite_refused {scan seq replyAt replyCount : Nat}
    (h : (clientOf s n).run = true ∨ scan % 16 ≠ 0 ∨ 65536 ≤ scan ∨ replyAt % 16 ≠ 0 ∨ ringBytes (clientOf s n) ≤ replyAt) :
    exec (.queueStateWrite n scan seq replyAt replyCount) s = .next s := by
  change execQueueStateWrite n scan seq replyAt replyCount s = _
  rw [execQueueStateWrite, setQueue, if_pos h]

/-- Settles O19: the marking of the client, then the end of its commands, then, once none is in flight, the end of its RUN. -/
theorem preemptionStopsClient : Obligations.PreemptionStopsClient := by
  refine ⟨?idle, ?busy, ?park, ?completes, fun n s h => congrArg Host.Outcome.next (completePreemption_waits h),
    fun n s => ⟨execCliRunResume_running, execCliRunPreempt_stopped⟩, ?client0, fun n scan seq replyAt replyCount s => execQueueStateWrite_writes,
    fun n scan seq replyAt replyCount s => execQueueStateWrite_refused⟩
  case idle =>
    intro n s hn hr hi hq hc
    have hframe := (onlyClient_preemptMarked n s).trans (onlyClient_modClient Client.stopped)
    have he : exec (.cliRunPreempt n) s = .next (modClient n Client.stopped (preemptMarked n s)) := by
      rw [execCliRunPreempt_running hn hr, beginPreempt_quiet hq hc, endPreempt_done (by simp) (by simpa using hi)]
    refine ⟨_, he, ?_, ?_, preemptMarked_flag n s, ?_, ?_, ?_, ?_, hframe.others, hframe.slots, hframe.mem, hframe.replies⟩ <;> simp [Client.stopped]
  case busy =>
    intro n s hn hr hi hq hc
    have hframe := onlyClient_preemptMarked n s
    have hd : preemptDone n (preemptMarked n s) = false := by simp [preemptDone, hi]
    exact ⟨_, by rw [execCliRunPreempt_running hn hr, beginPreempt_quiet hq hc, endPreempt_waits hd], preemptMarked_client n s, preemptMarked_flag n s,
      hframe.others, hframe.slots, hframe.mem, hframe.replies⟩
  case park =>
    intro n slot o s hn hr _ hc ho hs
    exact ⟨_, execCliRunPreempt_running hn hr, (beginPreempt_noPark hc ho hs).endPreempt n⟩
  case completes =>
    intro n s hp hi hr
    have he : exec (.preemptionComplete n) s = .next (modClient n Client.stopped s) :=
      congrArg Host.Outcome.next ((completePreemption_alone hr).trans (endPreempt_done hp hi))
    refine ⟨_, he, ?_, ?_, fun m => clientOf_modClient_other _ _, rfl, rfl, rfl⟩ <;> simp [Client.stopped]
  case client0 =>
    intro s
    change execCliRunPreempt 0 s = _ ∧ execCliRunResume 0 s = _
    rw [execCliRunPreempt, execCliRunResume, setRun_client0, setRun_client0]
    exact ⟨rfl, rfl⟩

end Sys2Proof.Machine
end

section
/-! PROOF of O1 and O2. A step with a command waiting is that command; a step without one is one beat (02 R45, R54; 11 R296; log entries 2, 18). -/

namespace Sys2Proof.Machine

/-- Settles O1: `step` reads the queue's front and hands on its rest. -/
theorem stepRunsFrontCommand : Obligations.StepRunsFrontCommand := fun _ _ _ => rfl

/-! ### The cadence block over one beat -/

/-- Whether a beat ends a span of 8 shows in its number alone. -/
theorem eighths_of_next_beat (b : Nat) : (b + 1) / 8 - b / 8 = if (b + 1) % 8 = 0 then 1 else 0 := by
  split <;> omega

theorem slewed_none (left : Int) : slewed 0 left = left := by
  unfold slewed
  split <;> omega

theorem slewed_one (left : Int) : slewed 1 left = if left = 0 then left else if left < 0 then left + 1 else left - 1 := by
  unfold slewed
  (repeat' split) <;> omega

/-- The offset left by HOLDOVER comes one unit nearer 0 with every eighth beat (02 R45). -/
theorem slewed_next_beat (b : Nat) (left : Int) :
    slewed ((b + 1) / 8 - b / 8) left = if (b + 1) % 8 ≠ 0 ∨ left = 0 then left else if left < 0 then left + 1 else left - 1 := by
  rw [eighths_of_next_beat]
  by_cases h8 : (b + 1) % 8 = 0
  · rw [if_pos h8, slewed_one]
    by_cases hl : left = 0
    · simp [hl]
    · simp [h8, hl]
  · rw [if_neg h8, slewed_none, if_pos (Or.inl h8)]

/-- Taking a discipline source up changes nothing that the choice of one reads. -/
@[simp] theorem disciplineSource_takeSource (s : State) : disciplineSource (takeSource s) = disciplineSource s := by
  unfold takeSource
  split <;> rfl

/-- PEER_DISC and DISC_LINK show in HOLDOVER the source that stands then (02 R47; log entry 18). -/
theorem takeSource_discipline (s : State) :
    (takeSource s).cad = { s.cad with
      peerDisc := if s.cad.st = .holdover then (disciplineSource (takeSource s)).isSome else s.cad.peerDisc
      discLink := if s.cad.st = .holdover then ((disciplineSource (takeSource s)).map (fun m => m.link)).getD s.cad.discLink else s.cad.discLink } := by
  rw [disciplineSource_takeSource]
  unfold takeSource
  split
  · cases disciplineSource s <;> rfl
  · rfl

theorem cadBeats_one (c : Cadence) :
    cadBeats 1 c = { c with
      beat := (c.beat + 1) % 2 ^ 63
      phase := 0
      holdBeats := if c.st = .holdover then c.holdBeats + 1 else c.holdBeats
      slew := if (c.beat + 1) % 8 ≠ 0 ∨ c.slew = 0 then c.slew else if c.slew < 0 then c.slew + 1 else c.slew - 1
      markOut := if c.st = .master then some ((c.beat + 1) % 2 ^ 63) else c.markOut } := by
  simp only [cadBeats, slewed_next_beat, ne_eq, one_ne_zero, not_false_eq_true, and_true, if_false]

theorem tick_cad (s : State) :
    (tick s).cad = { cadBeats 1 s.cad with
      peerDisc := if s.cad.st = .holdover then (disciplineSource (tick s)).isSome else s.cad.peerDisc
      discLink := if s.cad.st = .holdover then ((disciplineSource (tick s)).map (fun m => m.link)).getD s.cad.discLink else s.cad.discLink } :=
  takeSource_discipline _

/-! ### The meters of a client over one beat (11 R296, R305) -/

@[simp] theorem refill_zero_refill (n : Nat) (m : Meter) : refill 0 (refill n m) = refill n m := by
  simp [refill]

theorem applyMeters_none {c : Client} (h : c.pendingMeters = []) : applyMeters c = c := by
  cases c
  subst h
  simp [applyMeters]

@[simp] theorem clientBeats_one_pendingMeters (c : Client) : (clientBeats 1 c).pendingMeters = [] := rfl

theorem clientBeats_one {c : Client} (h : c.pendingMeters = []) : clientBeats 1 c = { c with cmd := refill 1 c.cmd, byt := refill 1 c.byt } := by
  have hd : applyMeters { c with cmd := refill 1 c.cmd, byt := refill 1 c.byt } = { c with cmd := refill 1 c.cmd, byt := refill 1 c.byt } :=
    applyMeters_none h
  simp [clientBeats, hd]

/-! ### The beat -/

theorem passBeats_clients (n : Nat) (s : State) : (passBeats n s).clients = FMap.mapVals (fun _ c => clientBeats n c) s.clients := by
  unfold passBeats takeSource
  split <;> rfl

theorem passBeats_cal (n : Nat) (s : State) : (passBeats n s).cal = slewPhase n s := by
  unfold passBeats takeSource
  split <;> rfl

/-- Settles O2: the cadence block by the source that it takes up, a client by the meter settings that wait for it. -/
theorem emptyQueueIsOneBeat : Obligations.EmptyQueueIsOneBeat := by
  intro s hs
  have hstep : step s = .next (tick s) := by rw [step, hs]
  have hclients : (tick s).clients = FMap.mapVals (fun _ c => clientBeats 1 c) s.clients := passBeats_clients 1 s
  refine ⟨tick s, hstep, (tick_cad s).trans (by rw [cadBeats_one]), passBeats_cal 1 s, fun n hn => ?untouched, fun n c hc => ?touched, passBeats_changes 1 s⟩
  case untouched =>
    rw [hclients, FMap.get?_mapVals, hn, Option.map_none]
  case touched =>
    refine ⟨clientBeats 1 c, ?_, clientBeats_one_pendingMeters c, clientBeats_one⟩
    rw [hclients, FMap.get?_mapVals, hc, Option.map_some]

end Sys2Proof.Machine
end

section
/-! PROOF of O7 and O8. Which clients run after a reset, what is scanned (11 R280), and what a write of a reply ring or of its ACK does (11 R286, R288, R289). -/

namespace Sys2Proof.Machine

/-! ### Clients that run -/

theorem scanning_eq_false {n : Nat} {s : State} (h : (clientOf s n).run = false ∨ ringOk (clientOf s n) = false) : scanning s n = false := by
  rcases h with h | h <;> simp [scanning, h]

theorem recognise_unscanned {p : Packet} {s : State} (h : scanning s p.client = false) : recognise p s = s := by
  simp [recognise, h]

/-- A state that holds no client context has client 0 running and no other (11 R280). -/
theorem clientOf_run_of_nil {s : State} (h : s.clients = []) (n : Nat) : (clientOf s n).run = (n == 0) := by
  rw [clientOf, h]
  rfl

@[simp] theorem checkSeal_clients (closed : Bool) (s : State) : (checkSeal closed s).clients = s.clients := by
  unfold checkSeal
  dsimp only
  split <;> simp

@[simp] theorem romSelect_clients (a b f : Bool) (s : State) : (romSelect a b f s).clients = s.clients := by
  unfold romSelect
  dsimp only
  (repeat' split) <;> simp

theorem bootState_clients (kind : Nat) (s : State) : (bootState kind s).clients = [] := rfl

/-- A device reset that is heeded, of whichever kind (18 R467; 20 R500), leaves no client context. -/
theorem execDeviceReset_clients {a b f : Bool} {s : State} (hp : s.svc.phase ≠ 0) (ht : s.sup.tripped = false) (hr : s.sup.railsOff = false)
    (hs : s.sup.st ≠ .stopping) : ∃ t, exec (.deviceReset a b f) s = .next t ∧ t.clients = [] := by
  refine ⟨_, rfl, ?_⟩
  rw [if_neg (by simp [hp, ht, hr, hs])]
  split
  · rw [romSelect_clients, checkSeal_clients, bootState_clients]
  · rw [deviceResetTo, romSelect_clients, checkSeal_clients, bootState_clients]

theorem execCliRunResume_runs {n : Nat} {s : State} (hn : n ≠ 0) (h : (clientOf s n).run = false) :
    exec (.cliRunResume n) s = .next (modClient n (fun c => { c with run := true }) s) := by
  change execCliRunResume n s = _
  simp [execCliRunResume, setRun, hn, h, boolNat]

/-- Settles O7: a reset leaves no client context, and recognition and CLI.n.RUN read RUN first. -/
theorem onlyRunningClientsScanned : Obligations.OnlyRunningClientsScanned := by
  refine ⟨clientOf_run_of_nil rfl 0, fun n hn => ?_, fun p s h => congrArg Host.Outcome.next (recognise_unscanned (scanning_eq_false h)), ?reset, ?resume⟩
  · rw [clientOf_run_of_nil rfl, beq_eq_false_iff_ne]
    exact hn
  case reset =>
    intro s hp ht hr hs
    obtain ⟨t, he, hc⟩ := execDeviceReset_clients (a := true) (b := true) (f := true) hp ht hr hs
    exact ⟨t, he, clientOf_run_of_nil hc⟩
  case resume =>
    intro n s hn h
    exact ⟨_, execCliRunResume_runs hn h, clientOf_modClient_same _ _ _, fun m => clientOf_modClient_other _ _, rfl⟩

/-! ### The reply ring (11 R286, R289) -/

/-- A client whose ring has just been written: its fields of the write, then every pointer of ring and window at its start. -/
def Client.ringSet (cfg : Bool) (v : Word64) (c : Client) : Client :=
  { (if cfg then { c with size := min 8 (v.toNat % 16), pasid := bitsOf v.toNat 12 20 } else { c with base := v.toNat }) with
    scan := 0, seq := 1, replyAt := 0, replyCount := 0, ack := 0, previous := .none, held := false }

theorem execReplyRingWrite_sets {n : Nat} {cfg : Bool} {v : Word64} {s : State} (hn : n < 256) (hi : (clientOf s n).inflight = 0)
    (hr : n = 0 ∨ (clientOf s n).run = false) :
    exec (.replyRingWrite n cfg v) s = .next { putClient n (Client.ringSet cfg v (clientOf s n)) s with
      host := { s.host with ringEverSet := s.host.ringEverSet || (Client.ringSet cfg v (clientOf s n)).base != 0 } } := by
  have hfree : ¬ ((clientOf s n).inflight ≠ 0 ∨ (n ≠ 0 ∧ (clientOf s n).run = true)) := by
    rintro (h | ⟨h0, h1⟩)
    · exact h hi
    · rcases hr with hr | hr
      · exact h0 hr
      · simp [hr] at h1
  change execReplyRingWrite n cfg v s = _
  rw [execReplyRingWrite, if_neg (by omega), if_neg hfree]
  rfl

theorem execReplyRingWrite_refused {n : Nat} {cfg : Bool} {v : Word64} {s : State} (hn : n < 256)
    (h : (clientOf s n).inflight ≠ 0 ∨ (n ≠ 0 ∧ (clientOf s n).run = true)) : exec (.replyRingWrite n cfg v) s = .next (refuseWrite s) := by
  change execReplyRingWrite n cfg v s = _
  rw [execReplyRingWrite, if_neg (by omega), if_pos h]

/-- Settles O8: the written ring as `Client.ringSet` gives it, a refusal by its guard, and ACK by the client that it names. -/
theorem replyRingWriteResetsPointers : Obligations.ReplyRingWriteResetsPointers := by
  refine ⟨?sets, fun n cfg v s => execReplyRingWrite_refused, ?ack⟩
  case sets =>
    intro n cfg v s hn hi hr
    refine ⟨_, execReplyRingWrite_sets hn hi hr, ?_⟩
    have hc : ∀ h : HostPort, clientOf { putClient n (Client.ringSet cfg v (clientOf s n)) s with host := h } n = Client.ringSet cfg v (clientOf s n) :=
      fun _ => clientOf_putClient_same n _ s
    rw [hc]
    refine ⟨rfl, rfl, rfl, rfl, rfl, ?_, ?_, ?_, fun m hm => clientOf_putClient_other _ s hm, rfl⟩
    · rintro rfl
      rfl
    · rintro rfl
      exact ⟨rfl, rfl⟩
    · cases cfg <;> rfl
  case ack =>
    intro n v s hn
    refine ⟨_, rfl, ?_⟩
    rw [if_neg (by omega)]
    refine ⟨by simp, fun m hm => ?_, rfl⟩
    rw [clientOf_modClient_other _ _ hm, clientOf_modClient_other _ _ hm]

end Sys2Proof.Machine
end

section
/-! PROOF of O9. Recognition (11 R282, R283, R285): what a packet whose trailer matches leaves of its client and of the device, and what a PAD leaves. -/

namespace Sys2Proof.Machine

variable {p : Packet} {s : State}

/-- The client whose window's next packet has landed whole: SCAN past it, SEQ after it, and one more in its tally of the beat. -/
def passedPacket (p : Packet) (s : State) (c : Client) : Client :=
  { c with
    held := false
    scan := advanceScan c.scan (16 * lengthOf p)
    seq := advanceSeq c.seq
    tally := (s.cad.beat, tallied s c.tally + 1) }

/-- The client with the packet waiting besides: it is in flight, CHAIN looks back at it, and unless it is ASYNC it stops the scan. -/
def waitingPacket (p : Packet) (s : State) (c : Client) : Client :=
  { passedPacket p s c with
    inflight := c.inflight + 1
    previous := .waiting c.seq
    blockedBy := if isAsync p then none else some c.seq
    recognised := c.recognised ++ [⟨p, c.previous, c.scan, c.seq, s.cad.beat, s.cad.phase⟩] }

/-- One more packet in the device's tally of the beat (11 R285). -/
def tallyPacket (s : State) : State := { s with host := { s.host with tally := (s.cad.beat, tallied s s.host.tally + 1) } }

/-- What recognition asks of a packet that is not refused: a client that is scanned and not blocked, a whole packet under a matching trailer, two free reply slots, and room in the beat. -/
structure Recognisable (p : Packet) (s : State) : Prop where
  scans : scanning s p.client = true
  unblocked : (clientOf s p.client).blockedBy = none
  fits : lengthFits (clientOf s p.client) p = true
  trailer : p.trailerSeq = (clientOf s p.client).seq
  whole : p.trailerLen = lengthOf p
  slots : 2 ≤ freeReplySlots s p.client
  room : beatHasRoom s (clientOf s p.client) = true

theorem Recognisable.bytes (h : Recognisable p s) : recognisedBytes (clientOf s p.client) p = some (16 * lengthOf p) := by
  rw [recognisedBytes, if_pos h.fits, if_pos h.trailer]

/-- LENGTH is held against SCAN alone. -/
theorem Recognisable.fits_of_scan (h : Recognisable p s) {c : Client} (hc : c.scan = (clientOf s p.client).scan) : lengthFits c p = true := by
  rw [← h.fits, lengthFits, lengthFits, hc]

/-- A PAD only moves SCAN and SEQ. -/
theorem Recognisable.pad (h : Recognisable p s) (ho : opcodeOf p = 0) :
    recognise p s = putClient p.client (passedPacket p s (clientOf s p.client)) (tallyPacket s) := by
  unfold recognise
  simp [h.scans, h.unblocked, h.bytes, Nat.not_lt.2 h.slots, h.room, h.fits_of_scan, h.whole, ho, passedPacket, tallyPacket]

/-- A packet of a known opcode is counted and waits to be served. -/
theorem Recognisable.command (h : Recognisable p s) (ho : opcodeOf p ≠ 0) (hk : knownOpcode (opcodeOf p) = true) :
    recognise p s = putClient p.client (waitingPacket p s (clientOf s p.client))
      { tallyPacket s with counters := { s.counters with recognised := satAdd (2 ^ 64 - 1) s.counters.recognised 1 } } := by
  unfold recognise
  simp [h.scans, h.unblocked, h.bytes, Nat.not_lt.2 h.slots, h.room, h.fits_of_scan, h.whole, ho, hk, waitingPacket, passedPacket, tallyPacket]

theorem clientOf_tallyPacket (s : State) (n : Nat) : clientOf (tallyPacket s) n = clientOf s n := rfl

/-- Settles O9: the packet meets `Recognisable`, and its opcode says whether it waits or is passed over. -/
theorem recognitionAdvancesWindow : Obligations.RecognitionAdvancesWindow := by
  intro p s hs hb hf ht hl hr hroom
  have h : Recognisable p s := ⟨hs, hb, hf, ht, hl, hr, hroom⟩
  refine ⟨fun ho hk => ?command, fun ho => ?pad⟩
  case command =>
    refine ⟨_, congrArg Host.Outcome.next (h.command ho hk), clientOf_putClient_same _ _ _, fun n hn => ?_, rfl⟩
    exact clientOf_putClient_other _ _ hn
  case pad =>
    refine ⟨_, congrArg Host.Outcome.next ((if_pos ho).trans (h.pad ho)), clientOf_putClient_same _ _ _, fun n hn => ?_, rfl⟩
    exact clientOf_putClient_other _ _ hn

end Sys2Proof.Machine
end

section
/-! PROOF of O10 and O12. The gate (11 R315): permission before every later check (11 R279), secrets inline under a tenant (11 R292), and the policing of a packet that the checks before it let through (11 R296, R297). -/

namespace Sys2Proof.Machine

variable {p : Packet} {prior : Previous} {s s1 : State}

/-! ### Permission and tenancy -/

/-- The check of permission is the gate's first. -/
theorem gate_opcode_refused {a : Ans} (h : checkOpcode p s = some a) : gate p prior s = .refuse s a := by
  rw [gate, h]

/-- An opcode kept to client 0 is refused from every other, in every power-on phase (11 R279). -/
theorem checkOpcode_admin (hc : p.client ≠ 0) (ha : adminOpcode (opcodeOf p) = true) :
    checkOpcode p s = some { status := stBAD_OPCODE, detail := 1 } := by
  unfold checkOpcode
  dsimp only
  split
  · rw [if_neg (fun h => hc h.1)]
  · rw [if_pos ⟨hc, ha⟩]

theorem adminOpcode_iff (op : Nat) :
    adminOpcode op = true ↔ op = 0x03 ∨ (0x10 ≤ op ∧ op ≤ 0x14) ∨ op = 0x32 ∨ (0x40 ≤ op ∧ op ≤ 0x43) ∨ (0x51 ≤ op ∧ op ≤ 0x53)
      ∨ (0x60 ≤ op ∧ op ≤ 0x64) ∨ (0x72 ≤ op ∧ op ≤ 0x74) := by
  simp [adminOpcode, or_assoc]

/-- The secrets that a packet may carry inline (11 R292). -/
def SecretInline (p : Packet) : Prop :=
  opcodeOf p = 0x20 ∨ (opcodeOf p = 0x21 ∧ paramOf p 0x20 8 ≠ 0) ∨ (opcodeOf p = 0x22 ∧ bitOf (argOf p 21 1) 1 = false)
    ∨ opcodeOf p = 0x29 ∨ opcodeOf p = 0x62

theorem SecretInline.not_modelStage (h : SecretInline p) : opcodeOf p ≠ 0x10 := by
  unfold SecretInline at h
  omega

/-- Under a bound tenant with a key in force, secrets go sealed or not at all. -/
theorem checkTenancy_secret (hb : s.sec.bound = true) (hr : s.sec.releasing = false) (hs : isSealed p = false) (hk : keygens s p.client ≠ [])
    (h : SecretInline p) : checkTenancy p s = some { status := stAUTH_FAIL, detail := 0x0001 } := by
  have hstage := h.not_modelStage
  unfold SecretInline at h
  simp [checkTenancy, hb, hr, hs, hk, hstage, h]

/-- Settles O10: an opcode kept to client 0 by the gate's first check, a secret inline by the check of tenancy. -/
theorem checksKeepClientsApart : Obligations.ChecksKeepClientsApart :=
  ⟨fun _ _ _ hc ho => gate_opcode_refused (checkOpcode_admin hc ((adminOpcode_iff _).2 ho)),
    fun _ _ hb hr hs hk h => checkTenancy_secret hb hr hs hk h⟩

/-! ### Policing -/

/-- A meter finds a packet red by its pre-mark or for want of peak tokens (11 R297). -/
theorem meterColour_red (m : Meter) (size : Nat) (yellow red : Bool) :
    meterColour m size yellow red = 2 ↔ m.pir ≠ 0 ∧ (red = true ∨ m.tp < size) := by
  unfold meterColour
  (repeat' split) <;> simp_all

theorem ceilDiv_eq (a b : Nat) : ceilDiv a b = (a + b - 1) / b := by
  unfold ceilDiv
  split
  · next h => rw [h, Nat.div_zero]
  · rfl

/-- The retry time that a meter asks for where it finds the packet red (11 R297). -/
theorem redRetry_eq {m : Meter} {size : Nat} {yellow red isRed : Bool} (h : isRed = true ↔ m.pir ≠ 0 ∧ (red = true ∨ m.tp < size)) :
    redRetry m size yellow red = if isRed then min 0xFFFE ((size - m.tp + m.pir - 1) / m.pir) else 0 := by
  rw [← meterColour_red m size yellow red] at h
  simp only [redRetry, ceilDiv_eq, ← h]

theorem meterColour_le (m : Meter) (size : Nat) (yellow red : Bool) : meterColour m size yellow red ≤ 2 := by
  unfold meterColour
  (repeat' split) <;> simp

/-- A metered packet that some meter finds red is not let through; its detail is the longer of the two retry times. -/
theorem police_red {y r : Bool} (hu : unmetered p = false) (hy : y = ((clientOf s p.client).aware && bitOf (flagsOf p) 1))
    (hr : r = ((clientOf s p.client).aware && bitOf (flagsOf p) 2))
    (h : meterColour (clientOf s p.client).cmd 256 y r = 2 ∨ meterColour (clientOf s p.client).byt (packetBytes p) y r = 2) :
    police p s = .error (max (redRetry (clientOf s p.client).cmd 256 y r) (redRetry (clientOf s p.client).byt (packetBytes p) y r)) := by
  have hmax : max (meterColour (clientOf s p.client).cmd 256 y r) (meterColour (clientOf s p.client).byt (packetBytes p) y r) = 2 := by
    have := meterColour_le (clientOf s p.client).cmd 256 y r
    have := meterColour_le (clientOf s p.client).byt (packetBytes p) y r
    omega
  subst hy hr
  simp only [police, hu, hmax, if_true, Bool.false_eq_true, if_false]

/-- A red packet that the checks before policing let through is refused THROTTLED, and its client's flag is set. -/
theorem gate_red {d : Nat} (ho : checkOpcode p s = none) (hr : checkReserved p s = none) (ht : checkTenancy p s = none)
    (he : (if isSealed p then openEnvelopes p.client 0 (p.envs.take 1) s else .ok s) = .ok s1) (hp : police p s1 = .error d) :
    gate p prior s = .refuse (setFlag (offCliEvents p.client) 0 s1) { status := stTHROTTLED, detail := d } := by
  simp only [gate, ho, hr, ht, he, hp]

/-- Settles O12: a meter's verdict by `meterColour_red`, its retry time by `redRetry_eq`, and the refusal by the order of the gate's checks. -/
theorem redPacketThrottled : Obligations.RedPacketThrottled := by
  intro p prior s s1 redCmd redByt d ho hr ht he hu hc hb hred hd
  rw [← Bool.and_eq_true] at hc hb
  have hpolice := police_red hu rfl rfl (hred.imp (fun h => (meterColour_red _ _ _ _).2 (hc.1 h)) (fun h => (meterColour_red _ _ _ _).2 (hb.1 h)))
  rw [redRetry_eq hc, redRetry_eq hb, ← hd] at hpolice
  exact gate_red ho hr ht he hpolice

end Sys2Proof.Machine
end

section
/-! PROOF of O15. PING, QUERY_DEVICE, GET_PARAM and STATS_READ (11 R306, R309, R313, R314; 18 R472): what each body answers once the checks before it have passed. -/

namespace Sys2Proof.Machine

variable {p : Packet} {s t : State}

theorem execPing_passes (ho : opcodeOf p = 0x01) (h : passes never p s = some t) :
    exec (.ping p) s = .next (answered p { status := stOK, count0 := p.client, count1 := (clientOf t p.client).inflight } t) :=
  next_serve_passes ho h

theorem execQueryDevice_passes (ho : opcodeOf p = 0x02) (h : passes never p s = some t) :
    exec (.queryDevice p) s = .next (dropRecognised p (queryDeviceBody 0 p t)) := next_serve_passes ho h

theorem execGetParam_passes (ho : opcodeOf p = 0x04) (h : passes never p s = some t) :
    exec (.getParam p) s = .next (dropRecognised p (getParamBody 0 p t)) := next_serve_passes ho h

theorem execStatsRead_passes (ho : opcodeOf p = 0x71) (h : passes never p s = some t) :
    exec (.statsRead p) s = .next (dropRecognised p (statsBody 0 p t)) := next_serve_passes ho h

/-! ### QUERY_DEVICE (11 R309) -/

/-- The bytes of some device items, 16 an item. -/
def itemBytes (l : List (Nat × Nat × Nat)) : Bytes := (l.map (fun e => leBytes 4 e.1 ++ leBytes 4 e.2.1 ++ leBytes 8 e.2.2)).flatten

theorem itemBytes_isEmpty (l : List (Nat × Nat × Nat)) : (itemBytes l).isEmpty = l.isEmpty := by
  cases l with
  | nil => rfl
  | cons e l => simp [itemBytes, leBytes]

theorem head?_drop_key (l : List (Nat × Nat × Nat)) (n : Nat) :
    (match (l.drop n).head? with | some e => e.1 | none => 0) = ((l[n]?).map (fun e => e.1)).getD 0 := by
  rw [List.head?_drop]
  cases l[n]? <;> rfl

theorem queryDeviceBody_answers {items : List (Nat × Nat × Nat)} {n : Nat} (hi : items = (deviceItems t).filter (fun e => decide (argOf p 20 4 ≤ e.1)))
    (hn : n = min items.length (min (argOf p 24 4) (roomBytes t (bufLen p 0x20) / 16))) :
    queryDeviceBody 0 p t = reply p { status := stOK, count0 := n, count1 := ((items[n]?).map (fun e => e.1)).getD 0 }
      (if n = 0 then t else hostWrite p.client (bufAddr p 0x20) 5 (itemBytes (items.take n)) t) := by
  have hempty : (itemBytes (items.take n)).isEmpty = true ↔ n = 0 := by
    rw [itemBytes_isEmpty, List.isEmpty_iff, List.take_eq_nil_iff]
    refine ⟨fun h => h.elim id (fun h => ?_), Or.inl⟩
    rw [hn, h, List.length_nil, Nat.zero_min]
  have hif := if_congr hempty (rfl : t = t) (rfl : hostWrite p.client (bufAddr p 0x20) 5 (itemBytes (items.take n)) t = _)
  rw [← hif, ← head?_drop_key, hn, hi]
  rfl

/-! ### GET_PARAM (11 R306) -/

theorem getParamBody_unknown (h : getSetting (argOf p 20 4) t = none) : getParamBody 0 p t = reply p (bad 0x14) t := by
  simp only [getParamBody, h]

theorem getParamBody_word {v : Nat} (h : getSetting (argOf p 20 4) t = some v) (hw : argOf p 24 1 ≤ 1) :
    getParamBody 0 p t = reply p
      { status := stOK, count0 := v / 2 ^ (64 * argOf p 24 1) % 2 ^ 32, count1 := v / 2 ^ (64 * argOf p 24 1 + 32) % 2 ^ 32 } t := by
  simp only [getParamBody, h, if_neg (Nat.not_lt.2 hw), bitsOf]

theorem getParamBody_noWord (h : getSetting (argOf p 20 4) t ≠ none) (hw : 1 < argOf p 24 1) : getParamBody 0 p t = reply p (bad 0x18) t := by
  obtain ⟨v, hv⟩ := Option.ne_none_iff_exists'.mp h
  simp only [getParamBody, hv, if_pos hw]

/-! ### STATS_READ (11 R314; 18 R472) -/

theorem statsBody_missing {off : Nat} (h : statsObject (argOf p 20 1) (argOf p 21 1) t = .error off) : statsBody 0 p t = reply p (bad off) t := by
  simp only [statsBody, h]

theorem statsBody_object {b : Bytes} (h : statsObject (argOf p 20 1) (argOf p 21 1) t = .ok b) (hk : ¬ (argOf p 20 1 = 3 ∧ argOf p 21 1 = 1)) :
    statsBody 0 p t = if bufLen p 0x20 < writtenBytes t b.length then reply p { status := stBAD_LENGTH, detail := writtenBytes t b.length } t
      else reply p { status := stOK, count0 := writtenBytes t b.length } (hostWrite p.client (bufAddr p 0x20) 5 b t) := by
  simp only [statsBody, h, if_neg hk]

/-- The stop record is discarded, and nothing is written. -/
theorem statsBody_discards (hk : argOf p 20 1 = 3) (hi : argOf p 21 1 = 1) (hb : t.sec.bound = false) :
    statsBody 0 p t = reply p ok { t with svc := { t.svc with stopRecord := [], stopDiscarded := true } } := by
  simp [statsBody, statsObject, hk, hi, hb]

/-- Settles O15: each body by the object or setting that its packet names. -/
theorem readingCommandsAnswer : Obligations.ReadingCommandsAnswer := by
  refine ⟨fun p s t => execPing_passes, ?query, ?get, ?stats⟩
  case query =>
    intro p s t items n ho h hi hn
    rw [execQueryDevice_passes ho h, queryDeviceBody_answers hi hn, answered]
    rfl
  case get =>
    intro p s t ho h
    rw [execGetParam_passes ho h]
    refine ⟨fun v hv hw => ?_, fun hv => ?_, fun hv hw => ?_⟩
    · rw [getParamBody_word hv hw, answered]
    · rw [getParamBody_unknown hv, answered]
    · rw [getParamBody_noWord hv hw, answered]
  case stats =>
    intro p s t ho h
    rw [execStatsRead_passes ho h]
    refine ⟨fun b hb hk hfits => ?_, fun b hb hk hshort => ?_, fun off he => ?_, fun hk hi hb => ?_⟩
    · rw [statsBody_object hb hk, if_neg (Nat.not_lt.2 hfits), answered]
    · rw [statsBody_object hb hk, if_pos hshort, answered]
    · rw [statsBody_missing he, answered]
    · rw [statsBody_discards hk hi hb, answered]

end Sys2Proof.Machine
end

section
/-! PROOF of O21. Pieces of a staged object (11 R308), MODEL_STAGE and MODEL_UNLOAD (11 R309; 13 R362; log entries 12, 48). -/

namespace Sys2Proof.Machine

variable {p : Packet} {piece : ModelPiece} {s t u : State} {key base n : Nat}

/-! ### Pieces -/

/-- A piece of OFFSET 0 starts its object; any other goes on from the bytes staged under the same TOTAL. -/
def GoesOn (key base : Nat) (p : Packet) (s : State) : Prop :=
  paramOf p base 8 = 0 ∨ FMap.get? s.cont.staging key = some ⟨paramOf p base 8, paramOf p (base + 8) 8⟩

/-- A piece that starts its object or goes on with it is judged by where it ends. -/
theorem takePiece_goesOn (hn : n = paramOf p base 8 + pieceBytes p base s) (h : GoesOn key base p s) :
    takePiece key base p s = if paramOf p (base + 8) 8 < n then .refused (bad (base + 24)) (dropStaging key s)
      else if n < paramOf p (base + 8) 8 then .kept { status := stOK, count0 := n % 2 ^ 32, count1 := n / 2 ^ 32 }
        { s with cont := { s.cont with staging := FMap.put s.cont.staging key ⟨n, paramOf p (base + 8) 8⟩ } }
      else .last (dropStaging key s) := by
  subst hn
  unfold takePiece
  rcases h with h | h
  · simp only [h, if_true]
  · simp only [h, ne_eq, not_true_eq_false, if_false, ite_self]

/-- A piece that goes on from other bytes than the staged ones is refused at its OFFSET. -/
theorem takePiece_offset (h0 : paramOf p base 8 ≠ 0)
    (h : FMap.get? s.cont.staging key = none ∨ ∃ c, FMap.get? s.cont.staging key = some c ∧ c.staged ≠ paramOf p base 8) :
    takePiece key base p s = .refused (bad base) (dropStaging key s) := by
  unfold takePiece
  rcases h with h | ⟨c, h, hc⟩
  · simp only [h, if_neg h0]
  · simp only [h, if_neg h0, if_pos hc]

/-- A piece of another TOTAL is refused at its TOTAL. -/
theorem takePiece_total {c : Staging} (hc : FMap.get? s.cont.staging key = some c) (h0 : paramOf p base 8 ≠ 0) (hs : c.staged = paramOf p base 8)
    (ht : c.total ≠ paramOf p (base + 8) 8) : takePiece key base p s = .refused (bad (base + 8)) (dropStaging key s) := by
  unfold takePiece
  simp only [hc, if_neg h0, if_neg (not_not_intro hs), if_pos ht]

/-! ### MODEL_STAGE and MODEL_UNLOAD -/

theorem execModelStage_passes (ho : opcodeOf p = 0x10) (h : passes never p s = some t) :
    exec (.modelStage p piece) s = .next (dropRecognised p (modelStageBody piece 0 p t)) := next_serve_passes ho h

theorem execModelUnload_passes (ho : opcodeOf p = 0x11) (h : passes never p s = some t) :
    exec (.modelUnload p) s = .next (dropRecognised p (modelUnloadBody 0 p t)) := next_serve_passes ho h

/-- While a partition names the model both commands are BUSY. -/
theorem modelBodies_named (hi : argOf p 20 1 ≤ 15) (hm : modelNamed t (argOf p 20 1) = true) :
    modelStageBody piece 0 p t = reply p (busy 0xFFFF) t ∧ modelUnloadBody 0 p t = reply p (busy 0xFFFF) t := by
  constructor
  · rw [modelStageBody, if_neg (Nat.not_lt.2 hi), if_pos hm]
  · rw [modelUnloadBody, if_neg (Nat.not_lt.2 hi), if_pos hm]

theorem modelUnloadBody_removes (hi : argOf p 20 1 ≤ 15) (hm : modelNamed t (argOf p 20 1) = false) :
    modelUnloadBody 0 p t = reply p ok
      { t with cont := { t.cont with models := FMap.del t.cont.models (argOf p 20 1), staging := FMap.del t.cont.staging (modelKey (argOf p 20 1)) } } := by
  simp only [modelUnloadBody, if_neg (Nat.not_lt.2 hi), hm, Bool.false_eq_true, if_false, dropStaging]

/-- A model that no partition names takes a piece; a chunk whose tag fails is the answer wherever the piece stands. -/
theorem modelStageBody_takes (hi : argOf p 20 1 ≤ 15) (hm : modelNamed t (argOf p 20 1) = false) :
    (∀ a, takePiece (modelKey (argOf p 20 1)) 0x20 p t = .kept a u → piece.badChunk = none → modelStageBody piece 0 p t = reply p a u)
      ∧ (takePiece (modelKey (argOf p 20 1)) 0x20 p t = .last u →
        (∀ i, piece.badChunk = some i → modelStageBody piece 0 p t = reply p { status := stAUTH_FAIL, detail := i % 2 ^ 16 } u)
        ∧ (piece.badChunk = none → modelStageBody piece 0 p t = finishModel (argOf p 20 1) p piece u)) := by
  refine ⟨fun a hp hb => ?_, fun hp => ⟨fun i hb => ?_, fun hb => ?_⟩⟩ <;> simp [modelStageBody, Nat.not_lt.2 hi, hm, hp, hb]

theorem finishModel_header {m : Nat} (h : piece.magic ≠ 0x4C444F4D ∨ piece.version ≠ 1 ∨ piece.headerZero = false) :
    finishModel m p piece u = reply p (bad 0) u := by
  simp only [finishModel, Bool.not_eq_true', if_pos h]

/-- A sound header under the model's key: the digest is checked, then the room for two copies of the model beside the others (13 R362). -/
theorem finishModel_sound {m : Nat} (hm : piece.magic = 0x4C444F4D) (hv : piece.version = 1) (hz : piece.headerZero = true)
    (hk : FMap.get? u.sec.weightKeys m = some piece.keyId) :
    finishModel m p piece u = if piece.facts.digest ≠ piece.facts.trailer then reply p { status := stDIGEST_FAIL } u
      else if weightRoom { u with cont := { u.cont with models := FMap.del u.cont.models m } } < 2 * piece.dieBytes.foldl (· + ·) 0 then
        reply p (noResource 0x0007) u
      else reply p ok { u with cont := { u.cont with
        models := FMap.put u.cont.models m ⟨piece.facts.trailer, piece.dieBytes.foldl (· + ·) 0, piece.outputRow⟩ } } := by
  simp [finishModel, hm, hv, hz, hk]

/-- Settles O21: a piece by where it begins and where it ends, a model by its name, its last piece and the checks of `finishModel` in order. -/
theorem piecesAndModels : Obligations.PiecesAndModels := by
  refine ⟨?pieces, ?stage, ?unload, ?named⟩
  case pieces =>
    intro key base n p s hn
    refine ⟨fun h => ?_, takePiece_offset, fun c => takePiece_total⟩
    rw [takePiece_goesOn hn h]
    refine ⟨fun hl => ?_, fun he => ?_, fun hg => ?_⟩
    · rw [if_neg (Nat.lt_asymm hl), if_pos hl]
    · rw [if_neg (by omega), if_neg (by omega), dropStaging]
    · rw [if_pos hg, dropStaging]
  case stage =>
    intro p piece s t ho h hi hm
    rw [execModelStage_passes ho h]
    refine ⟨fun a u hp hb => ?_, fun u i hp hb => ?_, fun u hp hb => ?_⟩
    · rw [(modelStageBody_takes hi hm).1 a hp hb, answered]
    · rw [((modelStageBody_takes hi hm).2 hp).1 i hb, answered]
    rw [((modelStageBody_takes hi hm).2 hp).2 hb]
    refine ⟨fun hbad => by rw [finishModel_header hbad, answered], fun hmagic hv hz hk => ?_⟩
    rw [finishModel_sound hmagic hv hz hk]
    refine ⟨fun hd => ?_, fun hd hfull => ?_, fun hd hroom => ?_⟩
    · rw [if_pos hd, answered]
    · rw [if_neg (not_not_intro hd), if_pos hfull, answered]
    · rw [if_neg (not_not_intro hd), if_neg (Nat.not_lt.2 hroom), answered]
  case unload =>
    intro p s t ho h hi hm
    rw [execModelUnload_passes ho h, modelUnloadBody_removes hi hm, answered]
  case named =>
    intro p piece s t h hi hm
    obtain ⟨hstage, hunload⟩ := modelBodies_named (piece := piece) hi hm
    refine ⟨fun ho => ?_, fun ho => ?_⟩
    · rw [execModelStage_passes ho h, hstage, answered]
    · rw [execModelUnload_passes ho h, hunload, answered]

end Sys2Proof.Machine
end

section
/-! SUPPORT for O4 and O17. What serving a packet may change besides its body (11 R283 to R294, R315): clients, replies, commands, counters, flags and records, the envelopes' sequence numbers, and the REBUILT that a session owes. -/

namespace Sys2Proof.Machine

variable {p : Packet} {prior : Previous} {s t : State}

/-- A state without what recognition, the gate and a reply may change. -/
def offServing (s : State) : State :=
  { s with out := {}, host := {}, mgmt := {}, flags := [], clients := [], commands := [], counters := {}, sec := {}, evr := {}, slots := {} }

theorem offServing_setFlag (off bit : Nat) (s : State) : offServing (setFlag off bit s) = offServing s :=
  (congrArg offServing (setFlag_changes off bit s)).trans rfl

theorem offServing_replyTo (o : Origin) (final : Bool) (a : Ans) (s : State) : offServing (replyTo o final a s) = offServing s :=
  (congrArg offServing (replyTo_changes o final a s)).trans rfl

theorem offServing_reply (p : Packet) (a : Ans) (s : State) : offServing (reply p a s) = offServing s := offServing_replyTo _ _ _ _

theorem offServing_hostWrite (n a k : Nat) (b : Bytes) (s : State) : offServing (hostWrite n a k b s) = offServing s :=
  (congrArg offServing (hostWrite_changes n a k b s)).trans rfl

theorem offServing_hostOut (o : Origin) (a k : Nat) (b : Bytes) (s : State) : offServing (hostOut o a k b s) = offServing s :=
  (congrArg offServing (hostOut_changes o a k b s)).trans rfl

theorem offServing_dropRecognised (p : Packet) (s : State) : offServing (dropRecognised p s) = offServing s := rfl

theorem offServing_forwardTo (dest : Nat) (p : Packet) (data : Bytes) (s : State) : offServing (forwardTo dest p data s) = offServing s := by
  unfold forwardTo
  dsimp only
  split <;> rfl

theorem offServing_recognise (p : Packet) (s : State) : offServing (recognise p s) = offServing s := by
  unfold recognise
  dsimp only
  (repeat' split) <;> (try simp only [offServing_setFlag, offServing_replyTo]) <;> rfl

/-! ### The gate -/

theorem offServing_openEnvelope {client kind : Nat} {e : Envelope} (h : openEnvelope client kind e s = .ok t) : offServing t = offServing s := by
  unfold openEnvelope at h
  dsimp only at h
  (repeat' split at h) <;> cases h <;> rfl

theorem offServing_openEnvelopes {client kind : Nat} {l : List Envelope} (h : openEnvelopes client kind l s = .ok t) : offServing t = offServing s := by
  induction l generalizing s with
  | nil =>
    cases h
    rfl
  | cons e rest ih =>
    rw [openEnvelopes] at h
    split at h
    · cases h
    · next he => exact (ih h).trans (offServing_openEnvelope he)

/-- Envelopes are opened only where a packet carries some. -/
theorem offServing_opened {c : Prop} [Decidable c] {client kind : Nat} {l : List Envelope}
    (h : (if c then openEnvelopes client kind l s else .ok s) = .ok t) : offServing t = offServing s := by
  split at h
  · exact offServing_openEnvelopes h
  · cases h
    rfl

theorem offServing_police {r : Nat × State} (h : police p s = .ok r) : offServing r.2 = offServing s := by
  unfold police at h
  dsimp only at h
  (repeat' split at h) <;> cases h <;> rfl

theorem Gate.All.mono {P Q : State → Prop} {g : Gate} (h : g.All P) (hpq : ∀ t, P t → Q t) : g.All Q := by
  cases g with
  | wait => trivial
  | _ => exact hpq _ h

/-- Whatever the gate decides, it has opened envelopes, debited meters and set flags at the most. -/
theorem offServing_gate : (gate p prior s).All (fun t => offServing t = offServing s) := by
  unfold gate
  split
  · rfl
  · split
    · rfl
    · split
      · rfl
      · split
        · change offServing _ = _
          split
          · exact offServing_setFlag _ _ _
          · rfl
        · next hopen =>
          have h1 := offServing_opened hopen
          split
          · exact (offServing_setFlag _ _ _).trans h1
          · next hpolice =>
            have h2 := (offServing_police hpolice).trans h1
            split
            · split
              · trivial
              · exact h2
              · split
                · exact checkHandle_all h2
                · exact h2
            · exact checkHandle_all h2

/-! ### The row -/

/-- A row of a packet leaves what its body leaves, of all that serving does not change itself. -/
theorem serveHost_view {β : Type} (view : State → β) (hv : ∀ s t, offServing t = offServing s → view t = view s) {data : Bytes} {is : Packet → Bool}
    {waits : Packet → State → Bool} {body : Nat → Packet → State → State} (hb : ∀ c t, view (body c p t) = view t) :
    view (serveHost data is waits body p s) = view s := by
  unfold serveHost
  split
  · rfl
  extract_lets s0
  have h0 : view s0 = view s := by
    unfold s0
    split
    · rfl
    · exact hv _ _ (offServing_recognise p s)
  clear_value s0
  split
  · exact h0
  next prior _ =>
  have hg := (offServing_gate (p := p) (prior := prior) (s := s0)).mono (fun t ht => (hv _ _ ht).trans h0)
  cases hgate : gate p prior s0 with
  | wait => exact h0
  | refuse t a =>
    rw [hgate] at hg
    exact (hv t (dropRecognised p (reply p a t)) (offServing_reply p a t)).trans hg
  | forward dest t =>
    rw [hgate] at hg
    exact (hv t (dropRecognised p (await _ _ (forwardTo dest p data t))) (offServing_forwardTo dest p data t)).trans hg
  | run colour t =>
    rw [hgate] at hg
    dsimp only
    split
    · exact h0
    split
    · refine (hv t _ ?_).trans hg
      rw [offServing_dropRecognised, offServing_reply]
      split
      · exact offServing_setFlag _ _ _
      · rfl
    · next u hopen =>
      have hu : view u = view s := (hv _ _ (offServing_opened hopen)).trans hg
      rw [hv _ _ (offServing_dropRecognised p _)]
      unfold admitted
      split
      · exact (hv _ _ (offServing_reply p _ u)).trans hu
      · exact (hb _ _).trans hu

end Sys2Proof.Machine
end

section
/-! PROOF of O17. The commands that read (11 R306, R309, R310, R313; 17 R445): each body writes a host buffer and a reply, or leaves a snapshot to be written. -/

namespace Sys2Proof.Machine

variable {p : Packet} {s t : State}

theorem offServing_queryDeviceBody (c : Nat) (p : Packet) (s : State) : offServing (queryDeviceBody c p s) = offServing s := by
  refine (offServing_reply _ _ _).trans ?_
  split
  · rfl
  · exact offServing_hostWrite _ _ _ _ _

theorem offServing_getParamBody (c : Nat) (p : Packet) (s : State) : offServing (getParamBody c p s) = offServing s := by
  unfold getParamBody
  dsimp only
  (repeat' split) <;> exact offServing_reply _ _ _

theorem offServing_snapshotBody (c : Nat) (p : Packet) (s : State) : offServing (snapshotBody c p s) = offServing s := by
  unfold snapshotBody
  dsimp only
  split
  · exact offServing_reply _ _ _
  · split
    · exact offServing_reply _ _ _
    · rfl

theorem offServing_queryBody (c : Nat) (p : Packet) (s : State) : offServing (queryBody c p s) = offServing s := by
  unfold queryBody
  dsimp only
  split
  · exact offServing_reply _ _ _
  · split
    · exact offServing_reply _ _ _
    · exact (offServing_reply _ _ _).trans (offServing_hostOut _ _ _ _ _)

theorem offServing_calReadBody (c : Nat) (p : Packet) (s : State) : offServing (calReadBody c p s) = offServing s := by
  unfold calReadBody
  split <;> exact offServing_reply _ _ _

/-- A row whose body only reads leaves what serving leaves. -/
theorem offServing_served {is : Packet → Bool} {waits : Packet → State → Bool} {body : Nat → Packet → State → State}
    (hb : ∀ c t, offServing (body c p t) = offServing t) (h : .next (serve is waits body p s) = (.next t : Host.Outcome State Fault Refusal)) :
    offServing t = offServing s := by
  obtain rfl := Host.Outcome.next.inj h
  exact serveHost_view offServing (fun _ _ h => h) hb

/-- Settles O17: what the statement names is no part of what serving a packet may change, and each body keeps to that. -/
theorem readingCommandsFrame : Obligations.ReadingCommandsFrame := by
  intro p s t h
  have hf : offServing t = offServing s := by
    rcases h with h | h | h | h | h | h
    · exact offServing_served (fun _ _ => offServing_reply _ _ _) h
    · exact offServing_served (fun _ _ => offServing_queryDeviceBody _ _ _) h
    · exact offServing_served (fun _ _ => offServing_getParamBody _ _ _) h
    · exact offServing_served (fun _ _ => offServing_snapshotBody _ _ _) h
    · exact offServing_served (fun _ _ => offServing_queryBody _ _ _) h
    · exact offServing_served (fun _ _ => offServing_calReadBody _ _ _) h
  have keeps {β : Type} (view : State → β) (hv : ∀ s, view (offServing s) = view s) : view t = view s := eq_of_aside offServing view hv hf
  have hmem := keeps State.mem (fun _ => rfl)
  exact ⟨fun a => by rw [hmem], keeps State.tier (fun _ => rfl), keeps State.sched (fun _ => rfl), keeps State.cont (fun _ => rfl),
    keeps State.cad (fun _ => rfl), keeps State.sup (fun _ => rfl), keeps State.fab (fun _ => rfl), keeps State.links (fun _ => rfl),
    keeps State.comp (fun _ => rfl), keeps State.cal (fun _ => rfl), keeps State.svc (fun _ => rfl)⟩

end Sys2Proof.Machine
end

section
/-! PROOF of O18. SET_PARAM (11 R304, R305): the entries one after another, and the settings that land at once within their ranges. -/

namespace Sys2Proof.Machine

variable {p : Packet} {s t u : State} {fuel k v : Nat}

/-! ### One entry after another -/

theorem execSetParam_passes (ho : opcodeOf p = 0x03) (h : passes never p s = some t) :
    exec (.setParam p) s = .next (dropRecognised p (setParamBody 0 p t)) := next_serve_passes ho h

/-- A number of entries within its range and within the packet's LENGTH is run from the first on. -/
theorem setParamBody_runs {n : Nat} (hn : argOf p 20 2 = n) (h1 : 1 ≤ n) (h255 : n ≤ 255) (hlen : 40 + 24 * n ≤ 16 * lengthOf p) :
    setParamBody 0 p t = runSettings (originOf p t) p n 0 t := by
  simp only [setParamBody, hn]
  rw [if_neg (by omega), if_neg (by omega)]

theorem runSettings_done {o : Origin} (h : setEntry (paramOf p (0x20 + 24 * k) 4) (paramOf p (0x20 + 24 * k + 8) 16) s = .done u) :
    runSettings o p (fuel + 1) k s = runSettings o p fuel (k + 1) u := by
  rw [runSettings_succ, h, settingTaken]

/-- The first entry refused is the whole answer, by its offset. -/
theorem runSettings_refused_first {o : Origin} {d : Nat} (h : setEntry (paramOf p 0x20 4) (paramOf p 0x28 16) s = .refused (bad d)) :
    runSettings o p (fuel + 1) 0 s = replyTo o true (bad 0x20) s := by
  rw [runSettings_succ, h, settingTaken, if_pos rfl, if_pos (show (bad d).status = stBAD_PARAM from rfl)]

/-- An entry refused after others were applied ends the command PARTIAL. -/
theorem runSettings_refused_later {o : Origin} {d : Nat} (hk : k ≠ 0)
    (h : setEntry (paramOf p (0x20 + 24 * k) 4) (paramOf p (0x20 + 24 * k + 8) 16) s = .refused (bad d)) :
    runSettings o p (fuel + 1) k s = replyTo o true { status := stPARTIAL, detail := k, count0 := stBAD_PARAM, count1 := 0x20 + 24 * k } s := by
  rw [runSettings_succ, h, settingTaken, if_neg hk]
  rfl

theorem runSettings_end (o : Origin) (p : Packet) (k : Nat) (s : State) : runSettings o p 0 k s = replyTo o true { status := stOK, detail := k } s := rfl

/-! ### Settings that land at once -/

/-- A setting of GROUP 3 or from 5 on, whose value is a 64-bit word. -/
theorem setEntry_host {id : Nat} (hv : v < 2 ^ 64) (hg : bitsOf id 24 8 ∉ [1, 2, 4]) : setEntry id v s = setHost id v s := by
  simp only [List.mem_cons, List.not_mem_nil, or_false, not_or] at hg
  simp only [setEntry, hg, if_false, false_and, not_false_eq_true, and_true, if_neg (Nat.not_le.2 hv)]

theorem setEntry_cad {id : Nat} (hv : v < 2 ^ 64) (hg : bitsOf id 24 8 = 1) : setEntry id v s = setCad id v s := by
  unfold setEntry
  dsimp only
  rw [hg, if_neg (fun h => absurd h.1 (Nat.not_le.2 hv)), if_neg (by decide), if_pos rfl]

theorem inRange_zero (hi v : Nat) (f : State → State) (s : State) : inRange 0 hi v f s = if v ≤ hi then .done (f s) else .refused (bad 0) := by
  simp [inRange]

/-- Settles O18: the entries by `runSettings`, one after another, and each setting by its group and its range. -/
theorem settingsLandInOrder : Obligations.SettingsLandInOrder := by
  refine ⟨?one, ?first, ?later, ?ranges⟩
  case one =>
    intro p s t u ho h hn hlen he
    rw [execSetParam_passes ho h, setParamBody_runs hn le_rfl (by omega) (by omega), runSettings_succ, he, settingTaken, runSettings_end]
  case first =>
    intro p s t d ho h h1 h255 hlen he
    obtain ⟨m, hm⟩ := Nat.exists_eq_add_of_le' h1
    rw [execSetParam_passes ho h, setParamBody_runs rfl h1 h255 hlen, hm, runSettings_refused_first he, answered, reply]
  case later =>
    intro p s t u d ho h h2 h255 hlen hdone he
    obtain ⟨m, hm⟩ := Nat.exists_eq_add_of_le' h2
    rw [execSetParam_passes ho h, setParamBody_runs rfl (by omega) h255 hlen, hm, runSettings_succ, hdone, settingTaken, zero_add, runSettings_refused_later one_ne_zero he]
    rfl
  case ranges =>
    intro v s hv
    have hhost (id : Nat) (hg : bitsOf id 24 8 ∉ [1, 2, 4]) : setEntry id v s = setHost id v s := setEntry_host hv hg
    refine ⟨?_, ?_, ?_, ?_, ?_, ?_⟩
    · rw [hhost _ (by decide), setHost, inRange_zero]
    · rw [hhost _ (by decide), setHost, inRange_zero]
    · rw [hhost _ (by decide), setHost, inRange_zero]
    · rw [hhost _ (by decide), setHost, inRange_zero]
    · rw [hhost _ (by decide), setHost, inRange_zero]
    · rw [setEntry_cad hv (by decide), setCad, inRange_zero]

end Sys2Proof.Machine
end

section
/-! SUPPORT for O4. What leaves the queue of commands as it was, first part: one lemma per operation says that the commands that wait stay. Here the session, page and Mover operations. -/

namespace Sys2Proof.Machine

/-! ### Replies and records -/

/-- Commands that operations one after another leave waiting. -/
@[simp] theorem foldl_pending {α : Type} {f : State → α → State} (hf : ∀ s x, (f s x).pending = s.pending) (l : List α) (s : State) :
    (l.foldl f s).pending = s.pending :=
  foldl_keeps State.pending hf l s

/-- The commands that wait in one state wait in another. A definition, so that its two states are compared as terms. -/
def QueueStays (s t : State) : Prop := t.pending = s.pending

theorem QueueStays.trans {s t u : State} (a : QueueStays s t) (b : QueueStays t u) : QueueStays s u := Eq.trans b a

@[simp] theorem takeSeq_pending (client len : Nat) (s : State) : (takeSeq client len s).2.pending = s.pending := by
  unfold takeSeq
  split <;> simp

/-! ### Recognition -/

@[simp] theorem recognise_pending (p : Packet) (s : State) : (recognise p s).pending = s.pending := by
  unfold recognise
  dsimp only
  (repeat' split) <;> simp

/-! ### The Session State Engine's shared operations -/

@[simp] theorem putFrame_pending (addr : Nat) (f : Frame) (s : State) : (putFrame addr f s).pending = s.pending := by simp [putFrame, apply_ite State.pending]
@[simp] theorem takeFrame_pending (part : Nat) (s : State) : (takeFrame part s).2.pending = s.pending := by simp [takeFrame]

@[simp] theorem dropFrame_pending (addr : Nat) (s : State) : (dropFrame addr s).pending = s.pending := by
  unfold dropFrame
  (repeat' split) <;> simp

@[simp] theorem frameDue_pending (addr : Nat) (s : State) : (frameDue addr s).pending = s.pending := by simp [frameDue, apply_ite State.pending]
@[simp] theorem framesDue_pending (addrs : List Nat) (s : State) : (framesDue addrs s).pending = s.pending := by simp [framesDue]
@[simp] theorem returnScratch_pending (slot : Nat) (s : State) : (returnScratch slot s).pending = s.pending := by simp [returnScratch]

@[simp] theorem shareFrame_pending (addr : Nat) (s : State) : (shareFrame addr s).pending = s.pending := by
  unfold shareFrame
  split <;> simp

@[simp] theorem takeSlot_pending (s : State) : (takeSlot s).pending = s.pending := by simp [takeSlot, apply_ite State.pending]

@[simp] theorem releaseSet_pending (set : Option Nat) (s : State) : (releaseSet set s).pending = s.pending := by
  unfold releaseSet
  (repeat' split) <;> simp

@[simp] theorem holdSet_pending (set : Option Nat) (s : State) : (holdSet set s).pending = s.pending := by
  unfold holdSet
  (repeat' split) <;> simp

@[simp] theorem setState_pending (slot st : Nat) (s : State) : (setState slot st s).pending = s.pending := by rfl

@[simp] theorem newSegments_pending (k : Nat) (s : State) : (newSegments k s).2.pending = s.pending :=
  eq_of_aside offPages State.pending (fun _ => rfl) (offPages_newSegments k s)

@[simp] theorem growSegments_pending (slot : Nat) (s : State) : (growSegments slot s).pending = s.pending := by simp [growSegments]

@[simp] theorem dropSegment_pending (n : Nat) (s : State) : (dropSegment n s).pending = s.pending := by
  unfold dropSegment
  split <;> simp

@[simp] theorem shareSegment_pending (n : Nat) (s : State) : (shareSegment n s).pending = s.pending := by
  unfold shareSegment
  split <;> simp

@[simp] theorem chargeLedger_pending (rs : List Run) (s : State) : (chargeLedger rs s).pending = s.pending := by rfl
@[simp] theorem growBody_pending (slot : Nat) (rs : List Run) (s : State) : (growBody slot rs s).pending = s.pending := by simp [growBody, apply_ite State.pending]
@[simp] theorem queueRecord_pending (r : JournalRecord) (s : State) : (queueRecord r s).pending = s.pending := by simp [queueRecord, apply_ite State.pending]
@[simp] theorem queueRun_pending (handle first : Nat) (r : Run) (s : State) : (queueRun handle first r s).pending = s.pending := by simp [queueRun]

/-- Records of runs queued one after another leave the commands waiting. -/
theorem queueRuns_pending (h : Nat) (rs : List Run) (a : Nat × State) :
    (rs.foldl (fun (a : Nat × State) r => (a.1 + runCount r, queueRun h a.1 r a.2)) a).2.pending = a.2.pending :=
  foldl_keeps (fun a : Nat × State => a.2.pending) (fun _ _ => queueRun_pending _ _ _ _) rs a

@[simp] theorem queueLedger_pending (slot : Nat) (s : State) : (queueLedger slot s).pending = s.pending := queueRuns_pending _ _ _

@[simp] theorem queueMark_pending (handle kind first : Nat) (s : State) : (queueMark handle kind first s).pending = s.pending := by simp [queueMark]

@[simp] theorem lagAtOpen_pending (slot : Nat) (s : State) : (lagAtOpen slot s).pending = s.pending := by
  unfold lagAtOpen
  dsimp only
  (repeat' split) <;> simp

@[simp] theorem appendBody_pending (slot : Nat) (r : Run) (s : State) : (appendBody slot r s).pending = s.pending := by simp [appendBody]

@[simp] theorem appendCommit_pending (slot : Nat) (rs : List Run) (s : State) : (appendCommit slot rs s).pending = s.pending := by
  unfold appendCommit
  extract_lets x h q fits s'
  have hq : q.2.pending = s.pending := queueRuns_pending h rs _
  rw [modSession_pending]
  unfold s'
  split
  · exact hq
  · rw [growBody_pending, hq]

@[simp] theorem writeRecord_pending (r : JournalRecord) (s : State) : (writeRecord r s).pending = s.pending := by simp [writeRecord, apply_ite State.pending]

@[simp] theorem writeRecords_pending (l : List JournalRecord) (s : State) : (writeRecords l s).2.pending = s.pending := by
  induction l generalizing s with
  | nil => rfl
  | cons r rest ih =>
    rw [writeRecords]
    split
    · rw [ih, writeRecord_pending]
    · rfl

@[simp] theorem journalLane_pending (s : State) : (journalLane s).pending = s.pending := by simp [journalLane, apply_ite State.pending]

@[simp] theorem freeSlot_pending (slot : Nat) (s : State) : (freeSlot slot s).pending = s.pending := by
  unfold freeSlot
  dsimp only
  (repeat' split) <;> simp

@[simp] theorem deliver_pending (slot : Nat) (b : Bytes) (s : State) : (deliver slot b s).pending = s.pending := by
  unfold deliver
  dsimp only
  (repeat' split) <;> simp

@[simp] theorem dropSpec_pending (slot : Nat) (s : State) : (dropSpec slot s).pending = s.pending := by simp [dropSpec]

@[simp] theorem reportCandidate_pending (slot : Nat) (cand : Bool) (s : State) : (reportCandidate slot cand s).pending = s.pending := by
  unfold reportCandidate
  dsimp only
  (repeat' split) <;> simp

@[simp] theorem withdraw_pending (h : Nat) (s : State) : (withdraw h s).pending = s.pending := by
  unfold withdraw
  extract_lets
  split
  · exact foldl_pending (fun _ _ => send_pending _ _) _ _
  · rfl

@[simp] theorem replayDone_pending (slot : Nat) (s : State) : (replayDone slot s).pending = s.pending := by rfl
@[simp] theorem endEmptyReplay_pending (slot : Nat) (s : State) : (endEmptyReplay slot s).pending = s.pending := by simp [endEmptyReplay, apply_ite State.pending]
@[simp] theorem enterRebuilding_pending (slot : Nat) (s : State) : (enterRebuilding slot s).pending = s.pending := by simp [enterRebuilding, apply_ite State.pending]
@[simp] theorem loseSession_pending (slot : Nat) (s : State) : (loseSession slot s).pending = s.pending := by simp [loseSession, apply_ite State.pending]

@[simp] theorem cancelSession_pending (slot : Nat) (s : State) : (cancelSession slot s).2.pending = s.pending := by
  unfold cancelSession
  extract_lets x h n a s1 s2 s3 s4 s5 s6 s7 s8 s9 s10 s11 s12 w s13
  have h2 : QueueStays s s2 := (foldl_pending (fun _ _ => send_pending _ _) _ s1).trans (withdraw_pending h s)
  clear_value s2
  have h9 : QueueStays s2 s9 := by simp [QueueStays, s9, s8, s7, s6, s5, s4, s3]
  clear_value s9
  have h10 : QueueStays s9 s10 := by
    unfold s10
    (repeat' split) <;> exact rfl
  clear_value s10
  have h13 : QueueStays s10 s13 := (framesDue_pending _ s11).trans (queueMark_pending _ _ _ s10)
  clear_value s13
  exact ((freeSlot_pending _ _).trans (returnScratch_pending _ s13)).trans (((h2.trans h9).trans h10).trans h13)

@[simp] theorem freeClosing_pending (slot : Nat) (s : State) : (freeClosing slot s).pending = s.pending := by simp [freeClosing]

/-! ### What a beat does -/

@[simp] theorem takeSource_pending (s : State) : (takeSource s).pending = s.pending := by simp [takeSource, apply_ite State.pending]
@[simp] theorem passBeats_pending (n : Nat) (s : State) : (passBeats n s).pending = s.pending := by simp [passBeats]

/-! ### The cadence -/

@[simp] theorem enterCad_pending (st : CadState) (s : State) : (enterCad st s).pending = s.pending := by simp [enterCad, apply_ite State.pending]

@[simp] theorem announceDeparture_pending (s : State) : (announceDeparture s).pending = s.pending := by
  unfold announceDeparture
  dsimp only
  (repeat' split) <;> simp

@[simp] theorem reacquire_pending (s : State) : (reacquire s).pending = s.pending := by simp [reacquire]
@[simp] theorem leaveCad_pending (s : State) : (leaveCad s).pending = s.pending := by simp [leaveCad, apply_ite State.pending]
@[simp] theorem changePeriod_pending (code : Nat) (s : State) : (changePeriod code s).pending = s.pending := by simp [changePeriod, apply_ite State.pending]
@[simp] theorem changeMode_pending (mode : Nat) (s : State) : (changeMode mode s).pending = s.pending := by simp [changeMode, apply_ite State.pending]
@[simp] theorem markBegins_pending (s : State) : (markBegins s).pending = s.pending := by simp [markBegins, apply_ite State.pending]

@[simp] theorem markTaken_pending (sound : Bool) (err : Int) (s : State) : (markTaken sound err s).pending = s.pending := by
  unfold markTaken
  dsimp only
  (repeat' split) <;> simp

@[simp] theorem beatMark_pending (spacingOk : Bool) (arrival : Int) (s : State) : (beatMark spacingOk arrival s).pending = s.pending := by
  unfold beatMark
  dsimp only
  (repeat' split) <;> simp

@[simp] theorem beatNumber_pending (source : Nat) (b : Bytes) (s : State) : (beatNumber source b s).pending = s.pending := by
  unfold beatNumber
  dsimp only
  (repeat' split) <;> simp

@[simp] theorem moveInstant_pending (err : Int) (s : State) : (moveInstant err s).pending = s.pending := by rfl

/-! ### Rail requests -/

@[simp] theorem requestRail_pending (r mV : Nat) (s : State) : (requestRail r mV s).pending = s.pending := by rfl
@[simp] theorem raiseRails_pending (mV : Nat) (s : State) : (raiseRails mV s).pending = s.pending := by simp [raiseRails, apply_ite State.pending]
@[simp] theorem lowerRails_pending (mV : Nat) (s : State) : (lowerRails mV s).pending = s.pending := by simp [lowerRails, apply_ite State.pending]
@[simp] theorem dormantRails_pending (s : State) : (dormantRails s).pending = s.pending := by simp [dormantRails]
@[simp] theorem wakeRails_pending (s : State) : (wakeRails s).pending = s.pending := by simp [wakeRails]

/-! ### The Byte and Constraint Unit -/

theorem compileSet_pending {c : ConSet} {x : Session} {i : Nat} {s t : State} (h : compileSet c x s = some (i, t)) : t.pending = s.pending :=
  eq_of_aside offSlots State.pending (fun _ => rfl) (compileSet_keeps h).2

/-! ### Page capsules -/

@[simp] theorem setFrameBytes_pending (part addr : Nat) (b : Bytes) (s : State) : (setFrameBytes part addr b s).pending = s.pending := by rfl
@[simp] theorem clearFrame_pending (part addr : Nat) (s : State) : (clearFrame part addr s).pending = s.pending := by rfl

/-! ### The Mover -/

@[simp] theorem addOp_pending (kind : MoverKind) (slot move codec grade buffer client dest : Nat) (s : State) :
    (addOp kind slot move codec grade buffer client dest s).pending = s.pending := by rfl

@[simp] theorem dropOps_pending (p : MoverOp → Bool) (s : State) : (dropOps p s).pending = s.pending := by rfl

@[simp] theorem demoteUntil_pending (need : Nat) (l : List Nat) (s : State) : (demoteUntil need l s).2.pending = s.pending :=
  eq_of_aside offOps State.pending (fun _ => rfl) (offOps_demoteUntil need l s)

theorem placePark_pending {slot space wake : Nat} {s : State} {r : Nat × State} (h : placePark slot space wake s = some r) :
    r.2.pending = s.pending :=
  eq_of_aside offOps State.pending (fun _ => rfl) (offOps_placePark (dest := r.1) (t := r.2) h)

theorem placeParkTo_queueStays (slot space wake : Nat) (s : State) : QueueStays s (((placePark slot space wake s).map (fun r => r.2)).getD s) := by
  cases h : placePark slot space wake s with
  | none => exact rfl
  | some r => exact placePark_pending h

@[simp] theorem demoteLow_pending (s : State) : (demoteLow s).pending = s.pending := by simp [demoteLow, apply_ite State.pending]
@[simp] theorem tryRevive_pending (slot : Nat) (s : State) : (tryRevive slot s).pending = s.pending := by simp [tryRevive, apply_ite State.pending]
@[simp] theorem prefetchTool_pending (slot : Nat) (s : State) : (prefetchTool slot s).pending = s.pending := by simp [prefetchTool, apply_ite State.pending]
@[simp] theorem addSlow_pending (client observed solo : Nat) (s : State) : (addSlow client observed solo s).pending = s.pending := by rfl

@[simp] theorem finishMover_pending (w : Work) (move : Nat) (a : Ans) (s : State) : (finishMover w move a s).pending = s.pending := by
  simp [finishMover, apply_ite State.pending]

@[simp] theorem parkPage_pending (slot grade dest : Nat) (p : Page) (s : State) : (parkPage slot grade dest p s).2.pending = s.pending := by
  unfold parkPage
  dsimp only
  (repeat' split) <;> simp

@[simp] theorem parkPagesAll_pending (slot grade dest : Nat) (l : List Page) (s : State) : (parkPagesAll slot grade dest l s).2.pending = s.pending := by
  induction l generalizing s with
  | nil => rfl
  | cons p rest ih =>
    rw [parkPagesAll]
    split
    · rw [ih, frameDue_pending]
    · exact (ih _).trans (parkPage_pending _ _ _ _ _)

@[simp] theorem commitPark_pending (o : MoverOp) (s : State) : (commitPark o s).pending = s.pending := by simp [commitPark, apply_ite State.pending]

@[simp] theorem revivePage_pending (slot : Nat) (p : Page) (s : State) : (revivePage slot p s).2.pending = s.pending := by
  unfold revivePage
  dsimp only
  (repeat' split) <;> simp

@[simp] theorem revivePagesAll_pending (slot : Nat) (l : List Page) (s : State) : (revivePagesAll slot l s).2.pending = s.pending := by
  induction l generalizing s with
  | nil => rfl
  | cons p rest ih => exact (ih _).trans (revivePage_pending _ _ _)

@[simp] theorem commitRevive_pending (o : MoverOp) (s : State) : (commitRevive o s).pending = s.pending := by simp [commitRevive, apply_ite State.pending]

@[simp] theorem commitShift_pending (o : MoverOp) (s : State) : (commitShift o s).pending = s.pending := by
  unfold commitShift
  extract_lets x fromTier t fr u
  have ht : t.pending = s.pending := by
    refine foldl_pending (fun s p => ?_) x.pages s
    split
    · rfl
    · split
      · rfl
      · split <;> simp [apply_ite State.pending]
  split
  · rw [setFlag_pending]
    exact ht
  · exact ht

@[simp] theorem commitPrivate_pending (o : MoverOp) (s : State) : (commitPrivate o s).pending = s.pending := by
  unfold commitPrivate
  dsimp only
  (repeat' split) <;> simp

/-! ### How commands in progress end -/

@[simp] theorem measureGenerate_pending (slot status : Nat) (s : State) : (measureGenerate slot status s).pending = s.pending := by
  unfold measureGenerate
  (repeat' split) <;> simp

@[simp] theorem parkAfterEnd_pending (slot wakeAfter : Nat) (s : State) : (parkAfterEnd slot wakeAfter s).pending = s.pending := by
  unfold parkAfterEnd
  extract_lets x wake g s1 s2 place s3 dest b
  have h2 : QueueStays s s2 := (setState_pending _ _ s1).trans (modSession_pending _ _ s)
  have h3 : QueueStays s2 s3 := by
    unfold s3
    cases h : place with
    | none => exact setFlag_pending _ _ _
    | some r => exact placePark_pending h
  clear_value s3 s2
  exact (addOp_pending _ _ _ _ _ _ _ _ s3).trans (h2.trans h3)

@[simp] theorem endGeneration_pending (slot status detail : Nat) (park : Bool) (wakeAfter : Nat) (s : State) :
    (endGeneration slot status detail park wakeAfter s).pending = s.pending := by
  unfold endGeneration
  dsimp only
  (repeat' split) <;> simp

@[simp] theorem revertHandover_pending (slot : Nat) (tell : Bool) (a : Ans) (s : State) : (revertHandover slot tell a s).pending = s.pending := by
  unfold revertHandover
  dsimp only
  (repeat' split) <;> simp

@[simp] theorem freeTarget_pending (slot : Nat) (s : State) : (freeTarget slot s).pending = s.pending := by simp [freeTarget]
@[simp] theorem endMoverWork_pending (slot : Nat) (a : Ans) (s : State) : (endMoverWork slot a s).pending = s.pending := by simp [endMoverWork, apply_ite State.pending]
@[simp] theorem preemptGenerate_pending (slot : Nat) (s : State) : (preemptGenerate slot s).pending = s.pending := by simp [preemptGenerate, apply_ite State.pending]

@[simp] theorem preemptCommand_pending (c : Command) (s : State) : (preemptCommand c s).pending = s.pending := by
  unfold preemptCommand
  (repeat' split) <;> simp

@[simp] theorem beginPreempt_pending (n : Nat) (s : State) : (beginPreempt n s).pending = s.pending := by simp [beginPreempt]
@[simp] theorem endPreempt_pending (n : Nat) (s : State) : (endPreempt n s).pending = s.pending := by simp [endPreempt, apply_ite State.pending]

end Sys2Proof.Machine
end

section
/-! SUPPORT for O4. What leaves the queue of commands as it was, second part: packets, settings, commands and session rows. -/

namespace Sys2Proof.Machine

/-! ### Serving a packet -/

@[simp] theorem forwardTo_pending (dest : Nat) (p : Packet) (data : Bytes) (s : State) : (forwardTo dest p data s).pending = s.pending := by
  simp [forwardTo, apply_ite State.pending]

/-- A packet row leaves waiting the commands that its body leaves waiting. -/
theorem serveHost_pending {data : Bytes} {is : Packet → Bool} {waits : Packet → State → Bool} {body : Nat → Packet → State → State} {p : Packet} {s : State}
    (hb : ∀ c t, (body c p t).pending = t.pending) : (serveHost data is waits body p s).pending = s.pending :=
  serveHost_view State.pending (fun _ _ h => eq_of_aside offServing State.pending (fun _ => rfl) h) hb

@[simp] theorem replyOpen_pending (p : Packet) (status : Nat) (s : State) : (replyOpen p status s).pending = s.pending := by simp [replyOpen]

/-! ### Settings -/

/-- Each state that the outcome of a setting carries has a property. -/
def SetOut.All (P : State → Prop) : SetOut → Prop
  | .done s => P s
  | .refused _ => True
  | .waiting _ s => P s

@[simp] theorem SetOut.all_done (P : State → Prop) (s : State) : (SetOut.done s).All P ↔ P s := Iff.rfl
@[simp] theorem SetOut.all_refused (P : State → Prop) (a : Ans) : (SetOut.refused a).All P := trivial

@[simp] theorem SetOut.all_ite {P : State → Prop} {c : Prop} [Decidable c] {a b : SetOut} (ha : a.All P) (hb : b.All P) : (if c then a else b).All P := by
  split
  · exact ha
  · exact hb

@[simp] theorem applyDue_pending (id v : Nat) (s : State) : (applyDue id v s).pending = s.pending := by
  unfold applyDue
  split <;> simp

@[simp] theorem setDue_pending (id v : Nat) (s : State) : (setDue id v s).pending = s.pending := by
  unfold setDue
  split <;> simp

@[simp] theorem changeDevice_pending (d : DevState) (s : State) : (changeDevice d s).pending = s.pending := by
  unfold changeDevice
  dsimp only
  (repeat' split) <;> simp

theorem setRun_pending (n v : Nat) (s : State) : (setRun n v s).All (fun t => t.pending = s.pending) := by
  unfold setRun
  dsimp only
  (repeat' split) <;> simp [SetOut.All]

theorem setQueue_pending (n scan seq replyAt replyCount : Nat) (s : State) : (setQueue n scan seq replyAt replyCount s).All (fun t => t.pending = s.pending) :=
  SetOut.all_ite trivial rfl

theorem setMeterItem_pending (n item v : Nat) (s : State) : (setMeterItem n item v s).All (fun t => t.pending = s.pending) :=
  SetOut.all_ite trivial rfl

theorem setClient_pending (n item v : Nat) (s : State) : (setClient n item v s).All (fun t => t.pending = s.pending) :=
  SetOut.all_ite (setRun_pending _ _ _) (SetOut.all_ite (setQueue_pending _ _ _ _ _ _) (SetOut.all_ite (setMeterItem_pending _ _ _ _) trivial))

theorem inRange_pending {lo hi v : Nat} {f : State → State} {s : State} (hf : (f s).pending = s.pending) :
    (inRange lo hi v f s).All (fun t => t.pending = s.pending) :=
  SetOut.all_ite hf trivial

theorem setCad_pending (id v : Nat) (s : State) : (setCad id v s).All (fun t => t.pending = s.pending) := by
  unfold setCad
  (repeat' split) <;> simp [inRange_pending]

@[simp] theorem modSet_pending (f : TierSet → TierSet) (s : State) : (modSet f s).pending = s.pending := by rfl

theorem setTier_pending (id v : Nat) (s : State) : (setTier id v s).All (fun t => t.pending = s.pending) := by
  unfold setTier
  (repeat' split) <;> simp [inRange_pending]

theorem setHost_pending (id v : Nat) (s : State) : (setHost id v s).All (fun t => t.pending = s.pending) := by
  unfold setHost
  (repeat' split) <;> simp [inRange_pending]

theorem setEntry_pending (id v : Nat) (s : State) : (setEntry id v s).All (fun t => t.pending = s.pending) :=
  SetOut.all_ite trivial (SetOut.all_ite (setClient_pending _ _ _ _) (SetOut.all_ite (setCad_pending _ _ _)
    (SetOut.all_ite (setTier_pending _ _ _) (setHost_pending _ _ _))))

@[simp] theorem runSettings_pending (o : Origin) (p : Packet) (fuel k : Nat) (s : State) : (runSettings o p fuel k s).pending = s.pending := by
  induction fuel generalizing k s with
  | zero => exact replyTo_pending _ _ _ _
  | succ fuel ih =>
    have he := setEntry_pending (paramOf p (0x20 + 24 * k) 4) (paramOf p (0x20 + 24 * k + 8) 16) s
    rw [runSettings_succ]
    revert he
    generalize setEntry _ _ s = out
    intro he
    cases out with
    | done t => exact (ih _ _).trans he
    | refused a =>
      rw [settingTaken]
      split <;> exact replyTo_pending _ _ _ _
    | waiting n t => exact he

@[simp] theorem setParamBody_pending (c : Nat) (p : Packet) (s : State) : (setParamBody c p s).pending = s.pending := by simp [setParamBody, apply_ite State.pending]

@[simp] theorem completePreemption_pending (n : Nat) (s : State) : (completePreemption n s).pending = s.pending := by
  unfold completePreemption
  split
  · refine (foldl_pending (fun s r => ?_) _ _).trans (endPreempt_pending n s)
    split
    · rfl
    · exact runSettings_pending _ _ _ _ _
  · rfl

@[simp] theorem getParamBody_pending (c : Nat) (p : Packet) (s : State) : (getParamBody c p s).pending = s.pending := by
  unfold getParamBody
  dsimp only
  (repeat' split) <;> simp

/-! ### The commands that read -/

@[simp] theorem queryDeviceBody_pending (c : Nat) (p : Packet) (s : State) : (queryDeviceBody c p s).pending = s.pending := by
  simp [queryDeviceBody, apply_ite State.pending]

@[simp] theorem statsBody_pending (c : Nat) (p : Packet) (s : State) : (statsBody c p s).pending = s.pending := by
  unfold statsBody
  dsimp only
  (repeat' split) <;> simp

@[simp] theorem snapshotBody_pending (c : Nat) (p : Packet) (s : State) : (snapshotBody c p s).pending = s.pending := by simp [snapshotBody, apply_ite State.pending]

/-! ### The checks of a schedule image -/

@[simp] theorem withRole_pending (s : State) (role : Image) : (withRole s role).pending = s.pending := by
  unfold withRole
  refine foldl_pending (fun s x => ?_) _ _
  (repeat' split) <;> simp

/-! ### Staged objects -/

theorem takePiece_pending (key base : Nat) (p : Packet) (s : State) : (takePiece key base p s).All (fun t => t.pending = s.pending) := by
  unfold takePiece
  dsimp only
  (repeat' split) <;> rfl

@[simp] theorem dropStaging_pending (key : Nat) (s : State) : (dropStaging key s).pending = s.pending := by rfl

@[simp] theorem finishModel_pending (m : Nat) (p : Packet) (piece : ModelPiece) (s : State) : (finishModel m p piece s).pending = s.pending := by
  simp [finishModel, apply_ite State.pending]

@[simp] theorem modelStageBody_pending (piece : ModelPiece) (c : Nat) (p : Packet) (s : State) : (modelStageBody piece c p s).pending = s.pending := by
  have h := takePiece_pending (modelKey (argOf p 20 1)) 0x20 p s
  unfold modelStageBody
  dsimp only
  (repeat' split) <;> simp_all [PieceOut.All]

@[simp] theorem modelUnloadBody_pending (c : Nat) (p : Packet) (s : State) : (modelUnloadBody c p s).pending = s.pending := by
  simp [modelUnloadBody, apply_ite State.pending]

@[simp] theorem partitionBody_pending (c : Nat) (p : Packet) (s : State) : (partitionBody c p s).pending = s.pending := by
  unfold partitionBody
  dsimp only
  (repeat' split) <;> simp

@[simp] theorem sendReady_pending (img : Image) (at_ : Nat) (s : State) : (sendReady img at_ s).pending = s.pending := by simp [sendReady, apply_ite State.pending]

@[simp] theorem loadSchedule_pending (p : Packet) (kind : Nat) (obj : Bytes) (s : State) : (loadSchedule p kind obj s).pending = s.pending := by
  unfold loadSchedule
  dsimp only
  (repeat' split) <;> simp

@[simp] theorem scheduleBody_pending (obj : Bytes) (c : Nat) (p : Packet) (s : State) : (scheduleBody obj c p s).pending = s.pending := by
  have h := takePiece_pending (0x1300 + argOf p 20 1) 0x30 p s
  unfold scheduleBody
  dsimp only
  (repeat' split) <;> simp_all [PieceOut.All]

@[simp] theorem loadVocab_pending (idx : Nat) (v : VocabImage) (p : Packet) (s : State) : (loadVocab idx v p s).pending = s.pending := by
  unfold loadVocab
  (repeat' split) <;> simp

@[simp] theorem vocabBody_pending (obj : Bytes) (c : Nat) (p : Packet) (s : State) : (vocabBody obj c p s).pending = s.pending := by
  have h := takePiece_pending (0x1400 + argOf p 20 1) 0x20 p s
  unfold vocabBody
  dsimp only
  (repeat' split) <;> simp_all [PieceOut.All]

/-! ### The Block store -/

@[simp] theorem modStore_pending (i : Nat) (f : RegionStore → RegionStore) (s : State) : (modStore i f s).pending = s.pending := by rfl

@[simp] theorem writeRegion_pending (late : Bool) (i offset : Nat) (b : Bytes) (s : State) : (writeRegion late i offset b s).pending = s.pending := by
  unfold writeRegion
  (repeat' split) <;> simp

@[simp] theorem commitRegion_pending (slotId i offset : Nat) (b : Bytes) (s : State) : (commitRegion slotId i offset b s).pending = s.pending := by
  unfold commitRegion
  (repeat' split) <;> simp

@[simp] theorem dropKind_pending (kind slotId : Nat) (s : State) : (dropKind kind slotId s).pending = s.pending := by rfl
@[simp] theorem dropDead_pending (img : Image) (t : Nat) (s : State) : (dropDead img t s).pending = s.pending := by rfl

/-! ### The session commands that act at recognition -/

@[simp] theorem sessionCreated_pending (slot : Nat) (s : State) : (sessionCreated slot s).pending = s.pending := by simp [sessionCreated]

@[simp] theorem openBody_pending (c : Nat) (p : Packet) (s : State) : (openBody c p s).pending = s.pending := by
  unfold openBody
  dsimp only
  (repeat' split) <;> simp

@[simp] theorem shareAll_pending (x : Session) (s : State) : (shareAll x s).pending = s.pending := by simp [shareAll, apply_ite State.pending]

@[simp] theorem forkBody_pending (c : Nat) (p : Packet) (s : State) : (forkBody c p s).pending = s.pending := by
  unfold forkBody
  dsimp only
  (repeat' split) <;> simp

@[simp] theorem appendElems_pending (o : Origin) (slot kind : Nat) (elems : List Nat) (s : State) : (appendElems o slot kind elems s).pending = s.pending := by
  simp [appendElems, apply_ite State.pending]

@[simp] theorem appendBodyCmd_pending (buf : Bytes) (c : Nat) (p : Packet) (s : State) : (appendBodyCmd buf c p s).pending = s.pending := by
  unfold appendBodyCmd
  dsimp only
  (repeat' split) <;> simp

@[simp] theorem countPart_pending (part : Nat) (f : PartitionCounters → PartitionCounters) (s : State) : (countPart part f s).pending = s.pending := by
  unfold countPart
  split <;> simp

@[simp] theorem parkBody_pending (c : Nat) (p : Packet) (s : State) : (parkBody c p s).pending = s.pending := by
  unfold parkBody
  extract_lets slot x after wake g b codec
  split
  · simp
  · split
    · simp
    · split
      · simp
      · next h =>
        have ht := placePark_pending h
        split
        · simp
        · simpa using ht

@[simp] theorem reviveBody_pending (c : Nat) (p : Packet) (s : State) : (reviveBody c p s).pending = s.pending := by
  unfold reviveBody
  dsimp only
  (repeat' split) <;> simp

@[simp] theorem freeLost_pending (slot : Nat) (s : State) : (freeLost slot s).pending = s.pending := by simp [freeLost]
@[simp] theorem cancelBody_pending (c : Nat) (p : Packet) (s : State) : (cancelBody c p s).pending = s.pending := by simp [cancelBody, apply_ite State.pending]
@[simp] theorem endCopy_pending (slot : Nat) (s : State) : (endCopy slot s).pending = s.pending := by simp [endCopy]
@[simp] theorem closeSession_pending (slot : Nat) (s : State) : (closeSession slot s).pending = s.pending := by simp [closeSession]

@[simp] theorem closeBody_pending (c : Nat) (p : Packet) (s : State) : (closeBody c p s).pending = s.pending := by
  unfold closeBody
  dsimp only
  (repeat' split) <;> simp

@[simp] theorem queryBody_pending (c : Nat) (p : Packet) (s : State) : (queryBody c p s).pending = s.pending := by
  unfold queryBody
  dsimp only
  (repeat' split) <;> simp

@[simp] theorem applySet_pending (slot : Nat) (set : Option Nat) (s : State) : (applySet slot set s).pending = s.pending := by
  unfold applySet
  dsimp only
  (repeat' split) <;> simp

@[simp] theorem installSet_pending (slot : Nat) (set : Option Nat) (s : State) : (installSet slot set s).pending = s.pending := by
  unfold installSet
  dsimp only
  (repeat' split) <;> simp

@[simp] theorem constrainBody_pending (c : Nat) (p : Packet) (s : State) : (constrainBody c p s).pending = s.pending := by
  unfold constrainBody
  extract_lets slot x
  split
  · simp
  · split
    · simp
    · simp
    · split
      · simp
      · next h => simp [compileSet_pending h]

/-! ### Training -/

@[simp] theorem modAdapter_pending (key : Nat) (f : Adapter → Adapter) (s : State) : (modAdapter key f s).pending = s.pending := by rfl
@[simp] theorem turnAdapters_pending (s : State) : (turnAdapters s).pending = s.pending := by rfl

@[simp] theorem restoreAdapters_pending (part fuel : Nat) (b : Bytes) (s : State) : (restoreAdapters part fuel b s).pending = s.pending := by
  induction fuel generalizing b s with
  | zero => rfl
  | succ fuel ih =>
    unfold restoreAdapters
    split
    · rfl
    · exact (ih _ _).trans (modAdapter_pending _ _ _)

theorem takeFrames_pending (part : Nat) (keys : List Nat) (a : FMap Nat × State) : (takeFrames part keys a).2.pending = a.2.pending :=
  foldl_keeps (fun a : FMap Nat × State => a.2.pending) (fun _ _ => takeFrame_pending _ _) keys a

/-! ### Generations, exports and imports -/

@[simp] theorem withdrawPark_pending (slot : Nat) (s : State) : (withdrawPark slot s).pending = s.pending := by simp [withdrawPark]

@[simp] theorem admitGenerate_pending (p : Packet) (slot count : Nat) (s : State) : (admitGenerate p slot count s).pending = s.pending := by
  simp [admitGenerate, apply_ite State.pending]

@[simp] theorem generateBody_pending (c : Nat) (p : Packet) (s : State) : (generateBody c p s).pending = s.pending := by
  unfold generateBody
  dsimp only
  (repeat' split) <;> simp

@[simp] theorem takeScratch_pending (slot : Nat) (s : State) : (takeScratch slot s).pending = s.pending := by
  unfold takeScratch
  extract_lets x part a b
  rw [modSession_pending]
  exact (takeFrames_pending part _ _).trans (takeFrames_pending part _ _)

@[simp] theorem trainBody_pending (c : Nat) (p : Packet) (s : State) : (trainBody c p s).pending = s.pending := by
  unfold trainBody
  dsimp only
  (repeat' split) <;> simp

@[simp] theorem endTraining_pending (slot : Nat) (s : State) : (endTraining slot s).pending = s.pending := by
  unfold endTraining
  (repeat' split) <;> simp

@[simp] theorem exportBody_pending (c : Nat) (p : Packet) (s : State) : (exportBody c p s).pending = s.pending := by
  unfold exportBody
  dsimp only
  (repeat' split) <;> simp

@[simp] theorem commitExport_pending (o : MoverOp) (s : State) : (commitExport o s).pending = s.pending := by
  unfold commitExport
  dsimp only
  (repeat' split) <;> simp

@[simp] theorem importBody_pending (cap : SessionCapsule) (c : Nat) (p : Packet) (s : State) : (importBody cap c p s).pending = s.pending := by
  unfold importBody
  extract_lets -underBinder part
  split
  · simp
  · extract_lets -underBinder old x refusal
    clear_value refusal x old
    split
    · simp
    · split
      · simp
      · split
        · simp
        · extract_lets -underBinder fresh n place
          clear_value fresh
          split
          · simp
          · split
            · simp
            · split
              · simp
              · extract_lets -underBinder dest u t1 t2 t3
                have hu : QueueStays s u := placeParkTo_queueStays _ _ _ s
                clear_value u
                have h1 : QueueStays s t1 := by
                  unfold t1
                  split
                  · exact hu
                  · exact hu.trans ((putSession_pending _ _ _).trans (takeSlot_pending u))
                have h2 : QueueStays t1 t2 := modSession_pending _ _ t1
                have h3 : QueueStays t2 t3 := addOp_pending _ _ _ _ _ _ _ _ t2
                clear_value t3 t2 t1
                exact (accept_pending _ _ _).trans ((h1.trans h2).trans h3)

@[simp] theorem placeCapsule_pending (part dest : Nat) (g : Page) (b : Bytes) (s : State) : (placeCapsule part dest g b s).2.pending = s.pending := by
  unfold placeCapsule
  (repeat' split) <;> simp

@[simp] theorem placeCapsules_pending (part dest : Nat) (l : List Page) (bs : List Bytes) (s : State) : (placeCapsules part dest l bs s).2.pending = s.pending := by
  induction l generalizing bs s with
  | nil => rfl
  | cons p rest ih => exact (ih _ _).trans (placeCapsule_pending _ _ _ _ _)

@[simp] theorem commitImport_pending (o : MoverOp) (s : State) : (commitImport o s).pending = s.pending := by
  unfold commitImport
  dsimp only
  (repeat' split) <;> simp

end Sys2Proof.Machine
end

section
/-! SUPPORT for O4. What leaves the queue of commands as it was, third part: notices, the supply, the Fabric, commits and handovers. -/

namespace Sys2Proof.Machine

/-! ### Kills, notices, departures and fences -/

@[simp] theorem departRings_pending (rings : List Nat) (s : State) : (departRings rings s).pending = s.pending := by
  unfold departRings
  (repeat' split) <;> simp

@[simp] theorem deferMb_pending (part mb e : Nat) (s : State) : (deferMb part mb e s).pending = s.pending := by
  unfold deferMb
  split <;> simp

@[simp] theorem slipLater_pending (n : Notice) (s : State) : (slipLater n s).pending = s.pending := by rfl

@[simp] theorem voidRun_pending (x : SlotEntry) (ds : List Nat) (s : State) : (voidRun x ds s).pending = s.pending := by
  unfold voidRun
  refine foldl_pending (fun s x => ?_) _ _
  simp

@[simp] theorem runDefer_pending (n : Notice) (s : State) : (runDefer n s).pending = s.pending := by simp [runDefer]
@[simp] theorem settleDefers_pending (s : State) : (settleDefers s).pending = s.pending := by simp [settleDefers]
@[simp] theorem deferLater_pending (n : Notice) (s : State) : (deferLater n s).pending = s.pending := by simp [deferLater]

@[simp] theorem registerNotice_pending (n : Notice) (s : State) : (registerNotice n s).pending = s.pending := by
  unfold registerNotice
  dsimp only
  (repeat' split) <;> simp

@[simp] theorem sendNotice_pending (peers : List Nat) (n : Notice) (s : State) : (sendNotice peers n s).pending = s.pending :=
  (registerNotice_pending _ _).trans (foldl_pending (fun _ _ => send_pending _ _) _ s)

@[simp] theorem sendDefer_pending (x : SlotEntry) (run e : Nat) (s : State) : (sendDefer x run e s).pending = s.pending := by simp [sendDefer]

@[simp] theorem killRun_pending (id : Nat) (ds : List Nat) (s : State) : (killRun id ds s).pending = s.pending := by
  unfold killRun
  dsimp only
  (repeat' split) <;> simp

@[simp] theorem killSlot_pending (id : Nat) (s : State) : (killSlot id s).pending = s.pending := by simp [killSlot, apply_ite State.pending]
@[simp] theorem killCommand_pending (id district : Nat) (s : State) : (killCommand id district s).pending = s.pending := by simp [killCommand]
@[simp] theorem sendFallback_pending (planId e : Nat) (revert : Bool) (s : State) : (sendFallback planId e revert s).pending = s.pending := by simp [sendFallback]

@[simp] theorem linkDegraded_pending (kind l : Nat) (s : State) : (linkDegraded kind l s).pending = s.pending := by
  unfold linkDegraded
  dsimp only
  (repeat' split) <;> simp

@[simp] theorem blockPlan_pending (d b e : Nat) (s : State) : (blockPlan d b e s).pending = s.pending := by
  unfold blockPlan
  (repeat' split) <;> simp

@[simp] theorem wholeFence_pending (d b : Nat) (s : State) : (wholeFence d b s).pending = s.pending := by simp [wholeFence, apply_ite State.pending]

@[simp] theorem planWholeFence_pending (d b earliest : Nat) (s : State) : (planWholeFence d b earliest s).pending = s.pending := by
  unfold planWholeFence
  split <;> simp

@[simp] theorem loadStores_pending (d b : Nat) (cores : List Nat) (s : State) : (loadStores d b cores s).pending = s.pending := by
  unfold loadStores
  split <;> simp

@[simp] theorem wakeSpares_pending (d b : Nat) (s : State) : (wakeSpares d b s).pending = s.pending := by simp [wakeSpares]

@[simp] theorem swapCore_pending (d b : Nat) (f : Nat × Nat × Nat) (s : State) : (swapCore d b f s).pending = s.pending := by
  unfold swapCore
  dsimp only
  (repeat' split) <;> simp

@[simp] theorem swapBlock_pending (d b : Nat) (s : State) : (swapBlock d b s).pending = s.pending := by
  unfold swapBlock
  dsimp only
  (repeat' split) <;> simp

@[simp] theorem fenceCore_pending (d b core : Nat) (s : State) : (fenceCore d b core s).pending = s.pending := by simp [fenceCore, apply_ite State.pending]

@[simp] theorem residueMismatch_pending (unit logical slotId : Nat) (s : State) : (residueMismatch unit logical slotId s).pending = s.pending := by
  simp [residueMismatch, apply_ite State.pending]

@[simp] theorem uncorrRecord_pending (kind number addr : Nat) (s : State) : (uncorrRecord kind number addr s).pending = s.pending := by simp [uncorrRecord]

@[simp] theorem weightFail_pending (model chunk slotId : Nat) (secondBad : Bool) (s : State) : (weightFail model chunk slotId secondBad s).pending = s.pending := by
  simp [weightFail, apply_ite State.pending]

/-! ### Supply and device states -/

@[simp] theorem reading_pending (mV : Nat) (s : State) : (reading mV s).pending = s.pending := by rfl

@[simp] theorem killLanes_pending (s : State) : (killLanes s).pending = s.pending := by
  unfold killLanes
  split <;> simp

@[simp] theorem deferAll_pending (e : Nat) (s : State) : (deferAll e s).pending = s.pending :=
  eq_of_aside offNotice State.pending (fun _ => rfl) ((ByNotice.refl s).deferAll e).frame

@[simp] theorem enterReduced_pending (mV mA : Nat) (s : State) : (enterReduced mV mA s).pending = s.pending := by
  unfold enterReduced
  dsimp only
  (repeat' split) <;> simp

@[simp] theorem abandonDimm_pending (s : State) : (abandonDimm s).pending = s.pending := by rfl

@[simp] theorem departNow_pending (s : State) : (departNow s).pending = s.pending := by
  unfold departNow
  (repeat' split) <;> simp

@[simp] theorem enterStopping_pending (mV : Nat) (s : State) : (enterStopping mV s).pending = s.pending := by simp [enterStopping]
@[simp] theorem landProfile_pending (p : Nat) (s : State) : (landProfile p s).pending = s.pending := by simp [landProfile]

@[simp] theorem profileBody_pending (c : Nat) (p : Packet) (s : State) : (profileBody c p s).pending = s.pending := by
  unfold profileBody
  dsimp only
  (repeat' split) <;> simp

@[simp] theorem plazaRails_pending (s : State) : (plazaRails s).pending = s.pending := by
  unfold plazaRails
  (repeat' split) <;> simp

@[simp] theorem boundaryProfile_pending (s : State) : (boundaryProfile s).pending = s.pending := by
  unfold boundaryProfile
  (repeat' split) <;> simp

@[simp] theorem allDistricts_pending (pw : UnitPower) (s : State) : (allDistricts pw s).pending = s.pending := by
  unfold allDistricts
  refine foldl_pending (fun s x => ?_) _ _
  simp

@[simp] theorem abandonDevice_pending (s : State) : (abandonDevice s).pending = s.pending := by rfl

/-! ### The Plaza lane and the start of slots -/

@[simp] theorem ensurePage_pending (slot no : Nat) (spec : Bool) (s : State) : (ensurePage slot no spec s).pending = s.pending := by
  simp [ensurePage, apply_ite State.pending]

@[simp] theorem dropGuest_pending (h : Nat) (s : State) : (dropGuest h s).pending = s.pending := by rfl

@[simp] theorem guestPage_pending (part h no : Nat) (spec : Bool) (s : State) : (guestPage part h no spec s).pending = s.pending := by
  simp [guestPage, apply_ite State.pending]

@[simp] theorem enterPass_pending (slot n grant : Nat) (s : State) : (enterPass slot n grant s).pending = s.pending := by
  unfold enterPass
  dsimp only
  (repeat' split) <;> simp

@[simp] theorem emptyPlace_pending (h : Nat) (s : State) : (emptyPlace h s).pending = s.pending := by rfl

@[simp] theorem enterGuest_pending (part : Nat) (p : Place) (n : Nat) (s : State) : (enterGuest part p n s).pending = s.pending := by
  unfold enterGuest
  dsimp only
  (repeat' split) <;> simp

@[simp] theorem enterMember_pending (part : Nat) (p : Place) (s : State) : (enterMember part p s).pending = s.pending := by
  unfold enterMember
  (repeat' split) <;> simp

@[simp] theorem sealOne_pending (img : Image) (part : Nat) (s : State) : (sealOne img part s).pending = s.pending := by
  unfold sealOne
  dsimp only
  split
  · rfl
  · split
    · rfl
    · refine (foldl_pending (fun _ _ => foldl_pending (fun _ _ => send_pending _ _) _ _) _ _).trans (countPart_pending _ _ _)

@[simp] theorem sealAll_pending (s : State) : (sealAll s).pending = s.pending := by
  unfold sealAll
  split <;> simp

@[simp] theorem moveTails_pending (s : State) : (moveTails s).pending = s.pending := by simp [moveTails]
@[simp] theorem refreshHeaders_pending (s : State) : (refreshHeaders s).pending = s.pending := by rfl

/-! ### Layer commands -/

@[simp] theorem writePage_pending (q : Partition) (part h no offset : Nat) (b : Bytes) (s : State) : (writePage q part h no offset b s).pending = s.pending := by
  unfold writePage
  (repeat' split) <;> simp

@[simp] theorem guestWritePage_pending (part h no : Nat) (s : State) : (guestWritePage part h no s).pending = s.pending := by
  simp [guestWritePage, apply_ite State.pending]

@[simp] theorem releaseTile_pending (img : Image) (x : SlotEntry) (t : Nat) (w : TileWrite) (s : State) : (releaseTile img x t w s).pending = s.pending := by
  unfold releaseTile
  (repeat' split) <;> simp

@[simp] theorem releaseHand_pending (img : Image) (x : SlotEntry) (t : Nat) (h : HandOver) (s : State) : (releaseHand img x t h s).pending = s.pending := by
  simp [releaseHand, apply_ite State.pending]

@[simp] theorem saveStats_pending (part len : Nat) (j : OpJob) (pos m l : Nat) (s : State) : (saveStats part len j pos m l s).pending = s.pending := by
  unfold saveStats
  dsimp only
  (repeat' split) <;> simp

@[simp] theorem countOutputs_pending (x : SlotEntry) (c : LayerCommit) (k : OutCounts) (s : State) : (countOutputs x c k s).pending = s.pending := by
  simp [countOutputs, apply_ite State.pending]

@[simp] theorem endGuestTraining_pending (part : Nat) (s : State) : (endGuestTraining part s).pending = s.pending := by simp [endGuestTraining]
@[simp] theorem endUpdate_pending (x : SlotEntry) (s : State) : (endUpdate x s).pending = s.pending := by simp [endUpdate, apply_ite State.pending]

/-! ### Sampling commits -/

@[simp] theorem settlePages_pending (slot n : Nat) (s : State) : (settlePages slot n s).pending = s.pending := by simp [settlePages]
@[simp] theorem settleGuest_pending (h n : Nat) (sampled : Bool) (s : State) : (settleGuest h n sampled s).pending = s.pending := by simp [settleGuest]

@[simp] theorem commitReplay_pending (slot n : Nat) (r : Rebuild) (s : State) : (commitReplay slot n r s).pending = s.pending := by
  simp [commitReplay, apply_ite State.pending]

@[simp] theorem countDraw_pending (slot : Nat) (d : Draw) (verified : Nat) (s : State) : (countDraw slot d verified s).pending = s.pending := by
  simp [countDraw, apply_ite State.pending]

@[simp] theorem endAfter_pending (slot : Nat) (d : Draw) (s : State) : (endAfter slot d s).pending = s.pending := by
  unfold endAfter
  (repeat' split) <;> simp

@[simp] theorem refuseCommit_pending (slot : Nat) (s : State) : (refuseCommit slot s).pending = s.pending := by simp [refuseCommit]

@[simp] theorem commitServe_pending (slot n grant pieces step : Nat) (out : Option MemberOutput) (s : State) :
    (commitServe slot n grant pieces step out s).pending = s.pending := by
  unfold commitServe
  extract_lets x rows samples d0 nCol prefill cologne s1 s2 s3 s4 s5 y v
  have h2 : QueueStays s s2 := by simp [QueueStays, s2, s1, apply_ite State.pending]
  clear_value s2
  split
  · simp
  · split
    · simp [s5, s4, s3, apply_ite State.pending, show s2.pending = s.pending from h2]
    · simp [apply_ite State.pending, show s2.pending = s.pending from h2]

@[simp] theorem commitGuest_pending (p : Place) (n : Nat) (out : Option MemberOutput) (s : State) : (commitGuest p n out s).pending = s.pending := by
  unfold commitGuest
  (repeat' split) <;> simp

@[simp] theorem commitMember_pending (p : Place) (n step : Nat) (out : Option MemberOutput) (s : State) : (commitMember p n step out s).pending = s.pending := by
  unfold commitMember
  dsimp only
  (repeat' split) <;> simp

/-! ### Handovers -/

@[simp] theorem putHolder_pending (k : Nat) (x : Session) (s : State) : (putHolder k x s).pending = s.pending := by simp [putHolder, apply_ite State.pending]
@[simp] theorem modHolder_pending (k : Nat) (f : Session → Session) (s : State) : (modHolder k f s).pending = s.pending := by simp [modHolder]

@[simp] theorem adoptSet_pending (slot : Nat) (img : SessionImage) (s : State) : (adoptSet slot img s).pending = s.pending :=
  eq_of_aside offSlots State.pending (fun _ => rfl) (adoptSet_keeps slot img s).2

@[simp] theorem handoverOutBody_pending (c : Nat) (p : Packet) (s : State) : (handoverOutBody c p s).pending = s.pending := by
  unfold handoverOutBody
  dsimp only
  (repeat' split) <;> simp

@[simp] theorem ownPages_pending (peer : Nat) (l : List Page) (s : State) : (ownPages peer l s).2.pending = s.pending := by
  induction l generalizing s with
  | nil => rfl
  | cons p rest ih =>
    unfold ownPages
    split
    · exact ih s
    · refine (ih _).trans ?_
      split <;> simp

@[simp] theorem beginCopy_pending (k : Nat) (s : State) : (beginCopy k s).pending = s.pending := by simp [beginCopy]
@[simp] theorem nextCopy_pending (k : Nat) (s : State) : (nextCopy k s).pending = s.pending := by rfl
@[simp] theorem startCopy_pending (k : Nat) (s : State) : (startCopy k s).pending = s.pending := by rfl

@[simp] theorem startHandover_pending (slot newHandle : Nat) (s : State) : (startHandover slot newHandle s).pending = s.pending := by
  unfold startHandover
  extract_lets -underBinder x
  split
  · rfl
  · extract_lets -underBinder s1 near s2 r s3 tiles s4 s5
    have h1 : s1.pending = s.pending := by
      unfold s1
      split <;> simp
    split
    · simp [s3, r, s2, h1]
    · have h5 : s5.pending = s4.pending := by
        unfold s5
        split
        · rfl
        · exact foldl_pending (fun _ _ => send_pending _ _) _ _
      rw [startCopy_pending, h5]
      exact h1

@[simp] theorem sendTiles_pending (k : Nat) (s : State) : (sendTiles k s).pending = s.pending :=
  (modHolder_pending _ _ _).trans (foldl_pending (fun _ _ => send_pending _ _) _ s)

@[simp] theorem freezeSession_pending (slot : Nat) (s : State) : (freezeSession slot s).pending = s.pending := by simp [freezeSession, apply_ite State.pending]
@[simp] theorem tryFreeze_pending (k : Nat) (s : State) : (tryFreeze k s).pending = s.pending := by simp [tryFreeze, apply_ite State.pending]
@[simp] theorem freezeAll_pending (s : State) : (freezeAll s).pending = s.pending := by simp [freezeAll]
@[simp] theorem commitCopy_pending (o : MoverOp) (s : State) : (commitCopy o s).pending = s.pending := by simp [commitCopy, apply_ite State.pending]

@[simp] theorem commitFinal_pending (o : MoverOp) (s : State) : (commitFinal o s).pending = s.pending := by
  unfold commitFinal
  dsimp only
  (repeat' split) <;> simp

@[simp] theorem lendPages_pending (peer : Nat) (x : Session) (s : State) : (lendPages peer x s).pending = s.pending := by
  unfold lendPages
  refine foldl_pending (fun s x => ?_) _ _
  (repeat' split) <;> simp

@[simp] theorem confirmHandover_pending (slot newHandle : Nat) (s : State) : (confirmHandover slot newHandle s).pending = s.pending := by
  unfold confirmHandover
  dsimp only
  (repeat' split) <;> simp

@[simp] theorem revertOpen_pending (slot : Nat) (tell : Bool) (s : State) : (revertOpen slot tell s).pending = s.pending := by simp [revertOpen]
@[simp] theorem useGrant_pending (g : Nat × Nat × Nat) (s : State) : (useGrant g s).pending = s.pending := by rfl

@[simp] theorem settleTarget_pending (slot : Nat) (img : SessionImage) (pages : List Page) (s : State) : (settleTarget slot img pages s).pending = s.pending := by
  unfold settleTarget
  dsimp only
  (repeat' split) <;> simp

@[simp] theorem arrivedPages_pending (slot old : Nat) (l : List Page) (s : State) : (arrivedPages slot old l s).2.pending = s.pending := by
  induction l generalizing s with
  | nil => rfl
  | cons p rest ih =>
    refine (ih _).trans ?_
    split
    · rfl
    · split
      · rfl
      · exact takeFrame_pending _ _

@[simp] theorem ownedPages_pending (slot part : Nat) (l : List Page) (s : State) : (ownedPages slot part l s).2.pending = s.pending := by
  induction l generalizing s with
  | nil => rfl
  | cons p rest ih =>
    unfold ownedPages
    split
    · exact ih s
    · refine (ih _).trans ?_
      split <;> simp

@[simp] theorem handoverInBody_pending (c : Nat) (p : Packet) (s : State) : (handoverInBody c p s).pending = s.pending := by
  simp [handoverInBody, apply_ite State.pending]

end Sys2Proof.Machine
end

section
/-! SUPPORT for O4. What leaves the queue of commands as it was, fourth part: checkpoints, the Mover, the composition, security, firmware, links and service. -/

namespace Sys2Proof.Machine

/-! ### Checkpoints and restores -/

@[simp] theorem modCheckpoint_pending (part : Nat) (f : Checkpoint → Checkpoint) (s : State) : (modCheckpoint part f s).pending = s.pending := by rfl
@[simp] theorem releaseHolds_pending (s : State) : (releaseHolds s).pending = s.pending := by simp [releaseHolds]
@[simp] theorem endCheckpoint_pending (part : Nat) (s : State) : (endCheckpoint part s).pending = s.pending := by simp [endCheckpoint, apply_ite State.pending]

@[simp] theorem abandonCheckpoint_pending (part : Nat) (s : State) : (abandonCheckpoint part s).pending = s.pending := by
  unfold abandonCheckpoint
  split <;> simp

@[simp] theorem checkpointBody_pending (c : Nat) (p : Packet) (s : State) : (checkpointBody c p s).pending = s.pending := by
  unfold checkpointBody
  dsimp only
  (repeat' split) <;> simp

@[simp] theorem changeShards_pending (f : ShardSource → Option ShardSource) (s : State) : (changeShards f s).pending = s.pending := by rfl
@[simp] theorem spoilPage_pending (addr : Nat) (s : State) : (spoilPage addr s).pending = s.pending := by simp [spoilPage, apply_ite State.pending]
@[simp] theorem spoilLedger_pending (slot : Nat) (s : State) : (spoilLedger slot s).pending = s.pending := by simp [spoilLedger, apply_ite State.pending]

@[simp] theorem takeSnapshot_pending (c : Checkpoint) (s : State) : (takeSnapshot c s).pending = s.pending := by
  unfold takeSnapshot
  split <;> simp

@[simp] theorem dueSnapshots_pending (img : Image) (s : State) : (dueSnapshots img s).pending = s.pending := by simp [dueSnapshots]

@[simp] theorem shardBody_pending (c : Nat) (p : Packet) (s : State) : (shardBody c p s).pending = s.pending := by
  unfold shardBody
  dsimp only
  (repeat' split) <;> simp

@[simp] theorem closeShard_pending (part : Nat) (s : State) : (closeShard part s).pending = s.pending := by
  unfold closeShard
  dsimp only
  (repeat' split) <;> simp

@[simp] theorem commitShard_pending (o : MoverOp) (s : State) : (commitShard o s).pending = s.pending := by
  unfold commitShard
  dsimp only
  (repeat' split) <;> simp

@[simp] theorem restoreBody_pending (ms : List Manifest) (report : Nat) (shards : List Shard) (c : Nat) (p : Packet) (s : State) :
    (restoreBody ms report shards c p s).pending = s.pending := by
  unfold restoreBody
  dsimp only
  (repeat' split) <;> simp

@[simp] theorem modRestore_pending (part : Nat) (f : Restoring → Restoring) (s : State) : (modRestore part f s).pending = s.pending := by rfl
@[simp] theorem endRestore_pending (part : Nat) (a : Ans) (s : State) : (endRestore part a s).pending = s.pending := by simp [endRestore]

@[simp] theorem nextCandidate_pending (r : Restoring) (s : State) : (nextCandidate r s).pending = s.pending := by
  unfold nextCandidate
  dsimp only
  (repeat' split) <;> simp

@[simp] theorem restorePages_pending (part dest : Nat) (l : List Page) (bs : List Bytes) (seen : List (Nat × Nat)) (s : State) :
    (restorePages part dest l bs seen s).2.2.pending = s.pending := by
  induction l generalizing bs seen s with
  | nil => rfl
  | cons p rest ih =>
    unfold restorePages
    split
    · exact (ih _ _ _).trans (shareFrame_pending _ _)
    · exact (ih _ _ _).trans (placeCapsule_pending _ _ _ _ _)

theorem restoreRecord_pending (part dest client : Nat) (x : ShardRecord) (a : List (Nat × Nat) × List (Nat × Nat) × State) :
    (restoreRecord part dest client x a).2.2.pending = a.2.2.pending := by
  unfold restoreRecord
  extract_lets s b t r q
  split
  · split
    · rfl
    · extract_lets y d u v w h z
      have hr : QueueStays s r.2.2 := by
        unfold r
        split
        · exact takeSlot_pending s
        · exact (restorePages_pending _ _ _ _ _ _).trans (takeSlot_pending s)
      have hw : QueueStays s w := by simpa [QueueStays, w, v, u] using hr
      clear_value w
      change z.pending = _
      unfold z
      split
      · exact (enterRebuilding_pending _ _).trans hw
      · exact hw
  · exact restorePages_pending _ _ _ _ _ _

@[simp] theorem commitRestore_pending (r : Restoring) (s : State) : (commitRestore r s).pending = s.pending := by
  unfold commitRestore
  extract_lets -underBinder step
  split
  · simp
  · extract_lets -underBinder bytes dest a
    have ha : a.2.2.pending = s.pending :=
      foldl_keeps (fun a : List (Nat × Nat) × List (Nat × Nat) × State => a.2.2.pending) (fun _ _ => restoreRecord_pending _ _ _ _ _) _ _
    rw [modRestore_pending, restoreAdapters_pending, ha]

@[simp] theorem allDone_pending (part : Nat) (s : State) : (allDone part s).pending = s.pending := by
  unfold allDone
  dsimp only
  (repeat' split) <;> simp

@[simp] theorem shardToAll_pending (part type value step : Nat) (s : State) : (shardToAll part type value step s).pending = s.pending := by
  unfold shardToAll
  refine foldl_pending (fun s x => ?_) _ _
  simp

@[simp] theorem checkDones_pending (part : Nat) (s : State) : (checkDones part s).pending = s.pending := by
  unfold checkDones
  (repeat' split) <;> simp

@[simp] theorem applyCommit_pending (part value : Nat) (s : State) : (applyCommit part value s).pending = s.pending := by
  unfold applyCommit
  dsimp only
  (repeat' split) <;> simp

@[simp] theorem decide_pending (part : Nat) (s : State) : (decide_ part s).pending = s.pending := by
  unfold decide_
  (repeat' split) <;> simp

@[simp] theorem takeReport_pending (part position step value : Nat) (s : State) : (takeReport part position step value s).pending = s.pending := by
  unfold takeReport
  (repeat' split) <;> simp

@[simp] theorem shrinkBody_pending (c : Nat) (p : Packet) (s : State) : (shrinkBody c p s).pending = s.pending := by
  unfold shrinkBody
  dsimp only
  (repeat' split) <;> simp

/-! ### Mover slots -/

@[simp] theorem askLenders_pending (slot : Nat) (s : State) : (askLenders slot s).pending = s.pending := by
  unfold askLenders
  refine foldl_pending (fun s x => ?_) _ _
  (repeat' split) <;> simp

@[simp] theorem beginOp_pending (o : MoverOp) (s : State) : (beginOp o s).pending = s.pending := by simp [beginOp, apply_ite State.pending]

@[simp] theorem beginOps_pending (moveRoom codecRoom : Nat) (l : List MoverOp) (m c : Nat) (s : State) :
    (beginOps moveRoom codecRoom l m c s).pending = s.pending := by
  induction l generalizing m c s with
  | nil => rfl
  | cons o rest ih =>
    unfold beginOps
    split
    · exact ih _ _ _
    · split
      · exact (ih _ _ _).trans (beginOp_pending _ _)
      · rfl

@[simp] theorem queueEvacuation_pending (c : Nat) (s : State) : (queueEvacuation c s).pending = s.pending := by simp [queueEvacuation, apply_ite State.pending]

@[simp] theorem commitEvacuate_pending (o : MoverOp) (s : State) : (commitEvacuate o s).pending = s.pending := by
  unfold commitEvacuate
  dsimp only
  (repeat' split) <;> simp

@[simp] theorem badFrame_pending (addr : Nat) (s : State) : (badFrame addr s).pending = s.pending := by simp [badFrame]
@[simp] theorem badCapsule_pending (o : MoverOp) (addr : Nat) (s : State) : (badCapsule o addr s).pending = s.pending := by simp [badCapsule, apply_ite State.pending]

@[simp] theorem badBuffer_pending (o : MoverOp) (s : State) : (badBuffer o s).pending = s.pending := by
  unfold badBuffer
  dsimp only
  (repeat' split) <;> simp

@[simp] theorem lostLender_pending (o : MoverOp) (s : State) : (lostLender o s).pending = s.pending := by
  unfold lostLender
  dsimp only
  split
  · next r hr =>
    split at hr
    · exact placePark_pending hr
    · cases hr
  · rfl

@[simp] theorem commitKind_pending (o : MoverOp) (s : State) : (commitKind o s).pending = s.pending := by
  unfold commitKind
  dsimp only
  (repeat' split) <;> simp

@[simp] theorem commitOpOf_pending (o : MoverOp) (s : State) : (commitOpOf o s).pending = s.pending := by simp [commitOpOf]

@[simp] theorem endOp_pending (results : List MoverResult) (id : Nat) (s : State) : (endOp results id s).pending = s.pending := by
  unfold endOp
  dsimp only
  (repeat' split) <;> simp

/-! ### Composition maps -/

@[simp] theorem modLink_pending (l : Nat) (f : Link → Link) (s : State) : (modLink l f s).pending = s.pending := by rfl
@[simp] theorem mapMismatch_pending (l : Nat) (s : State) : (mapMismatch l s).pending = s.pending := by simp [mapMismatch]

@[simp] theorem compositionBody_pending (buf : Bytes) (c : Nat) (p : Packet) (s : State) : (compositionBody buf c p s).pending = s.pending := by
  unfold compositionBody
  dsimp only
  (repeat' split) <;> simp

@[simp] theorem lenderLost_pending (m : Nat) (s : State) : (lenderLost m s).pending = s.pending := by simp [lenderLost, apply_ite State.pending]
@[simp] theorem borrowerLost_pending (m : Nat) (s : State) : (borrowerLost m s).pending = s.pending := by rfl
@[simp] theorem memberGone_pending (m : Nat) (s : State) : (memberGone m s).pending = s.pending := by simp [memberGone]
@[simp] theorem pullFrom_pending (m : Nat) (s : State) : (pullFrom m s).pending = s.pending := by simp [pullFrom, apply_ite State.pending]
@[simp] theorem pullLeaving_pending (s : State) : (pullLeaving s).pending = s.pending := by simp [pullLeaving]
@[simp] theorem applyMap_pending (m : CompMap) (at_ : Nat) (s : State) : (applyMap m at_ s).pending = s.pending := by simp [applyMap]
@[simp] theorem leaveComposition_pending (s : State) : (leaveComposition s).pending = s.pending := by simp [leaveComposition, apply_ite State.pending]

@[simp] theorem sendDigests_pending (s : State) : (sendDigests s).pending = s.pending := by
  unfold sendDigests
  split
  · rfl
  · exact foldl_pending (fun _ _ => send_pending _ _) _ s

/-! ### Tenancy, keys, presence and custodial commands -/

@[simp] theorem keysRecord_pending (entries : Nat) (s : State) : (keysRecord entries s).pending = s.pending := by simp [keysRecord]
@[simp] theorem drawMemKeys_pending (s : State) : (drawMemKeys s).pending = s.pending := by rfl
@[simp] theorem replyMeasuring_pending (p : Packet) (s : State) : (replyMeasuring p s).pending = s.pending := by simp [replyMeasuring]
@[simp] theorem quoteBody_pending (c : Nat) (p : Packet) (s : State) : (quoteBody c p s).pending = s.pending := by simp [quoteBody, apply_ite State.pending]

@[simp] theorem bindBody_pending (buf : Bytes) (c : Nat) (p : Packet) (s : State) : (bindBody buf c p s).pending = s.pending := by
  unfold bindBody
  dsimp only
  (repeat' split) <;> simp

@[simp] theorem installKey_pending (suspended : Bool) (s : State) (e : KeyEntry) : (installKey suspended s e).pending = s.pending := by
  simp [installKey, apply_ite State.pending]

@[simp] theorem acceptBody_pending (m : KeyMessage) (c : Nat) (p : Packet) (s : State) : (acceptBody m c p s).pending = s.pending := by
  unfold acceptBody
  dsimp only
  (repeat' split) <;> simp

@[simp] theorem beginRelease_pending (s : State) : (beginRelease s).pending = s.pending := by simp [beginRelease, apply_ite State.pending]
@[simp] theorem releaseBody_pending (c : Nat) (p : Packet) (s : State) : (releaseBody c p s).pending = s.pending := by simp [releaseBody, apply_ite State.pending]
@[simp] theorem cancelAll_pending (s : State) : (cancelAll s).pending = s.pending := by simp [cancelAll]
@[simp] theorem freeAll_pending (s : State) : (freeAll s).pending = s.pending := by rfl
@[simp] theorem destroyKeys_pending (s : State) : (destroyKeys s).pending = s.pending := by rfl
@[simp] theorem scrub_pending (s : State) : (scrub s).pending = s.pending := by simp [scrub]
@[simp] theorem redactAll_pending (s : State) : (redactAll s).pending = s.pending := by simp [redactAll]
@[simp] theorem debugEffect_pending (v : Nat) (s : State) : (debugEffect v s).pending = s.pending := by rfl
@[simp] theorem identityEffect_pending (s : State) : (identityEffect s).pending = s.pending := by rfl
@[simp] theorem factoryEffect_pending (s : State) : (factoryEffect s).pending = s.pending := by rfl
@[simp] theorem custodialDone_pending (sub v : Nat) (s : State) : (custodialDone sub v s).pending = s.pending := by simp [custodialDone]
@[simp] theorem custodialAfter_pending (s : State) : (custodialAfter s).pending = s.pending := by simp [custodialAfter, apply_ite State.pending]
@[simp] theorem completeRelease_pending (s : State) : (completeRelease s).pending = s.pending := by simp [completeRelease, apply_ite State.pending]
@[simp] theorem cutStop_pending (s : State) : (cutStop s).pending = s.pending := by simp [cutStop, apply_ite State.pending]
@[simp] theorem openSeal_pending (s : State) : (openSeal s).pending = s.pending := by simp [openSeal]

theorem custodial_pending {effect : Nat → State → State} (he : ∀ v s, (effect v s).pending = s.pending) (sub limit : Nat) (releases : Bool) (c : Nat) (p : Packet)
    (s : State) : (custodial sub limit releases effect c p s).pending = s.pending := by
  unfold custodial
  dsimp only
  (repeat' split) <;> simp [he]

@[simp] theorem rollbackBody_pending (c : Nat) (p : Packet) (s : State) : (rollbackBody c p s).pending = s.pending := by
  unfold rollbackBody
  split
  · exact custodial_pending (fun _ _ => modSec_pending _ _) _ _ _ _ _ _
  · exact reply_pending _ _ _

@[simp] theorem overrideBody_pending (c : Nat) (p : Packet) (s : State) : (overrideBody c p s).pending = s.pending := by
  unfold overrideBody
  split
  · exact custodial_pending (fun _ _ => modSec_pending _ _) _ _ _ _ _ _
  · exact reply_pending _ _ _

/-! ### Firmware and calibration -/

@[simp] theorem storeUser_pending (i : Nat) (v : Int) (s : State) : (storeUser i v s).pending = s.pending := by rfl

@[simp] theorem calWriteBody_pending (verifies : Bool) (c : Nat) (p : Packet) (s : State) : (calWriteBody verifies c p s).pending = s.pending := by
  unfold calWriteBody
  dsimp only
  (repeat' split) <;> simp

@[simp] theorem calReadBody_pending (c : Nat) (p : Packet) (s : State) : (calReadBody c p s).pending = s.pending := by
  unfold calReadBody
  split <;> simp

@[simp] theorem holdSession_pending (s : State) (slot : Nat) : (holdSession s slot).pending = s.pending := by simp [holdSession, apply_ite State.pending]
@[simp] theorem holdSessions_pending (s : State) : (holdSessions s).pending = s.pending := by simp [holdSessions]

@[simp] theorem checkFirmware_pending (img : FirmwareImage) (total : Nat) (p : Packet) (s : State) : (checkFirmware img total p s).pending = s.pending := by
  simp [checkFirmware, apply_ite State.pending]

@[simp] theorem fwStageBody_pending (obj : FirmwareObject) (c : Nat) (p : Packet) (s : State) : (fwStageBody obj c p s).pending = s.pending := by
  have h := takePiece_pending fwKey 0x20 p s
  unfold fwStageBody
  dsimp only
  (repeat' split) <;> simp_all [PieceOut.All]

@[simp] theorem departFor_pending (at_ : Nat) (s : State) : (departFor at_ s).pending = s.pending := by simp [departFor, apply_ite State.pending]

@[simp] theorem scheduleActivation_pending (p : Packet) (img : FirmwareImage) (s : State) : (scheduleActivation p img s).pending = s.pending := by
  unfold scheduleActivation
  dsimp only
  (repeat' split) <;> simp

@[simp] theorem activateRecord_pending (old new : Digest) (s : State) : (activateRecord old new s).pending = s.pending := by simp [activateRecord]
@[simp] theorem purgeKeys_pending (s : State) : (purgeKeys s).pending = s.pending := by simp [purgeKeys]
@[simp] theorem runFirmware_pending (img : FirmwareImage) (s : State) : (runFirmware img s).pending = s.pending := by rfl
@[simp] theorem internalRecord_pending (opcode : Nat) (s : State) : (internalRecord opcode s).pending = s.pending := by simp [internalRecord]

/-! ### Link ports -/

@[simp] theorem enterLink_pending (l : Nat) (st : LinkState) (lanes : Nat) (s : State) : (enterLink l st lanes s).pending = s.pending := by simp [enterLink]
@[simp] theorem modFlow_pending (l : Nat) (f : LinkFlow → LinkFlow) (s : State) : (modFlow l f s).pending = s.pending := by rfl
@[simp] theorem queueWord_pending (l : Nat) (w : ControlWord) (s : State) : (queueWord l w s).pending = s.pending := by rfl
@[simp] theorem returnCredit_pending (l cls : Nat) (s : State) : (returnCredit l cls s).pending = s.pending := by simp [returnCredit, apply_ite State.pending]
@[simp] theorem queueFrame_pending (l : Nat) (q : Queued) (s : State) : (queueFrame l q s).pending = s.pending := by rfl

@[simp] theorem forwardFrame_pending (l : Nat) (f : LinkFrame) (s : State) : (forwardFrame l f s).pending = s.pending := by
  unfold forwardFrame
  split <;> simp

@[simp] theorem landPayload_pending (f : LinkFrame) (s : State) : (landPayload f s).pending = s.pending := by
  unfold landPayload
  split <;> simp

@[simp] theorem landSched_pending (l : Nat) (f : LinkFrame) (slack : Int) (s : State) : (landSched l f slack s).pending = s.pending := by
  simp [landSched, apply_ite State.pending]

@[simp] theorem takeFrameIn_pending (l : Nat) (f : LinkFrame) (slack : Int) (s : State) : (takeFrameIn l f slack s).pending = s.pending := by
  simp [takeFrameIn, apply_ite State.pending]

@[simp] theorem reroute_pending (l : Nat) (s : State) : (reroute l s).pending = s.pending := by
  unfold reroute
  refine foldl_pending (fun s x => ?_) _ _
  (repeat' split) <;> simp

@[simp] theorem loseLink_pending (l : Nat) (s : State) : (loseLink l s).pending = s.pending := by simp [loseLink]
@[simp] theorem failLane_pending (l lane : Nat) (s : State) : (failLane l lane s).pending = s.pending := by simp [failLane, apply_ite State.pending]
@[simp] theorem widenLink_pending (l : Nat) (s : State) : (widenLink l s).pending = s.pending := by simp [widenLink]

@[simp] theorem revertPlan_pending (kind l : Nat) (img : Image) (s : State) : (revertPlan kind l img s).pending = s.pending := by
  unfold revertPlan
  (repeat' split) <;> simp

@[simp] theorem exchange_pending (l : Nat) (r : TrainResult) (s : State) : (exchange l r s).pending = s.pending := by simp [exchange, apply_ite State.pending]
@[simp] theorem takeNak_pending (l seq worstLane : Nat) (s : State) : (takeNak l seq worstLane s).pending = s.pending := by simp [takeNak, apply_ite State.pending]
@[simp] theorem takeAck_pending (l seq : Nat) (s : State) : (takeAck l seq s).pending = s.pending := by rfl

@[simp] theorem sendQueued_pending (l t cls : Nat) (q : Queued) (s : State) : (sendQueued l t cls q s).pending = s.pending := by
  unfold sendQueued
  (repeat' split) <;> simp

@[simp] theorem resendFrame_pending (l t : Nat) (g : LinkFrame) (s : State) : (resendFrame l t g s).pending = s.pending := by simp [resendFrame]
@[simp] theorem queueAll_pending (l : Nat) (fs : List LinkFrame) (s : State) : (queueAll l fs s).pending = s.pending := by simp [queueAll]

/-! ### Errors and repair in service -/

@[simp] theorem spareRecord_pending (stack channel : Nat) (s : State) : (spareRecord stack channel s).pending = s.pending := by simp [spareRecord]
@[simp] theorem badT1_pending (addr : Nat) (s : State) : (badT1 addr s).pending = s.pending := by simp [badT1]
@[simp] theorem loseHbm_pending (stack channel : Nat) (s : State) : (loseHbm stack channel s).pending = s.pending := by simp [loseHbm]

@[simp] theorem remapHbm_pending (stack : Nat) (s : State) : (remapHbm stack s).pending = s.pending := by
  unfold remapHbm
  split <;> simp

@[simp] theorem failHbm_pending (stack channel : Nat) (s : State) : (failHbm stack channel s).pending = s.pending := by simp [failHbm, apply_ite State.pending]

@[simp] theorem requestKill_pending (plain force : Bool) (test : Image → SlotEntry → Bool) (s : State) : (requestKill plain force test s).pending = s.pending := by
  unfold requestKill
  split <;> simp

@[simp] theorem fenceLane_pending (l lane : Nat) (restore : Bool) (s : State) : (fenceLane l lane restore s).pending = s.pending := by
  simp [fenceLane, apply_ite State.pending]

@[simp] theorem coreBody_pending (d b c : Nat) (force : Bool) (p : Packet) (s : State) : (coreBody d b c force p s).pending = s.pending := by
  simp [coreBody, apply_ite State.pending]

@[simp] theorem blockBody_pending (d b : Nat) (force : Bool) (p : Packet) (s : State) : (blockBody d b force p s).pending = s.pending := by
  simp [blockBody, apply_ite State.pending]

@[simp] theorem channelBody_pending (stack c : Nat) (force : Bool) (p : Packet) (s : State) : (channelBody stack c force p s).pending = s.pending := by
  simp [channelBody, apply_ite State.pending]

@[simp] theorem unitFenceBody_pending (c : Nat) (p : Packet) (s : State) : (unitFenceBody c p s).pending = s.pending := by simp [unitFenceBody, apply_ite State.pending]
@[simp] theorem dimmRecord_pending (c action : Nat) (s : State) : (dimmRecord c action s).pending = s.pending := by simp [dimmRecord]
@[simp] theorem completeEvacuation_pending (c : Nat) (s : State) : (completeEvacuation c s).pending = s.pending := by simp [completeEvacuation, apply_ite State.pending]
@[simp] theorem evacuateBody_pending (c : Nat) (p : Packet) (s : State) : (evacuateBody c p s).pending = s.pending := by simp [evacuateBody, apply_ite State.pending]
@[simp] theorem dimmBody_pending (c : Nat) (p : Packet) (s : State) : (dimmBody c p s).pending = s.pending := by simp [dimmBody, apply_ite State.pending]
@[simp] theorem dimmFails_pending (c : Nat) (s : State) : (dimmFails c s).pending = s.pending := by simp [dimmFails]

@[simp] theorem recallRuns_pending (slot first count : Nat) (s : State) : (recallRuns slot first count s).pending = s.pending := by
  simp [recallRuns, apply_ite State.pending]

@[simp] theorem rewriteCopy_pending (n : Nat) (second : Bool) (avoid : List Nat) (s : State) : (rewriteCopy n second avoid s).pending = s.pending := by
  unfold rewriteCopy
  split <;> simp

@[simp] theorem loseSegment_pending (n : Nat) (avoid : List Nat) (s : State) : (loseSegment n avoid s).pending = s.pending := by simp [loseSegment]
@[simp] theorem loseCopies_pending (c : Nat) (s : State) : (loseCopies c s).pending = s.pending := by simp [loseCopies, apply_ite State.pending]

@[simp] theorem channelLost_pending (c : Nat) (s : State) : (channelLost c s).pending = s.pending := by
  unfold channelLost
  extract_lets -underBinder d serving share frames lent s1 s2 s3 s4
  have h1 : s1.pending = s.pending := by
    unfold s1
    split <;> simp
  have h2 : s2.pending = s1.pending := foldl_pending (fun _ _ => send_pending _ _) _ _
  rw [finish_pending]
  exact h2.trans h1

@[simp] theorem takeRecalled_pending (e : Nat × Nat × Run × Bool) (s : State) : (takeRecalled e s).pending = s.pending := by
  unfold takeRecalled
  dsimp only
  (repeat' split) <;> simp

@[simp] theorem killPass_pending (slotId : Nat) (writer : SlotEntry) (s : State) : (killPass slotId writer s).pending = s.pending := by
  unfold killPass
  dsimp only
  (repeat' split) <;> simp

@[simp] theorem badRegion_pending (d b index slotId : Nat) (mirrorBad : Bool) (s : State) : (badRegion d b index slotId mirrorBad s).pending = s.pending := by
  unfold badRegion
  dsimp only
  (repeat' split) <;> simp

@[simp] theorem badTail_pending (slot : Nat) (s : State) : (badTail slot s).pending = s.pending := by simp [badTail, apply_ite State.pending]
@[simp] theorem restoreHeader_pending (slot : Nat) (s : State) : (restoreHeader slot s).pending = s.pending := by rfl

@[simp] theorem uncorrectable_pending (p : ErrorPlace) (s : State) : (uncorrectable p s).pending = s.pending := by
  unfold uncorrectable
  dsimp only
  (repeat' split) <;> simp

@[simp] theorem rejoinBlock_pending (d b : Nat) (s : State) : (rejoinBlock d b s).pending = s.pending := by rfl

/-! ### Power-on, resets and the loss of the host -/

@[simp] theorem openRecord_pending (sev : Nat) (s : State) : (openRecord sev s).pending = s.pending := by simp [openRecord]
@[simp] theorem bootState_pending (kind : Nat) (s : State) : (bootState kind s).pending = s.pending := by rfl
@[simp] theorem checkSeal_pending (closed : Bool) (s : State) : (checkSeal closed s).pending = s.pending := by simp [checkSeal, apply_ite State.pending]

@[simp] theorem romSelect_pending (slotAOk slotBOk factoryOk : Bool) (s : State) : (romSelect slotAOk slotBOk factoryOk s).pending = s.pending := by
  simp [romSelect, apply_ite State.pending]

@[simp] theorem deviceResetTo_pending (slotAOk slotBOk factoryOk : Bool) (s : State) : (deviceResetTo slotAOk slotBOk factoryOk s).pending = s.pending := by
  simp [deviceResetTo]

@[simp] theorem restoreSillage_pending (s : State) : (restoreSillage s).pending = s.pending := by simp [restoreSillage, apply_ite State.pending]
@[simp] theorem loadCalibration_pending (valid : Bool) (s : State) : (loadCalibration valid s).pending = s.pending := by simp [loadCalibration, apply_ite State.pending]

@[simp] theorem bootFence_pending (unit : Nat) (s : State) : (bootFence unit s).pending = s.pending := by
  unfold bootFence
  dsimp only
  (repeat' split) <;> simp

@[simp] theorem bootFenceBlock_pending (unit : Nat) (s : State) : (bootFenceBlock unit s).pending = s.pending := by rfl
@[simp] theorem reFence_pending (units : List (Nat × Nat)) (s : State) : (reFence units s).pending = s.pending := by simp [reFence, apply_ite State.pending]
@[simp] theorem bootRecords_pending (s : State) : (bootRecords s).pending = s.pending := by simp [bootRecords, apply_ite State.pending]
@[simp] theorem trainFailing_pending (s : State) (u : Nat × Nat) : (trainFailing s u).pending = s.pending := by simp [trainFailing, apply_ite State.pending]
@[simp] theorem loseHost_pending (cause : Nat) (s : State) : (loseHost cause s).pending = s.pending := by simp [loseHost, apply_ite State.pending]
@[simp] theorem recoverWith_pending (p : Packet) (img : FirmwareImage) (s : State) : (recoverWith p img s).pending = s.pending := by simp [recoverWith]

@[simp] theorem activateBody_pending (c : Nat) (p : Packet) (s : State) : (activateBody c p s).pending = s.pending := by
  unfold activateBody
  (repeat' split) <;> simp

/-! ### The register window -/

@[simp] theorem answerRead_pending (b : Bytes) (s : State) : (answerRead b s).pending = s.pending := by rfl

@[simp] theorem read4_pending (off : Nat) (s : State) : (read4 off s).2.pending = s.pending := by
  unfold read4
  (repeat' split) <;> simp

@[simp] theorem refuseWrite_pending (s : State) : (refuseWrite s).pending = s.pending := by simp [refuseWrite]
@[simp] theorem writeRegister_pending (off : Nat) (v : Nat) (s : State) : (writeRegister off v s).pending = s.pending := by simp [writeRegister, apply_ite State.pending]

/-! ### What ring members and homes send one another -/

/-- The body of a forwarded packet is one of the session commands' (12 R338). -/
theorem forwardedBody_pending {p : Packet} {buf : Bytes} {cap : Option SessionCapsule} {body : Nat → Packet → State → State}
    (hb : forwardedBody p buf cap = some body) {c : Nat} (s : State) : (body c p s).pending = s.pending := by
  unfold forwardedBody at hb
  split at hb
  · cases hb
    exact forkBody_pending _ _ _
  · cases hb
    exact appendBodyCmd_pending _ _ _ _
  · cases hb
    split
    · exact trainBody_pending _ _ _
    · exact generateBody_pending _ _ _
  · cases hb
    exact parkBody_pending _ _ _
  · cases hb
    exact reviveBody_pending _ _ _
  · cases hb
    exact cancelBody_pending _ _ _
  · cases hb
    exact closeBody_pending _ _ _
  · cases hb
    exact queryBody_pending _ _ _
  · cases hb
    exact constrainBody_pending _ _ _
  · cases hb
    exact exportBody_pending _ _ _
  · obtain ⟨_, -, rfl⟩ := Option.map_eq_some_iff.mp hb
    exact importBody_pending _ _ _ _
  · cases hb
    exact handoverOutBody_pending _ _ _
  · cases hb

@[simp] theorem dropRelayed_pending (e : Nat × Packet) (s : State) : (dropRelayed e s).pending = s.pending := by rfl

@[simp] theorem serveForwarded_pending (sender : Nat) (p : Packet) (buf : Bytes) (cap : Option SessionCapsule) (s : State) :
    (serveForwarded sender p buf cap s).pending = s.pending := by
  have hg := checkHandle_all (P := fun t => t.pending = s.pending) (p := p) (colour := 0) rfl
  unfold serveForwarded
  cases hv : checkHandle p 0 s with
  | wait => rfl
  | refuse t a =>
    rw [hv] at hg
    exact (dropRelayed_pending _ _).trans ((reply_pending _ _ _).trans hg)
  | forward dest t =>
    rw [hv] at hg
    exact (dropRelayed_pending _ _).trans ((forwardTo_pending _ _ _ _).trans hg)
  | run colour t =>
    rw [hv] at hg
    dsimp only
    split
    · exact hg
    · split
      · next hb => exact (dropRelayed_pending _ _).trans ((forwardedBody_pending hb t).trans hg)
      · exact (dropRelayed_pending _ _).trans ((reply_pending _ _ _).trans hg)

@[simp] theorem emptyPlaces_pending (h : Nat) (s : State) : (emptyPlaces h s).pending = s.pending := by rfl

@[simp] theorem nameDeparture_pending (member boundary : Nat) (rings : List Nat) (s : State) : (nameDeparture member boundary rings s).pending = s.pending := by
  unfold nameDeparture
  split <;> simp

/-! ### The step boundary -/

@[simp] theorem dropPages_pending (slot : Nat) (s : State) : (dropPages slot s).pending = s.pending := by simp [dropPages]
@[simp] theorem clearPartition_pending (part : Nat) (s : State) : (clearPartition part s).pending = s.pending := by simp [clearPartition]

@[simp] theorem rebuildHome_pending (slot : Nat) (s : State) : (rebuildHome slot s).pending = s.pending := by
  unfold rebuildHome
  dsimp only
  (repeat' split) <;> simp

@[simp] theorem departOrder1_pending (e : Nat × Nat × List Nat) (s : State) : (departOrder1 e s).pending = s.pending := by simp [departOrder1, apply_ite State.pending]

@[simp] theorem discardStaged_pending (r : RingSection) (member : Nat) (s : State) : (discardStaged r member s).pending = s.pending := by
  unfold discardStaged
  (repeat' split) <;> simp

@[simp] theorem putImage_pending (img : Image) (at_ : Nat) (s : State) : (putImage img at_ s).pending = s.pending :=
  putImage_view State.pending (fun _ => rfl) report_pending img at_ s

@[simp] theorem stagedDue_pending (s : State) : (stagedDue s).pending = s.pending := by
  unfold stagedDue
  dsimp only
  (repeat' split) <;> simp

@[simp] theorem applyFallback_pending (d : DueFallback) (s : State) : (applyFallback d s).pending = s.pending := by
  unfold applyFallback
  (repeat' split) <;> simp

@[simp] theorem fallbacksDue_pending (s : State) : (fallbacksDue s).pending = s.pending := by simp [fallbacksDue]
@[simp] theorem unitsBack_pending (s : State) : (unitsBack s).pending = s.pending := by simp [unitsBack, apply_ite State.pending]

@[simp] theorem departOrder3_pending (e : Nat × Nat × List Nat) (s : State) : (departOrder3 e s).pending = s.pending := by
  unfold departOrder3
  dsimp only
  refine foldl_pending (fun s x => ?_) _ _
  (repeat' split) <;> simp

@[simp] theorem departed_pending (s : State) : (departed s).pending = s.pending := by simp [departed, apply_ite State.pending]
@[simp] theorem order1_pending (img : Image) (s : State) : (order1 img s).pending = s.pending := by simp [order1]
@[simp] theorem order2_pending (s : State) : (order2 s).pending = s.pending := by simp [order2, apply_ite State.pending]
@[simp] theorem order3_pending (s : State) : (order3 s).pending = s.pending := by simp [order3]
@[simp] theorem order4_pending (s : State) : (order4 s).pending = s.pending := by simp [order4]

@[simp] theorem order5_pending (s : State) : (order5 s).pending = s.pending := by
  unfold order5
  (repeat' split) <;> simp

theorem unusedMover_queueStays (s : State) : QueueStays s { s with tier := { s.tier with moveUsed := 0, codecUsed := 0, opsDone := 0 } } := rfl

theorem demoteLow_queueStays (s : State) : QueueStays s (demoteLow s) := demoteLow_pending s

theorem reviveTools_queueStays (s : State) :
    QueueStays s ((waitingTools s).foldl (fun s slot => if (opOf s slot isRevive).isSome then s else tryRevive slot s) s) := by
  refine foldl_pending (fun s slot => ?_) _ s
  split
  · rfl
  · exact tryRevive_pending _ _

theorem evacuate_queueStays (evac : List Nat) (s : State) : QueueStays s (evac.foldl (fun s c => completeEvacuation c (queueEvacuation c s)) s) :=
  foldl_pending (fun _ _ => (completeEvacuation_pending _ _).trans (queueEvacuation_pending _ _)) evac s

theorem advertise_queueStays (s : State) :
    QueueStays s (if s.comp.inComp ∧ !(leavingMembers s).contains (ownIndex s) then send (.lenderAdvert (lendRoom s / 2 ^ 20)) s else s) := by
  split
  · exact send_pending _ s
  · exact rfl

/-- The parts of the order are put together as terms: unfolded together with the state's record they cost the kernel too much. -/
theorem order6_queueStays (s : State) : QueueStays s (order6 s) :=
  (unusedMover_queueStays s).trans ((demoteLow_queueStays _).trans ((reviveTools_queueStays _).trans ((evacuate_queueStays _ _).trans (advertise_queueStays _))))

@[simp] theorem order6_pending (s : State) : (order6 s).pending = s.pending := order6_queueStays s

@[simp] theorem slowPeriodEnd_pending (step : Nat) (s : State) : (slowPeriodEnd step s).pending = s.pending := by simp [slowPeriodEnd, apply_ite State.pending]
@[simp] theorem countStep_pending (img : Image) (s : State) : (countStep img s).pending = s.pending := by rfl
@[simp] theorem latchCounters_pending (s : State) : (latchCounters s).pending = s.pending := by rfl

@[simp] theorem measureStep_pending (s : State) : (measureStep s).pending = s.pending :=
  foldl_pending (fun s d => modDistrict_pending d _ (freeValue s).2) _ s

@[simp] theorem nextSets_pending (s : State) : (nextSets s).pending = s.pending := by
  unfold nextSets
  refine foldl_pending (fun s x => ?_) _ _
  (repeat' split) <;> simp [apply_ite State.pending]

@[simp] theorem rollStep_pending (s : State) : (rollStep s).pending = s.pending := by rfl

end Sys2Proof.Machine
end

section
/-! SUPPORT for O4. Each row goes on, and leaves the queue behind it. -/

namespace Sys2Proof.Machine

/-- The outcome goes on, with the commands that wait in a state. -/
def KeepsQueue (s : State) (o : Host.Outcome State Fault Refusal) : Prop := ∃ t, o = .next t ∧ t.pending = s.pending

@[simp] theorem keepsQueue_next {s t : State} : KeepsQueue s (.next t) ↔ t.pending = s.pending :=
  ⟨fun ⟨_, h, hp⟩ => Host.Outcome.next.inj h ▸ hp, fun hp => ⟨t, rfl, hp⟩⟩

theorem keepsQueue_serve {data : Bytes} {is : Packet → Bool} {waits : Packet → State → Bool} {body : Nat → Packet → State → State} {p : Packet} {s : State}
    (hb : ∀ c t, (body c p t).pending = t.pending) : KeepsQueue s (.next (serveHost data is waits body p s)) :=
  keepsQueue_next.mpr (serveHost_pending hb)

/-! ### The cadence rows -/

theorem execCadPeriodChange_keepsQueue {code : Nat} {s : State} : KeepsQueue s (execCadPeriodChange code s) := by simp [execCadPeriodChange, apply_ite State.pending]
theorem execCadModeChange_keepsQueue {mode : Nat} {s : State} : KeepsQueue s (execCadModeChange mode s) := by simp [execCadModeChange, apply_ite State.pending]
theorem execBeatMark_keepsQueue {spacingOk : Bool} {phaseErr : Int} {s : State} : KeepsQueue s (execBeatMark spacingOk phaseErr s) := by simp [execBeatMark]
theorem execBeatNumber_keepsQueue {source : Nat} {bytes : Bytes} {s : State} : KeepsQueue s (execBeatNumber source bytes s) := by simp [execBeatNumber]
theorem execNumLost_keepsQueue {s : State} : KeepsQueue s (execNumLost s) := by simp [execNumLost, apply_ite State.pending]
theorem execMarksAbsent_keepsQueue {s : State} : KeepsQueue s (execMarksAbsent s) := by simp [execMarksAbsent, apply_ite State.pending]
theorem execAcqFail_keepsQueue {s : State} : KeepsQueue s (execAcqFail s) := by simp [execAcqFail, apply_ite State.pending]
theorem execHoldLimit_keepsQueue {s : State} : KeepsQueue s (execHoldLimit s) := by simp [execHoldLimit, apply_ite State.pending]

theorem execBeatNumberSend_keepsQueue {s : State} : KeepsQueue s (execBeatNumberSend s) := by
  unfold execBeatNumberSend
  rw [keepsQueue_next]
  split
  · extract_lets b serial sent
    have h1 : QueueStays s serial := by
      unfold serial
      split
      · exact send_pending _ _
      · rfl
    have h2 : QueueStays serial sent := foldl_pending (fun _ _ => send_pending _ _) _ serial
    exact h1.trans h2
  · rfl

theorem execCadenceMarkSend_keepsQueue {s : State} : KeepsQueue s (execCadenceMarkSend s) := by
  unfold execCadenceMarkSend
  rw [keepsQueue_next]
  split
  · exact foldl_pending (fun _ _ => send_pending _ _) _ s
  · rfl

theorem execCadenceMark_keepsQueue {link beat phase : Nat} {s : State} : KeepsQueue s (execCadenceMark link beat phase s) := by
  simp [execCadenceMark, apply_ite State.pending]

theorem execXrefLost_keepsQueue {s : State} : KeepsQueue s (execXrefLost s) := by simp [execXrefLost, apply_ite State.pending]
theorem execXrefReturn_keepsQueue {s : State} : KeepsQueue s (execXrefReturn s) := by simp [execXrefReturn, apply_ite State.pending]

/-! ### The settings of SET_PARAM and GET_PARAM -/

/-- What stands after a register write that sets a parameter. -/
theorem landed_pending {o : SetOut} {s : State} (ho : o.All (fun t => t.pending = s.pending)) :
    (match o with | .done t => t | .refused _ => s | .waiting _ t => t).pending = s.pending := by
  cases o with
  | done t => exact ho
  | refused a => rfl
  | waiting n t => exact ho

theorem execDeviceStateRequest_keepsQueue {state : Nat} {s : State} : KeepsQueue s (execDeviceStateRequest state s) := by
  simp [execDeviceStateRequest, apply_ite State.pending]

theorem execCliRunPreempt_keepsQueue {n : Nat} {s : State} : KeepsQueue s (execCliRunPreempt n s) :=
  keepsQueue_next.mpr (landed_pending (setRun_pending _ _ _))

theorem execPreemptionComplete_keepsQueue {n : Nat} {s : State} : KeepsQueue s (execPreemptionComplete n s) := by simp [execPreemptionComplete]

theorem execCliRunResume_keepsQueue {n : Nat} {s : State} : KeepsQueue s (execCliRunResume n s) :=
  keepsQueue_next.mpr (landed_pending (setRun_pending _ _ _))

theorem execQueueStateWrite_keepsQueue {n scan seq replyAt replyCount : Nat} {s : State} : KeepsQueue s (execQueueStateWrite n scan seq replyAt replyCount s) :=
  keepsQueue_next.mpr (landed_pending (setQueue_pending _ _ _ _ _ _))

/-! ### Recognition, PAD, PING, QUERY_DEVICE, STATS_READ and EVENT_SNAPSHOT -/

theorem execPacketRecognise_keepsQueue {p : Packet} {s : State} : KeepsQueue s (execPacketRecognise p s) := by simp [execPacketRecognise]
theorem execPad_keepsQueue {p : Packet} {s : State} : KeepsQueue s (execPad p s) := by simp [execPad, apply_ite State.pending]

theorem execEventSnapshotDone_keepsQueue {s : State} : KeepsQueue s (execEventSnapshotDone s) := by
  unfold execEventSnapshotDone
  split <;> simp

/-! ### The session commands that act at recognition -/

theorem execTokenizeEnd_keepsQueue {slot : Nat} {s : State} : KeepsQueue s (execTokenizeEnd slot s) := by
  unfold execTokenizeEnd
  dsimp only
  (repeat' split) <;> simp

/-! ### Kills, schedule notices, deferrals, fallback plans, departures and fences -/

theorem execLateArrival_keepsQueue {link slotId transfer lateness : Nat} {s : State} : KeepsQueue s (execLateArrival link slotId transfer lateness s) := by
  simp [execLateArrival, apply_ite State.pending]

theorem execMprogError_keepsQueue {district block core slotId : Nat} {s : State} : KeepsQueue s (execMprogError district block core slotId s) := by
  simp [execMprogError, apply_ite State.pending]

theorem execWeightTagFail_keepsQueue {model chunk slotId : Nat} {s : State} : KeepsQueue s (execWeightTagFail model chunk slotId s) := by simp [execWeightTagFail]
theorem execSlipNotice_keepsQueue {n : Notice} {s : State} : KeepsQueue s (execSlipNotice n s) := by simp [execSlipNotice, apply_ite State.pending]

theorem execSlipApply_keepsQueue {partition : Nat} {s : State} : KeepsQueue s (execSlipApply partition s) := by
  unfold execSlipApply
  dsimp only
  (repeat' split) <;> simp

theorem execAbortNotice_keepsQueue {n : Notice} {s : State} : KeepsQueue s (execAbortNotice n s) := by simp [execAbortNotice, apply_ite State.pending]
theorem execDeferNotice_keepsQueue {n : Notice} {s : State} : KeepsQueue s (execDeferNotice n s) := by simp [execDeferNotice, apply_ite State.pending]
theorem execFallbackNotice_keepsQueue {n : Notice} {s : State} : KeepsQueue s (execFallbackNotice n s) := by simp [execFallbackNotice, apply_ite State.pending]

theorem execImageReady_keepsQueue {member ringId ringDigest activateAt : Nat} {s : State} : KeepsQueue s (execImageReady member ringId ringDigest activateAt s) := by
  simp [execImageReady]

/-! ### Supply states, rail requests, operating profiles and device states -/

theorem execSupplyWarn_keepsQueue {mV : Nat} {s : State} : KeepsQueue s (execSupplyWarn mV s) := by simp [execSupplyWarn, apply_ite State.pending]
theorem execSupplyNormal_keepsQueue {mV : Nat} {s : State} : KeepsQueue s (execSupplyNormal mV s) := by simp [execSupplyNormal]
theorem execReducedEntry_keepsQueue {mV mA : Nat} {s : State} : KeepsQueue s (execReducedEntry mV mA s) := by simp [execReducedEntry, apply_ite State.pending]
theorem execOvercurrent_keepsQueue {mV mA : Nat} {s : State} : KeepsQueue s (execOvercurrent mV mA s) := by simp [execOvercurrent, apply_ite State.pending]
theorem execReducedExit_keepsQueue {mV : Nat} {s : State} : KeepsQueue s (execReducedExit mV s) := by simp [execReducedExit, apply_ite State.pending]
theorem execRideLimit_keepsQueue {mV : Nat} {s : State} : KeepsQueue s (execRideLimit mV s) := by simp [execRideLimit, apply_ite State.pending]
theorem execSupplyStop_keepsQueue {mV : Nat} {s : State} : KeepsQueue s (execSupplyStop mV s) := by simp [execSupplyStop, apply_ite State.pending]
theorem execOvervolt_keepsQueue {mV : Nat} {s : State} : KeepsQueue s (execOvervolt mV s) := by simp [execOvervolt, apply_ite State.pending]

theorem execStopRecordClose_keepsQueue {s : State} : KeepsQueue s (execStopRecordClose s) := by
  unfold execStopRecordClose
  (repeat' split) <;> simp

theorem execStopRailsOff_keepsQueue {s : State} : KeepsQueue s (execStopRailsOff s) := by simp [execStopRailsOff, apply_ite State.pending]
theorem execStopComplete_keepsQueue {s : State} : KeepsQueue s (execStopComplete s) := by simp [execStopComplete, apply_ite State.pending]

theorem execAvsAck_keepsQueue {rail : Nat} {s : State} : KeepsQueue s (execAvsAck rail s) := by
  unfold execAvsAck
  dsimp only
  (repeat' split) <;> simp

theorem execAvsTimeout_keepsQueue {rail : Nat} {s : State} : KeepsQueue s (execAvsTimeout rail s) := by
  unfold execAvsTimeout
  dsimp only
  (repeat' split) <;> simp

theorem execUnitEntryPoint_keepsQueue {s : State} : KeepsQueue s (execUnitEntryPoint s) := by
  unfold execUnitEntryPoint
  dsimp only
  (repeat' split) <;> simp

theorem execUnitWakeLock_keepsQueue {s : State} : KeepsQueue s (execUnitWakeLock s) := by
  unfold execUnitWakeLock
  (repeat' split) <;> simp

theorem execDeviceStateDone_keepsQueue {s : State} : KeepsQueue s (execDeviceStateDone s) := by
  unfold execDeviceStateDone
  dsimp only
  (repeat' split) <;> simp

/-! ### The Plaza lane and the start of slots -/

theorem execSlotStart_keepsQueue {slotId : Nat} {s : State} : KeepsQueue s (execSlotStart slotId s) := by
  unfold execSlotStart
  split
  · next img x _ _ =>
    split
    · simp
    · extract_lets s1 _ s2 s3
      have h1 : QueueStays s s1 := (settleDefers_pending _).trans (passBeats_pending _ s)
      have h2 : QueueStays s1 s2 := dropDead_pending _ _ _
      have h3 : QueueStays s2 s3 := foldl_pending (fun s d => modDistrict_pending d _ s) _ s2
      have hq : s3.pending = s.pending := (h1.trans h2).trans h3
      clear_value s3
      split
      · simp [hq]
      · split
        · split
          · simpa using hq
          · exact keepsQueue_next.mpr ((foldl_pending (fun _ _ => enterMember_pending _ _ _) _ s3).trans hq)
        · simpa using hq
  · simp

theorem execPlazaLane_keepsQueue {s : State} : KeepsQueue s (execPlazaLane s) := by
  unfold execPlazaLane
  dsimp only
  (repeat' split) <;> simp

/-! ### Layer commands -/

theorem runSteps_pending (e : CmdEnv) (steps : List FabStep) (s : State) : (runSteps e steps s).st.pending = s.pending :=
  runSteps_view State.pending send_pending (fun _ _ => rfl) putSession_pending e steps s (fun _ _ _ _ => saveStats_pending)

theorem releaseAll_pending (e : CmdEnv) (c : LayerCommit) (w : CmdRun) : (releaseAll e c w).pending = w.st.pending := by
  unfold releaseAll
  extract_lets x s1 s2 s3 _ s4
  have h1 : QueueStays w.st s1 := foldl_pending (fun _ _ => releaseTile_pending _ _ _ _ _) c.writes w.st
  have h2 : QueueStays s1 s2 := foldl_pending (fun _ _ => releaseHand_pending _ _ _ _ _) c.hands s1
  have h3 : QueueStays s2 s3 := (modDistrict_pending _ _ _).trans (dropKind_pending _ _ _)
  have h4 : QueueStays s3 s4 := rfl
  rw [endUpdate_pending, countOutputs_pending]
  exact (h1.trans h2).trans (h3.trans h4)

theorem execCommitPoint_keepsQueue {c : LayerCommit} {s : State} : KeepsQueue s (execCommitPoint c s) := by
  unfold execCommitPoint
  extract_lets -underBinder s1
  have h1 : s1.pending = s.pending := settleDefers_pending s
  clear_value s1
  split
  · next img x _ _ =>
    split
    · simpa using h1
    · extract_lets -underBinder w
      have hw : w.st.pending = s.pending := (runSteps_pending _ _ s1).trans h1
      clear_value w
      split
      · simpa using h1
      · split
        · simpa using h1
        · exact keepsQueue_next.mpr ((releaseAll_pending _ _ w).trans hw)
  · simpa using h1

/-! ### What a sampling commit does to each member of its microbatch -/

theorem execSamplingCommit_keepsQueue {c : SamplingCommit} {s : State} : KeepsQueue s (execSamplingCommit c s) := by
  unfold execSamplingCommit
  dsimp only
  (repeat' split) <;> simp [apply_ite State.pending]

/-! ### Handovers -/

theorem execHoAnswer_keepsQueue {handle status newHandle : Nat} {s : State} : KeepsQueue s (execHoAnswer handle status newHandle s) := by
  unfold execHoAnswer
  dsimp only
  (repeat' split) <;> simp

theorem execCopyNotice_keepsQueue {n : SessionNotice} {s : State} : KeepsQueue s (execCopyNotice n s) := by
  unfold execCopyNotice
  dsimp only
  (repeat' split) <;> simp

theorem execHoConfirm_keepsQueue {handle newHandle epoch : Nat} {s : State} : KeepsQueue s (execHoConfirm handle newHandle epoch s) := by
  unfold execHoConfirm
  dsimp only
  (repeat' split) <;> simp

theorem execHoTimeout_keepsQueue {slot : Nat} {s : State} : KeepsQueue s (execHoTimeout slot s) := by
  unfold execHoTimeout
  (repeat' split) <;> simp

theorem execHoRequest_keepsQueue {r : HoRequest} {s : State} : KeepsQueue s (execHoRequest r s) := by
  unfold execHoRequest
  dsimp only
  (repeat' split) <;> simp

theorem execTiles_keepsQueue {newHandle pageNo tile : Nat} {bytes : Bytes} {s : State} : KeepsQueue s (execTiles newHandle pageNo tile bytes s) := by
  unfold execTiles
  dsimp only
  (repeat' split) <;> simp

theorem execHoFinal_keepsQueue {newHandle : Nat} {img : SessionImage} {s : State} : KeepsQueue s (execHoFinal newHandle img s) := by
  unfold execHoFinal
  split <;> simp

theorem execHoOwnership_keepsQueue {newHandle : Nat} {img : SessionImage} {s : State} : KeepsQueue s (execHoOwnership newHandle img s) := by
  unfold execHoOwnership
  split <;> simp

theorem execHoAbort_keepsQueue {handle newHandle status : Nat} {s : State} : KeepsQueue s (execHoAbort handle newHandle status s) := by
  unfold execHoAbort
  (repeat' split) <;> simp

theorem execHoTargetGrace_keepsQueue {slot : Nat} {s : State} : KeepsQueue s (execHoTargetGrace slot s) := by simp [execHoTargetGrace, apply_ite State.pending]

theorem execFreeTargetSlot_keepsQueue {n : SessionNotice} {s : State} : KeepsQueue s (execFreeTargetSlot n s) := by
  unfold execFreeTargetSlot
  split <;> simp

theorem execRemoteGraceEnd_keepsQueue {slot : Nat} {s : State} : KeepsQueue s (execRemoteGraceEnd slot s) := by simp [execRemoteGraceEnd, apply_ite State.pending]

/-! ### Checkpoints, restores and the arming of shrink plans -/

theorem execShardDigest_keepsQueue {m : ShardMsg} {s : State} : KeepsQueue s (execShardDigest m s) := by
  unfold execShardDigest
  (repeat' split) <;> simp

theorem execCkptHoldExpiry_keepsQueue {partition : Nat} {s : State} : KeepsQueue s (execCkptHoldExpiry partition s) := by
  simp [execCkptHoldExpiry, apply_ite State.pending]

theorem execRestoreStagingDone_keepsQueue {partition value : Nat} {s : State} : KeepsQueue s (execRestoreStagingDone partition value s) := by
  unfold execRestoreStagingDone
  dsimp only
  (repeat' split) <;> simp

theorem execShardReport_keepsQueue {m : ShardMsg} {s : State} : KeepsQueue s (execShardReport m s) := by simp [execShardReport, apply_ite State.pending]

theorem execShardCommit_keepsQueue {m : ShardMsg} {s : State} : KeepsQueue s (execShardCommit m s) := by
  unfold execShardCommit
  (repeat' split) <;> simp

theorem execShardDone_keepsQueue {m : ShardMsg} {s : State} : KeepsQueue s (execShardDone m s) := by
  unfold execShardDone
  (repeat' split) <;> simp

theorem execShardAllDone_keepsQueue {m : ShardMsg} {s : State} : KeepsQueue s (execShardAllDone m s) := by simp [execShardAllDone]

theorem execRestoreTimeout_keepsQueue {partition : Nat} {s : State} : KeepsQueue s (execRestoreTimeout partition s) := by
  unfold execRestoreTimeout
  (repeat' split) <;> simp

/-! ### Mover slots -/

theorem execMoverSlotStart_keepsQueue {slotId : Nat} {s : State} : KeepsQueue s (execMoverSlotStart slotId s) := by
  unfold execMoverSlotStart
  (repeat' split) <;> simp

theorem execMoverSlotEnd_keepsQueue {results : List MoverResult} {s : State} : KeepsQueue s (execMoverSlotEnd results s) := by
  unfold execMoverSlotEnd
  split <;> simp

theorem execHostReadCompletion_keepsQueue {op : Nat} {s : State} : KeepsQueue s (execHostReadCompletion op s) := by simp [execHostReadCompletion]
theorem execPrefetchPull_keepsQueue {slot : Nat} {s : State} : KeepsQueue s (execPrefetchPull slot s) := by simp [execPrefetchPull, apply_ite State.pending]
theorem execPrefetchRevive_keepsQueue {slot : Nat} {s : State} : KeepsQueue s (execPrefetchRevive slot s) := by simp [execPrefetchRevive, apply_ite State.pending]

theorem execLenderAdvert_keepsQueue {member freeMiB hops : Nat} {s : State} : KeepsQueue s (execLenderAdvert member freeMiB hops s) := by
  simp [execLenderAdvert, apply_ite State.pending]

theorem execCapsulePut_keepsQueue {borrower ref : Nat} {body : Bytes} {s : State} : KeepsQueue s (execCapsulePut borrower ref body s) := by
  simp [execCapsulePut, apply_ite State.pending]

theorem execCapsuleGet_keepsQueue {borrower ref : Nat} {s : State} : KeepsQueue s (execCapsuleGet borrower ref s) := by
  unfold execCapsuleGet
  split <;> simp

theorem execCapsuleData_keepsQueue {ref : Nat} {body : Bytes} {lender : Nat} {s : State} : KeepsQueue s (execCapsuleData ref body lender s) := by
  unfold execCapsuleData
  (repeat' split) <;> simp

theorem execCapsuleFree_keepsQueue {borrower ref : Nat} {s : State} : KeepsQueue s (execCapsuleFree borrower ref s) := by
  unfold execCapsuleFree
  split <;> simp

theorem execCapsuleLostNotice_keepsQueue {n : SessionNotice} {s : State} : KeepsQueue s (execCapsuleLostNotice n s) := by
  unfold execCapsuleLostNotice
  (repeat' split) <;> simp

/-! ### Composition maps -/

theorem execGraceEnd_keepsQueue {s : State} : KeepsQueue s (execGraceEnd s) := by
  unfold execGraceEnd
  (repeat' split) <;> simp

theorem execMapDigest_keepsQueue {link epoch : Nat} {digest : Digest} {s : State} : KeepsQueue s (execMapDigest link epoch digest s) := by
  simp [execMapDigest, apply_ite State.pending]

/-! ### Tenancy, quotes, key release, tenant release, presence, the seal and custodial commands -/

theorem execQuoteSigned_keepsQueue {quoteDigest : Digest} {s : State} : KeepsQueue s (execQuoteSigned quoteDigest s) := by
  unfold execQuoteSigned
  dsimp only
  (repeat' split) <;> simp

theorem execDecapKeyExpiry_keepsQueue {quoteDigest : Digest} {s : State} : KeepsQueue s (execDecapKeyExpiry quoteDigest s) := by simp [execDecapKeyExpiry]
theorem execAkCertified_keepsQueue {s : State} : KeepsQueue s (execAkCertified s) := by simp [execAkCertified, apply_ite State.pending]
theorem execTenantReleaseRun_keepsQueue {s : State} : KeepsQueue s (execTenantReleaseRun s) := by simp [execTenantReleaseRun, apply_ite State.pending]
theorem execHostHoldExpiry_keepsQueue {s : State} : KeepsQueue s (execHostHoldExpiry s) := by simp [execHostHoldExpiry, apply_ite State.pending]
theorem execPresence_keepsQueue {s : State} : KeepsQueue s (execPresence s) := by simp [execPresence, apply_ite State.pending]
theorem execPresenceWindowEnd_keepsQueue {s : State} : KeepsQueue s (execPresenceWindowEnd s) := by simp [execPresenceWindowEnd]
theorem execSealLoopClose_keepsQueue {s : State} : KeepsQueue s (execSealLoopClose s) := by simp [execSealLoopClose]
theorem execSealOpen_keepsQueue (s : State) : KeepsQueue s (execSealOpen s) := by simp [execSealOpen]

/-! ### Calibration commands -/

theorem execFwTakeover_keepsQueue {s : State} : KeepsQueue s (execFwTakeover s) := by
  unfold execFwTakeover
  (repeat' split) <;> simp

theorem execFwResume_keepsQueue {s : State} : KeepsQueue s (execFwResume s) := by
  unfold execFwResume
  dsimp only
  (repeat' split) <;> simp

theorem execFwActivateTimeout_keepsQueue {s : State} : KeepsQueue s (execFwActivateTimeout s) := by
  unfold execFwActivateTimeout
  (repeat' split) <;> simp

/-! ### Link ports -/

theorem execFrameReceive_keepsQueue {link : Nat} {bytes : Bytes} {consumeSlack : Int} {corrected uncorrectable : Nat} {s : State} :
    KeepsQueue s (execFrameReceive link bytes consumeSlack corrected uncorrectable s) := by
  unfold execFrameReceive
  dsimp only
  (repeat' split) <;> simp

theorem execLaneFail_keepsQueue {link lane : Nat} {s : State} : KeepsQueue s (execLaneFail link lane s) := by simp [execLaneFail, apply_ite State.pending]
theorem execRetrainDone_keepsQueue {link : Nat} {s : State} : KeepsQueue s (execRetrainDone link s) := by simp [execRetrainDone, apply_ite State.pending]
theorem execRetrainTimeout_keepsQueue {link : Nat} {s : State} : KeepsQueue s (execRetrainTimeout link s) := by simp [execRetrainTimeout, apply_ite State.pending]
theorem execHalfRetrain_keepsQueue (c : Nat) {s : State} : KeepsQueue s (execHalfRetrain c s) := by simp [execHalfRetrain]

theorem execLaneRepairDone_keepsQueue {link : Nat} {s : State} : KeepsQueue s (execLaneRepairDone link s) := by
  unfold execLaneRepairDone
  dsimp only
  (repeat' split) <;> simp

theorem execLinkSignalDetect_keepsQueue {link : Nat} {s : State} : KeepsQueue s (execLinkSignalDetect link s) := by simp [execLinkSignalDetect, apply_ite State.pending]
theorem execLinkTrainRetry_keepsQueue {link : Nat} {s : State} : KeepsQueue s (execLinkTrainRetry link s) := by simp [execLinkTrainRetry, apply_ite State.pending]
theorem execTrainFail_keepsQueue {link : Nat} {s : State} : KeepsQueue s (execTrainFail link s) := by simp [execTrainFail, apply_ite State.pending]

theorem execTrainingComplete_keepsQueue {link : Nat} {r : TrainResult} {s : State} : KeepsQueue s (execTrainingComplete link r s) := by
  unfold execTrainingComplete
  dsimp only
  (repeat' split) <;> simp

theorem execLinkPortReset_keepsQueue {link : Nat} {s : State} : KeepsQueue s (execLinkPortReset link s) := by simp [execLinkPortReset, apply_ite State.pending]

theorem execControlWord_keepsQueue {link : Nat} {w : ControlWord} {worstLane : Nat} {s : State} : KeepsQueue s (execControlWord link w worstLane s) := by
  unfold execControlWord
  (repeat' split) <;> simp

theorem execFrameTransmit_keepsQueue {link phase : Nat} {queued : List LinkFrame} {s : State} : KeepsQueue s (execFrameTransmit link phase queued s) := by
  unfold execFrameTransmit
  split
  · simp
  · extract_lets -underBinder t sp s1 s2 f
    have h1 : QueueStays s s1 := putFlow_pending _ _ s
    have h2 : QueueStays s1 s2 := queueAll_pending _ _ s1
    have hq : s2.pending = s.pending := h1.trans h2
    clear_value s2
    split
    · simpa using hq
    · split
      · exact keepsQueue_next.mpr ((foldl_pending (fun _ _ => send_pending _ _) _ _).trans ((putFlow_pending _ _ s2).trans hq))
      · split
        · simpa using hq
        · split
          · simpa using hq
          · extract_lets -underBinder list
            clear_value list
            split <;> simpa using hq

/-! ### Errors, fencing and repair in service -/

theorem execHbmSpareStart_keepsQueue {stack channel : Nat} {s : State} : KeepsQueue s (execHbmSpareStart stack channel s) := by
  simp [execHbmSpareStart, apply_ite State.pending]

theorem execHbmSpareCopyDone_keepsQueue {stack : Nat} {s : State} : KeepsQueue s (execHbmSpareCopyDone stack s) := by
  unfold execHbmSpareCopyDone
  dsimp only
  (repeat' split) <;> simp

theorem execDimmSpdRead_keepsQueue {channel sizeGiB : Nat} {ok : Bool} {s : State} : KeepsQueue s (execDimmSpdRead channel sizeGiB ok s) := by
  simp [execDimmSpdRead, apply_ite State.pending]

theorem execDimmTrainDone_keepsQueue {channel : Nat} {ok : Bool} {s : State} : KeepsQueue s (execDimmTrainDone channel ok s) := by
  unfold execDimmTrainDone
  dsimp only
  (repeat' split) <;> simp

theorem execDimmScrubDone_keepsQueue {channel : Nat} {s : State} : KeepsQueue s (execDimmScrubDone channel s) := by simp [execDimmScrubDone, apply_ite State.pending]

theorem execDdrControllerReset_keepsQueue {channel : Nat} {s : State} : KeepsQueue s (execDdrControllerReset channel s) := by
  simp [execDdrControllerReset, apply_ite State.pending]

theorem execDdrControllerRestartEnd_keepsQueue {channel : Nat} {inTime : Bool} {s : State} : KeepsQueue s (execDdrControllerRestartEnd channel inTime s) := by
  simp [execDdrControllerRestartEnd, apply_ite State.pending]

theorem execDdrPresenceChange_keepsQueue {channel : Nat} {present : Bool} {s : State} : KeepsQueue s (execDdrPresenceChange channel present s) := by
  simp [execDdrPresenceChange, apply_ite State.pending]

theorem execDdrPgRelease_keepsQueue {channel : Nat} {s : State} : KeepsQueue s (execDdrPgRelease channel s) := by simp [execDdrPgRelease, apply_ite State.pending]

theorem execRecallTailWrite_keepsQueue {v : Word64} {found : List (Nat × Nat × Run × Bool)} {s : State} : KeepsQueue s (execRecallTailWrite v found s) := by
  simp [execRecallTailWrite, apply_ite State.pending]

theorem execRecallTimeout_keepsQueue {slot : Nat} {s : State} : KeepsQueue s (execRecallTimeout slot s) := by
  unfold execRecallTimeout
  split <;> simp

theorem execUncorrectableError_keepsQueue {place : ErrorPlace} {s : State} : KeepsQueue s (execUncorrectableError place s) := by simp [execUncorrectableError]

theorem execCorrectableError_keepsQueue {memory row : Nat} {s : State} : KeepsQueue s (execCorrectableError memory row s) := by
  unfold execCorrectableError
  dsimp only
  (repeat' split) <;> simp

theorem execBlockPartialReset_keepsQueue {district block : Nat} {s : State} : KeepsQueue s (execBlockPartialReset district block s) := by
  unfold execBlockPartialReset
  dsimp only
  (repeat' split) <;> simp

theorem execBlockSelfTestDone_keepsQueue {district block : Nat} {pass : Bool} {s : State} : KeepsQueue s (execBlockSelfTestDone district block pass s) := by
  unfold execBlockSelfTestDone
  (repeat' split) <;> simp

/-! ### Power-on, the boot phases, resets of every kind, and the loss of the host -/

theorem execPowerOnQualified_keepsQueue {sealClosed slotAOk slotBOk factoryOk senseOpen : Bool} {s : State} :
    KeepsQueue s (execPowerOnQualified sealClosed slotAOk slotBOk factoryOk senseOpen s) := by
  simp [execPowerOnQualified, apply_ite State.pending]

theorem execDeviceReset_keepsQueue {slotAOk slotBOk factoryOk : Bool} {s : State} : KeepsQueue s (execDeviceReset slotAOk slotBOk factoryOk s) := by
  simp [execDeviceReset, apply_ite State.pending]

theorem execFirmwareStart_keepsQueue {calValid : Bool} {failingUnits : List (Nat × Nat)} {s : State} : KeepsQueue s (execFirmwareStart calValid failingUnits s) := by
  unfold execFirmwareStart
  dsimp only
  (repeat' split) <;> simp

theorem execTrainingDone_keepsQueue {t1MiB t2MiB : Nat} {ddrGiB : List (Nat × Nat)} {failing : List (Nat × Nat)} {s : State} :
    KeepsQueue s (execTrainingDone t1MiB t2MiB ddrGiB failing s) := by
  unfold execTrainingDone
  split <;> simp

theorem execThermtrip_keepsQueue (sensor : Nat) (s : State) : KeepsQueue s (execThermtrip sensor s) := by simp [execThermtrip]

theorem execWatchdogExpiry_keepsQueue {takeoverOk : Bool} {s : State} : KeepsQueue s (execWatchdogExpiry takeoverOk s) := by
  simp [execWatchdogExpiry, apply_ite State.pending]

theorem execHostLoss_keepsQueue {cause : Nat} {s : State} : KeepsQueue s (execHostLoss cause s) := by simp [execHostLoss, apply_ite State.pending]

theorem execHostPortReset_keepsQueue {s : State} : KeepsQueue s (execHostPortReset s) := by
  unfold execHostPortReset
  (repeat' split) <;> simp

theorem execVfFlr_keepsQueue {n : Nat} {s : State} : KeepsQueue s (execVfFlr n s) := by simp [execVfFlr, apply_ite State.pending]
theorem execVfEnable_keepsQueue {on : Bool} {s : State} : KeepsQueue s (execVfEnable on s) := by simp [execVfEnable]

/-! ### The registers of BAR0 and the State Space window of BAR4 -/

theorem execMgmtFlagCntRead_keepsQueue {s : State} : KeepsQueue s (execMgmtFlagCntRead s) := by simp [execMgmtFlagCntRead]
theorem execCadBeatLowRead_keepsQueue {s : State} : KeepsQueue s (execCadBeatLowRead s) := by simp [execCadBeatLowRead]

theorem execBadAccess_keepsQueue {offset size : Nat} {write : Bool} {s : State} : KeepsQueue s (execBadAccess offset size write s) := by
  simp [execBadAccess, apply_ite State.pending]

theorem execReplyRingWrite_keepsQueue {n : Nat} {cfg : Bool} {v : Word64} {s : State} : KeepsQueue s (execReplyRingWrite n cfg v s) := by
  simp [execReplyRingWrite, apply_ite State.pending]

theorem execReplyAckWrite_keepsQueue {n : Nat} {v : Word64} {s : State} : KeepsQueue s (execReplyAckWrite n v s) := by simp [execReplyAckWrite, apply_ite State.pending]
theorem execJournalAckWrite_keepsQueue {v : Word64} {s : State} : KeepsQueue s (execJournalAckWrite v s) := by simp [execJournalAckWrite, apply_ite State.pending]
theorem execRegisterWrite_keepsQueue {w : RegWrite} {s : State} : KeepsQueue s (execRegisterWrite w s) := by simp [execRegisterWrite]

theorem execFlagClearW1c_keepsQueue {offset : Nat} {mask hwSets : Word32} {s : State} : KeepsQueue s (execFlagClearW1c offset mask hwSets s) := by
  simp [execFlagClearW1c, apply_ite State.pending]

theorem execMgmtFlagClear_keepsQueue {groups : Nat} {hwSets : List (Nat × Nat)} {s : State} : KeepsQueue s (execMgmtFlagClear groups hwSets s) := by
  simp [execMgmtFlagClear]

theorem execWindowRead_keepsQueue {offset len : Nat} {s : State} : KeepsQueue s (execWindowRead offset len s) := by simp [execWindowRead, apply_ite State.pending]
theorem execWindowWrite_keepsQueue (c : Nat) {s : State} : KeepsQueue s (execWindowWrite c s) := by simp [execWindowWrite]

/-! ### What ring members and homes send one another -/

theorem execForward_keepsQueue {sender : Nat} {p : Packet} {s : State} : KeepsQueue s (execForward sender p s) := by simp [execForward, apply_ite State.pending]

theorem execHostdata_keepsQueue {source tag addr : Nat} {data : Bytes} {cap : Option SessionCapsule} {s : State} :
    KeepsQueue s (execHostdata source tag addr data cap s) := by
  unfold execHostdata
  (repeat' split) <;> simp

theorem execForwardReply_keepsQueue {client tag status detail handle beat count0 count1 : Nat} {s : State} :
    KeepsQueue s (execForwardReply client tag status detail handle beat count0 count1 s) := by
  unfold execForwardReply
  dsimp only
  (repeat' split) <;> simp

theorem execCandidate_keepsQueue {partition step : Nat} {entries : List Candidate} {s : State} : KeepsQueue s (execCandidate partition step entries s) := by
  simp [execCandidate, apply_ite State.pending]

theorem execSealMessage_keepsQueue {m : SealMsg} {s : State} : KeepsQueue s (execSealMessage m s) := by simp [execSealMessage, apply_ite State.pending]

theorem execCancelNotice_keepsQueue {n : SessionNotice} {s : State} : KeepsQueue s (execCancelNotice n s) := by
  unfold execCancelNotice
  split <;> simp

theorem execWithdrawal_keepsQueue {n : SessionNotice} {s : State} : KeepsQueue s (execWithdrawal n s) := by simp [execWithdrawal, apply_ite State.pending]

theorem execPart_keepsQueue {handle position : Nat} {body : Bytes} {s : State} : KeepsQueue s (execPart handle position body s) := by
  unfold execPart
  (repeat' split) <;> simp

theorem execDeparture_keepsQueue {member boundary : Nat} {rings : List Nat} {s : State} : KeepsQueue s (execDeparture member boundary rings s) := by
  simp [execDeparture, apply_ite State.pending]

theorem execMemberLost_keepsQueue {member : Nat} {s : State} : KeepsQueue s (execMemberLost member s) := by
  unfold execMemberLost
  dsimp only
  (repeat' split) <;> simp

/-! ### The step boundary -/

theorem execStepBoundary_keepsQueue {s : State} : KeepsQueue s (execStepBoundary s) := by
  unfold execStepBoundary
  dsimp only
  (repeat' split) <;> simp

theorem execMirrorPass_keepsQueue {written : Bool} {s : State} : KeepsQueue s (execMirrorPass written s) := by
  unfold execMirrorPass
  split <;> simp

theorem execTimeRecord_keepsQueue {s : State} : KeepsQueue s (execTimeRecord s) := by simp [execTimeRecord]

end Sys2Proof.Machine
end

section
/-! PROOF of O4. Every instruction leaves the queue of the commands behind it (11 R283). -/

namespace Sys2Proof.Machine

/-- Every instruction goes on, and leaves the queue behind it. -/
theorem exec_keepsQueue {s : State} : ∀ i, KeepsQueue s (exec i s)
  | .packetRecognise _ => execPacketRecognise_keepsQueue
  | .pad _ => execPad_keepsQueue
  | .ping _ => keepsQueue_serve (fun _ _ => reply_pending _ _ _)
  | .queryDevice _ => keepsQueue_serve (fun _ _ => queryDeviceBody_pending _ _ _)
  | .setParam _ => keepsQueue_serve (fun _ _ => setParamBody_pending _ _ _)
  | .cliRunPreempt _ => execCliRunPreempt_keepsQueue
  | .preemptionComplete _ => execPreemptionComplete_keepsQueue
  | .cliRunResume _ => execCliRunResume_keepsQueue
  | .queueStateWrite _ _ _ _ _ => execQueueStateWrite_keepsQueue
  | .cadPeriodChange _ => execCadPeriodChange_keepsQueue
  | .cadModeChange _ => execCadModeChange_keepsQueue
  | .deviceStateRequest _ => execDeviceStateRequest_keepsQueue
  | .getParam _ => keepsQueue_serve (fun _ _ => getParamBody_pending _ _ _)
  | .modelStage _ _ => keepsQueue_serve (fun _ _ => modelStageBody_pending _ _ _ _)
  | .modelUnload _ => keepsQueue_serve (fun _ _ => modelUnloadBody_pending _ _ _)
  | .partitionDefine _ => keepsQueue_serve (fun _ _ => partitionBody_pending _ _ _)
  | .scheduleLoad _ _ => keepsQueue_serve (fun _ _ => scheduleBody_pending _ _ _ _)
  | .vocabLoad _ _ => keepsQueue_serve (fun _ _ => vocabBody_pending _ _ _ _)
  | .sessionOpen _ => keepsQueue_serve (fun _ _ => openBody_pending _ _ _)
  | .sessionFork _ => keepsQueue_serve (fun _ _ => forkBody_pending _ _ _)
  | .sessionAppend _ _ => keepsQueue_serve (fun _ _ => appendBodyCmd_pending _ _ _ _)
  | .tokenizeEnd _ => execTokenizeEnd_keepsQueue
  | .sessionGenerate _ => keepsQueue_serve (fun _ _ => generateBody_pending _ _ _)
  | .trainingGenerate _ => keepsQueue_serve (fun _ _ => trainBody_pending _ _ _)
  | .sessionPark _ => keepsQueue_serve (fun _ _ => parkBody_pending _ _ _)
  | .sessionRevive _ => keepsQueue_serve (fun _ _ => reviveBody_pending _ _ _)
  | .sessionCancel _ => keepsQueue_serve (fun _ _ => cancelBody_pending _ _ _)
  | .sessionClose _ => keepsQueue_serve (fun _ _ => closeBody_pending _ _ _)
  | .sessionQuery _ => keepsQueue_serve (fun _ _ => queryBody_pending _ _ _)
  | .sessionConstrain _ => keepsQueue_serve (fun _ _ => constrainBody_pending _ _ _)
  | .sessionExport _ => keepsQueue_serve (fun _ _ => exportBody_pending _ _ _)
  | .sessionImport _ _ => keepsQueue_serve (fun _ _ => importBody_pending _ _ _ _)
  | .handoverOut _ => keepsQueue_serve (fun _ _ => handoverOutBody_pending _ _ _)
  | .handoverIn _ => keepsQueue_serve (fun _ _ => handoverInBody_pending _ _ _)
  | .compositionSet _ _ => keepsQueue_serve (fun _ _ => compositionBody_pending _ _ _ _)
  | .checkpointBegin _ => keepsQueue_serve (fun _ _ => checkpointBody_pending _ _ _)
  | .checkpointShard _ => keepsQueue_serve (fun _ _ => shardBody_pending _ _ _)
  | .restore _ _ _ _ => keepsQueue_serve (fun _ _ => restoreBody_pending _ _ _ _ _ _)
  | .shrinkArm _ => keepsQueue_serve (fun _ _ => shrinkBody_pending _ _ _)
  | .attestQuote _ => keepsQueue_serve (fun _ _ => quoteBody_pending _ _ _)
  | .quoteSigned _ => execQuoteSigned_keepsQueue
  | .keyAccept _ _ => keepsQueue_serve (fun _ _ => acceptBody_pending _ _ _ _)
  | .tenantBind _ _ => keepsQueue_serve (fun _ _ => bindBody_pending _ _ _ _)
  | .tenantRelease _ => keepsQueue_serve (fun _ _ => releaseBody_pending _ _ _)
  | .tenantReleaseRun => execTenantReleaseRun_keepsQueue
  | .fwStage _ _ => keepsQueue_serve (fun _ _ => fwStageBody_pending _ _ _ _)
  | .fwActivate _ => keepsQueue_serve (fun _ _ => activateBody_pending _ _ _)
  | .fwTakeover => execFwTakeover_keepsQueue
  | .fwResume => execFwResume_keepsQueue
  | .fwActivateTimeout => execFwActivateTimeout_keepsQueue
  | .calUserWrite _ _ => keepsQueue_serve (fun _ _ => calWriteBody_pending _ _ _ _)
  | .calRead _ => keepsQueue_serve (fun _ _ => calReadBody_pending _ _ _)
  | .custodialRollback _ => keepsQueue_serve (fun _ _ => rollbackBody_pending _ _ _)
  | .custodialDebug _ => keepsQueue_serve (fun _ _ => custodial_pending debugEffect_pending _ _ _ _ _ _)
  | .identityReset _ => keepsQueue_serve (fun _ _ => custodial_pending (fun _ => identityEffect_pending) _ _ _ _ _ _)
  | .factoryReturn _ => keepsQueue_serve (fun _ _ => custodial_pending (fun _ => factoryEffect_pending) _ _ _ _ _ _)
  | .sealOverride _ => keepsQueue_serve (fun _ _ => overrideBody_pending _ _ _)
  | .presencePolicy _ => keepsQueue_serve (fun _ _ => custodial_pending (fun _ _ => modSec_pending _ _) _ _ _ _ _ _)
  | .eventSnapshot _ => keepsQueue_serve (fun _ _ => snapshotBody_pending _ _ _)
  | .statsRead _ => keepsQueue_serve (fun _ _ => statsBody_pending _ _ _)
  | .unitFence _ => keepsQueue_serve (fun _ _ => unitFenceBody_pending _ _ _)
  | .dimmEvacuate _ => keepsQueue_serve (fun _ _ => evacuateBody_pending _ _ _)
  | .dimmAdmit _ => keepsQueue_serve (fun _ _ => dimmBody_pending _ _ _)
  | .dimmSpdRead _ _ _ => execDimmSpdRead_keepsQueue
  | .dimmTrainDone _ _ => execDimmTrainDone_keepsQueue
  | .dimmScrubDone _ => execDimmScrubDone_keepsQueue
  | .profileSet _ => keepsQueue_serve (fun _ _ => profileBody_pending _ _ _)
  | .replyRingWrite _ _ _ => execReplyRingWrite_keepsQueue
  | .replyAckWrite _ _ => execReplyAckWrite_keepsQueue
  | .journalAckWrite _ => execJournalAckWrite_keepsQueue
  | .recallTailWrite _ _ => execRecallTailWrite_keepsQueue
  | .flagClearW1c _ _ _ => execFlagClearW1c_keepsQueue
  | .mgmtFlagClear _ _ => execMgmtFlagClear_keepsQueue
  | .mgmtFlagCntRead => execMgmtFlagCntRead_keepsQueue
  | .cadBeatLowRead => execCadBeatLowRead_keepsQueue
  | .registerWrite _ => execRegisterWrite_keepsQueue
  | .badAccess _ _ _ => execBadAccess_keepsQueue
  | .windowRead _ _ => execWindowRead_keepsQueue
  | .windowWrite n => execWindowWrite_keepsQueue n
  | .stepBoundary => execStepBoundary_keepsQueue
  | .slotStart _ => execSlotStart_keepsQueue
  | .commitPoint _ => execCommitPoint_keepsQueue
  | .samplingCommit _ => execSamplingCommit_keepsQueue
  | .lateArrival _ _ _ _ => execLateArrival_keepsQueue
  | .plazaLane => execPlazaLane_keepsQueue
  | .mirrorPass _ => execMirrorPass_keepsQueue
  | .moverSlotEnd _ => execMoverSlotEnd_keepsQueue
  | .prefetchPull _ => execPrefetchPull_keepsQueue
  | .prefetchRevive _ => execPrefetchRevive_keepsQueue
  | .beatMark _ _ => execBeatMark_keepsQueue
  | .beatNumber _ _ => execBeatNumber_keepsQueue
  | .numLost => execNumLost_keepsQueue
  | .marksAbsent => execMarksAbsent_keepsQueue
  | .acqFail => execAcqFail_keepsQueue
  | .holdLimit => execHoldLimit_keepsQueue
  | .beatNumberSend => execBeatNumberSend_keepsQueue
  | .cadenceMarkSend => execCadenceMarkSend_keepsQueue
  | .cadenceMark _ _ _ => execCadenceMark_keepsQueue
  | .xrefLost => execXrefLost_keepsQueue
  | .xrefReturn => execXrefReturn_keepsQueue
  | .departure _ _ _ => execDeparture_keepsQueue
  | .memberLost _ => execMemberLost_keepsQueue
  | .slipNotice _ => execSlipNotice_keepsQueue
  | .slipApply _ => execSlipApply_keepsQueue
  | .abortNotice _ => execAbortNotice_keepsQueue
  | .deferNotice _ => execDeferNotice_keepsQueue
  | .fallbackNotice _ => execFallbackNotice_keepsQueue
  | .imageReady _ _ _ _ => execImageReady_keepsQueue
  | .mapDigest _ _ _ => execMapDigest_keepsQueue
  | .lenderAdvert _ _ _ => execLenderAdvert_keepsQueue
  | .candidate _ _ _ => execCandidate_keepsQueue
  | .sealMessage _ => execSealMessage_keepsQueue
  | .cancelNotice _ => execCancelNotice_keepsQueue
  | .withdrawal _ => execWithdrawal_keepsQueue
  | .copyNotice _ => execCopyNotice_keepsQueue
  | .capsuleLostNotice _ => execCapsuleLostNotice_keepsQueue
  | .freeTargetSlot _ => execFreeTargetSlot_keepsQueue
  | .forward _ _ => execForward_keepsQueue
  | .forwardReply _ _ _ _ _ _ _ _ => execForwardReply_keepsQueue
  | .hoRequest _ => execHoRequest_keepsQueue
  | .hoAnswer _ _ _ => execHoAnswer_keepsQueue
  | .hoConfirm _ _ _ => execHoConfirm_keepsQueue
  | .hoAbort _ _ _ => execHoAbort_keepsQueue
  | .hoTimeout _ => execHoTimeout_keepsQueue
  | .hoTargetGrace _ => execHoTargetGrace_keepsQueue
  | .tiles _ _ _ _ => execTiles_keepsQueue
  | .hoFinal _ _ => execHoFinal_keepsQueue
  | .hoOwnership _ _ => execHoOwnership_keepsQueue
  | .capsulePut _ _ _ => execCapsulePut_keepsQueue
  | .capsuleGet _ _ => execCapsuleGet_keepsQueue
  | .capsuleData _ _ _ => execCapsuleData_keepsQueue
  | .capsuleFree _ _ => execCapsuleFree_keepsQueue
  | .part _ _ _ => execPart_keepsQueue
  | .hostdata _ _ _ _ _ => execHostdata_keepsQueue
  | .shardDigest _ => execShardDigest_keepsQueue
  | .shardReport _ => execShardReport_keepsQueue
  | .shardCommit _ => execShardCommit_keepsQueue
  | .shardDone _ => execShardDone_keepsQueue
  | .shardAllDone _ => execShardAllDone_keepsQueue
  | .restoreTimeout _ => execRestoreTimeout_keepsQueue
  | .ckptHoldExpiry _ => execCkptHoldExpiry_keepsQueue
  | .frameReceive _ _ _ _ _ => execFrameReceive_keepsQueue
  | .frameTransmit _ _ _ => execFrameTransmit_keepsQueue
  | .controlWord _ _ _ => execControlWord_keepsQueue
  | .linkSignalDetect _ => execLinkSignalDetect_keepsQueue
  | .trainingComplete _ _ => execTrainingComplete_keepsQueue
  | .trainFail _ => execTrainFail_keepsQueue
  | .laneFail _ _ => execLaneFail_keepsQueue
  | .retrainDone _ => execRetrainDone_keepsQueue
  | .retrainTimeout _ => execRetrainTimeout_keepsQueue
  | .halfRetrain n => execHalfRetrain_keepsQueue n
  | .linkPortReset _ => execLinkPortReset_keepsQueue
  | .graceEnd => execGraceEnd_keepsQueue
  | .remoteGraceEnd _ => execRemoteGraceEnd_keepsQueue
  | .uncorrectableError _ => execUncorrectableError_keepsQueue
  | .mprogError _ _ _ _ => execMprogError_keepsQueue
  | .weightTagFail _ _ _ => execWeightTagFail_keepsQueue
  | .correctableError _ _ => execCorrectableError_keepsQueue
  | .hbmSpareStart _ _ => execHbmSpareStart_keepsQueue
  | .hbmSpareCopyDone _ => execHbmSpareCopyDone_keepsQueue
  | .recallTimeout _ => execRecallTimeout_keepsQueue
  | .supplyWarn _ => execSupplyWarn_keepsQueue
  | .supplyNormal _ => execSupplyNormal_keepsQueue
  | .reducedEntry _ _ => execReducedEntry_keepsQueue
  | .overcurrent _ _ => execOvercurrent_keepsQueue
  | .reducedExit _ => execReducedExit_keepsQueue
  | .rideLimit _ => execRideLimit_keepsQueue
  | .supplyStop _ => execSupplyStop_keepsQueue
  | .overvolt _ => execOvervolt_keepsQueue
  | .stopRecordClose => execStopRecordClose_keepsQueue
  | .stopRailsOff => execStopRailsOff_keepsQueue
  | .stopComplete => execStopComplete_keepsQueue
  | .avsAck _ => execAvsAck_keepsQueue
  | .avsTimeout _ => execAvsTimeout_keepsQueue
  | .unitEntryPoint => execUnitEntryPoint_keepsQueue
  | .unitWakeLock => execUnitWakeLock_keepsQueue
  | .deviceStateDone => execDeviceStateDone_keepsQueue
  | .presence => execPresence_keepsQueue
  | .presenceWindowEnd => execPresenceWindowEnd_keepsQueue
  | .sealOpen => execSealOpen_keepsQueue s
  | .decapKeyExpiry _ => execDecapKeyExpiry_keepsQueue
  | .akCertified => execAkCertified_keepsQueue
  | .hostLoss _ => execHostLoss_keepsQueue
  | .hostHoldExpiry => execHostHoldExpiry_keepsQueue
  | .vfFlr _ => execVfFlr_keepsQueue
  | .hostPortReset => execHostPortReset_keepsQueue
  | .deviceReset _ _ _ => execDeviceReset_keepsQueue
  | .watchdogExpiry _ => execWatchdogExpiry_keepsQueue
  | .blockPartialReset _ _ => execBlockPartialReset_keepsQueue
  | .ddrControllerReset _ => execDdrControllerReset_keepsQueue
  | .ddrControllerRestartEnd _ _ => execDdrControllerRestartEnd_keepsQueue
  | .ddrPresenceChange _ _ => execDdrPresenceChange_keepsQueue
  | .ddrPgRelease _ => execDdrPgRelease_keepsQueue
  | .powerOnQualified _ _ _ _ _ => execPowerOnQualified_keepsQueue
  | .firmwareStart _ _ => execFirmwareStart_keepsQueue
  | .trainingDone _ _ _ _ => execTrainingDone_keepsQueue
  | .thermtrip n => execThermtrip_keepsQueue n s
  | .moverSlotStart _ => execMoverSlotStart_keepsQueue
  | .hostReadCompletion _ => execHostReadCompletion_keepsQueue
  | .sealLoopClose => execSealLoopClose_keepsQueue
  | .vfEnable _ => execVfEnable_keepsQueue
  | .blockSelfTestDone _ _ _ => execBlockSelfTestDone_keepsQueue
  | .restoreStagingDone _ _ => execRestoreStagingDone_keepsQueue
  | .eventSnapshotDone => execEventSnapshotDone_keepsQueue
  | .laneRepairDone _ => execLaneRepairDone_keepsQueue
  | .linkTrainRetry _ => execLinkTrainRetry_keepsQueue
  | .timeRecord => execTimeRecord_keepsQueue

/-- Settles O4: an instruction goes on with the queue that stood, as `exec_keepsQueue` says of every row. -/
theorem commandsLeaveQueue : Obligations.CommandsLeaveQueue := by
  intro i s t ht
  obtain ⟨u, hu, hp⟩ := exec_keepsQueue (s := s) i
  rw [hu] at ht
  exact Host.Outcome.next.inj ht ▸ hp

end Sys2Proof.Machine
end

section
/-! PROOF of O3. No step stops the block (11 R294, R295). -/

namespace Sys2Proof.Machine

/-- A step goes on: an empty queue is a beat, and no instruction stops the block. -/
theorem step_next (s : State) : ∃ t, step s = .next t := by
  unfold step
  split
  · exact ⟨_, rfl⟩
  · next c rest _ =>
    obtain ⟨t, ht, -⟩ := exec_keepsQueue (s := { s with pending := rest }) c
    exact ⟨t, ht⟩

/-- Settles O3, by induction on the number of steps: none of them stops. -/
theorem everyRunIsSafe : Obligations.EveryRunIsSafe := by
  intro k
  induction k with
  | zero => exact fun _ => trivial
  | succ k ih =>
    intro s
    obtain ⟨t, ht⟩ := step_next s
    unfold SafeRun
    rw [ht]
    exact ih t

end Sys2Proof.Machine
end

section
/-! SUPPORT for O53 and O54. Link ports (12 R318 to R334): what reads after an operation on a port or its queues, and what such an operation may change. -/

namespace Sys2Proof.Machine

variable {s t : State}

/-! ### Ports and queues -/

@[simp] theorem linkAt_modLink_same (l : Nat) (f : Link → Link) (s : State) : linkAt (modLink l f s) l = f (linkAt s l) := linkAt_putLink_same _ _ _

theorem linkAt_modLink_other {l m : Nat} (f : Link → Link) (s : State) (h : m ≠ l) : linkAt (modLink l f s) m = linkAt s m :=
  linkAt_putLink_other _ s h

@[simp] theorem flowAt_modFlow_same (l : Nat) (f : LinkFlow → LinkFlow) (s : State) : flowAt (modFlow l f s) l = f (flowAt s l) := flowAt_putFlow_same _ _ _

@[simp] theorem linkAt_putFlow (l m : Nat) (f : LinkFlow) (s : State) : linkAt (putFlow l f s) m = linkAt s m := rfl
@[simp] theorem linkAt_modFlow (l m : Nat) (f : LinkFlow → LinkFlow) (s : State) : linkAt (modFlow l f s) m = linkAt s m := rfl
@[simp] theorem linkAt_queueWord (l m : Nat) (w : ControlWord) (s : State) : linkAt (queueWord l w s) m = linkAt s m := rfl
@[simp] theorem flowAt_putLink (l m : Nat) (x : Link) (s : State) : flowAt (putLink l x s) m = flowAt s m := rfl
@[simp] theorem flowAt_modLink (l m : Nat) (f : Link → Link) (s : State) : flowAt (modLink l f s) m = flowAt s m := rfl

@[simp] theorem flowAt_queueWord_same (l : Nat) (w : ControlWord) (s : State) :
    flowAt (queueWord l w s) l = { flowAt s l with words := (flowAt s l).words ++ [w] } := flowAt_modFlow_same _ _ _

theorem linkAt_of_links (h : t.links = s.links) (m : Nat) : linkAt t m = linkAt s m := by rw [linkAt, h, linkAt]

theorem flowAt_of_links (h : t.links = s.links) (m : Nat) : flowAt t m = flowAt s m := by rw [flowAt, h, flowAt]

@[simp] theorem linkAt_report (code : Nat) (b : Bytes) (s : State) (m : Nat) : linkAt (report code b s) m = linkAt s m := linkAt_of_links (report_links _ _ _) m
@[simp] theorem flowAt_report (code : Nat) (b : Bytes) (s : State) (m : Nat) : flowAt (report code b s) m = flowAt s m := flowAt_of_links (report_links _ _ _) m
@[simp] theorem linkAt_setFlag (off bit : Nat) (s : State) (m : Nat) : linkAt (setFlag off bit s) m = linkAt s m := linkAt_of_links (setFlag_links _ _ _) m
@[simp] theorem flowAt_setFlag (off bit : Nat) (s : State) (m : Nat) : flowAt (setFlag off bit s) m = flowAt s m := flowAt_of_links (setFlag_links _ _ _) m

/-- A link that enters a state reads that state and its lanes, and no widening waits (12 R318). -/
@[simp] theorem linkAt_enterLink_same (l : Nat) (st : LinkState) (lanes : Nat) (s : State) :
    linkAt (enterLink l st lanes s) l = { linkAt s l with st := st, lanes := lanes, widenAt := none } := by
  simp [enterLink]

theorem linkAt_enterLink_other {l m : Nat} (st : LinkState) (lanes : Nat) (s : State) (h : m ≠ l) : linkAt (enterLink l st lanes s) m = linkAt s m := by
  simp [enterLink, linkAt_modLink_other _ _ h]

@[simp] theorem flowAt_enterLink (l : Nat) (st : LinkState) (lanes : Nat) (s : State) (m : Nat) : flowAt (enterLink l st lanes s) m = flowAt s m := by
  simp [enterLink]

theorem setFlag_on (off bit : Nat) (s : State) : (getFlag (setFlag off bit s) off bit).on = true := by rw [getFlag_setFlag_same]

/-! ### What a notice leaves of the links -/

theorem ByNotice.links (h : ByNotice s t) : t.links = s.links := eq_of_aside offNotice State.links (fun _ => rfl) h.frame

theorem ByNotice.linkAt (h : ByNotice s t) (m : Nat) : linkAt t m = linkAt s m := linkAt_of_links h.links m

theorem ByNotice.flowAt (h : ByNotice s t) (m : Nat) : flowAt t m = flowAt s m := flowAt_of_links h.links m

theorem ByNotice.departRings (rings : List Nat) (h : ByNotice s t) : ByNotice s (departRings rings t) := by
  unfold Machine.departRings
  split
  · exact h
  · dsimp only
    split
    · exact h
    · exact ByNotice.send _ (h.update rfl rfl)

/-- A degraded or lost link has its plan's notice sent, or rings departed and passes deferred (08 R216 to R218). -/
theorem ByNotice.linkDegraded (kind l : Nat) (h : ByNotice s t) : ByNotice s (linkDegraded kind l t) := by
  unfold Machine.linkDegraded
  split
  · exact h
  · next img _ =>
    extract_lets t1 rings t2
    have h1 : ByNotice s t1 := by
      unfold t1
      split
      · exact h.sendNotice _ _
      · exact h
    refine .ite h1 (.foldl (fun _ _ hu => hu.sendDefer _ _ _) _ ?_)
    exact .ite (h1.departRings rings) h1

theorem ByNotice.revertPlan (kind l : Nat) (img : Image) (h : ByNotice s t) : ByNotice s (revertPlan kind l img t) := by
  unfold Machine.revertPlan
  split
  · exact .ite (h.sendNotice _ _) h
  · exact h

/-! ### What a link row may change -/

/-- The state without what an operation on a link may change. -/
def offLinks (s : State) : State := { offNotice s with links := {} }

/-- A later state differs only in what an operation on a link may change, and has every flag set that was set. -/
structure ByLinks (s t : State) : Prop where
  frame : offLinks t = offLinks s
  flags : FlagsStay s t

namespace ByLinks

theorem refl (s : State) : ByLinks s s := ⟨rfl, .refl s⟩

theorem trans {u : State} (h : ByLinks s t) (k : ByLinks t u) : ByLinks s u := ⟨k.frame.trans h.frame, h.flags.trans k.flags⟩

theorem mem (h : ByLinks s t) : t.mem = s.mem := eq_of_aside offLinks State.mem (fun _ => rfl) h.frame
theorem slots (h : ByLinks s t) : t.slots = s.slots := eq_of_aside offLinks State.slots (fun _ => rfl) h.frame

theorem notice (h : ByNotice s t) : ByLinks s t := ⟨congrArg (fun u : State => { u with links := {} }) h.frame, h.flags⟩

/-- Ports, queues and the outbox may change as they like. -/
theorem update {u : State} (h : ByLinks s t) (hf : offLinks u = offLinks t) (hg : u.flags = t.flags) : ByLinks s u :=
  ⟨hf.trans h.frame, h.flags.trans (.of_eq hg)⟩

theorem setFlag (off bit : Nat) (h : ByLinks s t) : ByLinks s (setFlag off bit t) :=
  ⟨(congrArg offLinks (setFlag_changes off bit t)).trans h.frame, h.flags.setFlag off bit⟩

theorem report (code : Nat) (body : Bytes) (h : ByLinks s t) : ByLinks s (report code body t) := h.trans (notice ((ByNotice.refl t).report code body))

theorem modLink (l : Nat) (f : Link → Link) (h : ByLinks s t) : ByLinks s (modLink l f t) := h.update rfl rfl

theorem putFlow (l : Nat) (f : LinkFlow) (h : ByLinks s t) : ByLinks s (putFlow l f t) := h.update rfl rfl

theorem queueWord (l : Nat) (w : ControlWord) (h : ByLinks s t) : ByLinks s (queueWord l w t) := h.update rfl rfl

theorem ite {c : Prop} [Decidable c] {u : State} (h : ByLinks s t) (k : ByLinks s u) : ByLinks s (if c then t else u) := by
  split
  · exact h
  · exact k

theorem enterLink (l : Nat) (st : LinkState) (lanes : Nat) (h : ByLinks s t) : ByLinks s (enterLink l st lanes t) := (h.modLink _ _).report _ _

theorem linkDegraded (kind l : Nat) (h : ByLinks s t) : ByLinks s (linkDegraded kind l t) := h.trans (notice ((ByNotice.refl t).linkDegraded kind l))

theorem returnCredit (l cls : Nat) (h : ByLinks s t) : ByLinks s (returnCredit l cls t) :=
  .ite (h.queueWord _ _) (.ite (h.queueWord _ _) (.ite (h.queueWord _ _) h))

theorem queueFrame (l : Nat) (q : Queued) (h : ByLinks s t) : ByLinks s (queueFrame l q t) := h.putFlow _ _

theorem mapMismatch (l : Nat) (h : ByLinks s t) : ByLinks s (mapMismatch l t) := ((h.modLink _ _).setFlag _ _).report _ _

end ByLinks

end Sys2Proof.Machine
end

section
/-! PROOF of O53. The states of a link (12 R318, R319, R331; 15 R409; 18 R469). -/

namespace Sys2Proof.Machine

variable {s : State} {l : Nat}

/-! ### Frames of a lost link (12 R334) -/

theorem returnCredit_port (l cls : Nat) (s : State) : (returnCredit l cls s).links.port = s.links.port := by
  simp only [returnCredit, apply_ite State.links, apply_ite Links.port, queueWord, modFlow, putFlow_links, ite_self]

/-- Frames that wait for a lost link go to other queues or are discarded: every port stands. -/
theorem reroute_leaves (l : Nat) (s : State) : ByLinks s (reroute l s) ∧ (reroute l s).links.port = s.links.port := by
  refine foldl_induct (fun t => ByLinks s t ∧ t.links.port = s.links.port) (fun t q ⟨h, hp⟩ => ?_) _ ⟨(ByLinks.refl s).putFlow _ _, rfl⟩
  dsimp only
  split
  · exact ⟨h.queueFrame _ _, hp⟩
  · have hs : (setFlag (offLnkEvents l) 8 t).links.port = s.links.port := by rw [setFlag_links, hp]
    split
    · exact ⟨(h.setFlag _ _).returnCredit _ _, (returnCredit_port _ _ _).trans hs⟩
    · exact ⟨h.setFlag _ _, hs⟩

@[simp] theorem linkAt_reroute (l m : Nat) (s : State) : linkAt (reroute l s) m = linkAt s m := by rw [linkAt, (reroute_leaves l s).2, linkAt]

/-! ### Lanes -/

/-- A lost link has no lane left, and LOST is flagged (12 R319). -/
theorem loseLink_lost (l : Nat) (s : State) :
    ByLinks s (loseLink l s) ∧ linkAt (loseLink l s) l = { linkAt s l with st := .lost, lanes := 0, widenAt := none }
      ∧ (getFlag (loseLink l s) (offLnkEvents l) 1).on = true := by
  have hset := (ByLinks.refl (setFlag (offLnkEvents l) 1 (enterLink l .lost 0 s))).trans (reroute_leaves l _).1 |>.linkDegraded 2 l
  refine ⟨(((ByLinks.refl s).enterLink l .lost 0).setFlag _ _).trans hset, ?_, hset.flags _ _ (setFlag_on _ _ _)⟩
  rw [loseLink, ((ByNotice.refl _).linkDegraded 2 l).linkAt]
  simp

/-- A failed lane of a four-lane link: it retrains without that lane. -/
theorem failLane_up (h : (linkAt s l).st = .up) (lane : Nat) :
    ByLinks s (failLane l lane s) ∧ linkAt (failLane l lane s) l = { linkAt s l with st := .retrain, lanes := withoutLane (linkAt s l).lanes lane, widenAt := none }
      ∧ flowAt (failLane l lane s) l = flowAt s l ∧ (getFlag (failLane l lane s) (offLnkEvents l) 0).on = true := by
  have he : failLane l lane s = linkDegraded 1 l (enterLink l .retrain (withoutLane (linkAt s l).lanes lane) (setFlag (offLnkEvents l) 0 s)) := by
    simp [failLane, h]
  have hb := ((ByLinks.refl (setFlag (offLnkEvents l) 0 s)).enterLink l .retrain (withoutLane (linkAt s l).lanes lane)).linkDegraded 1 l
  have hn := (ByNotice.refl (enterLink l .retrain (withoutLane (linkAt s l).lanes lane) (setFlag (offLnkEvents l) 0 s))).linkDegraded 1 l
  rw [he]
  refine ⟨((ByLinks.refl s).setFlag _ _).trans hb, ?_, ?_, hb.flags _ _ (setFlag_on _ _ _)⟩
  · rw [hn.linkAt]
    simp
  · rw [hn.flowAt]
    simp

/-- A failed lane of a link's only pair loses the link. -/
theorem failLane_pair {lane : Nat} (h : (linkAt s l).st = .half) (hb : bitOf (linkAt s l).lanes lane = true) :
    failLane l lane s = loseLink l (setFlag (offLnkEvents l) 0 s) := by
  simp [failLane, h, hb]

/-- A failed lane of the idle pair, or during a retraining, is out. -/
theorem failLane_idle {lane : Nat} (h : (linkAt s l).st = .half ∧ bitOf (linkAt s l).lanes lane = false ∨ (linkAt s l).st = .retrain) :
    failLane l lane s = modLink l (fun x => { x with widenAt := none, lanes := withoutLane x.lanes lane }) (setFlag (offLnkEvents l) 0 s) := by
  rcases h with ⟨hst, hb⟩ | hst
  · simp [failLane, hst, hb]
  · simp [failLane, hst]

theorem execLaneFail_told {lane : Nat} (h : (linkAt s l).st = .up ∨ (linkAt s l).st = .half ∨ (linkAt s l).st = .retrain) :
    exec (.laneFail l lane) s = .next (failLane l lane (queueWord l (.laneFailed lane) s)) :=
  congrArg Host.Outcome.next (if_pos (by simpa [linkUp, or_assoc] using h))

/-! ### Training -/

@[simp] theorem linkAt_mapMismatch (l : Nat) (s : State) : linkAt (mapMismatch l s) l = { linkAt s l with mapOk := false } := by simp [mapMismatch]

@[simp] theorem flowAt_mapMismatch (l m : Nat) (s : State) : flowAt (mapMismatch l s) m = flowAt s m := by simp [mapMismatch]

theorem mapMismatch_sets (l : Nat) (s : State) : (getFlag (mapMismatch l s) (offLnkEvents l) 7).on = true :=
  (FlagsStay.refl _).report _ _ _ _ (setFlag_on _ _ _)

/-- A link as the exchange of 12 R331 leaves it. -/
def Link.exchanged (x : Link) (r : TrainResult) (estimate : Int) : Link :=
  { x with
    peer := r.peer, peerLink := r.peerLink, mapOk := r.mapDigestAgrees && r.peerTrusted, peerOk := r.peerTrusted
    peerTx := r.peerTx, peerRx := r.peerRx, peerTrim := r.peerTrim, estimate := estimate
    expected := 0, nextSeq := 0, replay := [], nakOut := false }

/-- The queues of a link as the exchange leaves them: full credits, nothing to resend, no word pending. -/
def LinkFlow.exchanged (f : LinkFlow) (now : Nat) : LinkFlow :=
  { f with
    ctrlCredit := 64, migrCredit := 192, bulkCredit := 128, ctrlShaper := 0, migrShaper := 0
    ctrlAt := now, migrAt := now, words := [], resend := [], nakRun := 0 }

theorem exchange_leaves (l : Nat) (r : TrainResult) (s : State) :
    ByLinks s (exchange l r s) ∧ linkAt (exchange l r s) l = (linkAt s l).exchanged r (oneWay s l r)
      ∧ flowAt (exchange l r s) l = (flowAt s l).exchanged (nowPhase s)
      ∧ ((r.mapDigestAgrees && r.peerTrusted) = false → (getFlag (exchange l r s) (offLnkEvents l) 7).on = true) := by
  unfold exchange
  extract_lets s1 s2 own s3
  have h2 : ByLinks s s2 := (ByLinks.refl s).update rfl rfl
  have h3 : ByLinks s s3 := .ite (h2.report _ _) h2
  have hl : linkAt s3 l = { (linkAt s l).exchanged r (oneWay s l r) with mapOk := r.mapDigestAgrees } := by
    have : linkAt s3 l = linkAt s2 l := by
      unfold s3
      split
      · exact linkAt_report _ _ _ _
      · rfl
    rw [this]
    simp [s2, s1, Link.exchanged]
  have hf : flowAt s3 l = (flowAt s l).exchanged (nowPhase s) := by
    have : flowAt s3 l = flowAt s2 l := by
      unfold s3
      split
      · exact flowAt_report _ _ _ _
      · rfl
    rw [this]
    simp [s2, s1, LinkFlow.exchanged, nowPhase, modLink]
  split
  · next h => exact ⟨h3, by rw [hl]; simp [Link.exchanged, h], hf, fun hm => by simp [h] at hm⟩
  · next h =>
    have hm : (r.mapDigestAgrees && r.peerTrusted) = false := by simpa using h
    exact ⟨h3.mapMismatch l, by simp [hl, Link.exchanged, hm], by simpa using hf, fun _ => mapMismatch_sets l s3⟩

/-- Training that aligns four lanes or a pair: the exchange in the new state, and after it notices that revert plans at the most. -/
theorem execTrainingComplete_trained {r : TrainResult} (hst : (linkAt s l).st = .training) (hl : r.lanes % 16 = 15 ∨ lanePair r.lanes ≠ 0) :
    ∃ t, exec (.trainingComplete l r) s = .next t
      ∧ ByNotice (exchange l r (enterLink l (if r.lanes % 16 = 15 then .up else .half) (if r.lanes % 16 = 15 then 15 else lanePair r.lanes) s)) t := by
  change ∃ t, execTrainingComplete l r s = _ ∧ _
  unfold execTrainingComplete
  rw [if_neg (not_not_intro hst)]
  by_cases h4 : r.lanes % 16 = 15
  · simp only [if_pos h4]
    refine ⟨_, rfl, ?_⟩
    split
    · exact ((ByNotice.refl _).revertPlan _ _ _).revertPlan _ _ _
    · exact .refl _
  · simp only [if_neg h4, if_pos (hl.resolve_left h4)]
    exact ⟨_, rfl, .refl _⟩

theorem execTrainingComplete_nothing {r : TrainResult} (h : (linkAt s l).st ≠ .training ∨ (r.lanes % 16 ≠ 15 ∧ lanePair r.lanes = 0)) :
    exec (.trainingComplete l r) s = .next s := by
  change execTrainingComplete l r s = _
  unfold execTrainingComplete
  by_cases hst : (linkAt s l).st = .training
  · obtain ⟨h4, h2⟩ := h.resolve_left (not_not_intro hst)
    simp [hst, h4, h2]
  · simp [hst]

/-! ### The rows -/

/-- Settles O53: each row in the states that it acts in, and in the others. -/
theorem linkStates : Obligations.LinkStates := by
  refine ⟨?signal, ?retry, ?fail, ?trained, ?lane, ?aligned, ?timeout, fun _ _ => rfl, ?repaired, ?silent⟩
  case signal =>
    refine fun l s => ⟨fun h => ⟨_, congrArg Host.Outcome.next (if_pos h), ?_⟩, fun h1 h2 => congrArg Host.Outcome.next (if_neg (by simp [h1, h2]))⟩
    have hb := (ByLinks.refl s).enterLink l .training 0
    exact ⟨by simp, by simp, fun m hm => linkAt_enterLink_other _ _ _ hm, hb.slots, hb.mem⟩
  case retry =>
    refine fun l s => ⟨fun h => ⟨_, congrArg Host.Outcome.next (if_pos h), ?_⟩, fun h => congrArg Host.Outcome.next (if_neg h)⟩
    have hb := (ByLinks.refl s).enterLink l .training 0
    exact ⟨by simp, fun m hm => linkAt_enterLink_other _ _ _ hm, hb.slots, hb.mem⟩
  case fail =>
    refine fun l s => ⟨fun h => ⟨_, congrArg Host.Outcome.next (if_pos h), ?_⟩, fun h => congrArg Host.Outcome.next (if_neg h)⟩
    have hb := ((ByLinks.refl s).enterLink l .down 0).setFlag (offLnkEvents l) 2
    exact ⟨by simp, setFlag_on _ _ _, fun m hm => by simp [linkAt_enterLink_other _ _ _ hm], hb.slots, hb.mem⟩
  case trained =>
    refine fun l r s => ⟨fun hst hl => ?_, execTrainingComplete_nothing⟩
    obtain ⟨t, ht, hn⟩ := execTrainingComplete_trained hst hl
    obtain ⟨hx, hlink, hflow, hflag⟩ := exchange_leaves l r (enterLink l (if r.lanes % 16 = 15 then .up else .half) (if r.lanes % 16 = 15 then 15 else lanePair r.lanes) s)
    have hb := (((ByLinks.refl s).enterLink l _ _).trans hx).trans (.notice hn)
    rw [linkAt_enterLink_same] at hlink
    refine ⟨t, ht, ?_⟩
    rw [hn.linkAt, hn.flowAt, hlink, hflow]
    exact ⟨rfl, rfl, rfl, rfl, rfl, rfl, rfl, fun h => hn.flags _ _ (hflag h), rfl, rfl, rfl, hb.slots, hb.mem⟩
  case lane =>
    intro l lane s
    refine ⟨fun h => ⟨_, execLaneFail_told (.inl h), ?_⟩, fun h hb => ⟨_, execLaneFail_told (.inr (.inl h)), ?_⟩, fun h => ⟨_, execLaneFail_told ?_, ?_⟩, fun h1 h2 h3 => ?_⟩
    · obtain ⟨hb, hlink, hflow, hflag⟩ := failLane_up (s := queueWord l (.laneFailed lane) s) h lane
      have hq := ((ByLinks.refl s).queueWord l (.laneFailed lane)).trans hb
      exact ⟨by rw [hlink], by rw [hlink, linkAt_queueWord], hflag, by rw [hflow, flowAt_queueWord_same], hq.slots, hq.mem⟩
    · rw [failLane_pair (s := queueWord l (.laneFailed lane) s) h hb]
      obtain ⟨hl, hlink, hflag⟩ := loseLink_lost l (setFlag (offLnkEvents l) 0 (queueWord l (.laneFailed lane) s))
      have hq := (((ByLinks.refl s).queueWord l (.laneFailed lane)).setFlag (offLnkEvents l) 0).trans hl
      exact ⟨by rw [hlink], by rw [hlink], hl.flags _ _ (setFlag_on _ _ _), hflag, hq.slots, hq.mem⟩
    · exact h.elim (fun h => .inr (.inl h.1)) (fun h => .inr (.inr h))
    · rw [failLane_idle (s := queueWord l (.laneFailed lane) s) h]
      have hq := (((ByLinks.refl s).queueWord l (.laneFailed lane)).setFlag (offLnkEvents l) 0)
      exact ⟨by simp, setFlag_on _ _ _, by simp, hq.slots, hq.mem⟩
    · exact congrArg Host.Outcome.next (if_neg (by simp [linkUp, h1, h2, h3]))
  case aligned =>
    refine fun l s => ⟨fun h hp => ⟨_, congrArg Host.Outcome.next (if_pos ⟨h, hp⟩), ?_⟩, fun h => congrArg Host.Outcome.next (if_neg ?_)⟩
    · have hb := ((ByLinks.refl s).enterLink l .half (lanePair (linkAt s l).lanes))
      exact ⟨by simp, by simp, by simp, hb.slots, hb.mem⟩
    · exact fun ⟨h1, h2⟩ => h.elim (fun h => h h1) h2
  case timeout =>
    refine fun l s => ⟨fun h => ⟨_, congrArg Host.Outcome.next (if_pos h), ?_⟩, fun h => congrArg Host.Outcome.next (if_neg h)⟩
    obtain ⟨hb, hlink, hflag⟩ := loseLink_lost l s
    exact ⟨by rw [hlink], by rw [hlink], hflag, hb.slots, hb.mem⟩
  case repaired =>
    refine fun l s => ⟨fun hst hf hw => ⟨fun hbase => ⟨widenLink l s, ?_, ?_⟩, fun img hbase => ?_⟩, fun h => congrArg Host.Outcome.next (if_neg ?_)⟩
    · exact congrArg Host.Outcome.next ((if_pos ⟨hst, hf, hw⟩).trans (by rw [hbase]))
    · have hb := ((ByLinks.refl s).enterLink l .up 15).setFlag (offLnkEvents l) 9
      exact ⟨by simp [widenLink], by simp [widenLink], setFlag_on _ _ _, hb.slots, hb.mem⟩
    · refine ⟨_, congrArg Host.Outcome.next ((if_pos ⟨hst, hf, hw⟩).trans (by rw [hbase])), ?_⟩
      have hn := (ByNotice.refl (modLink l (fun x => { x with widenAt := some (boundaryAfter img img.fallbackLead s) }) s)).revertPlan 1 l img
      have hb := ((ByLinks.refl s).modLink l _).trans (.notice hn)
      exact ⟨by rw [hn.linkAt, linkAt_modLink_same], hb.slots, hb.mem⟩
    · exact fun ⟨h1, h2, h3⟩ => h.elim (fun h => h h1) (fun h => h.elim (fun h => h h2) (fun h => h h3))
  case silent =>
    refine fun l s => ⟨fun h => ⟨_, congrArg Host.Outcome.next (if_pos h), ?_⟩, fun h => congrArg Host.Outcome.next (if_neg (by simp [h]))⟩
    have hb := (ByLinks.refl s).enterLink l .down 0
    exact ⟨by simp, by simp, by simp, hb.slots, hb.mem⟩

end Sys2Proof.Machine
end

section
/-! SUPPORT for O54. A frame's bytes (12 R321) read back as the frame that was written. -/

namespace Sys2Proof.Machine

/-! ### Little-endian fields (00 R7) -/

@[simp] theorem leBytes_length (n v : Nat) : (leBytes n v).length = n := by
  induction n generalizing v with
  | zero => rfl
  | succ n ih => rw [leBytes, List.length_cons, ih]

/-- Bytes of a number read as that number, as far as they hold it. -/
theorem leNat_leBytes (n v : Nat) : leNat (leBytes n v) = v % 256 ^ n := by
  induction n generalizing v with
  | zero => exact (Nat.mod_one v).symm
  | succ n ih =>
    rw [leBytes, leNat, ih, BitVec.toNat_ofNat, Nat.pow_succ' (m := 256)]
    exact (Nat.mod_mul (x := v) (a := 256) (b := 256 ^ n)).symm

/-- The field that a string begins with. -/
theorem fieldAt_here (n v : Nat) (b : Bytes) : fieldAt (leBytes n v ++ b) 0 n = v % 256 ^ n := by
  rw [fieldAt, List.drop_zero, List.take_left' (leBytes_length n v), leNat_leBytes]

/-- A field past some bytes is a field of the rest. -/
theorem fieldAt_past {a : Bytes} {n : Nat} (h : a.length = n) (b : Bytes) (off len : Nat) : fieldAt (a ++ b) (n + off) len = fieldAt b off len := by
  rw [fieldAt, fieldAt, ← h, List.drop_length_add_append]

/-- A field past a number's bytes is a field of the rest. -/
theorem fieldAt_skip {n off : Nat} (h : n ≤ off) (v len : Nat) (b : Bytes) : fieldAt (leBytes n v ++ b) off len = fieldAt b (off - n) len := by
  obtain ⟨k, rfl⟩ := Nat.exists_eq_add_of_le h
  rw [fieldAt_past (leBytes_length n v), Nat.add_sub_cancel_left]

/-- A field within some bytes does not see the rest. -/
theorem fieldAt_within {a : Bytes} {off len : Nat} (h : off + len ≤ a.length) (b : Bytes) : fieldAt (a ++ b) off len = fieldAt a off len := by
  rw [fieldAt, fieldAt, List.drop_append_of_le_length (by omega), List.take_append_of_le_length (by rw [List.length_drop]; omega)]

/-! ### The frame -/

theorem crc32c_lt (b : Bytes) : crc32c b < 256 ^ 4 := BitVec.isLt _

@[simp] theorem frameHead_length (f : LinkFrame) : (frameHead f).length = 28 := by
  simp only [frameHead, List.length_append, leBytes_length]
  rfl

/-- The parts of a frame on the wire: header, HCRC, payload, its CRC, padding. -/
theorem frameBytes_parts {f : LinkFrame} (h : f.payload.length = f.len) :
    frameBytes f = frameHead f ++ (leBytes 4 (crc32c (frameHead f)) ++ (f.payload ++ (leBytes 4 (crc32c f.payload)
      ++ List.replicate (ceilDiv (f.len + 4) 8 * 8 - (f.len + 4)) 0))) := by
  have hp : framePayloadBytes f = f.payload := by
    rw [framePayloadBytes, h, Nat.sub_self, List.replicate_zero, List.append_nil, ← h, List.take_length]
  rw [frameBytes, hp]
  simp only [List.append_assoc]

/-- Each field of the header, at its offset. -/
theorem frameHead_fields (f : LinkFrame) :
    fieldAt (frameHead f) 0 1 = f.cls % 256 ∧ fieldAt (frameHead f) 1 1 = f.type % 256 ∧ fieldAt (frameHead f) 2 2 = f.len % 65536
      ∧ fieldAt (frameHead f) 4 4 = f.linkSeq % 2 ^ 32 ∧ fieldAt (frameHead f) 8 4 = f.step % 2 ^ 32 ∧ fieldAt (frameHead f) 12 2 = f.id % 65536
      ∧ fieldAt (frameHead f) 14 2 = f.frame % 65536 ∧ fieldAt (frameHead f) 16 1 = f.run % 256 ∧ fieldAt (frameHead f) 17 1 = f.flags % 256
      ∧ fieldAt (frameHead f) 18 2 = f.src % 65536 ∧ fieldAt (frameHead f) 20 2 = f.dst % 65536 ∧ fieldAt (frameHead f) 24 4 = f.epoch % 2 ^ 32 := by
  have hz : ([0, 0] : Bytes) = leBytes 2 0 := rfl
  have hlast : fieldAt (leBytes 4 f.epoch) 0 4 = f.epoch % 256 ^ 4 := by simpa using fieldAt_here 4 f.epoch []
  unfold frameHead
  rw [hz]
  simp [List.append_assoc, fieldAt_skip, fieldAt_here, hlast]

/-- A field of the header, read from the whole frame. -/
theorem fieldAt_frameBytes {f : LinkFrame} (h : f.payload.length = f.len) {off len : Nat} (hl : off + len ≤ 28) :
    fieldAt (frameBytes f) off len = fieldAt (frameHead f) off len := by
  rw [frameBytes_parts h, fieldAt_within (by rw [frameHead_length]; exact hl)]

/-- A frame whose fields fit their places on the wire. -/
structure FrameFits (f : LinkFrame) : Prop where
  cls : f.cls < 256
  type : f.type < 256
  len : f.len < 65536
  linkSeq : f.linkSeq < 2 ^ 32
  step : f.step < 2 ^ 32
  id : f.id < 65536
  frame : f.frame < 65536
  run : f.run < 256
  flags : f.flags < 256
  src : f.src < 4096
  dst : f.dst < 4096
  epoch : f.epoch < 2 ^ 32
  payload : f.payload.length = f.len

/-- A frame whose fields fit reads back as it was written, with both CRCs holding. -/
theorem readFrame_frameBytes {f : LinkFrame} (h : FrameFits f) : readFrame (frameBytes f) = { f with hcrcOk := true, pcrcOk := true } := by
  obtain ⟨hcls, htype, hlen, hseq, hstep, hid, hframe, hrun, hflags, hsrc, hdst, hepoch, hpay⟩ := h
  obtain ⟨ecls, etype, elen, eseq, estep, eid, eframe, erun, eflags, esrc, edst, eepoch⟩ := frameHead_fields f
  have hlen' : fieldAt (frameBytes f) 2 2 = f.len := by rw [fieldAt_frameBytes hpay (by omega), elen, Nat.mod_eq_of_lt hlen]
  have hhead : (frameBytes f).take 28 = frameHead f := by rw [frameBytes_parts hpay, List.take_left' (frameHead_length f)]
  have hhcrc : fieldAt (frameBytes f) 28 4 = crc32c (frameHead f) := by
    rw [frameBytes_parts hpay, fieldAt_past (n := 28) (frameHead_length f) _ 0, fieldAt_here, Nat.mod_eq_of_lt (crc32c_lt _)]
  have hbody : ((frameBytes f).drop 32).take f.len = f.payload := by
    rw [frameBytes_parts hpay, ← List.append_assoc, List.drop_left' (by simp), List.take_left' hpay]
  have hpcrc : fieldAt (frameBytes f) (32 + f.len) 4 = crc32c f.payload := by
    rw [frameBytes_parts hpay, ← List.append_assoc, ← List.append_assoc]
    exact (fieldAt_past (n := 32 + f.len) (by simp only [List.length_append, frameHead_length, leBytes_length, hpay, Nat.reduceAdd]) _ 0 4).trans ((fieldAt_here _ _ _).trans (Nat.mod_eq_of_lt (crc32c_lt _)))
  unfold readFrame
  simp only [hlen', hhead, hhcrc, hbody, hpcrc, beq_self_eq_true]
  simp (disch := omega) only [fieldAt_frameBytes hpay, ecls, etype, eseq, estep, eid, eframe, erun, eflags, esrc, edst, eepoch, Nat.mod_eq_of_lt]

end Sys2Proof.Machine
end

section
/-! SUPPORT for O54. Receiving (12 R320 to R323, R331): a frame in sequence is taken, any other is refused once or dropped. -/

namespace Sys2Proof.Machine

variable {s t : State} {l : Nat}

/-! ### What a frame that is taken leaves -/

/-- A later state in which a link expects the same frame and has every control word pending that was. -/
structure Acked (l : Nat) (s t : State) : Prop where
  links : ByLinks s t
  expected : (linkAt t l).expected = (linkAt s l).expected
  nakOut : (linkAt t l).nakOut = (linkAt s l).nakOut
  fecCorrected : (linkAt t l).fecCorrected = (linkAt s l).fecCorrected
  words : (flowAt s l).words ⊆ (flowAt t l).words

namespace Acked

theorem refl (l : Nat) (s : State) : Acked l s s := ⟨.refl s, rfl, rfl, rfl, List.Subset.refl _⟩

theorem trans {u : State} (h : Acked l s t) (k : Acked l t u) : Acked l s u :=
  ⟨h.links.trans k.links, k.expected.trans h.expected, k.nakOut.trans h.nakOut, k.fecCorrected.trans h.fecCorrected, List.Subset.trans h.words k.words⟩

theorem of_links {u : State} (h : Acked l s t) (hb : ByLinks t u) (hl : u.links = t.links) : Acked l s u :=
  h.trans ⟨hb, by rw [linkAt_of_links hl], by rw [linkAt_of_links hl], by rw [linkAt_of_links hl], by rw [flowAt_of_links hl]; exact List.Subset.refl _⟩

theorem setFlag (off bit : Nat) (h : Acked l s t) : Acked l s (setFlag off bit t) := h.of_links ((ByLinks.refl t).setFlag off bit) (setFlag_links _ _ _)

/-- Queues of any link may grow. -/
theorem modFlow {f : LinkFlow → LinkFlow} (hf : ∀ x, x.words ⊆ (f x).words) (m : Nat) (h : Acked l s t) : Acked l s (modFlow m f t) := by
  refine h.trans ⟨(ByLinks.refl t).putFlow _ _, rfl, rfl, rfl, ?_⟩
  by_cases hm : l = m
  · subst hm
    rw [flowAt_modFlow_same]
    exact hf _
  · rw [Machine.modFlow, flowAt_putFlow_other _ _ hm]
    exact List.Subset.refl _

theorem queueWord (m : Nat) (w : ControlWord) (h : Acked l s t) : Acked l s (queueWord m w t) := h.modFlow (fun _ => List.subset_append_left _ _) m

theorem returnCredit (m cls : Nat) (h : Acked l s t) : Acked l s (returnCredit m cls t) := by
  unfold Machine.returnCredit
  split
  · exact h.queueWord _ _
  · split
    · exact h.queueWord _ _
    · split
      · exact h.queueWord _ _
      · exact h

theorem queueFrame (m : Nat) (q : Queued) (h : Acked l s t) : Acked l s (queueFrame m q t) := by
  refine h.modFlow (fun x => ?_) m
  split
  · exact List.Subset.refl _
  · split
    · exact List.Subset.refl _
    · split <;> exact List.Subset.refl _

theorem forwardFrame (m : Nat) (f : LinkFrame) (h : Acked l s t) : Acked l s (forwardFrame m f t) := by
  unfold Machine.forwardFrame
  split
  · exact h.queueFrame _ _
  · exact (h.setFlag _ _).returnCredit _ _

end Acked

/-! ### A SCHED frame that lands -/

theorem landPayload_changes (f : LinkFrame) (s : State) : ∃ m, landPayload f s = { s with fab := { s.fab with store := m } } := by
  unfold landPayload
  split
  · exact ⟨s.fab.store, rfl⟩
  · exact writeRegion_changes _ _ _ _ _

/-- Whatever the slack, landing a frame writes the Block store as its payload does. -/
theorem landSched_fab (l : Nat) (f : LinkFrame) (slack : Int) (s : State) : (landSched l f slack s).fab = (landPayload f s).fab := by
  unfold landSched
  dsimp only
  split
  · rw [setFlag_fab, setFlag_fab]
    rfl
  · rfl

theorem Acked.landSched (f : LinkFrame) (slack : Int) (h : Acked l s t) : Acked l s (landSched l f slack t) := by
  obtain ⟨m, hm⟩ := landPayload_changes f t
  have hp : Acked l s (landPayload f t) := by
    rw [hm]
    exact h.of_links ((ByLinks.refl t).update rfl rfl) rfl
  unfold Machine.landSched
  extract_lets s1 s2
  have h1 : Acked l s s2 := by
    refine hp.trans ⟨(ByLinks.refl _).modLink _ _, ?_, ?_, ?_, List.Subset.refl _⟩ <;>
    · rw [linkAt_modLink_same]
      split
      · split <;> rfl
      · rfl
  split
  · exact (h1.setFlag _ _).setFlag _ _
  · exact h1

/-- The bytes of a transfer's frame land in its region, and nothing else of any region changes (02 R52, 12 R322). -/
theorem landPayload_region {f : LinkFrame} {img : Image} {tr : Transfer} {g : Region} (hi : transferImage s f.id = some img)
    (ht : img.transfers.find? (fun t => t.id == f.id && t.dir == 1) = some tr) (hs : f.step = s.sched.step % 2 ^ 32) (hg : regionAt s tr.region = some g)
    (hlen : 4096 * f.frame + f.payload.length ≤ g.length) :
    landPayload f s = modStore tr.region (fun x => x.written (4096 * f.frame) f.payload) s := by
  unfold landPayload
  rw [hi, Option.bind_some, ht, ← writeRegion_fits hg hlen]
  simp [hs]

theorem modStore_written_reads {i o : Nat} {b : Bytes} (hw : Memory.wf (storeAt s i).now = true) :
    regionBytes (storeAt (modStore i (fun x => x.written o b) s) i) o b.length = b
      ∧ ∀ k a, k ≠ i ∨ a < o ∨ o + b.length ≤ a → regionByte (storeAt (modStore i (fun x => x.written o b) s) k) a = regionByte (storeAt s k) a := by
  refine ⟨by rw [storeAt_modStore_same]; exact RegionStore.written_reads hw o b, fun k a hk => ?_⟩
  by_cases h : k = i
  · subst h
    rw [storeAt_modStore_same]
    exact regionByte_write (hk.resolve_left (not_not_intro rfl))
  · rw [storeAt_modStore_other _ _ h]

/-! ### A received frame -/

/-- The symbol counts that come with every frame received. -/
def frameCounted (l c u : Nat) (s : State) : State :=
  modLink l (fun x => { x with fecCorrected := c, fecUncorrectable := satAdd 0xFFFFFFFF x.fecUncorrectable u }) s

/-- A frame refused: a NAK of the one expected. -/
def frameRefused (l c u : Nat) (s : State) : State :=
  queueWord l (.nak (linkAt s l).expected) (modLink l (fun x => { x with nakOut := true }) (frameCounted l c u s))

/-- A frame acknowledged, the next one expected. -/
def frameAcked (l c u seq : Nat) (s : State) : State :=
  queueWord l (.ack seq) (modLink l (fun x => { x with expected := (x.expected + 1) % 2 ^ 32, nakOut := false }) (frameCounted l c u s))

theorem execFrameReceive_up {b : Bytes} (slack : Int) (c u : Nat) (h : linkUp s l = true) :
    exec (.frameReceive l b slack c u) s = .next (
      if !(readFrame b).hcrcOk then frameRefused l c u s
      else if (readFrame b).linkSeq = (linkAt s l).expected then
        (if (readFrame b).pcrcOk then takeFrameIn l (readFrame b) slack (frameCounted l c u s) else frameRefused l c u s)
      else if ((readFrame b).linkSeq + 2 ^ 32 - (linkAt s l).expected) % 2 ^ 32 < 2 ^ 31 then
        (if (linkAt s l).nakOut then frameCounted l c u s else frameRefused l c u s)
      else frameCounted l c u s) := if_neg (by simp [h])

variable {b : Bytes} {slack : Int} {c u : Nat}

theorem execFrameReceive_sound (h : linkUp s l = true) (hh : (readFrame b).hcrcOk = true) (hp : (readFrame b).pcrcOk = true)
    (hs : (readFrame b).linkSeq = (linkAt s l).expected) :
    exec (.frameReceive l b slack c u) s = .next (takeFrameIn l (readFrame b) slack (frameCounted l c u s)) := by
  rw [execFrameReceive_up slack c u h, if_neg (by simp [hh]), if_pos hs, if_pos hp]

theorem execFrameReceive_refused (h : linkUp s l = true)
    (hf : (readFrame b).hcrcOk = false ∨ ((readFrame b).linkSeq = (linkAt s l).expected ∧ (readFrame b).pcrcOk = false)
      ∨ ((readFrame b).linkSeq ≠ (linkAt s l).expected ∧ ((readFrame b).linkSeq + 2 ^ 32 - (linkAt s l).expected) % 2 ^ 32 < 2 ^ 31 ∧ (linkAt s l).nakOut = false)) :
    exec (.frameReceive l b slack c u) s = .next (frameRefused l c u s) := by
  rw [execFrameReceive_up slack c u h]
  refine congrArg Host.Outcome.next ?_
  by_cases hh : (readFrame b).hcrcOk = false
  · rw [if_pos (by simp [hh])]
  · rw [if_neg (by simpa using hh)]
    rcases hf.resolve_left hh with ⟨hs, hp⟩ | ⟨hs, hlate, hn⟩
    · rw [if_pos hs, if_neg (by simp [hp])]
    · rw [if_neg hs, if_pos hlate, if_neg (by simp [hn])]

theorem execFrameReceive_dropped (h : linkUp s l = true) (hh : (readFrame b).hcrcOk = true) (hs : (readFrame b).linkSeq ≠ (linkAt s l).expected)
    (hf : 2 ^ 31 ≤ ((readFrame b).linkSeq + 2 ^ 32 - (linkAt s l).expected) % 2 ^ 32 ∨ (linkAt s l).nakOut = true) :
    exec (.frameReceive l b slack c u) s = .next (frameCounted l c u s) := by
  rw [execFrameReceive_up slack c u h, if_neg (by simp [hh]), if_neg hs]
  refine congrArg Host.Outcome.next ?_
  split
  · next hlate => exact if_pos (hf.resolve_left (Nat.not_le.2 hlate))
  · rfl

theorem takeFrameIn_acked (l : Nat) (f : LinkFrame) (slack : Int) (c u : Nat) (s : State) :
    Acked l (frameAcked l c u f.linkSeq s) (takeFrameIn l f slack (frameCounted l c u s)) := by
  change Acked l (frameAcked l c u f.linkSeq s) (if f.dst ≠ ownIndex (frameAcked l c u f.linkSeq s) then _ else _)
  have h := Acked.refl l (frameAcked l c u f.linkSeq s)
  split
  · exact h.forwardFrame _ _
  · split
    · split
      · exact h
      · exact h.landSched _ _
    · refine Acked.returnCredit _ _ ?_
      split
      · exact h.setFlag _ _
      · exact h

/-- A SCHED frame for this device, of a run that stands, lands. -/
theorem takeFrameIn_lands {f : LinkFrame} (hd : f.dst = ownIndex s) (hc : f.cls = 0) (hk : killedRun s f = false) :
    takeFrameIn l f slack (frameCounted l c u s) = landSched l f slack (frameAcked l c u f.linkSeq s) := by
  have hk' : killedRun (frameAcked l c u f.linkSeq s) f = false := hk
  change (if f.dst ≠ ownIndex s then _ else if f.cls = 0 then (if killedRun (frameAcked l c u f.linkSeq s) f = true then _ else _) else _) = _
  rw [if_neg (not_not_intro hd), if_pos hc, if_neg (by simp [hk'])]
  rfl

end Sys2Proof.Machine
end

section
/-! SUPPORT for O54. Control words (12 R320, R331) and a frame boundary (12 R324 to R329): what waits of a link, and what leaves first. -/

namespace Sys2Proof.Machine

variable {s t : State} {l : Nat}

/-! ### Control words -/

theorem execControlWord_ack (seq worst : Nat) (h : linkUp s l = true) : exec (.controlWord l (.ack seq) worst) s = .next (takeAck l seq s) :=
  congrArg Host.Outcome.next (if_pos h)

theorem execControlWord_nak (seq worst : Nat) (h : linkUp s l = true) : exec (.controlWord l (.nak seq) worst) s = .next (takeNak l seq worst s) :=
  congrArg Host.Outcome.next (if_pos h)

theorem execControlWord_credit (c m b worst : Nat) (h : linkUp s l = true) :
    exec (.controlWord l (.credit c m b) worst) s = .next (modFlow l (addCredit c m b) s) := congrArg Host.Outcome.next (if_pos h)

theorem execControlWord_laneFailed (lane worst : Nat) (h : linkUp s l = true) :
    exec (.controlWord l (.laneFailed lane) worst) s = .next (failLane l lane s) := congrArg Host.Outcome.next (if_pos h)

/-- NAKs of one frame in a row, with one more. -/
def nakCount (f : LinkFlow) (seq : Nat) : Nat := if f.nakSeq = seq ∧ f.nakRun ≠ 0 then f.nakRun + 1 else 1

/-- A NAK but the eighth in a row: the replay buffer is resent from the frame it names. -/
theorem takeNak_resends {seq : Nat} (h : ¬ ((flowAt s l).nakSeq = seq ∧ (flowAt s l).nakRun = 7)) (worst : Nat) :
    takeNak l seq worst s = putFlow l { flowAt s l with
      nakSeq := seq, nakRun := nakCount (flowAt s l) seq
      resend := (linkAt s l).replay.filter (fun g => decide ((g.linkSeq + 2 ^ 32 - seq) % 2 ^ 32 < 2 ^ 31)) } s := by
  have hrun : nakCount (flowAt s l) seq ≠ 8 := by
    unfold nakCount
    split
    · next hc => exact fun he => h ⟨hc.1, by omega⟩
    · decide
  exact if_neg hrun

/-! ### What a link's units do between two boundaries -/

/-- What of a link decides its next boundary before any class: its port, the words and resent frames that wait, and until when it is busy. -/
def boundaryView (l : Nat) (s : State) : Link × List ControlWord × List LinkFrame × Nat :=
  (linkAt s l, (flowAt s l).words, (flowAt s l).resend, (flowAt s l).busyUntil)

/-- A later state differs only in ports and queues, and every link's next boundary begins alike. -/
structure OnlyQueues (s t : State) : Prop where
  frame : t = { s with links := t.links }
  view : ∀ l, boundaryView l t = boundaryView l s

namespace OnlyQueues

theorem refl (s : State) : OnlyQueues s s := ⟨rfl, fun _ => rfl⟩

theorem trans {u : State} (h : OnlyQueues s t) (k : OnlyQueues t u) : OnlyQueues s u :=
  ⟨by rw [k.frame, h.frame], fun l => (k.view l).trans (h.view l)⟩

theorem putFlow {l : Nat} {f : LinkFlow} (hw : f.words = (flowAt s l).words) (hr : f.resend = (flowAt s l).resend) (hb : f.busyUntil = (flowAt s l).busyUntil) :
    OnlyQueues s (putFlow l f s) := by
  refine ⟨rfl, fun m => ?_⟩
  by_cases hm : m = l
  · subst hm
    simp [boundaryView, hw, hr, hb]
  · simp [boundaryView, flowAt_putFlow_other _ _ hm]

theorem queueFrame (l : Nat) (q : Queued) (s : State) : OnlyQueues s (queueFrame l q s) := by
  unfold Machine.queueFrame modFlow
  split
  · exact putFlow rfl rfl rfl
  · split
    · exact putFlow rfl rfl rfl
    · split <;> exact putFlow rfl rfl rfl

theorem queueAll (l : Nat) (fs : List LinkFrame) (h : OnlyQueues s t) : OnlyQueues s (queueAll l fs t) :=
  foldl_induct (OnlyQueues s) (fun u _ hu => hu.trans (queueFrame _ _ u)) fs h

end OnlyQueues

/-- The shapers' credits and instants are all that running them changes. -/
theorem runShapers_changes (l t : Nat) (sp : List Window × List Window) (s : State) (f : LinkFlow) :
    runShapers l t sp s f = { f with
      ctrlShaper := (runShapers l t sp s f).ctrlShaper, ctrlAt := (runShapers l t sp s f).ctrlAt
      migrShaper := (runShapers l t sp s f).migrShaper, migrAt := (runShapers l t sp s f).migrAt } := by
  unfold runShapers
  dsimp only
  split <;> split <;> rfl

/-! ### A frame boundary -/

/-- The instant of a frame boundary, in phase units. -/
def boundaryAt (phase : Nat) (s : State) : Nat := s.cad.beat * 4096 + phase % 4096

/-- The link with its shapers brought up to the boundary. -/
def shaped (l phase : Nat) (s : State) : State :=
  putFlow l (runShapers l (boundaryAt phase s) (linkSpans s l) s (flowAt s l)) s

/-- The link as a frame boundary finds it: shapers brought up, the queued frames in their queues. -/
def atBoundary (l phase : Nat) (queued : List LinkFrame) (s : State) : State := queueAll l queued (shaped l phase s)

theorem shaped_queues (l phase : Nat) (s : State) : OnlyQueues s (shaped l phase s) := by
  unfold shaped
  rw [runShapers_changes]
  exact OnlyQueues.putFlow rfl rfl rfl

theorem atBoundary_queues (l phase : Nat) (queued : List LinkFrame) (s : State) : OnlyQueues s (atBoundary l phase queued s) :=
  (shaped_queues l phase s).queueAll l queued

/-- What leaves at a frame boundary that is free: words, then a frame to be resent, then the class chosen. -/
def boundaryStep (l t : Nat) (sp : List Window × List Window) (f : LinkFlow) (s : State) : State :=
  if !f.words.isEmpty then f.words.foldl (fun s w => send (.control l w) s) (putFlow l { f with words := [] } s)
  else match f.resend with
    | g :: _ => resendFrame l t g s
    | [] =>
      match chooseClass s l t sp f with
      | none => s
      | some cls =>
        match (match cls with | 0 => f.sched | 1 => f.migr | 2 => f.ctrl | _ => f.bulk) with
        | q :: _ => sendQueued l t cls q s
        | [] => s

theorem execFrameTransmit_down (phase : Nat) (h : linkUp s l = false) : exec (.frameTransmit l phase []) s = .next s :=
  if_pos (by simp [h])

theorem execFrameTransmit_busy {phase : Nat} (queued : List LinkFrame) (h : linkUp s l = true) (hb : boundaryAt phase s < (flowAt s l).busyUntil) :
    exec (.frameTransmit l phase queued) s = .next (atBoundary l phase queued s) := by
  have hv : (flowAt (atBoundary l phase queued s) l).busyUntil = (flowAt s l).busyUntil :=
    congrArg (fun v => v.2.2.2) ((atBoundary_queues l phase queued s).view l)
  change (if (!linkUp s l) = true then _ else if boundaryAt phase s < (flowAt (atBoundary l phase queued s) l).busyUntil then _ else _) = _
  rw [if_neg (by simp [h]), if_pos (hv.symm ▸ hb)]
  rfl

theorem execFrameTransmit_free {phase : Nat} (queued : List LinkFrame) (h : linkUp s l = true) (hb : (flowAt s l).busyUntil ≤ boundaryAt phase s) :
    exec (.frameTransmit l phase queued) s = .next (boundaryStep l (boundaryAt phase s) (linkSpans s l) (flowAt (atBoundary l phase queued s) l) (atBoundary l phase queued s)) := by
  have hv : (flowAt (atBoundary l phase queued s) l).busyUntil = (flowAt s l).busyUntil :=
    congrArg (fun v => v.2.2.2) ((atBoundary_queues l phase queued s).view l)
  change execFrameTransmit l phase queued s = _
  unfold execFrameTransmit
  rw [if_neg (by simp [h])]
  extract_lets t sp s1 s2 f
  change _ = Host.Outcome.next (boundaryStep l t sp f s2)
  rw [if_neg (Nat.not_lt.2 (hv.symm ▸ hb))]
  clear_value f s2
  unfold boundaryStep
  by_cases hw : (!f.words.isEmpty) = true
  · rw [if_pos hw, if_pos hw]
  · rw [if_neg hw, if_neg hw]
    cases f.resend with
    | cons g rest => rfl
    | nil =>
      cases chooseClass s2 l t sp f with
      | none => rfl
      | some cls =>
        rcases cls with _ | _ | _ | n
        · cases f.sched <;> rfl
        · cases f.migr <;> rfl
        · cases f.ctrl <;> rfl
        · cases f.bulk <;> rfl

end Sys2Proof.Machine
end

section
/-! PROOF of O54. Frames in sequence (12 R320 to R323, R331) and their departure by class (12 R324 to R329; log entries 68, 82). -/

namespace Sys2Proof.Machine

variable {s t : State} {l : Nat}

/-! ### What leaves at a boundary -/

/-- A flag raises an interrupt at most: no message leaves. -/
theorem setFlag_msgs (off bit : Nat) (s : State) : (setFlag off bit s).out.msgs = s.out.msgs :=
  eq_of_aside offCadence (fun s => s.out.msgs) (fun _ => rfl) (offCadence_setFlag off bit s)

theorem OnlyQueues.byLinks (h : OnlyQueues s t) : ByLinks s t := by
  rw [h.frame]
  exact ⟨rfl, .of_eq rfl⟩

theorem OnlyQueues.out (h : OnlyQueues s t) : t.out = s.out := by rw [h.frame]

/-- Every pending word leaves, and no other one of the link's queues changes. -/
theorem boundaryStep_words {f : LinkFlow} (hw : f.words ≠ []) (i : Nat) (sp : List Window × List Window) (s : State) :
    boundaryStep l i sp f s = { putFlow l { f with words := [] } s with
      out := { s.out with msgs := s.out.msgs ++ f.words.map (fun w => .control l w) } } :=
  (if_pos (by simpa using hw)).trans (foldl_send_eq (fun _ w => .control l w) (fun _ _ _ => rfl) f.words _)

theorem boundaryStep_resend {f : LinkFlow} {g : LinkFrame} {rest : List LinkFrame} (hw : f.words = []) (hr : f.resend = g :: rest) (i : Nat)
    (sp : List Window × List Window) (s : State) : boundaryStep l i sp f s = resendFrame l i g s := by
  simp [boundaryStep, hw, hr]

theorem boundaryStep_bulk {f : LinkFlow} {q : Queued} {rest : List Queued} {i : Nat} {sp : List Window × List Window} (hw : f.words = []) (hr : f.resend = [])
    (hb : f.bulk = q :: rest) (hc : chooseClass s l i sp f = some 3) : boundaryStep l i sp f s = sendQueued l i 3 q s := by
  simp [boundaryStep, hw, hr, hb, hc]

/-- A resent frame leaves as it was, counted and flagged. -/
theorem resendFrame_leaves (i : Nat) (g : LinkFrame) (s : State) :
    ByLinks s (resendFrame l i g s) ∧ (resendFrame l i g s).out.msgs = s.out.msgs ++ [.frame l (frameBytes g)]
      ∧ (flowAt (resendFrame l i g s) l).resend = (flowAt s l).resend.drop 1 ∧ (linkAt (resendFrame l i g s) l).retry = satAdd (2 ^ 64 - 1) (linkAt s l).retry 1
      ∧ (getFlag (resendFrame l i g s) (offLnkEvents l) 3).on = true := by
  unfold resendFrame
  extract_lets s1 s2
  have h2 : ByLinks s s2 := ((ByLinks.refl s).modLink l _).putFlow _ _
  have hlink : linkAt s2 l = { linkAt s l with retry := satAdd (2 ^ 64 - 1) (linkAt s l).retry 1 } :=
    linkAt_modLink_same l (fun x => { x with retry := satAdd (2 ^ 64 - 1) x.retry 1 }) s
  have hflow : (flowAt s2 l).resend = (flowAt s l).resend.drop 1 := congrArg LinkFlow.resend (flowAt_modFlow_same _ _ s1)
  refine ⟨(h2.setFlag _ _).update rfl rfl, congrArg (· ++ _) (setFlag_msgs _ _ s2), ?_, ?_, setFlag_on _ _ s2⟩
  · exact (congrArg LinkFlow.resend (flowAt_setFlag _ _ s2 l)).trans hflow
  · exact (congrArg Link.retry (linkAt_setFlag _ _ s2 l)).trans (congrArg Link.retry hlink)

/-! ### The choice of a class -/

/-- The one span of a link under no image: MIGR, CTRL and BULK open (12 R328). -/
theorem linkSpans_idle (h : s.sched.active = none) (l : Nat) : linkSpans s l = ([⟨0, 2 ^ 80, 14, 0xFF⟩], []) := by
  simp [linkSpans, h]

theorem gateOpen_span (e t : Nat) : gateOpen ([⟨0, e, 14, 0xFF⟩], []) 3 t = decide (t < e) := by
  simp [gateOpen, bitOf]

theorem gateCloses_span {e t : Nat} (h : t < e) : gateCloses ([⟨0, e, 14, 0xFF⟩], []) 3 t = e := by
  have he : gateEdges ([⟨0, e, 14, 0xFF⟩], []) t = [e] := by simp [gateEdges, h]
  simp [gateCloses, he, gateOpen_span]

/-- With one span open and no frame of another class waiting, a BULK frame with credit and room goes. -/
theorem chooseClass_bulk {f : LinkFlow} {q : Queued} {rest : List Queued} {i e : Nat} (hs : f.sched = []) (hc : f.ctrl = []) (hm : f.migr = [])
    (hb : f.bulk = q :: rest) (hcredit : 0 < f.bulkCredit) (hcarries : linkCarries s l q.frame = true) (hroom : i + occupancy s l q.frame.len < e) :
    chooseClass s l i ([⟨0, e, 14, 0xFF⟩], []) f = some 3 := by
  have hi : i < e := by omega
  simp only [chooseClass, hs, hc, hm, hb, gateOpen_span, gateCloses_span hi]
  simp [hcredit, hcarries, hi, Nat.le_of_lt hroom]

/-- A queued BULK frame leaves with the link's next sequence number. -/
theorem sendQueued_bulk {q : Queued} {rest : List Queued} (hq : (flowAt s l).bulk = q :: rest) (hv : q.via = none) (i : Nat) :
    (sendQueued l i 3 q s).out.msgs = s.out.msgs ++ [.frame l (frameBytes { q.frame with linkSeq := (linkAt s l).nextSeq })]
      ∧ (flowAt (sendQueued l i 3 q s) l).bulk = rest ∧ (flowAt (sendQueued l i 3 q s) l).bulkCredit = (flowAt s l).bulkCredit - 1
      ∧ (linkAt (sendQueued l i 3 q s) l).nextSeq = ((linkAt s l).nextSeq + 1) % 2 ^ 32
      ∧ sendQueued l i 3 q s = { s with links := (sendQueued l i 3 q s).links, out := (sendQueued l i 3 q s).out } := by
  have hflow {f : LinkFlow} {m : Msg} {u : State} : flowAt (send m (putFlow l f u)) l = f := flowAt_putFlow_same l f u
  have hlink {f : LinkFlow} {m : Msg} {u : State} : linkAt (send m (putFlow l f u)) l = linkAt u l := rfl
  unfold sendQueued
  simp only [hv, hflow, hlink, linkAt_modLink_same, flowAt_modLink, hq, List.drop_one, List.tail_cons, true_and]
  exact ⟨rfl, rfl⟩

/-! ### The obligation -/

theorem storeAt_of_fab (h : t.fab = s.fab) (k : Nat) : storeAt t k = storeAt s k := by rw [storeAt, h, storeAt]

/-- Settles O54: the bytes of a frame by its fields, a received frame by its place in the sequence, a boundary by what waits first. -/
theorem framesInSequence : Obligations.FramesInSequence := by
  refine ⟨?bytes, ?sound, ?lands, ?refused, ?dropped, ?down, ?credit, ?words, ?busy, ?wordsLeave, ?resent, ?bulk⟩
  case bytes =>
    exact fun f h1 h2 h3 h4 h5 h6 h7 h8 h9 h10 h11 h12 h13 => readFrame_frameBytes ⟨h1, h2, h3, h4, h5, h6, h7, h8, h9, h10, h11, h12, h13⟩
  case sound =>
    rintro l b f slack c u s rfl hu hh hp hs
    have ha := takeFrameIn_acked l (readFrame b) slack c u s
    refine ⟨_, execFrameReceive_sound hu hh hp hs, ?_, ?_, ha.words ?_, ?_, ha.links.slots, ha.links.mem⟩
    · rw [ha.expected]; simp [frameAcked, frameCounted]
    · rw [ha.nakOut]; simp [frameAcked]
    · simp [frameAcked]
    · rw [ha.fecCorrected]; simp [frameAcked, frameCounted]
  case lands =>
    rintro l b f slack c u img tr g s rfl hu hh hp hs hd hc hk hi ht hstep hg hlen hw -
    refine ⟨_, (execFrameReceive_sound hu hh hp hs).trans (congrArg Host.Outcome.next (takeFrameIn_lands hd hc hk)), ?_⟩
    have hst := storeAt_of_fab (landSched_fab l (readFrame b) slack (frameAcked l c u (readFrame b).linkSeq s))
    rw [landPayload_region (s := frameAcked l c u (readFrame b).linkSeq s) hi ht hstep hg hlen] at hst
    simp only [hst]
    exact modStore_written_reads (s := frameAcked l c u (readFrame b).linkSeq s) hw
  case refused =>
    rintro l b f slack c u s rfl hu hf
    exact ⟨_, execFrameReceive_refused hu hf, by simp [frameRefused, frameCounted], by simp [frameRefused], by simp [frameRefused, frameCounted], rfl⟩
  case dropped =>
    rintro l b f slack c u s rfl hu hh hs hf
    exact ⟨_, execFrameReceive_dropped hu hh hs hf, by simp [frameCounted], by simp [frameCounted], rfl⟩
  case down =>
    exact fun l b slack c u phase worst w s h => ⟨if_pos (by simp [h]), congrArg Host.Outcome.next (if_neg (by simp [h])), execFrameTransmit_down phase h⟩
  case credit =>
    exact fun l c m b w s h => ⟨_, execControlWord_credit c m b w h, flowAt_modFlow_same _ _ _, rfl⟩
  case words =>
    intro l seq w s h
    refine ⟨⟨_, execControlWord_ack seq w h, ?_, rfl⟩, fun hn => ⟨_, execControlWord_nak seq w h, ?_⟩, fun hst => ⟨_, execControlWord_laneFailed seq w h, ?_⟩⟩
    · rw [takeAck, flowAt_modFlow_same]
      split <;> rfl
    · rw [takeNak_resends hn w, flowAt_putFlow_same]
      exact ⟨rfl, rfl, rfl⟩
    · obtain ⟨-, hlink, -, hflag⟩ := failLane_up hst seq
      exact ⟨by rw [hlink], by rw [hlink], hflag⟩
  case busy =>
    exact fun l phase queued s h hb => ⟨_, execFrameTransmit_busy queued h hb, (atBoundary_queues l phase queued s).frame⟩
  case wordsLeave =>
    intro l phase queued s h hw hb
    have hq := atBoundary_queues l phase queued s
    have hw' : (flowAt (atBoundary l phase queued s) l).words = (flowAt s l).words := congrArg (fun v => v.2.1) (hq.view l)
    refine ⟨_, execFrameTransmit_free queued h hb, ?_⟩
    rw [boundaryStep_words (hw'.symm ▸ hw), hw']
    refine ⟨congrArg (fun o : Outbox => o.msgs ++ _) hq.out, congrArg LinkFlow.words (flowAt_putFlow_same l _ _), ?_⟩
    rw [hq.frame]
    rfl
  case resent =>
    intro l phase queued g rest s h hw hr hb
    have hq := atBoundary_queues l phase queued s
    have hw' : (flowAt (atBoundary l phase queued s) l).words = (flowAt s l).words := congrArg (fun v => v.2.1) (hq.view l)
    have hr' : (flowAt (atBoundary l phase queued s) l).resend = (flowAt s l).resend := congrArg (fun v => v.2.2.1) (hq.view l)
    have hl' : linkAt (atBoundary l phase queued s) l = linkAt s l := congrArg (fun v => v.1) (hq.view l)
    refine ⟨_, execFrameTransmit_free queued h hb, ?_⟩
    rw [boundaryStep_resend (hw'.trans hw) (hr'.trans hr)]
    obtain ⟨hbl, hmsgs, hres, hretry, hflag⟩ := resendFrame_leaves (l := l) (boundaryAt phase s) g (atBoundary l phase queued s)
    have hall := hq.byLinks.trans hbl
    exact ⟨by rw [hmsgs, hq.out], by rw [hres, hr', hr]; rfl, by rw [hretry, hl'], hflag, hall.slots, hall.mem⟩
  case bulk =>
    intro l phase q rest s h ha hw hr hb hsched hctrl hmigr hbulk hcredit hvia hcarries hroom
    have hflow : flowAt (atBoundary l phase [] s) l = runShapers l (boundaryAt phase s) (linkSpans s l) s (flowAt s l) := flowAt_putFlow_same _ _ _
    rw [runShapers_changes] at hflow
    have hq := shaped_queues l phase s
    have hchoice : chooseClass (atBoundary l phase [] s) l (boundaryAt phase s) (linkSpans s l) (flowAt (atBoundary l phase [] s) l) = some 3 := by
      rw [linkSpans_idle ha, hflow]
      exact chooseClass_bulk hsched hctrl hmigr hbulk hcredit hcarries hroom
    refine ⟨_, execFrameTransmit_free [] h hb, ?_⟩
    rw [boundaryStep_bulk (by rw [hflow]; exact hw) (by rw [hflow]; exact hr) (by rw [hflow]; exact hbulk) hchoice]
    obtain ⟨hmsgs, hrest, hcr, hseq, hframe⟩ := sendQueued_bulk (s := atBoundary l phase [] s) (q := q) (rest := rest) (by rw [hflow]; exact hbulk) hvia (boundaryAt phase s)
    exact ⟨hmsgs, hrest, by rw [hcr, hflow], hseq, hframe⟩

end Sys2Proof.Machine
end

section
/-! PROOF of O34. Notices about a session at its ring's other devices (12 R340; 09 R232, R240), capsule parts (04 R109), and departures (02 R49; 16 R433). -/

namespace Sys2Proof.Machine

variable {s : State} {n : SessionNotice}

/-! ### Frames that fall due (04 R95; log entry 17) -/

/-- Under an image, frames wait for the step boundary. -/
theorem framesDue_later (l : List Nat) (ha : s.sched.active ≠ none) :
    framesDue l s = { s with tier := { s.tier with due := s.tier.due ++ l.filter (fun a => a != 0) } } := by
  induction l generalizing s with
  | nil => simp [framesDue]
  | cons a rest ih =>
    change framesDue rest (frameDue a s) = _
    by_cases h0 : a = 0
    · rw [frameDue, if_pos h0, ih ha]
      simp [h0]
    · rw [frameDue, if_neg h0, if_neg (by simpa using ha)]
      exact (ih (s := { s with tier := { s.tier with due := s.tier.due ++ [a] } }) ha).trans (by simp [h0])

theorem framesDue_slots (l : List Nat) (s : State) : (framesDue l s).slots = s.slots := eq_of_aside offFrames State.slots (fun _ => rfl) (offFrames_framesDue l s)

/-! ### Places -/

/-- The schedule after a withdrawal: the session's places withdrawn in every seal, its candidacy gone. -/
theorem emptyPlaces_sched (h : Nat) (s : State) : (emptyPlaces h s).sched = { s.sched with
    sealPrev := s.sched.sealPrev.map (SealedMb.without h), sealNow := s.sched.sealNow.map (SealedMb.without h)
    sealNext := s.sched.sealNext.map (SealedMb.without h), candidates := s.sched.candidates.filter (fun e => e.2.handle != h) } := rfl

/-- No place of the session is left in a seal that a withdrawal has gone through. -/
theorem emptyPlaces_withdrawn (h : Nat) (s : State) : ∀ m ∈ (emptyPlaces h s).sched.sealPrev ++ (emptyPlaces h s).sched.sealNow ++ (emptyPlaces h s).sched.sealNext,
    ∀ p ∈ m.places, p.handle = h → p.withdrawn = true := by
  intro m hm p hp hh
  rw [emptyPlaces_sched, ← List.map_append, ← List.map_append] at hm
  obtain ⟨r, -, rfl⟩ := List.mem_map.1 hm
  exact SealedMb.withdrawn_of_mem_without hp hh

theorem emptyPlaces_candidates (h : Nat) (s : State) : ∀ e ∈ (emptyPlaces h s).sched.candidates, e.2.handle ≠ h := by
  intro e he
  rw [emptyPlaces_sched] at he
  simpa using (List.mem_filter.1 he).2

/-! ### The notices -/

theorem execCancelNotice_away (h : handleHome n.handle ≠ ownIndex s) :
    exec (.cancelNotice n) s = .next { framesDue ((guestAt s n.handle).pages.map (fun p => p.frame)) (emptyPlaces n.handle s) with
      slots := { s.slots with guests := FMap.del s.slots.guests n.handle } } := by
  change execCancelNotice n s = _
  rw [execCancelNotice, if_neg h]
  dsimp only
  rw [framesDue_slots]
  rfl

theorem execCopyNotice_away (hp : (guestAt s n.handle).pages ≠ []) (h : handleHome n.handle ≠ ownIndex s) (hc : (guestAt s n.handle).d.copying = false) :
    ∃ peer, exec (.copyNotice n) s = .next (startCopy n.handle (putGuest n.handle { guestAt s n.handle with
      dirty := allTiles s (guestAt s n.handle), sending := [], d := { (guestAt s n.handle).d with copying := true, copyPasses := 0, peer := peer } } s)) :=
  ⟨_, if_neg (by simp [hp, h, hc])⟩

/-! ### Capsule parts -/

/-- The parts of a capsule with one more, in place of an earlier one of its position (04 R109). -/
def withPart (position : Nat) (body : Bytes) (l : List (Nat × Bytes)) : List (Nat × Bytes) := l.filter (fun e => e.1 != position) ++ [(position, body)]

theorem withPart_stands (position : Nat) (body : Bytes) (l : List (Nat × Bytes)) :
    (position, body) ∈ withPart position body l ∧ ∀ e ∈ withPart position body l, e.1 = position → e.2 = body := by
  refine ⟨List.mem_append_right _ (List.mem_singleton_self _), fun e he hp => ?_⟩
  rcases List.mem_append.1 he with h | h
  · exact absurd hp (by simpa using (List.mem_filter.1 h).2)
  · rw [List.mem_singleton.1 h]

theorem execPart_home {handle slot : Nat} (position : Nat) (body : Bytes) (h : liveSlot s handle = some slot) :
    exec (.part handle position body) s = .next (modSession slot (fun x => { x with parts := withPart position body x.parts }) s) := by
  change execPart handle position body s = _
  rw [execPart, h]
  rfl

theorem execPart_away {handle : Nat} (position : Nat) (body : Bytes) (h : liveSlot s handle = none) (hh : handleHome handle ≠ ownIndex s) :
    exec (.part handle position body) s = .next (putGuest handle { guestAt s handle with parts := withPart position body (guestAt s handle).parts } s) := by
  change execPart handle position body s = _
  rw [execPart, h]
  exact congrArg Host.Outcome.next (if_neg hh)

theorem guestAt_putGuest_other {h k : Nat} (x : Session) (s : State) (hk : k ≠ h) : guestAt (putGuest h x s) k = guestAt s k := by
  simp [guestAt, FMap.getD_put_other _ _ _ hk]

/-! ### Departures -/

theorem nameDeparture_first {member : Nat} (boundary : Nat) (rings : List Nat) (h : ∀ e ∈ s.sched.departures, e.1 ≠ member) :
    nameDeparture member boundary rings s = { s with sched := { s.sched with departures := s.sched.departures ++ [(member, boundary, rings)] } } := by
  have hn : s.sched.departures.find? (fun e => e.1 == member) = none := List.find?_eq_none.2 (fun e he => by simpa using h e he)
  rw [nameDeparture, hn]

theorem nameDeparture_again {member : Nat} (boundary : Nat) (rings : List Nat) (h : ∃ e ∈ s.sched.departures, e.1 = member) :
    nameDeparture member boundary rings s = { s with sched := { s.sched with departures := s.sched.departures.map (fun e =>
      if e.1 = member then (member, min e.2.1 boundary, (e.2.2 ++ rings).eraseDups) else e) } } := by
  obtain ⟨e, he⟩ := Option.isSome_iff_exists.1 (List.find?_isSome.2 (by simpa using h : ∃ e ∈ s.sched.departures, (e.1 == member) = true))
  rw [nameDeparture, he]

/-- A silent member that no ring of the image has, or this device itself, is not named. -/
theorem execMemberLost_ignored {member : Nat} {img : Image} (ha : s.sched.active = some img)
    (h : member = ownIndex s ∨ (img.rings.filter (fun r => r.members.contains member)).map (fun r => r.ringId) = []) : exec (.memberLost member) s = .next s := by
  change execMemberLost member s = _
  rw [execMemberLost, ha]
  exact if_pos (h.imp_right List.isEmpty_iff.2)

theorem execMemberLost_named {member : Nat} {img : Image} {rings : List Nat} (ha : s.sched.active = some img)
    (hr : rings = (img.rings.filter (fun r => r.members.contains member)).map (fun r => r.ringId)) (hm : member ≠ ownIndex s) (hne : rings ≠ []) :
    exec (.memberLost member) s = .next (send (.departureOf member (boundaryAfter img img.fallbackLead s) rings)
      (nameDeparture member (boundaryAfter img img.fallbackLead s) rings s)) := by
  change execMemberLost member s = _
  rw [execMemberLost, ha]
  dsimp only
  rw [← hr, if_neg (by simp [hm, hne])]

/-- Settles O34: the withdrawal of places, the copy's queue and the parts by what each leaves, departures by the first and the later naming. -/
theorem sessionAndDepartureNotices : Obligations.SessionAndDepartureNotices := by
  refine ⟨?cancel, ?withdrawal, ?copy, ?home, ?partHome, ?partAway, ?departs, ?others, ?silent, ?idle⟩
  case cancel =>
    intro n s h
    refine ⟨_, execCancelNotice_away h, FMap.get?_del_same _ _, ?_, ?_, rfl, fun ha => ?_, rfl⟩
    · simp only [framesDue_sched]
      exact emptyPlaces_withdrawn n.handle s
    · simp only [framesDue_sched]
      exact emptyPlaces_candidates n.handle s
    · rw [framesDue_later _ (s := emptyPlaces n.handle s) ha]
      rfl
  case withdrawal =>
    exact fun n s h => ⟨_, congrArg Host.Outcome.next (if_neg h), emptyPlaces_withdrawn n.handle s, rfl, rfl, rfl, rfl, rfl⟩
  case copy =>
    intro n s hp h hc _
    obtain ⟨peer, he⟩ := execCopyNotice_away hp h hc
    have hg (x : Session) : guestAt (startCopy n.handle (putGuest n.handle x s)) n.handle = x := guestAt_putGuest_same n.handle x s
    obtain ⟨hpass, hfinal⟩ := startCopy_queues n.handle (putGuest n.handle { guestAt s n.handle with
      dirty := allTiles s (guestAt s n.handle), sending := [], d := { (guestAt s n.handle).d with copying := true, copyPasses := 0, peer := peer } } s)
    exact ⟨_, he, by rw [hg], by rw [hg], by rw [hg], hpass, hfinal, rfl, rfl⟩
  case home =>
    exact fun n s h => ⟨if_pos h, congrArg Host.Outcome.next (if_pos h), if_pos (by simp [h])⟩
  case partHome =>
    intro handle position slot body s h
    refine ⟨_, execPart_home position body h, ?_⟩
    rw [sessionAt_modSession_same]
    obtain ⟨hin, hall⟩ := withPart_stands position body (sessionAt s slot).parts
    exact ⟨hin, hall, rfl, fun m hm => sessionAt_modSession_other _ s hm⟩
  case partAway =>
    intro handle position body s h hh
    refine ⟨_, execPart_away position body h hh, ?_⟩
    rw [guestAt_putGuest_same]
    obtain ⟨hin, hall⟩ := withPart_stands position body (guestAt s handle).parts
    exact ⟨hin, hall, rfl, rfl, fun k hk => guestAt_putGuest_other _ s hk⟩
  case departs =>
    intro member boundary rings s hr
    have he : exec (.departure member boundary rings) s = .next (nameDeparture member boundary rings s) :=
      congrArg Host.Outcome.next (if_pos (by simpa using hr))
    exact ⟨fun h => he.trans (congrArg _ (nameDeparture_first boundary rings h)), fun h => he.trans (congrArg _ (nameDeparture_again boundary rings h))⟩
  case others =>
    exact fun member rings boundary s hr => congrArg Host.Outcome.next (if_neg (by simpa using hr))
  case silent =>
    rintro member b img rings s ha hr rfl
    refine ⟨fun h => execMemberLost_ignored ha (hr ▸ h), fun hm hne hd => (execMemberLost_named ha hr hm hne).trans ?_⟩
    rw [nameDeparture_first _ _ hd]
    rfl
  case idle =>
    intro member s ha
    change execMemberLost member s = _
    rw [execMemberLost, ha]

end Sys2Proof.Machine
end

section
/-! PROOF of O33. What ring members and homes send one another: forwarded commands, their data and their replies (12 R338), candidates and seals (09 R227; 12 R341). -/

namespace Sys2Proof.Machine

variable {s t : State} {p : Packet} {sender : Nat}

/-! ### A forwarded command at its home -/

/-- The packet stands among those relayed here. -/
def relaying (sender : Nat) (p : Packet) (s : State) : State :=
  if s.comp.relayed.contains (sender, p) then s else { s with comp := { s.comp with relayed := s.comp.relayed ++ [(sender, p)] } }

theorem execForward_waits (h : awaitsData p = true) : exec (.forward sender p) s = .next (relaying sender p s) := congrArg Host.Outcome.next (if_pos h)

theorem execForward_serves (h : awaitsData p = false) : exec (.forward sender p) s = .next (serveForwarded sender p [] none (relaying sender p s)) :=
  congrArg Host.Outcome.next (if_neg (by simp [h]))

section
variable {buf : Bytes} {cap : Option SessionCapsule} {u : State}

theorem serveForwarded_refuse {a : Ans} (h : checkHandle p 0 s = .refuse u a) : serveForwarded sender p buf cap s = dropRelayed (sender, p) (reply p a u) := by
  rw [serveForwarded, h]

theorem serveForwarded_onward {dest : Nat} (h : checkHandle p 0 s = .forward dest u) :
    serveForwarded sender p buf cap s = dropRelayed (sender, p) (forwardTo dest p buf (await (.forwarded (tagOf p)) (originOf p u) u)) := by
  rw [serveForwarded, h]

theorem serveForwarded_waits {c : Nat} (h : checkHandle p 0 s = .run c u) (hw : forwardedWaits p u = true) : serveForwarded sender p buf cap s = u := by
  rw [serveForwarded, h]
  exact if_pos hw

theorem serveForwarded_runs {c : Nat} {body : Nat → Packet → State → State} (h : checkHandle p 0 s = .run c u) (hw : forwardedWaits p u = false)
    (hb : forwardedBody p buf cap = some body) : serveForwarded sender p buf cap s = dropRelayed (sender, p) (body c p u) := by
  rw [serveForwarded, h]
  dsimp only
  rw [if_neg (by simp [hw]), hb]

end

/-- A command that names no host data goes on alone. -/
theorem forwardTo_alone (h : awaitsData p = false) (dest : Nat) (s : State) : forwardTo dest p [] s = send (.forward dest p) s :=
  if_pos ⟨rfl, fun ho => by simp [awaitsData, ho] at h⟩

/-! ### HOSTDATA -/

section
variable {source tag addr : Nat} {data : Bytes} {cap : Option SessionCapsule}

theorem execHostdata_relayed {e : Nat × Packet} (h : s.comp.relayed.find? (fun e => e.1 == source && tagOf e.2 == tag && awaitsData e.2) = some e) :
    exec (.hostdata source tag addr data cap) s = .next (serveForwarded e.1 e.2 data cap s) := by
  change execHostdata source tag addr data cap s = _
  rw [execHostdata, h]

theorem execHostdata_output {c : Command} (h : s.comp.relayed.find? (fun e => e.1 == source && tagOf e.2 == tag && awaitsData e.2) = none)
    (hc : forwardedCommand s none tag = some c) :
    exec (.hostdata source tag addr data cap) s = .next (hostOut c.origin addr (outputKind c.origin.opcode) data s) := by
  change execHostdata source tag addr data cap s = _
  rw [execHostdata, h, hc]

theorem execHostdata_unknown (h : s.comp.relayed.find? (fun e => e.1 == source && tagOf e.2 == tag && awaitsData e.2) = none)
    (hc : forwardedCommand s none tag = none) : exec (.hostdata source tag addr data cap) s = .next s := by
  change execHostdata source tag addr data cap s = _
  rw [execHostdata, h, hc]

end

theorem hostOut_sender {o : Origin} {d : Nat} (h : o.sender = some d) (addr kind : Nat) (b : Bytes) (s : State) :
    hostOut o addr kind b s = send (.hostdata d o.tag addr b) s := by rw [hostOut, h]

/-- With no tenant bound, output goes plain into the client's buffer (13 R358). -/
theorem hostOut_plain {o : Origin} (h : o.sender = none) (hb : s.sec.bound = false) (addr kind : Nat) (b : Bytes) :
    hostOut o addr kind b s = { s with out := { s.out with host := s.out.host ++ [⟨o.client, addr, none, b, 0⟩] } } := by
  rw [hostOut, h]
  exact if_neg (by simp [hb])

/-! ### FORWARDREPLY -/

/-- The vector of a reply ring changes when it was last raised, and no reply. -/
theorem raiseReplyVector_ring (n : Nat) (s : State) :
    (raiseReplyVector n s).out.replies = s.out.replies ∧ ∃ v, clientOf (raiseReplyVector n s) n = { clientOf s n with vectorAt := v } := by
  unfold raiseReplyVector
  extract_lets c s1
  split
  · exact ⟨rfl, (clientOf s n).vectorAt, rfl⟩
  · exact ⟨rfl, some (stamp s), clientOf_putClient_same n _ s⟩

/-- A reply written into a ring that is set (11 R287): where it stands, and what its client counts. -/
theorem writeReply_ring {r : Reply} (hh : s.host.lost = false) (hr : ringOk (clientOf s r.client) = true) :
    (writeReply r s).out.replies = s.out.replies ++ [{ r with at_ := (clientOf s r.client).replyAt }]
      ∧ (clientOf (writeReply r s) r.client).replyCount = ((clientOf s r.client).replyCount + 1) % 2 ^ 32
      ∧ (clientOf (writeReply r s) r.client).inflight = (clientOf s r.client).inflight := by
  unfold writeReply
  rw [if_neg (by simp [hh, hr])]
  extract_lets c c' s1 _ s2
  have h2 : clientOf s2 r.client = c' := clientOf_putClient_same r.client c' s
  obtain ⟨ho, v, hv⟩ := raiseReplyVector_ring r.client s2
  rw [ho, hv, h2]
  exact ⟨rfl, rfl, rfl⟩

/-- A reply for a client of this device: in its ring, its count, and one command fewer in flight where it is the final one. -/
theorem landReply_ring {o : Origin} (r : Reply) (hs : o.sender = none) (hh : s.host.lost = false) (hr : ringOk (clientOf s o.client) = true) (final : Bool) :
    (landReply o final { r with client := o.client } s).out.replies = s.out.replies ++ [{ r with client := o.client, at_ := (clientOf s o.client).replyAt }]
      ∧ (clientOf (landReply o final { r with client := o.client } s) o.client).replyCount = ((clientOf s o.client).replyCount + 1) % 2 ^ 32
      ∧ (clientOf (landReply o final { r with client := o.client } s) o.client).inflight
        = (if final then (clientOf s o.client).inflight - 1 else (clientOf s o.client).inflight) := by
  unfold landReply
  rw [hs]
  extract_lets c st s1
  have h1 : clientOf s1 o.client = _ := clientOf_putClient_same o.client _ s
  obtain ⟨hrep, hcount, hin⟩ := writeReply_ring (s := s1) (r := { r with client := o.client }) hh (by rw [h1]; exact hr)
  rw [hrep, hcount, hin, h1]
  exact ⟨rfl, rfl, rfl⟩

theorem execForwardReply_unknown {client tag : Nat} (status detail handle beat count0 count1 : Nat) (h : forwardedCommand s (some client) tag = none) :
    exec (.forwardReply client tag status detail handle beat count0 count1) s = .next s := by
  change execForwardReply client tag status detail handle beat count0 count1 s = _
  rw [execForwardReply, h]

/-- The reply of a command forwarded from here: every status but ACCEPTED ends the command. -/
theorem execForwardReply_lands {client tag : Nat} {c : Command} (status detail handle beat count0 count1 : Nat) (h : forwardedCommand s (some client) tag = some c) :
    exec (.forwardReply client tag status detail handle beat count0 count1) s = .next (landReply c.origin (status != stACCEPTED)
      ⟨client, 0, tag, status, detail, handle, beat, count0, count1⟩ { s with commands := if status = stACCEPTED then s.commands else s.commands.erase c }) := by
  change execForwardReply client tag status detail handle beat count0 count1 s = _
  rw [execForwardReply, h]
  by_cases ha : status = stACCEPTED
  · simp [ha]
  · simp [ha]

/-! ### CANDIDATE and SEAL -/

/-- Position 0's list of candidates with one report more (09 R227). -/
def takeCandidate (part : Nat) (l : List (Nat × Candidate)) (c : Candidate) : List (Nat × Candidate) :=
  l.filter (fun e => e.2.handle != c.handle) ++ (if c.candidate then [(part, c)] else [])

theorem mem_takeCandidate {part : Nat} {l : List (Nat × Candidate)} {c : Candidate} {e : Nat × Candidate} :
    e ∈ takeCandidate part l c ↔ (e ∈ l ∧ e.2.handle ≠ c.handle) ∨ (c.candidate = true ∧ e = (part, c)) := by
  unfold takeCandidate
  rw [List.mem_append, List.mem_filter]
  cases c.candidate <;> simp

/-- A session that no report names stays as it was. -/
theorem mem_takeCandidates_other {part : Nat} {cs : List Candidate} {e : Nat × Candidate} (h : ∀ c ∈ cs, c.handle ≠ e.2.handle) (l : List (Nat × Candidate)) :
    e ∈ cs.foldl (takeCandidate part) l ↔ e ∈ l := by
  induction cs generalizing l with
  | nil => rfl
  | cons c rest ih =>
    have hc : c.handle ≠ e.2.handle := h c List.mem_cons_self
    rw [List.foldl_cons, ih (fun d hd => h d (List.mem_cons_of_mem _ hd)), mem_takeCandidate]
    refine ⟨fun hm => hm.elim And.left (fun ⟨_, he⟩ => absurd (by rw [he]) hc), fun hm => .inl ⟨hm, Ne.symm hc⟩⟩

/-- What stands after some reports was there and is not named, or is one of them. -/
theorem mem_takeCandidates {part : Nat} {cs : List Candidate} {e : Nat × Candidate} {l : List (Nat × Candidate)} (h : e ∈ cs.foldl (takeCandidate part) l) :
    (e ∈ l ∧ ∀ c ∈ cs, c.handle ≠ e.2.handle) ∨ (e.1 = part ∧ e.2 ∈ cs ∧ e.2.candidate = true) := by
  induction cs generalizing l with
  | nil => exact .inl ⟨h, fun c hc => absurd hc List.not_mem_nil⟩
  | cons c rest ih =>
    rcases ih h with ⟨hm, hn⟩ | ⟨hp, hm, hc⟩
    · rcases mem_takeCandidate.1 hm with ⟨hl, hne⟩ | ⟨hc, rfl⟩
      · exact .inl ⟨hl, List.forall_mem_cons.2 ⟨Ne.symm hne, hn⟩⟩
      · exact .inr ⟨rfl, List.mem_cons_self, hc⟩
    · exact .inr ⟨hp, List.mem_cons_of_mem _ hm, hc⟩

/-- Of reports about different sessions, each candidate comes in. -/
theorem takeCandidates_mem {part : Nat} {cs : List Candidate} (hd : (cs.map (fun c => c.handle)).Nodup) {c : Candidate} (hc : c ∈ cs) (hcand : c.candidate = true)
    (l : List (Nat × Candidate)) : (part, c) ∈ cs.foldl (takeCandidate part) l := by
  induction cs generalizing l with
  | nil => exact absurd hc List.not_mem_nil
  | cons d rest ih =>
    obtain ⟨hnew, hrest⟩ := List.nodup_cons.1 hd
    rcases List.mem_cons.1 hc with rfl | hc
    · refine (mem_takeCandidates_other (fun e he => ?_) (takeCandidate part l c)).2 (mem_takeCandidate.2 (.inr ⟨hcand, rfl⟩))
      exact fun heq => hnew (List.mem_map.2 ⟨e, he, heq⟩)
    · exact ih hrest hc _

theorem execCandidate_sealer {part step : Nat} {cs : List Candidate} {q : Partition} (hq : partitionAt s part = some q) (h0 : q.position = 0)
    (hs : s.sched.step ≤ step) :
    exec (.candidate part step cs) s = .next { s with sched := { s.sched with candidates := cs.foldl (takeCandidate part) s.sched.candidates } } := by
  change execCandidate part step cs s = _
  rw [execCandidate, hq]
  exact congrArg Host.Outcome.next (if_neg (by simp [h0, hs]))

theorem execCandidate_ignored {part step : Nat} {cs : List Candidate} {q : Partition} (hq : partitionAt s part = some q)
    (h : q.position ≠ 0 ∨ step < s.sched.step) : exec (.candidate part step cs) s = .next s := by
  change execCandidate part step cs s = _
  rw [execCandidate, hq]
  exact congrArg Host.Outcome.next (if_pos (by simpa using h))

section
variable {m : SealMsg} {q : Partition}

theorem execSealMessage_member (hq : partitionAt s m.partition = some q) (h0 : q.position ≠ 0) (hs : m.step = s.sched.step + 1) :
    exec (.sealMessage m) s = .next { s with sched := { s.sched with
      sealNext := s.sched.sealNext.filter (fun x => !(x.partition == m.partition && x.microbatch == m.microbatch))
        ++ [⟨m.partition, m.microbatch, m.step, m.entries.map placeOfEntry⟩]
      kept := s.sched.kept.filter (fun k => !(k.2.partition == m.partition && k.2.microbatch == m.microbatch
        && k.2.places.all (fun p => (m.entries.map (fun e => e.handle)).contains p.handle))) } } := by
  change execSealMessage m s = _
  rw [execSealMessage, hq]
  exact congrArg Host.Outcome.next (if_neg (by simp [h0, hs]))

theorem execSealMessage_ignored (hq : partitionAt s m.partition = some q) (h : q.position = 0 ∨ m.step ≠ s.sched.step + 1) :
    exec (.sealMessage m) s = .next s := by
  change execSealMessage m s = _
  rw [execSealMessage, hq]
  exact congrArg Host.Outcome.next (if_pos (by simpa using h))

end

/-- Settles O33: a forwarded command by what checks 7 to 9 give, its data and reply by the command they belong to, reports and seals by the partition's position. -/
theorem messagesBetweenMembers : Obligations.MessagesBetweenMembers := by
  refine ⟨?forward, ?relayed, ?output, ?replied, ?candidates, fun part step cs q s => execCandidate_ignored, ?sealed, fun m q s => execSealMessage_ignored⟩
  case forward =>
    rintro sender p s t rfl
    refine ⟨execForward_waits, fun u a hd hc => ?_, fun dest u hd hc => ?_, fun c u hd hc hw => ?_, fun c u body hd hc hw hb => ?_⟩
    · exact (execForward_serves hd).trans (congrArg _ (serveForwarded_refuse hc))
    · rw [← forwardTo_alone hd]
      exact (execForward_serves hd).trans (congrArg _ (serveForwarded_onward hc))
    · exact (execForward_serves hd).trans (congrArg _ (serveForwarded_waits hc hw))
    · exact (execForward_serves hd).trans (congrArg _ (serveForwarded_runs hc hw hb))
  case relayed =>
    intro source tag addr sender data cap p s h
    refine ⟨fun u a hc => ?_, fun dest u hc => ?_, fun c u hc hw => ?_, fun c u body hc hw hb => ?_⟩
    · exact (execHostdata_relayed h).trans (congrArg _ (serveForwarded_refuse hc))
    · exact (execHostdata_relayed h).trans (congrArg _ (serveForwarded_onward hc))
    · exact (execHostdata_relayed h).trans (congrArg _ (serveForwarded_waits hc hw))
    · exact (execHostdata_relayed h).trans (congrArg _ (serveForwarded_runs hc hw hb))
  case output =>
    intro source tag addr data cap s h
    refine ⟨execHostdata_unknown h, fun c d hc hs => ?_, fun c hc hs hb => ?_⟩
    · exact (execHostdata_output h hc).trans (congrArg _ (hostOut_sender hs _ _ _ s))
    · exact (execHostdata_output h hc).trans (congrArg _ (hostOut_plain hs hb _ _ _))
  case replied =>
    intro client tag status detail handle beat count0 count1 s
    refine ⟨execForwardReply_unknown _ _ _ _ _ _, fun c hc hs hclient hr hh => ⟨_, execForwardReply_lands _ _ _ _ _ _ hc, ?_⟩⟩
    subst hclient
    obtain ⟨hrep, hcount, hin⟩ := landReply_ring (s := { s with commands := if status = stACCEPTED then s.commands else s.commands.erase c })
      ⟨c.origin.client, 0, tag, status, detail, handle, beat, count0, count1⟩ hs hh hr (status != stACCEPTED)
    refine ⟨landReply_commands _ _ _ _, hrep, hcount, hin.trans ?_⟩
    by_cases ha : status = stACCEPTED
    · simp only [ha, bne_self_eq_false, if_true]
      rfl
    · simp only [ha, bne_iff_ne, ne_eq, not_false_eq_true, if_true, if_false]
      rfl
  case candidates =>
    intro part step cs q s hq h0 hs
    refine ⟨_, execCandidate_sealer hq h0 hs, fun e he => mem_takeCandidates_other he _, fun e he ⟨c, hc, hh⟩ => ?_, fun hd c hc hcand => takeCandidates_mem hd hc hcand _⟩
    exact (mem_takeCandidates he).resolve_left (fun hm => hm.2 c hc hh)
  case sealed =>
    intro m q s hq h0 hs
    refine ⟨_, execSealMessage_member hq h0 hs, rfl, fun k hk => ?_, rfl⟩
    obtain ⟨hmem, hnot⟩ := List.mem_filter.1 hk
    refine ⟨hmem, fun ⟨hp, hm, hall⟩ => ?_⟩
    have hcont : k.2.places.all (fun p => (m.entries.map (fun e => e.handle)).contains p.handle) = true :=
      List.all_eq_true.2 (fun p hp => List.contains_iff_mem.2 (hall p hp))
    rw [hp, hm, hcont] at hnot
    simp at hnot

end Sys2Proof.Machine
end

section
/-! SUPPORT for O37. The Commons when members go (04 R127; 15 R413): the sessions that a lost lender sends to REBUILDING leave the composition, the capsules lent and the adverts. -/

namespace Sys2Proof.Machine

variable {s t : State}

/-! ### What a rebuild leaves -/

/-- The composition, the capsules lent to others, and the room that others advertise. -/
def commons (s : State) : Composed × List Lent × FMap Advert := (s.comp, s.tier.lent, s.tier.adverts)

theorem commons_of (hc : t.comp = s.comp) (ht : t.tier = s.tier) : commons t = commons s := by rw [commons, hc, ht, commons]

theorem commons_putFrame (a : Nat) (f : Frame) (s : State) : commons (putFrame a f s) = commons s := by
  unfold putFrame
  split <;> rfl

theorem commons_dropFrame (a : Nat) (s : State) : commons (dropFrame a s) = commons s := by
  unfold dropFrame
  split
  · rfl
  · split
    · exact commons_putFrame _ _ s
    · split
      · exact commons_putFrame _ _ s
      · dsimp only
        split <;> rfl

theorem commons_framesDue (l : List Nat) (s : State) : commons (framesDue l s) = commons s := by
  refine foldl_keeps commons (fun s a => ?_) l s
  unfold frameDue
  split
  · rfl
  · split
    · exact commons_dropFrame a s
    · rfl

theorem commons_finish (w : Work) (a : Ans) (s : State) : commons (finish w a s) = commons s := commons_of (finish_comp _ _ _) (finish_tier _ _ _)

theorem commons_reportCandidate (slot : Nat) (cand : Bool) (s : State) : commons (reportCandidate slot cand s) = commons s := by
  unfold reportCandidate
  extract_lets
  split
  · rfl
  · split
    · rfl
    · split <;> rfl

theorem commons_endEmptyReplay (slot : Nat) (s : State) : commons (endEmptyReplay slot s) = commons s := by
  unfold endEmptyReplay
  extract_lets
  split
  · exact commons_reportCandidate _ _ _
  · rfl

theorem commons_enterRebuilding (slot : Nat) (s : State) : commons (enterRebuilding slot s) = commons s := by
  unfold enterRebuilding
  extract_lets x h f cause s1 s2 s3 s4 s5 _ _ s6 s7 s8 s9 s10
  split
  · calc commons (endEmptyReplay slot (reportCandidate slot true s10))
      _ = commons s7 := by
        rw [commons_endEmptyReplay, commons_reportCandidate]
        exact (commons_finish _ _ _).trans ((commons_finish _ _ _).trans (commons_finish _ _ _))
      _ = commons s6 := commons_of (report_comp _ _ _) (report_tier _ _ _)
      _ = commons s3 := rfl
      _ = commons s2 := commons_framesDue _ _
      _ = commons s := withdraw_view commons (fun _ _ => rfl) (fun _ _ => rfl) h s1
  · rfl

theorem commons_badFrame (addr : Nat) (s : State) : commons (badFrame addr s) = commons s := by
  refine (foldl_keeps commons (fun s slot => commons_enterRebuilding slot s) _ _).trans ?_
  unfold spoilPage
  split <;> rfl

/-! ### Members that go -/

/-- A lost lender advertises no more. -/
theorem commons_lenderLost (m : Nat) (s : State) : commons (lenderLost m s) = (s.comp, s.tier.lent, FMap.del s.tier.adverts m) := by
  unfold lenderLost
  extract_lets held s1
  split
  · rfl
  · refine (foldl_keeps commons (fun s a => commons_badFrame a s) _ _).trans ?_
    exact commons_of (setFlag_comp _ _ _) (setFlag_tier _ _ _)

theorem commons_memberGone (m : Nat) (s : State) :
    commons (memberGone m s) = (s.comp, s.tier.lent.filter (fun l => l.borrower != m), FMap.del s.tier.adverts m) := by
  have h := commons_lenderLost m s
  simp only [commons, Prod.mk.injEq] at h
  obtain ⟨hc, hl, ha⟩ := h
  simp only [memberGone, borrowerLost, commons, hc, hl, ha]

/-- When some members have gone, what they borrowed is free and their adverts are away. -/
theorem commons_membersGone (ms : List Nat) (s : State) :
    commons (ms.foldl (fun s i => memberGone i s) s) = (s.comp, s.tier.lent.filter (fun l => !ms.contains l.borrower), ms.foldl FMap.del s.tier.adverts) := by
  induction ms generalizing s with
  | nil => simp [commons]
  | cons m rest ih =>
    have h := commons_memberGone m s
    simp only [commons, Prod.mk.injEq] at h
    obtain ⟨hc, hl, ha⟩ := h
    rw [List.foldl_cons, ih, hc, hl, ha, List.filter_filter]
    simp [bne, beq_eq_decide, Bool.and_comm]

theorem get?_foldl_del {α : Type} {ks : List Nat} {k : Nat} (m : FMap α) (h : k ∈ ks ∨ FMap.get? m k = none) : FMap.get? (ks.foldl FMap.del m) k = none := by
  induction ks generalizing m with
  | nil => exact h.resolve_left List.not_mem_nil
  | cons a rest ih =>
    refine ih (FMap.del m a) ?_
    by_cases hk : k = a
    · exact .inr (hk ▸ FMap.get?_del_same m k)
    · rw [FMap.get?_del_other m hk]
      exact h.imp_left (fun hm => (List.mem_cons.1 hm).resolve_left hk)

/-! ### Records that end -/

@[simp] theorem freeSlot_comp (slot : Nat) (s : State) : (freeSlot slot s).comp = s.comp :=
  eq_of_aside offSlots State.comp (fun _ => rfl) (offSlots_freeSlot slot s)

theorem dropSegment_table (n : Nat) (s : State) : (dropSegment n s).slots.table = s.slots.table := by
  unfold dropSegment
  split <;> rfl

/-- A slot that falls free leaves every other session. -/
theorem freeSlot_sessionAt_other {slot n : Nat} (h : n ≠ slot) (s : State) : sessionAt (freeSlot slot s) n = sessionAt s n := by
  unfold freeSlot
  extract_lets x s1 s2 s3 s4
  have h2 : s2.slots = s.slots := by
    unfold s2
    split
    · rw [releaseSet_slots, releaseSet_slots]
    · rw [releaseSet_slots]
  have h3 : s3.slots.table = s.slots.table := (foldl_keeps (fun s : State => s.slots.table) (fun s n => dropSegment_table n s) _ _).trans (by rw [h2])
  exact (sessionAt_putSession_other _ s3 h).trans (sessionAt_of_table h3 n)

/-- Slots freed one after another are FREE, and a slot FREE before stays so. -/
theorem freeSlots_free {slots : List Nat} {n : Nat} (h : n ∈ slots ∨ (sessionAt s n).d.state = 0) :
    (sessionAt (slots.foldl (fun s slot => freeSlot slot s) s) n).d.state = 0 := by
  induction slots generalizing s with
  | nil => exact h.resolve_left List.not_mem_nil
  | cons a rest ih =>
    refine ih ?_
    by_cases hn : n = a
    · subst hn
      exact .inr (by rw [freeSlot_session])
    · rw [freeSlot_sessionAt_other hn]
      exact h.imp_left (fun hm => (List.mem_cons.1 hm).resolve_left hn)

end Sys2Proof.Machine
end

section
/-! PROOF of O37. Composition maps (12 R333 to R339): COMPOSITION_SET in the order of its checks, MAP_DIGEST, and the end of the grace time. -/

namespace Sys2Proof.Machine

variable {s : State} {p : Packet} {buf : Bytes} {c : Nat}

/-! ### COMPOSITION_SET (12 R335) -/

theorem compositionBody_length (h : (readMap buf).facts.delivered ≠ 128 + 128 * (readMap buf).count) :
    compositionBody buf c p s = replyOpen p stBAD_LENGTH s := if_pos h

theorem compositionBody_field (hl : (readMap buf).facts.delivered = 128 + 128 * (readMap buf).count) (hf : mapFieldsOk (readMap buf) = false) :
    compositionBody buf c p s = replyOpen p stBAD_PARAM s := by
  simp [compositionBody, hl, hf]

theorem compositionBody_digest (hl : (readMap buf).facts.delivered = 128 + 128 * (readMap buf).count) (hf : mapFieldsOk (readMap buf) = true)
    (hd : (readMap buf).facts.digest ≠ (readMap buf).facts.trailer) : compositionBody buf c p s = reply p { status := stDIGEST_FAIL } s := by
  simp [compositionBody, hl, hf, hd]

theorem compositionBody_epoch (hl : (readMap buf).facts.delivered = 128 + 128 * (readMap buf).count) (hf : mapFieldsOk (readMap buf) = true)
    (hd : (readMap buf).facts.digest = (readMap buf).facts.trailer) (he : (readMap buf).epoch ≠ paramOf p 0x20 4 ∨ (readMap buf).epoch ≤ s.comp.epoch) :
    compositionBody buf c p s = reply p { status := stSTALE_EPOCH, count0 := s.comp.epoch } s := by
  simp only [compositionBody, hl, hf, hd, he, ne_eq, not_true, if_true, if_false, Bool.not_true, Bool.false_eq_true]

/-- A map of a device that has none staged: its entry, its links, its rings, its beat and its index. -/
def stageMap (m : CompMap) (at_ : Nat) (p : Packet) (s : State) : State :=
  match ownEntry s m with
  | none => replyOpen p stBAD_PARAM s
  | some d =>
    match linkDisagrees s d with
    | some l => reply p { status := stSHAPE_MISMATCH, detail := l } s
    | none =>
      if !ringsStay s m then reply p { status := stSHAPE_MISMATCH, detail := 0xFFFF } s
      else if !effectiveOk s at_ then reply p (bad 0x28) s
      else if d.index ≠ ownIndex s ∧ anySession (fun _ => true) s then reply p (busy 0xFFFF) s
      else accept p .composition { s with comp := { s.comp with staged := some (m, at_) } }

section
variable (hl : (readMap buf).facts.delivered = 128 + 128 * (readMap buf).count) (hf : mapFieldsOk (readMap buf) = true)
  (hd : (readMap buf).facts.digest = (readMap buf).facts.trailer) (he : (readMap buf).epoch = paramOf p 0x20 4) (hnew : s.comp.epoch < (readMap buf).epoch)
include hl hf hd he hnew

theorem compositionBody_staged {g : CompMap × Nat} (hg : s.comp.staged = some g) :
    compositionBody buf c p s = reply p (busy (min 0xFFFE (g.2 - s.cad.beat))) s := by
  simp [compositionBody, hl, hf, hd, ← he, Nat.not_le.2 hnew, hg]

theorem compositionBody_free (hg : s.comp.staged = none) : compositionBody buf c p s = stageMap (readMap buf) (paramOf p 0x28 8) p s := by
  simp only [compositionBody, hl, hf, hd, he, hg, ne_eq, not_true, false_or, if_false, Bool.not_true, Bool.false_eq_true, if_neg (Nat.not_le.2 (he ▸ hnew))]
  rfl

end

section
variable {m : CompMap} {at_ : Nat} {d : MapEntry}

theorem stageMap_noEntry (h : ownEntry s m = none) : stageMap m at_ p s = replyOpen p stBAD_PARAM s := by rw [stageMap, h]

theorem stageMap_link {l : Nat} (h : ownEntry s m = some d) (hl : linkDisagrees s d = some l) :
    stageMap m at_ p s = reply p { status := stSHAPE_MISMATCH, detail := l } s := by rw [stageMap, h]; simp only [hl]

theorem stageMap_rings (h : ownEntry s m = some d) (hl : linkDisagrees s d = none) (hr : ringsStay s m = false) :
    stageMap m at_ p s = reply p { status := stSHAPE_MISMATCH, detail := 0xFFFF } s := by rw [stageMap, h]; simp [hl, hr]

theorem stageMap_effective (h : ownEntry s m = some d) (hl : linkDisagrees s d = none) (hr : ringsStay s m = true) (he : effectiveOk s at_ = false) :
    stageMap m at_ p s = reply p (bad 0x28) s := by rw [stageMap, h]; simp [hl, hr, he]

theorem stageMap_open (h : ownEntry s m = some d) (hl : linkDisagrees s d = none) (hr : ringsStay s m = true) (he : effectiveOk s at_ = true)
    (hi : d.index ≠ ownIndex s) (ho : anySession (fun _ => true) s = true) : stageMap m at_ p s = reply p (busy 0xFFFF) s := by
  rw [stageMap, h]; simp [hl, hr, he, hi, ho]

theorem stageMap_passes (h : ownEntry s m = some d) (hl : linkDisagrees s d = none) (hr : ringsStay s m = true) (he : effectiveOk s at_ = true)
    (hi : d.index = ownIndex s ∨ anySession (fun _ => true) s = false) :
    stageMap m at_ p s = accept p .composition { s with comp := { s.comp with staged := some (m, at_) } } := by
  have hno : ¬ (d.index ≠ ownIndex s ∧ anySession (fun _ => true) s = true) := fun ⟨h1, h2⟩ => hi.elim h1 (fun h => by simp [h] at h2)
  rw [stageMap, h]
  simp only [hl, hr, he, Bool.not_true, Bool.false_eq_true, if_false, if_neg hno]

end

/-! ### The end of the grace time (12 R337, R339) -/

/-- A LEAVING device leaves its composition. -/
theorem leaveComposition_leaves (h : s.comp.inComp = true) :
    (leaveComposition s).comp.inComp = false ∧ (leaveComposition s).comp.epoch = 0 ∧ (leaveComposition s).comp.map = none
      ∧ (leaveComposition s).comp.graceUntil = none ∧ ownIndex (leaveComposition s) = ownIndex s ∧ (leaveComposition s).tier.lent = []
      ∧ (leaveComposition s).tier.adverts = [] ∧ ∀ e ∈ s.slots.table, e.2.d.state = 5 → (sessionAt (leaveComposition s) e.1).d.state = 0 := by
  unfold leaveComposition
  rw [if_neg (by simp [h])]
  extract_lets lenders remote s1 s2 s3
  have hcomp : s2.comp = s.comp :=
    (foldl_keeps State.comp (fun s slot => freeSlot_comp slot s) remote s1).trans
      (foldl_keeps State.comp (fun s i => congrArg Prod.fst (commons_lenderLost (i - 1) s)) lenders s)
  refine ⟨rfl, rfl, rfl, rfl, ?_, rfl, rfl, fun e he h5 => ?_⟩
  · change s2.comp.index = _
    rw [hcomp, ownIndex, if_pos h]
  · exact freeSlots_free (s := s1) (.inl (List.mem_map.2 ⟨e, List.mem_filter.2 ⟨he, by simp [h5]⟩, rfl⟩))

theorem execGraceEnd_leaving {g : Nat} (hg : s.comp.graceUntil = some g) (hb : g ≤ s.cad.beat) (hl : ownIndex s ∈ leavingMembers s) :
    exec .graceEnd s = .next (leaveComposition s) := by
  change execGraceEnd s = _
  rw [execGraceEnd, hg]
  simp [Nat.not_lt.2 hb, hl]

theorem execGraceEnd_stays {g : Nat} (hg : s.comp.graceUntil = some g) (hb : g ≤ s.cad.beat) (hl : ownIndex s ∉ leavingMembers s) :
    ∃ t, t = (leavingMembers s).foldl (fun s i => memberGone i s) s ∧ exec .graceEnd s = .next { t with comp := { t.comp with graceUntil := none } } := by
  refine ⟨_, rfl, ?_⟩
  change execGraceEnd s = _
  rw [execGraceEnd, hg]
  simp [Nat.not_lt.2 hb, hl]

theorem execGraceEnd_early (h : ∀ g, s.comp.graceUntil = some g → s.cad.beat < g) : exec .graceEnd s = .next s := by
  change execGraceEnd s = _
  unfold execGraceEnd
  split
  · rfl
  · next g hg => rw [if_pos (h g hg)]

/-! ### The obligation -/

/-- Settles O37: the checks of COMPOSITION_SET one after another, a digest that agrees or not, the grace time by who leaves. -/
theorem compositionMaps : Obligations.CompositionMaps := by
  refine ⟨?set, ?agrees, ?differs, ?leaves, ?stays, fun s => execGraceEnd_early⟩
  case set =>
    rintro p buf m s t ho h rfl
    have hbody {u : State} (hu : compositionBody buf 0 p t = u) : exec (.compositionSet p buf) s = .next (dropRecognised p u) :=
      (next_serve_passes ho h).trans (congrArg (fun u => Host.Outcome.next (dropRecognised p u)) hu)
    refine ⟨fun hl => ⟨_, hbody (compositionBody_length hl)⟩, fun hl hf => ⟨_, hbody (compositionBody_field hl hf)⟩, fun hl hf => ?_⟩
    refine ⟨fun hd => hbody (compositionBody_digest hl hf hd), fun hd he => hbody (compositionBody_epoch hl hf hd he), fun hd he hnew => ?_⟩
    have hstage {u : State} (hg : t.comp.staged = none) (hu : stageMap (readMap buf) (paramOf p 0x28 8) p t = u) :
        exec (.compositionSet p buf) s = .next (dropRecognised p u) := hbody ((compositionBody_free hl hf hd he hnew hg).trans hu)
    refine ⟨fun g hg => hbody (compositionBody_staged hl hf hd he hnew hg), fun hg hn => ⟨_, hstage hg (stageMap_noEntry hn)⟩, fun d hg hn => ?_⟩
    refine ⟨fun l hlink => hstage hg (stageMap_link hn hlink), fun hlink hr => hstage hg (stageMap_rings hn hlink hr),
      fun hlink hr hef => hstage hg (stageMap_effective hn hlink hr hef), fun hlink hr hef => ⟨fun hi hopen => ?_, fun hi => ?_⟩⟩
    · exact hstage hg (stageMap_open hn hlink hr hef hi hopen)
    · exact hstage hg (stageMap_passes hn hlink hr hef hi)
  case agrees =>
    rintro link s digest hc rfl
    exact congrArg Host.Outcome.next (if_pos (by simp [hc]))
  case differs =>
    intro link epoch s digest hd
    have hb := (ByLinks.refl s).mapMismatch link
    refine ⟨mapMismatch link s, congrArg Host.Outcome.next (if_neg ?_), by rw [linkAt_mapMismatch], mapMismatch_sets link s, hb.mem, hb.slots⟩
    simp only [Bool.and_eq_true, beq_iff_eq, decide_eq_true_eq]
    exact fun ⟨⟨hc, he⟩, hdig⟩ => hd.elim (fun h => by simp [h] at hc) (fun h => h.elim (fun h => h he) (fun h => h hdig))
  case leaves =>
    exact fun g s hc hg hb hl => ⟨_, execGraceEnd_leaving hg hb hl, leaveComposition_leaves hc⟩
  case stays =>
    intro g s hg hb hl
    obtain ⟨t, ht, he⟩ := execGraceEnd_stays hg hb hl
    have hcom := commons_membersGone (leavingMembers s) s
    rw [← ht] at hcom
    simp only [commons, Prod.mk.injEq] at hcom
    obtain ⟨hcomp, hlent, hadv⟩ := hcom
    refine ⟨_, he, by rw [hcomp], hlent, fun i hi => ?_, fun hnil => ?_⟩
    · exact (congrArg (fun a => FMap.get? a i) hadv).trans (get?_foldl_del _ (.inl hi))
    · rw [ht, hnil]
      rfl

end Sys2Proof.Machine
end

section
/-! PROOF of O40. Quotes wait, are signed in order and leave a decapsulation key, and a new attestation key is certified (13 R348 to R355, R366). -/

namespace Sys2Proof.Machine

variable {p : Packet} {s t : State}

/-! ### ATTEST_QUOTE (13 R351, R366) -/

theorem execAttestQuote_passes (ho : opcodeOf p = 0x50) (h : passes never p s = some t) :
    exec (.attestQuote p) s = .next (dropRecognised p (quoteBody 0 p t)) := next_serve_passes ho h

theorem quoteBody_measuring (hm : t.sec.measuring = true) : quoteBody 0 p t = replyMeasuring p t := if_pos hm

theorem quoteBody_short (hm : t.sec.measuring = false) (hl : bufLen p 0x40 < quoteLength t) :
    quoteBody 0 p t = reply p { status := stBAD_LENGTH, detail := quoteLength t } t := by
  rw [quoteBody, if_neg (by simp [hm]), if_pos hl]

/-- A quote whose buffer is long enough joins the queue, and its command waits for it. -/
theorem quoteBody_queues (hm : t.sec.measuring = false) (hl : quoteLength t ≤ bufLen p 0x40) :
    quoteBody 0 p t = await (.quote (t.secw.quoteSerial + 1)) (originOf p t) { t with secw := { t.secw with
      quoteSerial := t.secw.quoteSerial + 1
      quotes := t.secw.quotes ++ [⟨t.secw.quoteSerial + 1, p.params.take 32, p.client, bufAddr p 0x40, bufLen p 0x40⟩] } } := by
  rw [quoteBody, if_neg (by simp [hm]), if_neg (Nat.not_lt.2 hl)]

/-! ### Signing (13 R352, R355) -/

theorem execQuoteSigned_idle (digest : Digest) (h : s.secw.quotes = [] ∨ s.sec.measuring = true) : exec (.quoteSigned digest) s = .next s := by
  change execQuoteSigned digest s = _
  rw [execQuoteSigned]
  cases hq : s.secw.quotes with
  | nil => rfl
  | cons j rest => simp [h.resolve_left (by simp [hq])]

section
variable {j : QuoteJob} {rest : List QuoteJob} (digest : Digest) (hq : s.secw.quotes = j :: rest) (hm : s.sec.measuring = false)
include hq hm

theorem execQuoteSigned_short (hl : j.len < quoteLength s) :
    exec (.quoteSigned digest) s = .next (finish (.quote j.serial) { status := stBAD_LENGTH, detail := quoteLength s } { s with secw := { s.secw with quotes := rest } }) := by
  change execQuoteSigned digest s = _
  rw [execQuoteSigned, hq]
  simp [hm, hl]

/-- With room in its buffer the quote is written, and the keys held are the last four of those held before and its own. -/
theorem execQuoteSigned_signs {keys : List DecapKey} (hl : quoteLength s ≤ j.len)
    (hk : keys = s.secw.decap ++ [⟨digest, tenantDigest s, s.sec.hostHold && !s.host.lost⟩]) :
    exec (.quoteSigned digest) s = .next (finish (.quote j.serial)
      { status := if (fencedUnits s).length = 0 then stOK else stDEGRADED, detail := (fencedUnits s).length, count0 := quoteLength s }
      { s with
        secw := { s.secw with quotes := rest, decap := keys.drop (keys.length - 4) }
        out := { s.out with host := s.out.host ++ [⟨j.client, j.addr, none, quoteBytes j s, 0⟩] } }) := by
  subst hk
  change execQuoteSigned digest s = _
  rw [execQuoteSigned, hq]
  simp only [hm, Bool.false_eq_true, if_false, if_neg (Nat.not_lt.2 hl)]
  rfl

end

/-! ### The attestation key (13 R349, R366) -/

/-- A certificate ends the measuring of a device in phase 2 to 4 that no new firmware is taking over. -/
theorem execAkCertified_counts (hm : s.sec.measuring = true) (h2 : 2 ≤ s.svc.phase) (h4 : s.svc.phase ≤ 4) (ht : s.svc.takenOver = false) :
    exec .akCertified s = .next { s with sec := { s.sec with measuring := false, akSerial := s.sec.akSerial + 1 } } :=
  congrArg Host.Outcome.next (if_pos ⟨hm, h2, h4, by simp [ht]⟩)

theorem execAkCertified_ignored (h : s.sec.measuring = false ∨ s.svc.phase < 2 ∨ 4 < s.svc.phase ∨ s.svc.takenOver = true) :
    exec .akCertified s = .next s := by
  refine congrArg Host.Outcome.next (if_neg ?_)
  rintro ⟨hm, h2, h4, ht⟩
  rcases h with h | h | h | h
  · simp [h] at hm
  · omega
  · omega
  · simp [h] at ht

/-- Settles O40: a quote by its buffer's length, at its packet and at its signing, and a certificate by the device's phase. -/
theorem quotesSignedInOrder : Obligations.QuotesSignedInOrder := by
  refine ⟨fun p s t ho h => ⟨fun hm => ?measuring, fun hm hl => ?short, fun hm hl => ?queued⟩, fun j rest digest s hq hm => ⟨?signedShort, fun keys => ?signed⟩,
    fun digest s => execQuoteSigned_idle digest, fun _ _ => rfl, fun s => execAkCertified_counts, fun s => execAkCertified_ignored⟩
  case measuring =>
    rw [execAttestQuote_passes ho h, quoteBody_measuring hm]
    exact ⟨_, rfl⟩
  case short => rw [execAttestQuote_passes ho h, quoteBody_short hm hl, answered]
  case queued => exact ⟨_, execAttestQuote_passes ho h, by rw [quoteBody_queues hm hl]; exact ⟨rfl, rfl, rfl⟩⟩
  case signedShort => exact execQuoteSigned_short digest hq hm
  case signed => exact execQuoteSigned_signs digest hq hm

end Sys2Proof.Machine
end

section
/-! PROOF of O41. A tenant's binding (13 R345, R353, R364, R370) and the acceptance of a key-release message (13 R354 to R356, R367, R368). -/

namespace Sys2Proof.Machine

variable {p : Packet} {s t : State}

/-! ### TENANT_BIND (13 R345, R370) -/

section
variable {buf : Bytes}

theorem execTenantBind_passes (ho : opcodeOf p = 0x52) (h : passes never p s = some t) :
    exec (.tenantBind p buf) s = .next (dropRecognised p (bindBody buf 0 p t)) := next_serve_passes ho h

theorem bindBody_tripped (hs : t.sec.sealTripped = true) : bindBody buf 0 p t = reply p { status := stPRESENCE_REQUIRED } t := if_pos hs

variable (hs : t.sec.sealTripped = false)
include hs

theorem bindBody_bound (hb : t.sec.bound = true) : bindBody buf 0 p t = reply p (busy 0xFFFF) t := by
  simp only [bindBody, hs, hb, Bool.false_eq_true, if_false, if_true]

variable (hb : t.sec.bound = false)
include hb

theorem bindBody_field {off : Nat} (hf : policyFault (readPolicy buf) t = some off) : bindBody buf 0 p t = reply p (bad (0x8000 + off)) t := by
  simp only [bindBody, hs, hb, hf, Bool.false_eq_true, if_false]

theorem bindBody_binds (hf : policyFault (readPolicy buf) t = none) : bindBody buf 0 p t
    = reply p ok (keysRecord 0 (drawMemKeys (modSec (fun k => { k with bound := true, policy := some (readPolicy buf) }) t))) := by
  simp only [bindBody, hs, hb, hf, Bool.false_eq_true, if_false]

end

@[simp] theorem keysRecord_sec (n : Nat) (s : State) : (keysRecord n s).sec = s.sec := by simp [keysRecord]
@[simp] theorem keysRecord_secw (n : Nat) (s : State) : (keysRecord n s).secw = s.secw := by simp [keysRecord]
@[simp] theorem keysRecord_slots (n : Nat) (s : State) : (keysRecord n s).slots = s.slots := by simp [keysRecord]

/-! ### KEY_ACCEPT up to its decapsulation key (13 R355, checks 1 to 3) -/

section
variable {m : KeyMessage}

/-- The decapsulation key that a message is sealed to, where the device holds it. -/
def decapKeyOf (m : KeyMessage) (s : State) : Option DecapKey := s.secw.decap.find? (fun k => decide (k.digest = m.quoteDigest))

/-- The device with a message's decapsulation key used up. -/
def keyUsed (m : KeyMessage) (s : State) : State :=
  { s with secw := { s.secw with decap := s.secw.decap.filter (fun d => !decide (d.digest = m.quoteDigest)) } }

/-- The keys of a message, installed one after another. -/
def installAll (k : DecapKey) (l : List KeyEntry) (s : State) : State := l.foldl (fun s e => installKey (s.sec.suspended && !k.held) s e) s

/-- The end of an accepted message: no purge stands, and where it answers a quote signed under the host hold, the suspension ends (13 R367, R368). -/
def endPurge (ends : Bool) (s : State) : State :=
  let s := modSec (fun k => { k with purged := false, suspended := k.suspended && !ends, hostHold := k.hostHold && !ends }) s
  if s.sec.suspended then s else { s with host := { s.host with held := false, retained := false } }

/-- A message of a held key, from the use of that key on (13 R355, checks 4 to 7). -/
def acceptSealed (m : KeyMessage) (k : DecapKey) (p : Packet) (s : State) : State :=
  if !m.opens then reply p { status := stAUTH_FAIL, detail := 0x0021 } s
  else match m.entries.zipIdx.find? (fun e => entryBad m.entries e.2 e.1) with
  | some e => reply p (bad (0x8000 + 48 * e.2)) s
  | none =>
    if m.entries.any (weightBusy s) then reply p (busy 0xFFFF) s
    else match m.entries.findIdx? (keygenTaken s) with
    | some i => reply p (bad (0x8000 + 48 * i)) s
    | none => reply p ok (keysRecord m.entries.length (endPurge (s.sec.suspended && k.held) (installAll k m.entries s)))

theorem execKeyAccept_passes (ho : opcodeOf p = 0x51) (h : passes never p s = some t) :
    exec (.keyAccept p m) s = .next (dropRecognised p (acceptBody m 0 p t)) := next_serve_passes ho h

theorem acceptBody_unattested (h : t.sec.bound = false ∨ ∃ k, decapKeyOf m t = some k ∧ k.tenant ≠ tenantDigest t) :
    acceptBody m 0 p t = reply p { status := stNOT_ATTESTED } t := by
  refine if_pos (h.imp (by simp) ?_)
  rintro ⟨k, hk, hne⟩
  rw [← decapKeyOf, hk]
  simpa using hne

section
variable (hb : t.sec.bound = true) (hk : ∀ k, decapKeyOf m t = some k → k.tenant = tenantDigest t)
include hb hk

theorem acceptBody_attested : acceptBody m 0 p t =
    if m.length ≠ 1672 + 48 * m.entriesField then reply p { status := stBAD_LENGTH, detail := 1672 + 48 * m.entriesField } t
    else match messageFault m with
    | some off => reply p (bad (0x8000 + off)) t
    | none => match decapKeyOf m t with
      | none => reply p { status := stAUTH_FAIL, detail := 0x0020 } t
      | some k => acceptSealed m k p (keyUsed m t) := by
  refine (if_neg ?_).trans rfl
  rintro (h | h)
  · simp [hb] at h
  · obtain ⟨k, hf, hne⟩ := (Option.any_eq_true _ _).1 h
    simp [hk k hf] at hne

theorem acceptBody_length (hl : m.length ≠ 1672 + 48 * m.entriesField) :
    acceptBody m 0 p t = reply p { status := stBAD_LENGTH, detail := 1672 + 48 * m.entriesField } t := by
  rw [acceptBody_attested hb hk, if_pos hl]

variable (hl : m.length = 1672 + 48 * m.entriesField)
include hl

theorem acceptBody_field {off : Nat} (hf : messageFault m = some off) : acceptBody m 0 p t = reply p (bad (0x8000 + off)) t := by
  rw [acceptBody_attested hb hk, if_neg (not_not.2 hl), hf]

theorem acceptBody_noKey (hf : messageFault m = none) (hn : decapKeyOf m t = none) :
    acceptBody m 0 p t = reply p { status := stAUTH_FAIL, detail := 0x0020 } t := by
  rw [acceptBody_attested hb hk, if_neg (not_not.2 hl), hf, hn]

theorem acceptBody_sealed {k : DecapKey} (hf : messageFault m = none) (hn : decapKeyOf m t = some k) :
    acceptBody m 0 p t = acceptSealed m k p (keyUsed m t) := by
  rw [acceptBody_attested hb hk, if_neg (not_not.2 hl), hf, hn]

end

/-! ### A message of a held key (13 R355, checks 4 to 7) -/

section
variable {k : DecapKey}

theorem acceptSealed_closed (ho : m.opens = false) : acceptSealed m k p s = reply p { status := stAUTH_FAIL, detail := 0x0021 } s := if_pos (by simp [ho])

/-- The first bad entry is the one that is answered. -/
theorem acceptSealed_badEntry {i : Nat} {e : KeyEntry} (ho : m.opens = true) (he : m.entries[i]? = some e) (hb : entryBad m.entries i e = true)
    (hfirst : ∀ j d, j < i → m.entries[j]? = some d → entryBad m.entries j d = false) :
    acceptSealed m k p s = reply p (bad (0x8000 + 48 * i)) s := by
  obtain ⟨hi, rfl⟩ := List.getElem?_eq_some_iff.1 he
  have hfind : m.entries.zipIdx.find? (fun e => entryBad m.entries e.2 e.1) = some (m.entries[i], i) := by
    refine List.find?_eq_some_iff_getElem.2 ⟨hb, i, by simpa using hi, by simp, fun j hj => ?_⟩
    simpa using hfirst j _ hj (List.getElem?_eq_getElem (hj.trans hi))
  rw [acceptSealed, if_neg (by simp [ho]), hfind]

variable (ho : m.opens = true) (hgood : ∀ i e, m.entries[i]? = some e → entryBad m.entries i e = false)
include ho hgood

/-- With no entry bad, the message turns on the keys that stand. -/
theorem acceptSealed_read : acceptSealed m k p s =
    if m.entries.any (weightBusy s) then reply p (busy 0xFFFF) s
    else match m.entries.findIdx? (keygenTaken s) with
    | some i => reply p (bad (0x8000 + 48 * i)) s
    | none => reply p ok (keysRecord m.entries.length (endPurge (s.sec.suspended && k.held) (installAll k m.entries s))) := by
  have hfind : m.entries.zipIdx.find? (fun e => entryBad m.entries e.2 e.1) = none :=
    List.find?_eq_none.2 (fun e he => by simpa using hgood e.2 e.1 (List.mem_zipIdx_iff_getElem?.1 he))
  rw [acceptSealed, if_neg (by simp [ho]), hfind]

theorem acceptSealed_weightBusy (h : ∃ e ∈ m.entries, weightBusy s e = true) : acceptSealed m k p s = reply p (busy 0xFFFF) s := by
  rw [acceptSealed_read ho hgood, if_pos (List.any_eq_true.2 h)]

theorem acceptSealed_keygenTaken {i : Nat} (hw : ∀ e ∈ m.entries, weightBusy s e = false) (hi : m.entries.findIdx? (keygenTaken s) = some i) :
    acceptSealed m k p s = reply p (bad (0x8000 + 48 * i)) s := by
  rw [acceptSealed_read ho hgood, if_neg (by simpa using hw), hi]

theorem acceptSealed_installs (h : ∀ e ∈ m.entries, weightBusy s e = false ∧ keygenTaken s e = false) :
    acceptSealed m k p s = reply p ok (keysRecord m.entries.length (endPurge (s.sec.suspended && k.held) (installAll k m.entries s))) := by
  rw [acceptSealed_read ho hgood, if_neg (by simpa using fun e he => (h e he).1), List.findIdx?_eq_none_iff.2 (fun e he => (h e he).2)]

end

end

/-! ### What an entry installs (13 R355, R356) -/

section
variable {b : Bool} {e : KeyEntry} {i : Nat}

/-- A model's weight key: its KEY_ID and the key. -/
def weightAt (s : State) (i : Nat) : Option Nat × Option Nat := (FMap.get? s.sec.weightKeys i, FMap.get? s.sec.weightSecrets i)

def payloadAt (s : State) (i : Nat) : Option PayloadKeys := FMap.get? s.sec.payloadKeys i

@[simp] theorem installKey_secw (b : Bool) (s : State) (e : KeyEntry) : (installKey b s e).secw = s.secw := by
  unfold installKey
  split <;> rfl

theorem installKey_weight (h : e.kind = 1) : weightAt (installKey b s e) e.index = (some e.keyId, some e.key) := by
  rw [installKey, if_pos h]
  simp [weightAt]

theorem installKey_weight_other (h : e.kind = 1 → e.index ≠ i) : weightAt (installKey b s e) i = weightAt s i := by
  unfold installKey
  split
  · next hk => simp [weightAt, FMap.get?_put_other _ _ (h hk).symm]
  · rfl

theorem installKey_payload_other (h : e.kind ≠ 1 → e.index ≠ i) : payloadAt (installKey b s e) i = payloadAt s i := by
  unfold installKey
  split
  · rfl
  · next hk => exact FMap.get?_put_other _ _ (h hk).symm

/-- A payload key stands with its KEY_ID, and a client that had none starts its counters. -/
theorem installKey_payload (h : e.kind = 2) (ht : keygenTaken s e = false) :
    ∃ x, payloadAt (installKey b s e) e.index = some x ∧ x.keyId = e.keyId ∧ x.key = e.key
      ∧ (payloadAt s e.index = none → x.outSeq = 0 ∧ x.inTop = 0 ∧ x.inSeen = []) := by
  rw [installKey, if_neg (by simp [h])]
  refine ⟨_, FMap.get?_put_same _ _ _, ?_⟩
  rw [payloadAt]
  cases hp : FMap.get? s.sec.payloadKeys e.index with
  | none => exact ⟨rfl, rfl, fun _ => ⟨rfl, rfl, rfl⟩⟩
  | some old =>
    have hkey : old.keyId % 256 = e.keyId % 256 → old.key = e.key := by simpa [keygenTaken, h, hp] using ht
    dsimp only
    split
    · next hgen => exact ⟨rfl, hkey hgen, nofun⟩
    · exact ⟨rfl, rfl, nofun⟩

theorem keygenTaken_congr (h : payloadAt t e.index = payloadAt s e.index) : keygenTaken t e = keygenTaken s e := by
  unfold payloadAt at h
  rw [keygenTaken, keygenTaken, h]

end

/-! ### What a message installs -/

section
variable {k : DecapKey} {l : List KeyEntry} {e : KeyEntry} {i : Nat}

@[simp] theorem installAll_secw (k : DecapKey) (l : List KeyEntry) (s : State) : (installAll k l s).secw = s.secw :=
  foldl_keeps State.secw (fun _ _ => installKey_secw _ _ _) l s

@[simp] theorem installAll_mem (k : DecapKey) (l : List KeyEntry) (s : State) : (installAll k l s).mem = s.mem :=
  foldl_keeps State.mem (fun _ _ => installKey_mem _ _ _) l s

theorem installAll_weight_other (h : ∀ e ∈ l, e.kind = 1 → e.index ≠ i) : weightAt (installAll k l s) i = weightAt s i := by
  induction l generalizing s with
  | nil => rfl
  | cons e rest ih =>
    rw [List.forall_mem_cons] at h
    exact (ih h.2).trans (installKey_weight_other h.1)

theorem installAll_payload_other (h : ∀ e ∈ l, e.kind ≠ 1 → e.index ≠ i) : payloadAt (installAll k l s) i = payloadAt s i := by
  induction l generalizing s with
  | nil => rfl
  | cons e rest ih =>
    rw [List.forall_mem_cons] at h
    exact (ih h.2).trans (installKey_payload_other h.1)

/-- No two entries are for the same key. -/
def OnceEach (l : List KeyEntry) : Prop := l.Pairwise (fun d e => d.kind = e.kind → d.index ≠ e.index)

/-- Around one entry of a message, the others are for other keys. -/
theorem OnceEach.around (h : OnceEach l) (he : e ∈ l) :
    ∃ l₁ l₂, l = l₁ ++ e :: l₂ ∧ (∀ d ∈ l₁, d.kind = e.kind → d.index ≠ e.index) ∧ (∀ d ∈ l₂, d.kind = e.kind → d.index ≠ e.index) := by
  obtain ⟨l₁, l₂, rfl⟩ := List.append_of_mem he
  obtain ⟨-, htail, hcross⟩ := List.pairwise_append.1 h
  refine ⟨l₁, l₂, rfl, fun d hd => hcross d hd e List.mem_cons_self, fun d hd hk => ?_⟩
  exact ((List.pairwise_cons.1 htail).1 d hd hk.symm).symm

/-- The entry's key is installed in a state that has the keys of the entries before it, and those after it leave it. -/
theorem installAll_append (l₁ l₂ : List KeyEntry) (e : KeyEntry) (s : State) :
    ∃ b, installAll k (l₁ ++ e :: l₂) s = installAll k l₂ (installKey b (installAll k l₁ s) e) :=
  ⟨_, by rw [installAll, List.foldl_append, List.foldl_cons]; rfl⟩

theorem installAll_weight (h : OnceEach l) (he : e ∈ l) (hk : e.kind = 1) : weightAt (installAll k l s) e.index = (some e.keyId, some e.key) := by
  obtain ⟨l₁, l₂, rfl, -, hafter⟩ := h.around he
  obtain ⟨b, hb⟩ := installAll_append (k := k) l₁ l₂ e s
  rw [hb, installAll_weight_other (fun d hd hd1 => hafter d hd (hd1.trans hk.symm)), installKey_weight hk]

theorem installAll_payload (h : OnceEach l) (hkinds : ∀ d ∈ l, d.kind = 1 ∨ d.kind = 2) (he : e ∈ l) (hk : e.kind = 2) (ht : keygenTaken s e = false) :
    ∃ x, payloadAt (installAll k l s) e.index = some x ∧ x.keyId = e.keyId ∧ x.key = e.key
      ∧ (payloadAt s e.index = none → x.outSeq = 0 ∧ x.inTop = 0 ∧ x.inSeen = []) := by
  obtain ⟨l₁, l₂, rfl, hbefore, hafter⟩ := h.around he
  obtain ⟨b, hb⟩ := installAll_append (k := k) l₁ l₂ e s
  have hkind : ∀ d ∈ l₁ ++ e :: l₂, d.kind ≠ 1 → d.kind = e.kind := fun d hd h1 => ((hkinds d hd).resolve_left h1).trans hk.symm
  have hstood : payloadAt (installAll k l₁ s) e.index = payloadAt s e.index :=
    installAll_payload_other (fun d hd h1 => hbefore d hd (hkind d (List.mem_append_left _ hd) h1))
  rw [hb, installAll_payload_other (fun d hd h1 => hafter d hd (hkind d (List.mem_append_right _ (List.mem_cons_of_mem _ hd)) h1)), ← hstood]
  exact installKey_payload hk ((keygenTaken_congr hstood).trans ht)

/-- Entries that are not bad name a weight or a payload key each, none twice. -/
theorem entries_of_good (h : ∀ i e, l[i]? = some e → entryBad l i e = false) : (∀ e ∈ l, e.kind = 1 ∨ e.kind = 2) ∧ OnceEach l := by
  refine ⟨fun e he => ?_, List.pairwise_iff_getElem.2 (fun i j hi hj hij hkind hindex => ?_)⟩
  · obtain ⟨i, hi⟩ := List.mem_iff_getElem?.1 he
    have hgood := h i e hi
    simp only [entryBad, Bool.or_eq_false_iff, Bool.not_eq_false', Bool.or_eq_true, Bool.and_eq_true, beq_iff_eq] at hgood
    obtain ⟨⟨hkind, -⟩, -⟩ := hgood
    exact hkind.imp And.left And.left
  · have hgood := h j _ (List.getElem?_eq_getElem hj)
    simp only [entryBad, Bool.or_eq_false_iff, List.any_eq_false] at hgood
    obtain ⟨-, honce⟩ := hgood
    exact honce l[i] (List.mem_take_iff_getElem.2 ⟨i, by omega, rfl⟩) (by simp [hkind, hindex])

@[simp] theorem endPurge_secw (ends : Bool) (s : State) : (endPurge ends s).secw = s.secw := by
  unfold endPurge
  extract_lets
  split <;> rfl

@[simp] theorem endPurge_mem (ends : Bool) (s : State) : (endPurge ends s).mem = s.mem := by
  unfold endPurge
  extract_lets
  split <;> rfl

theorem endPurge_sec (ends : Bool) (s : State) :
    (endPurge ends s).sec = { s.sec with purged := false, suspended := s.sec.suspended && !ends, hostHold := s.sec.hostHold && !ends } := by
  unfold endPurge
  extract_lets
  split <;> rfl

end

/-- Settles O41: a binding by its refusals, a message by its checks in order, and each of its keys past those installed before and after it. -/
theorem tenantsAndKeys : Obligations.TenantsAndKeys := by
  refine ⟨?bind, ?checks, ?sealed⟩
  case bind =>
    rintro p buf _ s t ho h rfl
    rw [execTenantBind_passes ho h]
    refine ⟨fun hs => by rw [bindBody_tripped hs, answered], fun hs hb => by rw [bindBody_bound hs hb, answered],
      fun off hs hb hf => by rw [bindBody_field hs hb hf, answered], fun hs hb hf => ⟨_, by rw [bindBody_binds hs hb hf, answered], ?_⟩⟩
    simp [drawMemKeys]
  case checks =>
    intro p m s t ho h
    rw [execKeyAccept_passes ho h]
    refine ⟨fun hn => by rw [acceptBody_unattested hn, answered], fun hb hk => ⟨fun hl => by rw [acceptBody_length hb hk hl, answered],
      fun off hl hf => by rw [acceptBody_field hb hk hl hf, answered], fun hl hf hn => by rw [acceptBody_noKey hb hk hl hf hn, answered]⟩⟩
  case sealed =>
    intro p m k s t u ho h hb hkey htenant hl hf hu
    replace hu : u = keyUsed m t := hu
    have hown : ∀ d, decapKeyOf m t = some d → d.tenant = tenantDigest t := fun d hd => Option.some.inj (hkey.symm.trans hd) ▸ htenant
    rw [execKeyAccept_passes ho h, acceptBody_sealed hb hown hl hf hkey, ← hu]
    have hbusy : ∀ e, weightBusy u e = weightBusy t e := fun _ => hu ▸ rfl
    have htaken : keygenTaken u = keygenTaken t := hu ▸ rfl
    refine ⟨fun hc => by rw [acceptSealed_closed hc, answered], fun i e hopen he hbad hfirst => by rw [acceptSealed_badEntry hopen he hbad hfirst, answered],
      fun hopen hgood => ⟨fun hw => ?_, fun i hw hi => ?_, fun hall => ?_⟩⟩
    · rw [acceptSealed_weightBusy hopen hgood (by simpa only [hbusy] using hw), answered]
    · rw [acceptSealed_keygenTaken hopen hgood (by simpa only [hbusy] using hw) (htaken ▸ hi), answered]
    · obtain ⟨hkinds, honce⟩ := entries_of_good hgood
      rw [acceptSealed_installs hopen hgood (by simpa only [hbusy, htaken] using hall)]
      have hsec : u.sec = t.sec := hu ▸ rfl
      refine ⟨_, rfl, by simp, by simp [endPurge_sec], by simp [hu, keyUsed], fun e he h1 => ?_, fun e he h2 => ?_, fun i hi => ?_, fun i hi => ?_⟩
      · simpa [endPurge_sec, weightAt] using installAll_weight (k := k) (s := u) honce he h1
      · have hx := installAll_payload (k := k) honce hkinds he h2 ((congrFun htaken e).trans (hall e he).2)
        rw [payloadAt, payloadAt, hsec] at hx
        rwa [keysRecord_sec, endPurge_sec]
      · simpa [endPurge_sec, weightAt, hsec] using congrArg Prod.fst (installAll_weight_other (k := k) (s := u) hi)
      · simpa [endPurge_sec, payloadAt, hsec] using installAll_payload_other (k := k) (s := u) hi

end Sys2Proof.Machine
end

section
/-! SUPPORT. The end of a tenancy: how a release begins, and what stands once its steps have run (13 R370 to R373). -/

namespace Sys2Proof.Machine

variable {s : State} {o : Origin} {a : Ans}

/-! ### Replies leave the security unit (13 R360) -/

theorem countStatus_sec (h : a.status ≠ stAUTH_FAIL) (s : State) : (countStatus o a s).sec = s.sec := by
  unfold countStatus
  split
  · rfl
  · split
    · rfl
    · split
      · rfl
      · rfl

/-- Only AUTH_FAIL is counted in the security unit. -/
theorem replyTo_sec (h : a.status ≠ stAUTH_FAIL) (final : Bool) (s : State) : (replyTo o final a s).sec = s.sec := by
  unfold replyTo
  extract_lets handle owed s1
  rw [landReply_sec, countStatus_sec h]
  unfold s1
  clear_value owed
  cases owed <;> rfl

theorem accept_sec (p : Packet) (w : Work) (s : State) : (accept p w s).sec = s.sec := replyTo_sec (by decide) false s

theorem finish_sec (h : a.status ≠ stAUTH_FAIL) (w : Work) (s : State) : (finish w a s).sec = s.sec :=
  foldl_keeps State.sec (fun s _ => replyTo_sec h true s) _ _

/-! ### A release begins (13 R373, step 1) -/

theorem beginRelease_begun (h : s.sec.releasing = true) : beginRelease s = s := if_pos h

theorem beginRelease_alone (h : s.sec.releasing = false) (hr : inRing s = false) :
    beginRelease s = { s with sec := { s.sec with releasing := true, releaseAt := none } } := by
  rw [beginRelease, if_neg (by simp [h])]
  simp [hr, modSec]

theorem announceDeparture_ring {img : Image} (hr : inRing s = true) (ha : s.sched.active = some img) :
    announceDeparture s = send (.departure (departureBoundary img s) (ringIds s)) { s with cad := { s.cad with departAt := some (departureBoundary img s) } } := by
  rw [announceDeparture, ha]
  exact if_pos ⟨rfl, hr⟩

theorem beginRelease_ring {img : Image} (h : s.sec.releasing = false) (hr : inRing s = true) (ha : s.sched.active = some img) :
    beginRelease s = { send (.departure (departureBoundary img s) (ringIds s)) { s with cad := { s.cad with departAt := some (departureBoundary img s) } } with
      sec := { s.sec with releasing := true, releaseAt := some (departureBoundary img s) } } := by
  have hr' : inRing (announceDeparture s) = true := by
    rw [announceDeparture_ring hr ha]
    exact hr
  rw [beginRelease, if_neg (by simp [h])]
  simp only [hr, hr', if_true]
  rw [announceDeparture_ring hr ha]
  rfl

/-- A release begins in the security unit, the cadence and the messages. -/
theorem beginRelease_changes (s : State) : ∃ at_ cad out,
    beginRelease s = { s with sec := { s.sec with releasing := true, releaseAt := at_ }, cad := cad, out := out } := by
  cases h : s.sec.releasing
  · cases hr : inRing s
    · exact ⟨_, _, _, beginRelease_alone h hr⟩
    · obtain ⟨img, ha, -⟩ := inRing_iff.1 hr
      exact ⟨_, _, _, beginRelease_ring h hr ha⟩
  · refine ⟨s.sec.releaseAt, s.cad, s.out, ?_⟩
    rw [beginRelease_begun h, ← h]

/-! ### Every session is FREE (13 R373, step 2) -/

theorem FMap.forall_mapVals {α : Type} {P : α → Prop} {f : Nat → α → α} (hf : ∀ k x, P (f k x)) (m : FMap α) : ∀ e ∈ FMap.mapVals f m, P e.2 := by
  induction m with
  | nil => nofun
  | cons e rest ih => exact List.forall_mem_cons.2 ⟨hf _ _, ih⟩

theorem FMap.getD_of_forall {α : Type} {P : α → Prop} {m : FMap α} {d : α} (h : ∀ e ∈ m, P e.2) (hd : P d) (k : Nat) : P (FMap.getD m k d) := by
  induction m with
  | nil => exact hd
  | cons e rest ih =>
    obtain ⟨he, hrest⟩ := List.forall_mem_cons.1 h
    unfold FMap.getD FMap.get?
    split
    · exact he
    · exact ih hrest

/-- Every session that the table lists is FREE. -/
def AllFree (s : State) : Prop := ∀ e ∈ s.slots.table, e.2.d.state = 0

theorem AllFree.session (h : AllFree s) (n : Nat) : (sessionAt s n).d.state = 0 := FMap.getD_of_forall (P := fun x : Session => x.d.state = 0) h rfl n

theorem freeAll_allFree (s : State) : AllFree (freeAll s) :=
  FMap.forall_mapVals (P := fun x : Session => x.d.state = 0) (fun _ x => by by_cases h : x.d.state = 0 <;> simp [h]) _

theorem cancelAll_sec (s : State) : (cancelAll s).sec = s.sec :=
  foldl_keeps State.sec (fun s _ => replyTo_sec (show stCANCELLED ≠ stAUTH_FAIL by decide) true s) _ _

/-! ### The composition is left (13 R373, step 5) -/

/-- The keys of the security unit, its work, and the session slots. -/
def keysAndSlots (s : State) : Security × SecurityWork × Slots := (s.sec, s.secw, s.slots)

theorem AllFree.of_keysAndSlots {t : State} (h : AllFree s) (e : keysAndSlots t = keysAndSlots s) : AllFree t := by
  have hslots : t.slots = s.slots := congrArg (fun v => v.2.2) e
  rw [AllFree, hslots]
  exact h

/-- No session stands on a frame that fails. -/
theorem badFrame_allFree (h : AllFree s) (addr : Nat) : keysAndSlots (badFrame addr s) = keysAndSlots s := by
  have hnone : sessionsOn s addr = [] := by simpa [sessionsOn] using fun k x hx hst => absurd (h (k, x) hx) hst
  rw [badFrame, hnone]
  unfold spoilPage
  split <;> rfl

theorem lenderLost_allFree (h : AllFree s) (m : Nat) : keysAndSlots (lenderLost m s) = keysAndSlots s := by
  unfold lenderLost
  extract_lets held s1
  split
  · rfl
  · refine foldl_induct (fun t => keysAndSlots t = keysAndSlots s) (fun t addr ht => (badFrame_allFree (h.of_keysAndSlots ht) addr).trans ht) held ?_
    rw [keysAndSlots, setFlag_sec, setFlag_secw, setFlag_slots]
    rfl

theorem leaveComposition_allFree (h : AllFree s) : keysAndSlots (leaveComposition s) = keysAndSlots s := by
  unfold leaveComposition
  split
  · rfl
  · extract_lets lenders remote s1 s2 s3
    have hremote : remote = [] := by
      simpa [remote] using fun k x hx hst => by simpa [hst] using h (k, x) hx
    have h1 : keysAndSlots s1 = keysAndSlots s :=
      foldl_induct (fun t => keysAndSlots t = keysAndSlots s) (fun t i ht => (lenderLost_allFree (h.of_keysAndSlots ht) _).trans ht) lenders rfl
    have h2 : s2 = s1 := by
      unfold s2
      rw [hremote]
      rfl
    change keysAndSlots s2 = _
    rw [h2, h1]

theorem leaveComposition_out (s : State) : (leaveComposition s).comp.inComp = false := by
  cases h : s.comp.inComp
  · rw [leaveComposition, if_pos (by simp [h]), h]
  · exact (leaveComposition_leaves h).1

/-! ### The state that the steps leave -/

/-- The security unit of a device whose tenancy is over: no key, no hold, no tenant. -/
def Security.untenanted (k : Security) : Security :=
  { k with bound := false, policy := none, releasing := false, releaseAt := none, weightKeys := [], weightSecrets := [], payloadKeys := []
           suspended := false, hostHold := false, purged := false }

/-- Steps 2 to 6 and the end of the binding: what stands before the release's command is answered. -/
def released (s : State) : State :=
  modSec (fun k => { k with bound := false, policy := none, releasing := false, releaseAt := none }) (redactAll (scrub (destroyKeys (freeAll (cancelAll s)))))

theorem released_keysAndSlots (s : State) :
    keysAndSlots (released s) = (s.sec.untenanted, (destroyKeys (freeAll (cancelAll s))).secw, (freeAll (cancelAll s)).slots) := by
  have hscrub : keysAndSlots (scrub (destroyKeys (freeAll (cancelAll s)))) = keysAndSlots (destroyKeys (freeAll (cancelAll s))) :=
    leaveComposition_allFree (s := destroyKeys (freeAll (cancelAll s))) (freeAll_allFree (cancelAll s))
  simp only [keysAndSlots, Prod.mk.injEq] at hscrub
  obtain ⟨hsec, hsecw, hslots⟩ := hscrub
  simp only [keysAndSlots, released, redactAll, modSec_sec, modSec_secw, modSec_slots, setFlag_sec, setFlag_secw, setFlag_slots, hsec, hsecw, hslots]
  rw [← cancelAll_sec s]
  rfl

theorem released_sec (s : State) : (released s).sec = s.sec.untenanted := congrArg Prod.fst (released_keysAndSlots s)

theorem released_decap (s : State) : (released s).secw.decap = [] := congrArg (fun v => v.2.1.decap) (released_keysAndSlots s)

theorem released_session (s : State) (n : Nat) : (sessionAt (released s) n).d.state = 0 := by
  rw [sessionAt_of_table (congrArg (fun v => v.2.2.table) (released_keysAndSlots s))]
  exact (freeAll_allFree _).session n

/-! ### Custodial subcommands that waited (13 R371) -/

/-- The effect of a custodial subcommand that waits for a release. -/
def custodialEffect (sub v : Nat) (s : State) : State :=
  if sub = 2 then debugEffect v s else if sub = 3 then identityEffect s else if sub = 4 then factoryEffect s else s

/-- A subcommand that waited takes effect and is answered. -/
def custodialRun (e : Nat × Nat) (s : State) : State := finish (.custodial e.1 e.2) ok (custodialDone e.1 e.2 (custodialEffect e.1 e.2 s))

/-- What every waiting subcommand keeps is kept when all of them have run. -/
theorem custodialAfter_induct (P : State → Prop) (hrun : ∀ e t, P t → P (custodialRun e t)) (h : P s) : P (custodialAfter s) :=
  foldl_induct P (f := fun t e => custodialRun e t) (fun t e => hrun e t) _ h

/-- The state without what custodial subcommands and the replies to them may change. -/
def offCustody (s : State) : State :=
  { s with
    sec := { s.sec with debug := false, chainEpoch := 0, akSerial := 0, presencePolicy := 0, rollback := 0, presenceOpen := false, windowS := 0 }
    secw := { s.secw with decap := [] }, cal := {}, svc := {}, slots := {}, clients := [], commands := [], counters := {}, evr := {}, flags := [], mgmt := {}, out := {} }

theorem offCustody_finish (h : a.status ≠ stAUTH_FAIL) (w : Work) (s : State) : offCustody (finish w a s) = offCustody s := by
  rw [finish_changes, finish_sec h]
  rfl

theorem offCustody_custodialEffect (sub v : Nat) (s : State) : offCustody (custodialEffect sub v s) = offCustody s := by
  unfold custodialEffect
  split
  · rfl
  · split
    · rfl
    · split <;> rfl

theorem custodialDone_changes (sub v : Nat) (s : State) : custodialDone sub v s = { s with
    sec := { s.sec with presenceOpen := false, windowS := 0 }
    evr := (custodialDone sub v s).evr, flags := (custodialDone sub v s).flags, mgmt := (custodialDone sub v s).mgmt, out := (custodialDone sub v s).out } := by
  rw [custodialDone, report_changes, setFlag_changes]
  rfl

theorem offCustody_custodialRun (e : Nat × Nat) (s : State) : offCustody (custodialRun e s) = offCustody s := by
  rw [custodialRun, offCustody_finish (by decide), custodialDone_changes]
  exact offCustody_custodialEffect e.1 e.2 s

theorem custodialRun_decap (e : Nat × Nat) (h : s.secw.decap = []) : (custodialRun e s).secw.decap = [] := by
  rw [custodialRun, finish_secw, custodialDone_changes]
  unfold custodialEffect
  split
  · exact h
  · split
    · rfl
    · split <;> exact h

theorem custodialRun_session (e : Nat × Nat) (s : State) (n : Nat) : (sessionAt (custodialRun e s) n).d = (sessionAt s n).d := by
  obtain ⟨b, hb⟩ := finish_session (.custodial e.1 e.2) ok (custodialDone e.1 e.2 (custodialEffect e.1 e.2 s)) n
  rw [custodialRun, hb, Session.owing_d, custodialDone_changes]
  unfold custodialEffect
  split
  · rfl
  · split
    · rfl
    · split <;> rfl

/-- The OK of a subcommand closes the window (13 R369). -/
theorem custodialRun_presence (e : Nat × Nat) (s : State) : (custodialRun e s).sec.presenceOpen = false := by
  rw [custodialRun, finish_sec (by decide), custodialDone_changes]

/-! ### The release completes (13 R373, steps 2 to 7) -/

/-- The released device, with the flag of a tenancy that has ended (13 R374). -/
def releaseFlagged (s : State) : State := if s.sec.bound then setFlag offSecEvents 5 (released s) else released s

theorem releaseFlagged_changes (s : State) : ∃ flags mgmt out, releaseFlagged s = { released s with flags := flags, mgmt := mgmt, out := out } := by
  unfold releaseFlagged
  split
  · exact ⟨_, _, _, setFlag_changes _ _ _⟩
  · exact ⟨_, _, _, rfl⟩

theorem completeRelease_eq (s : State) : completeRelease s = custodialAfter (finish .release ok (releaseFlagged s)) := rfl

theorem completeRelease_offCustody (s : State) : offCustody (completeRelease s) = offCustody (released s) := by
  obtain ⟨flags, mgmt, out, h⟩ := releaseFlagged_changes s
  rw [completeRelease_eq]
  refine custodialAfter_induct (fun t => offCustody t = offCustody (released s)) (fun e t ht => (offCustody_custodialRun e t).trans ht) ?_
  rw [offCustody_finish (by decide), h]
  rfl

/-- What custody does not change is as the steps have left it. -/
theorem completeRelease_view {β : Type} (view : State → β) (hv : ∀ s, view (offCustody s) = view s) (s : State) : view (completeRelease s) = view (released s) :=
  eq_of_aside offCustody view hv (completeRelease_offCustody s)

theorem completeRelease_decap (s : State) : (completeRelease s).secw.decap = [] := by
  obtain ⟨flags, mgmt, out, h⟩ := releaseFlagged_changes s
  rw [completeRelease_eq]
  refine custodialAfter_induct (fun t => t.secw.decap = []) (fun e _ => custodialRun_decap e) ?_
  rw [finish_secw, h]
  exact released_decap s

theorem completeRelease_session (s : State) (n : Nat) : (sessionAt (completeRelease s) n).d.state = 0 := by
  obtain ⟨b, hb⟩ := finish_session .release ok (releaseFlagged s) n
  obtain ⟨flags, mgmt, out, h⟩ := releaseFlagged_changes s
  rw [completeRelease_eq]
  refine custodialAfter_induct (fun t => (sessionAt t n).d.state = 0) (fun e t ht => by rw [custodialRun_session, ht]) ?_
  rw [hb, Session.owing_d, h]
  exact released_session s n

theorem completeRelease_presence (hp : s.sec.presenceOpen = false) : (completeRelease s).sec.presenceOpen = false := by
  obtain ⟨flags, mgmt, out, h⟩ := releaseFlagged_changes s
  rw [completeRelease_eq]
  refine custodialAfter_induct (fun t => t.sec.presenceOpen = false) (fun e t _ => custodialRun_presence e t) ?_
  rw [finish_sec (by decide), h]
  exact (congrArg Security.presenceOpen (released_sec s)).trans hp

/-- A device that no tenant is bound to: no session, no key, no content, no composition. -/
structure Untenanted (s : State) : Prop where
  bound : s.sec.bound = false
  policy : s.sec.policy = none
  releasing : s.sec.releasing = false
  weightKeys : s.sec.weightKeys = []
  payloadKeys : s.sec.payloadKeys = []
  decap : s.secw.decap = []
  mem : s.mem = []
  frames : s.tier.frames = []
  image : s.sched.active = none
  models : s.cont.models = []
  partitions : s.cont.partitions = []
  vocabs : s.cont.vocabs = []
  alone : s.comp.inComp = false
  sessions : ∀ slot, (sessionAt s slot).d.state = 0

theorem released_contents (s : State) : (released s).mem = [] ∧ (released s).tier.frames = [] ∧ (released s).sched = {}
    ∧ (released s).cont.models = [] ∧ (released s).cont.partitions = [] ∧ (released s).cont.vocabs = [] ∧ (released s).comp.inComp = false := by
  simp only [released, redactAll, modSec_mem, modSec_tier, modSec_sched, modSec_cont, modSec_comp, setFlag_mem, setFlag_tier, setFlag_sched, setFlag_cont, setFlag_comp]
  exact ⟨rfl, rfl, rfl, rfl, rfl, rfl, leaveComposition_out _⟩

theorem completeRelease_untenanted (s : State) : Untenanted (completeRelease s) := by
  have hsec {β : Type} (f : Security → β) (hf : ∀ s : State, f (offCustody s).sec = f s.sec) : f (completeRelease s).sec = f s.sec.untenanted := by
    rw [completeRelease_view (fun s => f s.sec) hf, released_sec]
  obtain ⟨hmem, hframes, hsched, hmodels, hparts, hvocabs, hcomp⟩ := released_contents s
  exact {
    bound := hsec Security.bound (fun _ => rfl)
    policy := hsec Security.policy (fun _ => rfl)
    releasing := hsec Security.releasing (fun _ => rfl)
    weightKeys := hsec Security.weightKeys (fun _ => rfl)
    payloadKeys := hsec Security.payloadKeys (fun _ => rfl)
    decap := completeRelease_decap s
    mem := (completeRelease_view State.mem (fun _ => rfl) s).trans hmem
    frames := (completeRelease_view (fun s => s.tier.frames) (fun _ => rfl) s).trans hframes
    image := (completeRelease_view (fun s => s.sched.active) (fun _ => rfl) s).trans (congrArg Schedule.active hsched)
    models := (completeRelease_view (fun s => s.cont.models) (fun _ => rfl) s).trans hmodels
    partitions := (completeRelease_view (fun s => s.cont.partitions) (fun _ => rfl) s).trans hparts
    vocabs := (completeRelease_view (fun s => s.cont.vocabs) (fun _ => rfl) s).trans hvocabs
    alone := (completeRelease_view (fun s => s.comp.inComp) (fun _ => rfl) s).trans hcomp
    sessions := completeRelease_session s }

end Sys2Proof.Machine
end

section
/-! PROOF of O42. TENANT_RELEASE, the release once its boundary is past, and the end of the hold time (13 R372, R373; 15 R408, R416; 02 R49). -/

namespace Sys2Proof.Machine

variable {p : Packet} {s t : State}

/-! ### TENANT_RELEASE (13 R372) -/

theorem execTenantRelease_passes (ho : opcodeOf p = 0x53) (h : passes never p s = some t) :
    exec (.tenantRelease p) s = .next (dropRecognised p (releaseBody 0 p t)) := next_serve_passes ho h

theorem releaseBody_activating (ha : activating t = true) : releaseBody 0 p t = replyMeasuring p t := if_pos ha

theorem releaseBody_dimm (ha : activating t = false) (hd : dimmBusy t = true) : releaseBody 0 p t = reply p (busy 0xFFFF) t := by
  simp only [releaseBody, ha, hd, Bool.false_eq_true, if_false, if_true]

theorem releaseBody_begins (ha : activating t = false) (hd : dimmBusy t = false) : releaseBody 0 p t = beginRelease (accept p .release t) := by
  simp only [releaseBody, ha, hd, Bool.false_eq_true, if_false]

theorem inRing_accept (p : Packet) (w : Work) (s : State) : inRing (accept p w s) = inRing s := by rw [inRing, accept_sched, inRing]

theorem departureBoundary_accept (img : Image) (p : Packet) (w : Work) (s : State) : departureBoundary img (accept p w s) = departureBoundary img s := by
  rw [departureBoundary, accept_cad]
  rfl

/-- A release that no other goes before: it waits for nothing outside a ring, and in a ring for the announced boundary. -/
theorem beginRelease_accept (hr : t.sec.releasing = false) :
    (inRing t = false → (beginRelease (accept p .release t)).sec.releaseAt = none)
      ∧ ∀ img, inRing t = true → t.sched.active = some img → (beginRelease (accept p .release t)).sec.releaseAt = some (departureBoundary img t)
        ∧ .departure (departureBoundary img t) (ringIds t) ∈ (beginRelease (accept p .release t)).out.msgs := by
  have hr' : (accept p .release t).sec.releasing = false := by rw [accept_sec, hr]
  refine ⟨fun hi => ?_, fun img hi ha => ?_⟩
  · rw [beginRelease_alone hr' (by rw [inRing_accept, hi])]
  · have hids : ringIds (accept p .release t) = ringIds t := by rw [ringIds, accept_sched, ringIds]
    rw [beginRelease_ring hr' (by rw [inRing_accept, hi]) (by rw [accept_sched, ha]), departureBoundary_accept, hids]
    exact ⟨rfl, List.mem_append_right _ (List.mem_singleton_self _)⟩

/-! ### The release runs (13 R373) -/

theorem execTenantReleaseRun_runs (hr : s.sec.releasing = true) (hb : s.sec.releaseAt = none ∨ ∃ b, s.sec.releaseAt = some b ∧ b ≤ s.cad.beat) :
    exec .tenantReleaseRun s = .next (completeRelease s) := by
  refine congrArg Host.Outcome.next (if_pos ⟨hr, ?_⟩)
  rcases hb with h | ⟨b, h, hle⟩
  · rw [h]
    rfl
  · simpa [h] using hle

theorem execTenantReleaseRun_waits (h : s.sec.releasing = false ∨ ∃ b, s.sec.releaseAt = some b ∧ s.cad.beat < b) : exec .tenantReleaseRun s = .next s := by
  refine congrArg Host.Outcome.next (if_neg ?_)
  rintro ⟨hr, hall⟩
  rcases h with h | ⟨b, h, hlt⟩
  · simp [h] at hr
  · exact absurd (by simpa [h] using hall) (Nat.not_le.2 hlt)

/-! ### The hold time ends (15 R416) -/

theorem execHostHoldExpiry_begins (hs : s.sec.suspended = true) (h0 : s.host.holdBeats ≠ 0) (hb : s.host.lostAt + s.host.holdBeats ≤ s.cad.beat) :
    exec .hostHoldExpiry s = .next (beginRelease s) := congrArg Host.Outcome.next (if_pos ⟨hs, h0, hb⟩)

theorem execHostHoldExpiry_ignored
    (h : s.sec.suspended = false ∨ s.host.holdBeats = 0 ∨ s.cad.beat < s.host.lostAt + s.host.holdBeats ∨ s.sec.releasing = true) : exec .hostHoldExpiry s = .next s := by
  by_cases hc : s.sec.suspended = true ∧ s.host.holdBeats ≠ 0 ∧ s.host.lostAt + s.host.holdBeats ≤ s.cad.beat
  · obtain ⟨hs, h0, hb⟩ := hc
    rw [execHostHoldExpiry_begins hs h0 hb]
    rcases h with h | h | h | h
    · simp [h] at hs
    · exact absurd h h0
    · omega
    · rw [beginRelease_begun h]
  · exact congrArg Host.Outcome.next (if_neg hc)

/-- Settles O42: the command and the hold time begin a release where a ring decides its boundary, and past it the steps leave `Untenanted`. -/
theorem tenantReleased : Obligations.TenantReleased := by
  refine ⟨?command, ?runs, fun s => execTenantReleaseRun_waits, ?expires, fun s => execHostHoldExpiry_ignored⟩
  case command =>
    intro p s t ho h
    rw [execTenantRelease_passes ho h]
    refine ⟨fun ha => ?_, fun ha hd => by rw [releaseBody_dimm ha hd, answered], fun ha hd hr => ⟨_, rfl, ?_⟩⟩
    · rw [releaseBody_activating ha]
      exact ⟨_, rfl⟩
    · rw [releaseBody_begins ha hd, dropRecognised_sec, dropRecognised_out, dropRecognised_mem, dropRecognised_cont, dropRecognised_commandOf]
      obtain ⟨at_, cad, out, he⟩ := beginRelease_changes (accept p .release t)
      refine ⟨by rw [he], ?_, by simp, by rw [he, accept_cont], beginRelease_accept hr⟩
      rw [he]
      exact commandOf_accept p .release t
  case runs =>
    intro s hr hb
    obtain ⟨hbound, hpolicy, hreleasing, hweight, hpayload, hdecap, hmem, hframes, himage, hmodels, hparts, hvocabs, halone, hsessions⟩ := completeRelease_untenanted s
    exact ⟨_, execTenantReleaseRun_runs hr hb, hbound, hpolicy, hreleasing, hweight, hpayload, hdecap, hmem, hframes, himage, hmodels, hparts, hvocabs, halone, hsessions⟩
  case expires =>
    intro s hs h0 hb hr
    rw [execHostHoldExpiry_begins hs h0 hb]
    refine ⟨fun hi => by rw [beginRelease_alone hr hi], fun img hi ha => ⟨_, rfl, ?_⟩⟩
    rw [beginRelease_ring hr hi ha]
    exact ⟨rfl, rfl, rfl, rfl, rfl⟩

end Sys2Proof.Machine
end

section
/-! PROOF of O43. Presence windows, the seal loop and CUSTODIAL (13 R369 to R371; 20 R491, R500). -/

namespace Sys2Proof.Machine

variable {p : Packet} {s t : State} {sub limit v : Nat} {releases : Bool} {effect : Nat → State → State}

/-! ### The seal loop opens (13 R370) -/

theorem cutStop_sec (s : State) : (cutStop s).sec = s.sec := by
  unfold cutStop
  split <;> rfl

theorem killLanes_sec (s : State) : (killLanes s).sec = s.sec := by
  unfold killLanes
  split
  · rfl
  · exact foldl_keeps State.sec (fun s x => by rw [voidRun_changes]) _ s

theorem departNow_sec (s : State) : (departNow s).sec = s.sec := by
  unfold departNow
  split
  · rfl
  · split <;> rfl

/-- A device whose loop has opened: tripped, with no window. -/
def Security.tripped (k : Security) : Security := { k with sealOk := false, sealTripped := true, presenceOpen := false, windowS := 0 }

/-- The tripped device completes a release, with its commands killed and its peers told. -/
theorem openSeal_releases (s : State) : ∃ w, openSeal s = completeRelease w ∧ w.sec = s.sec.tripped := by
  refine ⟨_, rfl, ?_⟩
  rw [departNow_sec, killLanes_sec, report_sec, setFlag_sec, modSec_sec, cutStop_sec]
  rfl

theorem openSeal_trips (s : State) :
    (openSeal s).sec.sealOk = false ∧ (openSeal s).sec.sealTripped = true ∧ (openSeal s).sec.presenceOpen = false := by
  obtain ⟨w, hw, hsec⟩ := openSeal_releases s
  rw [hw, completeRelease_presence (by rw [hsec]; rfl), completeRelease_view (fun s => s.sec.sealOk) (fun _ => rfl),
    completeRelease_view (fun s => s.sec.sealTripped) (fun _ => rfl), released_sec, hsec]
  exact ⟨rfl, rfl, rfl⟩

theorem openSeal_untenanted (s : State) : Untenanted (openSeal s) := completeRelease_untenanted _

/-! ### A row that runs a custodial subcommand (13 R369, R371) -/

section
variable {i : Instr} (he : exec i s = .next (dropRecognised p (custodial sub limit releases effect 0 p t)))
include he

theorem custodial_short (hp : presenceShort sub t = true) : exec i s = .next (answered p { status := stPRESENCE_REQUIRED } t) := by
  rw [he, custodial, if_pos hp, answered]

theorem custodial_value (hp : presenceShort sub t = false) (hv : limit < paramOf p 0x20 8) : exec i s = .next (answered p (bad 0x20) t) := by
  rw [he, custodial, if_neg (by simp [hp]), if_pos hv, answered]

theorem custodial_runs (hp : presenceShort sub t = false) (hv : paramOf p 0x20 8 ≤ limit) (hr : releases = false ∨ t.sec.bound = false) :
    exec i s = .next (answered p ok (custodialDone sub (paramOf p 0x20 8) (effect (paramOf p 0x20 8) t))) := by
  have hn : ¬ (releases = true ∧ t.sec.bound = true) := fun ⟨h1, h2⟩ => hr.elim (fun h => by simp [h] at h1) (fun h => by simp [h] at h2)
  rw [he, custodial, if_neg (by simp [hp]), if_neg (Nat.not_lt.2 hv), if_neg hn, answered]

/-- A subcommand that waits has begun the release and stands registered, and has had no effect yet. -/
theorem custodial_waits (hp : presenceShort sub t = false) (hv : paramOf p 0x20 8 ≤ limit) (hr : releases = true) (hb : t.sec.bound = true) :
    ∃ u, exec i s = .next u ∧ u.sec.releasing = true ∧ u.sec.debug = t.sec.debug ∧ u.sec.chainEpoch = t.sec.chainEpoch ∧ u.cal = t.cal
      ∧ commandOf u (.custodial sub (paramOf p 0x20 8)) ≠ none := by
  obtain ⟨at_, cad, out, h⟩ := beginRelease_changes (await (.custodial sub (paramOf p 0x20 8)) (originOf p t) t)
  rw [custodial, if_neg (by simp [hp]), if_neg (Nat.not_lt.2 hv), if_pos ⟨hr, hb⟩, h] at he
  exact ⟨_, he, rfl, rfl, rfl, rfl, by simp [commandOf]⟩

end

/-! ### The rows of CUSTODIAL -/

theorem next_custodial_passes {body : Nat → Packet → State → State} (ho : opcodeOf p = 0x64) (hs : argOf p 20 1 = sub) (h : passes never p s = some t) :
    (Host.Outcome.next (serve (isCustodial sub) never body p s) : Host.Outcome State Fault Refusal) = .next (dropRecognised p (body 0 p t)) :=
  congrArg Host.Outcome.next (serve_passes (by simp [isCustodial, ho, hs]) h)

section
variable (ho : opcodeOf p = 0x64) (h : passes never p s = some t)
include ho h

theorem execCustodialRollback_passes (hs : argOf p 20 1 < 2 ∨ 6 < argOf p 20 1) :
    exec (.custodialRollback p) s = .next (dropRecognised p (rollbackBody 0 p t)) := by
  have hn : ¬ (2 ≤ argOf p 20 1 ∧ argOf p 20 1 ≤ 6) := by omega
  exact congrArg Host.Outcome.next (serve_passes (by rw [ho, decide_eq_false hn]; rfl) h)

theorem execCustodialRollback_one (hs : argOf p 20 1 = 1) : exec (.custodialRollback p) s
    = .next (dropRecognised p (custodial 1 0xFFFFFFFF false (fun v => modSec (fun k => { k with rollback := v })) 0 p t)) := by
  rw [execCustodialRollback_passes ho h (by omega), rollbackBody, if_pos hs]

theorem execCustodialRollback_unknown (hs : argOf p 20 1 = 0 ∨ 7 ≤ argOf p 20 1) : exec (.custodialRollback p) s = .next (answered p (bad 0x14) t) := by
  rw [execCustodialRollback_passes ho h (by omega), rollbackBody, if_neg (by omega), answered]

theorem execCustodialDebug_passes (hs : argOf p 20 1 = 2) :
    exec (.custodialDebug p) s = .next (dropRecognised p (custodial 2 1 (paramOf p 0x20 8 == 1) debugEffect 0 p t)) := next_custodial_passes ho hs h

theorem execIdentityReset_passes (hs : argOf p 20 1 = 3) :
    exec (.identityReset p) s = .next (dropRecognised p (custodial 3 0 true (fun _ => identityEffect) 0 p t)) := next_custodial_passes ho hs h

theorem execFactoryReturn_passes (hs : argOf p 20 1 = 4) :
    exec (.factoryReturn p) s = .next (dropRecognised p (custodial 4 0 true (fun _ => factoryEffect) 0 p t)) := next_custodial_passes ho hs h

theorem execSealOverride_open (hs : argOf p 20 1 = 5) (hc : t.sec.sealOk = false) :
    exec (.sealOverride p) s = .next (answered p { status := stPRESENCE_REQUIRED } t) := by
  refine (next_custodial_passes ho hs h).trans ?_
  rw [overrideBody, if_neg (by simp [hc]), answered]

theorem execSealOverride_closed (hs : argOf p 20 1 = 5) (hc : t.sec.sealOk = true) :
    exec (.sealOverride p) s = .next (dropRecognised p (custodial 5 0 false (fun _ => modSec (fun k => { k with sealTripped := false })) 0 p t)) := by
  refine (next_custodial_passes ho hs h).trans ?_
  rw [overrideBody, if_pos hc]

theorem execPresencePolicy_passes (hs : argOf p 20 1 = 6) : exec (.presencePolicy p) s
    = .next (dropRecognised p (custodial 6 1 false (fun v => modSec (fun k => { k with presencePolicy := v })) 0 p t)) := next_custodial_passes ho hs h

/-- SEAL_OVERRIDE without presence is refused alike with the loop open and closed. -/
theorem execSealOverride_short (hs : argOf p 20 1 = 5) (hp : presenceShort 5 t = true ∨ t.sec.sealOk = false) :
    exec (.sealOverride p) s = .next (answered p { status := stPRESENCE_REQUIRED } t) := by
  cases hc : t.sec.sealOk
  · exact execSealOverride_open ho h hs hc
  · exact custodial_short (execSealOverride_closed ho h hs hc) (hp.resolve_right (by simp [hc]))

end

/-- Settles O43: the rows of presence and the loop, then each subcommand as `custodial` refuses it, runs it or lets it wait. -/
theorem presenceSealCustody : Obligations.PresenceSealCustody := by
  refine ⟨fun s h => congrArg Host.Outcome.next (if_pos h), fun s h => congrArg Host.Outcome.next (if_neg (by simp [h])), fun _ => rfl, fun _ => rfl,
    ?opens, ?presence, ?value, ?effect, ?waits⟩
  case opens =>
    intro s
    obtain ⟨hok, htripped, hwindow⟩ := openSeal_trips s
    have hu := openSeal_untenanted s
    exact ⟨_, rfl, hok, htripped, hwindow, hu.bound, hu.weightKeys, hu.payloadKeys, hu.mem, hu.frames, hu.models, hu.sessions⟩
  case presence =>
    exact fun p s t ho h => ⟨fun hs => custodial_short (execCustodialRollback_one ho h hs), fun hs => custodial_short (execCustodialDebug_passes ho h hs),
      fun hs => custodial_short (execIdentityReset_passes ho h hs), fun hs => custodial_short (execFactoryReturn_passes ho h hs),
      execSealOverride_short ho h, fun hs => custodial_short (execPresencePolicy_passes ho h hs), execCustodialRollback_unknown ho h⟩
  case value =>
    rintro p _ s t ho h rfl
    exact ⟨fun hs => custodial_value (execCustodialRollback_one ho h hs), fun hs => custodial_value (execCustodialDebug_passes ho h hs),
      fun hs => custodial_value (execIdentityReset_passes ho h hs), fun hs => custodial_value (execFactoryReturn_passes ho h hs),
      fun hs hc => custodial_value (execSealOverride_closed ho h hs hc), fun hs => custodial_value (execPresencePolicy_passes ho h hs)⟩
  case effect =>
    rintro p _ s t ho h rfl
    refine ⟨fun hs hp hv => ⟨_, custodial_runs (execCustodialRollback_one ho h hs) hp hv (.inl rfl), ?_⟩,
      fun hs hp hv hb => ⟨_, custodial_runs (execCustodialDebug_passes ho h hs) hp hv (hb.imp_left (fun h0 => by simp [h0])), ?_⟩,
      fun hs hp hv hb => ⟨_, custodial_runs (execIdentityReset_passes ho h hs) hp hv.le (.inr hb), ?_⟩,
      fun hs hp hv hb => ⟨_, custodial_runs (execFactoryReturn_passes ho h hs) hp hv.le (.inr hb), ?_⟩,
      fun hs hp hc hv => ⟨_, custodial_runs (execSealOverride_closed ho h hs hc) hp hv.le (.inl rfl), ?_⟩,
      fun hs hp hv => ⟨_, custodial_runs (execPresencePolicy_passes ho h hs) hp hv (.inl rfl), ?_⟩⟩ <;> rw [custodialDone_changes]
    · exact ⟨rfl, rfl⟩
    · exact ⟨rfl, rfl⟩
    · exact ⟨rfl, rfl, rfl⟩
    · exact ⟨rfl, rfl, rfl, rfl, rfl⟩
    · exact ⟨rfl, rfl⟩
    · exact ⟨rfl, rfl⟩
  case waits =>
    intro p s t ho h hb
    refine ⟨fun hs hp hv => ?_, fun hs hp hv => ?_, fun hs hp hv => ?_⟩
    · obtain ⟨u, he, hr, hdebug, -, -, hc⟩ := custodial_waits (execCustodialDebug_passes ho h hs) hp hv.le (by simp [hv]) hb
      exact ⟨u, he, hr, hdebug, hv ▸ hc⟩
    · obtain ⟨u, he, hr, -, hepoch, -, hc⟩ := custodial_waits (execIdentityReset_passes ho h hs) hp hv.le rfl hb
      exact ⟨u, he, hr, hepoch, hv ▸ hc⟩
    · obtain ⟨u, he, hr, -, -, hcal, hc⟩ := custodial_waits (execFactoryReturn_passes ho h hs) hp hv.le rfl hb
      exact ⟨u, he, hr, congrArg Calibration.user hcal, hv ▸ hc⟩

end Sys2Proof.Machine
end

section
/-! PROOF of O11. The opcodes that Idle and Dormant serve (14 R393). -/

namespace Sys2Proof.Machine

variable {p : Packet} {prior : Previous} {s : State}

theorem quietOpcode_iff (op : Nat) :
    quietOpcode op = true ↔ (1 ≤ op ∧ op ≤ 4) ∨ (0x50 ≤ op ∧ op ≤ 0x53) ∨ (0x60 ≤ op ∧ op ≤ 0x63) ∨ (0x70 ≤ op ∧ op ≤ 0x74) := by
  simp [quietOpcode, or_assoc]

/-- Start-up is over and the client may send the opcode: only Idle and Dormant still refuse. -/
theorem checkOpcode_permitted (hph : s.svc.phase = 4) (hc : p.client = 0 ∨ adminOpcode (opcodeOf p) = false) :
    checkOpcode p s = if s.sup.dev ≠ .run ∧ !quietOpcode (opcodeOf p) then
      some (busy (if s.sup.devTarget = some .run then min 0xFFFE (wakeBeats s - (s.cad.beat - s.sup.wakeFrom)) else 0xFFFF)) else none := by
  have hadmin : ¬ (p.client ≠ 0 ∧ adminOpcode (opcodeOf p) = true) := by
    rintro ⟨hne, ha⟩
    exact hc.elim hne (by simp [ha])
  unfold checkOpcode
  dsimp only
  rw [if_neg (by omega), if_neg hadmin, if_neg (by omega)]

theorem checkOpcode_quiet (hph : s.svc.phase = 4) (hc : p.client = 0 ∨ adminOpcode (opcodeOf p) = false) (hq : quietOpcode (opcodeOf p) = true) :
    checkOpcode p s = none := by
  rw [checkOpcode_permitted hph hc, if_neg (by simp [hq])]

theorem checkOpcode_resting (hph : s.svc.phase = 4) (hd : s.sup.dev ≠ .run) (hc : p.client = 0 ∨ adminOpcode (opcodeOf p) = false)
    (hq : quietOpcode (opcodeOf p) = false) (ht : s.sup.devTarget ≠ some .run) : checkOpcode p s = some (busy 0xFFFF) := by
  rw [checkOpcode_permitted hph hc, if_pos ⟨hd, by simp [hq]⟩, if_neg ht]

/-- Settles O11: an opcode is quiet or not, and the gate's first check says which. -/
theorem idleServesQuietOpcodes : Obligations.IdleServesQuietOpcodes := by
  intro p prior s hph hd hc
  refine ⟨fun hq => checkOpcode_quiet hph hc ((quietOpcode_iff _).2 hq), fun hq ht => ?_⟩
  rw [← quietOpcode_iff, Bool.not_eq_true] at hq
  exact gate_opcode_refused (checkOpcode_resting hph hd hc hq ht)

end Sys2Proof.Machine
end

section
/-! SUPPORT for O46. What entering REDUCED or STOPPING changes besides the supply block (14 R378, R380). -/

namespace Sys2Proof.Machine

variable {s t : State}

/-! ### What an entry may change -/

/-- The state without what a notice, the Mover, DIMM service and checkpoints may change. -/
def offSupply (s : State) : State := { offNotice s with tier := {}, saves := {} }

/-- A later state differs only in what the entry to a supply state may change beside the supply block, and has every flag set that was set. -/
structure BySupply (s t : State) : Prop where
  frame : offSupply t = offSupply s
  flags : FlagsStay s t

theorem ByNotice.killLanes (h : ByNotice s t) : ByNotice s (killLanes t) := by
  unfold Machine.killLanes
  split
  · exact h
  · exact h.foldl (fun _ _ hu => hu.voidRun _ _) _

theorem ByNotice.departNow (h : ByNotice s t) : ByNotice s (departNow t) := by
  unfold Machine.departNow
  split
  · exact h
  · exact h.ite (.send _ (h.update rfl rfl))

namespace BySupply

theorem sup (h : BySupply s t) : t.sup = s.sup := eq_of_aside offSupply State.sup (fun _ => rfl) h.frame
theorem host (h : BySupply s t) : t.host = s.host := eq_of_aside offSupply State.host (fun _ => rfl) h.frame
theorem slots (h : BySupply s t) : t.slots = s.slots := eq_of_aside offSupply State.slots (fun _ => rfl) h.frame

theorem notice (h : ByNotice s t) : BySupply s t := ⟨congrArg (fun u : State => { u with tier := {}, saves := {} }) h.frame, h.flags⟩

theorem afterNotice {u : State} (h : BySupply s t) (k : ByNotice t u) : BySupply s u :=
  ⟨(notice k).frame.trans h.frame, h.flags.trans k.flags⟩

/-- Mover operations, DIMM service and checkpoints may change as they like. -/
theorem update {u : State} (h : BySupply s t) (hf : offSupply u = offSupply t) (hg : u.flags = t.flags) : BySupply s u :=
  ⟨hf.trans h.frame, h.flags.trans (.of_eq hg)⟩

end BySupply

/-! ### REDUCED (14 R378) -/

/-- The supply block in REDUCED, and its flag, before the lanes are held. -/
def reducedBegun (mV mA : Nat) (s : State) : State :=
  setFlag offSupEvents 1 (setSup (fun u => { u with st := .reduced, vin := mV, iin := mA, reducedCnt := satAdd (2 ^ 64 - 1) u.reducedCnt 1 }) s)

theorem reducedBegun_flags (mV mA : Nat) (s : State) : FlagsStay s (reducedBegun mV mA s) := .setFlag _ _ (.of_eq rfl)

/-- Uncommitted commands die, every microbatch is deferred, the lower Mover classes stop, and a record is made. -/
theorem enterReduced_bySupply (mV mA : Nat) (s : State) : BySupply (reducedBegun mV mA s) (enterReduced mV mA s) := by
  unfold enterReduced
  extract_lets _ killed deferred _ paused
  have hkilled : ByNotice (reducedBegun mV mA s) killed := (ByNotice.refl _).killLanes
  have hdeferred : ByNotice (reducedBegun mV mA s) deferred := by
    unfold deferred
    split
    · exact hkilled.deferAll _
    · exact hkilled
  have hpaused : BySupply (reducedBegun mV mA s) paused := (BySupply.notice hdeferred).update rfl rfl
  exact hpaused.afterNotice ((ByNotice.refl _).report _ _)

theorem enterReduced_sup (mV mA : Nat) (s : State) : (enterReduced mV mA s).sup
    = { s.sup with st := .reduced, vin := mV, iin := mA, reducedCnt := satAdd (2 ^ 64 - 1) s.sup.reducedCnt 1 } := by
  rw [(enterReduced_bySupply mV mA s).sup, reducedBegun, setFlag_sup, setSup_sup]

theorem enterReduced_slots (mV mA : Nat) (s : State) : (enterReduced mV mA s).slots = s.slots := by
  rw [(enterReduced_bySupply mV mA s).slots, reducedBegun, setFlag_slots, setSup_slots]

theorem enterReduced_flags (mV mA : Nat) (s : State) : FlagsStay s (enterReduced mV mA s) :=
  (reducedBegun_flags mV mA s).trans (enterReduced_bySupply mV mA s).flags

theorem enterReduced_sets (mV mA : Nat) (s : State) : (getFlag (enterReduced mV mA s) offSupEvents 1).on = true :=
  (enterReduced_bySupply mV mA s).flags _ _ (setFlag_on _ _ _)

/-! ### STOPPING (14 R380) -/

/-- The supply block at stage 1, recognition stopped, no firmware activation, before the lanes are killed. -/
def stoppingBegun (mV : Nat) (s : State) : State :=
  { setSup (fun u => { u with st := .stopping, vin := mV, stopStage := 1 }) s with
    host := { s.host with stopped := true }, svc := { s.svc with activateAt := none, takenOver := false } }

/-- Uncommitted commands die, Mover work, checkpoints and DIMM service end, ring peers are told, and a record is made. -/
theorem enterStopping_bySupply (mV : Nat) (s : State) : BySupply (stoppingBegun mV s) (enterStopping mV s) := by
  unfold enterStopping
  extract_lets -underBinder _ _ _ _ killed _ _ _ ended
  have hkilled : ByNotice (stoppingBegun mV s) killed := (ByNotice.refl _).killLanes
  have hended : BySupply (stoppingBegun mV s) ended := (BySupply.notice hkilled).update rfl rfl
  exact hended.afterNotice ((ByNotice.refl _).departNow.report _ _)

theorem enterStopping_sup (mV : Nat) (s : State) : (enterStopping mV s).sup = { s.sup with st := .stopping, vin := mV, stopStage := 1 } :=
  (enterStopping_bySupply mV s).sup

theorem enterStopping_stopped (mV : Nat) (s : State) : (enterStopping mV s).host.stopped = true := by
  rw [(enterStopping_bySupply mV s).host]
  rfl

theorem enterStopping_slots (mV : Nat) (s : State) : (enterStopping mV s).slots = s.slots := (enterStopping_bySupply mV s).slots

theorem enterStopping_flags (mV : Nat) (s : State) : FlagsStay s (enterStopping mV s) :=
  .trans (.of_eq rfl) (enterStopping_bySupply mV s).flags

/-- Every detection leads to stage 1 of STOPPING, with recognition stopped. -/
theorem enterStopping_begins (mV : Nat) (s : State) :
    (enterStopping mV s).sup.st = .stopping ∧ (enterStopping mV s).sup.stopStage = 1 ∧ (enterStopping mV s).host.stopped = true := by
  rw [enterStopping_sup]
  exact ⟨rfl, rfl, enterStopping_stopped mV s⟩

end Sys2Proof.Machine
end

section
/-! PROOF of O46. The supply states follow the input (14 R376 to R379), and a stop goes through its stages (14 R380, R381). -/

namespace Sys2Proof.Machine

variable {s : State}

/-! ### WARN and REDUCED (14 R376 to R379) -/

theorem canReduce_iff (s : State) : canReduce s = true ↔ s.sup.st = .normal ∨ s.sup.st = .warn := by simp [canReduce]

theorem execSupplyWarn_normal (mV : Nat) (h : s.sup.st = .normal) : ∃ t, exec (.supplyWarn mV) s = .next t
    ∧ t.sup = { s.sup with st := .warn, vin := mV } ∧ (getFlag t offSupEvents 0).on = true ∧ t.slots = s.slots ∧ t.mem = s.mem ∧ t.sched = s.sched :=
  ⟨_, congrArg Host.Outcome.next (if_pos h), by simp, (FlagsStay.refl _).report _ _ _ _ (setFlag_on _ _ _), by simp, by simp, by simp⟩

theorem execReducedEntry_enters (mV mA : Nat) (h : s.sup.st = .normal ∨ s.sup.st = .warn) : ∃ t, exec (.reducedEntry mV mA) s = .next t
    ∧ t.sup = { s.sup with st := .reduced, vin := mV, iin := mA, reducedCnt := satAdd (2 ^ 64 - 1) s.sup.reducedCnt 1 }
    ∧ (getFlag t offSupEvents 1).on = true ∧ t.slots = s.slots ∧ t.mem = s.mem :=
  ⟨_, congrArg Host.Outcome.next (if_pos ((canReduce_iff s).2 h)), enterReduced_sup _ _ _, enterReduced_sets _ _ _, enterReduced_slots _ _ _,
    enterReduced_mem _ _ _⟩

theorem execReducedEntry_reads (mV mA : Nat) (h : ¬ (s.sup.st = .normal ∨ s.sup.st = .warn)) :
    exec (.reducedEntry mV mA) s = .next { s with sup := { s.sup with vin := mV } } :=
  congrArg Host.Outcome.next (if_neg (mt (canReduce_iff s).1 h))

theorem canReduce_setFlag (off bit : Nat) (s : State) : canReduce (setFlag off bit s) = canReduce s := by rw [canReduce, setFlag_sup, canReduce]

theorem execOvercurrent_enters (mV mA : Nat) (h : s.sup.st = .normal ∨ s.sup.st = .warn) : ∃ t, exec (.overcurrent mV mA) s = .next t
    ∧ t.sup.st = .reduced ∧ t.sup.vin = mV ∧ t.sup.iin = mA ∧ (getFlag t offSupEvents 3).on = true ∧ t.slots = s.slots ∧ t.mem = s.mem := by
  have hc : canReduce (setFlag offSupEvents 3 s) = true := by rwa [canReduce_setFlag, canReduce_iff]
  refine ⟨_, congrArg Host.Outcome.next (if_pos hc), ?_⟩
  rw [enterReduced_sup, enterReduced_slots, enterReduced_mem, setFlag_slots, setFlag_mem]
  exact ⟨rfl, rfl, rfl, enterReduced_flags _ _ _ _ _ (setFlag_on _ _ _), rfl, rfl⟩

theorem execOvercurrent_reads (mV mA : Nat) (h : ¬ (s.sup.st = .normal ∨ s.sup.st = .warn)) : ∃ t, exec (.overcurrent mV mA) s = .next t
    ∧ t.sup = { s.sup with vin := mV, iin := mA } ∧ (getFlag t offSupEvents 3).on = true ∧ t.slots = s.slots ∧ t.mem = s.mem := by
  have hc : ¬ canReduce (setFlag offSupEvents 3 s) = true := by rwa [canReduce_setFlag, canReduce_iff]
  exact ⟨_, congrArg Host.Outcome.next (if_neg hc), by simp, FlagsStay.of_eq rfl _ _ (setFlag_on offSupEvents 3 s), by simp, by simp⟩

/-! ### Stops (14 R378, R380) -/

/-- A detection that sets a flag first enters STOPPING with that flag set. -/
theorem enterStopping_flagged (mV bit : Nat) (s : State) :
    (enterStopping mV (setFlag offSupEvents bit s)).sup.st = .stopping ∧ (enterStopping mV (setFlag offSupEvents bit s)).sup.stopStage = 1
    ∧ (enterStopping mV (setFlag offSupEvents bit s)).host.stopped = true
    ∧ (getFlag (enterStopping mV (setFlag offSupEvents bit s)) offSupEvents bit).on = true
    ∧ (enterStopping mV (setFlag offSupEvents bit s)).mem = s.mem ∧ (enterStopping mV (setFlag offSupEvents bit s)).slots = s.slots := by
  obtain ⟨hst, hstage, hstopped⟩ := enterStopping_begins mV (setFlag offSupEvents bit s)
  rw [enterStopping_mem, enterStopping_slots, setFlag_mem, setFlag_slots]
  exact ⟨hst, hstage, hstopped, enterStopping_flags _ _ _ _ (setFlag_on _ _ _), rfl, rfl⟩

theorem execRideLimit_stops (mV : Nat) (h : s.sup.st = .reduced) : ∃ t, exec (.rideLimit mV) s = .next t ∧ t.sup.st = .stopping ∧ t.sup.stopStage = 1
    ∧ t.host.stopped = true ∧ (getFlag t offSupEvents 6).on = true ∧ t.mem = s.mem ∧ t.slots = s.slots :=
  ⟨_, congrArg Host.Outcome.next (if_pos h), enterStopping_flagged mV 6 s⟩

theorem execSupplyStop_stops (mV : Nat) (h : s.sup.st ≠ .stopping) : ∃ t, exec (.supplyStop mV) s = .next t ∧ t.sup.st = .stopping ∧ t.sup.stopStage = 1
    ∧ t.host.stopped = true ∧ t.mem = s.mem ∧ t.slots = s.slots := by
  obtain ⟨hst, hstage, hstopped⟩ := enterStopping_begins mV s
  exact ⟨_, congrArg Host.Outcome.next (if_neg h), hst, hstage, hstopped, enterStopping_mem mV s, enterStopping_slots mV s⟩

theorem execOvervolt_stops (mV : Nat) (h : s.sup.st ≠ .stopping) : ∃ t, exec (.overvolt mV) s = .next t ∧ t.sup.st = .stopping ∧ t.sup.stopStage = 1
    ∧ t.host.stopped = true ∧ (getFlag t offSupEvents 4).on = true ∧ t.mem = s.mem := by
  obtain ⟨hst, hstage, hstopped, hflag, hmem, -⟩ := enterStopping_flagged mV 4 s
  exact ⟨_, congrArg Host.Outcome.next (if_neg h), hst, hstage, hstopped, hflag, hmem⟩

/-! ### The stages of a stop (14 R380, R381) -/

theorem execStopRecordClose_closes (hst : s.sup.st = .stopping) (h1 : s.sup.stopStage = 1) : ∃ t, exec .stopRecordClose s = .next t
    ∧ t.sup.stopStage = 2 ∧ t.svc.stopFlag = true ∧ t.svc.stopDiscarded = false ∧ t.mem = s.mem := by
  refine ⟨_, congrArg Host.Outcome.next (if_pos ⟨hst, h1⟩), rfl, rfl, rfl, ?_⟩
  dsimp only
  split
  · exact writeRecords_mem _ s
  · rfl

theorem execStopRailsOff_clears (hst : s.sup.st = .stopping) (h2 : s.sup.stopStage = 2) : ∃ t, exec .stopRailsOff s = .next t
    ∧ t.sup.stopStage = 3 ∧ t.sup.railsOff = true ∧ t.mem = [] ∧ t.svc.stopRecord = s.svc.stopRecord :=
  ⟨_, congrArg Host.Outcome.next (if_pos ⟨hst, h2⟩), rfl, rfl, rfl, rfl⟩

/-- A stage acts in STOPPING at its own number alone. -/
theorem not_stage {n : Nat} (h : s.sup.st ≠ .stopping ∨ s.sup.stopStage ≠ n) : ¬ (s.sup.st = .stopping ∧ s.sup.stopStage = n) :=
  fun ⟨hst, hn⟩ => h.elim (absurd hst) (absurd hn)

/-- Settles O46: each row by the supply state it finds, the stop by its stage. -/
theorem supplyStates : Obligations.SupplyStates := by
  refine ⟨?warn, ?reduced, ?leaving, ?stops, ?stages⟩
  case warn => exact fun mV s => ⟨execSupplyWarn_normal mV, fun h => congrArg Host.Outcome.next (if_neg h), rfl⟩
  case reduced =>
    refine fun mV mA s => ⟨fun h => ⟨execReducedEntry_enters mV mA h, execOvercurrent_enters mV mA h⟩, fun hn hw => ?_⟩
    exact ⟨execReducedEntry_reads mV mA (not_or.2 ⟨hn, hw⟩), execOvercurrent_reads mV mA (not_or.2 ⟨hn, hw⟩)⟩
  case leaving =>
    exact fun mV s => ⟨fun h => ⟨congrArg Host.Outcome.next (if_pos h), execRideLimit_stops mV h⟩,
      fun h => ⟨congrArg Host.Outcome.next (if_neg h), congrArg Host.Outcome.next (if_neg h)⟩⟩
  case stops =>
    exact fun mV s => ⟨fun h => ⟨execSupplyStop_stops mV h, execOvervolt_stops mV h⟩,
      fun h => ⟨congrArg Host.Outcome.next (if_pos h), congrArg Host.Outcome.next (if_pos h)⟩⟩
  case stages =>
    exact fun s => ⟨execStopRecordClose_closes, execStopRailsOff_clears, fun hst h3 => congrArg Host.Outcome.next (if_pos ⟨hst, h3⟩),
      fun h => congrArg Host.Outcome.next (if_neg (not_stage h)), fun h => congrArg Host.Outcome.next (if_neg (not_stage h)),
      fun h => congrArg Host.Outcome.next (if_neg (not_stage h))⟩

end Sys2Proof.Machine
end

section
/-! PROOF of O48. Device states (14 R389 to R394): what a request asks, the entry points of a unit, its wake, and the end of a change. -/

namespace Sys2Proof.Machine

variable {s : State}

/-! ### The request (14 R392, R394) -/

theorem execDeviceStateRequest_refused {v : Nat} (hr : inRing s = true) (hv : v ≠ 0) : exec (.deviceStateRequest v) s = .next s := by
  refine congrArg Host.Outcome.next (if_pos ((le_or_gt v 2).elim (fun h2 => .inr ?_) .inl))
  obtain rfl | rfl : v = 1 ∨ v = 2 := by omega
  · simp [deviceRefusal, devOf, hr]
  · simp [deviceRefusal, devOf, hr]

theorem execDeviceStateRequest_granted {v : Nat} (hv : v ≤ 2) (hr : deviceRefusal (devOf v) s = false) :
    exec (.deviceStateRequest v) s = .next (changeDevice (devOf v) s) :=
  congrArg Host.Outcome.next (if_neg (by simp [hr, hv]))

/-- With no change in progress, a change from Run begins at its first entry point. -/
theorem changeDevice_fromRun (hd : s.sup.dev = .run) (ht : s.sup.devTarget = none) {d : DevState} (hne : d ≠ .run) :
    changeDevice d s = { s with sup := { s.sup with devTarget := some d, devNext := none, entryPoint := 0 } } := by
  have hr : ¬ devRank d < devRank .run := Nat.not_lt_zero _
  simp [changeDevice, ht, hd, hne, hr]

theorem changeDevice_same (ht : s.sup.devTarget = none) {d : DevState} (hd : d = s.sup.dev) : changeDevice d s = s := by simp [changeDevice, ht, hd]

/-! ### Entry points (14 R389) -/

section
variable (hd : s.sup.dev = .run) (ht : s.sup.devTarget = some .idle) (he : s.sup.entryPoint < 3)
include hd ht he

theorem execUnitEntryPoint_follows (hn : s.sup.devNext = none) :
    exec .unitEntryPoint s = .next { s with sup := { s.sup with entryPoint := s.sup.entryPoint + 1 } } := by
  have h5 : s.sup.entryPoint + 1 ≠ 5 := by omega
  simp [exec, execUnitEntryPoint, ht, hd, hn, devRank, setSup, he, h5]

theorem execUnitEntryPoint_ends (hn : s.sup.devNext = some .run) : exec .unitEntryPoint s
    = .next (setSup (fun u => { u with devTarget := none, devNext := none, entryPoint := 0 }) (setFlag offSupEvents 7 s)) := by
  have h4 : s.sup.entryPoint + 1 ≠ 4 := by omega
  have hle : s.sup.entryPoint + 1 ≤ 4 := by omega
  simp [exec, execUnitEntryPoint, ht, hd, hn, devRank, setSup, he, h4, hle]

end

/-! ### Districts (14 R389, R390) -/

theorem allDistricts_changes (pw : UnitPower) (s : State) : allDistricts pw s = { s with fab := (allDistricts pw s).fab } := by
  have h : offFab (allDistricts pw s) = offFab s := foldl_modDistrict offFab offFab_modDistrict _ _ s
  generalize allDistricts pw s = t at h ⊢
  cases t
  simpa [offFab] using h

theorem allDistricts_power (pw : UnitPower) (s : State) {d : Nat} (hd : d < 16) :
    (FMap.getD (allDistricts pw s).fab.districts d {}).power = pw :=
  (districts_foldl (fun k => k.power = pw) (fun _ => rfl) _ s d).1 (List.mem_range.2 hd)

theorem execUnitWakeLock_wakes (hd : s.sup.dev = .idle) (ht : s.sup.devTarget = some .run) :
    exec .unitWakeLock s = .next (allDistricts .top s) := by
  simp [exec, execUnitWakeLock, ht, hd, devRank]

/-! ### The change completes (14 R391, R394) -/

/-- The power of the Districts in a device state. -/
def restPower : DevState → UnitPower
  | .run => .top
  | .idle => .heart
  | .dormant => .base

theorem execDeviceStateDone_completes {d : DevState} (ht : s.sup.devTarget = some d) (hr : railsPending s = false) (hn : s.sup.devNext = none) :
    exec .deviceStateDone s = .next (setSup (fun u => { u with dev := d, devTarget := none, devNext := none, entryPoint := 0 }) (allDistricts (restPower d) s)) := by
  have hnext (pw : UnitPower) : (allDistricts pw s).sup.devNext = none := by rw [allDistricts_changes, hn]
  cases d <;> simp [exec, execDeviceStateDone, restPower, ht, hr, hnext]

/-- Settles O48: a request by the ring and the state it finds, then entry points, wake and completion in turn. -/
theorem deviceStatesFollow : Obligations.DeviceStatesFollow := by
  refine ⟨?idle, fun v s => execDeviceStateRequest_refused, ?present, fun s => execUnitEntryPoint_follows, ?ends, ?wakes, ?completes⟩
  case idle =>
    intro s hr hd ht
    rw [execDeviceStateRequest_granted (by decide) (by simp [deviceRefusal, devOf, hr])]
    exact congrArg Host.Outcome.next (changeDevice_fromRun hd ht (by decide))
  case present =>
    intro s hd ht
    rw [execDeviceStateRequest_granted (by decide) rfl]
    exact congrArg Host.Outcome.next (changeDevice_same ht hd.symm)
  case ends =>
    intro s hd ht he hn
    refine ⟨_, execUnitEntryPoint_ends hd ht he hn, ?_, FlagsStay.of_eq rfl _ _ (setFlag_on offSupEvents 7 s), ?_, ?_⟩ <;> simp
  case wakes =>
    exact fun s hd ht => ⟨_, execUnitWakeLock_wakes hd ht, fun _ => allDistricts_power .top s, allDistricts_changes .top s⟩
  case completes =>
    intro d s ht hr hn
    refine ⟨_, execDeviceStateDone_completes ht hr hn, ?_⟩
    rw [allDistricts_changes]
    exact ⟨rfl, rfl, rfl⟩

end Sys2Proof.Machine
end

section
/-! PROOF of O13 and O14. A flag set in an unmasked group raises vector 256 once a beat (19 R477, R482), and the recorder's floor (17 R440). -/

namespace Sys2Proof.Machine

variable {s : State}

/-! ### Flags that are set (19 R477, R482) -/

theorem setFlag_flags (off bit : Nat) (s : State) : (setFlag off bit s).flags
    = FMap.put s.flags (flagKey off bit) { getFlag s off bit with on := true, sets := satAdd 0xFFFFFFFF (getFlag s off bit).sets 1 } :=
  raiseEvent_flags off _

/-- A flag set is its entry in the flag file, and then the event. -/
theorem setFlag_eq (off bit : Nat) (s : State) : setFlag off bit s = raiseEvent off { s with flags := (setFlag off bit s).flags } := by
  rw [setFlag_flags]
  rfl

/-- A masked group, or a vector raised in this beat, raises none. -/
theorem raiseEvent_quiet {off g : Nat} (hg : flagGroup off = some g) (h : bitOf s.mgmt.mask g = true ∨ s.mgmt.vectorAt = some (stamp s)) :
    raiseEvent off s = s := by
  simp only [raiseEvent, hg, if_pos h]

theorem raiseEvent_raises {off g : Nat} (hg : flagGroup off = some g) (hm : bitOf s.mgmt.mask g = false) (hv : s.mgmt.vectorAt ≠ some (stamp s)) :
    raiseEvent off s = { s with mgmt := { s.mgmt with vectorAt := some (stamp s) }, out := { s.out with msix := s.out.msix ++ [(0, 256)] } } := by
  simp only [raiseEvent, hg]
  rw [if_neg (by simp [hm, hv])]

/-- A flag set leaves the outbox as it is where its event raises no vector. -/
theorem setFlag_out_quiet {off g : Nat} (bit : Nat) (hg : flagGroup off = some g)
    (h : bitOf s.mgmt.mask g = true ∨ s.mgmt.vectorAt = some (stamp s)) : (setFlag off bit s).out = s.out := by
  rw [setFlag_eq]
  exact (congrArg State.out (raiseEvent_quiet (s := { s with flags := (setFlag off bit s).flags }) hg h)).trans rfl

/-- Settles O13: the first unmasked flag of a beat raises the vector, and the beat it notes keeps later ones quiet. -/
theorem unmaskedFlagRaisesVector : Obligations.UnmaskedFlagRaisesVector := by
  intro off bit g s hg
  refine ⟨setFlag_flags off bit s, fun hm => setFlag_out_quiet bit hg (.inl hm), fun hm hv => ?_⟩
  have hraised := (setFlag_eq off bit s).trans (raiseEvent_raises (s := { s with flags := (setFlag off bit s).flags }) hg hm hv)
  refine ⟨congrArg (fun t => t.out.msix) hraised, fun off' bit' g' hg' => setFlag_out_quiet bit' hg' (.inr ?_)⟩
  rw [hraised]
  rfl

/-! ### The recorder's floor (17 R440) -/

theorem reportAt_filtered {sev code : Nat} {body : Bytes} (h : sev < s.evr.floor) :
    reportAt sev code body s = { s with evr := { s.evr with filtered := satAdd (2 ^ 64 - 1) s.evr.filtered 1 } } := if_pos h

/-- Without a limit, an event at or above the floor reaches the store. -/
theorem reportAt_stores {sev code : Nat} {body : Bytes} (h : s.evr.floor ≤ sev) (hl : codeLimit (rollWindow s) code = none) :
    reportAt sev code body s = storeRecord sev code body (rollWindow s) := by
  rw [reportAt, if_neg (by omega)]
  simp only [hl]

/-- An empty store has room for any record of a catalogue length, and nothing folds into it. -/
theorem storeRecord_empty {sev code : Nat} {body : Bytes} (hr : s.evr.records = []) (hb : body.length ≤ 240) (hp : (FMap.getD s.evr.codes code {}).pending = 0) :
    (storeRecord sev code body s).evr.records = [⟨s.evr.nextSeq, stamp s, sev, code, false, false, body⟩] := by
  have hfit : ceilDiv (16 + body.length) 16 ≤ storeCells := by
    rw [ceilDiv, if_neg (by decide), storeCells]
    omega
  simp [storeRecord, hr, hp, recordCells, usedCells, chooseVictims, hfit]

/-- A new window changes neither the store nor the counts of what is pending (17 R441). -/
theorem rollWindow_keeps (s : State) : (rollWindow s).evr.records = s.evr.records ∧ (rollWindow s).evr.nextSeq = s.evr.nextSeq
    ∧ stamp (rollWindow s) = stamp s
    ∧ ∀ code, (FMap.getD (rollWindow s).evr.codes code {}).pending = (FMap.getD s.evr.codes code {}).pending := by
  unfold rollWindow
  dsimp only
  split
  · exact ⟨rfl, rfl, rfl, fun _ => rfl⟩
  · refine ⟨rfl, rfl, rfl, fun code => ?_⟩
    rw [FMap.getD_mapVals _ _ _ _ rfl]

/-- Settles O14: below the floor an event is counted, at or above it and within its limit it is stored. -/
theorem eventsBelowFloorFiltered : Obligations.EventsBelowFloorFiltered := by
  refine ⟨rfl, fun sev code body s => reportAt_filtered, fun sev code body s hf hl hr _ hb hp => ?_⟩
  obtain ⟨hrecords, hseq, hstamp, hpending⟩ := rollWindow_keeps s
  rw [reportAt_stores hf hl, storeRecord_empty (hrecords.trans hr) hb ((hpending code).trans hp), hseq, hstamp]

end Sys2Proof.Machine
end

section
/-! PROOF of O60. The registers of BAR0 (19 R474 to R482; 02 R62; 04 R128) and the State Space window of BAR4 (19 R484, R485). -/

namespace Sys2Proof.Machine

variable {s : State}

/-! ### Flags that are cleared (19 R477) -/

/-- A flag after software's clear: set anew, with a collision, where hardware sets it in the same cycle. -/
def Flag.cleared (f : Flag) (hw : Bool) : Flag :=
  if hw then { on := true, sets := satAdd 0xFFFFFFFF f.sets 1, collisions := satAdd 0xFFFFFFFF f.collisions 1 } else { f with on := false }

theorem Flag.cleared_on (f : Flag) (hw : Bool) : (f.cleared hw).on = hw := by cases hw <;> rfl

theorem clearFlag_flags (off bit : Nat) (hw : Bool) (s : State) :
    (clearFlag off bit hw s).flags = FMap.put s.flags (flagKey off bit) ((getFlag s off bit).cleared hw) := by
  cases hw
  · rfl
  · exact raiseEvent_flags off _

theorem getFlag_clearFlag_same (off bit : Nat) (hw : Bool) (s : State) :
    getFlag (clearFlag off bit hw s) off bit = (getFlag s off bit).cleared hw := by
  rw [getFlag, clearFlag_flags, FMap.getD_put_same]

theorem getFlag_clearFlag_other {off bit off' bit' : Nat} (hw : Bool) (s : State) (h : flagKey off' bit' ≠ flagKey off bit) :
    getFlag (clearFlag off bit hw s) off' bit' = getFlag s off' bit' := by
  rw [getFlag, clearFlag_flags, FMap.getD_put_other _ _ _ h, getFlag]

/-- The key of a flag tells its register and its bit apart. -/
theorem flagKey_inj {off bit off' bit' : Nat} (hb : bit < 64) (hb' : bit' < 64) (h : flagKey off bit = flagKey off' bit') : (off, bit) = (off', bit') := by
  simp only [flagKey] at h
  exact Prod.ext (by simp only; omega) (by simp only; omega)

/-- Several flags cleared one after another; `hw` says which of them hardware sets in the same cycle. -/
def clearFlags (hw : Nat × Nat → Bool) (l : List (Nat × Nat)) (s : State) : State := l.foldl (fun s e => clearFlag e.1 e.2 (hw e) s) s

section
variable {hw : Nat × Nat → Bool} {l : List (Nat × Nat)} {off bit : Nat}

theorem clearFlags_other (hl : ∀ e ∈ l, e.2 < 64) (hb : bit < 64) (h : (off, bit) ∉ l) (s : State) :
    getFlag (clearFlags hw l s) off bit = getFlag s off bit := by
  induction l generalizing s with
  | nil => rfl
  | cons e rest ih =>
    obtain ⟨he, hrest⟩ := List.forall_mem_cons.1 hl
    obtain ⟨hne, hnot⟩ := List.ne_and_not_mem_of_not_mem_cons h
    exact (ih hrest hnot _).trans (getFlag_clearFlag_other _ _ fun hk => hne (flagKey_inj hb he hk))

theorem clearFlags_same (hl : ∀ e ∈ l, e.2 < 64) (hn : l.Nodup) (h : (off, bit) ∈ l) (s : State) :
    getFlag (clearFlags hw l s) off bit = (getFlag s off bit).cleared (hw (off, bit)) := by
  induction l generalizing s with
  | nil => cases h
  | cons e rest ih =>
    obtain ⟨he, hrest⟩ := List.forall_mem_cons.1 hl
    obtain ⟨hnot, hn⟩ := List.nodup_cons.1 hn
    have hb : bit < 64 := hl _ h
    rcases List.mem_cons.1 h with rfl | h
    · exact (clearFlags_other hrest hb hnot _).trans (getFlag_clearFlag_same _ _ _ _)
    · have hne : (off, bit) ≠ e := fun heq => hnot (heq ▸ h)
      rw [clearFlags, List.foldl_cons, ← clearFlags, ih hrest hn h, getFlag_clearFlag_other _ _ fun hk => hne (flagKey_inj hb he hk)]

theorem clearFlags_changes (hw : Nat × Nat → Bool) (l : List (Nat × Nat)) (s : State) : clearFlags hw l s
    = { s with flags := (clearFlags hw l s).flags, mgmt := (clearFlags hw l s).mgmt, out := (clearFlags hw l s).out } := by
  induction l generalizing s with
  | nil => rfl
  | cons e rest ih =>
    rw [clearFlags, List.foldl_cons, ← clearFlags, ih, clearFlag_changes]

/-- With nothing set by hardware, only flags change: no event is raised. -/
theorem clearFlags_quiet (l : List (Nat × Nat)) (s : State) : clearFlags (fun _ => false) l s = { s with flags := (clearFlags (fun _ => false) l s).flags } := by
  induction l generalizing s with
  | nil => rfl
  | cons e rest ih =>
    rw [clearFlags, List.foldl_cons, ← clearFlags, ih]
    rfl

end

/-- A register has at most 10 flags. -/
theorem flagBits_le (off : Nat) : flagBits off ≤ 10 := by
  unfold flagBits
  repeat' split
  all_goals omega

/-! ### A W1C write -/

/-- The flags that a W1C write selects. -/
def maskedFlags (off : Nat) (mask : Word32) : List (Nat × Nat) := ((List.range (flagBits off)).filter (bitOf mask.toNat)).map (fun b => (off, b))

theorem execFlagClearW1c_eq (off : Nat) (mask hw : Word32) (s : State) :
    exec (.flagClearW1c off mask hw) s = .next (clearFlags (fun e => bitOf hw.toNat e.2) (maskedFlags off mask) s) := by
  simp only [clearFlags, maskedFlags, List.foldl_map, List.foldl_filter]
  rfl

theorem mem_maskedFlags {off off' b : Nat} {mask : Word32} : (off', b) ∈ maskedFlags off mask ↔ off' = off ∧ b < flagBits off ∧ bitOf mask.toNat b = true := by
  simp only [maskedFlags, List.mem_map, List.mem_filter, List.mem_range, Prod.mk.injEq]
  constructor
  · rintro ⟨c, ⟨hc, hm⟩, rfl, rfl⟩
    exact ⟨rfl, hc, hm⟩
  · rintro ⟨rfl, hb, hm⟩
    exact ⟨b, ⟨hb, hm⟩, rfl, rfl⟩

theorem maskedFlags_bit {off : Nat} {mask : Word32} : ∀ e ∈ maskedFlags off mask, e.2 < 64 := by
  rintro ⟨off', b⟩ he
  have hb := (mem_maskedFlags.1 he).2.1
  have := flagBits_le off
  dsimp only
  omega

theorem maskedFlags_nodup (off : Nat) (mask : Word32) : (maskedFlags off mask).Nodup :=
  (List.nodup_range.filter _).map fun _ _ h => congrArg Prod.snd h

/-! ### MGMT_FLAG_CLEAR (19 R481) -/

/-- A flag of a selected group. -/
def pickedFlag (groups : Nat) (e : Nat × Nat) : Bool := (flagGroup e.1).any (fun g => bitOf groups g) && decide (e.2 < flagBits e.1)

/-- The flags that a group clear meets: those of the selected groups that stand in the flag file, or that hardware sets. -/
def groupFlags (groups : Nat) (hw : List (Nat × Nat)) (s : State) : List (Nat × Nat) :=
  (((s.flags.map (fun e => (e.1 / 64, e.1 % 64))) ++ hw : List (Nat × Nat)).filter (pickedFlag groups)).eraseDups

theorem execMgmtFlagClear_eq (groups : Nat) (hw : List (Nat × Nat)) (s : State) :
    exec (.mgmtFlagClear groups hw) s = .next (clearFlags hw.contains (groupFlags groups hw s) s) := rfl

theorem mem_groupFlags {groups : Nat} {hw : List (Nat × Nat)} {e : Nat × Nat} :
    e ∈ groupFlags groups hw s ↔ (e ∈ s.flags.map (fun f => (f.1 / 64, f.1 % 64)) ∨ e ∈ hw) ∧ pickedFlag groups e = true := by
  rw [groupFlags, List.mem_eraseDups, List.mem_filter, List.mem_append]

theorem nodup_eraseDups {α : Type} [BEq α] [LawfulBEq α] (l : List α) : l.eraseDups.Nodup := by
  induction h : l.length using Nat.strong_induction_on generalizing l with
  | _ n ih =>
    cases l with
    | nil => simp
    | cons a rest =>
      have hlen := List.length_filter_le (fun b => !b == a) rest
      rw [List.eraseDups_cons, List.nodup_cons, List.mem_eraseDups]
      exact ⟨by simp, ih _ (by simp only [List.length_cons] at h; omega) _ rfl⟩

theorem groupFlags_bit {groups : Nat} {hw : List (Nat × Nat)} : ∀ e ∈ groupFlags groups hw s, e.2 < 64 := by
  intro e he
  have hpick := (mem_groupFlags.1 he).2
  have hb : e.2 < flagBits e.1 := by simpa using (Bool.and_eq_true_iff.1 hpick).2
  have := flagBits_le e.1
  omega

theorem pickedFlag_of_group {groups off b g : Nat} (hg : flagGroup off = some g) : pickedFlag groups (off, b) = (bitOf groups g && decide (b < flagBits off)) := by
  simp [pickedFlag, hg]

/-- A flag that the flag file does not list reads 0. -/
theorem getFlag_unlisted {off b : Nat} (hb : b < 64) (h : (off, b) ∉ s.flags.map (fun e => (e.1 / 64, e.1 % 64))) : getFlag s off b = {} := by
  have hnone : ∀ m : FMap Flag, (off, b) ∉ m.map (fun e => (e.1 / 64, e.1 % 64)) → FMap.get? m (flagKey off b) = none := by
    intro m hm
    induction m with
    | nil => rfl
    | cons e rest ih =>
      obtain ⟨hne, hrest⟩ := List.ne_and_not_mem_of_not_mem_cons hm
      have hk : e.1 ≠ flagKey off b := fun hk => hne (Prod.ext (by simp only [hk, flagKey]; omega) (by simp only [hk, flagKey]; omega))
      rw [FMap.get?, if_neg hk, ih hrest]
  rw [getFlag, FMap.getD, hnone _ h, Option.getD_none]

theorem mgmtFlagClear_group {groups off b g : Nat} (hw : List (Nat × Nat)) (hg : flagGroup off = some g) (hb : b < flagBits off) (hsel : bitOf groups g = true) :
    (getFlag (clearFlags hw.contains (groupFlags groups hw s) s) off b).on = decide ((off, b) ∈ hw) := by
  have h64 : b < 64 := by have := flagBits_le off; omega
  have hpick : pickedFlag groups (off, b) = true := by simp [pickedFlag_of_group hg, hsel, hb]
  by_cases hmem : (off, b) ∈ groupFlags groups hw s
  · rw [clearFlags_same groupFlags_bit (nodup_eraseDups _) hmem, Flag.cleared_on, List.contains_eq_mem]
  · have hnot := fun h => hmem (mem_groupFlags.2 ⟨h, hpick⟩)
    rw [clearFlags_other groupFlags_bit h64 hmem, getFlag_unlisted h64 fun h => hnot (.inl h), decide_eq_false fun h => hnot (.inr h)]

/-! ### Registers written (19 R475) -/

theorem writeRegister_shadow {n : Nat} (hn : n < 256) (v : Nat) (s : State) : writeRegister (0x50020 + n * 0x40) v s
    = if v % 8 = 0 then modClient n (fun c => { c with shadow := v }) s else setFlag offMgmtEvents 1 s := by
  have hidx : (0x50020 + n * 0x40 - 0x50000) / 0x40 = n := by omega
  rw [writeRegister, if_neg (by omega), if_neg (by omega), if_neg (by omega), if_neg (by omega), if_pos (by omega), hidx]
  rfl

/-! ### The outbox -/

theorem setFlag_reads (off bit : Nat) (s : State) : (setFlag off bit s).out.reads = s.out.reads := by
  unfold setFlag raiseEvent
  dsimp only
  split
  · rfl
  · split <;> rfl

/-! ### The window (19 R484, R485) -/

theorem execWindowRead_closed {off n : Nat} (h : windowOpen s = false) : ∃ t, exec (.windowRead off n) s = .next t
    ∧ t.out.reads = s.out.reads ++ [List.replicate (min n 4096) 0] ∧ (getFlag t offMgmtEvents 4).on = true ∧ t.mem = s.mem ∧ t.slots = s.slots := by
  refine ⟨_, congrArg Host.Outcome.next (if_pos (by simp [h])), ?_⟩
  rw [setFlag_reads, setFlag_mem, setFlag_slots]
  exact ⟨rfl, setFlag_on _ _ _, rfl, rfl⟩

theorem execWindowRead_open {off n : Nat} (h : windowOpen s = true) : ∃ t, exec (.windowRead off n) s = .next t
    ∧ t.out.reads = s.out.reads ++ [(List.range (min n 4096)).map (fun i => spaceByte s (s.mgmt.winBase * 2 ^ 36 + off % 2 ^ 36 + i))]
    ∧ t.mem = s.mem ∧ t.slots = s.slots := by
  refine ⟨_, congrArg Host.Outcome.next (if_neg (by simp [h])), ?_⟩
  dsimp only
  rw [List.map_map]
  split
  · rw [setFlag_reads, setFlag_mem, setFlag_slots]
    exact ⟨rfl, rfl, rfl⟩
  · exact ⟨rfl, rfl, rfl⟩

/-! ### Bad accesses and the journal's ACK -/

theorem execBadAccess_good {off n : Nat} (w : Bool) (hn : n = 4 ∨ n = 8) (ho : off % n = 0) : exec (.badAccess off n w) s = .next s :=
  congrArg Host.Outcome.next (if_pos ⟨hn, ho⟩)

theorem execBadAccess_bad {off n : Nat} (w : Bool) (h : (n ≠ 4 ∧ n ≠ 8) ∨ off % n ≠ 0) : exec (.badAccess off n w) s
    = .next (if w then setFlag offMgmtEvents 0 s else answerRead (List.replicate n 0) (setFlag offMgmtEvents 0 s)) :=
  congrArg Host.Outcome.next (if_neg (by rintro ⟨hn, ho⟩; omega))

/-- Settles O60: each register's row by its own rule. -/
theorem registersReadAndWritten : Obligations.RegistersReadAndWritten := by
  refine ⟨?w1c, ?groups, fun s => rfl, fun s => ⟨_, rfl, rfl, rfl⟩, fun v s => rfl, fun v s => rfl,
    fun n v s hn => congrArg Host.Outcome.next (writeRegister_shadow hn v.toNat s), ?bad, ?ack, ?ackRefused,
    fun off n s => execWindowRead_closed, fun off n s => execWindowRead_open, fun off s => rfl⟩
  case w1c =>
    intro off b mask hw s hb
    have h64 : b < 64 := by have := flagBits_le off; omega
    refine ⟨_, execFlagClearW1c_eq off mask hw s, fun hm hh => ?_, fun hm hh => ?_, fun hm => ?_, fun off' b' hne hb' => ?_, clearFlags_changes _ _ _⟩
    · rw [clearFlags_same maskedFlags_bit (maskedFlags_nodup off mask) (mem_maskedFlags.2 ⟨rfl, hb, hm⟩)]
      simp [Flag.cleared, hh]
    · rw [clearFlags_same maskedFlags_bit (maskedFlags_nodup off mask) (mem_maskedFlags.2 ⟨rfl, hb, hm⟩)]
      simp [Flag.cleared, hh]
    · exact clearFlags_other maskedFlags_bit h64 (fun h => by simpa [hm] using (mem_maskedFlags.1 h).2.2) s
    · exact clearFlags_other maskedFlags_bit hb' (fun h => hne (mem_maskedFlags.1 h).1) s
  case groups =>
    intro groups hw s
    refine ⟨_, execMgmtFlagClear_eq groups hw s, fun off b g => mgmtFlagClear_group hw, fun off b g hg hb hsel => ?_, clearFlags_changes _ _ _, ?_⟩
    · refine clearFlags_other groupFlags_bit hb (fun h => ?_) s
      have hpick := (mem_groupFlags.1 h).2
      simp [pickedFlag_of_group hg, hsel] at hpick
    · rintro rfl
      exact clearFlags_quiet _ s
  case bad =>
    refine fun off n w s => ⟨fun hn ho => execBadAccess_good w hn ho, fun h => ⟨execBadAccess_bad true h, _, execBadAccess_bad false h, ?_, setFlag_on _ _ s⟩⟩
    exact congrArg (· ++ [List.replicate n 0]) (setFlag_reads _ _ s)
  case ack =>
    exact fun v s hj hlo hhi => congrArg Host.Outcome.next (if_neg (by simp [hj]; omega))
  case ackRefused =>
    exact fun v s h => congrArg Host.Outcome.next (if_pos (by simpa using h))

end Sys2Proof.Machine
end

section
/-! PROOF of O45. CAL_USER_WRITE and CAL_READ (18 R462 to R465; 02 R53, R54). -/

namespace Sys2Proof.Machine

variable {p : Packet} {s t : State}

/-! ### A user value is stored (18 R462) -/

/-- A table that drops an entry at 0 and puts any other reads as if the entry stood (18 R463). -/
theorem getD_zeroDropped (m : FMap Int) (i : Nat) (v : Int) : FMap.getD (if v = 0 then FMap.del m i else FMap.put m i v) i 0 = v := by
  split
  · next h => rw [FMap.getD, FMap.get?_del_same, Option.getD_none, h]
  · exact FMap.getD_put_same _ _ _ _

theorem get?_zeroDropped_other (m : FMap Int) {i j : Nat} (v : Int) (h : j ≠ i) :
    FMap.get? (if v = 0 then FMap.del m i else FMap.put m i v) j = FMap.get? m j := by
  split
  · exact FMap.get?_del_other _ h
  · exact FMap.get?_put_other _ _ h

theorem storeUser_value (i : Nat) (v : Int) (s : State) : calUser (storeUser i v s) i = v := getD_zeroDropped _ _ _

theorem storeUser_other {i j : Nat} (v : Int) (s : State) (h : j ≠ i) : FMap.get? (storeUser i v s).cal.user j = FMap.get? s.cal.user j :=
  get?_zeroDropped_other _ _ h

/-! ### CAL_USER_WRITE -/

theorem execCalUserWrite_passes {v : Bool} (ho : opcodeOf p = 0x62) (h : passes never p s = some t) :
    exec (.calUserWrite p v) s = .next (dropRecognised p (calWriteBody v 0 p t)) := next_serve_passes ho h

/-- A factory return waits for its boundary (13 R371). -/
def factoryReturnWaits (s : State) : Bool := s.commands.any (fun c => match c.work with | .custodial 4 _ => true | _ => false)

theorem factoryReturnWaits_iff : factoryReturnWaits s = true ↔ ∃ x, ∃ c ∈ s.commands, c.work = .custodial 4 x := by
  rw [factoryReturnWaits, List.any_eq_true]
  constructor
  · rintro ⟨c, hc, hw⟩
    split at hw
    · next x e => exact ⟨x, c, hc, e⟩
    · cases hw
  · rintro ⟨x, c, hc, e⟩
    exact ⟨c, hc, by simp only [e]⟩

variable {verifies : Bool} {b : Int × Int}

theorem calWriteBody_waiting (h : factoryReturnWaits t = true) : calWriteBody verifies 0 p t = reply p (busy 0xFFFF) t := if_pos h

section
variable (hw : factoryReturnWaits t = false)
include hw

theorem calWriteBody_unknown (hb : userBounds (argOf p 20 4) = none) : calWriteBody verifies 0 p t = reply p (bad 0x14) t := by
  refine (if_neg (Bool.eq_false_iff.1 hw)).trans ?_
  rw [hb]

/-- The checks of a write of a user item, in their order. -/
theorem calWriteBody_item (hb : userBounds (argOf p 20 4) = some b) : calWriteBody verifies 0 p t =
    if !within b.1 b.2 (signedOf 64 (paramOf p 0x20 8)) then reply p (bad (boundDetail (argOf p 20 4))) t
    else if trimTooLong (argOf p 20 4) (signedOf 64 (paramOf p 0x20 8)) t then reply p (bad (argOf p 20 4 - 0x10100)) t
    else if !verifies then reply p (noResource 0x000E) t
    else reply p ok (storeUser (argOf p 20 4) (signedOf 64 (paramOf p 0x20 8)) t) := by
  refine (if_neg (Bool.eq_false_iff.1 hw)).trans ?_
  rw [hb]

end

/-! ### CAL_READ -/

theorem execCalRead_passes (ho : opcodeOf p = 0x63) (h : passes never p s = some t) :
    exec (.calRead p) s = .next (dropRecognised p (calReadBody 0 p t)) := next_serve_passes ho h

theorem calReadBody_unknown (h : calValue t (argOf p 20 4) = none) : calReadBody 0 p t = reply p (bad 0x14) t := by rw [calReadBody, h]

theorem calReadBody_value {v : Int} (h : calValue t (argOf p 20 4) = some v) : calReadBody 0 p t
    = reply p { status := stOK, count0 := signedField 64 v % 2 ^ 32, count1 := signedField 64 v / 2 ^ 32 } t := by rw [calReadBody, h]

/-- Settles O45: CAL_USER_WRITE by its checks in order, CAL_READ by the item it names. -/
theorem calibrationWrittenAndRead : Obligations.CalibrationWrittenAndRead := by
  refine ⟨?write, fun p s t ho h => ⟨fun hn => ?_, fun v hv => ?_⟩⟩
  case write =>
    rintro p verifies i v s t ho h rfl rfl
    rw [execCalUserWrite_passes ho h]
    refine ⟨fun hw => ?_, fun hnone => ?_⟩
    · rw [calWriteBody_waiting (factoryReturnWaits_iff.2 hw), answered]
    · have hw : factoryReturnWaits t = false :=
        Bool.eq_false_iff.2 fun hw => by
          obtain ⟨x, c, hc, e⟩ := factoryReturnWaits_iff.1 hw
          exact hnone x c hc e
      refine ⟨fun hb => by rw [calWriteBody_unknown hw hb, answered], fun b hb => ?_⟩
      rw [calWriteBody_item hw hb]
      have hin (h1 : b.1 ≤ signedOf 64 (paramOf p 0x20 8)) (h2 : signedOf 64 (paramOf p 0x20 8) ≤ b.2) : within b.1 b.2 (signedOf 64 (paramOf p 0x20 8)) = true :=
        decide_eq_true ⟨h1, h2⟩
      refine ⟨fun hout => ?_, fun h1 h2 htrim => ?_, fun h1 h2 htrim hv => ?_, fun h1 h2 htrim hv => ?_⟩
      · have hnot : within b.1 b.2 (signedOf 64 (paramOf p 0x20 8)) = false := decide_eq_false fun hin => by omega
        simp only [hnot, Bool.not_false, if_true, answered]
      · simp only [hin h1 h2, htrim, Bool.not_true, Bool.false_eq_true, if_false, if_true, answered]
      · simp only [hin h1 h2, htrim, hv, Bool.not_true, Bool.not_false, Bool.false_eq_true, if_false, if_true, answered]
      · refine ⟨_, by simp only [hin h1 h2, htrim, hv, Bool.not_true, Bool.false_eq_true, if_false, answered], storeUser_value _ _ t, rfl, rfl,
          fun j => storeUser_other _ t, rfl, rfl⟩
  · rw [execCalRead_passes ho h, calReadBody_unknown hn, answered]
  · rw [execCalRead_passes ho h, calReadBody_value hv, answered]

end Sys2Proof.Machine
end

section
/-! PROOF of O16. EVENT_SNAPSHOT, the mirror passes and the TIME record (17 R445 to R450; log entries 47, 77). -/

namespace Sys2Proof.Machine

variable {p : Packet} {s t : State}

/-! ### EVENT_SNAPSHOT (17 R445, R446) -/

theorem execEventSnapshot_passes (ho : opcodeOf p = 0x70) (h : passes never p s = some t) :
    exec (.eventSnapshot p) s = .next (dropRecognised p (snapshotBody 0 p t)) := next_serve_passes ho h

theorem snapshotBody_short (h : bufLen p 0x30 < writtenBytes t 64) :
    snapshotBody 0 p t = reply p { status := stBAD_LENGTH, detail := writtenBytes t 64 } t := if_pos h

theorem snapshotBody_busy (h : writtenBytes t 64 ≤ bufLen p 0x30) (hs : t.evr.snapshot ≠ none) :
    snapshotBody 0 p t = reply p (busy (Config.estimate t.cad.beat % 2 ^ 16)) t :=
  (if_neg (Nat.not_lt.2 h)).trans (if_pos (Option.isSome_iff_ne_none.2 hs))

/-- The records that a snapshot takes: the stored ones from the asked SEQ to the highest written. -/
def askedRecords (p : Packet) (t : State) : List Record :=
  t.evr.records.filter (fun r => decide (paramOf p 0x20 8 ≤ r.seq ∧ r.seq ≤ t.evr.nextSeq - 1))

theorem snapshotBody_begins (h : writtenBytes t 64 ≤ bufLen p 0x30) (hs : t.evr.snapshot = none) :
    ∃ n : Snapshot, snapshotBody 0 p t = await .snapshot (originOf p t) { t with evr := { t.evr with snapshot := some n } }
      ∧ n.client = p.client ∧ n.addr = bufAddr p 0x30 ∧ n.len = bufLen p 0x30 ∧ n.fromSeq = paramOf p 0x20 8 ∧ n.toSeq = t.evr.nextSeq - 1
      ∧ n.records = askedRecords p t :=
  ⟨_, (if_neg (Nat.not_lt.2 h)).trans (if_neg (by simp [hs])), rfl, rfl, rfl, rfl, rfl, rfl⟩

/-! ### Its end -/

/-- A record as a snapshot's entry: its stamp and its image. -/
def snapshotEntry (r : Record) : Bytes := leBytes 8 r.stamp ++ recordImage r

/-- The entries written are the longest run of whole ones that fits, and the first record left out is the one after it. -/
theorem snapshotEntries_take {k : Nat} {l : List Record} {room : Nat} (hk : k ≤ l.length) (hfit : ((l.take k).map snapshotEntry).flatten.length ≤ room)
    (hnext : ∀ r, l[k]? = some r → room < ((l.take k).map snapshotEntry).flatten.length + (snapshotEntry r).length) :
    snapshotEntries room l = ((l.take k).map snapshotEntry, (l[k]?).map (fun r => r.seq)) := by
  induction l generalizing k room with
  | nil =>
    obtain rfl : k = 0 := Nat.le_zero.1 hk
    rfl
  | cons r rest ih =>
    cases k with
    | zero =>
      have hlong := hnext r rfl
      simp only [List.take_zero, List.map_nil, List.flatten_nil, List.length_nil, Nat.zero_add] at hlong
      exact if_neg (Nat.not_le.2 hlong)
    | succ k =>
      simp only [List.take_succ_cons, List.map_cons, List.flatten_cons, List.length_append, List.getElem?_cons_succ] at hfit hnext ⊢
      have hone : (snapshotEntry r).length ≤ room := by omega
      have hrest := ih (k := k) (room := room - (snapshotEntry r).length) (by simpa using hk) (by omega) (fun r' hr' => by have := hnext r' hr'; omega)
      refine (if_pos hone).trans ?_
      rw [show (leBytes 8 r.stamp ++ recordImage r) = snapshotEntry r from rfl, hrest]

/-- A write to a host buffer neither reads nor changes the commands that wait. -/
theorem hostWrite_commandsAside (client addr kind : Nat) (b : Bytes) (l : List Command) (s : State) :
    { hostWrite client addr kind b s with commands := l } = hostWrite client addr kind b { s with commands := l } := by
  unfold hostWrite takeSeq
  split
  · dsimp only
    split <;> rfl
  · rfl

/-- The end of work that one command waits for answers that command. -/
theorem finish_one {w : Work} {o : Origin} (h : s.commands = [⟨w, o⟩]) (a : Ans) : finish w a s = replyTo o true a { s with commands := [] } := by
  simp [finish, h]

theorem hostWrite_bound (client addr kind : Nat) (b : Bytes) (s : State) : (hostWrite client addr kind b s).sec.bound = s.sec.bound := by
  unfold hostWrite takeSeq
  split
  · dsimp only
    split <;> rfl
  · rfl

theorem writtenBytes_of_bound (h : t.sec.bound = s.sec.bound) (n : Nat) : writtenBytes t n = writtenBytes s n := by rw [writtenBytes, h, writtenBytes]

/-! ### Mirror passes (17 R448; log entry 77) -/

/-- What a mirror pass committed last. -/
def mirrorOf (s : State) : Nat × List Record × FMap CodeLimit := (s.evr.mirrorSeq, s.evr.mirrored, s.evr.mirrorCodes)

theorem mirrorOf_setFlag (off bit : Nat) (s : State) : mirrorOf (setFlag off bit s) = mirrorOf s := by rw [mirrorOf, setFlag_evr, mirrorOf]

theorem mirrorOf_snapshotVictim (v : Record) (s : State) : mirrorOf (snapshotVictim v s) = mirrorOf s := by
  unfold snapshotVictim
  split
  · rfl
  · split
    · dsimp only
      split
      · rfl
      · rw [mirrorOf_setFlag]
        rfl
    · rfl

theorem mirrorOf_storeRecord (sev code : Nat) (body : Bytes) (s : State) : mirrorOf (storeRecord sev code body s) = mirrorOf s := by
  unfold storeRecord
  dsimp only
  split
  · rw [mirrorOf_setFlag]
    rfl
  · exact foldl_keeps mirrorOf (fun s v => mirrorOf_snapshotVictim v s) _ s

theorem mirrorOf_rollWindow (s : State) : mirrorOf (rollWindow s) = mirrorOf s := by
  unfold rollWindow
  dsimp only
  split <;> rfl

/-- The recorder's own work changes nothing of the mirror. -/
theorem mirrorOf_report (code : Nat) (body : Bytes) (s : State) : mirrorOf (report code body s) = mirrorOf s := by
  unfold report reportAt
  split
  · rfl
  · dsimp only
    split
    · split
      · exact (mirrorOf_setFlag _ _ _).trans (mirrorOf_rollWindow s)
      · exact (mirrorOf_storeRecord _ _ _ _).trans (mirrorOf_rollWindow s)
    · exact (mirrorOf_storeRecord _ _ _ _).trans (mirrorOf_rollWindow s)

theorem le_foldl_max (l : List Record) (n : Nat) : n ≤ l.foldl (fun n r => max n r.seq) n := by
  induction l generalizing n with
  | nil => exact Nat.le_refl n
  | cons r rest ih => exact Nat.le_trans (Nat.le_max_left n r.seq) (ih _)

theorem execMirrorPass_fails (s : State) : ∃ t, exec (.mirrorPass false) s = .next t ∧ mirrorOf t = mirrorOf s ∧ (getFlag t offEvrEvents 2).on = true
    ∧ t.slots = s.slots ∧ t.mem = s.mem := by
  refine ⟨_, rfl, ?_, FlagsStay.report _ _ (.refl _) _ _ (setFlag_on _ _ _), by simp, by simp⟩
  rw [mirrorOf_report, mirrorOf_setFlag]

/-- Settles O16: the snapshot's three answers, its end, the two ends of a mirror pass, and the TIME record. -/
theorem snapshotsMirrorAndTime : Obligations.SnapshotsMirrorAndTime := by
  refine ⟨?asked, ?ends, ?none, fun s => ⟨_, rfl, le_foldl_max _ _, rfl, rfl, rfl, rfl⟩, ?fails, fun s => rfl⟩
  case asked =>
    intro p s t ho h
    rw [execEventSnapshot_passes ho h]
    refine ⟨fun hroom hs => ?_, fun hroom hs => by rw [snapshotBody_busy hroom hs, answered], fun hshort => by rw [snapshotBody_short hshort, answered]⟩
    obtain ⟨n, hbody, hn⟩ := snapshotBody_begins hroom hs
    rw [hbody]
    exact ⟨_, rfl, rfl, rfl, rfl, n, rfl, hn⟩
  case ends =>
    rintro s n o k entries b hs hc rfl hk hfit hnext rfl
    have hx := snapshotEntries_take hk hfit hnext
    have hlen : ((n.records.take k).map snapshotEntry).length = k := by rw [List.length_map, List.length_take, Nat.min_eq_left hk]
    refine congrArg Host.Outcome.next ?_
    rw [hs]
    dsimp only
    rw [hx]
    dsimp only
    rw [finish_one (by rw [hostWrite_commands]; exact hc), hlen, hostWrite_commandsAside, writtenBytes_of_bound (hostWrite_bound _ _ _ _ _)]
    rfl
  case none =>
    intro s hs
    refine congrArg Host.Outcome.next ?_
    rw [hs]
  case fails =>
    intro s
    obtain ⟨t, he, hm, hframe⟩ := execMirrorPass_fails s
    simp only [mirrorOf, Prod.mk.injEq] at hm
    exact ⟨t, he, hm.1, hm.2.1, hm.2.2, hframe⟩

end Sys2Proof.Machine
end

section
/-! SUPPORT for O44 and O56. What the holding of sessions (15 R415) leaves as it was: the host port, the service block, a command that waits for an activation, and, with the host lost, the replies written. -/

namespace Sys2Proof.Machine

variable {s t u : State}

theorem hostOut_bound (o : Origin) (addr kind : Nat) (b : Bytes) (s : State) : (hostOut o addr kind b s).sec.bound = s.sec.bound := by
  unfold hostOut
  split
  · rfl
  · exact hostWrite_bound _ _ _ _ _

/-! ### Work that ends -/

/-- A state without what the end of sessions' work may change. -/
def offWork (s : State) : State :=
  { s with freeCtr := 0, out := {}, mgmt := {}, flags := [], clients := [], commands := [], counters := {}, sec := { bound := s.sec.bound }, evr := {}, slots := {}, tier := {}, mem := [], cont := {}, sched := {} }

/-- A later state differs only in what the end of sessions' work may change: no reply is delivered with the host lost (15 R414), and a command that waits for an activation waits on. -/
structure WorkEnds (s t : State) : Prop where
  frame : offWork t = offWork s
  mute : s.host.lost = true → t.out.replies = s.out.replies
  stays : ∀ c ∈ s.commands, c.work = .activate → c ∈ t.commands

namespace WorkEnds

theorem refl (s : State) : WorkEnds s s := ⟨rfl, fun _ => rfl, fun _ h _ => h⟩

theorem bound (h : WorkEnds s t) : t.sec.bound = s.sec.bound := eq_of_aside offWork (fun s => s.sec.bound) (fun _ => rfl) h.frame
theorem host (h : WorkEnds s t) : t.host = s.host := eq_of_aside offWork State.host (fun _ => rfl) h.frame
theorem svc (h : WorkEnds s t) : t.svc = s.svc := eq_of_aside offWork State.svc (fun _ => rfl) h.frame

theorem trans (h : WorkEnds s t) (k : WorkEnds t u) : WorkEnds s u :=
  ⟨k.frame.trans h.frame, fun hl => (k.mute (by rwa [h.host])).trans (h.mute hl), fun c hc hw => k.stays c (h.stays c hc hw) hw⟩

/-- An operation that leaves replies and commands alone. -/
theorem update (h : WorkEnds s t) (hf : offWork u = offWork t) (hr : u.out.replies = t.out.replies) (hc : u.commands = t.commands) : WorkEnds s u :=
  h.trans ⟨hf, fun _ => hr, fun _ hm _ => hc ▸ hm⟩

theorem frames (h : WorkEnds s t) (hf : offFrames u = offFrames t) : WorkEnds s u :=
  h.update (eq_of_aside offFrames offWork (fun _ => rfl) hf) (eq_of_aside offFrames (fun s => s.out.replies) (fun _ => rfl) hf)
    (eq_of_aside offFrames State.commands (fun _ => rfl) hf)

theorem slots (h : WorkEnds s t) (hf : offSlots u = offSlots t) : WorkEnds s u :=
  h.update (eq_of_aside offSlots offWork (fun _ => rfl) hf) (eq_of_aside offSlots (fun s => s.out.replies) (fun _ => rfl) hf)
    (eq_of_aside offSlots State.commands (fun _ => rfl) hf)

theorem modSession (h : WorkEnds s t) (slot : Nat) (f : Session → Session) : WorkEnds s (modSession slot f t) := h.update rfl rfl rfl
theorem dropOps (h : WorkEnds s t) (p : MoverOp → Bool) : WorkEnds s (dropOps p t) := h.update rfl rfl rfl
theorem setState (h : WorkEnds s t) (slot st : Nat) : WorkEnds s (setState slot st t) := h.update rfl rfl rfl
theorem send (h : WorkEnds s t) (m : Msg) : WorkEnds s (send m t) := h.update rfl rfl rfl

theorem setFlag (h : WorkEnds s t) (off bit : Nat) : WorkEnds s (setFlag off bit t) :=
  h.update ((congrArg offWork (setFlag_changes off bit t)).trans rfl) (ByCadence.setFlag off bit (.refl t)).replies (setFlag_commands off bit t)

/-- With the host lost a reply reaches no ring (15 R414). -/
theorem replyTo (h : WorkEnds s t) (o : Origin) (final : Bool) {a : Ans} (ha : a.status ≠ stAUTH_FAIL) : WorkEnds s (replyTo o final a t) := by
  have hframe : offWork (Machine.replyTo o final a t) = offWork t :=
    (congrArg offWork (replyTo_changes o final a t)).trans (by simp only [offWork, replyTo_sec ha])
  refine h.trans ⟨hframe, fun hl => ?_, fun c hc _ => (replyTo_commands o final a t).symm ▸ hc⟩
  unfold Machine.replyTo
  extract_lets handle owed s1 st dt s2
  have h1 : s1.host = t.host ∧ s1.out = t.out := by
    clear_value owed
    cases owed <;> exact ⟨rfl, rfl⟩
  have h2 : s2.host.lost = true ∧ s2.out = t.out := ⟨by rw [countStatus_host, h1.1, hl], (countStatus_out ha s1).trans h1.2⟩
  rw [← h2.2]
  unfold landReply
  split
  · rfl
  · rw [writeReply, if_pos (.inl h2.1)]
    rfl

/-- The end of work that is no activation. -/
theorem finish (h : WorkEnds s t) {w : Work} (hw : w ≠ .activate) {a : Ans} (ha : a.status ≠ stAUTH_FAIL) : WorkEnds s (finish w a t) := by
  refine foldl_induct (WorkEnds s) (fun u c hu => hu.replyTo c.origin true ha) _ (h.trans ⟨rfl, fun _ => rfl, fun c hc hact => ?_⟩)
  exact List.mem_filter.2 ⟨hc, by simp [hact, hw.symm]⟩

theorem foldl {α : Type} {f : State → α → State} (hf : ∀ u x, WorkEnds s u → WorkEnds s (f u x)) (l : List α) (h : WorkEnds s t) : WorkEnds s (l.foldl f t) :=
  foldl_induct (WorkEnds s) hf l h

/-! ### The steps of a generation's end (03 R89; 04 R116) -/

theorem deliver (h : WorkEnds s t) (slot : Nat) (b : Bytes) : WorkEnds s (deliver slot b t) := by
  unfold Machine.deliver
  split
  · exact h
  · dsimp only
    split
    · next c _ _ =>
      refine (h.update ?_ ?_ (hostOut_commands _ _ _ _ _)).modSession _ _
      · exact (congrArg offWork (hostOut_changes _ _ _ _ _)).trans (by simp only [offWork, hostOut_bound])
      · unfold hostOut hostWrite takeSeq
        split
        · rfl
        · split
          · dsimp only
            split <;> rfl
          · rfl
    · exact h

theorem measureGenerate (h : WorkEnds s t) (slot status : Nat) : WorkEnds s (measureGenerate slot status t) := by
  unfold Machine.measureGenerate
  split
  · split
    · exact h.update rfl rfl rfl
    · exact h
  · exact h

theorem withdraw (h : WorkEnds s t) (handle : Nat) : WorkEnds s (withdraw handle t) := by
  unfold Machine.withdraw
  extract_lets mark sealedIn sched s1
  have h1 : WorkEnds s s1 := h.update rfl rfl rfl
  split
  · exact foldl (fun _ _ hu => hu.send _) _ h1
  · exact h1

theorem reportCandidate (h : WorkEnds s t) (slot : Nat) (cand : Bool) : WorkEnds s (reportCandidate slot cand t) := by
  unfold Machine.reportCandidate
  extract_lets x c sched s1
  have h1 : WorkEnds s s1 := h.update rfl rfl rfl
  split
  · exact h1
  · split
    · exact h1
    · split
      · exact h1
      · exact h1.send _

theorem returnScratch (h : WorkEnds s t) (slot : Nat) : WorkEnds s (returnScratch slot t) := (h.frames (offFrames_framesDue _ t)).update rfl rfl rfl
theorem dropSpec (h : WorkEnds s t) (slot : Nat) : WorkEnds s (dropSpec slot t) := (h.frames (offFrames_framesDue _ t)).update rfl rfl rfl
theorem addOp (h : WorkEnds s t) (k : MoverKind) (slot m c g b cl d : Nat) : WorkEnds s (addOp k slot m c g b cl d t) := h.update rfl rfl rfl

theorem demoteUntil (h : WorkEnds s t) (need : Nat) (l : List Nat) : WorkEnds s (demoteUntil need l t).2 := by
  induction l generalizing need t with
  | nil => exact h
  | cons slot rest ih =>
    unfold Machine.demoteUntil
    split
    · exact h
    · extract_lets b
      split
      · exact h
      · exact ih (h.addOp _ _ _ _ _ _ _ _) _

theorem placePark (h : WorkEnds s t) {slot space wake : Nat} {r : Nat × State} (hr : placePark slot space wake t = some r) : WorkEnds s r.2 := by
  unfold Machine.placePark at hr
  split at hr
  · cases hr
    exact h
  · extract_lets later at hr
    split at hr
    · next u he =>
      cases hr
      have hu := h.demoteUntil (space + reserveBytes t - t2Free t) later
      rw [he] at hu
      exact hu
    · split at hr
      · cases hr
        exact h
      · cases hr

theorem parkAfterEnd (h : WorkEnds s t) (slot wakeAfter : Nat) : WorkEnds s (parkAfterEnd slot wakeAfter t) := by
  unfold Machine.parkAfterEnd
  extract_lets x wake g s1 s2 place s3 dest b
  have h2 : WorkEnds s s2 := (h.modSession _ _).setState _ _
  have h3 : WorkEnds s s3 := by
    unfold s3
    cases hp : place with
    | none => exact h2.setFlag _ _
    | some r => exact h2.placePark hp
  exact h3.addOp _ _ _ _ _ _ _ _

theorem endGeneration (h : WorkEnds s t) (slot : Nat) {status : Nat} (ha : status ≠ stAUTH_FAIL) (detail : Nat) (park : Bool) (wakeAfter : Nat) :
    WorkEnds s (endGeneration slot status detail park wakeAfter t) := by
  unfold Machine.endGeneration
  split
  · exact h
  · extract_lets s1 n s2 newH s3 s4 s5 s6 s7
    have h1 : WorkEnds s s1 := by
      unfold s1
      split
      · exact h
      · exact h.deliver _ _
    have h3 : WorkEnds s s3 := (h1.measureGenerate _ _).finish (by simp) ha
    have h6 : WorkEnds s s6 := (((h3.withdraw _).dropSpec _).returnScratch _).modSession _ _ |>.reportCandidate _ _
    split
    · exact h6.parkAfterEnd _ _
    · split
      · exact (h6.dropOps _).setState _ _
      · exact h6

theorem endMoverWork (h : WorkEnds s t) (slot : Nat) {a : Ans} (ha : a.status ≠ stAUTH_FAIL) : WorkEnds s (endMoverWork slot a t) := by
  unfold Machine.endMoverWork
  extract_lets x s1 s2 s3 s4 s5 s6
  have h5 : WorkEnds s s5 := ((((h.dropOps _).modSession _ _).finish (by simp) ha).finish (by simp) ha).finish (by simp) ha
  have h6 : WorkEnds s (Machine.finish (.capsuleIn slot) a s5) := h5.finish (by simp) ha
  unfold s6
  split
  · exact h6.slots (offSlots_freeSlot _ _)
  · exact h6

/-! ### Sessions held (15 R415) -/

theorem holdSession (h : WorkEnds s t) (slot : Nat) : WorkEnds s (holdSession t slot) := by
  unfold Machine.holdSession
  extract_lets s1 x
  have h1 : WorkEnds s s1 := by
    unfold s1
    split
    · exact h.endMoverWork _ (by decide)
    · exact h
  split
  · split
    · exact h1.modSession _ _
    · exact h1.endGeneration _ (by decide) _ _ _
  · split
    · exact h1.parkAfterEnd _ _
    · exact h1

end WorkEnds

/-- Holding every session is holding them one by one, with HELD set. -/
theorem holdSessions_ends (s : State) : WorkEnds { s with host := { s.host with held := true } } (holdSessions s) :=
  (WorkEnds.foldl (fun _ slot hu => hu.holdSession slot) _ (.refl _)).dropOps _

end Sys2Proof.Machine
end

section
/-! PROOF of O56. The loss of the host (15 R414, R415), its re-enumeration (15 R417; 18 R458), and the resets of its functions (18 R473). -/

namespace Sys2Proof.Machine

variable {s t : State}

/-! ### The loss (15 R414) -/

theorem keysRecord_host (n : Nat) (s : State) : (keysRecord n s).host = s.host := report_host _ _ _

/-- A record in the Sillage delivers no reply. -/
theorem report_replies (code : Nat) (body : Bytes) (s : State) : (report code body s).out.replies = s.out.replies := (ByCadence.report code body (.refl s)).replies

theorem keysRecord_replies (n : Nat) (s : State) : (keysRecord n s).out.replies = s.out.replies := (report_replies _ _ _).trans rfl

theorem loseHost_spec (cause : Nat) (s : State) : (loseHost cause s).host.lost = true ∧ (loseHost cause s).host.stopped = true ∧ (loseHost cause s).host.held = true
    ∧ (s.sec.bound = true → (loseHost cause s).sec.suspended = true) ∧ (loseHost cause s).out.replies = s.out.replies := by
  unfold loseHost
  extract_lets parked again host s1 s2 s3
  have h2 : WorkEnds { s1 with host := { s1.host with held := true } } s2 := (holdSessions_ends s1).dropOps _
  have h3 : s3.host = s2.host ∧ s3.out.replies = s2.out.replies ∧ (s2.sec.bound = true → s3.sec.suspended = true) := by
    unfold s3
    split
    · exact ⟨keysRecord_host _ _, keysRecord_replies _ _, fun _ => by rw [keysRecord_sec]; rfl⟩
    · next hb => exact ⟨rfl, rfl, fun hb' => absurd hb' hb⟩
  obtain ⟨hhost, hreplies, hsusp⟩ := h3
  rw [report_host, report_sec, report_replies, hhost, hreplies, h2.host]
  exact ⟨rfl, rfl, rfl, fun hb => hsusp (h2.bound.trans hb), h2.mute rfl⟩

theorem execHostLoss_loses {cause : Nat} (hr : s.host.ringEverSet = true) (hl : s.host.lost = false) (h2 : 2 ≤ s.svc.phase) (h4 : s.svc.phase ≤ 4) :
    exec (.hostLoss cause) s = .next (loseHost cause s) := congrArg Host.Outcome.next (if_pos ⟨hr, by simp [hl], h2, h4⟩)

theorem execHostLoss_ignored {cause : Nat} (h : s.host.ringEverSet = false ∨ s.host.lost = true ∨ s.svc.phase < 2 ∨ 4 < s.svc.phase) :
    exec (.hostLoss cause) s = .next s := by
  refine congrArg Host.Outcome.next (if_neg ?_)
  rintro ⟨hr, hl, h2, h4⟩
  rcases h with h | h | h | h
  · simp [h] at hr
  · simp [h] at hl
  · omega
  · omega

/-! ### Re-enumeration (15 R417) -/

theorem execHostPortReset_resets (h : 2 ≤ s.svc.phase) : ∃ t, exec .hostPortReset s = .next t ∧ t.host.lost = false ∧ t.host.vfEnable = false
    ∧ ∀ n c, FMap.get? t.clients n = some c → c.run = (n == 0) ∧ c.base = 0 ∧ c.scan = 0 ∧ c.inflight = 0 ∧ c.recognised = [] := by
  refine ⟨_, if_neg (Nat.not_lt.2 h), ?_⟩
  rw [report_host, report_clients]
  refine ⟨rfl, rfl, fun n c hc => ?_⟩
  rw [FMap.get?_mapVals] at hc
  obtain ⟨c0, -, rfl⟩ := Option.map_eq_some_iff.1 hc
  exact ⟨rfl, rfl, rfl, rfl, rfl⟩

/-! ### A virtual function is reset (18 R473) -/

/-- A virtual function's client with no command: marked, stopped, its ring invalid, and the reset recorded. -/
theorem execVfFlr_quiet {n : Nat} (h0 : n ≠ 0) (h255 : n ≤ 255) (hi : (clientOf s n).inflight = 0) (hr : (clientOf s n).recognised = [])
    (hc : ∀ c ∈ s.commands, c.origin.client ≠ n) : exec (.vfFlr n) s
      = .next (report 0x003 (unitField 6 n ++ leBytes 4 6) (modClient n Client.stopped (preemptMarked n (modClient n (fun c => { c with base := 0 }) s)))) := by
  have hbegin : beginPreempt n (modClient n (fun c => { c with base := 0 }) s) = preemptMarked n (modClient n (fun c => { c with base := 0 }) s) :=
    beginPreempt_quiet (by rw [clientOf_modClient_same]; exact hr) hc
  refine congrArg Host.Outcome.next ((if_neg (by omega)).trans ?_)
  rw [hbegin, endPreempt_done (by rw [preemptMarked_client]) (by rw [preemptMarked_client, clientOf_modClient_same]; exact hi)]

theorem clientOf_report (code : Nat) (body : Bytes) (s : State) (n : Nat) : clientOf (report code body s) n = clientOf s n := by
  rw [clientOf, report_clients, clientOf]

/-- Settles O56: loss, re-enumeration and the functions' resets, each row by its rule. -/
theorem hostComesAndGoes : Obligations.HostComesAndGoes := by
  refine ⟨fun cause s => ⟨fun hr hl h2 h4 => ⟨_, execHostLoss_loses hr hl h2 h4, loseHost_spec cause s⟩, execHostLoss_ignored⟩,
    fun s => ⟨execHostPortReset_resets, fun h => if_pos h⟩, fun n s h => congrArg Host.Outcome.next (if_pos h), ?vf, fun on s => rfl⟩
  case vf =>
    intro n s h0 h255 hi hr hc
    refine ⟨_, execVfFlr_quiet h0 h255 hi hr hc, ?_, ?_, fun m hm => ?_, ?_⟩
    · rw [clientOf_report, clientOf_modClient_same]
      rfl
    · rw [clientOf_report, clientOf_modClient_same, preemptMarked_client, clientOf_modClient_same]
      rfl
    · rw [clientOf_report, clientOf_modClient_other _ _ hm, (onlyClient_preemptMarked n _).others m hm, clientOf_modClient_other _ _ hm]
    · rw [report_slots, modClient_slots, (onlyClient_preemptMarked n _).slots, modClient_slots]

end Sys2Proof.Machine
end

section
/-! PROOF of O55. Power-on (18 R453, R455), the start of firmware (18 R456), the end of training (18 R459), the resets (18 R467 to R470), and THERMTRIP (20 R499). -/

namespace Sys2Proof.Machine

variable {a b f : Bool} {s t : State}

/-! ### The ROM chooses a slot (18 R455) -/

/-- Whether the ROM finds firmware slot `n` good. -/
def slotGood (a b : Bool) (n : Nat) : Bool := if n = 0 then a else b

/-- A good firmware slot runs, the other one if the ROM fell back to it. -/
def slotRuns (n : Nat) (fell : Bool) (s : State) : State :=
  modSec (fun k => { k with fwRollback := (FMap.getD s.svc.slots n {}).rollback }) { s with
    cal := { s.cal with status := 1 }
    svc := { s.svc with running := n, fellBack := fell }
    secw := { s.secw with fwMeasurement := (FMap.getD s.svc.slots n {}).measurement } }

/-- With good factory data the ROM tries the slot that ran, then the other one. -/
theorem romSelect_factory (a b : Bool) (s : State) : romSelect a b true s
    = if slotGood a b s.svc.running then slotRuns s.svc.running false s
      else if slotGood a b (1 - s.svc.running) then slotRuns (1 - s.svc.running) true s
      else { s with cal := { s.cal with status := 1 }, svc := { s.svc with phase := 5 }, host := { s.host with stopped := false } } := rfl

/-- Of a slot and the other one, one is slot A and one slot B. -/
theorem slotGood_neither {n : Nat} (hn : ¬ slotGood a b n = true) (ho : ¬ slotGood a b (1 - n) = true) : a = false ∧ b = false := by
  by_cases h0 : n = 0
  · subst h0
    exact ⟨by simpa [slotGood] using hn, by simpa [slotGood] using ho⟩
  · have h1 : 1 - n = 0 := by omega
    exact ⟨by simpa [slotGood, h1] using ho, by simpa [slotGood, h0] using hn⟩

/-- What the ROM does: bad factory data, a good slot, or none. -/
theorem romSelect_cases (a b f : Bool) (s : State) :
    (f = false ∧ romSelect a b f s = { s with svc := { s.svc with phase := 6 } })
    ∨ (f = true ∧ ∃ n fell, slotGood a b n = true ∧ romSelect a b f s = slotRuns n fell s)
    ∨ (f = true ∧ a = false ∧ b = false
      ∧ romSelect a b f s = { s with cal := { s.cal with status := 1 }, svc := { s.svc with phase := 5 }, host := { s.host with stopped := false } }) := by
  cases f with
  | false => exact .inl ⟨rfl, rfl⟩
  | true =>
    rw [romSelect_factory]
    by_cases hr : slotGood a b s.svc.running = true
    · exact .inr (.inl ⟨rfl, _, false, hr, if_pos hr⟩)
    · by_cases ho : slotGood a b (1 - s.svc.running) = true
      · exact .inr (.inl ⟨rfl, _, true, ho, (if_neg hr).trans (if_pos ho)⟩)
      · obtain ⟨ha, hb⟩ := slotGood_neither hr ho
        exact .inr (.inr ⟨rfl, ha, hb, (if_neg hr).trans (if_neg ho)⟩)

/-- What the ROM's choice leaves as it was. -/
def offRom (s : State) : State :=
  { s with cal := {}, secw := {}, host := {}, sec := { bound := s.sec.bound, bootCount := s.sec.bootCount }
           svc := { resetKind := s.svc.resetKind, stopRecord := s.svc.stopRecord } }

theorem offRom_romSelect (a b f : Bool) (s : State) : offRom (romSelect a b f s) = offRom s := by
  rcases romSelect_cases a b f s with ⟨-, h⟩ | ⟨-, n, fell, -, h⟩ | ⟨-, -, -, h⟩ <;> rw [h] <;> rfl

/-- The phase in which the ROM leaves a device that boots. -/
def romPhase (a b f : Bool) : Nat := if f = false then 6 else if a = false ∧ b = false then 5 else 1

theorem romSelect_phase (h : s.svc.phase = 1) : (romSelect a b f s).svc.phase = romPhase a b f
    ∧ ((romSelect a b f s).svc.phase = 1 → slotGood a b (romSelect a b f s).svc.running = true) := by
  rcases romSelect_cases a b f s with ⟨rfl, e⟩ | ⟨rfl, n, fell, hg, e⟩ | ⟨rfl, rfl, rfl, e⟩ <;> rw [e]
  · exact ⟨rfl, fun h6 => absurd h6 (by simp)⟩
  · have hone : ¬ (a = false ∧ b = false) := by
      rintro ⟨rfl, rfl⟩
      simp [slotGood] at hg
    exact ⟨by rw [romPhase, if_neg (by simp), if_neg hone]; exact h, fun _ => hg⟩
  · exact ⟨rfl, fun h5 => absurd h5 (by simp)⟩

/-! ### The state at phase 1 (18 R468) -/

/-- A boot of a kind, once the ROM has chosen. -/
def booted (kind : Nat) (closed a b f : Bool) (s : State) : State := romSelect a b f (checkSeal closed (bootState kind s))

/-- What the seal loop's check leaves as it was. -/
theorem checkSeal_keeps (closed : Bool) (s : State) : (checkSeal closed s).svc = s.svc ∧ (checkSeal closed s).mem = s.mem ∧ (checkSeal closed s).slots = s.slots
    ∧ (checkSeal closed s).commands = s.commands ∧ (checkSeal closed s).pending = s.pending ∧ (checkSeal closed s).sec.bound = s.sec.bound
    ∧ (checkSeal closed s).sec.bootCount = s.sec.bootCount := by
  unfold checkSeal
  dsimp only
  split <;> simp

theorem booted_phase (kind : Nat) (closed : Bool) (s : State) : (booted kind closed a b f s).svc.phase = romPhase a b f
    ∧ ((booted kind closed a b f s).svc.phase = 1 → slotGood a b (booted kind closed a b f s).svc.running = true) :=
  romSelect_phase (congrArg Service.phase (checkSeal_keeps closed (bootState kind s)).1)

/-- A boot holds no memory, session or command, counts itself, and keeps the stop record and the commands that wait. -/
theorem booted_keeps (kind : Nat) (closed a b f : Bool) (s : State) : (booted kind closed a b f s).mem = [] ∧ (booted kind closed a b f s).slots = {}
    ∧ (booted kind closed a b f s).commands = [] ∧ (booted kind closed a b f s).pending = s.pending ∧ (booted kind closed a b f s).sec.bound = false
    ∧ (booted kind closed a b f s).sec.bootCount = s.sec.bootCount + 1 ∧ (booted kind closed a b f s).svc.resetKind = kind
    ∧ (booted kind closed a b f s).svc.stopRecord = s.svc.stopRecord := by
  have hrom := offRom_romSelect a b f (checkSeal closed (bootState kind s))
  have hview {β : Type} (view : State → β) (hv : ∀ s, view (offRom s) = view s) : view (booted kind closed a b f s) = view (checkSeal closed (bootState kind s)) :=
    eq_of_aside offRom view hv hrom
  obtain ⟨hsvc, hmem, hslots, hcommands, hpending, hbound, hcount⟩ := checkSeal_keeps closed (bootState kind s)
  refine ⟨(hview State.mem fun _ => rfl).trans hmem, (hview State.slots fun _ => rfl).trans hslots, (hview State.commands fun _ => rfl).trans hcommands,
    (hview State.pending fun _ => rfl).trans hpending, (hview (fun s => s.sec.bound) fun _ => rfl).trans hbound,
    (hview (fun s => s.sec.bootCount) fun _ => rfl).trans hcount, (hview (fun s => s.svc.resetKind) fun _ => rfl).trans ?_,
    (hview (fun s => s.svc.stopRecord) fun _ => rfl).trans ?_⟩
  · rw [hsvc]
    rfl
  · rw [hsvc]
    rfl

/-! ### Power-on and device reset (18 R453, R467) -/

theorem execPowerOnQualified_boots {closed o : Bool} (h : s.svc.phase = 0 ∨ s.sup.tripped = true ∨ s.sup.stopStage = 4) :
    exec (.powerOnQualified closed a b f o) s = .next (if o then setFlag offSupEvents 0 (booted 1 closed a b f s) else booted 1 closed a b f s) :=
  congrArg Host.Outcome.next (if_pos h)

theorem execPowerOnQualified_ignored {closed o : Bool} (h0 : s.svc.phase ≠ 0) (ht : s.sup.tripped = false) (h4 : s.sup.stopStage ≠ 4) :
    exec (.powerOnQualified closed a b f o) s = .next s := congrArg Host.Outcome.next (if_neg (by simp [h0, ht, h4]))

theorem execDeviceReset_ignored (h : s.svc.phase = 0 ∨ s.sup.tripped = true ∨ s.sup.railsOff = true ∨ s.sup.st = .stopping) :
    exec (.deviceReset a b f) s = .next s := congrArg Host.Outcome.next (if_pos h)

theorem execDeviceReset_boots (h0 : s.svc.phase ≠ 0) (ht : s.sup.tripped = false) (hr : s.sup.railsOff = false) (hs : s.sup.st ≠ .stopping) :
    ∃ kind, exec (.deviceReset a b f) s = .next (booted kind s.sec.sealOk a b f s) := by
  by_cases hk : s.svc.phase = 1 ∧ s.svc.resetKind = 1
  · exact ⟨1, congrArg Host.Outcome.next ((if_neg (by simp [h0, ht, hr, hs])).trans (if_pos hk))⟩
  · exact ⟨2, congrArg Host.Outcome.next ((if_neg (by simp [h0, ht, hr, hs])).trans (if_neg hk))⟩

/-! ### Firmware starts (18 R456) -/

/-- A state without what the work of R456 may change beside the phase, the host port and the beat. -/
def offStartup (s : State) : State := { s with freeCtr := 0, out := {}, mgmt := {}, flags := [], sup := {}, secw := {}, evr := {}, fab := {}, cal := {} }

theorem offStartup_setFlag (off bit : Nat) (s : State) : offStartup (setFlag off bit s) = offStartup s := (congrArg offStartup (setFlag_changes off bit s)).trans rfl

theorem offStartup_reportAt (sev code : Nat) (body : Bytes) (s : State) : offStartup (reportAt sev code body s) = offStartup s :=
  (congrArg offStartup (reportAt_changes sev code body s)).trans rfl

theorem offStartup_restoreSillage (s : State) : offStartup (restoreSillage s) = offStartup s := by
  unfold restoreSillage
  split <;> rfl

theorem offStartup_loadCalibration (valid : Bool) (s : State) : offStartup (loadCalibration valid s) = offStartup s := by
  unfold loadCalibration
  split
  · rfl
  · exact offStartup_reportAt _ _ _ _

theorem offStartup_bootFence (unit : Nat) (s : State) : offStartup (bootFence unit s) = offStartup s := by
  unfold bootFence
  dsimp only
  (repeat' split) <;> rfl

theorem offStartup_reFence (units : List (Nat × Nat)) (s : State) : offStartup (reFence units s) = offStartup s := by
  refine foldl_keeps offStartup (fun s u => ?_) units { s with fab := { s.fab with blocks := [] } }
  split
  · exact offStartup_bootFence _ _
  · split <;> rfl

theorem offStartup_bootRecords (s : State) : offStartup (bootRecords s) = offStartup s := by
  unfold bootRecords
  extract_lets s1 s2
  have h2 : offStartup s2 = offStartup s := (offStartup_reportAt _ _ _ s1).trans (offStartup_reportAt _ _ _ s)
  split
  · exact (offStartup_reportAt _ _ _ _).trans h2
  · exact h2

theorem raiseRails_changes (mV : Nat) (s : State) : raiseRails mV s = { s with sup := (raiseRails mV s).sup } := by
  have h : (fun s : State => { s with sup := {} }) (raiseRails mV s) = (fun s : State => { s with sup := {} }) s := by
    refine foldl_keeps (fun s : State => { s with sup := {} }) (fun s r => ?_) _ s
    split <;> rfl
  exact congrArg (fun t : State => { t with sup := (raiseRails mV s).sup }) h

/-- The beat at which firmware starts: a count that nothing has locked begins anew. -/
def startBeat (s : State) : State :=
  if s.cad.st = .unlocked ∨ s.cad.st = .acquiring then { s with cad := { s.cad with beat := 0, phase := 0, markBeat := none } } else s

/-- The work of R456 in its order, before the rails. -/
def startWork (cal : Bool) (units : List (Nat × Nat)) (s : State) : State :=
  bootRecords (drawMemKeys (reFence units (loadCalibration cal (restoreSillage (startBeat s)))))

theorem offStartup_startWork (cal : Bool) (units : List (Nat × Nat)) (s : State) : offStartup (startWork cal units s) = offStartup (startBeat s) :=
  (offStartup_bootRecords _).trans ((offStartup_reFence units _).trans ((offStartup_loadCalibration cal _).trans (offStartup_restoreSillage _)))

/-- The stop flag as firmware shows it once (14 R381). -/
def showStop (s : State) : State := if s.svc.stopFlag then setFlag offSupEvents 2 { s with svc := { s.svc with stopFlag := false } } else s

theorem showStop_spec (s : State) : (showStop s).svc.stopFlag = false ∧ (showStop s).mem = s.mem ∧ (showStop s).slots = s.slots ∧ (showStop s).cad = s.cad := by
  unfold showStop
  split
  · simp
  · next h => exact ⟨by simpa using h, rfl, rfl, rfl⟩

theorem execFirmwareStart_starts {cal : Bool} {units : List (Nat × Nat)} (h : s.svc.phase = 1) : exec (.firmwareStart cal units) s
    = .next (raiseRails (profileMv 0) { showStop (startWork cal units s) with
        svc := { (showStop (startWork cal units s)).svc with phase := 3 }
        host := { (showStop (startWork cal units s)).host with stopped := false }
        mgmt := { (showStop (startWork cal units s)).mgmt with
          fwVersion := (FMap.getD (showStop (startWork cal units s)).svc.slots (showStop (startWork cal units s)).svc.running {}).version } }) :=
  if_neg (by simp [h])

theorem firmwareStarts {cal : Bool} {units : List (Nat × Nat)} (h : s.svc.phase = 1) : ∃ t, exec (.firmwareStart cal units) s = .next t ∧ t.svc.phase = 3
    ∧ t.svc.stopFlag = false ∧ t.host.stopped = false ∧ t.mem = s.mem ∧ t.slots = s.slots ∧ ((s.cad.st = .unlocked ∨ s.cad.st = .acquiring) → t.cad.beat = 0) := by
  obtain ⟨hflag, hmem, hslots, hcad⟩ := showStop_spec (startWork cal units s)
  have hview {β : Type} (view : State → β) (hv : ∀ s, view (offStartup s) = view s) : view (startWork cal units s) = view (startBeat s) :=
    eq_of_aside offStartup view hv (offStartup_startWork cal units s)
  have hbeat : (startBeat s).mem = s.mem ∧ (startBeat s).slots = s.slots ∧ ((s.cad.st = .unlocked ∨ s.cad.st = .acquiring) → (startBeat s).cad.beat = 0) := by
    unfold startBeat
    split
    · exact ⟨rfl, rfl, fun _ => rfl⟩
    · next hf => exact ⟨rfl, rfl, fun hf' => absurd hf' hf⟩
  refine ⟨_, execFirmwareStart_starts h, ?_⟩
  rw [raiseRails_changes]
  refine ⟨rfl, hflag, rfl, hmem.trans ((hview State.mem fun _ => rfl).trans hbeat.1), hslots.trans ((hview State.slots fun _ => rfl).trans hbeat.2.1), fun hf => ?_⟩
  exact (congrArg Cadence.beat (hcad.trans (hview State.cad fun _ => rfl))).trans (hbeat.2.2 hf)

/-! ### Training ends (18 R459) -/

theorem execTrainingDone_ends {t1 t2 : Nat} {ddr failing : List (Nat × Nat)} (h : s.svc.phase = 3) : ∃ t, exec (.trainingDone t1 t2 ddr failing) s = .next t
    ∧ t.svc.phase = 4 ∧ (failing = [] → t.mem = [] ∧ t.tier.t1Total = min t1 (382 * 1024)
      ∧ t.tier.t2Total = min t2 (t.tier.ddr.foldl (fun n e => n + e.2.sizeGiB * 1024) 0) ∧ t = { s with svc := t.svc, mem := [], tier := t.tier }) := by
  refine ⟨_, if_neg (by simp [h]), rfl, ?_⟩
  rintro rfl
  exact ⟨rfl, rfl, rfl, rfl⟩

/-! ### The watchdog (18 R470) -/

theorem execWatchdogExpiry_ignored {ok_ : Bool} (h : s.svc.phase < 2 ∨ 4 < s.svc.phase ∨ s.sup.railsOff = true ∨ s.sup.st = .stopping) :
    exec (.watchdogExpiry ok_) s = .next s := congrArg Host.Outcome.next (if_pos h)

section
variable (h2 : 2 ≤ s.svc.phase) (h4 : s.svc.phase ≤ 4) (hr : s.sup.railsOff = false) (hs : s.sup.st ≠ .stopping)
include h2 h4 hr hs

theorem watchdog_heeded : ¬ (s.svc.phase < 2 ∨ 4 < s.svc.phase ∨ s.sup.railsOff = true ∨ s.sup.st = .stopping) := by
  simp only [hr, hs, Bool.false_eq_true, or_false]
  omega

/-- A slot that does not take over leaves the device to a reset. -/
theorem execWatchdogExpiry_resets : exec (.watchdogExpiry false) s = .next (booted 2 s.sec.sealOk true true true s) :=
  congrArg Host.Outcome.next (if_neg (watchdog_heeded h2 h4 hr hs))

/-- A slot that takes over leaves the work standing. -/
theorem execWatchdogExpiry_takesOver : ∃ t, exec (.watchdogExpiry true) s = .next t ∧ t.sec.measuring = true ∧ t.slots = s.slots ∧ t.mem = s.mem
    ∧ t.sched = s.sched ∧ t.commands = s.commands := by
  refine ⟨_, congrArg Host.Outcome.next (if_neg (watchdog_heeded h2 h4 hr hs)), ?_⟩
  rw [if_neg (by simp), report_sec, report_slots, report_mem, report_sched, report_commands]
  exact ⟨rfl, rfl, rfl, rfl, rfl⟩

end

/-- Settles O55: every boot is the ROM's choice on a boot state; the other rows each by their rule. -/
theorem bootAndResets : Obligations.BootAndResets := by
  refine ⟨fun closed a b f o s => ⟨fun h => ?power, execPowerOnQualified_ignored⟩, fun cal units s => ⟨firmwareStarts, fun h => if_pos h⟩,
    fun t1 t2 ddr failing s => ⟨execTrainingDone_ends, fun h => if_pos h⟩, fun a b f s => ⟨execDeviceReset_ignored, fun h0 ht hr hs => ?reset⟩,
    fun ok_ s => ⟨fun h2 h4 hr hs => ?dog, execWatchdogExpiry_ignored⟩, fun v s => ⟨_, rfl, rfl, rfl, rfl, rfl, rfl, rfl⟩⟩
  case power =>
    obtain ⟨hphase, hgood⟩ := booted_phase (a := a) (b := b) (f := f) 1 closed s
    obtain ⟨hmem, hslots, -, hpending, -, hcount, hkind, -⟩ := booted_keeps 1 closed a b f s
    refine ⟨_, execPowerOnQualified_boots h, ?_⟩
    cases o
    · exact ⟨hmem, hslots, hpending, hcount, hkind, hphase, hgood⟩
    · simp only [if_true, setFlag_mem, setFlag_slots, setFlag_pending, setFlag_sec, setFlag_svc]
      exact ⟨hmem, hslots, hpending, hcount, hkind, hphase, hgood⟩
  case reset =>
    obtain ⟨kind, he⟩ := execDeviceReset_boots (a := a) (b := b) (f := f) h0 ht hr hs
    obtain ⟨hmem, hslots, hcommands, hpending, hbound, hcount, -, hrecord⟩ := booted_keeps kind s.sec.sealOk a b f s
    exact ⟨_, he, (booted_phase kind _ s).1, hmem, hslots, hcommands, hbound, hcount, hrecord, hpending⟩
  case dog =>
    cases ok_ with
    | true =>
      obtain ⟨t, he, hwork⟩ := execWatchdogExpiry_takesOver h2 h4 hr hs
      exact ⟨t, he, fun _ => hwork, fun h => absurd h (by simp)⟩
    | false =>
      obtain ⟨hmem, hslots, hcommands, -⟩ := booted_keeps 2 s.sec.sealOk true true true s
      exact ⟨_, execWatchdogExpiry_resets h2 h4 hr hs, fun h => absurd h (by simp), fun _ => ⟨(booted_phase 2 _ s).1, hmem, hslots, hcommands⟩⟩

end Sys2Proof.Machine
end

section
/-! PROOF of O44. FW_STAGE (15 R410), FW_ACTIVATE (15 R411; 13 R367), the take-over and its two ends (15 R412). -/

namespace Sys2Proof.Machine

variable {p : Packet} {s t u : State}

/-! ### What records and replies leave of the management block (19 R480) -/

/-- The management block but for the beat of its last vector. -/
def mgmtSet (s : State) : Mgmt := { s.mgmt with vectorAt := none }

theorem mgmtSet_setFlag (off bit : Nat) (s : State) : mgmtSet (setFlag off bit s) = mgmtSet s := by
  unfold setFlag raiseEvent
  dsimp only
  split
  · rfl
  · split <;> rfl

theorem mgmtSet_snapshotVictim (v : Record) (s : State) : mgmtSet (snapshotVictim v s) = mgmtSet s := by
  unfold snapshotVictim
  split
  · rfl
  · split
    · dsimp only
      split
      · rfl
      · exact mgmtSet_setFlag _ _ _
    · rfl

theorem mgmtSet_storeRecord (sev code : Nat) (body : Bytes) (s : State) : mgmtSet (storeRecord sev code body s) = mgmtSet s := by
  unfold storeRecord
  dsimp only
  split
  · exact mgmtSet_setFlag _ _ _
  · exact foldl_keeps mgmtSet (fun s v => mgmtSet_snapshotVictim v s) _ s

theorem mgmtSet_report (code : Nat) (body : Bytes) (s : State) : mgmtSet (report code body s) = mgmtSet s := by
  have hroll : mgmtSet (rollWindow s) = mgmtSet s := congrArg (fun m : Mgmt => { m with vectorAt := none }) (rollWindow_mgmt s)
  unfold report reportAt
  split
  · rfl
  · dsimp only
    split
    · split
      · exact (mgmtSet_setFlag _ _ _).trans hroll
      · exact (mgmtSet_storeRecord _ _ _ _).trans hroll
    · exact (mgmtSet_storeRecord _ _ _ _).trans hroll

theorem mgmtSet_countStatus (o : Origin) (a : Ans) (s : State) : mgmtSet (countStatus o a s) = mgmtSet s := by
  unfold countStatus
  split
  · rfl
  · split
    · rfl
    · split
      · rfl
      · split
        · exact (mgmtSet_report _ _ _).trans (mgmtSet_setFlag _ _ _)
        · rfl

theorem mgmtSet_replyTo (o : Origin) (final : Bool) (a : Ans) (s : State) : mgmtSet (replyTo o final a s) = mgmtSet s := by
  unfold replyTo
  extract_lets handle owed s1 st dt s2
  have h1 : mgmtSet s1 = mgmtSet s := by
    clear_value owed
    cases owed <;> rfl
  exact (congrArg (fun m : Mgmt => { m with vectorAt := none }) (landReply_mgmt _ _ _ s2)).trans ((mgmtSet_countStatus o a s1).trans h1)

theorem mgmtSet_finish (w : Work) (a : Ans) (s : State) : mgmtSet (finish w a s) = mgmtSet s :=
  foldl_keeps mgmtSet (fun (s : State) (c : Command) => mgmtSet_replyTo c.origin true a s) _ _

/-! ### FW_STAGE (15 R410) -/

section
variable {obj : FirmwareObject} {img : FirmwareImage} {total : Nat}

theorem execFwStage_passes (ho : opcodeOf p = 0x60) (h : passes never p s = some t) :
    exec (.fwStage p obj) s = .next (dropRecognised p (fwStageBody obj 0 p t)) := next_serve_passes ho h

/-- A reply whose detail is open draws a free value for it. -/
theorem replyOpen_answers (p : Packet) (status : Nat) (s : State) :
    ∃ detail, dropRecognised p (replyOpen p status s) = answered p { status := status, detail := detail } { s with freeCtr := s.freeCtr + 1 } := ⟨_, rfl⟩

theorem fwStageBody_long (h : 16777216 < paramOf p 0x28 8) : fwStageBody obj 0 p t = replyOpen p stBAD_LENGTH t := if_pos h

theorem fwStageBody_piece {a : Ans} (h : paramOf p 0x28 8 ≤ 16777216) (hp : takePiece fwKey 0x20 p t = .kept a u ∨ takePiece fwKey 0x20 p t = .refused a u) :
    fwStageBody obj 0 p t = reply p a u := by
  refine (if_neg (Nat.not_lt.2 h)).trans ?_
  rcases hp with hp | hp <;> rw [hp]

theorem fwStageBody_last (h : paramOf p 0x28 8 ≤ 16777216) (hp : takePiece fwKey 0x20 p t = .last u) :
    fwStageBody obj 0 p t = checkFirmware (readFirmware obj) (paramOf p 0x28 8) p u := by
  refine (if_neg (Nat.not_lt.2 h)).trans ?_
  rw [hp]

theorem checkFirmware_length (h : img.facts.delivered ≠ img.totalBytes ∨ img.totalBytes ≠ total) : checkFirmware img total p u = replyOpen p stBAD_LENGTH u := if_pos h

section
variable (hd : img.facts.delivered = img.totalBytes) (ht : img.totalBytes = total)
include hd ht

theorem checkFirmware_header (h : img.magic ≠ 0x57464E46 ∨ img.version ≠ 1 ∨ img.zeroOk = false) : checkFirmware img total p u = replyOpen p stBAD_PARAM u :=
  (if_neg (by simp [hd, ht])).trans (if_pos (by simpa using h))

/-- The checks of an object whose length and header are sound, in their order. -/
theorem checkFirmware_sound (hm : img.magic = 0x57464E46) (hv : img.version = 1) (hz : img.zeroOk = true) : checkFirmware img total p u
    = if img.facts.digest ≠ img.facts.trailer then reply p { status := stDIGEST_FAIL } u
      else if !img.signatureOk then reply p { status := stAUTH_FAIL, detail := 0x0010 } u
      else if img.rollback < u.sec.rollback then reply p { status := stAUTH_FAIL, detail := 0x0011 } u
      else reply p ok { u with svc := { u.svc with staged := some img } } :=
  (if_neg (by simp [hd, ht])).trans (if_neg (by simp [hm, hv, hz]))

end
end

/-! ### FW_ACTIVATE (15 R411) -/

section
variable {img : FirmwareImage} {at_ : Nat}

theorem execFwActivate_passes (ho : opcodeOf p = 0x61) (h : passes never p s = some t) :
    exec (.fwActivate p) s = .next (dropRecognised p (activateBody 0 p t)) := next_serve_passes ho h

theorem activateBody_empty (h : t.svc.staged = none) : activateBody 0 p t = reply p (bad 0x20) t := by rw [activateBody, h]

/-- Outside recovery a staged image is refused while another service runs, and scheduled otherwise. -/
theorem activateBody_staged (h : t.svc.staged = some img) (h5 : t.svc.phase ≠ 5) : activateBody 0 p t
    = if dimmBusy t = true ∨ activating t = true then reply p (busy 0xFFFF) t else scheduleActivation p img t := by
  rw [activateBody, h]
  exact if_neg h5

theorem scheduleActivation_refused (h : activateBeat (paramOf p 0x20 8) t = none) : scheduleActivation p img t = reply p (bad 0x20) t := by
  rw [scheduleActivation, h]

theorem disallowed_of_sec (h : t.sec = s.sec) : disallowed img t = disallowed img s := by rw [disallowed, h, disallowed]

theorem scheduleActivation_accepts (h : activateBeat (paramOf p 0x20 8) t = some at_) (hd : disallowed img t = false) :
    scheduleActivation p img t = accept p .activate { t with svc := { t.svc with activateAt := some at_ } } := by
  rw [scheduleActivation, h]
  refine if_neg ?_
  rw [disallowed_of_sec (accept_sec _ _ _)]
  exact Bool.eq_false_iff.1 hd

theorem scheduleActivation_holds (h : activateBeat (paramOf p 0x20 8) t = some at_) (hd : disallowed img t = true) :
    scheduleActivation p img t = departFor at_ (accept p .activate { t with svc := { t.svc with activateAt := some at_ } }) := by
  rw [scheduleActivation, h]
  refine if_pos ?_
  rw [disallowed_of_sec (accept_sec _ _ _)]
  exact hd

/-- A departure for an activation holds the sessions, and the activation's command waits on. -/
theorem departFor_holds (at_ : Nat) (s : State) : (departFor at_ s).host.held = true ∧ (departFor at_ s).svc = s.svc
    ∧ ∀ c ∈ s.commands, c.work = .activate → c ∈ (departFor at_ s).commands := by
  unfold departFor
  extract_lets cad s1
  have h1 : s1.svc = s.svc ∧ s1.commands = s.commands := by
    unfold s1
    split <;> exact ⟨rfl, rfl⟩
  have hends := holdSessions_ends s1
  exact ⟨congrArg HostPort.held hends.host, hends.svc.trans h1.1, fun c hc => hends.stays c (h1.2 ▸ hc)⟩

theorem commandOf_ne_none {w : Work} {c : Command} (hc : c ∈ s.commands) (hw : c.work = w) : commandOf s w ≠ none :=
  fun h => by simpa [hw] using List.find?_eq_none.1 h c hc

theorem accept_waits (p : Packet) (w : Work) (s : State) : ∃ c ∈ (accept p w s).commands, c.work = w :=
  ⟨⟨w, originOf p s⟩, List.mem_append_right _ (List.mem_singleton_self _), rfl⟩

/-! ### The activation at its beat (15 R411, R412) -/

/-- The new firmware's activation, once it has resumed and before its command is answered. -/
def resumed (img : FirmwareImage) (s : State) : State :=
  if disallowed img s then purgeKeys (activateRecord s.secw.fwMeasurement img.facts.trailer (runFirmware img s))
  else activateRecord s.secw.fwMeasurement img.facts.trailer (runFirmware img s)

/-- The previous firmware, restarted, before the command is answered. -/
def revertedFirmware (img : FirmwareImage) (s : State) : State :=
  internalRecord 0x61 (activateRecord s.secw.fwMeasurement img.facts.trailer { s with
    svc := { s.svc with staged := none, activateAt := none, takenOver := false }
    host := { s.host with stopped := s.host.lost, held := s.sec.suspended } })

theorem activateRecord_keeps (a b : Digest) (s : State) : (activateRecord a b s).svc = s.svc ∧ (activateRecord a b s).secw = s.secw
    ∧ (activateRecord a b s).host = s.host ∧ (activateRecord a b s).sec = s.sec ∧ mgmtSet (activateRecord a b s) = mgmtSet s := by
  unfold activateRecord
  dsimp only
  exact ⟨by simp, by simp, by simp, by simp, mgmtSet_report _ _ _⟩

theorem purgeKeys_keeps (s : State) : (purgeKeys s).svc = s.svc ∧ (purgeKeys s).secw = s.secw ∧ (purgeKeys s).host = s.host ∧ mgmtSet (purgeKeys s) = mgmtSet s := by
  unfold purgeKeys keysRecord
  dsimp only
  exact ⟨by simp, by simp, by simp, (mgmtSet_report _ _ _).trans (mgmtSet_setFlag _ _ _)⟩

theorem purgeKeys_sec (s : State) : (purgeKeys s).sec = { s.sec with weightKeys := [], weightSecrets := [], payloadKeys := [], purged := true } := by
  simp [purgeKeys]

theorem resumed_keeps (img : FirmwareImage) (s : State) : (resumed img s).svc = (runFirmware img s).svc ∧ (resumed img s).secw = (runFirmware img s).secw
    ∧ (resumed img s).host = (runFirmware img s).host ∧ mgmtSet (resumed img s) = mgmtSet (runFirmware img s) := by
  obtain ⟨hsvc, hsecw, hhost, -, hmgmt⟩ := activateRecord_keeps s.secw.fwMeasurement img.facts.trailer (runFirmware img s)
  unfold resumed
  split
  · obtain ⟨psvc, psecw, phost, pmgmt⟩ := purgeKeys_keeps (activateRecord s.secw.fwMeasurement img.facts.trailer (runFirmware img s))
    exact ⟨psvc.trans hsvc, psecw.trans hsecw, phost.trans hhost, pmgmt.trans hmgmt⟩
  · exact ⟨hsvc, hsecw, hhost, hmgmt⟩

/-- Firmware that the policy does not allow costs the tenancy its keys (13 R367). -/
theorem resumed_sec (img : FirmwareImage) (s : State) :
    (disallowed img s = true → (resumed img s).sec.weightKeys = [] ∧ (resumed img s).sec.payloadKeys = [] ∧ (resumed img s).sec.purged = true)
    ∧ (disallowed img s = false → (resumed img s).sec.weightKeys = s.sec.weightKeys ∧ (resumed img s).sec.payloadKeys = s.sec.payloadKeys) := by
  obtain ⟨-, -, -, hsec, -⟩ := activateRecord_keeps s.secw.fwMeasurement img.facts.trailer (runFirmware img s)
  constructor
  · intro hd
    rw [resumed, if_pos hd, purgeKeys_sec]
    exact ⟨rfl, rfl, rfl⟩
  · intro hd
    rw [resumed, if_neg (by simp [hd]), hsec]
    exact ⟨rfl, rfl⟩

theorem revertedFirmware_keeps (img : FirmwareImage) (s : State) : (revertedFirmware img s).svc = { s.svc with staged := none, activateAt := none, takenOver := false }
    ∧ (revertedFirmware img s).secw = s.secw ∧ (revertedFirmware img s).sec = s.sec := by
  obtain ⟨hsvc, hsecw, -, hsec, -⟩ := activateRecord_keeps s.secw.fwMeasurement img.facts.trailer { s with
    svc := { s.svc with staged := none, activateAt := none, takenOver := false }, host := { s.host with stopped := s.host.lost, held := s.sec.suspended } }
  unfold revertedFirmware internalRecord
  dsimp only
  rw [report_svc, report_secw, report_sec]
  exact ⟨hsvc, hsecw, hsec⟩

section
variable (ha : s.svc.activateAt = some at_) (hs : s.svc.staged = some img)
include ha hs

theorem execFwTakeover_eq : exec .fwTakeover s = .next (if s.svc.takenOver = true ∨ s.cad.beat < at_ then s
    else { s with sec := { s.sec with measuring := true }, host := { s.host with stopped := true }, svc := { s.svc with takenOver := true } }) := by
  change execFwTakeover s = _
  rw [execFwTakeover, ha, hs]
  rfl

theorem execFwResume_eq : exec .fwResume s = .next (if (!s.svc.takenOver) = true ∨ at_ + 150 < s.cad.beat then s else finish .activate ok (resumed img s)) := by
  change execFwResume s = _
  rw [execFwResume, ha, hs]
  rfl

theorem execFwActivateTimeout_eq : exec .fwActivateTimeout s = .next (if (!s.svc.takenOver) = true ∨ s.cad.beat < at_ + 150 then s
    else finish .activate { status := stINTERNAL, detail := 0x005 } (revertedFirmware img s)) := by
  change execFwActivateTimeout s = _
  rw [execFwActivateTimeout, ha, hs]
  rfl

end

theorem fwRows_idle (h : s.svc.activateAt = none ∨ s.svc.staged = none) :
    exec .fwTakeover s = .next s ∧ exec .fwResume s = .next s ∧ exec .fwActivateTimeout s = .next s := by
  change execFwTakeover s = _ ∧ execFwResume s = _ ∧ execFwActivateTimeout s = _
  rw [execFwTakeover, execFwResume, execFwActivateTimeout]
  rcases h with h | h
  · rw [h]
    exact ⟨rfl, rfl, rfl⟩
  · rw [h]
    cases s.svc.activateAt <;> exact ⟨rfl, rfl, rfl⟩

/-- Firmware that resumes in time: the other slot runs, measured, and the command is answered. -/
theorem execFwResume_resumes (ha : s.svc.activateAt = some at_) (hs : s.svc.staged = some img) (ht : s.svc.takenOver = true) (hb : s.cad.beat ≤ at_ + 150) :
    ∃ u, exec .fwResume s = .next u ∧ u.svc.running = 1 - s.svc.running ∧ u.secw.fwMeasurement = img.facts.trailer ∧ u.mgmt.fwVersion = img.fwVersion ∧ u.svc.staged = none
      ∧ u.svc.activateAt = none ∧ u.svc.takenOver = false ∧ u.host.stopped = s.host.lost ∧ commandOf u .activate = none
      ∧ (disallowed img s = true → u.sec.weightKeys = [] ∧ u.sec.payloadKeys = [] ∧ u.sec.purged = true)
      ∧ (disallowed img s = false → u.sec.weightKeys = s.sec.weightKeys ∧ u.sec.payloadKeys = s.sec.payloadKeys) := by
  obtain ⟨hsvc, hsecw, hhost, hmgmt⟩ := resumed_keeps img s
  have hversion := congrArg Mgmt.fwVersion ((mgmtSet_finish .activate ok (resumed img s)).trans hmgmt)
  refine ⟨_, (execFwResume_eq ha hs).trans (congrArg Host.Outcome.next (if_neg (by simp only [ht, Bool.not_true, Bool.false_eq_true, false_or]; omega))), ?_⟩
  rw [finish_svc, finish_secw, finish_host, finish_sec (by decide), hsvc, hsecw, hhost]
  exact ⟨rfl, rfl, hversion, rfl, rfl, rfl, rfl, commandOf_finish _ _ _, resumed_sec img s⟩

/-- Firmware that does not: the previous one runs on, and the command is answered. -/
theorem execFwActivateTimeout_reverts (ha : s.svc.activateAt = some at_) (hs : s.svc.staged = some img) (ht : s.svc.takenOver = true) (hb : at_ + 150 ≤ s.cad.beat) :
    ∃ u, exec .fwActivateTimeout s = .next u ∧ u.svc.running = s.svc.running ∧ u.secw.fwMeasurement = s.secw.fwMeasurement ∧ u.svc.staged = none ∧ u.svc.activateAt = none
      ∧ u.svc.takenOver = false ∧ commandOf u .activate = none ∧ u.sec.weightKeys = s.sec.weightKeys := by
  obtain ⟨hsvc, hsecw, hsec⟩ := revertedFirmware_keeps img s
  refine ⟨_, (execFwActivateTimeout_eq ha hs).trans (congrArg Host.Outcome.next (if_neg (by simp only [ht, Bool.not_true, Bool.false_eq_true, false_or]; omega))), ?_⟩
  rw [finish_svc, finish_secw, finish_sec (by decide), hsvc, hsecw, hsec]
  exact ⟨rfl, rfl, rfl, rfl, rfl, commandOf_finish _ _ _, rfl⟩

end

/-- Settles O44: FW_STAGE by its checks in order, FW_ACTIVATE by what stands in its way, the rows at its beat by their sides of the 150 beats. -/
theorem firmwareStagedAndActivated : Obligations.FirmwareStagedAndActivated := by
  refine ⟨?stage, ?activate, ?beat, fun s => fwRows_idle⟩
  case stage =>
    rintro p obj img s t ho h rfl
    rw [execFwStage_passes ho h]
    refine ⟨fun hlong => ?_, fun a u hle hp => by rw [fwStageBody_piece hle hp, answered], fun u hle hp => ?_⟩
    · rw [fwStageBody_long hlong]
      obtain ⟨d, e⟩ := replyOpen_answers p stBAD_LENGTH t
      exact ⟨d, congrArg Host.Outcome.next e⟩
    rw [fwStageBody_last hle hp]
    refine ⟨fun hlen => ?_, fun hd ht hhead => ?_, fun hd ht hm hv hz => ?_⟩
    · rw [checkFirmware_length hlen]
      obtain ⟨d, e⟩ := replyOpen_answers p stBAD_LENGTH u
      exact ⟨d, congrArg Host.Outcome.next e⟩
    · rw [checkFirmware_header hd ht hhead]
      obtain ⟨d, e⟩ := replyOpen_answers p stBAD_PARAM u
      exact ⟨d, congrArg Host.Outcome.next e⟩
    · rw [checkFirmware_sound hd ht hm hv hz]
      refine ⟨fun hdig => by rw [if_pos hdig, answered], fun hdig hsig => ?_, fun hdig hsig hroll => ?_, fun hdig hsig hroll => ?_⟩
      · rw [if_neg (not_not_intro hdig), if_pos (by simp [hsig]), answered]
      · rw [if_neg (not_not_intro hdig), if_neg (by simp [hsig]), if_pos hroll, answered]
      · rw [if_neg (not_not_intro hdig), if_neg (by simp [hsig]), if_neg (Nat.not_lt.2 hroll), answered]
  case activate =>
    intro p s t ho h h5
    rw [execFwActivate_passes ho h]
    refine ⟨fun hs => by rw [activateBody_empty hs, answered], fun img hs hbusy => ?_, fun img hs ha hd hat => ?_, fun img at_ hs ha hd hat => ?_⟩
    · rw [activateBody_staged hs h5, if_pos hbusy.symm, answered]
    · rw [activateBody_staged hs h5, if_neg (by simp [ha, hd]), scheduleActivation_refused hat, answered]
    rw [activateBody_staged hs h5, if_neg (by simp [ha, hd])]
    refine ⟨fun hallowed => by rw [scheduleActivation_accepts hat hallowed, accepted], fun hbarred => ?_⟩
    rw [scheduleActivation_holds hat hbarred]
    obtain ⟨hheld, hsvc, hwaits⟩ := departFor_holds at_ (accept p .activate { t with svc := { t.svc with activateAt := some at_ } })
    obtain ⟨c, hc, hw⟩ := accept_waits p .activate { t with svc := { t.svc with activateAt := some at_ } }
    refine ⟨_, rfl, ?_, hheld, commandOf_ne_none (hwaits c hc hw) hw⟩
    rw [dropRecognised_svc, hsvc, accept_svc]
  case beat =>
    intro at_ img s ha hs
    refine ⟨fun ht hb => ?_, fun hout => ?_, execFwResume_resumes ha hs, fun hout => ?_, execFwActivateTimeout_reverts ha hs, fun hout => ?_⟩
    · rw [execFwTakeover_eq ha hs, if_neg (by simp only [ht, Bool.false_eq_true, false_or]; omega)]
    · rw [execFwTakeover_eq ha hs, if_pos hout]
    · rw [execFwResume_eq ha hs, if_pos (by simpa using hout)]
    · rw [execFwActivateTimeout_eq ha hs, if_pos (by simpa using hout)]

end Sys2Proof.Machine
end

section
/-! SUPPORT for O57. What kills, notices and fences leave of the Blocks (07 R187, R188; 08 R206 to R218): a kill leaves them all, and a fence leaves the list of fenced cores. -/

namespace Sys2Proof.Machine

variable {s t : State}

/-! ### Kills and notices leave the Blocks -/

theorem blockAt_of_blocks (h : t.fab.blocks = s.fab.blocks) (d b : Nat) : blockAt t d b = blockAt s d b := by rw [blockAt, h, blockAt]

@[simp] theorem countPart_blocks (part : Nat) (f : PartitionCounters → PartitionCounters) (s : State) : (countPart part f s).fab.blocks = s.fab.blocks := by
  unfold countPart
  split <;> rfl

@[simp] theorem voidRun_blocks (x : SlotEntry) (ds : List Nat) (s : State) : (voidRun x ds s).fab.blocks = s.fab.blocks :=
  foldl_modDistrict (fun s => s.fab.blocks) (fun _ _ _ => rfl) _ _ _

@[simp] theorem runDefer_blocks (n : Notice) (s : State) : (runDefer n s).fab.blocks = s.fab.blocks := by
  rw [← foldl_keeps (fun s => s.fab.blocks) (fun s x => voidRun_blocks x (slotDistricts x) s) (uncommitted s n.partition n.microbatch) s]
  unfold runDefer deferMb
  split <;> rfl

@[simp] theorem settleDefers_blocks (s : State) : (settleDefers s).fab.blocks = s.fab.blocks :=
  foldl_keeps (fun s => s.fab.blocks) (fun s n => runDefer_blocks n s) _ _

@[simp] theorem slipLater_blocks (n : Notice) (s : State) : (slipLater n s).fab.blocks = s.fab.blocks := rfl

/-- A notice kept in the schedule, slipped, deferred or planned leaves every Block. -/
@[simp] theorem registerNotice_blocks (n : Notice) (s : State) : (registerNotice n s).fab.blocks = s.fab.blocks := by
  by_cases hn : noticed n s = true
  · rw [registerNotice_noticed hn]
  have hn' : noticed n s = false := by simpa using hn
  by_cases h2 : n.kind = 2
  · obtain ⟨u, hu, e⟩ := registerNotice_abort hn' h2
    have hb : u.fab.blocks = s.fab.blocks := by rcases hu with rfl | ⟨x, rfl⟩ <;> simp [abortCounted, noticeKept]
    rw [e]
    split <;> exact hb
  by_cases h3 : n.kind = 3
  · rw [registerNotice_defer hn' h3, deferLater, settleDefers_blocks]
    simp [deferCounted, noticeKept]
  · unfold registerNotice
    rw [if_neg hn]
    dsimp only
    split
    · rfl
    · contradiction
    · contradiction
    · simp
    · rfl

@[simp] theorem sendNotice_blocks (peers : List Nat) (n : Notice) (s : State) : (sendNotice peers n s).fab.blocks = s.fab.blocks :=
  (registerNotice_blocks n _).trans (foldl_keeps (fun s => s.fab.blocks) (fun s m => congrArg Fabric.blocks (send_fab (.notice (some m) n) s)) peers s)

@[simp] theorem sendDefer_blocks (x : SlotEntry) (run e : Nat) (s : State) : (sendDefer x run e s).fab.blocks = s.fab.blocks := sendNotice_blocks _ _ s

@[simp] theorem killSlot_blocks (id : Nat) (s : State) : (killSlot id s).fab.blocks = s.fab.blocks := by
  unfold killSlot killRun
  (repeat' split) <;> simp [apply_ite State.fab, apply_ite Fabric.blocks]

@[simp] theorem blockPlan_blocks (d b e : Nat) (s : State) : (blockPlan d b e s).fab.blocks = s.fab.blocks := by
  unfold blockPlan sendFallback
  (repeat' split) <;> simp

@[simp] theorem loadStores_blocks (d b : Nat) (cores : List Nat) (s : State) : (loadStores d b cores s).fab.blocks = s.fab.blocks := by
  unfold loadStores
  split <;> rfl

/-! ### A Block is fenced whole -/

/-- A Block fenced whole is marked so and out of reset; its core fences end, and BLOCK_FENCED is flagged. -/
theorem wholeFence_fences {d b : Nat} (h : (blockAt s d b).wholeFenced = false) :
    blockAt (wholeFence d b s) d b = { blockAt s d b with wholeFenced := true, fenceDue := none, pendingFence := [], spareTop := [] }
      ∧ (getFlag (wholeFence d b s) (offDstEvents d) 4).on = true := by
  unfold wholeFence
  simp only [h, Bool.false_eq_true, if_false]
  refine ⟨?_, ?_⟩
  · rw [foldl_keeps (fun s => blockAt s d b) (fun s f => blockAt_of_blocks (congrArg Fabric.blocks (finish_fab _ ok s)) d b),
      blockAt_of_blocks (congrArg Fabric.blocks (finish_fab _ _ _)), blockAt_of_blocks (congrArg Fabric.blocks (setFlag_fab _ _ _)), blockAt_modBlock_same]
  · have hends := Steady.foldl (fun _ (f : Nat × Nat × Nat) hu => hu.finish (.fence 1 (unitId (blockKey d b) f.1)) ok) (blockAt s d b).pendingFence
      ((Steady.refl (setFlag (offDstEvents d) 4 (modBlock d b (fun k => { k with wholeFenced := true, fenceDue := none, pendingFence := [], spareTop := [] }) s))).finish
        (.fence 2 (unitId (blockKey d b) 0)) ok)
    exact hends.flags _ _ (setFlag_on _ _ _)

/-- A whole fence is in force at once with no active image, and due at a boundary with one (08 R216). -/
theorem planWholeFence_plans (d b earliest : Nat) (s : State) :
    (blockAt (planWholeFence d b earliest s) d b).wholeFenced = true ∨ (blockAt (planWholeFence d b earliest s) d b).fenceDue ≠ none := by
  unfold planWholeFence
  split
  · cases h : (blockAt s d b).wholeFenced with
    | true => exact .inl (by rw [wholeFence, if_pos h, h])
    | false => exact .inl (by rw [(wholeFence_fences h).1])
  · right
    rw [blockAt_of_blocks (blockPlan_blocks _ _ _ _), blockAt_modBlock_same]
    exact Option.some_ne_none _

/-! ### The list of fenced cores -/

section
variable (d b : Nat)

/-- The cores of a Block that are fenced. -/
def fencedCores (s : State) : List Nat := (blockAt s d b).fenced

theorem fencedCores_of_blocks (h : t.fab.blocks = s.fab.blocks) : fencedCores d b t = fencedCores d b s := by
  rw [fencedCores, blockAt_of_blocks h, fencedCores]

@[simp] theorem fencedCores_report (code : Nat) (body : Bytes) (s : State) : fencedCores d b (report code body s) = fencedCores d b s :=
  fencedCores_of_blocks d b (congrArg Fabric.blocks (report_fab _ _ _))

@[simp] theorem fencedCores_setFlag (off bit : Nat) (s : State) : fencedCores d b (setFlag off bit s) = fencedCores d b s :=
  fencedCores_of_blocks d b (congrArg Fabric.blocks (setFlag_fab _ _ _))

@[simp] theorem fencedCores_finish (w : Work) (a : Ans) (s : State) : fencedCores d b (finish w a s) = fencedCores d b s :=
  fencedCores_of_blocks d b (congrArg Fabric.blocks (finish_fab _ _ _))

@[simp] theorem fencedCores_modBlock (f : Block → Block) (s : State) : fencedCores d b (modBlock d b f s) = (f (blockAt s d b)).fenced := by
  simp [fencedCores]

@[simp] theorem fencedCores_wholeFence (s : State) : fencedCores d b (wholeFence d b s) = fencedCores d b s := by
  cases h : (blockAt s d b).wholeFenced with
  | true => simp [wholeFence, h]
  | false => rw [fencedCores, (wholeFence_fences h).1, fencedCores]

@[simp] theorem fencedCores_planWholeFence (earliest : Nat) (s : State) : fencedCores d b (planWholeFence d b earliest s) = fencedCores d b s := by
  unfold planWholeFence
  split
  · exact fencedCores_wholeFence d b s
  · rw [fencedCores_of_blocks d b (blockPlan_blocks _ _ _ _), fencedCores_modBlock, fencedCores]

@[simp] theorem fencedCores_wakeSpares (s : State) : fencedCores d b (wakeSpares d b s) = fencedCores d b s := by
  rw [wakeSpares, fencedCores_of_blocks d b (loadStores_blocks _ _ _ _), fencedCores_modBlock, fencedCores]

@[simp] theorem fencedCores_swapCore (f : Nat × Nat × Nat) (s : State) : fencedCores d b (swapCore d b f s) = fencedCores d b s := by
  unfold swapCore
  extract_lets blk late left
  have hlate : fencedCores d b (late s) = fencedCores d b s := by
    unfold late
    split
    · rfl
    · exact fencedCores_setFlag d b _ _ _
  split
  · rfl
  split
  · exact (fencedCores_finish d b _ _ _).trans (fencedCores_modBlock d b _ s)
  split
  · split
    · rfl
    · exact fencedCores_planWholeFence d b _ s
  · exact (fencedCores_finish d b _ _ _).trans ((fencedCores_modBlock d b _ _).trans hlate)

@[simp] theorem fencedCores_swapBlock (s : State) : fencedCores d b (swapBlock d b s) = fencedCores d b s := by
  unfold swapBlock
  extract_lets _ _ u
  have hu : fencedCores d b u = fencedCores d b s := foldl_keeps (fencedCores d b) (fun s f => fencedCores_swapCore d b f s) _ s
  (repeat' split) <;> simp [hu]

end

/-- A core that firmware decides to fence is on its Block's list, unless the Block is fenced whole already (07 R187). -/
theorem fenceCore_fences (d b c : Nat) (s : State) : (blockAt (fenceCore d b c s) d b).wholeFenced = true ∨ c ∈ (blockAt (fenceCore d b c s) d b).fenced := by
  unfold fenceCore
  extract_lets blk logical free t1 first at_ decided due t2 t3 t4 blk' moving t5
  split
  · next h => exact h.symm.imp id (fun hc => by simpa [blk] using hc)
  right
  have h2 : c ∈ fencedCores d b t2 := by simp [t2]
  have h3 : fencedCores d b t3 = fencedCores d b t2 := by simp [t3]
  have h4 : fencedCores d b t4 = fencedCores d b t3 := by simp [t4, apply_ite (fencedCores d b)]
  have h5 : fencedCores d b t5 = fencedCores d b t4 := by simp [t5, apply_ite (fencedCores d b)]
  have h6 : fencedCores d b (if t5.sched.active.isNone then swapBlock d b t5 else t5) = fencedCores d b t5 := by simp [apply_ite (fencedCores d b)]
  change c ∈ fencedCores d b _
  rw [h6, h5, h4, h3]
  exact h2

/-! ### The kill that a UNIT_FENCE requests (08 R206, R212) -/

theorem ByNotice.requestKill (plain force : Bool) (test : Image → SlotEntry → Bool) (h : ByNotice s t) : ByNotice s (requestKill plain force test t) := by
  unfold Machine.requestKill
  split
  · exact h
  · exact foldl (fun _ x hu => hu.killSlot x.id) _ h

@[simp] theorem requestKill_blocks (plain force : Bool) (test : Image → SlotEntry → Bool) (s : State) : (requestKill plain force test s).fab.blocks = s.fab.blocks := by
  unfold requestKill
  split
  · rfl
  · exact foldl_keeps (fun s => s.fab.blocks) (fun s (x : SlotEntry) => killSlot_blocks x.id s) _ s

theorem blockAt_requestKill (plain force : Bool) (test : Image → SlotEntry → Bool) (s : State) (d b : Nat) :
    blockAt (requestKill plain force test s) d b = blockAt s d b := blockAt_of_blocks (requestKill_blocks _ _ _ _) d b

theorem ByNotice.tier (h : ByNotice s t) : t.tier = s.tier := eq_of_aside offNotice State.tier (fun _ => rfl) h.frame

end Sys2Proof.Machine
end

section
/-! PROOF of O57. UNIT_FENCE (15 R405), HBM sparing (15 R400) and the reset of a Block (18 R469). -/

namespace Sys2Proof.Machine

variable {p : Packet} {s t : State} {d b c : Nat}

/-! ### UNIT_FENCE -/

theorem execUnitFence_passes (ho : opcodeOf p = 0x72) (h : passes never p s = some t) :
    exec (.unitFence p) s = .next (dropRecognised p (unitFenceBody 0 p t)) := next_serve_passes ho h

theorem unitFenceBody_unknown (hu : argOf p 20 1 = 0 ∨ 4 < argOf p 20 1) (s : State) : unitFenceBody 0 p s = reply p (bad 0x14) s := if_pos hu

theorem unitFenceBody_restores (hu : 1 ≤ argOf p 20 1) (hu' : argOf p 20 1 ≤ 4) (hne : argOf p 20 1 ≠ 3) (hr : bitOf (argOf p 21 1) 1 = true) (s : State) :
    unitFenceBody 0 p s = reply p (bad 0x15) s := by
  unfold unitFenceBody
  dsimp only
  rw [if_neg (by omega), if_pos ⟨hr, hne⟩]

/-- A fence of a core or a Block, by its District. -/
theorem unitFenceBody_block (hu : argOf p 20 1 = 1 ∨ argOf p 20 1 = 2) (hr : bitOf (argOf p 21 1) 1 = false) (s : State) :
    unitFenceBody 0 p s = if 16 ≤ argOf p 24 4 / 512 then reply p (bad 0x18) s
      else if argOf p 20 1 = 1 then coreBody (argOf p 24 4 / 512) (argOf p 24 4 / 32 % 16) (argOf p 24 4 % 32) (bitOf (argOf p 21 1) 0) p s
      else blockBody (argOf p 24 4 / 512) (argOf p 24 4 / 32 % 16) (bitOf (argOf p 21 1) 0) p s := by
  unfold unitFenceBody
  dsimp only
  rw [if_neg (by omega), if_neg (by simp [hr]), if_pos (by omega)]

/-- A fence or restore of a link lane. -/
theorem unitFenceBody_lane (hu : argOf p 20 1 = 3) (s : State) :
    unitFenceBody 0 p s = if 0x400 ≤ argOf p 24 4 ∨ argOf p 24 4 / 32 % 8 ≠ 0 then reply p (bad 0x18) s
      else reply p ok (fenceLane (argOf p 24 4 % 32) (argOf p 24 4 / 256) (bitOf (argOf p 21 1) 1)
        (if bitOf (argOf p 21 1) 1 then s else requestKill true (bitOf (argOf p 21 1) 0) (usesLink (argOf p 24 4 % 32)) s)) := by
  simp [unitFenceBody, hu]

/-- A fence of an HBM channel. -/
theorem unitFenceBody_channel (hu : argOf p 20 1 = 4) (hr : bitOf (argOf p 21 1) 1 = false) (s : State) :
    unitFenceBody 0 p s = if 256 ≤ argOf p 24 4 then reply p (bad 0x18) s
      else channelBody (argOf p 24 4 / 32) (argOf p 24 4 % 32) (bitOf (argOf p 21 1) 0) p s := by
  simp [unitFenceBody, hu, hr]

/-- A core fenced already, whose swap is over, is answered at once. -/
theorem coreBody_fenced (h : (blockAt s d b).wholeFenced = true ∨ (c ∈ (blockAt s d b).fenced ∧ ∀ f ∈ (blockAt s d b).pendingFence, f.1 ≠ c)) (force : Bool) :
    coreBody d b c force p s = reply p ok s := if_pos (by simpa using h)

/-- Another is fenced. -/
theorem coreBody_fences (d b c : Nat) (force : Bool) (p : Packet) (s : State) :
    ((blockAt (coreBody d b c force p s) d b).wholeFenced = true ∨ c ∈ (blockAt (coreBody d b c force p s) d b).fenced) ∧ (coreBody d b c force p s).mem = s.mem := by
  unfold coreBody
  dsimp only
  split
  · next h =>
    rw [blockAt_of_blocks (congrArg Fabric.blocks (reply_fab p ok s)), reply_mem]
    exact ⟨h.imp id (fun hc => by simpa using hc.1), rfl⟩
  · rw [blockAt_requestKill]
    exact ⟨fenceCore_fences _ _ _ _, by simp⟩

theorem blockBody_fenced (h : (blockAt s d b).wholeFenced = true) (force : Bool) : blockBody d b force p s = reply p ok s := if_pos h

theorem blockBody_fences (d b : Nat) (force : Bool) (p : Packet) (s : State) :
    ((blockAt (blockBody d b force p s) d b).wholeFenced = true ∨ (blockAt (blockBody d b force p s) d b).fenceDue ≠ none) ∧ (blockBody d b force p s).mem = s.mem := by
  unfold blockBody
  extract_lets s1 s2
  split
  · next h =>
    rw [blockAt_of_blocks (congrArg Fabric.blocks (reply_fab p ok s)), reply_mem]
    exact ⟨.inl h, rfl⟩
  · rw [blockAt_requestKill, requestKill_mem]
    unfold s2
    split
    · next h => exact ⟨.inr (Option.isSome_iff_ne_none.1 h), rfl⟩
    · exact ⟨planWholeFence_plans _ _ _ _, planWholeFence_mem _ _ _ _⟩

/-! ### Link lanes -/

/-- A failed lane changes the lanes in use, not the fenced ones. -/
theorem failLane_fenced (l lane : Nat) (s : State) : (linkAt (failLane l lane s) l).fencedLanes = (linkAt s l).fencedLanes := by
  by_cases hup : (linkAt s l).st = .up
  · rw [(failLane_up hup lane).2.1]
  by_cases hpair : (linkAt s l).st = .half ∧ bitOf (linkAt s l).lanes lane = true
  · rw [failLane_pair hpair.1 hpair.2, (loseLink_lost l _).2.1, linkAt_setFlag]
  by_cases hidle : (linkAt s l).st = .half ∨ (linkAt s l).st = .retrain
  · rw [failLane_idle (hidle.imp (fun h => ⟨h, by simpa [h] using hpair⟩) id), linkAt_modLink_same, linkAt_setFlag]
  · rw [failLane, if_neg hup, if_neg hpair, if_neg hidle]

/-- A fence puts the lane on the link's list, a restore takes it off. -/
theorem fenceLane_lists (l lane : Nat) (restore : Bool) (s : State) : lane ∈ (linkAt (fenceLane l lane restore s) l).fencedLanes ↔ restore = false := by
  unfold fenceLane
  extract_lets has s1
  cases restore
  · simp only [Bool.false_eq_true, if_false, iff_true]
    split
    · next h => simpa [has] using h
    · rw [failLane_fenced, apply_ite (fun s => linkAt s l), linkAt_queueWord, ite_self]
      simp [s1]
  · simp only [if_true, Bool.true_eq_false, iff_false]
    split
    · simp
    · next h => simpa [has] using h

/-! ### HBM sparing -/

theorem hbmOf_of_tier (h : t.tier = s.tier) (k : Nat) : hbmOf t k = hbmOf s k := by rw [hbmOf, h, hbmOf]

@[simp] theorem spareRecord_tier (k c : Nat) (s : State) : (spareRecord k c s).tier = s.tier := by simp [spareRecord]

/-- What a channel is when it does not fail anew: spared, in copy, due or lost. -/
def hbmGone (k c : Nat) (s : State) : Prop := (hbmOf s k).used = c + 1 ∨ (hbmOf s k).copying = some c ∨ (hbmOf s k).due = some c ∨ c ∈ (hbmOf s k).lost

theorem failHbm_gone (h : hbmGone d c s) : failHbm d c s = s := if_pos (by simpa [hbmGone] using h)

theorem failHbm_copies (h : ¬ hbmGone d c s) (hu : (hbmOf s d).used = 0) (hc : (hbmOf s d).copying = none) (hd : (hbmOf s d).due = none) :
    failHbm d c s = modHbm d (fun h => { h with copying := some c }) s := by
  unfold failHbm
  dsimp only
  rw [if_neg (by simpa [hbmGone] using h), if_pos ⟨hu, hc, hd⟩]

theorem loseHbm_lost (k c : Nat) (s : State) : c ∈ (hbmOf (loseHbm k c s) k).lost := by
  unfold loseHbm
  dsimp only
  rw [hbmOf_of_tier (spareRecord_tier _ _ _), hbmOf_modHbm_same]
  simp

/-- After a failure the channel is in copy into the reserve, or was gone already, or is lost. -/
theorem failHbm_gives (k c : Nat) (s : State) : hbmGone k c (failHbm k c s) := by
  by_cases hg : hbmGone k c s
  · rw [failHbm_gone hg]
    exact hg
  by_cases hf : (hbmOf s k).used = 0 ∧ (hbmOf s k).copying = none ∧ (hbmOf s k).due = none
  · rw [failHbm_copies hg hf.1 hf.2.1 hf.2.2, hbmGone, hbmOf_modHbm_same]
    exact .inr (.inl rfl)
  · have he : failHbm k c s = loseHbm k c s := by
      unfold failHbm
      dsimp only
      rw [if_neg (by simpa [hbmGone] using hg), if_neg hf]
    rw [he]
    exact .inr (.inr (.inr (loseHbm_lost k c s)))

theorem channelBody_gives (k c : Nat) (force : Bool) (p : Packet) (s : State) : hbmGone k c (channelBody k c force p s) := by
  unfold channelBody
  extract_lets s1 h s2
  have h2 : s2.tier = s1.tier := by
    unfold s2
    split
    · rfl
    · exact reply_tier p ok s1
  rw [hbmGone, hbmOf_of_tier (((ByNotice.refl s2).requestKill _ _ _).tier.trans h2)]
  exact failHbm_gives k c s

theorem execHbmSpareStart_eq (k c : Nat) (s : State) : exec (.hbmSpareStart k c) s = .next (if k < 8 ∧ c < 32 then failHbm k c s else s) := rfl

/-- The end of a copy: due at the next boundary, at once while no image is active. -/
theorem execHbmSpareCopyDone_copied {k : Nat} (h : (hbmOf s k).copying = some c) :
    exec (.hbmSpareCopyDone k) s = .next (if s.sched.active.isNone then remapHbm k (modHbm k (fun h => { h with copying := none, due := some c }) s)
      else modHbm k (fun h => { h with copying := none, due := some c }) s) := by
  change execHbmSpareCopyDone k s = _
  rw [execHbmSpareCopyDone, h]
  rfl

theorem execHbmSpareCopyDone_none {k : Nat} (h : (hbmOf s k).copying = none) : exec (.hbmSpareCopyDone k) s = .next s := by
  change execHbmSpareCopyDone k s = _
  rw [execHbmSpareCopyDone, h]

theorem remapHbm_due {k : Nat} (h : (hbmOf s k).due = some c) : hbmOf (remapHbm k s) k = { hbmOf s k with due := none, used := c + 1 } := by
  rw [remapHbm, h]
  dsimp only
  rw [hbmOf_of_tier (finish_tier _ _ _), hbmOf_of_tier (spareRecord_tier _ _ _), hbmOf_modHbm_same]

/-! ### The reset of a Block -/

theorem execBlockPartialReset_resets (hr : (blockAt s d b).resetting = false) (hw : (blockAt s d b).wholeFenced = false) :
    ∃ t, exec (.blockPartialReset d b) s = .next t ∧ (blockAt t d b).resetting = true ∧ (blockAt t d b).rejoinAt = none ∧ t.mem = s.mem := by
  have hexec : exec (.blockPartialReset d b) s = execBlockPartialReset d b s := rfl
  rw [hexec, execBlockPartialReset, if_neg (by simp [hr, hw])]
  extract_lets s1 s2
  have hblock : blockAt s2 d b = { blockAt s d b with resetting := true, rejoinAt := none } := by
    rw [blockAt_of_blocks (congrArg Fabric.blocks (report_fab _ _ _)), blockAt_modBlock_same]
  have hmem : s2.mem = s.mem := report_mem _ _ _
  refine ⟨_, rfl, ?_⟩
  split
  · rw [hblock]
    exact ⟨rfl, rfl, hmem⟩
  · next img _ =>
    rw [blockAt_of_blocks (blockPlan_blocks _ _ _ _), blockPlan_mem,
      blockAt_of_blocks (foldl_keeps (fun s => s.fab.blocks) (fun s (x : SlotEntry) => killSlot_blocks x.id s) _ s2),
      foldl_keeps State.mem (fun s (x : SlotEntry) => killSlot_mem x.id s), hblock]
    exact ⟨rfl, rfl, hmem⟩

theorem execBlockPartialReset_stays (h : (blockAt s d b).resetting = true ∨ (blockAt s d b).wholeFenced = true) : exec (.blockPartialReset d b) s = .next s := if_pos h

theorem execBlockSelfTestDone_stays (h : (blockAt s d b).resetting = false) (pass : Bool) : exec (.blockSelfTestDone d b pass) s = .next s :=
  if_pos (by simp [h])

theorem execBlockSelfTestDone_fails (h : (blockAt s d b).resetting = true) :
    exec (.blockSelfTestDone d b false) s = .next (wholeFence d b (rejoinBlock d b s)) := by
  have hexec : exec (.blockSelfTestDone d b false) s = execBlockSelfTestDone d b false s := rfl
  rw [hexec, execBlockSelfTestDone, if_neg (by simp [h]), if_pos (Bool.not_false)]
  rfl

/-- A Block whose self-test passes is back at once with no base image, at its plan's boundary with one. -/
theorem execBlockSelfTestDone_passes (h : (blockAt s d b).resetting = true) :
    (s.sched.base = none → exec (.blockSelfTestDone d b true) s = .next (rejoinBlock d b s))
      ∧ ∀ img, s.sched.base = some img → ∃ t, exec (.blockSelfTestDone d b true) s = .next t
        ∧ blockAt t d b = { blockAt s d b with rejoinAt := some (boundaryAfter img img.fallbackLead s) } := by
  have hexec : exec (.blockSelfTestDone d b true) s = execBlockSelfTestDone d b true s := rfl
  rw [hexec, execBlockSelfTestDone, if_neg (by simp [h]), if_neg (by simp)]
  refine ⟨fun hb => by rw [hb], fun img hb => ?_⟩
  rw [hb]
  refine ⟨_, rfl, ?_⟩
  dsimp only
  split
  · rw [sendFallback, blockAt_of_blocks (sendNotice_blocks _ _ _), blockAt_modBlock_same]
  · rw [blockAt_modBlock_same]

/-- Settles O57: each unit by the body that fences it; kills leave what the fence wrote. -/
theorem unitsFencedAndSpared : Obligations.UnitsFencedAndSpared := by
  unfold Obligations.UnitsFencedAndSpared
  refine ⟨?refused, ?core, ?block, ?lane, ?channel, ?spare, ?copied, ?reset, ?tested⟩
  case refused =>
    intro p s t ho h
    rw [execUnitFence_passes ho h]
    refine ⟨fun hu => by rw [unitFenceBody_unknown hu]; rfl, fun hu hu' hne hr => by rw [unitFenceBody_restores hu hu' hne hr]; rfl,
      fun hu hr hid => by rw [unitFenceBody_block hu hr, if_pos hid]; rfl, fun hu hid => by rw [unitFenceBody_lane hu, if_pos hid]; rfl,
      fun hu hr hid => by rw [unitFenceBody_channel hu hr, if_pos hid]; rfl⟩
  case core =>
    intro p d b c s t ho h hu hr hid hd hb hc
    have hbody : unitFenceBody 0 p t = coreBody d b c (bitOf (argOf p 21 1) 0) p t := by
      rw [unitFenceBody_block (.inl hu) hr, if_neg (by omega), if_pos hu]
      congr 1 <;> omega
    rw [execUnitFence_passes ho h, hbody]
    exact ⟨fun hf => by rw [coreBody_fenced hf]; rfl, _, rfl, coreBody_fences d b c _ p t⟩
  case block =>
    intro p d b s t ho h hu hr hd hb hd'
    have hbody : unitFenceBody 0 p t = blockBody d b (bitOf (argOf p 21 1) 0) p t := by
      rw [unitFenceBody_block (.inr hu) hr, if_neg (by omega), if_neg (by omega), hd, hb]
    rw [execUnitFence_passes ho h, hbody]
    exact ⟨fun hf => by rw [blockBody_fenced hf]; rfl, _, rfl, blockBody_fences d b _ p t⟩
  case lane =>
    intro p s t ho h hu hid hbits
    rw [execUnitFence_passes ho h, unitFenceBody_lane hu, if_neg (by omega)]
    refine ⟨_, rfl, ?_, ?_⟩
    · rw [dropRecognised_mem, reply_mem, fenceLane_mem]
      split
      · rfl
      · exact requestKill_mem _ _ _ _
    · rw [linkAt_of_links (dropRecognised_links _ _), linkAt_of_links (reply_links _ _ _)]
      exact fenceLane_lists _ _ _ _
  case channel =>
    intro p k c s t ho h hu hr hid hk hc
    have hbody : unitFenceBody 0 p t = channelBody k c (bitOf (argOf p 21 1) 0) p t := by
      rw [unitFenceBody_channel hu hr, if_neg (by omega)]
      congr 1 <;> omega
    rw [execUnitFence_passes ho h, hbody]
    obtain hg | hg | hg | hg := channelBody_gives k c (bitOf (argOf p 21 1) 0) p t
    · exact ⟨_, rfl, .inr (.inr (.inl hg))⟩
    · exact ⟨_, rfl, .inl hg⟩
    · exact ⟨_, rfl, .inr (.inl hg)⟩
    · exact ⟨_, rfl, .inr (.inr (.inr hg))⟩
  case spare =>
    intro k c s
    rw [execHbmSpareStart_eq]
    refine ⟨fun hk hc hu hcopy hdue hlost => ?_, fun h => ?_⟩
    · rw [if_pos ⟨hk, hc⟩, failHbm_copies (by simp [hbmGone, hu, hcopy, hdue, hlost]) hu hcopy hdue]
    · split
      · next hin =>
        rw [failHbm_gone]
        rcases h with h | h | h | h | h | h
        · exact .inl h
        · exact .inr (.inl h)
        · exact .inr (.inr (.inl h))
        · exact .inr (.inr (.inr h))
        · omega
        · omega
      · rfl
  case copied =>
    intro k c s
    refine ⟨fun hc ha => ?_, fun hc ha => ?_, execHbmSpareCopyDone_none⟩
    · rw [execHbmSpareCopyDone_copied hc, if_neg (by simpa using ha)]
    · rw [execHbmSpareCopyDone_copied hc, if_pos (by simp [ha])]
      refine ⟨_, rfl, ?_⟩
      rw [remapHbm_due (c := c) (by simp)]
      exact ⟨rfl, rfl⟩
  case reset =>
    intro d b s
    exact ⟨execBlockPartialReset_resets, execBlockPartialReset_stays⟩
  case tested =>
    intro d b s
    refine ⟨fun hr hw => ?_, fun hr => (execBlockSelfTestDone_passes hr).1, fun img hr => (execBlockSelfTestDone_passes hr).2 img, fun pass hr => execBlockSelfTestDone_stays hr pass⟩
    have hout : blockAt (rejoinBlock d b s) d b = { blockAt s d b with resetting := false, rejoinAt := none } := blockAt_modBlock_same _ _ _ _
    obtain ⟨hblock, hflag⟩ := wholeFence_fences (s := rejoinBlock d b s) (d := d) (b := b) (by rw [hout]; exact hw)
    refine ⟨_, execBlockSelfTestDone_fails hr, ?_, ?_, hflag⟩
    · rw [hblock]
    · rw [hblock, hout]

end Sys2Proof.Machine
end

section
/-! PROOF of O58. The service of a DIMM (15 R406 to R408) and its loss (18 R469; 20 R494). -/

namespace Sys2Proof.Machine

variable {p : Packet} {s t : State} {c : Nat}

theorem ddrAt_of_tier (h : t.tier = s.tier) (c : Nat) : ddrAt t c = ddrAt s c := by rw [ddrAt, h, ddrAt]

@[simp] theorem dimmRecord_tier (c action : Nat) (s : State) : (dimmRecord c action s).tier = s.tier := by simp [dimmRecord]

/-! ### EVACUATE and ADMIT -/

theorem execDimmEvacuate_passes (ho : opcodeOf p = 0x73) (ha : argOf p 21 1 ≠ 2) (h : passes never p s = some t) :
    exec (.dimmEvacuate p) s = .next (dropRecognised p (evacuateBody 0 p t)) :=
  congrArg Host.Outcome.next (serve_passes (by simp [isEvacuate, ho, ha]) h)

theorem execDimmAdmit_passes (ho : opcodeOf p = 0x73) (ha : argOf p 21 1 = 2) (h : passes never p s = some t) :
    exec (.dimmAdmit p) s = .next (dropRecognised p (dimmBody 0 p t)) :=
  congrArg Host.Outcome.next (serve_passes (by simp [isAdmit, ho, ha]) h)

/-- The copies that empty a channel are queued, and nothing else changes. -/
theorem offOps_queueEvacuation (c : Nat) (s : State) : offOps (queueEvacuation c s) = offOps s := by
  have hadd (bytes id kind : Nat) (s : State) : offOps (addOp .evacuate (evacKey c) bytes 0 0 id 0 kind s) = offOps s := rfl
  unfold queueEvacuation
  extract_lets has s1 s2
  have h1 : offOps s1 = offOps s := foldl_keeps offOps (fun _ _ => by rw [apply_ite offOps, hadd, ite_self]) _ _
  have h2 : offOps s2 = offOps s1 := foldl_keeps offOps (fun _ _ => by rw [apply_ite offOps, hadd, ite_self]) _ _
  refine Eq.trans (foldl_keeps offOps (fun _ _ => ?_) _ _) (h2.trans h1)
  rw [apply_ite offOps, hadd, ite_self]

@[simp] theorem ddrAt_queueEvacuation (e c : Nat) (s : State) : ddrAt (queueEvacuation e s) c = ddrAt s c :=
  eq_of_aside offOps (fun s => ddrAt s c) (fun _ => rfl) (offOps_queueEvacuation e s)

@[simp] theorem queueEvacuation_commands (c : Nat) (s : State) : (queueEvacuation c s).commands = s.commands :=
  eq_of_aside offOps State.commands (fun _ => rfl) (offOps_queueEvacuation c s)

@[simp] theorem queueEvacuation_sched (c : Nat) (s : State) : (queueEvacuation c s).sched = s.sched :=
  eq_of_aside offOps State.sched (fun _ => rfl) (offOps_queueEvacuation c s)

/-- EVACUATE's refusals, in their order. -/
theorem evacuateBody_refuses (s : State) :
    (11 < argOf p 20 1 → evacuateBody 0 p s = reply p (bad 0x14) s)
    ∧ (argOf p 20 1 ≤ 11 → argOf p 21 1 ≠ 1 → evacuateBody 0 p s = reply p (bad 0x15) s)
    ∧ (argOf p 20 1 ≤ 11 → argOf p 21 1 = 1 → (dimmBusy s = true ∨ (ddrAt s (argOf p 20 1)).state ≠ 1) → evacuateBody 0 p s = reply p (busy 0xFFFF) s) := by
  unfold evacuateBody
  dsimp only
  refine ⟨fun hc => if_pos hc, fun hc ha => ?_, fun hc ha hb => ?_⟩
  · rw [if_neg (by omega), if_pos ha]
  · rw [if_neg (by omega), if_neg (by omega), if_pos hb]

/-- EVACUATE under an active image: the channel empties while the command waits. -/
theorem evacuateBody_empties (hc : argOf p 20 1 = c) (hc' : c ≤ 11) (ha : argOf p 21 1 = 1) (hb : dimmBusy s = false) (hs : (ddrAt s c).state = 1)
    (himg : s.sched.active ≠ none) : evacuateBody 0 p s = queueEvacuation c (modDdr c (fun d => { d with state := 2 }) (accept p (.dimm c) s)) := by
  unfold evacuateBody
  dsimp only
  rw [hc, if_neg (by omega), if_neg (by omega), if_neg (by simp [hb, hs])]
  refine if_neg ?_
  simpa [modDdr] using himg

/-- ADMIT's refusals, and the channel it powers. -/
theorem dimmBody_cases (hc : argOf p 20 1 = c) (s : State) :
    (11 < c → dimmBody 0 p s = reply p (bad 0x14) s)
    ∧ (c ≤ 11 → (dimmBusy s = true ∨ (ddrAt s c).state ≠ 3) → dimmBody 0 p s = reply p (busy 0xFFFF) s)
    ∧ (c ≤ 11 → dimmBusy s = false → (ddrAt s c).state = 3 →
      dimmBody 0 p s = modDdr c (fun d => { d with state := 4, pwrEn := true, stage := 1 }) (accept p (.dimm c) s)) := by
  unfold dimmBody
  dsimp only
  rw [hc]
  refine ⟨fun h => if_pos h, fun h hb => ?_, fun h hb hs => ?_⟩
  · rw [if_neg (by omega), if_pos hb]
  · rw [if_neg (by omega), if_neg (by simp [hb, hs])]

/-! ### Detection, training, scrub (15 R407) -/

/-- A service that fails leaves the channel OFF and answers its command. -/
theorem dimmFails_off (c : Nat) (s : State) :
    (ddrAt (dimmFails c s) c).state = 3 ∧ (ddrAt (dimmFails c s) c).pwrEn = false ∧ commandOf (dimmFails c s) (.dimm c) = none := by
  have hddr : ddrAt (dimmFails c s) c = { ddrAt s c with state := 3, pwrEn := false, stage := 0 } := by
    rw [dimmFails, ddrAt_of_tier (finish_tier _ _ _), ddrAt_of_tier (dimmRecord_tier _ _ _), ddrAt_modDdr_same]
  rw [hddr]
  exact ⟨rfl, rfl, commandOf_finish _ _ _⟩

section
variable (h4 : (ddrAt s c).state = 4)
include h4

theorem execDimmSpdRead_stage (h1 : (ddrAt s c).stage = 1) (n : Nat) (good : Bool) :
    exec (.dimmSpdRead c n good) s = .next (if good ∧ 0 < n ∧ n ≤ 256 then modDdr c (fun d => { d with stage := 2, sizeGiB := n }) s else dimmFails c s) :=
  congrArg Host.Outcome.next (if_pos ⟨h4, h1⟩)

/-- A channel that has been trained: its key is drawn while a tenant is bound. -/
theorem execDimmTrainDone_stage (h2 : (ddrAt s c).stage = 2) :
    exec (.dimmTrainDone c true) s = .next (if s.sec.bound then
        { (draw (modDdr c (fun d => { d with stage := 3 }) s)).2 with
          secw := { s.secw with channelKeys := FMap.put s.secw.channelKeys c (draw s).1 } }
      else modDdr c (fun d => { d with stage := 3 }) s)
    ∧ exec (.dimmTrainDone c false) s = .next (dimmFails c s) :=
  ⟨congrArg Host.Outcome.next (if_pos ⟨h4, h2⟩), congrArg Host.Outcome.next (if_pos ⟨h4, h2⟩)⟩

theorem execDimmScrubDone_joins (h3 : (ddrAt s c).stage = 3) :
    ∃ t, exec (.dimmScrubDone c) s = .next t ∧ (ddrAt t c).state = 1 ∧ t.tier.t2Total = s.tier.t2Total + (ddrAt s c).sizeGiB * 1024 ∧ commandOf t (.dimm c) = none := by
  refine ⟨_, congrArg Host.Outcome.next (if_pos ⟨h4, h3⟩), ?_, ?_, commandOf_finish _ _ _⟩
  · rw [ddrAt_of_tier (finish_tier _ _ _), ddrAt_of_tier (dimmRecord_tier _ _ _)]
    simp [ddrAt, modDdr]
  · rw [finish_tier, dimmRecord_tier]
    rfl

end

theorem execDimmStages_stay (s : State) :
    (∀ n good, ((ddrAt s c).state ≠ 4 ∨ (ddrAt s c).stage ≠ 1) → exec (.dimmSpdRead c n good) s = .next s)
      ∧ (∀ good, ((ddrAt s c).state ≠ 4 ∨ (ddrAt s c).stage ≠ 2) → exec (.dimmTrainDone c good) s = .next s)
      ∧ (((ddrAt s c).state ≠ 4 ∨ (ddrAt s c).stage ≠ 3) → exec (.dimmScrubDone c) s = .next s) :=
  ⟨fun _ _ h => congrArg Host.Outcome.next (if_neg (not_and_or.2 h)), fun _ h => congrArg Host.Outcome.next (if_neg (not_and_or.2 h)),
    fun h => congrArg Host.Outcome.next (if_neg (not_and_or.2 h))⟩

/-! ### A channel lost, or its controller reset (18 R469; 20 R494) -/

theorem channelLost_off (c : Nat) (s : State) : (ddrAt (channelLost c s) c).state = 3 ∧ (ddrAt (channelLost c s) c).pwrEn = false := by
  unfold channelLost
  dsimp only
  rw [ddrAt_of_tier (finish_tier _ _ _), ddrAt_modDdr_same]
  exact ⟨rfl, rfl⟩

theorem execDdrControllerReset_restarts (h : (ddrAt s c).state = 1 ∨ (ddrAt s c).state = 2) :
    ∃ t, exec (.ddrControllerReset c) s = .next t ∧ (ddrAt t c).restarting = true ∧ t.slots = s.slots ∧ t.mem = s.mem := by
  refine ⟨_, congrArg Host.Outcome.next (if_pos h), ?_, report_slots _ _ _, report_mem _ _ _⟩
  rw [ddrAt_of_tier (report_tier _ _ _)]
  simp [ddrAt, modDdr]

theorem execDdrControllerRestartEnd_eq (c : Nat) (inTime : Bool) (s : State) :
    exec (.ddrControllerRestartEnd c inTime) s = .next (if (ddrAt s c).restarting then
      (if inTime then modDdr c (fun d => { d with restarting := false }) s else channelLost c s) else s) := rfl

theorem execDdrPresenceChange_eq (c : Nat) (present : Bool) (s : State) :
    exec (.ddrPresenceChange c present) s = .next (if 11 < c then s
      else if (ddrAt s c).state = 0 then modDdr c (fun d => { d with state := 3 }) s
      else if !present ∧ ((ddrAt s c).state = 1 ∨ (ddrAt s c).state = 2 ∨ (ddrAt s c).state = 4) then channelLost c s
      else s) := rfl

theorem execDdrPgRelease_eq (c : Nat) (s : State) : exec (.ddrPgRelease c) s = .next (if (ddrAt s c).pwrEn then channelLost c s else s) := rfl

/-- Settles O58: the states of a channel one row at a time; a channel's record and its command's reply leave its state. -/
theorem dimmsServed : Obligations.DimmsServed := by
  unfold Obligations.DimmsServed
  refine ⟨?evacuate, ?admission, ?spd, ?train, ?scrub, ?reset, ?restart, ?presence, ?power⟩
  case evacuate =>
    intro p s t ho ha h
    rw [execDimmEvacuate_passes ho ha h]
    obtain ⟨hrange, haction, hbusy⟩ := evacuateBody_refuses (p := p) t
    refine ⟨fun hc => by rw [hrange hc]; rfl, fun hc hact => by rw [haction hc hact]; rfl, fun hc hact hb => by rw [hbusy hc hact hb]; rfl, fun hc hact hb hs himg => ?_⟩
    rw [evacuateBody_empties rfl hc hact hb hs himg]
    refine ⟨_, rfl, ?_, ?_, ?_⟩
    · rw [ddrAt_of_tier (dropRecognised_tier _ _), ddrAt_queueEvacuation, ddrAt_modDdr_same]
    · rw [dropRecognised_commandOf, commandOf, queueEvacuation_commands]
      exact commandOf_accept p (.dimm (argOf p 20 1)) t
    · rw [dropRecognised_mem, queueEvacuation_mem]
      exact accept_mem p (.dimm (argOf p 20 1)) t
  case admission =>
    intro p c s t ho ha h hc
    rw [execDimmAdmit_passes ho ha h]
    obtain ⟨hrange, hbusy, hpower⟩ := dimmBody_cases hc t
    refine ⟨fun hc => by rw [hrange hc]; rfl, fun hc hb => by rw [hbusy hc hb]; rfl, fun hc hb hs => ?_⟩
    rw [hpower hc hb hs]
    refine ⟨_, rfl, ?_, commandOf_accept p (.dimm c) t, accept_mem p (.dimm c) t⟩
    rw [ddrAt_of_tier (dropRecognised_tier _ _), ddrAt_modDdr_same, ddrAt_of_tier (accept_tier _ _ _)]
  case spd =>
    intro c n good s
    refine ⟨fun h4 h1 hn hn' => ?_, fun h4 h1 hbad => ?_, (execDimmStages_stay s).1 n good⟩
    · rw [execDimmSpdRead_stage h4 h1, if_pos ⟨rfl, hn, hn'⟩]
    · rw [execDimmSpdRead_stage h4 h1, if_neg (fun ⟨hg, hn, hn'⟩ => by rcases hbad with rfl | hbad | hbad; exacts [absurd hg (by simp), by omega, by omega])]
      exact ⟨_, rfl, dimmFails_off c s⟩
  case train =>
    intro c good s
    refine ⟨fun h4 h2 hb => ?_, fun h4 h2 hb => ?_, fun h4 h2 => ?_, (execDimmStages_stay s).2.1 good⟩
    · rw [(execDimmTrainDone_stage h4 h2).1, if_neg (by simp [hb])]
    · rw [(execDimmTrainDone_stage h4 h2).1, if_pos hb]
      refine ⟨_, rfl, ?_, ?_, rfl, rfl⟩
      · simp [ddrAt, modDdr]
      exact fun h => Option.some_ne_none _ ((FMap.get?_put_same _ _ _).symm.trans h)
    · exact ⟨_, (execDimmTrainDone_stage h4 h2).2, dimmFails_off c s⟩
  case scrub =>
    intro c s
    exact ⟨fun h4 h3 => execDimmScrubDone_joins h4 h3, (execDimmStages_stay s).2.2⟩
  case reset =>
    intro c s
    exact ⟨execDdrControllerReset_restarts, fun h1 h2 => congrArg Host.Outcome.next (if_neg (by omega))⟩
  case restart =>
    intro c ok_ s
    refine ⟨fun h => by rw [execDdrControllerRestartEnd_eq, if_pos h, if_pos rfl], fun h => ?_, fun h => by rw [execDdrControllerRestartEnd_eq, if_neg (by simp [h])]⟩
    rw [execDdrControllerRestartEnd_eq, if_pos h, if_neg (by simp)]
    exact ⟨_, rfl, channelLost_off c s⟩
  case presence =>
    intro c here s
    refine ⟨fun hc h0 => ?_, fun hc hs => ?_, fun h => ?_, fun h => ?_⟩ <;> rw [execDdrPresenceChange_eq]
    · rw [if_neg (by omega), if_pos h0]
    · rw [if_neg (by omega), if_neg (by omega), if_pos ⟨rfl, hs⟩]
      exact ⟨_, rfl, channelLost_off c s⟩
    · rcases h with hc | h3
      · rw [if_pos hc]
      · simp [h3]
    · simp [h]
  case power =>
    intro c s
    refine ⟨fun h => ?_, fun h => by rw [execDdrPgRelease_eq, if_neg (by simp [h])]⟩
    rw [execDdrPgRelease_eq, if_pos h]
    exact ⟨_, rfl, channelLost_off c s⟩

end Sys2Proof.Machine
end

section
/-! PROOF of O59. Correctable and uncorrectable errors (15 R401, R402) and ledger recall (15 R403). -/

namespace Sys2Proof.Machine

variable {s t : State} {slot : Nat}

/-! ### While an image is in force -/

/-- A later state has the same image in force, and while there is one every byte of memory as it was: frames return at the next boundary. -/
structure Imaged (s t : State) : Prop where
  active : t.sched.active = s.sched.active
  mem : s.sched.active ≠ none → t.mem = s.mem

namespace Imaged

theorem refl (s : State) : Imaged s s := ⟨rfl, fun _ => rfl⟩

theorem trans {u : State} (h : Imaged s t) (k : Imaged t u) : Imaged s u :=
  ⟨k.active.trans h.active, fun ha => (k.mem (h.active ▸ ha)).trans (h.mem ha)⟩

theorem of_eq (hs : t.sched = s.sched) (hm : t.mem = s.mem) : Imaged s t := ⟨by rw [hs], fun _ => hm⟩

theorem of_beside (h : Beside slot s t) : Imaged s t := ⟨h.active, h.mem⟩

theorem withdraw (h : Nat) (s : State) : Imaged s (withdraw h s) := ⟨by rw [withdraw_sched], fun _ => withdraw_mem h s⟩

theorem framesDue (l : List Nat) (s : State) : Imaged s (framesDue l s) := of_beside (slot := 0) (Beside.framesDue l s)

theorem returnScratch (slot : Nat) (s : State) : Imaged s (returnScratch slot s) := (framesDue _ s).trans (of_eq rfl rfl)

theorem report (code : Nat) (body : Bytes) (s : State) : Imaged s (report code body s) := of_eq (report_sched _ _ _) (report_mem _ _ _)

theorem finish (w : Work) (a : Ans) (s : State) : Imaged s (finish w a s) := of_eq (finish_sched _ _ _) (finish_mem _ _ _)

theorem reportCandidate (slot : Nat) (cand : Bool) (s : State) : Imaged s (reportCandidate slot cand s) := of_beside (Beside.reportCandidate cand s)

theorem endEmptyReplay (slot : Nat) (s : State) : Imaged s (endEmptyReplay slot s) := by
  unfold Machine.endEmptyReplay
  dsimp only
  split
  · exact (of_eq rfl rfl : Imaged s (replayDone slot s)).trans (reportCandidate _ _ _)
  · exact refl s

theorem enterRebuilding (slot : Nat) (s : State) : Imaged s (enterRebuilding slot s) := by
  unfold Machine.enterRebuilding
  extract_lets x h f cause s1 s2 s3 s4 s5 _ _ s6 s7 s8 s9 s10
  split
  · have h3 : Imaged s s3 := ((of_eq rfl rfl : Imaged s s1).trans (withdraw h s1)).trans (framesDue _ s2)
    have h7 : Imaged s s7 := h3.trans ((of_eq rfl rfl : Imaged s3 s6).trans (report _ _ s6))
    have h10 : Imaged s7 s10 := ((finish _ _ s7).trans (finish _ _ s8)).trans (finish _ _ s9)
    exact (h7.trans h10).trans ((reportCandidate _ _ _).trans (endEmptyReplay _ _))
  · exact refl s

theorem badFrame (addr : Nat) (s : State) : Imaged s (badFrame addr s) := by
  refine foldl_induct (Imaged s) (fun t slot h => h.trans (enterRebuilding slot t)) _ ?_
  unfold spoilPage
  split <;> exact of_eq rfl rfl

theorem badT1 (addr : Nat) (s : State) : Imaged s (badT1 addr s) := (badFrame addr s).trans (of_eq rfl rfl)

end Imaged

/-! ### A session that is lost (03 R89) -/

/-- A session lost with its ledger is LOST; the tier's settings stand. -/
theorem loseSession_lost (h0 : (sessionAt s slot).d.state ≠ 0) (h5 : (sessionAt s slot).d.state ≠ 5) :
    (sessionAt (loseSession slot s) slot).d.state = 6 ∧ (loseSession slot s).tier.set = s.tier.set ∧ Imaged s (loseSession slot s) := by
  unfold loseSession
  extract_lets x h s1 s2 done a s3 s4 s5 s6 s7 s8 s9 _ _ s10
  rw [if_neg (not_or.2 ⟨h0, h5⟩)]
  have h9 : (sessionAt s9 slot).d.state = 6 ∧ s9.tier = (returnScratch slot s7).tier ∧ s9.sched = (returnScratch slot s7).sched ∧ s9.mem = (returnScratch slot s7).mem := by
    unfold s9 s8 setState
    rw [sessionAt_modSession_same, modSession_tier, modSession_tier, modSession_sched, modSession_sched, modSession_mem, modSession_mem]
    exact ⟨rfl, rfl, rfl, rfl⟩
  obtain ⟨hstate, htier, hsched, hmem⟩ := h9
  clear_value s9
  refine ⟨?_, ?_, ?_⟩
  · rw [sessionAt_of_table (congrArg Slots.table (report_slots _ _ s10)) slot]
    exact hstate
  · have hset : s7.tier.set = s2.tier.set := by simp only [s7, s6, s5, s4, s3, finish_tier]
    calc (report 0x502 _ s10).tier.set = s9.tier.set := by rw [report_tier]
      _ = s7.tier.set := by rw [htier, returnScratch_set]
      _ = s.tier.set := by rw [hset, framesDue_set, withdraw_tier]
  · have h2 : Imaged s s2 := (Imaged.withdraw h s).trans (.framesDue _ s1)
    have h7 : Imaged s2 s7 := ((((Imaged.finish _ _ s2).trans (.finish _ _ s3)).trans (.finish _ _ s4)).trans (.finish _ _ s5)).trans (.finish _ _ s6)
    have h9 : Imaged s7 s9 := (Imaged.returnScratch slot s7).trans (.of_eq hsched hmem)
    have h10 : Imaged s9 s10 := .of_eq rfl rfl
    exact ((h2.trans h7).trans (h9.trans h10)).trans (.report _ _ s10)

/-! ### Correctable errors (15 R401) -/

/-- The number of a memory's row in the list of rows that showed an error. -/
def rowKey (memory row : Nat) : Nat := memory * 2 ^ 32 + row

section
variable {memory row : Nat}

theorem execCorrectableError_first (hm : memory ≤ 5) (h : ∀ b, FMap.get? s.tier.rows (rowKey memory row) = some b → b + 1000000 < s.cad.beat) :
    exec (.correctableError memory row) s = .next { s with tier := { s.tier with rows := FMap.put s.tier.rows (rowKey memory row) s.cad.beat } } := by
  change execCorrectableError memory row s = _
  simp only [execCorrectableError, if_neg (Nat.not_lt.2 hm)]
  split
  · next b hb => rw [if_neg (Nat.not_le.2 (h b hb))]; rfl
  · rfl

/-- A second error of a row soon after the first: forgotten, and spared now, at the next boundary, or at the next device reset. -/
theorem execCorrectableError_second {b : Nat} (hm : memory ≤ 5) (h : FMap.get? s.tier.rows (rowKey memory row) = some b) (hb : s.cad.beat ≤ b + 1000000) :
    exec (.correctableError memory row) s = .next (if memory ≤ 3 then
        (if s.sched.active.isNone then { s with tier := { s.tier with rows := FMap.del s.tier.rows (rowKey memory row), rowsSpared := s.tier.rowsSpared ++ [(memory, row)] } }
         else { s with tier := { s.tier with rows := FMap.del s.tier.rows (rowKey memory row), rowsDue := s.tier.rowsDue ++ [(memory, row)] } })
      else { s with
        tier := { s.tier with rows := FMap.del s.tier.rows (rowKey memory row) }
        svc := { s.svc with repairs := if s.svc.repairs.contains (memory, row) then s.svc.repairs else s.svc.repairs ++ [(memory, row)] } }) := by
  unfold rowKey at h
  change execCorrectableError memory row s = _
  simp only [execCorrectableError, if_neg (Nat.not_lt.2 hm), h, if_pos hb]
  rfl

theorem execCorrectableError_other (hm : 5 < memory) : exec (.correctableError memory row) s = .next s := congrArg Host.Outcome.next (if_pos hm)

end

/-! ### Uncorrectable errors (15 R402) -/

theorem execUncorrectableError_eq (e : ErrorPlace) (s : State) : exec (.uncorrectableError e) s = .next (uncorrectable e s) := rfl

@[simp] theorem uncorrRecord_slots (kind number addr : Nat) (s : State) : (uncorrRecord kind number addr s).slots = s.slots := by simp [uncorrRecord]
@[simp] theorem uncorrRecord_tier (kind number addr : Nat) (s : State) : (uncorrRecord kind number addr s).tier = s.tier := by simp [uncorrRecord]

theorem Imaged.uncorrRecord (kind number addr : Nat) (s : State) : Imaged s (uncorrRecord kind number addr s) :=
  .of_eq (uncorrRecord_sched _ _ _ _) (uncorrRecord_mem _ _ _ _)

theorem badT1_retires (addr : Nat) (s : State) : addr ∈ (badT1 addr s).tier.retired := by
  unfold badT1
  dsimp only
  split
  · next h => simpa using h
  · simp

theorem FlagsStay.badT1 (addr : Nat) (s : State) : FlagsStay s (badT1 addr s) := (FlagsStay.badFrame addr (.refl s)).trans (.of_eq rfl)

/-- One copy of a segment is written anew, and only that copy. -/
theorem rewriteCopy_rewrites {n : Nat} {g : Segment} (h : FMap.get? s.slots.segments n = some g) (second : Bool) (avoid : List Nat) :
    (getFlag (rewriteCopy n second avoid s) offTierEvents 6).on = true ∧ (rewriteCopy n second avoid s).slots.table = s.slots.table
      ∧ (rewriteCopy n second avoid s).mem = s.mem ∧ (rewriteCopy n second avoid s).tier = s.tier
      ∧ ∃ k, FMap.get? (rewriteCopy n second avoid s).slots.segments n = some k ∧ (if second then k.first = g.first else k.second = g.second) := by
  unfold rewriteCopy
  rw [h]
  dsimp only
  rw [setFlag_slots, setFlag_mem, setFlag_tier]
  refine ⟨setFlag_on _ _ _, rfl, rfl, rfl, _, FMap.get?_put_same _ _ _, ?_⟩
  cases second <;> exact rfl

theorem restoreHeader_session (slot : Nat) (h : t.slots.table = s.slots.table) : sessionAt (restoreHeader slot t) slot = sessionAt (restoreHeader slot s) slot := by
  rw [restoreHeader, restoreHeader, sessionAt_modSession_same, sessionAt_modSession_same, sessionAt_of_table h]

theorem restoreHeader_state (slot : Nat) (s : State) : (sessionAt (restoreHeader slot s) slot).d.state = (sessionAt s slot).d.state := by
  rw [restoreHeader, sessionAt_modSession_same]
  split <;> rfl

/-- A descriptor restored from the header: the session replays. -/
theorem uncorrectable_descriptor (hst : (sessionAt s slot).d.state = 1 ∨ (sessionAt s slot).d.state = 2 ∨ (sessionAt s slot).d.state = 3)
    (hstop : 0 < replayStop (sessionAt (restoreHeader slot s) slot)) :
    (sessionAt (uncorrectable (.descriptor slot) s) slot).d.state = 7 ∧ (sessionAt (uncorrectable (.descriptor slot) s) slot).pages = [] := by
  have hx : sessionAt (restoreHeader slot (uncorrRecord 0 0 slot s)) slot = sessionAt (restoreHeader slot s) slot :=
    restoreHeader_session slot (congrArg Slots.table (uncorrRecord_slots _ _ _ _))
  obtain ⟨now, b, h⟩ := enterRebuilding_session (s := restoreHeader slot (uncorrRecord 0 0 slot s)) (slot := slot)
    (by rw [hx, restoreHeader_state]; exact hst) (by rw [hx]; exact hstop)
  rw [uncorrectable, h]
  exact ⟨rfl, rfl⟩

/-! ### Ledger recall (15 R403) -/

theorem endEmptyReplay_tier (slot : Nat) (s : State) : (endEmptyReplay slot s).tier = s.tier := by
  unfold endEmptyReplay
  dsimp only
  split
  · rw [(reportCandidate_keeps _ _ _).2.1]
    rfl
  · rfl

/-- What software recalled moves no tail. -/
theorem takeRecalled_recallTail (e : Nat × Nat × Run × Bool) (s : State) : (takeRecalled e s).tier.set.recallTail = s.tier.set.recallTail := by
  unfold takeRecalled
  split
  · rw [setFlag_tier]
  split
  · rw [setFlag_tier]
  split
  · rw [setFlag_tier]
  dsimp only
  split
  · rw [endEmptyReplay_tier, (reportCandidate_keeps _ _ _).2.1]
  · rfl

section
variable {v : Word64} (found : List (Nat × Nat × Run × Bool))

theorem execRecallTailWrite_outside (h : v.toNat < s.tier.set.recallTail ∨ s.tier.set.recallHead + s.tier.set.recallSize < v.toNat) :
    exec (.recallTailWrite v found) s = .next (setFlag offMgmtEvents 1 s) := congrArg Host.Outcome.next (if_pos h)

theorem execRecallTailWrite_inside (h : s.tier.set.recallTail ≤ v.toNat) (h' : v.toNat ≤ s.tier.set.recallHead + s.tier.set.recallSize) :
    ∃ t, exec (.recallTailWrite v found) s = .next t ∧ t.tier.set.recallTail = v.toNat ∧ t.tier.set.recallHead = v.toNat
      ∧ (found = [] → t = { s with tier := { s.tier with set := { s.tier.set with recallTail := v.toNat, recallHead := v.toNat } } }) :=
  ⟨_, congrArg Host.Outcome.next (if_neg (by omega)), foldl_keeps (fun s : State => s.tier.set.recallTail) (fun s e => takeRecalled_recallTail e s) found _, rfl,
    fun hf => by rw [hf]; rfl⟩

end

theorem execRecallTimeout_eq (slot : Nat) (s : State) : exec (.recallTimeout slot) s = .next (match FMap.get? s.tier.set.recalls slot with
    | none => s
    | some _ => loseSession slot { s with tier := { s.tier with set := { s.tier.set with recalls := FMap.del s.tier.set.recalls slot } } }) := rfl

/-- Settles O59: each place's error by what firmware does there; while an image is in force no byte of memory moves. -/
theorem memoryErrorsHandled : Obligations.MemoryErrorsHandled := by
  unfold Obligations.MemoryErrorsHandled
  refine ⟨?correctable, ?frame, ?segment, ?descriptor, ?flags, ?recorded, ?outside, ?inside, ?timeout⟩
  case correctable =>
    intro memory row s
    refine ⟨fun hm h => execCorrectableError_first hm h, fun b hm h hb => ⟨_, execCorrectableError_second hm h hb, ?_⟩, execCorrectableError_other⟩
    by_cases h3 : memory ≤ 3
    · rw [if_pos h3]
      cases ha : s.sched.active with
      | none => exact ⟨rfl, rfl, fun _ _ => rfl, fun _ h => absurd rfl h, fun h => absurd h3 (Nat.not_le.2 h)⟩
      | some img => exact ⟨rfl, rfl, fun _ h => absurd h (Option.some_ne_none _), fun _ _ => ⟨rfl, rfl⟩, fun h => absurd h3 (Nat.not_le.2 h)⟩
    · rw [if_neg h3]
      refine ⟨rfl, rfl, fun h => absurd h h3, fun h => absurd h h3, fun _ => ⟨?_, rfl⟩⟩
      dsimp only
      split
      · next h => simpa using h
      · simp
  case frame =>
    intro a s
    exact ⟨_, execUncorrectableError_eq _ s, badT1_retires a _, ((Imaged.uncorrRecord 0 0 a s).trans (.badT1 a _)).mem⟩
  case segment =>
    intro n copy g s h
    obtain ⟨hflag, htable, hmem, htier, k, hk, hcopy⟩ := rewriteCopy_rewrites (s := uncorrRecord 5 ((FMap.get? s.slots.segments n).elim 0 (fun g => if copy = 1 then g.second else g.first)) n s)
      (n := n) (g := g) (by rw [uncorrRecord_slots]; exact h) (copy == 1) [(FMap.get? s.slots.segments n).elim 0 (fun g => if copy = 1 then g.second else g.first)]
    rw [uncorrRecord_slots] at htable
    rw [uncorrRecord_mem] at hmem
    rw [uncorrRecord_tier] at htier
    exact ⟨_, execUncorrectableError_eq _ s, hflag, htable, hmem, htier, k, hk, by simpa using hcopy⟩
  case descriptor =>
    intro slot s hst hstop
    exact ⟨_, execUncorrectableError_eq _ s, uncorrectable_descriptor hst hstop⟩
  case flags =>
    intro a s
    refine ⟨⟨_, execUncorrectableError_eq _ s, FlagsStay.badFrame a (.refl _) _ _ (setFlag_on _ _ _)⟩, _, execUncorrectableError_eq _ s, ?_⟩
    unfold uncorrectable
    dsimp only
    split
    · exact FlagsStay.badT1 _ _ _ _ (setFlag_on _ _ _)
    · exact setFlag_on _ _ _
  case recorded =>
    intro slot e s he
    have hrecord : ∃ number, uncorrectable e s = uncorrRecord 0 0 number s := by rcases he with rfl | rfl | rfl <;> exact ⟨_, rfl⟩
    obtain ⟨number, hrecord⟩ := hrecord
    refine ⟨_, execUncorrectableError_eq e s, ?_⟩
    rw [hrecord]
    exact ⟨uncorrRecord_slots _ _ _ _, uncorrRecord_tier _ _ _ _, uncorrRecord_fab _ _ _ _, uncorrRecord_sched _ _ _ _, uncorrRecord_mem _ _ _ _⟩
  case outside => exact fun v found s h => execRecallTailWrite_outside found h
  case inside => exact fun v found s h h' => execRecallTailWrite_inside found h h'
  case timeout =>
    intro slot s
    refine ⟨fun l hl h7 => ?_, fun hn => by rw [execRecallTimeout_eq, hn]⟩
    have hx : (sessionAt { s with tier := { s.tier with set := { s.tier.set with recalls := FMap.del s.tier.set.recalls slot } } } slot).d.state = 7 := h7
    obtain ⟨hstate, hset, himaged⟩ := loseSession_lost (by rw [hx]; decide) (by rw [hx]; decide)
    refine ⟨_, by rw [execRecallTimeout_eq, hl], hstate, congrArg TierSet.recalls hset, himaged.mem⟩

end Sys2Proof.Machine
end

section
/-! PROOF of O38. Checkpoints: CHECKPOINT_BEGIN (16 R420), CHECKPOINT_SHARD (16 R425), the hold time (16 R427) and DIGEST (16 R429). -/

namespace Sys2Proof.Machine

variable {p : Packet} {s t : State} {part : Nat}

/-! ### The checkpoint of a partition -/

theorem checkpointOf_some {c : Checkpoint} (h : checkpointOf s part = some c) : c.partition = part ∧ c.ending = false := by
  simpa using List.find?_some h

/-- A change that leaves the partition of a checkpoint, and does not end it, is what the partition's checkpoint reads. -/
theorem checkpointOf_modCheckpoint {f : Checkpoint → Checkpoint} (hp : ∀ c, (f c).partition = c.partition) (he : ∀ c, (f c).ending = c.ending) (s : State) :
    checkpointOf (modCheckpoint part f s) part = (checkpointOf s part).map f := by
  have hsame : (fun c : Checkpoint => c.partition == part && !c.ending) ∘ (fun c => if c.partition = part ∧ !c.ending then f c else c)
      = fun c => c.partition == part && !c.ending := by
    funext c
    simp only [Function.comp]
    split <;> simp [hp, he]
  change List.find? _ (List.map _ _) = _
  rw [List.find?_map, hsame]
  cases h : s.saves.checkpoints.find? (fun c => c.partition == part && !c.ending) with
  | none => simp [checkpointOf, h]
  | some c =>
    obtain ⟨hc, hne⟩ := checkpointOf_some h
    simp [checkpointOf, h, hc, hne]

theorem checkpointOf_eq_none (h : ∀ c ∈ s.saves.checkpoints, c.partition = part → c.ending = true) : checkpointOf s part = none := by
  refine List.find?_eq_none.2 fun c hc => ?_
  simpa using h c hc

/-! ### The end of a checkpoint (16 R422) -/

@[simp] theorem putFrame_ops (a : Nat) (f : Frame) (s : State) : (putFrame a f s).tier.ops = s.tier.ops := by
  unfold putFrame
  split <;> rfl

@[simp] theorem dropFrame_ops (a : Nat) (s : State) : (dropFrame a s).tier.ops = s.tier.ops := by
  unfold dropFrame
  split
  · rfl
  split
  · exact putFrame_ops _ _ s
  split
  · exact putFrame_ops _ _ s
  · dsimp only
    split <;> rfl

/-- Holds that are given up free frames; the checkpoints that go on stay, and so do commands and the Mover's operations. -/
theorem releaseHolds_keeps (s : State) : (releaseHolds s).saves.checkpoints = s.saves.checkpoints.filter (fun c => !c.ending)
    ∧ (releaseHolds s).commands = s.commands ∧ (releaseHolds s).tier.ops = s.tier.ops := by
  unfold releaseHolds
  extract_lets _ s1 gone
  have hframes : offFrames (gone.foldl (fun s a => dropFrame a s) s1) = offFrames s1 := foldl_keeps offFrames (fun s a => offFrames_dropFrame a s) gone s1
  exact ⟨eq_of_aside offFrames (fun s => s.saves.checkpoints) (fun _ => rfl) hframes, (eq_of_aside offFrames State.commands (fun _ => rfl) hframes : _ = s1.commands),
    foldl_keeps (fun s : State => s.tier.ops) (fun s a => dropFrame_ops a s) gone s1⟩

/-- A partition whose checkpoint has ended has none. -/
theorem endCheckpoint_ends (part : Nat) (s : State) : checkpointOf (endCheckpoint part s) part = none
    ∧ (endCheckpoint part s).commands = s.commands ∧ (endCheckpoint part s).tier.ops = s.tier.ops ∧ (s.sched.active ≠ none → (endCheckpoint part s).mem = s.mem) := by
  have hended : ∀ c ∈ (modCheckpoint part (fun c => { c with ending := true }) s).saves.checkpoints, c.partition = part → c.ending = true := by
    intro c hc hp
    obtain ⟨c', -, rfl⟩ := List.mem_map.1 hc
    by_cases h : c'.partition = part ∧ !c'.ending
    · simp [h]
    · simp only [h, if_false] at hp ⊢
      simpa [hp] using h
  unfold endCheckpoint
  dsimp only
  split
  · next ha =>
    obtain ⟨hsaves, hcommands, hops⟩ := releaseHolds_keeps (modCheckpoint part (fun c => { c with ending := true }) s)
    refine ⟨checkpointOf_eq_none fun c hc => hended c ?_, hcommands, hops, fun h => absurd (Option.isNone_iff_eq_none.1 ha) h⟩
    rw [hsaves] at hc
    exact (List.mem_filter.1 hc).1
  · exact ⟨checkpointOf_eq_none hended, rfl, rfl, fun _ => rfl⟩

theorem abandonCheckpoint_eq {c : Checkpoint} (h : checkpointOf s part = some c) : ∃ a, abandonCheckpoint part s
    = endCheckpoint part (dropOps (fun o => o.slot == shardKey part) (finish (.shardOut part) a (finish (.checkpoint part) { status := stCANCELLED } s))) :=
  ⟨_, by rw [abandonCheckpoint, h]⟩

/-- A checkpoint abandoned: its commands are answered, its operation is gone (16 R427). -/
theorem abandonCheckpoint_abandons {c : Checkpoint} (h : checkpointOf s part = some c) :
    checkpointOf (abandonCheckpoint part s) part = none ∧ commandOf (abandonCheckpoint part s) (.shardOut part) = none
      ∧ commandOf (abandonCheckpoint part s) (.checkpoint part) = none ∧ (∀ o ∈ (abandonCheckpoint part s).tier.ops, o.slot ≠ shardKey part)
      ∧ (s.sched.active ≠ none → (abandonCheckpoint part s).mem = s.mem) := by
  obtain ⟨a, he⟩ := abandonCheckpoint_eq h
  obtain ⟨hnone, hcommands, hops, hmem⟩ := endCheckpoint_ends part
    (dropOps (fun o => o.slot == shardKey part) (finish (.shardOut part) a (finish (.checkpoint part) { status := stCANCELLED } s)))
  have hleft : ∀ x ∈ (abandonCheckpoint part s).commands, x.work ≠ .shardOut part ∧ x.work ≠ .checkpoint part := by
    intro x hx
    rw [he, hcommands] at hx
    simp only [dropOps, finish_commands, List.mem_filter] at hx
    obtain ⟨⟨-, hc⟩, hs⟩ := hx
    exact ⟨by simpa using hs, by simpa using hc⟩
  refine ⟨he ▸ hnone, commandOf_eq_none fun x hx => (hleft x hx).1, commandOf_eq_none fun x hx => (hleft x hx).2, fun o ho => ?_, fun ha => ?_⟩
  · rw [he, hops] at ho
    simpa using (List.mem_filter.1 ho).2
  · rw [he, hmem (by simpa [dropOps] using ha), dropOps_mem, finish_mem, finish_mem]

/-! ### CHECKPOINT_BEGIN -/

theorem execCheckpointBegin_passes (ho : opcodeOf p = 0x40) (h : passes never p s = some t) :
    exec (.checkpointBegin p) s = .next (dropRecognised p (checkpointBody 0 p t)) := next_serve_passes ho h

/-- The partition has no ring in an active image. -/
theorem checkpointBody_noRing (h : s.sched.active = none ∨ ringOf s (argOf p 20 1) = none) : checkpointBody 0 p s = reply p (bad 0x14) s := by
  unfold checkpointBody
  dsimp only
  split
  · rfl
  · next img hi =>
    have hr : ringOf s (argOf p 20 1) = none := h.resolve_left (by rw [hi]; exact Option.some_ne_none _)
    rw [hr]
    rfl

/-- With a ring, the checks of the operands and of the device follow in their order. -/
theorem checkpointBody_ring {img : Image} (hi : s.sched.active = some img) (hr : (ringOf s (argOf p 20 1)).isSome = true) :
    checkpointBody 0 p s = if argOf p 21 1 ≠ 0xFF ∧ argOf p 21 1 ≠ 2 then reply p (bad 0x15) s
      else if img.anchor + (paramOf p 0x20 8 + 1) * img.stepBeats < s.cad.beat + 2 * img.stepBeats then reply p (bad 0x20) s
      else if (checkpointOf s (argOf p 20 1)).isSome ∨ !slotsServed s then reply p (busy 0xFFFF) s
      else accept p (.checkpoint (argOf p 20 1)) { s with saves := { s.saves with
        checkpoints := s.saves.checkpoints ++ [{ partition := argOf p 20 1, step := paramOf p 0x20 8, grade := argOf p 21 1, client := p.client }] } } := by
  unfold checkpointBody
  dsimp only
  rw [hi]
  exact if_neg (by rw [Option.isNone_eq_false_iff.2 hr]; decide)

/-! ### CHECKPOINT_SHARD -/

/-- The snapshot a CHECKPOINT_SHARD asks for. -/
def snapshotOf (part step : Nat) (s : State) : Option Checkpoint :=
  s.saves.checkpoints.find? (fun c => c.partition == part && c.snapped && !c.ending && c.step == step)

theorem execCheckpointShard_passes (ho : opcodeOf p = 0x41) (h : passes never p s = some t) :
    exec (.checkpointShard p) s = .next (dropRecognised p (shardBody 0 p t)) := next_serve_passes ho h

theorem shardBody_none (h : snapshotOf (argOf p 20 1) (paramOf p 0x20 8) s = none) : shardBody 0 p s = reply p (bad 0x20) s := by
  unfold snapshotOf at h
  unfold shardBody
  dsimp only
  rw [h]

theorem shardBody_some {c : Checkpoint} (h : snapshotOf (argOf p 20 1) (paramOf p 0x20 8) s = some c) :
    shardBody 0 p s = if bufLen p 0x30 < c.shardMax then reply p { status := stBAD_LENGTH, detail := 0 } s
      else if !slotsReady s ∨ (commandOf s (.shardOut (argOf p 20 1))).isSome then reply p (busy 0xFFFF) s
      else await (.shardOut (argOf p 20 1)) (originOf p s) (addOp .shard (shardKey (argOf p 20 1)) c.body.length 0 0 (bufAddr p 0x30) p.client 4
        (modCheckpoint (argOf p 20 1) (fun c => { c with addr := bufAddr p 0x30, client := p.client }) s)) := by
  unfold snapshotOf at h
  unfold shardBody
  dsimp only
  rw [h]
  rfl

/-! ### DIGEST -/

theorem execShardDigest_none {m : ShardMsg} (h : ∀ c, checkpointOf s m.partition = some c → c.step ≠ m.step ∨ ∃ e ∈ c.collected, e.1 = m.position) :
    exec (.shardDigest m) s = .next s := by
  change execShardDigest m s = _
  unfold execShardDigest
  split
  · rfl
  · next c hc => rw [if_pos (by simpa using h c hc)]

theorem execShardDigest_collects {m : ShardMsg} {c : Checkpoint} (h : checkpointOf s m.partition = some c) (hs : c.step = m.step)
    (hn : ∀ e ∈ c.collected, e.1 ≠ m.position) :
    exec (.shardDigest m) s = .next (closeShard m.partition (modCheckpoint m.partition (fun c => { c with collected := c.collected ++ [(m.position, m.value, m.digest)] }) s)) := by
  change execShardDigest m s = _
  rw [execShardDigest, h]
  have hany : c.collected.any (fun e => e.1 == m.position) = false := List.any_eq_false.2 fun e he => by simpa using hn e he
  exact congrArg Host.Outcome.next (if_neg (by simp only [hs, hany, ne_eq, not_true_eq_false, Bool.false_eq_true, or_self, not_false_eq_true]))

/-- A shard not written, or not asked for, is not closed. -/
theorem closeShard_waits (h : (∀ c, checkpointOf s part = some c → c.written = false) ∨ commandOf s (.shardOut part) = none) : closeShard part s = s := by
  unfold closeShard
  split
  · next c q r k hc _ _ hk =>
    have hw : c.written = false := h.elim (fun h => h c hc) (fun h => absurd (hk.symm.trans h) (Option.some_ne_none _))
    exact if_pos (.inl (by simp [hw]))
  · rfl

/-- The shard stands and every other position's DIGEST has come to position 0: the command is answered, and the checkpoint ends. -/
theorem closeShard_closes {c : Checkpoint} {q : Partition} {r : RingSection} {k : Command} (hc : checkpointOf s part = some c) (hq : partitionAt s part = some q)
    (hr : ringOf s part = some r) (hk : commandOf s (.shardOut part) = some k) (hw : c.written = true)
    (hall : ∀ i, i < r.members.length → i ≠ r.position → ∃ e ∈ c.collected, e.1 = i) :
    checkpointOf (closeShard part s) part = none ∧ commandOf (closeShard part s) (.shardOut part) = none := by
  unfold closeShard
  rw [hc, hq, hr, hk]
  dsimp only
  have hothers : ((List.range r.members.length).filter (fun i => i != r.position)).all (fun i => c.collected.any (fun e => e.1 == i)) = true := by
    refine List.all_eq_true.2 fun i hi => ?_
    obtain ⟨hlt, hne⟩ := List.mem_filter.1 hi
    obtain ⟨e, he, rfl⟩ := hall i (List.mem_range.1 hlt) (by simpa using hne)
    exact List.any_eq_true.2 ⟨e, he, beq_self_eq_true _⟩
  rw [if_neg (by simp [hw, hothers])]
  have hends := fun s => endCheckpoint_ends part s
  refine ⟨(hends _).1, commandOf_eq_none fun x hx => ?_⟩
  rw [(hends _).2.1, finish_commands] at hx
  simpa using (List.mem_filter.1 hx).2

/-- Settles O38: each row by its branches; a checkpoint that ends leaves its partition without one. -/
theorem checkpointBegunAndWritten : Obligations.CheckpointBegunAndWritten := by
  unfold Obligations.CheckpointBegunAndWritten
  refine ⟨?begun, ?shard, ?expiry, ?digest⟩
  case begun =>
    intro p part s t ho h hpart
    subst hpart
    rw [execCheckpointBegin_passes ho h]
    refine ⟨fun hn => by rw [checkpointBody_noRing hn]; rfl, fun img hi hr => ?_⟩
    rw [checkpointBody_ring hi hr]
    refine ⟨fun h1 h2 => by rw [if_pos ⟨h1, h2⟩]; rfl, fun hgrade => ?_⟩
    rw [if_neg (by omega)]
    refine ⟨fun hlate => by rw [if_pos hlate]; rfl, fun htime => ?_⟩
    rw [if_neg (Nat.not_lt.2 htime)]
    exact ⟨fun hb => by rw [if_pos (by simpa using hb)]; rfl, fun hc hserved => by rw [if_neg (by simp [hc, hserved])]; rfl⟩
  case shard =>
    intro p part s t ho h hpart
    subst hpart
    rw [execCheckpointShard_passes ho h]
    refine ⟨fun hn => by rw [shardBody_none hn]; rfl, fun c hc => ?_⟩
    rw [shardBody_some hc]
    refine ⟨fun hl => by rw [if_pos hl]; rfl, fun hl hb => ?_, fun hl hready hcmd => ?_⟩
    · rw [if_neg (Nat.not_lt.2 hl), if_pos (by simpa using hb)]
      rfl
    · rw [if_neg (Nat.not_lt.2 hl), if_neg (by simp [hready, hcmd])]
      refine ⟨_, rfl, ⟨_, List.mem_append_right _ (List.mem_singleton_self _), rfl, rfl, rfl, rfl⟩, ?_, rfl, rfl⟩
      rw [dropRecognised_commandOf]
      simp [commandOf]
  case expiry =>
    intro part s
    refine ⟨fun c hc hs => ⟨_, congrArg Host.Outcome.next (if_pos (by simp [hc, hs])), abandonCheckpoint_abandons hc⟩, fun h => congrArg Host.Outcome.next (if_neg ?_)⟩
    cases hc : checkpointOf s part with
    | none => simp
    | some c => simp [h c hc]
  case digest =>
    intro m s
    refine ⟨execShardDigest_none, fun c hc hs hn => ?_⟩
    have hmod : checkpointOf (modCheckpoint m.partition (fun c => { c with collected := c.collected ++ [(m.position, m.value, m.digest)] }) s) m.partition
        = some { c with collected := c.collected ++ [(m.position, m.value, m.digest)] } := by
      rw [checkpointOf_modCheckpoint (by exact fun _ => rfl) (by exact fun _ => rfl), hc]
      rfl
    rw [execShardDigest_collects hc hs hn]
    refine ⟨fun hw => ?_, fun q r hw hk hq hr h0 hall => ⟨_, rfl, ?_⟩⟩
    · refine congrArg Host.Outcome.next (closeShard_waits (hw.imp (fun hw c' hc' => ?_) id))
      rw [← Option.some.inj (hmod.symm.trans hc')]
      exact hw
    · obtain ⟨k, hk⟩ := Option.ne_none_iff_exists'.1 hk
      refine closeShard_closes hmod hq hr hk hw fun i hi hne => ?_
      rcases hall i hi (by rwa [h0] at hne) with rfl | ⟨e, he, rfl⟩
      · exact ⟨_, List.mem_append_right _ (List.mem_singleton_self _), rfl⟩
      · exact ⟨e, List.mem_append_left _ he, rfl⟩

end Sys2Proof.Machine
end

section
/-! SUPPORT for O39. What the records of a shard leave when they become sessions (16 R432): the restores in progress, the image in force, and every message that has left. -/

namespace Sys2Proof.Machine

variable {s t : State}

/-- A later state has the same restores in progress and the same image in force, and no message is taken back. -/
structure RestoresStand (s t : State) : Prop where
  restores : t.saves.restores = s.saves.restores
  active : t.sched.active = s.sched.active
  msgs : s.out.msgs ⊆ t.out.msgs

theorem report_msgs (code : Nat) (body : Bytes) (s : State) : (report code body s).out.msgs = s.out.msgs :=
  eq_of_aside offCadence (fun s => s.out.msgs) (fun _ => rfl) (ByCadence.report code body (.refl s)).frame

theorem hostOut_msgs (o : Origin) (addr kind : Nat) (b : Bytes) (s : State) : s.out.msgs ⊆ (hostOut o addr kind b s).out.msgs := by
  unfold hostOut hostWrite takeSeq
  split
  · exact List.subset_append_left _ _
  · (repeat' split) <;> exact List.Subset.refl _

theorem dropFrame_msgs (a : Nat) (s : State) : s.out.msgs ⊆ (dropFrame a s).out.msgs := by
  have hput (f : Frame) : (putFrame a f s).out = s.out := eq_of_aside offPages State.out (fun _ => rfl) (offPages_putFrame a f s)
  unfold dropFrame
  split
  · exact List.Subset.refl _
  split
  · rw [hput]
    exact List.Subset.refl _
  split
  · rw [hput]
    exact List.Subset.refl _
  · dsimp only
    split
    · exact List.subset_append_left _ _
    · exact List.Subset.refl _

namespace RestoresStand

theorem refl (s : State) : RestoresStand s s := ⟨rfl, rfl, List.Subset.refl _⟩

theorem trans {u : State} (h : RestoresStand s t) (k : RestoresStand t u) : RestoresStand s u :=
  ⟨k.restores.trans h.restores, k.active.trans h.active, List.Subset.trans h.msgs k.msgs⟩

theorem of_eq (hv : t.saves = s.saves) (hs : t.sched = s.sched) (ho : t.out = s.out) : RestoresStand s t :=
  ⟨by rw [hv], by rw [hs], by rw [ho]; exact List.Subset.refl _⟩

/-- What changes only pages, slots or the tier leaves them. -/
theorem of_offPages (h : offPages t = offPages s) : RestoresStand s t :=
  of_eq (eq_of_aside offPages State.saves (fun _ => rfl) h) (eq_of_aside offPages State.sched (fun _ => rfl) h) (eq_of_aside offPages State.out (fun _ => rfl) h)

theorem of_offSlots (h : offSlots t = offSlots s) : RestoresStand s t :=
  of_eq (eq_of_aside offSlots State.saves (fun _ => rfl) h) (eq_of_aside offSlots State.sched (fun _ => rfl) h) (eq_of_aside offSlots State.out (fun _ => rfl) h)

theorem send (m : Msg) (s : State) : RestoresStand s (send m s) := ⟨rfl, rfl, List.subset_append_left _ _⟩

theorem foldl {α : Type} {f : State → α → State} (hf : ∀ s x, RestoresStand s (f s x)) (l : List α) (s : State) : RestoresStand s (l.foldl f s) :=
  foldl_induct (RestoresStand s) (fun t x h => h.trans (hf t x)) l (refl s)

theorem report (code : Nat) (body : Bytes) (s : State) : RestoresStand s (report code body s) :=
  ⟨by rw [report_saves], by rw [report_sched], by rw [report_msgs]; exact List.Subset.refl _⟩

theorem finish {a : Ans} (h : a.status ≠ stAUTH_FAIL) (w : Work) (s : State) : RestoresStand s (finish w a s) :=
  ⟨by rw [finish_saves], by rw [finish_sched], finish_msgs h w s⟩

theorem withdraw (h : Nat) (s : State) : RestoresStand s (withdraw h s) := by
  unfold Machine.withdraw
  extract_lets mark sealedIn _ s1
  have h1 : RestoresStand s s1 := ⟨rfl, rfl, List.Subset.refl _⟩
  split
  · exact h1.trans (foldl (fun s m => send _ s) _ s1)
  · exact h1

theorem framesDue (l : List Nat) (s : State) : RestoresStand s (framesDue l s) := by
  refine foldl (fun s a => ?_) l s
  unfold frameDue
  split
  · exact refl s
  split
  · exact ⟨eq_of_aside offFrames (fun s => s.saves.restores) (fun _ => rfl) (offFrames_dropFrame a s),
      eq_of_aside offFrames (fun s => s.sched.active) (fun _ => rfl) (offFrames_dropFrame a s), dropFrame_msgs a s⟩
  · exact of_eq rfl rfl rfl

theorem reportCandidate (slot : Nat) (cand : Bool) (s : State) : RestoresStand s (reportCandidate slot cand s) := by
  unfold Machine.reportCandidate
  extract_lets x c _ t
  have ht : RestoresStand s t := ⟨rfl, rfl, List.Subset.refl _⟩
  split
  · exact ht
  split
  · exact ht
  split
  · exact ht
  · exact ht.trans (send _ t)

theorem endEmptyReplay (slot : Nat) (s : State) : RestoresStand s (endEmptyReplay slot s) := by
  unfold Machine.endEmptyReplay
  dsimp only
  split
  · exact (of_eq rfl rfl rfl : RestoresStand s (replayDone slot s)).trans (reportCandidate _ _ _)
  · exact refl s

theorem enterRebuilding (slot : Nat) (s : State) : RestoresStand s (enterRebuilding slot s) := by
  unfold Machine.enterRebuilding
  extract_lets x h f cause s1 s2 s3 s4 s5 _ _ s6 s7 s8 s9 s10
  have hst : stREBUILDING ≠ stAUTH_FAIL := by decide
  split
  · have h3 : RestoresStand s s3 := ((of_eq rfl rfl rfl : RestoresStand s s1).trans (withdraw h s1)).trans (framesDue _ s2)
    have h7 : RestoresStand s s7 := h3.trans ((of_eq rfl rfl rfl : RestoresStand s3 s6).trans (report _ _ s6))
    have h10 : RestoresStand s7 s10 := ((finish hst _ s7).trans (finish hst _ s8)).trans (finish hst _ s9)
    exact (h7.trans h10).trans ((reportCandidate _ _ _).trans (endEmptyReplay _ _))
  · exact refl s

/-! ### One record of a shard -/

theorem shareFrame (a : Nat) (s : State) : RestoresStand s (shareFrame a s) := by
  unfold Machine.shareFrame
  split
  · exact refl s
  · exact of_offPages (offPages_putFrame _ _ s)

theorem placeCapsule (part dest : Nat) (g : Page) (b : Bytes) (s : State) : RestoresStand s (placeCapsule part dest g b s).2 := by
  unfold Machine.placeCapsule
  split
  · exact refl s
  · extract_lets a l f _ u
    have hu : RestoresStand s u := by
      unfold u
      split
      · exact ⟨rfl, rfl, List.subset_append_left _ _⟩
      · exact refl s
    exact hu.trans (of_offPages (offPages_putFrame a f u))

theorem restorePages (part dest : Nat) (l : List Page) (bs : List Bytes) (seen : List (Nat × Nat)) (s : State) :
    RestoresStand s (restorePages part dest l bs seen s).2.2 := by
  induction l generalizing bs seen s with
  | nil => exact refl s
  | cons g rest ih =>
    unfold Machine.restorePages
    split
    · exact (shareFrame _ s).trans (ih _ _ _)
    · exact (placeCapsule _ _ _ _ s).trans (ih _ _ _)

theorem lagAtOpen (slot : Nat) (s : State) : RestoresStand s (lagAtOpen slot s) := by
  unfold Machine.lagAtOpen
  split
  · exact refl s
  · extract_lets s1
    have h1 : RestoresStand s { s1 with evr := { s1.evr with lagNoted := true } } := of_eq rfl rfl rfl
    split
    · exact of_eq rfl rfl rfl
    · exact h1.trans (report _ _ _)

/-- A record that becomes a session, or a guest's pages. -/
theorem restoreRecord (part dest client : Nat) (x : ShardRecord) (a : List (Nat × Nat) × List (Nat × Nat) × State) :
    RestoresStand a.2.2 (restoreRecord part dest client x a).2.2 := by
  unfold Machine.restoreRecord
  extract_lets s b s1 r g
  split
  · split
    · exact refl s
    · next slot _ =>
      extract_lets y _ s2 s3 s4 h s5
      have h1 : RestoresStand s s1 := of_offPages (offPages_takeSlot s)
      have hr : RestoresStand s1 r.2.2 := by
        unfold r
        split
        · exact refl s1
        · exact restorePages _ _ _ _ _ s1
      have h2 : RestoresStand r.2.2 s2 := of_eq rfl rfl rfl
      have h3 : RestoresStand s2 s3 := of_offSlots (adoptSet_keeps slot b s2).2
      have h4 : RestoresStand s3 s4 := ((of_offPages (offPages_growSegments slot s3)).trans (lagAtOpen slot _)).trans (of_offPages (queueLedger_keeps slot _).2)
      have h5 : RestoresStand s4 s5 := by
        unfold s5
        split
        · exact enterRebuilding slot s4
        · exact refl s4
      exact (h1.trans hr).trans ((h2.trans h3).trans (h4.trans h5))
  · exact (restorePages _ _ _ _ _ s).trans (of_eq rfl rfl rfl)

theorem restoreAdapters (part n : Nat) (b : Bytes) (s : State) : RestoresStand s (restoreAdapters part n b s) := by
  induction n generalizing b s with
  | zero => exact refl s
  | succ n ih =>
    unfold Machine.restoreAdapters
    split
    · exact refl s
    · exact (of_eq rfl rfl rfl : RestoresStand s (modAdapter _ _ s)).trans (ih _ _)

end RestoresStand

end Sys2Proof.Machine
end

section
/-! PROOF of O39. Restores: RESTORE (16 R430), the rounds of staging, REPORT, COMMIT and DONE (16 R429, R431), and their ends. -/

namespace Sys2Proof.Machine

variable {p : Packet} {s t : State} {part : Nat} {r : Restoring}

/-! ### The restore of a partition -/

theorem restoreOf_partition (h : restoreOf s part = some r) : r.partition = part := by simpa using List.find?_some h

/-- A change that leaves the partition of a restore is what the partition's restore reads. -/
theorem restoreOf_modRestore {f : Restoring → Restoring} (hp : ∀ r, (f r).partition = r.partition) (s : State) :
    restoreOf (modRestore part f s) part = (restoreOf s part).map f := by
  have hsame : (fun r : Restoring => r.partition == part) ∘ (fun r => if r.partition = part then f r else r) = fun r => r.partition == part := by
    funext r
    simp only [Function.comp]
    split <;> simp [hp]
  change List.find? _ (List.map _ _) = _
  rw [List.find?_map, hsame]
  cases h : s.saves.restores.find? (fun r => r.partition == part) with
  | none => simp [restoreOf, h]
  | some r =>
    have hr : r.partition = part := restoreOf_partition h
    simp [restoreOf, h, hr]

theorem modRestore_modRestore {f : Restoring → Restoring} (hp : ∀ r, (f r).partition = r.partition) (g : Restoring → Restoring) (s : State) :
    modRestore part g (modRestore part f s) = modRestore part (fun r => g (f r)) s := by
  have hmap : (fun r : Restoring => if r.partition = part then g r else r) ∘ (fun r => if r.partition = part then f r else r)
      = fun r => if r.partition = part then g (f r) else r := by
    funext r
    by_cases h : r.partition = part <;> simp [h, hp]
  unfold modRestore
  rw [List.map_map, hmap]

/-- A restore that ends leaves its partition without one, and no command waits for it. -/
theorem endRestore_ends (part : Nat) (a : Ans) (s : State) : restoreOf (endRestore part a s) part = none ∧ commandOf (endRestore part a s) (.restoring part) = none := by
  refine ⟨?_, commandOf_finish _ _ _⟩
  unfold restoreOf endRestore
  rw [finish_saves]
  exact List.find?_eq_none.2 fun r hr => by simpa using (List.mem_filter.1 hr).2

/-! ### RESTORE -/

theorem execRestore_passes {ms : List Manifest} {report : Nat} {shards : List Shard} (ho : opcodeOf p = 0x42) (h : passes never p s = some t) :
    exec (.restore p ms report shards) s = .next (dropRecognised p (restoreBody ms report shards 0 p t)) := next_serve_passes ho h

/-- What a manifest must be for its restore to stand (16 R430). -/
structure Restorable (part : Nat) (q : Partition) (m : Manifest) (s : State) : Prop where
  length : m.lengthOk = true
  sound : manifestFault m = none
  authentic : m.signed = true
  tenant : m.tenantDigest = s.sec.policy.elim 0 TenantPolicy.digest
  shape : shapeFault s part q m = none
  vocabs : vocabShort s m = none

theorem restoreBody_stands {q : Partition} {m : Manifest} {report : Nat} {shards : List Shard} (hq : partitionAt s (argOf p 20 1) = some q) (hm : Restorable (argOf p 20 1) q m s)
    (hfree : partitionHeld s (argOf p 20 1) = false) (hc : checkpointOf s (argOf p 20 1) = none) (hr : ∀ r ∈ s.saves.restores, r.partition ≠ argOf p 20 1) (hserved : slotsServed s = true) :
    restoreBody [m] report shards 0 p s = accept p (.restoring (argOf p 20 1)) { s with saves := { s.saves with
      restores := s.saves.restores ++ [{ partition := argOf p 20 1, cands := [(m.step, m.shardDigests)], shards := shards, client := p.client, reportAt := report }] } } := by
  obtain ⟨hlength, hsound, hsigned, htenant, hshape, hvocabs⟩ := hm
  cases hp : s.sec.policy <;> rw [hp] at htenant <;> simp [restoreBody, hq, hlength, hsound, hsigned, hp, htenant, hshape, hvocabs, hfree, hc, hserved] <;>
    exact fun r hr' h => absurd h (hr r hr')

/-! ### Reports (16 R429, R431) -/

/-- While a position's report misses, position 0 keeps what has come. -/
theorem takeReport_waits {position step value : Nat} (h : restoreOf s part = some r) (hstep : r.cands.head?.map (fun c => c.1) = some step) (hnew : ∀ e ∈ r.reports, e.1 ≠ position)
    (hcom : r.committed = false) (hmiss : ∃ i, i < ringSizeOf s part ∧ i ≠ position ∧ ∀ e ∈ r.reports, e.1 ≠ i) :
    takeReport part position step value s = modRestore part (fun r => { r with reports := r.reports ++ [(position, value)] }) s := by
  have hany : r.reports.any (fun e => e.1 == position) = false := List.any_eq_false.2 fun e he => by simpa using hnew e he
  have hafter : restoreOf (modRestore part (fun r => { r with reports := r.reports ++ [(position, value)] }) s) part
      = some { r with reports := r.reports ++ [(position, value)] } := by
    rw [restoreOf_modRestore (by exact fun _ => rfl), h]
    rfl
  unfold takeReport
  rw [h]
  dsimp only
  rw [hstep, hany, hcom, if_neg (by simp), decide_, hafter]
  refine if_pos ?_
  obtain ⟨i, hi, hne, hnone⟩ := hmiss
  rw [Bool.not_eq_true', List.all_eq_false]
  refine ⟨i, List.mem_range.2 hi, ?_⟩
  rw [List.any_eq_true]
  rintro ⟨e, he, hei⟩
  rcases List.mem_append.1 he with he | he
  · exact hnone e he (by simpa using hei)
  · rw [List.mem_singleton.1 he] at hei
    exact hne (by simpa using hei : position = i).symm

/-- The last report, all of them 0: COMMIT 1 goes out, and position 0 applies it. -/
theorem takeReport_commits {position step : Nat} (h : restoreOf s part = some r) (hstep : r.cands.head?.map (fun c => c.1) = some step) (hnew : ∀ e ∈ r.reports, e.1 ≠ position)
    (hcom : r.committed = false) (hall : ∀ i, i < ringSizeOf s part → i = position ∨ ∃ e ∈ r.reports, e.1 = i) (hzero : ∀ e ∈ r.reports, e.2 = 0) :
    takeReport part position step 0 s = applyCommit part 1 (shardToAll part 3 1 step (modRestore part (fun r => { r with reports := r.reports ++ [(position, 0)] }) s)) := by
  have hany : r.reports.any (fun e => e.1 == position) = false := List.any_eq_false.2 fun e he => by simpa using hnew e he
  have hafter : restoreOf (modRestore part (fun r => { r with reports := r.reports ++ [(position, 0)] }) s) part = some { r with reports := r.reports ++ [(position, 0)] } := by
    rw [restoreOf_modRestore (by exact fun _ => rfl), h]
    rfl
  have hzero' : ∀ e ∈ r.reports ++ [(position, 0)], e.2 = 0 := fun e he => (List.mem_append.1 he).elim (hzero e) (fun he => by rw [List.mem_singleton.1 he])
  have hthree : (r.reports ++ [(position, 0)]).any (fun e => e.2 == 3) = false := List.any_eq_false.2 fun e he => by rw [hzero' e he]; decide
  have hzeros : (r.reports ++ [(position, 0)]).all (fun e => e.2 == 0) = true := List.all_eq_true.2 fun e he => by rw [hzero' e he]; rfl
  unfold takeReport
  rw [h]
  dsimp only
  rw [hstep, hany, hcom, if_neg (by simp), decide_, hafter]
  dsimp only
  rw [hthree, hzeros, hstep]
  refine if_neg ?_
  rw [Bool.not_eq_true', Bool.not_eq_false, List.all_eq_true]
  intro i hi
  rw [List.any_eq_true]
  rcases hall i (List.mem_range.1 hi) with rfl | ⟨e, he, rfl⟩
  · exact ⟨_, List.mem_append_right _ (List.mem_singleton_self _), beq_self_eq_true _⟩
  · exact ⟨e, List.mem_append_left _ he, beq_self_eq_true _⟩

/-- A SHARD message to all reaches every other member of the ring. -/
theorem shardToAll_sends {k : Nat} (part type value step : Nat) (s : State) (hk : k ∈ ringPeers s part) :
    .shard k type ⟨part, ownPosition s part, step, value, 0⟩ ∈ (shardToAll part type value step s).out.msgs := by
  unfold shardToAll
  rw [foldl_send_eq (fun s k => .shard k type ⟨part, ownPosition s part, step, value, 0⟩) (fun _ _ _ => rfl)]
  exact List.mem_append_right _ (List.mem_map_of_mem hk)

theorem RestoresStand.shardToAll (part type value step : Nat) (s : State) : RestoresStand s (shardToAll part type value step s) :=
  .foldl (fun s _ => .send _ s) _ s

/-! ### COMMIT (16 R431, R432) -/

theorem RestoresStand.restoreRecords (part dest client : Nat) (l : List ShardRecord) (a : List (Nat × Nat) × List (Nat × Nat) × State) :
    RestoresStand a.2.2 (l.foldl (fun a q => Machine.restoreRecord part dest client q a) a).2.2 := by
  induction l generalizing a with
  | nil => exact .refl _
  | cons x rest ih => exact (RestoresStand.restoreRecord part dest client x a).trans (ih _)

/-- A commit marks the restore, and its records' sessions leave the restores, the image and the messages. -/
theorem commitRestore_commits (r : Restoring) (s : State) :
    ∃ f u, commitRestore r s = modRestore r.partition f u ∧ RestoresStand s u ∧ ∀ x, (f x).partition = x.partition ∧ (f x).committed = true := by
  unfold commitRestore
  dsimp only
  split
  · exact ⟨_, _, rfl, .refl s, fun _ => ⟨rfl, rfl⟩⟩
  · exact ⟨_, _, rfl, (RestoresStand.restoreRecords _ _ _ _ ([], [], s)).trans (.restoreAdapters _ _ _ _), fun _ => ⟨rfl, rfl⟩⟩

theorem RestoresStand.ringOf (h : RestoresStand s t) (part : Nat) : ringOf t part = ringOf s part := by rw [Machine.ringOf, h.active, Machine.ringOf]

theorem RestoresStand.ownPosition (h : RestoresStand s t) (part : Nat) : ownPosition t part = ownPosition s part := by
  rw [Machine.ownPosition, h.ringOf, Machine.ownPosition]

/-- COMMIT 1 away from position 0: the restore is committed, and DONE goes to position 0. -/
theorem applyCommit_done (h : restoreOf s part = some r) (hpos : ownPosition s part ≠ 0) :
    (∃ r', restoreOf (applyCommit part 1 s) part = some r' ∧ r'.committed = true)
      ∧ .shard (((ringOf s part).map (fun g => g.members.headD 0)).getD 0) 4 ⟨part, ownPosition s part, (r.cands.head?.map (fun c => c.1)).getD 0, 0, 0⟩ ∈ (applyCommit part 1 s).out.msgs := by
  obtain rfl := restoreOf_partition h
  obtain ⟨f, u, he, hu, hf⟩ := commitRestore_commits r s
  have hown : ownPosition (commitRestore r s) r.partition = ownPosition s r.partition := by
    rw [he]
    exact hu.ownPosition r.partition
  have hring : ringOf (commitRestore r s) r.partition = ringOf s r.partition := by
    rw [he]
    exact hu.ringOf r.partition
  have hrestore : restoreOf (commitRestore r s) r.partition = some (f r) := by
    rw [he, restoreOf_modRestore (fun x => (hf x).1), restoreOf, hu.restores]
    exact congrArg (Option.map f) h
  unfold applyCommit
  rw [h]
  dsimp only
  rw [if_pos rfl, hown, if_neg hpos, hring]
  exact ⟨⟨f r, hrestore, (hf r).2⟩, List.mem_append_right _ (List.mem_singleton_self _)⟩

theorem endRestore_msgs {a : Ans} (h : a.status ≠ stAUTH_FAIL) (part : Nat) (s : State) : s.out.msgs ⊆ (endRestore part a s).out.msgs :=
  finish_msgs h (.restoring part) { s with saves := { s.saves with restores := s.saves.restores.filter (fun r => r.partition != part) } }

theorem allDone_msgs (part : Nat) (s : State) : s.out.msgs ⊆ (allDone part s).out.msgs := by
  unfold allDone
  split
  · exact List.Subset.refl _
  split
  · exact List.Subset.refl _
  · extract_lets b u
    have hu : s.out.msgs ⊆ u.out.msgs := by
      unfold u
      split
      · split
        · exact List.Subset.refl _
        · exact hostOut_msgs _ _ _ _ s
      · exact List.Subset.refl _
    exact List.Subset.trans hu (endRestore_msgs (show stOK ≠ stAUTH_FAIL by decide) part u)

theorem checkDones_msgs (part : Nat) (s : State) : s.out.msgs ⊆ (checkDones part s).out.msgs := by
  unfold checkDones
  split
  · exact List.Subset.refl _
  split
  · exact List.Subset.trans (RestoresStand.shardToAll part 5 0 _ s).msgs (allDone_msgs part _)
  · exact List.Subset.refl _

/-- A commit takes no message back. -/
theorem applyCommit_msgs (part : Nat) (s : State) : s.out.msgs ⊆ (applyCommit part 1 s).out.msgs := by
  unfold applyCommit
  split
  · exact List.Subset.refl _
  · next r _ =>
    obtain ⟨f, u, he, hu, -⟩ := commitRestore_commits r s
    have hc : s.out.msgs ⊆ (commitRestore r s).out.msgs := he ▸ hu.msgs
    dsimp only
    rw [if_pos rfl]
    split
    · exact List.Subset.trans hc (checkDones_msgs part (modRestore part (fun r => { r with dones := r.dones ++ [0] }) (commitRestore r s)))
    · exact List.Subset.trans hc (List.subset_append_left _ _)

/-! ### The rows -/

/-- The row of COMMIT, for the step in hand and away from position 0. -/
theorem execShardCommit_applies {m : ShardMsg} {c : Nat × List Digest} {rest : List (Nat × List Digest)} (h : restoreOf s m.partition = some r) (hc : r.cands = c :: rest) (hm : c.1 = m.step)
    (hcom : r.committed = false) (hpos : ownPosition s m.partition ≠ 0) : exec (.shardCommit m) s = .next (applyCommit m.partition m.value s) := by
  change execShardCommit m s = _
  rw [execShardCommit, h]
  exact congrArg Host.Outcome.next (if_pos ⟨by rw [hc, ← hm]; rfl, by simp [hcom], hpos⟩)

theorem applyCommit_refused (h : restoreOf s part = some r) : applyCommit part 2 s = match r.short with
    | some d => endRestore part (noResource d) s
    | none => endRestore part (noResource ((freeValue s).1 % 2 ^ 16)) (freeValue s).2 := by
  unfold applyCommit
  rw [h]
  rfl

theorem applyCommit_next {v : Nat} (h : restoreOf s part = some r) (h1 : v ≠ 1) (h2 : v ≠ 2) : applyCommit part v s = nextCandidate r s := by
  unfold applyCommit
  rw [h]
  dsimp only
  rw [if_neg h1, if_neg h2]

/-- The next step away from position 0, which knows not how many positions verified. -/
theorem nextCandidate_tries {c d : Nat × List Digest} {rest : List (Nat × List Digest)} (hc : r.cands = c :: d :: rest) (hpos : ownPosition s r.partition ≠ 0) :
    nextCandidate r s = { modRestore r.partition (fun x => { x with
      cands := d :: rest, tried := r.tried ++ [(c.1, (freeValue s).1, c.2.length)], reports := [], short := none }) s with freeCtr := s.freeCtr + 1 } := by
  unfold nextCandidate
  rw [hc]
  simp only [hpos, if_false]
  rfl

theorem nextCandidate_ends {c : Nat × List Digest} (hc : r.cands = [c]) (s : State) :
    restoreOf (nextCandidate r s) r.partition = none ∧ commandOf (nextCandidate r s) (.restoring r.partition) = none := by
  unfold nextCandidate
  rw [hc]
  exact endRestore_ends _ _ _

theorem allDone_uncommitted (h : restoreOf s part = some r) (hcom : r.committed = false) : allDone part s = s := by
  unfold allDone
  rw [h]
  exact if_pos (by simp [hcom])

/-- The end of a restore, with its handles in the report's buffer where a command waits for it. -/
theorem allDone_ends (h : restoreOf s part = some r) (hcom : r.committed = true) :
    (∃ u, allDone part s = endRestore part { status := stOK, count0 := r.homes.length } u)
      ∧ (r.homes = [] ∨ commandOf s (.restoring part) = none → allDone part s = endRestore part { status := stOK, count0 := r.homes.length } s) := by
  unfold allDone
  rw [h]
  dsimp only
  rw [if_neg (by simp [hcom])]
  refine ⟨⟨_, rfl⟩, fun hnone => congrArg _ ?_⟩
  split
  · next c hc => rw [hnone.resolve_right (by rw [hc]; exact Option.some_ne_none _)]; rfl
  · rfl

theorem checkDones_waits (h : restoreOf s part = some r) (hmiss : ∃ i, i < ringSizeOf s part ∧ i ∉ r.dones) : checkDones part s = s := by
  unfold checkDones
  rw [h]
  refine if_neg ?_
  obtain ⟨i, hi, hne⟩ := hmiss
  rw [Bool.not_eq_true, List.all_eq_false]
  exact ⟨i, List.mem_range.2 hi, by simpa using hne⟩

theorem execRestoreStagingDone_eq {c : Nat × List Digest} {value v : Nat} (h : restoreOf s part = some r) (hc : r.cands.head? = some c)
    (hv : v = (match listedShard s r c.1 with | none => 2 | some x => if c.2[ownPosition s part]? ≠ some x.digest ∨ value = 1 then 1 else if (stagingShort s x).isSome then 3 else value)) :
    exec (.restoreStagingDone part value) s = .next (if ownPosition s part = 0
      then takeReport part 0 c.1 v (modRestore part (fun x => { x with short := (listedShard s r c.1).bind (fun y => stagingShort s y) }) s)
      else send (.shard (((ringOf s part).map (fun g => g.members.headD 0)).getD 0) 2 ⟨part, ownPosition s part, c.1, v, 0⟩)
        (modRestore part (fun x => { x with short := (listedShard s r c.1).bind (fun y => stagingShort s y) }) s)) := by
  change execRestoreStagingDone part value s = _
  rw [execRestoreStagingDone, h]
  dsimp only
  rw [hc]
  dsimp only
  subst hv
  cases listedShard s r c.1 <;> rfl

theorem execRestoreTimeout_ends (h : restoreOf s part = some r) (hcom : r.committed = false) :
    exec (.restoreTimeout part) s = .next (if ownPosition s part = 0
      then endRestore part { status := stSHAPE_MISMATCH, detail := ((List.range (ringSizeOf s part)).find? (fun i => !r.reports.any (fun e => e.1 == i))).getD 0 } s
      else endRestore part { status := stSHAPE_MISMATCH, detail := (freeValue s).1 % 2 ^ 16 } (freeValue s).2) := by
  change execRestoreTimeout part s = _
  rw [execRestoreTimeout, h]
  exact congrArg Host.Outcome.next (if_neg (by simp [hcom]))

theorem execRestoreRows_none {m : ShardMsg} {value : Nat} (h : restoreOf s m.partition = none) :
    exec (.restoreStagingDone m.partition value) s = .next s ∧ exec (.shardReport m) s = .next s ∧ exec (.shardCommit m) s = .next s
      ∧ exec (.shardDone m) s = .next s ∧ exec (.shardAllDone m) s = .next s ∧ exec (.restoreTimeout m.partition) s = .next s := by
  change execRestoreStagingDone _ _ s = _ ∧ execShardReport m s = _ ∧ execShardCommit m s = _ ∧ execShardDone m s = _ ∧ execShardAllDone m s = _ ∧ execRestoreTimeout _ s = _
  simp only [execRestoreStagingDone, execShardReport, takeReport, execShardCommit, execShardDone, execShardAllDone, allDone, execRestoreTimeout, h, ite_self, and_self]

/-- Settles O39: each round by the restore it reads; a commit's sessions leave the restores, the image and the messages. -/
theorem restoreRuns : Obligations.RestoreRuns := by
  unfold Obligations.RestoreRuns
  refine ⟨?restore, ?staged, ?reported, ?commit, ?done, ?allDone, ?timeout, fun m value s h => execRestoreRows_none h⟩
  case restore =>
    intro p m q report shards s t ho h hq hlength hsound hsigned hnone hsome hshape hvocabs hheld hc hr hserved
    have htenant : m.tenantDigest = t.sec.policy.elim 0 TenantPolicy.digest := by
      cases hp : t.sec.policy with
      | none => exact hnone hp
      | some y => exact hsome y hp
    rw [execRestore_passes ho h, restoreBody_stands hq ⟨hlength, hsound, hsigned, htenant, hshape, hvocabs⟩ hheld hc hr hserved]
    rfl
  case staged =>
    intro part value v r c s h hc hv
    rw [execRestoreStagingDone_eq h hc hv]
    refine ⟨fun hpos => by rw [if_neg hpos], fun hpos hcom hnew hmiss => ?_⟩
    have hshort : restoreOf (modRestore part (fun x => { x with short := (listedShard s r c.1).bind (fun y => stagingShort s y) }) s) part
        = some { r with short := (listedShard s r c.1).bind (fun y => stagingShort s y) } := by
      rw [restoreOf_modRestore (by exact fun _ => rfl), h]
      rfl
    rw [if_pos hpos, takeReport_waits hshort (congrArg (Option.map (fun c => c.1)) hc) hnew hcom hmiss, modRestore_modRestore (by exact fun _ => rfl)]
  case reported =>
    intro m r c s h hc hm hcom hpos hnew
    have hexec : exec (.shardReport m) s = .next (takeReport m.partition m.position m.step m.value s) := congrArg Host.Outcome.next (if_pos hpos)
    have hstep : r.cands.head?.map (fun c => c.1) = some m.step := by rw [hc, ← hm]; rfl
    refine ⟨fun hmiss => by rw [hexec, takeReport_waits h hstep hnew hcom hmiss], fun hall hzero hzeros => ⟨_, hexec, fun k hk => ?_⟩⟩
    rw [hzero, takeReport_commits h hstep hnew hcom hall hzeros]
    refine applyCommit_msgs _ _ (hpos ▸ shardToAll_sends m.partition 3 1 m.step _ hk)
  case commit =>
    intro m r c rest s h hc hm hcom hpos
    rw [execShardCommit_applies h hc hm hcom hpos]
    obtain hpart := restoreOf_partition h
    refine ⟨fun h1 => ?_, fun d h2 hd => ?_, fun h2 hd => ?_, fun h1 h2 hrest => ?_, fun h1 h2 hrest => ?_⟩
    · obtain ⟨⟨r', hr', hcom'⟩, hmsg⟩ := applyCommit_done h hpos
      rw [h1]
      exact ⟨_, r', rfl, hr', hcom', by rwa [hc] at hmsg⟩
    · rw [h2, applyCommit_refused h, hd]
      rfl
    · rw [h2, applyCommit_refused h, hd]
      exact ⟨_, rfl⟩
    · obtain ⟨d, rest', rfl⟩ := List.exists_cons_of_ne_nil hrest
      rw [applyCommit_next h h1 h2, nextCandidate_tries hc (by rw [hpart]; exact hpos), hpart]
      exact ⟨_, rfl⟩
    · subst hrest
      rw [applyCommit_next h h1 h2, ← hpart]
      exact ⟨_, rfl, nextCandidate_ends hc s⟩
  case done =>
    intro m r s h hpos hnew hmiss
    have hafter : restoreOf (modRestore m.partition (fun x => { x with dones := x.dones ++ [m.position] }) s) m.partition = some { r with dones := r.dones ++ [m.position] } := by
      rw [restoreOf_modRestore (by exact fun _ => rfl), h]
      rfl
    obtain ⟨i, hi, hne, hnone⟩ := hmiss
    change execShardDone m s = _
    rw [execShardDone, h]
    dsimp only
    rw [if_neg (by simp [hpos, hnew]), checkDones_waits hafter ⟨i, hi, by simp [hne, hnone]⟩]
  case allDone =>
    intro m r s h
    have hexec : exec (.shardAllDone m) s = .next (Machine.allDone m.partition s) := rfl
    rw [hexec]
    refine ⟨fun hcom => ?_, fun hcom hnone => ?_, fun hcom => by rw [allDone_uncommitted h hcom]⟩
    · obtain ⟨u, hu⟩ := (allDone_ends h hcom).1
      rw [hu]
      exact ⟨_, rfl, endRestore_ends _ _ u⟩
    · rw [(allDone_ends h hcom).2 hnone]
      rfl
  case timeout =>
    intro part r s h hcom
    rw [execRestoreTimeout_ends h hcom]
    refine ⟨fun hpos => by rw [if_pos hpos]; rfl, fun hpos => ?_⟩
    rw [if_neg hpos]
    exact ⟨_, rfl⟩

end Sys2Proof.Machine
end
